-- ==== Sys2Proof/Word.lean ====
section
/-! DEFINITION. The words of the FZ-4192: 32-bit register words, bytes, the 64-bit general register of a Nimyor target. -/

namespace Sys2Proof

/-- One byte. -/
abbrev Byte := BitVec 8

/-- A register word, 32 bits (R315, R323). -/
abbrev Word := BitVec 32

/-- A 64-bit quantity: a tick index (R33), a general register (R276). -/
abbrev DWord := BitVec 64

/-- An exported stamp (R43): seconds, nanoseconds, sub-ns [2^-16 ns]. -/
structure Stamp where
  sec : BitVec 48
  ns : BitVec 32
  sub : BitVec 16
  deriving DecidableEq, Repr

end Sys2Proof
end

