-- ==== Sys2Proof/Syntax.lean ====
section
/-! DEFINITION. The commands of the FZ-4192: one constructor of `Instr` for each row of spec/opcode_table.json, with
the operands the row's rule gives it. What a command does is in Machine/. -/

namespace Sys2Proof

/-- The five kinds of register master (R315): host functions 0 and 1, side-band, steward, engine n. -/
inductive Path where
  | f0
  | f1
  | sb
  | stw
  | eng (n : Fin 8)
  deriving DecidableEq, Repr

/-- A Nimyor execution target (R275): an engine or a loop datapath. -/
inductive Tgt where
  | eng (n : Fin 8)
  | loop (n : Fin 16)
  deriving DecidableEq, Repr

/-- A destination of steering words (R18, R86): a datum clock, a synthesizer, a loop's own tally. -/
inductive Dest where
  | datum (d : Fin 8)
  | syn (y : Fin 8)
  | tally (n : Fin 16)
  deriving DecidableEq, Repr

/-- A crossing whose words wait for their arrival (R15, R16): steering words of one loop to one destination, or
stamps of one survey group to datum island A (0) or B (1). -/
inductive Xing where
  | steer (src : Fin 16) (dst : Dest)
  | stamp (g : Fin 12) (isl : Fin 2)
  deriving DecidableEq, Repr

/-- A program port (R288). -/
inductive ProgPort where
  | eng (n : Fin 8)
  | loop (n : Fin 16)
  | plan
  deriving DecidableEq, Repr

/-- The registers of a statistics unit that drop its open window (R183). -/
inductive StatsReg where
  | cfg
  | winN
  | winMs
  | nomHi
  | nomLo
  deriving DecidableEq, Repr

/-- The PEC of an SMBus write (R331). -/
inductive Pec where
  | absent
  | given (b : Byte)
  deriving DecidableEq, Repr

/-- The straps as read from their balls (R395, R448). -/
structure Straps where
  bootHost : Bool
  recovN : Bool
  oscSel : BitVec 2
  sbKeeper : Bool
  sbAddr : BitVec 2
  deriving DecidableEq, Repr

/-- A boundary event of a port's lane clock as its interpolator stamps it: latching tick and TDC fraction [2^-12 ns] (R42). -/
structure Edge where
  k : BitVec 64
  d : BitVec 14
  deriving DecidableEq, Repr

/-- What a received PTP message carries beside its timestamps: its correction field (R244), and the TLVs that the packet
timing engine does not hand on (R240): how many of other types, and whether one is AUTHENTICATION. -/
structure PtpTail where
  cf : BitVec 64
  others : Nat
  auth : Bool
  deriving DecidableEq, Repr

/-- The flags of a Sync that the packet timing engine reads (R242). -/
structure SyncFlags where
  twoStep : Bool
  ptpTimescale : Bool
  deriving DecidableEq, Repr

/-- The timestamp point of one frame: its boundary event and the variable part of its delay (R42, R234). -/
structure Point where
  edge : Edge
  var : Nat
  deriving DecidableEq, Repr

/-- The message type of a unicast grant (R243). -/
inductive Grant where
  | sync
  | announce
  | delayResp
  deriving DecidableEq, Repr

/-- The side on which a grant's duration ends (R243): a session this end is slave of, or a message type it serves. -/
inductive Lapse where
  | slave
  | master (k : Grant)
  deriving DecidableEq, Repr

/-- A measured supply of an output bank [mV] (R224). -/
structure BankSupply where
  b : Fin 12
  mv : Nat
  deriving DecidableEq, Repr

/-- A received SURVEY frame's SEQ, ACK and SURV_ID (R250, R265). -/
structure SurveyHead where
  seq : Byte
  ack : Byte
  id : Byte
  deriving DecidableEq, Repr

/-- One PHASE frame's payload (R260). -/
structure PhaseFrame where
  pxSeq : BitVec 16
  t3 : Stamp
  echoSeq : BitVec 16
  t2 : Stamp
  echoValid : Bool
  reversed : Bool
  unwarmed : Bool
  deriving DecidableEq, Repr

/-- An enhanced SSM TLV: the code, the SyncE clock identity, the eEEC and EEC counts and the mixed-chain flag (R237). -/
structure Essm where
  code : Byte
  clockId : BitVec 64
  eeec : Byte
  eec : Byte
  mixed : Bool
  deriving DecidableEq, Repr

/-- A frame of another controller as a module-bus port sees it (R343, R347): its bytes; in a TRAVERSE pass, the bit of IDENT for
which this device left its window high and sampled 0, if there is one. -/
structure BusFrame where
  bytes : List Byte
  dropOut : Option Nat
  deriving DecidableEq, Repr

/-- How a module-bus transaction ends for this controller (R343, R344, R349): answered; no target in the roll-call cell; lost
at bit `bit` of its frame; the line stuck. -/
inductive MbEnd where
  | answered (bytes : List Byte)
  | noTarget
  | arbLost (bit : Nat)
  | stuck
  deriving DecidableEq, Repr

/-- What starts a traverse (R346). -/
inductive TravCause where
  | enable
  | interval
  | attach
  | unreachable
  | command (p : Path)
  deriving DecidableEq, Repr

/-- A PCIe configuration-space or MSI-X table write that matters to the block (R320). -/
inductive PcieCfg where
  | busMaster (on : Bool)
  | msixEnable (on : Bool)
  | functionMask (on : Bool)
  | vectorMask (v : Fin 32) (masked : Bool)
  | vectorAddress (v : Fin 32) (a : BitVec 64)
  | vectorData (v : Fin 32) (d : Word)
  | barAddress (second : Bool) (a : BitVec 64)
  deriving DecidableEq, Repr

/-- How a drain batch's writes end (R199): all accepted, a completion error, an unsupported request. -/
inductive DrainEnd where
  | ok
  | completionError
  | unsupported
  deriving DecidableEq, Repr

/-- An edge that an alignment line's interpolator latches (R42, R227, R229): latching tick and fraction. -/
structure LineEdge where
  k : DWord
  d : BitVec 14
  deriving DecidableEq, Repr

/-- The commands of the block. Operands: `p` the path of a register access; `n`, `src`, `d`, `y`, `ch`, `g`, `u`,
`b` the instance; `v` a register word. A fine time `d : BitVec 14` is a TDC fraction [2^-12 ns] (R42). -/
inductive Instr where
  -- islands, oven loss, crossings (R11 to R23)
  | oscLost
  | oscBack
  | synbPullInEnd (locked : Bool)
  | tickIndexCompare
  | crossingWordArrival (x : Xing)
  | applyTick (dst : Dest)
  | candWrite (p : Path) (n : Fin 16) (i : Fin 16) (v : Word)
  | svinMapWrite (p : Path) (i : Fin 24) (v : Word)
  | datumTick
  | stepHoldRelease (d : Fin 8)
  -- survey stamps and the book writer
  | surveyEdge (ch : Fin 192) (fall : Bool) (code : BitVec 12)
  | burstFifoDrain (g : Fin 12)
  | stampArrival (g : Fin 12) (isl : Fin 2)
  | fieldBookWrite
  -- references and monitors (R53 to R85)
  | refinEdge (n : Fin 16) (fall : Bool) (d : BitVec 14)
  | monitorEvent (src : Fin 96) (d : BitVec 14)
  | clockLosTimeout (n : Fin 16)
  | sourceLosReport (src : Fin 96)
  | actMissTimeout (src : Fin 96)
  | freqGateClose (src : Fin 96)
  | phaseSample (src : Fin 96)
  | phaseHoldExpiry (src : Fin 96)
  | slotEnable (p : Path) (src : Fin 96)
  | slotDisable (p : Path) (src : Fin 96)
  | lockoutSet (p : Path) (src : Fin 96)
  | lockoutClear (p : Path) (src : Fin 96)
  | qualOwnerWrite (p : Path) (src : Fin 96) (v : BitVec 4)
  | refinCfgWrite (p : Path) (n : Fin 16) (v : Word)
  | delayCompWrite (p : Path) (src : Fin 96) (v : Word)
  | delayCompApply (src : Fin 96)
  | wtrExpiry (src : Fin 96)
  | verdictWrite (p : Path) (src : Fin 96) (v : Word)
  | verdictStale (src : Fin 96)
  | qlFailed (n : Fin 16)
  | ovenWarmPin (level : Bool)
  | ovenWarmDebounced
  | settleGateClose (src : Fin 96)
  | settleTimeout
  | settleWrite (p : Path) (slope : Bool) (v : Word)
  | rcRead (p : Path) (off : Word)
  -- loops, selection, holdover, twins (R86 to R139)
  | sampleClose (n : Fin 16)
  | acqTimeout (n : Fin 16)
  | loopEnable (p : Path) (n : Fin 16)
  | loopDisable (p : Path) (n : Fin 16)
  | loopConsumerSelect (p : Path) (n : Fin 16) (dsel ssel : BitVec 4)
  | free (p : Path) (n : Fin 16)
  | hoClear (p : Path) (n : Fin 16)
  | sampleRateWrite (p : Path) (n : Fin 16) (v : Word)
  | candBarClear (p : Path) (n : Fin 16) (v : Word)
  | selectionTick (n : Fin 16)
  | selectorEvaluate (n : Fin 16)
  | selectWrite (p : Path) (n : Fin 16) (v : Word)
  | holdoffExpiry (n : Fin 16)
  | switchCommit (n : Fin 16)
  | slewEnd (d : Fin 8)
  | bslewWrite (p : Path) (d : Fin 8) (v : Word)
  | qualifyingSecond (n : Fin 16)
  | holdoverSecond (n : Fin 16)
  | holdoverExpired (n : Fin 16)
  | tempLostTimeout
  | ovenModelBlock
  | modelClear (p : Path)
  | twinEnable (p : Path) (n : Fin 16)
  | twinDisable (p : Path) (n : Fin 16)
  | swap (p : Path) (n : Fin 16)
  -- datum clocks and time outputs (R140 to R157)
  | timeLabel (src : Fin 96)
  | utcWrite (p : Path) (d : Fin 8) (v : Word)
  | leapSecond (d : Fin 8)
  | ppsEdge (ch : Fin 192)
  | pulseTrail (ch : Fin 192)
  | todMessage (ch : Fin 192)
  | nowLatchRead (p : Path) (d : Fin 8)
  -- survey channels (R158 to R182)
  | graticuleFetch (g : Fin 12) (j : Fin 4)
  | graticuleFire (g : Fin 12) (j : Fin 4)
  | rotationStepStart (g : Fin 12)
  | calTableBuilt (g : Fin 12) (hist : List Nat)
  | relief (g : Fin 12) (dr dx : List (BitVec 12)) (tap : Bool)
  | reliefLostTimeout (g : Fin 12)
  | channelModeWrite (p : Path) (ch : Fin 192) (v : Word)
  | handoverEnd (ch : Fin 192)
  | intervalOverflow (ch : Fin 192)
  | periodOverflow (ch : Fin 192)
  | uartRxByte (ch : Fin 192) (b : Byte) (parityBit stop1 stop2 : Bool)
  | rxdataRead (p : Path) (ch : Fin 192)
  | txdataWrite (p : Path) (ch : Fin 192) (v : Word)
  | gpioOutWrite (p : Path) (ch : Fin 192) (out : Bool)
  -- statistics, field book, notices (R183 to R203)
  | statsSample (u : Fin 32)
  | statsCfgWrite (p : Path) (u : Fin 32) (r : StatsReg) (v : Word)
  | close (p : Path) (u : Fin 32)
  | statsWindowClose (u : Fin 32)
  | statsCommit (u : Fin 32)
  | fieldbookCfgWrite (p : Path) (size : Bool) (v : Word)
  | fieldbookRdWrite (p : Path) (v : Word)
  | drainBatch (groups : Nat) (result : DrainEnd)
  | drainModTimeout
  | drainEnWrite (p : Path) (v : Word)
  | hostRdWrite (p : Path) (v : Word)
  | noticeOccurrence (src : BitVec 16) (cls : BitVec 2) (code : Byte) (args : BitVec 64)
  | noticeRdWrite (p : Path) (v : Word)
  -- synthesizers and outputs (R204 to R231)
  | lockSequenceStart (y : Fin 9)
  | synLock (y : Fin 9) (band : BitVec 6)
  | onGrid (y : Fin 9)
  | outputStart (o : Fin 48)
  | lockSequenceFail (y : Fin 9)
  | lockRetry (y : Fin 9)
  | synLol (y : Fin 9)
  | regainTimeout (y : Fin 9)
  | inBandRegain (y : Fin 9)
  | shortLockSequenceEnd (y : Fin 9) (ok : Bool) (band : BitVec 6)
  | relock (p : Path) (y : Fin 9)
  | contourStep (y : Fin 9)
  | outbankCtrlWrite (p : Path) (b : Fin 12) (v : Word)
  | alignUpdate (a : Fin 4) (edges : List LineEdge)
  | bankSupplyMismatch (m : BankSupply)
  | planApply
  -- timing ports and PTP (R232 to R248)
  | portCfgWrite (p : Path) (n : Fin 16) (v : Word)
  | linkUp (n : Fin 16)
  | linkDown (n : Fin 16)
  | syncRx (n : Fin 16) (sess : BitVec 9) (seq : BitVec 16) (fl : SyncFlags) (t1 : Stamp)
      (rate : BitVec 32) (tl : PtpTail) (tb : Edge) (var : Nat)
  | followUpRx (n : Fin 16) (sess : BitVec 9) (seq : BitVec 16) (t1 : Stamp) (rate : BitVec 32) (tl : PtpTail)
  | delayReqRx (n : Fin 16) (sess : BitVec 9) (seq : BitVec 16) (tl : PtpTail) (tb : Edge) (var : Nat)
  | delayRespRx (n : Fin 16) (sess : BitVec 9) (seq : BitVec 16) (t4 : Stamp) (tl : PtpTail)
  | pdelayReqRx (n : Fin 16) (seq : BitVec 16) (tl : PtpTail) (rx tx : Point)
  | pdelayRespRx (n : Fin 16) (seq : BitVec 16) (t2 t3 : Stamp) (tl : PtpTail) (tb : Edge) (var : Nat)
  | announceRx (n : Fin 16) (sess : BitVec 9) (clockClass : Byte) (bench : Option (BitVec 256 × Word))
      (others : Nat) (auth : Bool)
  | syncTx (i : Fin 8) (n : Fin 16) (sess : BitVec 9) (oneStep : Bool) (tb : Edge) (var : Nat)
  | delayReqTx (i : Fin 8) (n : Fin 16) (sess : BitVec 9) (tb : Edge) (var : Nat)
  | announceTx (i : Fin 8) (n : Fin 16) (sess : BitVec 9)
  | streamWindowClose (i : Fin 32)
  | parentLost (n : Fin 16) (sess : BitVec 9)
  | grantLapse (n : Fin 16) (sess : BitVec 9) (l : Lapse)
  | esmcPduRx (n : Fin 16) (ssm : BitVec 4) (essm : Option Essm) (info : Bool)
  | esmcInfoTx (n : Fin 16)
  | txqStamp (n : Fin 16) (id seq : BitVec 16) (msgType : BitVec 4) (domain : Byte) (tb : Edge) (var : Nat)
  | txqPop (p : Path) (n : Fin 16) (v : Word)
  -- Reistica link (R249 to R274)
  | trainRx (n : Fin 16) (seq ack : Byte) (devId : BitVec 64) (link : Byte)
  | legendRx (n : Fin 16) (part : Bool) (seq ack : Byte) (payload : List Byte)
  | legendTx (n : Fin 16)
  | phaseTx (n : Fin 16) (tb : Edge) (var : Nat)
  | phaseRx (n : Fin 16) (seq ack : Byte) (f : PhaseFrame) (bounds : List Edge) (var : Nat)
  | surveyReqRx (n : Fin 16) (f : SurveyHead) (log2 : Byte)
  | surveyAckRx (n : Fin 16) (f : SurveyHead) (log2 : Byte)
  | surveyAbortRx (n : Fin 16) (f : SurveyHead)
  | surveyPhaseEnd (n : Fin 16)
  | surveyDone (n : Fin 16)
  | survIntTimer (n : Fin 16)
  | swapRelockTimeout (n : Fin 16)
  | verifyFail (n : Fin 16)
  | survey (p : Path) (n : Fin 16)
  | retrain (p : Path) (n : Fin 16)
  -- program ports and engines (R275 to R293)
  | load (p : Path) (pp : ProgPort)
  | progSwapCmd (p : Path) (pp : ProgPort)
  | cancel (p : Path) (pp : ProgPort)
  | restart (p : Path) (e : Fin 8)
  | verificationDone (pp : ProgPort)
  | programSwap (pp : ProgPort)
  | swapTmoExpiry (e : Fin 8)
  | watchdog (e : Fin 8)
  | waitResume (e : Fin 8)
  -- Nimyor: moves and control registers (R299)
  | nop (t : Tgt)
  | mov (t : Tgt) (rd ra : Fin 32)
  | ldi (t : Tgt) (rd : Fin 32) (hw : Fin 4) (keep : Bool) (imm : BitVec 16)
  | ldc (t : Tgt) (rd : Fin 32) (idx : BitVec 14)
  | rdf (t : Tgt) (rd : Fin 32)
  | wrf (t : Tgt) (ra : Fin 32)
  | rdcw (t : Tgt) (rd : Fin 32)
  | wrcw (t : Tgt) (ra : Fin 32)
  -- integer arithmetic and logic (R300)
  | add (t : Tgt) (rd ra rb : Fin 32)
  | adc (t : Tgt) (rd ra rb : Fin 32)
  | sub (t : Tgt) (rd ra rb : Fin 32)
  | sbb (t : Tgt) (rd ra rb : Fin 32)
  | adds (t : Tgt) (rd ra rb : Fin 32)
  | subs (t : Tgt) (rd ra rb : Fin 32)
  | neg (t : Tgt) (rd ra : Fin 32)
  | negs (t : Tgt) (rd ra : Fin 32)
  | abs (t : Tgt) (rd ra : Fin 32)
  | min (t : Tgt) (rd ra rb : Fin 32)
  | max (t : Tgt) (rd ra rb : Fin 32)
  | cmp (t : Tgt) (ra rb : Fin 32)
  | tst (t : Tgt) (ra rb : Fin 32)
  | addi (t : Tgt) (rd ra : Fin 32) (imm : BitVec 14)
  | cmpi (t : Tgt) (ra : Fin 32) (imm : BitVec 14)
  | andi (t : Tgt) (rd ra : Fin 32) (imm : BitVec 14)
  | ori (t : Tgt) (rd ra : Fin 32) (imm : BitVec 14)
  | xori (t : Tgt) (rd ra : Fin 32) (imm : BitVec 14)
  | tsti (t : Tgt) (ra : Fin 32) (imm : BitVec 14)
  | and (t : Tgt) (rd ra rb : Fin 32)
  | or (t : Tgt) (rd ra rb : Fin 32)
  | xor (t : Tgt) (rd ra rb : Fin 32)
  | andn (t : Tgt) (rd ra rb : Fin 32)
  | clz (t : Tgt) (rd ra : Fin 32)
  | mul (t : Tgt) (rd ra rb : Fin 32)
  -- shifts (R301): `x` is the X field
  | shl (t : Tgt) (rd ra rb : Fin 32) (x : BitVec 9)
  | shr (t : Tgt) (rd ra rb : Fin 32) (x : BitVec 9)
  | sar (t : Tgt) (rd ra rb : Fin 32) (x : BitVec 9)
  | rsr (t : Tgt) (rd ra rb : Fin 32) (x : BitVec 9)
  -- accumulators (R302)
  | mula (t : Tgt) (acd : Fin 4) (ra rb : Fin 32) (x : BitVec 8)
  | mac (t : Tgt) (acd : Fin 4) (ra rb : Fin 32) (x : BitVec 8)
  | msu (t : Tgt) (acd : Fin 4) (ra rb : Fin 32) (x : BitVec 8)
  | acmov (t : Tgt) (acd : Fin 4) (ra : Fin 32) (x : BitVec 8)
  | acset (t : Tgt) (acd : Fin 4) (ra rb : Fin 32)
  | achi (t : Tgt) (rd : Fin 32) (aca : Fin 4)
  | aclo (t : Tgt) (rd : Fin 32) (aca : Fin 4)
  | acadd (t : Tgt) (acd aca acb : Fin 4)
  | acsub (t : Tgt) (acd aca acb : Fin 4)
  | acneg (t : Tgt) (acd aca : Fin 4)
  | acshl (t : Tgt) (acd aca : Fin 4) (x : BitVec 8)
  | acshr (t : Tgt) (acd aca : Fin 4) (x : BitVec 8)
  | acn (t : Tgt) (rd : Fin 32) (aca : Fin 4) (x : BitVec 8)
  | accmp (t : Tgt) (aca acb : Fin 4)
  | acsqrt (t : Tgt) (rd : Fin 32) (aca : Fin 4)
  -- divide (R303)
  | div (t : Tgt) (rd ra rb : Fin 32)
  | divu (t : Tgt) (rd ra rb : Fin 32)
  | acdiv (t : Tgt) (rd : Fin 32) (aca : Fin 4) (ra : Fin 32)
  -- control flow (R304)
  | b (t : Tgt) (cond : BitVec 4) (off : BitVec 20)
  | call (t : Tgt) (cond : BitVec 4) (off : BitVec 20)
  | ret (t : Tgt)
  | br (e : Fin 8) (ra : Fin 32)
  | halt (e : Fin 8)
  | stop (n : Fin 16)
  -- loads and stores (R305), engines only
  | ldb (e : Fin 8) (rd ra : Fin 32) (imm : BitVec 14)
  | ldh (e : Fin 8) (rd ra : Fin 32) (imm : BitVec 14)
  | ldw (e : Fin 8) (rd ra : Fin 32) (imm : BitVec 14)
  | ldd (e : Fin 8) (rd ra : Fin 32) (imm : BitVec 14)
  | ldbs (e : Fin 8) (rd ra : Fin 32) (imm : BitVec 14)
  | ldhs (e : Fin 8) (rd ra : Fin 32) (imm : BitVec 14)
  | ldws (e : Fin 8) (rd ra : Fin 32) (imm : BitVec 14)
  | stb (e : Fin 8) (rd ra : Fin 32) (imm : BitVec 14)
  | sth (e : Fin 8) (rd ra : Fin 32) (imm : BitVec 14)
  | stw (e : Fin 8) (rd ra : Fin 32) (imm : BitVec 14)
  | std (e : Fin 8) (rd ra : Fin 32) (imm : BitVec 14)
  -- time, waits, stamps, emission (R306 to R309), engines only
  | tnow (e : Fin 8) (rd : Fin 32) (x : BitVec 9)
  | tick (e : Fin 8) (rd : Fin 32)
  | tadd (e : Fin 8) (rd ra rb : Fin 32)
  | tdif (e : Fin 8) (rd ra rb : Fin 32)
  | waitt (e : Fin 8) (ra : Fin 32) (x : BitVec 9)
  | waitk (e : Fin 8) (ra : Fin 32)
  | waite (e : Fin 8) (rd ra rb : Fin 32)
  | stpop (e : Fin 8) (rd : Fin 32)
  | emit (e : Fin 8) (rd ra rb : Fin 32)
  -- loop phase error and output (R310), loops only
  | inx (n : Fin 16) (rd : Fin 32)
  | inf (n : Fin 16) (rd : Fin 32)
  | outf (n : Fin 16) (ra : Fin 32)
  -- statistics, notices, mailboxes, semaphores (R311), engines only
  | spush (e : Fin 8) (ra : Fin 32)
  | note (e : Fin 8) (ra : Fin 32) (imm : BitVec 14)
  | mbpost (e : Fin 8) (rd ra : Fin 32) (imm : BitVec 14)
  | mbtake (e : Fin 8) (rd ra : Fin 32) (imm : BitVec 14)
  | dbell (e : Fin 8) (rd : Fin 32) (imm : BitVec 14)
  | sema (e : Fin 8) (rd : Fin 32) (imm : BitVec 14)
  | semr (e : Fin 8) (imm : BitVec 14)
  -- host and side-band access (R315 to R339)
  | registerWrite (p : Path) (off v : Word)
  | aliasWrite (p : Path) (addr v : Word)
  | holdingReadHigh (p : Path) (off : Word)
  | holdingWriteLow (p : Path) (off v : Word)
  | holdingWriteCommit (p : Path) (off v : Word)
  | take (p : Path)
  | indDataWrite (p : Path) (v : Word)
  | indWriteDone (p : Path)
  | indDataRead (p : Path)
  | bar2Write (f : Fin 2) (off : BitVec 27) (bytes : List (Option Byte))
  | bar2Read (f : Fin 2) (off : BitVec 27) (len : Nat)
  | badTlp (f : Fin 2) (write : Bool)
  | functionLevelReset (f : Fin 2)
  | perstN
  | sbSetPointer (count : Byte) (off : Word) (pec : Pec)
  | sbReadAtPointer (pec : Bool)
  | sbWriteAtPointer (count : Byte) (v : Word) (pec : Pec)
  | sbProcessCallRead (count : Byte) (off : Word) (pec : Bool)
  | sbWriteAtOffset (count : Byte) (off v : Word) (pec : Pec)
  | sbStatus
  | badCmd (code : Byte)
  | alertResponse
  | smbusTimeout
  | post (p : Path) (m : Fin 16)
  | ack (p : Path) (m : Fin 16)
  | mailboxCfgWrite (p : Path) (m : Fin 16) (v : Word)
  | dbInSet (p : Path) (v : Word)
  | dbInClr (p : Path) (v : Word)
  | dbOutSet (p : Path) (v : Word)
  | dbOutClr (p : Path) (v : Word)
  -- module bus (R340 to R352)
  | traverse (mb : Fin 2) (cause : TravCause)
  | traversePass (mb : Fin 2) (result : MbEnd) (answer : Bool) (ident : BitVec 64)
  | travIntExpiry (mb : Fin 2)
  | attach (mb : Fin 2)
  | read (mb : Fin 2) (entry : Fin 64) (reg : Byte) (len : Nat) (result : MbEnd)
  | write (mb : Fin 2) (entry : Fin 64) (reg : Byte) (data : List Byte) (result : MbEnd)
  | peerTargetFrame (mb : Fin 2) (frame : BusFrame)
  | ovenRead (temp status : MbEnd)
  | go (p : Path) (v : Word)
  | mbStuck (mb : Fin 2)
  | recoveryPulse (mb : Fin 2)
  | mbIsolated (mb : Fin 2)
  | lineRelease (mb : Fin 2)
  -- memory integrity and archive (R353 to R374)
  | scrubVisit (bank : Fin 25) (word : BitVec 19) (upset : Nat)
  | ceThreshCheck (bank : Fin 25)
  | spareTest (ok : Bool)
  | memRemap
  | archiveRefresh (word : BitVec 18) (weak bad : Bool)
  | protectWrite (p : Path) (v : Word)
  -- faults and live service (R375 to R388)
  | faultReport (block : Fin 128) (cause : BitVec 4)
  | selfTestDone (block : Fin 128) (pass : Bool)
  | synbRelock (m : Nat)
  | datumReload (isl : Fin 2)
  | unretire (p : Path) (block : Fin 128)
  | retireBank (p : Path) (bank : Byte)
  | holdoverCheckpoint (n : Fin 16)
  | benchmarkScan
  | stewardShed (load : Nat)
  | fwSwap (p : Path) (ok : Bool)
  -- power, reset, start-up (R389 to R405)
  | domainPowerDown (p : Path) (dom : Fin 108)
  | domainPowerUp (p : Path) (dom : Fin 108)
  | domainRelease (dom : Fin 108)
  | supply (dom : Fin 108)
  | svSupplyMismatch (g : Fin 12) (within : Bool)
  | standbyPowerOn (straps : Straps)
  | railOutOfRange
  | resetN
  | resetCore (p : Path)
  | resetRelease (straps : Straps)
  | trstN
  | sheetWrite (off v : Word)
  | sheetInd (addr v : Word)
  | sheetImage (kind index : Byte) (swapBit : Bool) (image : List Byte)
  | sheetWait (us : Word)
  | sheetEnd (kind : Byte)
  | firmwareBoot (ok0 ok1 : Bool)
  | hostFirmwareDoorbell (ok : Bool)
  | hostFirmwareTimeout
  | bootComplete
  | modeGo (p : Path) (toMode : BitVec 2)
  -- rows added at the table's end
  | frameDiscard (n : Fin 16) (hdr : Option (Byte × Byte))
  | trainTx (n : Fin 16)
  | switchConfirmTimeout (n : Fin 16)
  | cdrUnlock (n : Fin 16)
  | cdrLock (n : Fin 16)
  | fecAlignLost (n : Fin 16)
  | fecAlignGained (n : Fin 16)
  | pcieLinkDown
  | pcieLinkUp (speed : BitVec 3) (width : BitVec 4)
  | pcieConfigWrite (f : Fin 2) (c : PcieCfg)
  | dieSensorReading (t : BitVec 16)
  | alignHandoverSwitch (b : Fin 12) (edges : List (LineEdge × LineEdge))
  deriving DecidableEq, Repr

end Sys2Proof
end

