-- ==== Sys2Proof/Decode.lean ====
section
/-! DEFINITION. Commands spelled by bits: spec/opcode_table.json gives no row any bits, so there is no word to decode.
The one instruction set with words is Nimyor's; its decoder stands in Machine/Nimyor (`decodeLoop`), where a program
sheet's code is read. -/

namespace Sys2Proof

/-- The command that a table word spells: none, because no row of the table has bits. -/
def decodeTableWord (_nbits _w : Nat) : Option Instr :=
  none

end Sys2Proof
end

