-- ==== Sys2Proof/Machine/Arith.lean ====
section
/-! DEFINITION. Exact arithmetic of the FZ-4192: rounding, saturation and wrap (R10), square roots (R51), CRCs, SHA-256
and ECDSA P-256 (R286, R367, R385). Everything is total and structurally recursive. -/

namespace Sys2Proof.Machine

/-- `round_ne(num / den)`, den > 0 (R10). -/
def roundDiv (num : Int) (den : Nat) : Int :=
  let q := num / (den : Int)
  let r2 := 2 * (num - q * (den : Int))
  if r2 < den then q
  else if r2 = den then (if q % 2 = 0 then q else q + 1)
  else q + 1

/-- `round_tz(num / den)`, den > 0 (R10). -/
def truncDiv (num : Int) (den : Nat) : Int :=
  if num < 0 then -((-num) / (den : Int)) else num / (den : Int)

/-- `sat(x, s w)` (R10). -/
def satS (w : Nat) (x : Int) : Int :=
  let hi : Int := 2 ^ (w - 1)
  if x ≥ hi then hi - 1 else if x < -hi then -hi else x

/-- A phase error [2^-32 ns] saturated to s64, with PE_SAT where this saturation or an earlier one of the same error acts (R33, R48). -/
def satPE (x : Int) (sat : Bool) : Int × Bool :=
  (satS 64 x, sat || decide (satS 64 x ≠ x))

/-- `sat(x, u w)` (R10), of an integer. -/
def satU (w : Nat) (x : Int) : Nat :=
  if x < 0 then 0 else if x.toNat ≥ 2 ^ w then 2 ^ w - 1 else x.toNat

/-- `wrap(x, s w)` (R10). -/
def wrapS (w : Nat) (x : Int) : Int :=
  (BitVec.ofInt w x).toInt

/-- Count up, saturating at the top of w bits. -/
def satAdd (w n k : Nat) : Nat :=
  Nat.min (n + k) (2 ^ w - 1)

/-- Steps of the bitwise square root: result so far r, bit b downward. -/
def isqrtFrom (n : Nat) : Nat → Nat → Nat
  | 0, r => r
  | b + 1, r =>
    let c := r + 2 ^ b
    isqrtFrom n b (if c * c ≤ n then c else r)

/-- floor(sqrt n). -/
def isqrt (n : Nat) : Nat :=
  isqrtFrom n (n.log2 / 2 + 1) 0

/-- round_ne(sqrt(v / d²)), d > 0 (R51): ties to the even integer. -/
def roundSqrt (v d : Nat) : Nat :=
  let f := isqrt (v / (d * d))
  let mid := (2 * f + 1) * (2 * f + 1) * (d * d)
  if 4 * v < mid then f
  else if 4 * v = mid then (if f % 2 = 0 then f else f + 1)
  else f + 1

/-! Bytes and words. -/

/-- Big-endian value of a byte list. -/
def beNat (bs : List Byte) : Nat :=
  bs.foldl (fun a b => a * 256 + b.toNat) 0

/-- The n bytes of v, most significant first. -/
def beBytes : Nat → Nat → List Byte
  | 0, _ => []
  | n + 1, v => BitVec.ofNat 8 (v / 2 ^ (8 * n)) :: beBytes n v

/-- The n bytes of v, least significant first. -/
def leBytes : Nat → Nat → List Byte
  | 0, _ => []
  | n + 1, v => BitVec.ofNat 8 v :: leBytes n (v / 256)

/-- Little-endian value of a byte list. -/
def leNat : List Byte → Nat
  | [] => 0
  | b :: bs => b.toNat + 256 * leNat bs

/-- Bits hi:lo of a word as a number. -/
def bitsOf (w : Word) (hi lo : Nat) : Nat :=
  (w.toNat / 2 ^ lo) % 2 ^ (hi + 1 - lo)

/-- Bit i of a word. -/
def bitOf (w : Word) (i : Nat) : Bool :=
  w.getLsbD i

/-- A word with only bit i set if b. -/
def mkBit (i : Nat) (b : Bool) : Word :=
  if b then BitVec.ofNat 32 (2 ^ i) else 0

/-- A field of a word: value v placed at lo. -/
def fld (v lo : Nat) : Word :=
  BitVec.ofNat 32 (v * 2 ^ lo)

/-- Number of a Boolean. -/
def b2n (b : Bool) : Nat :=
  if b then 1 else 0

/-- Bits of `v` where the mask is 1, of `old` elsewhere. -/
def mix (mask old v : Word) : Word :=
  (old &&& ~~~mask) ||| (v &&& mask)

/-- The signed value of a word field of width w. -/
def signed (w n : Nat) : Int :=
  (BitVec.ofNat w n).toInt

/-- Words of a value, k words, most significant first (R407). -/
def wordsOf : Nat → Nat → List Word
  | 0, _ => []
  | k + 1, v => BitVec.ofNat 32 (v / 2 ^ (32 * k)) :: wordsOf k v

/-- Value of a list of words, most significant first (R407). -/
def ofWords (ws : List Word) : Nat :=
  ws.foldl (fun a w => a * 2 ^ 32 + w.toNat) 0

/-- Words of a byte list, first byte in bits 31:24 (R407). -/
def packWords : List Byte → List Word
  | a :: b :: c :: d :: r => BitVec.ofNat 32 (beNat [a, b, c, d]) :: packWords r
  | _ => []

/-- Replace entry i of a list. -/
def setAt {α : Type} (l : List α) (i : Nat) (a : α) : List α :=
  l.set i a

/-! CRCs: bitwise, most significant bit first. -/

/-- One bit of a CRC of width w with polynomial `poly`. -/
def crcBit (w poly : Nat) (crc : Nat) (bit : Bool) : Nat :=
  let top := decide (crc / 2 ^ (w - 1) % 2 = 1)
  let sh := (crc * 2) % 2 ^ w
  if top != bit then sh ^^^ poly else sh

/-- The eight bits of a byte, most significant first. -/
def byteBits (b : Byte) : List Bool :=
  [b.getLsbD 7, b.getLsbD 6, b.getLsbD 5, b.getLsbD 4, b.getLsbD 3, b.getLsbD 2, b.getLsbD 1, b.getLsbD 0]

/-- CRC over bytes, most significant bit first, no reflection. -/
def crc (w poly init : Nat) (bs : List Byte) : Nat :=
  bs.foldl (fun c b => (byteBits b).foldl (crcBit w poly) c) init

/-- CRC-8, x^8 + x^2 + x + 1, initial value 0 (R331). -/
def crc8 (bs : List Byte) : Nat :=
  crc 8 0x07 0 bs

/-- A byte with its bits reversed. -/
def revByte (b : Byte) : Byte :=
  BitVec.ofNat 8 ((byteBits b).foldr (fun x a => a * 2 + b2n x) 0)

/-- The w bits of n reversed. -/
def revBits : Nat → Nat → Nat
  | 0, _ => 0
  | w + 1, n => (n % 2) * 2 ^ w + revBits w (n / 2)

/-- A reflected CRC: bytes and result bit-reversed. -/
def crcRef (w poly init xorOut : Nat) (bs : List Byte) : Nat :=
  revBits w (crc w poly init (bs.map revByte)) ^^^ xorOut

/-! SHA-256 (FIPS 180-4). -/

/-- The round constants, eight to a number of 256 bits, the first in its highest word. -/
def shaK : List Word :=
  [0x428A2F9871374491B5C0FBCFE9B5DBA53956C25B59F111F1923F82A4AB1C5ED5,
   0xD807AA9812835B01243185BE550C7DC372BE5D7480DEB1FE9BDC06A7C19BF174,
   0xE49B69C1EFBE47860FC19DC6240CA1CC2DE92C6F4A7484AA5CB0A9DC76F988DA,
   0x983E5152A831C66DB00327C8BF597FC7C6E00BF3D5A7914706CA635114292967,
   0x27B70A852E1B21384D2C6DFC53380D13650A7354766A0ABB81C2C92E92722C85,
   0xA2BFE8A1A81A664BC24B8B70C76C51A3D192E819D6990624F40E3585106AA070,
   0x19A4C1161E376C082748774C34B0BCB5391C0CB34ED8AA4A5B9CCA4F682E6FF3,
   0x748F82EE78A5636F84C878148CC7020890BEFFFAA4506CEBBEF9A3F7C67178F2].flatMap (wordsOf 8)

/-- The initial hash value, packed in the same way. -/
def shaH0 : List Word :=
  wordsOf 8 0x6A09E667BB67AE853C6EF372A54FF53A510E527F9B05688C1F83D9AB5BE0CD19

def rotr (w : Word) (n : Nat) : Word :=
  w.rotateRight n

/-- Message schedule: the last 16 words, newest first, extended n times; the words of the schedule newest first. -/
def shaSched : Nat → List Word → List Word
  | 0, ws => ws
  | n + 1, ws =>
    let a := ws.getD 1 0
    let b := ws.getD 14 0
    let s1 := rotr a 17 ^^^ rotr a 19 ^^^ (a >>> 10)
    let s0 := rotr b 7 ^^^ rotr b 18 ^^^ (b >>> 3)
    shaSched n ((s1 + ws.getD 6 0 + s0 + ws.getD 15 0) :: ws)

/-- One round on the eight working words. -/
def shaRound (h : List Word) (kw : Word × Word) : List Word :=
  match h with
  | [a, b, c, d, e, f, g, hh] =>
    let s1 := rotr e 6 ^^^ rotr e 11 ^^^ rotr e 25
    let ch := (e &&& f) ^^^ (~~~e &&& g)
    let t1 := hh + s1 + ch + kw.1 + kw.2
    let s0 := rotr a 2 ^^^ rotr a 13 ^^^ rotr a 22
    let maj := (a &&& b) ^^^ (a &&& c) ^^^ (b &&& c)
    [t1 + (s0 + maj), a, b, c, d + t1, e, f, g]
  | _ => h

/-- One 512-bit block, as 16 words. -/
def shaBlock (h : List Word) (ws : List Word) : List Word :=
  let w := (shaSched 48 ws.reverse).reverse
  (List.zip shaK w).foldl shaRound h |>.zipWith (· + ·) h

/-- Blocks of 16 words, at most `fuel` of them. -/
def shaBlocks : Nat → List Word → List Word → List Word
  | 0, h, _ => h
  | fuel + 1, h, ws => if ws.isEmpty then h else shaBlocks fuel (shaBlock h (ws.take 16)) (ws.drop 16)

/-- SHA-256 of a byte string. -/
def sha256 (bs : List Byte) : BitVec 256 :=
  let l := bs.length
  let pad := (119 - l % 64) % 64
  let msg := bs ++ [0x80#8] ++ List.replicate pad 0#8 ++ beBytes 8 (8 * l)
  BitVec.ofNat 256 (ofWords (shaBlocks (msg.length / 64) shaH0 (packWords msg)))

/-! ECDSA over P-256 (FIPS 186-4), for signed images (R286). -/

def p256P : Nat := 0xffffffff00000001000000000000000000000000ffffffffffffffffffffffff
def p256N : Nat := 0xffffffff00000000ffffffffffffffffbce6faada7179e84f3b9cac2fc632551
def p256B : Nat := 0x5ac635d8aa3a93e7b3ebbd55769886bc651d06b0cc53b0f63bce3c3e27d2604b
def p256Gx : Nat := 0x6b17d1f2e12c4247f8bce6e563a440f277037d812deb33a0f4a13945d898c296
def p256Gy : Nat := 0x4fe342e2fe1a7f9b8ee7eb4a7c0f9e162bce33576b315ececbb6406837bf51f5

/-- x^e mod m, over the k low bits of e. -/
def powMod (m x e : Nat) : Nat → Nat
  | 0 => 1 % m
  | k + 1 =>
    let h := powMod m (x * x % m) (e / 2) k
    if e % 2 = 1 then h * x % m else h

/-- Inverse modulo the prime m (0 for 0). -/
def invMod (m x : Nat) : Nat :=
  powMod m (x % m) (m - 2) 256

/-- An affine point, none = the point at infinity. -/
abbrev Pt := Option (Nat × Nat)

/-- Point addition on P-256. -/
def ptAdd (a b : Pt) : Pt :=
  match a, b with
  | none, q => q
  | p, none => p
  | some (x1, y1), some (x2, y2) =>
    if x1 = x2 ∧ (y1 + y2) % p256P = 0 then none
    else
      let l := if x1 = x2 then (3 * x1 * x1 + (p256P - 3)) * invMod p256P (2 * y1) % p256P
               else (y2 + (p256P - y1)) * invMod p256P (x2 + (p256P - x1)) % p256P
      let x3 := (l * l + (p256P - x1) + (p256P - x2)) % p256P
      some (x3, (l * (x1 + (p256P - x3)) + (p256P - y1)) % p256P)

/-- Scalar multiple over the k low bits of n. -/
def ptMul (n : Nat) (q : Pt) : Nat → Pt
  | 0 => none
  | k + 1 =>
    let h := ptMul (n / 2) (ptAdd q q) k
    if n % 2 = 1 then ptAdd q h else h

/-- A point of the curve, coordinates in range. -/
def onCurve (x y : Nat) : Bool :=
  x < p256P && y < p256P && (y * y) % p256P == (x * x * x + (p256P - 3) * x + p256B) % p256P

/-- ECDSA verification of (r, s) over digest e by the public point (qx, qy). -/
def ecdsaVerify (qx qy e r s : Nat) : Bool :=
  if r = 0 ∨ r ≥ p256N ∨ s = 0 ∨ s ≥ p256N ∨ onCurve qx qy = false then false
  else
    let w := invMod p256N s
    match ptAdd (ptMul (e * w % p256N) (some (p256Gx, p256Gy)) 256) (ptMul (r * w % p256N) (some (qx, qy)) 256) with
    | none => false
    | some (x, _) => x % p256N == r

end Sys2Proof.Machine
end

