-- ==== Sys2Proof/Machine/RegTab.lean ====
section
/-! DEFINITION. The register blocks (R406 to R436) as tables: the block map, and for each register its access codes,
its reset word and the sheet of the benchmark that covers it (R384). Rows without masks are words that only the device
writes, or that are computed when they are read (Machine/Live). -/

namespace Sys2Proof.Machine

/-- The blocks of R406; `mon` is the monitor table of the indirect space (R420). -/
inductive Block where
  | legend
  | device
  | access
  | notice
  | mailbox
  | benchmark
  | fault
  | power
  | refin
  | loop
  | datum
  | survey
  | stats
  | fieldbook
  | synth
  | outbank
  | align
  | port
  | pte
  | engine
  | memory
  | archive
  | modbus
  | sideband
  | pinmux
  | host
  | mon
  deriving DecidableEq, Repr

/-- Access codes of a register, bit by bit (R8): RW, RWK, ROK, RC, CMD for every path, CMD for keepers only. -/
structure Reg where
  rw : Word := 0
  rwk : Word := 0
  rok : Word := 0
  rc : Word := 0
  cmd : Word := 0
  cmdk : Word := 0
  reset : Word := 0
  /-- Added to the reset word for each index of an array (DB_OUT_MAP, R339). -/
  inc : Nat := 0
  /-- A saturating count in an RO register, copied by a snapshot (R327). -/
  cnt : Bool := false
  /-- A multi-word register (R326). -/
  mw : Bool := false
  /-- Benchmark sheet that covers the register (R384); loops and slots split over two sheets by `sheetOf`. -/
  sheet : Option Nat := none
  /-- Covered bits where they are fewer than the writable ones (R384). -/
  cover : Option Word := none
  deriving DecidableEq, Repr

/-- A row: `count` registers of `words` words, the first at `off`, `stride` bytes apart. -/
structure Row where
  name : String
  off : Nat
  count : Nat
  stride : Nat
  words : Nat
  reg : Reg
  deriving DecidableEq, Repr

/-- A block's place in BAR0 (R406). -/
structure BlockMap where
  blk : Block
  base : Nat
  insts : Nat
  stride : Nat
  span : Nat
  deriving DecidableEq, Repr

/-- R406. -/
def blockMap : List BlockMap :=
  [⟨.legend, 0x00000, 1, 0x1000, 0x100⟩,
   ⟨.device, 0x01000, 1, 0x1000, 0x1000⟩,
   ⟨.access, 0x02000, 1, 0x1000, 0x400⟩,
   ⟨.notice, 0x03000, 1, 0x1000, 0x100⟩,
   ⟨.mailbox, 0x04000, 16, 0x100, 0x100⟩,
   ⟨.benchmark, 0x05000, 1, 0x1000, 0x400⟩,
   ⟨.fault, 0x06000, 1, 0x1000, 0x400⟩,
   ⟨.power, 0x07000, 1, 0x1000, 0x40⟩,
   ⟨.refin, 0x10000, 16, 0x100, 0x100⟩,
   ⟨.loop, 0x20000, 16, 0x400, 0x200⟩,
   ⟨.datum, 0x28000, 8, 0x200, 0x40⟩,
   ⟨.survey, 0x30000, 12, 0x1000, 0x1000⟩,
   ⟨.stats, 0x40000, 32, 0x100, 0x100⟩,
   ⟨.fieldbook, 0x44000, 1, 0x1000, 0x100⟩,
   ⟨.synth, 0x50000, 9, 0x400, 0x200⟩,
   ⟨.outbank, 0x54000, 12, 0x100, 0x40⟩,
   ⟨.align, 0x55000, 1, 0x1000, 0x40⟩,
   ⟨.port, 0x60000, 16, 0x1000, 0x100⟩,
   ⟨.pte, 0x70000, 1, 0x1000, 0x400⟩,
   ⟨.engine, 0x80000, 8, 0x1000, 0x400⟩,
   ⟨.memory, 0x90000, 1, 0x1000, 0x100⟩,
   ⟨.archive, 0x98000, 1, 0x1000, 0x40⟩,
   ⟨.modbus, 0xA0000, 1, 0x1000, 0x800⟩,
   ⟨.sideband, 0xA1000, 1, 0x1000, 0x40⟩,
   ⟨.pinmux, 0xA2000, 1, 0x1000, 0x100⟩,
   ⟨.host, 0xA3000, 1, 0x1000, 0x40⟩]

/-- Registers of LEGEND. -/
def legendRows : List Row :=
  [⟨"DEV_ID", 0x000, 1, 0x8, 2, { mw := true }⟩,
   ⟨"ORG_ID", 0x008, 1, 0x4, 1, { reset := 0x004A5FD3 }⟩,
   ⟨"IDENT", 0x00C, 1, 0x4, 1, {}⟩,
   ⟨"TEST_DATE", 0x010, 1, 0x8, 2, { mw := true }⟩,
   ⟨"CART", 0x018, 1, 0x4, 1, {}⟩,
   ⟨"PART", 0x01C, 1, 0x4, 1, { reset := 0x41920001 }⟩,
   ⟨"PCI_ID", 0x020, 1, 0x4, 1, { reset := 0x1F5A4192 }⟩,
   ⟨"BLOCKS", 0x024, 1, 0x4, 1, { reset := 0x0000001A }⟩,
   ⟨"SPAN0-6", 0x040, 7, 0x4, 1, {}⟩]

/-- Registers of DEVICE. -/
def deviceRows : List Row :=
  [⟨"MODE", 0x000, 1, 0x4, 1, {}⟩,
   ⟨"CMD", 0x004, 1, 0x4, 1, { cmdk := 0x8E000000 }⟩,
   ⟨"OVEN", 0x008, 1, 0x4, 1, { cmdk := 0x08000000 }⟩,
   ⟨"SETTLE", 0x00C, 1, 0x4, 1, { rwk := 0xFFFFFFFF, reset := 0xFF080384, sheet := some 0 }⟩,
   ⟨"SETTLE_SLOPE", 0x010, 1, 0x4, 1, { rwk := 0xFFFFFFFF, reset := 0x0000006E, sheet := some 0 }⟩,
   ⟨"OVEN_A", 0x014, 1, 0x4, 1, {}⟩,
   ⟨"OVEN_KT", 0x018, 1, 0x4, 1, {}⟩,
   ⟨"OVEN_TEMP", 0x01C, 1, 0x4, 1, {}⟩,
   ⟨"SHEET_CNT", 0x020, 1, 0x4, 1, { cnt := true }⟩,
   ⟨"MODE_REJECTS", 0x024, 1, 0x4, 1, { cnt := true }⟩,
   ⟨"STEWARD.LOAD", 0x800, 1, 0x4, 1, { rc := 0x00FF0000 }⟩,
   ⟨"STEWARD.SHED_CFG", 0x804, 1, 0x4, 1, { rwk := 0x0000FFFF, reset := 0x00005A4B, sheet := some 0 }⟩,
   ⟨"STEWARD.CMD", 0x808, 1, 0x4, 1, { cmdk := 0x80000000 }⟩]

/-- Registers of ACCESS. -/
def accessRows : List Row :=
  [⟨"IND_ADDR", 0x000, 1, 0x4, 1, { rw := 0xFFFFFFFF }⟩,
   ⟨"IND_DATA", 0x004, 1, 0x4, 1, { rw := 0xFFFFFFFF }⟩,
   ⟨"IND_STATUS", 0x008, 1, 0x4, 1, { rc := 0x70000000 }⟩,
   ⟨"GUARD_REJECTS", 0x00C, 1, 0x4, 1, { cnt := true }⟩,
   ⟨"SNAPSHOT", 0x010, 1, 0x4, 1, { cmdk := 0x80000000 }⟩,
   ⟨"SNAP_STATUS", 0x014, 1, 0x4, 1, { cnt := true }⟩,
   ⟨"SNAP_VIEW", 0x018, 1, 0x4, 1, { rw := 0x00000001 }⟩,
   ⟨"SNAP_TICK", 0x020, 1, 0x8, 2, { mw := true }⟩,
   ⟨"PD_HITS", 0x028, 1, 0x4, 1, { cnt := true }⟩,
   ⟨"DB_REJECTS", 0x02C, 1, 0x4, 1, { cnt := true }⟩,
   ⟨"DB_IN_SET", 0x030, 1, 0x4, 1, { cmd := 0xFFFFFFFF }⟩,
   ⟨"DB_IN_CLR", 0x034, 1, 0x4, 1, { cmd := 0xFFFFFFFF }⟩,
   ⟨"DB_IN_PEND", 0x038, 1, 0x4, 1, {}⟩,
   ⟨"DB_OUT_SET", 0x03C, 1, 0x4, 1, { cmd := 0xFFFFFFFF }⟩,
   ⟨"DB_OUT_CLR", 0x040, 1, 0x4, 1, { cmd := 0xFFFFFFFF }⟩,
   ⟨"DB_OUT_PEND", 0x044, 1, 0x4, 1, {}⟩,
   ⟨"DB_IN_MAP", 0x100, 32, 0x4, 1, { rwk := 0x000000FF, reset := 0x00000013, sheet := some 0 }⟩,
   ⟨"DB_OUT_MAP", 0x200, 32, 0x4, 1, { rwk := 0x0000F31F, reset := 0x00003100, inc := 1, sheet := some 0 }⟩]

/-- Registers of NOTICE. -/
def noticeRows : List Row :=
  [⟨"CFG", 0x000, 1, 0x4, 1, { rwk := 0xC01F0700, reset := 0x40000000, sheet := some 11 }⟩,
   ⟨"WR", 0x004, 1, 0x4, 1, {}⟩,
   ⟨"RD", 0x008, 1, 0x4, 1, { rw := 0x000007FF }⟩,
   ⟨"STATUS", 0x00C, 1, 0x4, 1, {}⟩,
   ⟨"RD_REJECTS", 0x010, 1, 0x4, 1, { cnt := true }⟩,
   ⟨"DROP_A-D", 0x014, 4, 0x4, 1, { cnt := true }⟩]

/-- Registers of MAILBOX. -/
def mailboxRows : List Row :=
  [⟨"CFG", 0x000, 1, 0x4, 1, { rwk := 0xFF1F0000, sheet := some 0 }⟩,
   ⟨"STATUS", 0x004, 1, 0x4, 1, {}⟩,
   ⟨"POST", 0x008, 1, 0x4, 1, {}⟩,
   ⟨"ACK", 0x00C, 1, 0x4, 1, { cmd := 0xFFFFFFFF }⟩,
   ⟨"REJECTS", 0x010, 1, 0x4, 1, { cnt := true }⟩,
   ⟨"STAGE", 0x040, 16, 0x4, 1, { rw := 0xFFFFFFFF }⟩,
   ⟨"RX", 0x080, 16, 0x4, 1, {}⟩]

/-- Registers of BENCHMARK. -/
def benchmarkRows : List Row :=
  [⟨"CTRL", 0x000, 1, 0x4, 1, { rwk := 0x80000000 }⟩,
   ⟨"STATUS", 0x004, 1, 0x4, 1, {}⟩,
   ⟨"MASK", 0x008, 1, 0x4, 1, { rwk := 0x0000FFFF, reset := 0x0000FFFF, sheet := some 0 }⟩,
   ⟨"DSEQ", 0x00C, 1, 0x4, 1, {}⟩,
   ⟨"UPSETS", 0x010, 1, 0x4, 1, { cnt := true }⟩,
   ⟨"DIGEST", 0x020, 8, 0x4, 1, {}⟩,
   ⟨"EXPECT", 0x040, 8, 0x4, 1, { rwk := 0xFFFFFFFF }⟩,
   ⟨"SHEET.D", 0x100, 128, 0x4, 1, {}⟩]

/-- Registers of FAULT. -/
def faultRows : List Row :=
  [⟨"CLOCK", 0x000, 1, 0x4, 1, {}⟩,
   ⟨"CMD", 0x004, 1, 0x4, 1, { cmdk := 0xC00000FF }⟩,
   ⟨"CMD_REJECTS", 0x008, 1, 0x4, 1, { cnt := true }⟩,
   ⟨"QUEUE_LOST", 0x00C, 1, 0x4, 1, { cnt := true }⟩,
   ⟨"VERDICT_FOREIGN", 0x010, 1, 0x4, 1, { cnt := true }⟩,
   ⟨"BLOCK", 0x200, 128, 0x4, 1, { rc := 0x0000FFFF, cnt := true }⟩]

/-- Registers of POWER. -/
def powerRows : List Row :=
  [⟨"DOM_REQ0", 0x000, 1, 0x4, 1, { rwk := 0xFFFFFFFF, reset := 0xC03FFFFF }⟩,
   ⟨"DOM_REQ1", 0x004, 1, 0x4, 1, { rwk := 0xFFFFFFFF, reset := 0x007FFFFF }⟩,
   ⟨"DOM_REQ2", 0x008, 1, 0x4, 1, { rwk := 0xFFFFFFFF, reset := 0xFFF80000 }⟩,
   ⟨"DOM_REQ3", 0x00C, 1, 0x4, 1, { rwk := 0x00000FFF, reset := 0x00000FFF }⟩,
   ⟨"DOM_STATE", 0x010, 4, 0x4, 1, {}⟩,
   ⟨"REJECTS", 0x020, 1, 0x4, 1, { rc := 0x0000FFFF }⟩]

/-- Registers of REFIN. -/
def refinRows : List Row :=
  [⟨"CFG", 0x000, 1, 0x4, 1, { rwk := 0xF000FFFF, reset := 0xC0000001 }⟩,
   ⟨"CFG_REJECTS", 0x004, 1, 0x4, 1, { cnt := true }⟩,
   ⟨"LBL_DROPS", 0x008, 1, 0x4, 1, { cnt := true }⟩,
   ⟨"SLOT.CTRL", 0x020, 6, 0x20, 1, { rwk := 0xEF7FE000, reset := 0x0F0F0000, sheet := some 1 }⟩,
   ⟨"SLOT.STATE", 0x024, 6, 0x20, 1, {}⟩,
   ⟨"SLOT.STICKY", 0x028, 6, 0x20, 1, { rc := 0xFC000000 }⟩,
   ⟨"SLOT.WMCNT", 0x02C, 6, 0x20, 1, { rc := 0xFFFFFFFF }⟩,
   ⟨"SLOT.DELAY_COMP", 0x030, 6, 0x20, 1, { rwk := 0xFFFFFFFF, sheet := some 1 }⟩,
   ⟨"SLOT.VERDICT", 0x034, 6, 0x20, 1, { rw := 0x800F0000, reset := 0x000F0000 }⟩,
   ⟨"SLOT.FREQ_VAL", 0x038, 6, 0x20, 2, { mw := true }⟩]

/-- Registers of LOOP. -/
def loopRows : List Row :=
  [⟨"CFG", 0x000, 1, 0x4, 1, { rwk := 0x8FFE0000, reset := 0x0FF00000, sheet := some 3 }⟩,
   ⟨"STATE", 0x004, 1, 0x4, 1, {}⟩,
   ⟨"STICKY", 0x008, 1, 0x4, 1, { rc := 0xFFFF003F }⟩,
   ⟨"CMD", 0x00C, 1, 0x4, 1, { cmdk := 0xC0000000 }⟩,
   ⟨"SELECT", 0x010, 1, 0x4, 1, { rwk := 0xFFFFFFFF, reset := 0x30080000, sheet := some 3 }⟩,
   ⟨"BOCTL", 0x014, 1, 0x4, 1, { rwk := 0x80000000, sheet := some 3 }⟩,
   ⟨"TWIN", 0x018, 1, 0x4, 1, { cmdk := 0x08000000, cnt := true }⟩,
   ⟨"SAMPLE", 0x01C, 1, 0x4, 1, { rwk := 0x000FFFFF, reset := 0x000003E8, sheet := some 3 }⟩,
   ⟨"CAND_STATUS", 0x020, 1, 0x4, 1, {}⟩,
   ⟨"CAND_REJECTS", 0x024, 1, 0x4, 1, { cnt := true }⟩,
   ⟨"CAND_BAR", 0x028, 1, 0x4, 1, {}⟩,
   ⟨"CFG_REJECTS", 0x02C, 1, 0x4, 1, { cnt := true }⟩,
   ⟨"PULL", 0x030, 1, 0x4, 1, { rwk := 0xFFFFFFFF, reset := 0x00C9539C, sheet := some 3 }⟩,
   ⟨"SLOPE", 0x034, 1, 0x4, 1, { rwk := 0xFFFFFFFF, sheet := some 3 }⟩,
   ⟨"LOCK_PH", 0x038, 1, 0x4, 1, { rwk := 0xFFFFFFFF, reset := 0x00640000, sheet := some 3 }⟩,
   ⟨"UNLOCK_PH", 0x03C, 1, 0x4, 1, { rwk := 0xFFFFFFFF, reset := 0x03E80000, sheet := some 3 }⟩,
   ⟨"LOCKCNT", 0x040, 1, 0x4, 1, { rwk := 0xFFFFFFFF, reset := 0x00100004, sheet := some 3 }⟩,
   ⟨"ACQ_TMO", 0x044, 1, 0x4, 1, { rwk := 0x0000FFFF, sheet := some 3 }⟩,
   ⟨"HOCFG", 0x048, 1, 0x4, 1, { rwk := 0xFC0FFFFF, reset := 0x5400003C, sheet := some 3 }⟩,
   ⟨"HO_TMO", 0x04C, 1, 0x4, 1, { rwk := 0xFFFFFFFF, reset := 0x00015180, sheet := some 3 }⟩,
   ⟨"HO_TE_LIMIT", 0x050, 1, 0x4, 1, { rwk := 0xFFFFFFFF, reset := 0x000005DC, sheet := some 3 }⟩,
   ⟨"TWIN_TOL", 0x054, 1, 0x4, 1, { rwk := 0xFFFFFFFF, reset := 0x028F5C29, sheet := some 3 }⟩,
   ⟨"HO_UNC", 0x058, 1, 0x4, 1, {}⟩,
   ⟨"HO_AGE", 0x05C, 1, 0x4, 1, { cnt := true }⟩,
   ⟨"F_OUT", 0x060, 1, 0x8, 2, { mw := true }⟩,
   ⟨"PBO", 0x068, 1, 0x8, 2, { mw := true }⟩,
   ⟨"SHIFT", 0x070, 1, 0x8, 2, { mw := true }⟩,
   ⟨"HO_EST", 0x078, 1, 0x8, 2, { mw := true }⟩,
   ⟨"TALLY_DIFF", 0x080, 1, 0x8, 2, { mw := true }⟩,
   ⟨"HO_STATUS", 0x088, 1, 0x4, 1, {}⟩,
   ⟨"CAND", 0x090, 16, 0x4, 1, { rwk := 0x0000F07F, reset := 0x0000007F, sheet := some 3 }⟩,
   ⟨"PROG_SRC", 0x0D0, 1, 0x4, 1, { rwk := 0xFFFFFFFF }⟩,
   ⟨"PROG_CMD", 0x0D4, 1, 0x4, 1, { cmdk := 0xF0000000 }⟩,
   ⟨"PROG_STATUS", 0x0D8, 1, 0x4, 1, { cnt := true }⟩,
   ⟨"PROG_DIGEST0", 0x100, 8, 0x4, 1, { rok := 0xFFFFFFFF }⟩,
   ⟨"PROG_DIGEST1", 0x120, 8, 0x4, 1, { rok := 0xFFFFFFFF }⟩]

/-- Registers of DATUM. -/
def datumRows : List Row :=
  [⟨"STATUS", 0x000, 1, 0x4, 1, {}⟩,
   ⟨"BEARING", 0x004, 1, 0x4, 1, { rwk := 0xC0000000, sheet := some 7 }⟩,
   ⟨"BSLEW", 0x008, 1, 0x4, 1, { rwk := 0xFFFFFFFF, reset := 0x0010C6F8, sheet := some 7 }⟩,
   ⟨"SLEW_MAX", 0x00C, 1, 0x4, 1, { rwk := 0xFFFFFFFF, reset := 0x00640000, sheet := some 7 }⟩,
   ⟨"UTC", 0x010, 1, 0x4, 1, { rw := 0xC000FFFF, reset := 0x00000025, sheet := some 7, cover := some 0xFFFF }⟩,
   ⟨"FOREIGN", 0x014, 1, 0x4, 1, { cnt := true }⟩,
   ⟨"NOW_SEC_HI", 0x020, 1, 0x4, 1, {}⟩,
   ⟨"NOW_SEC_LO", 0x024, 1, 0x4, 1, {}⟩,
   ⟨"NOW_NS", 0x028, 1, 0x4, 1, {}⟩,
   ⟨"NOW_SUB", 0x02C, 1, 0x4, 1, {}⟩]

/-- Registers of SURVEY. -/
def surveyRows : List Row :=
  [⟨"STATUS", 0x000, 1, 0x4, 1, {}⟩,
   ⟨"CALCFG", 0x004, 1, 0x4, 1, { rwk := 0xF800FFFF, reset := 0xD00003E8, sheet := some 10 }⟩,
   ⟨"OVL", 0x008, 1, 0x4, 1, { rwk := 0xFFFFFFFF, reset := 0x04002710, sheet := some 10 }⟩,
   ⟨"OVL_TOL", 0x00C, 1, 0x4, 1, { rwk := 0x0000FFFF, reset := 0x00000010, sheet := some 10 }⟩,
   ⟨"SCHED.BASE", 0x040, 4, 0x20, 1, { rwk := 0x0003FFFF, sheet := some 10 }⟩,
   ⟨"SCHED.SIZE", 0x044, 4, 0x20, 1, { rwk := 0x0007FFFF, sheet := some 10 }⟩,
   ⟨"SCHED.HEAD", 0x048, 4, 0x20, 1, { rw := 0x0003FFFF }⟩,
   ⟨"SCHED.TAIL", 0x04C, 4, 0x20, 1, {}⟩,
   ⟨"SCHED.BAD", 0x050, 4, 0x20, 1, { rc := 0x0000FFFF }⟩,
   ⟨"CH.CFG", 0x800, 16, 0x80, 1, { rwk := 0xF7FFF000, sheet := some 10 }⟩,
   ⟨"CH.STATUS", 0x804, 16, 0x80, 1, {}⟩,
   ⟨"CH.COUNTS", 0x808, 16, 0x80, 1, { rc := 0xFFFFFFFF }⟩,
   ⟨"CH.GATE", 0x80C, 16, 0x80, 1, { rwk := 0xFFFFFFFF, reset := 0x000003E8, sheet := some 10 }⟩,
   ⟨"CH.PPS_OFS", 0x810, 16, 0x80, 1, { rwk := 0xFFFFFFFF, sheet := some 10 }⟩,
   ⟨"CH.PPS_WID", 0x814, 16, 0x80, 1, { rwk := 0xFFFFFFFF, reset := 0x05F5E100, sheet := some 10 }⟩,
   ⟨"CH.BAUD_DIV", 0x818, 16, 0x80, 1, { rwk := 0x00FFFFFF, reset := 0x00013DE4, sheet := some 10 }⟩,
   ⟨"CH.MODEPAR", 0x81C, 16, 0x80, 1, { rwk := 0xFF0003FF, sheet := some 10 }⟩,
   ⟨"CH.TOD", 0x820, 16, 0x80, 1, { rwk := 0xFF00FFFF, reset := 0xFF00474E, sheet := some 10 }⟩,
   ⟨"CH.RXDATA", 0x824, 16, 0x80, 1, {}⟩,
   ⟨"CH.TXDATA", 0x828, 16, 0x80, 1, { cmd := 0x000000FF }⟩,
   ⟨"CH.UART_ERRS", 0x82C, 16, 0x80, 1, { rc := 0xFFFFFFFF }⟩,
   ⟨"CH.PER", 0x830, 16, 0x80, 2, { mw := true }⟩,
   ⟨"CH.FRQ", 0x838, 16, 0x80, 2, { mw := true }⟩]

/-- Registers of STATS. -/
def statsRows : List Row :=
  [⟨"CFG", 0x000, 1, 0x4, 1, { rw := 0xFFFE0000, reset := 0x00020000, sheet := some 11 }⟩,
   ⟨"WIN_N", 0x004, 1, 0x4, 1, { rw := 0xFFFFFFFF, sheet := some 11 }⟩,
   ⟨"WIN_MS", 0x008, 1, 0x4, 1, { rw := 0xFFFFFFFF, sheet := some 11 }⟩,
   ⟨"CMD", 0x00C, 1, 0x4, 1, { cmd := 0x80000000 }⟩,
   ⟨"NOM", 0x010, 1, 0x8, 2, { rw := 0xFFFFFFFF, mw := true, sheet := some 11 }⟩,
   ⟨"DISCARDS", 0x018, 1, 0x4, 1, { cnt := true }⟩,
   ⟨"OVER", 0x01C, 1, 0x4, 1, { cnt := true }⟩,
   ⟨"HIST_IDX", 0x020, 1, 0x4, 1, {}⟩,
   ⟨"results", 0x040, 22, 0x4, 1, {}⟩]

/-- Registers of FIELDBOOK. -/
def fieldbookRows : List Row :=
  [⟨"CTRL", 0x000, 1, 0x4, 1, { rwk := 0xF0000000, reset := 0x90000000, sheet := some 11 }⟩,
   ⟨"BASE", 0x004, 1, 0x4, 1, { rwk := 0xFFFFFFFF, sheet := some 11 }⟩,
   ⟨"SIZE", 0x008, 1, 0x4, 1, { rwk := 0xFFFFFFFF, reset := 0x00500000, sheet := some 11 }⟩,
   ⟨"WR", 0x00C, 1, 0x4, 1, {}⟩,
   ⟨"RD", 0x010, 1, 0x4, 1, { rw := 0xFFFFFFFF }⟩,
   ⟨"OVERWRITE", 0x014, 1, 0x4, 1, { cnt := true }⟩,
   ⟨"OVW_SEQ", 0x018, 1, 0x4, 1, {}⟩,
   ⟨"DROP_CNT", 0x01C, 1, 0x4, 1, { cnt := true }⟩,
   ⟨"CFG_REJECTS", 0x020, 1, 0x4, 1, { cnt := true }⟩,
   ⟨"RD_REJECTS", 0x024, 1, 0x4, 1, { cnt := true }⟩,
   ⟨"ECC_LOST", 0x028, 1, 0x4, 1, { cnt := true }⟩,
   ⟨"WM0-1", 0x030, 2, 0x4, 1, { rw := 0x00FFFFFF, reset := 0x00FFFFFF, sheet := some 11 }⟩,
   ⟨"WMSTAT", 0x038, 1, 0x4, 1, { rc := 0x30000000 }⟩,
   ⟨"WMCOUNT", 0x03C, 1, 0x4, 1, { rc := 0xFFFFFFFF }⟩,
   ⟨"DRAIN_CTRL", 0x080, 1, 0x4, 1, { rwk := 0xDF1F0000, reset := 0x0C000000, sheet := some 11 }⟩,
   ⟨"DRAIN_MOD", 0x084, 1, 0x4, 1, { rwk := 0xFFFFFFFF, reset := 0x00400064, sheet := some 11 }⟩,
   ⟨"RING_BASE", 0x088, 1, 0x8, 2, { rwk := 0xFFFFFFFF, mw := true, sheet := some 11 }⟩,
   ⟨"WB_ADDR", 0x090, 1, 0x8, 2, { rwk := 0xFFFFFFFF, mw := true, sheet := some 11 }⟩,
   ⟨"TYPE_MASK", 0x098, 1, 0x4, 1, { rwk := 0xFFFFFFFF, reset := 0x07FF00FE, sheet := some 11 }⟩,
   ⟨"HEAD", 0x09C, 1, 0x4, 1, {}⟩,
   ⟨"HOST_RD", 0x0A0, 1, 0x4, 1, { rw := 0xFFFFFFFF }⟩,
   ⟨"DRAIN_STATUS", 0x0A4, 1, 0x4, 1, {}⟩]

/-- Registers of SYNTH. -/
def synthRows : List Row :=
  [⟨"STATUS", 0x000, 1, 0x4, 1, { cnt := true }⟩,
   ⟨"STICKY", 0x004, 1, 0x4, 1, { rc := 0xFFFF0003 }⟩,
   ⟨"CMD", 0x008, 1, 0x4, 1, { cmdk := 0x80000000 }⟩,
   ⟨"PLAN_REJECTS", 0x00C, 1, 0x4, 1, { cnt := true }⟩,
   ⟨"NFB", 0x010, 1, 0x8, 2, { mw := true }⟩,
   ⟨"FOREIGN", 0x018, 1, 0x4, 1, { cnt := true }⟩,
   ⟨"PLAN", 0x020, 1, 0x4, 1, {}⟩,
   ⟨"N0", 0x028, 1, 0x8, 2, { mw := true }⟩,
   ⟨"CONTOUR", 0x080, 32, 0x4, 1, {}⟩,
   ⟨"PROG_SRC", 0x100, 1, 0x4, 1, { rwk := 0xFFFFFFFF }⟩,
   ⟨"PROG_CMD", 0x104, 1, 0x4, 1, { cmdk := 0xF0000000 }⟩,
   ⟨"PROG_STATUS", 0x108, 1, 0x4, 1, { cnt := true }⟩,
   ⟨"PROG_DIGEST0", 0x140, 8, 0x4, 1, { rok := 0xFFFFFFFF }⟩,
   ⟨"PROG_DIGEST1", 0x160, 8, 0x4, 1, { rok := 0xFFFFFFFF }⟩]

/-- Registers of OUTBANK. -/
def outbankRows : List Row :=
  [⟨"CTRL", 0x000, 1, 0x4, 1, { rwk := 0xF0F80000, sheet := some 9 }⟩,
   ⟨"PLAN", 0x004, 1, 0x4, 1, { reset := 0xF7000000 }⟩,
   ⟨"OUT", 0x008, 8, 0x4, 1, {}⟩]

/-- Registers of ALIGN. -/
def alignRows : List Row :=
  [⟨"STATUS0", 0x000, 1, 0x4, 1, {}⟩,
   ⟨"PLAN0", 0x004, 1, 0x4, 1, { reset := 0xF00A0000 }⟩,
   ⟨"AL_SLOPE0", 0x008, 1, 0x4, 1, { reset := 0x0010C6F8 }⟩,
   ⟨"STATUS1", 0x010, 1, 0x4, 1, {}⟩,
   ⟨"PLAN1", 0x014, 1, 0x4, 1, { reset := 0xF00A0000 }⟩,
   ⟨"AL_SLOPE1", 0x018, 1, 0x4, 1, { reset := 0x0010C6F8 }⟩,
   ⟨"STATUS2", 0x020, 1, 0x4, 1, {}⟩,
   ⟨"PLAN2", 0x024, 1, 0x4, 1, { reset := 0xF00A0000 }⟩,
   ⟨"AL_SLOPE2", 0x028, 1, 0x4, 1, { reset := 0x0010C6F8 }⟩,
   ⟨"STATUS3", 0x030, 1, 0x4, 1, {}⟩,
   ⟨"PLAN3", 0x034, 1, 0x4, 1, { reset := 0xF00A0000 }⟩,
   ⟨"AL_SLOPE3", 0x038, 1, 0x4, 1, { reset := 0x0010C6F8 }⟩]

/-- Registers of PORT. -/
def portRows : List Row :=
  [⟨"CFG", 0x000, 1, 0x4, 1, { rwk := 0xFFFF8000, reset := 0x00F00000, sheet := some 12 }⟩,
   ⟨"STATUS", 0x004, 1, 0x4, 1, {}⟩,
   ⟨"DLY_TX", 0x008, 1, 0x4, 1, { rwk := 0xFFFFFFFF, sheet := some 12 }⟩,
   ⟨"DLY_RX", 0x00C, 1, 0x4, 1, { rwk := 0xFFFFFFFF, sheet := some 12 }⟩,
   ⟨"RX_DISCARDS", 0x010, 1, 0x4, 1, { cnt := true }⟩,
   ⟨"TXQ_OWNER", 0x014, 1, 0x4, 1, { rwk := 0x00000003, reset := 0x00000001 }⟩,
   ⟨"TXQ_POP", 0x018, 1, 0x4, 1, { cmd := 0x0000FFFF }⟩,
   ⟨"TXQ_CNT", 0x01C, 1, 0x4, 1, { cnt := true }⟩,
   ⟨"TXQ_E", 0x020, 5, 0x4, 1, {}⟩,
   ⟨"RSTATE", 0x040, 1, 0x4, 1, { cnt := true }⟩,
   ⟨"RLINK", 0x044, 1, 0x4, 1, { rwk := 0xBFFFFFFF, reset := 0x0B4800FF, sheet := some 12 }⟩,
   ⟨"RCMD", 0x048, 1, 0x4, 1, { cmdk := 0xC0000000 }⟩,
   ⟨"ASYM", 0x04C, 1, 0x4, 1, { rwk := 0xFFFFFFFF, sheet := some 12 }⟩,
   ⟨"ASYM_TOL", 0x050, 1, 0x4, 1, { rwk := 0x0000FFFF, reset := 0x00000083, sheet := some 12 }⟩,
   ⟨"VER_TOL", 0x054, 1, 0x4, 1, { rwk := 0xFFFFFFFF, reset := 0x00010000, sheet := some 12 }⟩,
   ⟨"D_MAX", 0x058, 1, 0x4, 1, { rwk := 0xFFFFFFFF, reset := 0x000F4240, sheet := some 12 }⟩,
   ⟨"HO_ORDER", 0x05C, 1, 0x4, 1, { rwk := 0x0000000F, reset := 0x00000009, sheet := some 12 }⟩,
   ⟨"HOP", 0x060, 1, 0x4, 1, { rwk := 0xFFFFFFFF, reset := 0x00140005, sheet := some 12 }⟩,
   ⟨"PEER_ID", 0x068, 1, 0x8, 2, { mw := true }⟩,
   ⟨"RDELAY", 0x070, 1, 0x8, 2, { mw := true }⟩,
   ⟨"ASYM_SURV", 0x078, 1, 0x4, 1, {}⟩,
   ⟨"PEER_BENCH", 0x080, 9, 0x4, 1, {}⟩]

/-- Registers of PTE. -/
def pteRows : List Row :=
  [⟨"CTRL", 0x000, 1, 0x4, 1, { rwk := 0x80000000, sheet := some 13 }⟩,
   ⟨"TLV_SKIPS", 0x004, 1, 0x4, 1, { cnt := true }⟩,
   ⟨"AUTH_DISCARDS", 0x008, 1, 0x4, 1, { cnt := true }⟩,
   ⟨"RELAY_REJECTS", 0x00C, 1, 0x4, 1, { cnt := true }⟩,
   ⟨"PEER_SEL", 0x010, 1, 0x4, 1, { rw := 0x3C0001FF }⟩,
   ⟨"CFG_REJECTS", 0x014, 1, 0x4, 1, { cnt := true }⟩,
   ⟨"PEER_BENCH", 0x020, 9, 0x4, 1, {}⟩,
   ⟨"STREAM", 0x080, 32, 0x4, 1, { rwk := 0xFFFFFFC0, reset := 0x00009080, sheet := some 13 }⟩,
   ⟨"QMAP", 0x100, 8, 0x10, 1, { rwk := 0x00FFFFFF, reset := 0x0087A5F8, sheet := some 13 }⟩,
   ⟨"INST.CFG", 0x200, 8, 0x20, 1, { rwk := 0xFEFFFFFF, sheet := some 13 }⟩]

/-- Registers of ENGINE. -/
def engineRows : List Row :=
  [⟨"STATE", 0x000, 1, 0x4, 1, {}⟩,
   ⟨"PROG_SRC", 0x004, 1, 0x4, 1, { rwk := 0xFFFFFFFF }⟩,
   ⟨"PROG_CMD", 0x008, 1, 0x4, 1, { cmdk := 0xF0000000 }⟩,
   ⟨"PROG_STATUS", 0x00C, 1, 0x4, 1, { cnt := true }⟩,
   ⟨"SWAP_TMO", 0x010, 1, 0x4, 1, { rwk := 0x0000FFFF, reset := 0x000003E8, sheet := some 6 }⟩,
   ⟨"WDOG", 0x014, 1, 0x4, 1, { rwk := 0xFFFFFFFF, sheet := some 6 }⟩,
   ⟨"DROPS", 0x018, 1, 0x4, 1, { rc := 0xFFFFFFFF }⟩,
   ⟨"REJ", 0x01C, 1, 0x4, 1, { rc := 0xFFFFFFFF }⟩,
   ⟨"SUBS", 0x040, 16, 0x4, 1, { rw := 0x800000FF, reset := 0x000000FF, sheet := some 6 }⟩,
   ⟨"PROG_DIGEST0", 0x080, 8, 0x4, 1, { rok := 0xFFFFFFFF }⟩,
   ⟨"PROG_DIGEST1", 0x0A0, 8, 0x4, 1, { rok := 0xFFFFFFFF }⟩,
   ⟨"SEM", 0x200, 64, 0x4, 1, {}⟩,
   ⟨"SEM_REJECTS", 0x300, 1, 0x4, 1, { cnt := true }⟩]

/-- Registers of MEMORY. -/
def memoryRows : List Row :=
  [⟨"CFG", 0x000, 1, 0x4, 1, { rwk := 0xF800FFFF, reset := 0x5800003C, sheet := some 14 }⟩,
   ⟨"STATUS", 0x004, 1, 0x4, 1, {}⟩,
   ⟨"CE_THRESH", 0x008, 1, 0x4, 1, { rwk := 0x0000FFFF, reset := 0x00000040 }⟩,
   ⟨"REMAP", 0x020, 24, 0x4, 1, {}⟩,
   ⟨"BANK_ERR", 0x080, 25, 0x4, 1, { rc := 0xFFFFFF00 }⟩]

/-- Registers of ARCHIVE. -/
def archiveRows : List Row :=
  [⟨"CTRL", 0x000, 1, 0x4, 1, { rwk := 0xE000FFFF, reset := 0x20000018, sheet := some 14 }⟩,
   ⟨"PROT_REJECTS", 0x004, 1, 0x4, 1, { cnt := true }⟩,
   ⟨"LOG_LOST", 0x008, 1, 0x4, 1, { cnt := true }⟩,
   ⟨"WEAK_COUNT", 0x00C, 1, 0x4, 1, { cnt := true }⟩,
   ⟨"UE_COUNT", 0x010, 1, 0x4, 1, { cnt := true }⟩,
   ⟨"LOG_WR", 0x014, 1, 0x4, 1, {}⟩]

/-- Registers of MODBUS. -/
def modbusRows : List Row :=
  [⟨"PORT[0].CFG", 0x000, 1, 0x4, 1, { rwk := 0xF000FFFF, reset := 0x9000003C, sheet := some 14 }⟩,
   ⟨"PORT[0].STATUS", 0x004, 1, 0x4, 1, { cnt := true }⟩,
   ⟨"PORT[0].STICKY", 0x008, 1, 0x4, 1, { rc := 0xF000FFFF }⟩,
   ⟨"PORT[0].CMD", 0x00C, 1, 0x4, 1, { cmdk := 0x80000000 }⟩,
   ⟨"PORT[1].CFG", 0x020, 1, 0x4, 1, { rwk := 0xF000FFFF, reset := 0x9000003C, sheet := some 14 }⟩,
   ⟨"PORT[1].STATUS", 0x024, 1, 0x4, 1, { cnt := true }⟩,
   ⟨"PORT[1].STICKY", 0x028, 1, 0x4, 1, { rc := 0xF000FFFF }⟩,
   ⟨"PORT[1].CMD", 0x02C, 1, 0x4, 1, { cmdk := 0x80000000 }⟩,
   ⟨"CFG", 0x040, 1, 0x4, 1, { rwk := 0x000000FF, reset := 0x000000FF, sheet := some 14 }⟩,
   ⟨"GAZ_FULL", 0x044, 1, 0x4, 1, { cnt := true }⟩,
   ⟨"XFER_CMD", 0x060, 1, 0x4, 1, { cmdk := 0xFFFF003F }⟩,
   ⟨"XFER_STATUS", 0x064, 1, 0x4, 1, {}⟩,
   ⟨"XFER_DATA", 0x068, 8, 0x4, 1, { rwk := 0xFFFFFFFF }⟩,
   ⟨"GAZ.INFO", 0x400, 64, 0x10, 1, { cnt := true }⟩,
   ⟨"GAZ.ID", 0x404, 64, 0x10, 2, { mw := true }⟩]

/-- Registers of SIDEBAND. -/
def sidebandRows : List Row :=
  [⟨"CFG", 0x000, 1, 0x4, 1, { rwk := 0x80000000, sheet := some 0 }⟩,
   ⟨"STATUS", 0x004, 1, 0x4, 1, {}⟩,
   ⟨"NACKS", 0x008, 1, 0x4, 1, { cnt := true }⟩,
   ⟨"PEC_ERRS", 0x00C, 1, 0x4, 1, { cnt := true }⟩]

/-- Registers of PINMUX. -/
def pinmuxRows : List Row :=
  [⟨"SVIN_MAP", 0x000, 24, 0x4, 1, { rwk := 0x800000FF, reset := 0x000000FF, sheet := some 0 }⟩,
   ⟨"SVIN_REJECTS", 0x060, 1, 0x4, 1, { cnt := true }⟩,
   ⟨"STRAPS", 0x064, 1, 0x4, 1, {}⟩]

/-- Registers of HOST. -/
def hostRows : List Row :=
  [⟨"LINK", 0x000, 1, 0x4, 1, {}⟩,
   ⟨"BAD_TLP", 0x004, 1, 0x4, 1, { cnt := true }⟩,
   ⟨"BAR2_REJECTS", 0x008, 1, 0x4, 1, { cnt := true }⟩,
   ⟨"MSI_LOST", 0x00C, 1, 0x4, 1, { cnt := true }⟩]

/-- Registers of a monitor-table entry (R420). -/
def monRows : List Row :=
  [⟨"ACTCFG", 0x008, 1, 0x4, 1, { rwk := 0xFFFF1F0F, reset := 0x01100403, sheet := some 1 }⟩,
   ⟨"FREQ_SET", 0x00C, 1, 0x4, 1, { rwk := 0xFFFFFFFF, reset := 0x009A59B3, sheet := some 1 }⟩,
   ⟨"FREQ_CLR", 0x010, 1, 0x4, 1, { rwk := 0xFFFFFFFF, reset := 0x0073C346, sheet := some 1 }⟩,
   ⟨"PHCFG", 0x014, 1, 0x4, 1, { rwk := 0xF800FFFF, reset := 0x000003E8, sheet := some 1 }⟩,
   ⟨"PH_STEP", 0x018, 1, 0x4, 1, { rwk := 0xFFFFFFFF, reset := 0x00320000, sheet := some 1 }⟩,
   ⟨"TIMERS", 0x01C, 1, 0x4, 1, { rwk := 0xFFF0FFFF, reset := 0x12C00000, sheet := some 1 }⟩,
   ⟨"FREQ_WM", 0x020, 1, 0x4, 1, { rwk := 0xFFFFFFFF, reset := 0xFFFFFFFF, sheet := some 1 }⟩,
   ⟨"PH_WM", 0x024, 1, 0x4, 1, { rwk := 0xFFFFFFFF, reset := 0xFFFFFFFF, sheet := some 1 }⟩,
   ⟨"LABEL", 0x028, 1, 0x4, 1, { rwk := 0x0007FFFF, reset := 0x0007FE00, sheet := some 1 }⟩,
   ⟨"NOM_FREQ", 0x000, 1, 0x8, 2, { rwk := 0xFFFFFFFF, mw := true, sheet := some 1 }⟩]

/-- The rows of a block. -/
def Block.rows : Block → List Row
  | .legend => legendRows
  | .device => deviceRows
  | .access => accessRows
  | .notice => noticeRows
  | .mailbox => mailboxRows
  | .benchmark => benchmarkRows
  | .fault => faultRows
  | .power => powerRows
  | .refin => refinRows
  | .loop => loopRows
  | .datum => datumRows
  | .survey => surveyRows
  | .stats => statsRows
  | .fieldbook => fieldbookRows
  | .synth => synthRows
  | .outbank => outbankRows
  | .align => alignRows
  | .port => portRows
  | .pte => pteRows
  | .engine => engineRows
  | .memory => memoryRows
  | .archive => archiveRows
  | .modbus => modbusRows
  | .sideband => sidebandRows
  | .pinmux => pinmuxRows
  | .host => hostRows
  | .mon => monRows

/-- A register as decoded: block, instance, offset within the instance (R321). -/
structure Place where
  blk : Block
  inst : Nat
  off : Nat
  deriving DecidableEq, Repr

/-- Keys of the monitor table in the register file: this base plus the indirect address. -/
def monBase : Nat := 0x40000000

/-- R321: the place a BAR0 register offset reaches; none where it lies in no block. The semaphores show in every
engine's instance alike (R432). -/
def placeOf (o : Nat) : Option Place :=
  match blockMap.find? (fun b => decide (b.base ≤ o ∧ o < b.base + b.insts * b.stride)) with
  | none => none
  | some b =>
    let inner := ((o - b.base) % b.stride) % b.span
    let inner := inner - inner % 4
    let inst := (o - b.base) / b.stride
    if b.blk = .engine ∧ 0x200 ≤ inner ∧ inner ≤ 0x300 then some ⟨b.blk, 0, inner⟩
    else some ⟨b.blk, inst, inner⟩

/-- The place of a monitor-table word by its indirect address (R420). -/
def monPlace (a : Nat) : Place :=
  ⟨.mon, (a - 0x10000) / 0x40, (a - 0x10000) % 0x40 - a % 4⟩

/-- Base and stride of a block. -/
def Block.map (b : Block) : Nat × Nat :=
  match blockMap.find? (fun m => decide (m.blk = b)) with
  | some m => (m.base, m.stride)
  | none => (monBase + 0x10000, 0x40)

/-- The key of a place in the register file: its canonical BAR0 offset, or `monBase` plus its indirect address. -/
def Place.key (p : Place) : Nat :=
  p.blk.map.1 + p.inst * p.blk.map.2 + p.off

/-- The key of a register, by block, instance and offset. -/
def key (b : Block) (inst off : Nat) : Nat :=
  (Place.mk b inst off).key

/-- The place of a key. -/
def placeOfKey (k : Nat) : Option Place :=
  if k < monBase then placeOf k else if k < monBase + 0x11800 then some (monPlace (k - monBase)) else none

/-- The row of an offset, with the index in the array and the word within the register. -/
def rowAt (b : Block) (off : Nat) : Option (Row × Nat × Nat) :=
  match b.rows.find? (fun r => decide (r.off ≤ off ∧ (off - r.off) / r.stride < r.count
      ∧ (off - r.off) % r.stride < 4 * r.words)) with
  | none => none
  | some r => some (r, (off - r.off) / r.stride, (off - r.off) % r.stride / 4)

/-- A slot's source number from its REFIN place (R54). -/
def slotSrc (p : Place) : Nat :=
  16 * ((p.off - 0x20) / 0x20) + p.inst

/-- NOM_FREQ is RO for sources 16–31 and 88–95 (R58, R420). Recovered clocks have one value at every port rate (R236);
synthesizers' values come with their plans. -/
def nomFixed (src : Nat) : Bool :=
  (16 ≤ src && src < 32) || 88 ≤ src

/-- Reset words of MAILBOX[m].CFG (R335). -/
def mailboxReset (m : Nat) : Word :=
  BitVec.ofNat 32 ((if m < 4 then 0x13000000 else if m < 8 then 0x31000000 else if m < 10 then 0x03000000
    else if m < 12 then 0x30000000 else if m = 12 then 0x23000000 else if m = 13 then 0x32000000 else 0x77000000)
    + m * 0x10000)

/-- The register at a place (all masks 0 where there is none). -/
def Place.reg (p : Place) : Reg :=
  match rowAt p.blk p.off with
  | none => {}
  | some (r, i, _) =>
    let g := { r.reg with reset := r.reg.reset + BitVec.ofNat 32 (r.reg.inc * i) }
    if p.blk = .mailbox ∧ p.off = 0 then { g with reset := mailboxReset p.inst }
    else if p.blk = .mon ∧ p.off < 8 ∧ nomFixed p.inst then
      { g with rwk := 0, reset := if p.off = 0 ∧ p.inst < 32 then 0x005F5E10 else 0 }
    else if p.blk = .synth ∧ 0x100 ≤ p.off ∧ p.inst < 8 then {}
    else g

/-- Reset word of a key (R404, R406 to R436). -/
def resetWord (k : Nat) : Word :=
  match placeOfKey k with
  | none => 0
  | some p => p.reg.reset

/-- The sheet that covers a place (R384): slots 0–31 sheet 1, 32–95 sheet 2; loops 0–7 sheet 3, 8–15 sheet 4. -/
def Place.sheet (p : Place) : Option Nat :=
  match p.reg.sheet with
  | none => none
  | some 1 =>
    let src := if p.blk = .mon then p.inst else slotSrc p
    some (if src < 32 then 1 else 2)
  | some 3 => some (if p.inst < 8 then 3 else 4)
  | some n => some n

/-- Covered bits of a place (R384): its RW, RWK and WP fields. -/
def Place.cover (p : Place) : Word :=
  match p.sheet with
  | none => 0
  | some _ => p.reg.cover.getD (p.reg.rw ||| p.reg.rwk)

/-- The keys of one row in one instance of its block. -/
def Row.keys (r : Row) (b : Block) (inst : Nat) : List Nat :=
  (List.range r.count).flatMap (fun i => (List.range r.words).map (fun w => key b inst (r.off + i * r.stride + 4 * w)))

/-- The keys of a block's registers, instance by instance, in the order of its rows. -/
def Block.keys (b : Block) (insts : Nat) : List Nat :=
  (List.range insts).flatMap (fun i => b.rows.flatMap (fun r => if r.reg.sheet.isSome then r.keys b i else []))

/-- The keys of covered registers of every block and of the monitor table (R384). -/
def coveredKeys : List Nat :=
  blockMap.flatMap (fun m => m.blk.keys m.insts) ++ Block.mon.keys 96

/-- log2 of a block's span, for SPAN0–SPAN6 (R408). -/
def spanByte (i : Nat) : Nat :=
  match blockMap[i]? with
  | some m => m.span.log2
  | none => 0

/-- SPAN word i (R408). -/
def spanWord (i : Nat) : Word :=
  BitVec.ofNat 32 (((spanByte (4 * i) * 256 + spanByte (4 * i + 1)) * 256 + spanByte (4 * i + 2)) * 256 + spanByte (4 * i + 3))

end Sys2Proof.Machine
end

