-- ==== Sys2Proof/Config.lean ====
section
/-! DEFINITION. What one part or one implementation fixes, and the values the spec leaves open: opaque constants, so
that no proof can see a value. Each is named in a row of notes/assumptions. -/

namespace Sys2Proof.Config

/-- DEV_ID of the part's cartouche (R371, R408: per part). -/
opaque devId : BitVec 64

/-- Grade of the part, true = V (R1, R371: per part). -/
opaque gradeV : Bool

/-- Factory test date, TAI seconds (R371: per part). -/
opaque testDate : BitVec 48

/-- CAL_LOG2 of the factory calibration (R371, R408: per part). -/
opaque calLog2 : BitVec 5

/-- The bytes of the archive's factory half, 0x10_0000 upward (R368: histograms, skews, trims, key slot 0, cartouche;
written at the factory, protected on every shipped part by R372). -/
opaque factoryByte : Nat → BitVec 8

/-- A byte of an archive log record: R368 and R370 give the ring, the 32-byte size and the CRC, not the fields. -/
opaque logByte : Nat → Nat → BitVec 8

/-- A byte of the archive's counters area (R368 lists the counters, not their layout): by byte, core resets by source, power-on
hours, retirements and verification failures. -/
opaque counterByte : Nat → List Nat → Nat → Nat → Nat → BitVec 8

/-- A byte of the archive's oven model area (R368 lists A, KT, MODEL_VALID and the block count, not their layout): by
byte, A, KT, MODEL_VALID and the block count. -/
opaque ovenByte : Nat → Int → Int → Bool → Nat → BitVec 8

/-- Trim and lane diagnostic words of the indirect space (R436: device-specific). -/
opaque diagWord : Nat → BitVec 32

/-- The digest of the steward firmware image that runs, by slot (0, 1) or host (2) (R384 sheet 15). -/
opaque fwDigest : Nat → BitVec 256

/-- The register offset with which a benchmark value that has no covered register enters its sheet (R384 gives none): by
sheet and word. -/
opaque benchOffset : Nat → Nat → BitVec 32

/-- Words of a function's PCIe configuration space that no rule states (R317: the PCIe Base Specification's). -/
opaque configWord : Fin 2 → Nat → BitVec 32

/-- The word of the packet tables that holds a session's entry, by port and session (R353, R365: the tables' layout is not
given). -/
opaque sessWord : Nat → Nat → Nat

/-- The place of a mailbox message in the notices and mailboxes region, by mailbox and slot (R335, R353: the layout behind the
notice ring is not given). -/
opaque mailSlot : Nat → Nat → Nat

/-- The transport of a PTP instance where its profile leaves a choice (R239): G.8275.1's second multicast address, Annex D
in place of Annex C, an annex of the default profiles. -/
opaque ptpTransport : Nat → Nat

/-- MAKER and SERIAL of this device's identity as a PEER target (R342, R350: the spec gives no numbers). -/
opaque peerMaker : BitVec 16
opaque peerSerial : BitVec 28

/-- The PATH_TRACE identities that the steward has appended (R240, R238: its contents are the steward's): applied to the
counter `State.freeCtr`. -/
opaque freePath : Nat → List (BitVec 64)

/-- A value the spec leaves open, fresh at each use: applied to the counter `State.freeCtr`. -/
opaque freeWord : Nat → BitVec 64

end Sys2Proof.Config
end

