-- ==== Sys2Proof/Machine/State.lean ====
section
/-! DEFINITION. The state of the FZ-4192 as plain data, and the state after reset. Register words live in one sparse
register file (`State.regs`, `State.rc`); everything else the rules name is a field of its own. Each field's docstring
cites the rule that names it. -/

namespace Sys2Proof.Machine

/-- A sparse register file: (key, word), keys strictly rising, no entry equal to the register's reset value. -/
abbrev RegMap := List (Nat × Word)

/-- A field book record, 16 bytes, byte 0 most significant (R189). -/
abbrev Rec := BitVec 128

/-- Time of a datum clock or of a tally (R33, R35): 48-bit seconds, 30-bit ns, fraction [2^-56 ns]. -/
structure Tm where
  sec : BitVec 48
  ns : BitVec 30
  frac : BitVec 56
  deriving DecidableEq, Repr

/-- A rate segment (R41): base tick, T(base), increment, the fractional frequency that gave it. -/
structure Seg where
  base : DWord
  tb : Tm
  inc : DWord
  n : Int
  slew : Bool
  deriving DecidableEq, Repr

/-- A datum clock or a tally: time at the present tick, increment [2^-56 ns], fractional frequency [2^-72], the last
16 rate segments, newest first (R35, R41, R86). -/
structure Clock where
  now : Tm
  inc : DWord
  n : Int
  segs : List Seg
  deriving DecidableEq, Repr

/-- What a steering word carries (R17, R18): the frequency n [2^-72] that forms an increment (R39) or a fractional
feedback word (R208), a Δ [2^-32 ns] (R126), a time
set (R145: dset [2^-56 ns], labelling source), or the end of an assignment (R20, R147). -/
inductive Pay where
  | inc (n : Int)
  | nfb (n : Int)
  | delta (d : Int)
  | tset (dset : Int) (src : Fin 96)
  | release
  deriving DecidableEq, Repr

/-- A word in a loop-to-datum, loop-to-synthesizer or loop-to-tally crossing (R18). `take` marks the first word of an
incoming loop of a hand-over, with which the assignment passes (R20, R137). -/
structure XWord where
  src : Fin 16
  dst : Dest
  pay : Pay
  apply : DWord
  arrived : Bool
  take : Bool
  deriving DecidableEq, Repr

/-- A time set that is due at the coming tick (R145). -/
structure SetDue where
  loop : Fin 16
  dset : Int
  src : Fin 96
  deriving DecidableEq, Repr

/-- A datum clock (R35, R38, R127, R128, R140, R141). -/
structure Datum where
  /-- The clock itself (R35, R41). -/
  clk : Clock
  /-- The clock's mirrors in ENGA and ENGB (R306, R376, R380). -/
  mirs : Vector Clock 2
  /-- Slew remainder [2^-56 ns], s88 (R128). -/
  rem : Int
  /-- Per-tick slew amount q [2^-56 ns] (R128). -/
  q : Nat
  /-- BSLEW in force in the datum island (R128). -/
  bslew : Word
  /-- A BSLEW write that acts at the coming tick (R128). -/
  bslewDue : Option Word
  /-- The increment that replaces the present one at the coming tick (R35 step 1). -/
  incDue : Option Int
  /-- The Δ values added as one step at the coming tick, with their loops (R35 step 2, R38). -/
  stepDue : List (Fin 16 × Int)
  /-- A slew's final remainder, added as a step at the coming tick (R128). -/
  slewStep : Int
  /-- Δ values that start or extend a slew at the coming tick, with their loops (R127). -/
  slewDue : List (Fin 16 × Int)
  /-- A time set due at the coming tick (R145). -/
  setDue : Option SetDue
  /-- Δ values held for the 1 ms spacing (R38). -/
  heldSteps : List (Fin 16 × Int)
  /-- Time sets held for the 1 ms spacing, oldest first (R38). -/
  heldSets : List SetDue
  /-- Apply tick of the last step or set (R38). -/
  lastStep : Option DWord
  /-- Apply tick of the last step, ending step of a slew by BSLEW 0, or set: what PPS, ToD and waits call a step (R128,
  R151, R153, R157, R281). -/
  lastMove : Option DWord
  /-- Apply tick of the last step or set that wrote an EPOCH record, against which PRE is judged (R46, R189). -/
  lastPre : Option DWord
  /-- Assigned loop (R20, R141). -/
  assigned : Option (Fin 16)
  /-- STATUS.SET (R141). -/
  set : Bool
  /-- STATUS.TRACEABLE (R147). -/
  traceable : Bool
  /-- STATUS.LABEL_SRC, 0xFF = never set (R141). -/
  labelSrc : Byte
  /-- The last TAI second before a LEAP acts (R149, R150). -/
  leapAt : Option Nat
  deriving DecidableEq, Repr

/-- Loop states (R105). -/
inductive LoopCode where
  | freeRun
  | acquire
  | locked
  | holdover
  | extended
  deriving DecidableEq, Repr

/-- Twin roles (R135). -/
inductive TwinRole where
  | solo
  | primary
  | standby
  | failed
  deriving DecidableEq, Repr

/-- Reasons of a selection decision (R118, R190). -/
inductive SelReason where
  | loss
  | order
  | priority
  | manual
  | abort
  | handover
  | acquire
  deriving DecidableEq, Repr

/-- The registers of a Nimyor target (R276): G0–G31, ACC0–ACC3, F, CW, PC, return stack. -/
structure Cpu where
  g : Vector DWord 32
  acc : Vector (BitVec 128) 4
  f : BitVec 6
  cw : Word
  pc : Nat
  stack : List Nat
  deriving DecidableEq, Repr

/-- A verified sheet in a program bank (R285, R286). `keeper` and `signed` are its rights (R290). -/
structure Sheet where
  code : List Word
  consts : List DWord
  init : List Byte
  wcet : Nat
  entry : Nat
  carryG : Word
  carryAcc : BitVec 4
  keepData : Bool
  keeper : Bool
  signed : Bool
  digest : BitVec 256
  /-- Code words and constants of the bank that stand in uncorrectable error, by index (R291, R313). -/
  badCode : List Nat
  badConst : List Nat
  deriving DecidableEq, Repr

/-- Phases of a program port (R288). -/
inductive PPhase where
  | idle
  | verifying
  | armed
  deriving DecidableEq, Repr

/-- A program port and its two banks (R288). -/
structure Prog where
  phase : PPhase
  active : Bool
  /-- Active bank: false = 0 (R288 BANK). -/
  bank : Bool
  bank0 : Option Sheet
  bank1 : Option Sheet
  cause : BitVec 4
  rejects : Nat
  /-- A SWAP has been requested (R288). -/
  swapReq : Bool
  /-- The load came from a keeper path or from the steward for the start sheet (R290). -/
  byKeeper : Bool
  /-- The active sheet's digest as the benchmark covers it, and the fault manager's shadow of it (R384, R386). -/
  digest : BitVec 256
  digestShadow : BitVec 256
  deriving DecidableEq, Repr

/-- An event of a candidate source on its way to the monitor (R59): latching tick, fraction, packet sample [2^-32 ns],
stamp flags, time label L with its event's datum time [2^-26 ns], whether a saturation acted on the packet sample (R48). -/
structure MonEv where
  k : DWord
  d : BitVec 14
  x : Int
  flags : Byte
  label : Option (Int × Int)
  sat : Bool
  deriving DecidableEq, Repr

/-- Qualification states (R72). -/
inductive QState where
  | off
  | failed
  | wait
  | qualified
  | lockout
  deriving DecidableEq, Repr

/-- The thresholds of a frequency gate as they stood at its opening (R55). -/
structure GateCfg where
  len : Nat
  fset : Nat
  fclr : Nat
  cnt : Nat
  wm : Nat
  nom : Nat
  deriving DecidableEq, Repr

/-- A phase sample's configuration (R55, R67, R68, R84): PH_AVG_LOG2, NOM_FREQ, PH_STEP, PH_WM and PH_HOLD as they stood at
its start. -/
structure PhaseCfg where
  len : Nat
  nom : Nat
  step : Nat
  wm : Nat
  hold : Nat
  deriving DecidableEq, Repr

/-- An event that a time label may pair with (R142, R143): latching tick and fraction, the compensation [2^-16 ns], and,
once its tick has come, its stamps [2^-26 ns] against the tallies and the datum clocks, each by the segment that contains
the tick (R42). -/
structure LabEv where
  k : DWord
  d : BitVec 14
  dc : Int
  stamps : Option (Vector Int 16 × Vector Int 8)
  deriving DecidableEq, Repr

/-- What a time label names: an event, or the datum time [2^-26 ns] that a packet carries (R142). -/
inductive LblAt where
  | event (e : LabEv)
  | packet (t : Int)
  deriving DecidableEq, Repr

/-- A time label with what it names (R142, R143): L [2^-26 ns]. -/
structure Lbl where
  l : Int
  of : LblAt
  deriving DecidableEq, Repr

/-- A monitor slot (R53, R54). -/
structure Slot where
  /-- QSTATE and CAUSE (R72, R74). -/
  qstate : QState
  cause : BitVec 4
  /-- Alarm levels (R63 to R68). -/
  los : Bool
  act : Bool
  freq : Bool
  phase : Bool
  /-- A cause of LOS is present (R59, R64). -/
  losCause : Bool
  /-- The source has been QUALIFIED since EN was last written 1 (R77). -/
  everQual : Bool
  /-- Tick at which the wait-to-restore timer expires (R77). -/
  wtrAt : Option DWord
  /-- The verdict is stale; the instant VTTL counts from (R79). -/
  stale : Bool
  vttlFrom : DWord
  /-- Tick of the last undivided transition of a REFIN input (R59). -/
  lastTr : DWord
  /-- Previous event, compensated oven instant [2^-32/25 ns], and the same uncompensated (R60, R63). -/
  last : Option Int
  lastRaw : Int
  /-- Consecutive good events (R64). -/
  goodActs : Nat
  /-- The event that opened the gate (oven instant [2^-32/25 ns], packet sample), events since, its configuration (R55, R65). -/
  gate : Option (Int × Int)
  gateN : Nat
  gateCfg : GateCfg
  /-- The closing event of a complete gate (R65). -/
  gateEnd : Option (Int × Int)
  /-- Consecutive good gates (R66). -/
  goodGates : Nat
  freqInvalid : Bool
  freqVal : Int
  /-- Phase monitor: anchor instant, events since the anchor, events and sums of the sample in progress (R67). -/
  phAnchor : Option Int
  phIdx : Nat
  phN : Nat
  phSum : Int
  phIdxSum : Nat
  /-- The configuration of the sample in progress, or of the last one until the next begins (R55). -/
  phCfg : PhaseCfg
  /-- A complete phase sample [2^-32 ns] (R67). -/
  phDone : Option Int
  /-- The last two samples, newest first (R67). -/
  phHist : List Int
  /-- Tick of the last sample that set PHASE (R68). -/
  phSetAt : Option DWord
  fwmState : Bool
  pwmState : Bool
  /-- STATE.ORDER and ESSM_MISMATCH (R80, R81). -/
  order : BitVec 4
  essmMismatch : Bool
  /-- DELAY_COMP in force [2^-16 ns] and whether a write waits for the next event (R60, R62). -/
  dc : Int
  dcPend : Bool
  /-- Selected edges until the next divided edge (R57). -/
  preDiv : Nat
  /-- Events delivered by the datum island or the packet timing engine, oldest first (R59). -/
  inbox : List MonEv
  /-- Labels that wait for their event, oldest first: L [2^-26 ns], start-bit tick (R142, R143). -/
  labelWait : List (Int × DWord)
  /-- Events since EN or LOS last allowed them, newest first: those a label whose first start bit has passed may pair
  with, and the newest (R143). -/
  lastEv : List LabEv
  /-- Labels paired with their events, oldest first. -/
  labelQ : List Lbl
  /-- For each loop: L − r of the last three labels [2^-26 ns], newest first, each with whether it disagreed by 0.5 s or
  more (R144). -/
  labelHist : Vector (List (Int × Bool)) 16
  deriving DecidableEq, Repr

/-- One event in a sample of a loop (R89): tally stamp or arrival [2^-26 ns], event error where the source gives it (packet
streams), HIST and UNWARMED, whether a saturation acted on that error (R48). An event whose latching tick is still to come holds
that tick and its fraction; `r` is then the compensation alone (R42). -/
structure LEv where
  raw : Option (DWord × BitVec 14)
  r : Int
  e : Option Int
  hist : Bool
  unw : Bool
  sat : Bool
  deriving DecidableEq, Repr

/-- A switch transaction in progress (R120). -/
structure Sw where
  tgt : Fin 96
  reason : SelReason
  /-- Tally time of the decision [2^-26 ns]. -/
  at_ : Int
  /-- Window samples collected, newest first. -/
  win : List Int
  /-- The last window sample has closed: commit due. -/
  full : Bool
  deriving DecidableEq, Repr

/-- The holdover estimator (R129, R132). -/
structure Est where
  cnt : Nat
  h : Int
  v : Nat
  fh : Int
  unc : Nat
  tm : Int
  deriving DecidableEq, Repr

/-- What one tally second has gathered for the estimator (R129). -/
structure SecAcc where
  sum : Int
  n : Nat
  ok : Bool
  any : Bool
  deriving DecidableEq, Repr

/-- The loop parameters in force for the sample in progress (R108, R138). -/
structure LoopPar where
  pull : Nat
  slope : Nat
  lockPh : Nat
  unlockPh : Nat
  lockCnt : Nat
  unlockCnt : Nat
  acqTmo : Nat
  hoWin : Nat
  hoMin : Nat
  modelEn : Bool
  hoTmo : Nat
  hoTeLimit : Nat
  twinTol : Nat
  deriving DecidableEq, Repr

/-- A meridian loop (R86 to R139). -/
structure Loop where
  /-- STATE.CODE, SWITCHING, SEL (R110). -/
  code : LoopCode
  sel : Option (Fin 96)
  clampPull : Bool
  clampSlope : Bool
  unwarmed : Bool
  /-- The tally and the frequency whose increment is due at the coming tick (R86). -/
  tally : Clock
  incDue : Option Int
  /-- Every rate segment the tally has had, newest first, at its present reckoning: the edges of an alignment line's batch are stamped
  when they latch (R42, R227), which may lie further back than the 16 segments held (the model's own, log 173). -/
  rates : List Seg
  /-- The loop's next word to its datum clock, to its synthesizer, passes their assignment to it (R20). -/
  takeD : Bool
  takeS : Bool
  /-- Instant tick of the sample awaiting its close; its interval [2^-26 ns] (R92). -/
  instTick : Option DWord
  instLo : Int
  instHi : Int
  /-- The sample awaiting close is the last of its tally second (R129). -/
  instLast : Bool
  /-- Present sample: x, flags word, OUTF delivered (R92 to R94). -/
  x : Int
  flagsW : BitVec 16
  out : Option Int
  /-- Program frequency fp and loop frequency f [2^-72] (R94, R100). -/
  fp : Int
  f : Int
  cpu : Cpu
  /-- Events of the selected source and, during a transaction, of the target (R92, R120). -/
  evs : List LEv
  shadow : List LEv
  pbo : Int
  newSrc : Bool
  lockRun : Nat
  unlockRun : Nat
  /-- Tick of entry into ACQUIRE, entered from holdover, slope anchor (R101, R105). -/
  acqAt : DWord
  acqHold : Bool
  fa : Int
  /-- PBO is to take the first sample's error (R105, ACQ_PBO = 0b01). -/
  acqFirst : Bool
  /-- The sources barred in this loop (R107). -/
  bars : BitVec 96
  /-- Held in holdover or free run by a datapath fault (R97). -/
  heldFault : Bool
  /-- Tick at which hold-off expires (R119). -/
  holdoffAt : Option DWord
  /-- An evaluation outside the selection tick is due (R114). -/
  evalDue : Option SelReason
  sw : Option Sw
  /-- Candidate writes held during a transaction, oldest first (R121). -/
  candHeld : List (Fin 16 × Word)
  /-- SELECT in force (R115). -/
  selWord : Word
  par : LoopPar
  est : Est
  /-- The fault manager's checkpoint of the estimator (R381). -/
  ckpt : Est
  /-- The tally second of the last checkpoint (R381). -/
  ckptAt : Option Nat
  secAcc : SecAcc
  /-- A complete tally second waiting for the estimator (R129). -/
  secReady : Option SecAcc
  /-- Holdover: fh at entry, tally time of entry [2^-26 ns], τ, f_ho (R132). -/
  hoFh : Int
  hoAt : Int
  hoTau : Nat
  fho : Int
  role : TwinRole
  /-- What decides the PRIMARY of a pair (R134): a sample has closed since EN was last written 1; EN was written 1 after
  the twin, already enabled, had closed a sample. -/
  closedEn : Bool
  enAfter : Bool
  /-- A former standby goes on under its primary's registers up to its next sample close (R134). -/
  wasStandby : Bool
  /-- Consecutive closes with |TALLY_DIFF| ≤ TWIN_TOL, and TALLY_DIFF (R135, R136). -/
  tolRun : Nat
  tallyDiff : Int
  /-- The standby copies the primary's state at its next close (R134). -/
  mirrorDue : Bool
  swapDeferred : Bool
  /-- A hand-over's SELECT notice and SWITCH record are due at the apply tick of this incoming loop's word (R137). -/
  handNote : Bool
  prog : Prog
  deriving DecidableEq, Repr

/-- Driver level of a survey ball. -/
inductive Drive where
  | off
  | low
  | high
  deriving DecidableEq, Repr

/-- What a stamp through a burst FIFO reports (R170, R174, R176, R179, R180). `target`: the driven edge's time in its
datum clock [2^-16 ns]. -/
inductive StampKind where
  | edge
  | gpio
  | interval (iv : Nat) (ovf : Bool)
  | period (per : Nat) (ovf : Bool)
  | uart (b : Byte) (parityErr framingErr : Bool)
  | emit (sched : Fin 4) (act : Byte) (late : Bool) (target : Int)
  | pulse (trail late stepped : Bool) (target : Int)
  /-- Not a stamp: the HANDOVER record takes its place among the channel's stamps (R181, R193). -/
  | handover (old new : BitVec 4) (held : BitVec 2)
  deriving DecidableEq, Repr

/-- All but the HANDOVER record are stamps or results of stamps (R172). -/
def StampKind.stamps : StampKind → Bool
  | .handover _ _ _ => false
  | _ => true

/-- A stamp or result before conversion (R158, R159). -/
structure RawStamp where
  k : DWord
  d : BitVec 14
  ch : Fin 192
  core : Fin 17
  fall : Bool
  flags : Byte
  /-- CFG of the channel at the edge (R167). -/
  cfg : Word
  kind : StampKind
  deriving DecidableEq, Repr

/-- A fetched graticule action (R177 to R179). -/
structure Act where
  target : Stamp
  ch : Fin 16
  act : Byte
  book : Bool
  wid : Nat
  deriving DecidableEq, Repr

/-- A pin function hand-over from tick h (R181): the CFG it ends, CFG writes held (R182), graticule actions held, with their
schedules. -/
structure Hand where
  h : DWord
  cfg : Word
  held : List Word
  acts : List (Fin 4 × Act)
  deriving DecidableEq, Repr

/-- A frame on its way out of a UART_TX channel (R169, R180): tick of its start bit, bit time in ticks, line levels before
INV from the start bit on. -/
structure TxFrame where
  start : DWord
  baud : Nat
  bits : List Bool
  deriving DecidableEq, Repr

/-- A frame on its way into a UART_RX channel (R169, R180): tick at which its start bit fell, its length in ticks, PARITY,
the stamp of the start bit: fraction, core and calibration flags as they stood at that edge (R170), none where dead time took it (R171);
and the CFG in force at that edge (R167). -/
structure RxFrame where
  start : DWord
  len : Nat
  parity : Nat
  two : Bool
  stamp : Option (BitVec 14 × Fin 17 × Byte)
  cfg : Word
  deriving DecidableEq, Repr

/-- A ToD message that waits for TOD_DLY (R152): the exported time of the edge described, the tick at which it is due, and
for an edge already past the TAI_UTC in force for it with whether its second is the inserted one (R150). -/
structure TodDue where
  t : Stamp
  k : DWord
  utc : Option (Int × Bool)
  deriving DecidableEq, Repr

/-- A survey channel (R167 to R182). -/
structure Chan where
  fifo : List RawStamp
  /-- Flags owed to the next stamp (R171, R172). -/
  crowd : Bool
  gap : Bool
  /-- Instant of the last comparator firing [2^-32/25 ns] (R171). -/
  lastFire : Option Int
  /-- Instant and polarity of the last edge at the threshold, selected or not; none after one that ended a pulse too narrow
  for the comparator (R171). -/
  lastEdge : Option (Int × Bool)
  /-- Level at the ball as last sampled (R180). -/
  level : Bool
  drv : Drive
  hand : Option Hand
  /-- A CFG write that left MODE unchanged: the tick from which it acts, the word in force until then (R167). -/
  cfgWait : Option (DWord × Word)
  /-- Open interval: start stamp (R174). -/
  ivStart : Option (DWord × BitVec 14)
  /-- Open period gate: opening stamp, edges counted (R176). -/
  perOpen : Option (DWord × BitVec 14)
  perN : Nat
  /-- GATE as it stood at the gate's opening [µs] (R169, R176). -/
  perGate : Nat
  /-- UART FIFOs (R180), and the label parser's bytes with their start-bit ticks, newest first (R143, R153). -/
  rx : List Byte
  /-- The frame that arrives (R180). -/
  rxCur : Option RxFrame
  /-- Bytes to send, oldest first, and the frame being sent (R180). -/
  tx : List Byte
  txCur : Option TxFrame
  /-- The frame being sent stands still, its bits so far sent (R380, R445). -/
  txStalled : Bool
  parser : List (Byte × DWord)
  /-- Second of the last PPS edge (R151). -/
  sLast : Option Int
  /-- Trailing edges due, earliest first: tick, fine delay, level before INV (R178, R180). -/
  trails : List (DWord × Nat × Bool)
  /-- ToD messages due, oldest first, the SEQ of the next, the tick of the last (R152, R153). -/
  todDue : List TodDue
  todSeq : Byte
  todLast : DWord
  /-- Instant of the last driven edge [2^-32/25 ns] (R178). -/
  lastDrive : Option Int
  deriving DecidableEq, Repr

/-- A time-to-digital core (R159 to R164). -/
structure TdcCore where
  /-- In-service table [2^-12 ns], one entry a code; none = factory table (R164). -/
  tab : Option (List Nat)
  /-- Lowest and highest code hit in the table in use (R160). -/
  lo : Nat
  hi : Nat
  /-- Tick of the table's commit (R161). -/
  age : DWord
  retired : Bool
  deriving DecidableEq, Repr

/-- Phases of a rotation step (R161). -/
inductive RotPhase where
  | idle
  | collecting
  | overlap
  deriving DecidableEq, Repr

/-- A survey group (R158 to R164, R172, R177). -/
structure Group where
  cores : Vector TdcCore 17
  /-- The core that measures each channel (R158). -/
  coreOf : Vector (Fin 17) 16
  relief : Fin 17
  noRelief : Bool
  /-- The core that the report or the self-test of the block concerns (R159, R161, R376). -/
  faultCore : Option (Fin 17)
  reliefLostAt : DWord
  frozen : Bool
  /-- Skews changed in service: (channel × 17 + core, skew [2^-12 ns]) (R159, R162). -/
  skews : List (Nat × Int)
  rot : RotPhase
  /-- Tick of the latest step's start, none before the first (R161). -/
  rotAt : Option DWord
  rotParams : Word × Word × Word
  /-- The relief core's new table and hit range (R161). -/
  newTab : List Nat × Nat × Nat
  invalids : Nat
  /-- The overlap: its start tick, and the edges of the outgoing core's channel within OVL_WIN of it (R162). -/
  ovlAt : DWord
  ovlEdges : Nat
  /-- A channel whose core was lost waits for its tap overlap: the channel, the tick of the loss, the skew before it (R163). -/
  recover : Option (Fin 16 × DWord × Int)
  /-- Round-robin pointer of the FIFO drain (R172). -/
  rr : Fin 16
  /-- Stamps in the crossings to DATA and DATB, oldest first, with whether each has arrived (R16). -/
  xa : List (RawStamp × Bool)
  xb : List (RawStamp × Bool)
  /-- Held by a supply mismatch; its rail is back, so that the group resumes at the next tick (R445). -/
  supplyHeld : Bool
  supplyBack : Bool
  /-- Fetched actions of the four schedules (R178). -/
  acts : Vector (List Act) 4
  /-- Instant at which each schedule's last entry fired [2^-32/25 ns] (R178). -/
  fired : Vector (Option Int) 4
  deriving DecidableEq, Repr

/-- A sample on its way to a statistics unit (R184). -/
structure Smp where
  x : Int
  unw : Bool
  gap : Bool
  deriving DecidableEq, Repr

/-- The accumulators of a statistics unit (R50, R186). -/
structure Acc where
  n : Nat
  s1 : Int
  s2 : Nat
  mn : Int
  mx : Int
  sat : Bool
  unw : Bool
  full : Bool
  gap : Bool
  deriving DecidableEq, Repr

/-- A statistics unit (R183 to R187). -/
structure StatUnit where
  acc : Acc
  inq : List Smp
  /-- Closed windows in the result stage, oldest first: accumulators, closing tick, CMD, DEFER (R186). -/
  stage : List (Acc × DWord × Bool × Bool)
  /-- Tick of the last close of a TIME window (R185). -/
  timeAt : DWord
  res : Acc
  mean : Int
  dev : Nat
  rflags : Byte
  seq : Word
  closeTick : DWord
  deriving DecidableEq, Repr

/-- The field book writer and the drain (R188 to R199). -/
structure Book where
  /-- Record groups on their way to the writer, oldest first (R16, R192). -/
  q : List (List Rec)
  /-- Lengths of the groups from RD to WR, oldest first (R195). -/
  groups : List Nat
  /-- Loss since the last SUMMARY and the first lost record's time fields (R195). -/
  lost : Nat
  lostHdr : Rec
  /-- Drain: records since the last vector, tick of the first of them (R198), stopped by an error (R199). -/
  unsig : Nat
  unsigAt : DWord
  drainErr : Bool
  deriving DecidableEq, Repr

/-- One notice source (R202). -/
structure NSrc where
  id : Nat
  /-- Ring count of the outstanding entry (R413). -/
  outPos : Option Nat
  cls : BitVec 2
  code : Byte
  pend : Nat
  args : BitVec 64
  unw : Bool
  time : Stamp
  firstAt : DWord
  lastAt : DWord
  deriving DecidableEq, Repr

/-- The notice queue (R200 to R203). -/
structure Notices where
  srcs : List NSrc
  seq : BitVec 16
  shed : Bool
  /-- A QUEUE_SUMMARY is due, held back by the one outstanding (R203). -/
  sumDue : Bool
  /-- Losses since the last QUEUE_SUMMARY, by class, and the time of the first. -/
  lossA : Nat
  lossB : Nat
  lossC : Nat
  lossD : Nat
  lossTime : Stamp
  /-- WARM read 0 at the first loss (R200). -/
  lossUnw : Bool
  deriving DecidableEq, Repr

/-- Where a synthesizer stands (R211 to R217). -/
inductive SynPhase where
  | off
  | locking
  | locked
  | regain
  | short
  | failed
  | holding
  deriving DecidableEq, Repr

/-- A projection synthesizer; instance 8 is SYNB (R204 to R223). -/
structure Syn where
  phase : SynPhase
  /-- A full lock sequence is in progress: from its start to ON_GRID (R212). -/
  seqOn : Bool
  onGrid : Bool
  refPath : BitVec 2
  band : BitVec 6
  searchFail : Nat
  failRow : Nat
  /-- N0 at the path in use, NFB in force, the last fractional frequency loaded (R208, R210). -/
  n0 : DWord
  nfb : DWord
  n : Int
  /-- Steering word held during a lock sequence (R212). -/
  heldN : Option Int
  assigned : Option (Fin 16)
  /-- Contour: running, segment, step in the segment, c; a new profile waits for the end of the pass (R219, R220). -/
  contour : Bool
  cseg : Nat
  cstep : Nat
  c : Int
  contourWait : Bool
  /-- Tick of the last contour step (R219). -/
  cAt : DWord
  /-- The profile in force: (SLOPE, LEN) (R219). -/
  prof : List (Int × Nat)
  lolAt : DWord
  /-- Anchor of the grid for a frequency that is not whole, tally [2^-26 ns] (R214). -/
  anchor : Int
  /-- What time sets and twin hand-overs have added to the tally since the last lock sequence [2^-56 ns]: the grid stays
  where it was (R215). -/
  gridOff : Int
  deriving DecidableEq, Repr

/-- An output (R212, R218, R225). -/
inductive OutSt where
  | off
  | waiting
  | running
  | squelched
  deriving DecidableEq, Repr

/-- A bank hand-over through an alignment line (R229). -/
structure BankHand where
  line : Fin 4
  next : Fin 8
  d0 : Nat
  deriving DecidableEq, Repr

/-- An alignment line (R227, R228). -/
structure Line where
  d : Nat
  range : Bool
  good : Nat
  lastAt : DWord
  /-- The bank that holds the line for a hand-over (R229). -/
  bank : Option (Fin 12)
  deriving DecidableEq, Repr

/-- An entry of a transmit timestamp queue (R246). -/
structure TxqEntry where
  id : BitVec 16
  seq : BitVec 16
  msgType : BitVec 4
  domain : Byte
  loss : Bool
  unw : Bool
  t : Stamp
  deriving DecidableEq, Repr

/-- Reistica link states (R252). -/
inductive LState where
  | down
  | train
  | legend
  | verify
  | up
  | swap
  deriving DecidableEq, Repr

/-- A valid pair of the phase exchange (R261): t3, t4 [2^-16 ns]. -/
structure Pair where
  t3 : Int
  t4 : Int
  deriving DecidableEq, Repr

/-- The Reistica side of a port (R249 to R274). -/
structure Reist where
  lstate : LState
  /-- Own frame SEQ, partner's latest clean SEQ (R250). -/
  seq : Byte
  rxSeq : Byte
  /-- Consecutive clean frames received, frames sent since link up, the partner's ACK and LINK byte (R252). -/
  trainN : Nat
  txN : Nat
  ackSeen : Bool
  linkSame : Bool
  crcRun : Nat
  /-- RLINK in force (R272). -/
  rlink : Word
  /-- Own LSEQ, legend parts received, SEQ of our last legend part, acknowledged (R252, R254). -/
  lseq : BitVec 16
  legSent : List Byte
  part0 : Option (List Byte)
  part1 : Option (List Byte)
  legSeq : Option Byte
  legAcked : Bool
  /-- The partner's accepted legend, part 0 payload, and its benchmark digest and DSEQ (R253, R255). -/
  partner : Option (List Byte)
  peerBench : BitVec 256 × Word
  peerId : BitVec 64
  peerPort : Byte
  /-- PX_SEQ, the last exchange instant [2^-14 s], own transmit stamps of the last 16 PHASE frames, partner's latest (R259 to
  R261). -/
  pxSeq : BitVec 16
  pxInst : Nat
  /-- The exchange instant for which a PHASE frame has gone out, or none is owed [2^-14 s] (R259). -/
  pxSent : Nat
  sent : List (BitVec 16 × Int)
  echo : Option (BitVec 16 × Stamp)
  pairs : List Pair
  rho : Int
  rdelay : Int
  /-- VERIFY: rt of consecutive valid pairs (R270). -/
  ver : List Int
  verifyFails : Nat
  retrainAt : Option DWord
  asymSurv : Int
  asymSurvOk : Bool
  mismatch : Bool
  reversed : Bool
  surveying : Bool
  svPhase : Nat
  svId : Byte
  svLog2 : Nat
  /-- Sum and count of x0 in the survey's four phases (R265, R266). -/
  svSum : Vector Int 4
  svN : Vector Nat 4
  /-- The phase's exchange instants have all passed; a switch command waits for confirmation; relock began (R265, R267). -/
  svInst : Nat
  cmdWait : Bool
  /-- POS has been written for the command that waits, and the switch has taken it (R350). -/
  posSent : Bool
  swapAt : DWord
  /-- A survey request of ours awaits its answer (R265, R267); tick of the last survey or entry to UP. -/
  reqOut : Option Byte
  survAt : DWord
  /-- Streams wait for the first survey (R270 SURV_FIRST). -/
  streamsWait : Bool
  lastOrder : BitVec 4
  deriving DecidableEq, Repr

/-- A timing port (R232 to R248). -/
structure Port where
  link : Bool
  cdr : Bool
  fec : Bool
  esmcValid : Bool
  esmcAt : DWord
  qlRx : BitVec 4
  essmRx : Byte
  /-- eEEC and EEC counts of the last enhanced SSM TLV received (R237). -/
  eeecRx : Byte
  eecRx : Byte
  /-- Last ESMC code sent: SSM and eSSM (R237). -/
  qlTx : BitVec 4
  essmTx : Byte
  qlFailed : Bool
  txq : List TxqEntry
  txqLoss : Bool
  /-- meanLinkDelay [2^-16 ns] and neighborRateRatio − 1 [2^-48] (R242, R244). -/
  mld : Option Int
  nrr : Int
  pdSeq : BitVec 16
  pdT1 : Option Int
  /-- Phase rotator: fractional frequency applied to the transmit lane (R236). -/
  rotN : Int
  /-- The neighbour's oneStepReceive, as the steward last wrote it (R26, R239). -/
  oneStepRx : Bool
  r : Reist
  deriving DecidableEq, Repr

/-- A PTP session of a port (R240 to R243, R247). -/
structure Sess where
  port : Fin 16
  id : BitVec 9
  /-- The steward has selected it as parent, and it announces itself; its grant stands; as master, our own grants of Sync,
  Announce and Delay_Resp stand (R243). -/
  active : Bool
  granted : Bool
  srvSync : Bool
  srvAnnounce : Bool
  srvDelayResp : Bool
  cls : Byte
  /-- A two-step Sync waiting for its Follow_Up: sequence, t2 [2^-16 ns], correction, ptpTimescale (R242). -/
  pendSync : Option (BitVec 16 × Int × Int × Bool)
  /-- A Delay_Req waiting for its Delay_Resp: sequence, t3 [2^-16 ns]. -/
  pendReq : Option (BitVec 16 × Int)
  reqSeq : BitVec 16
  bench : Option (BitVec 256 × Word)
  deriving DecidableEq, Repr

/-- A packet-derived stream (R242, R263). -/
structure Stream where
  open_ : Bool
  dfs : List Int
  drs : List Int
  /-- Sync messages, or exchange instants, of the window so far. -/
  cnt : Nat
  /-- Least forward and reverse delay of the window that closed last (ALL, R242). -/
  lastD : Option (Int × Int)
  /-- Samples of the window so far, with PE_SAT (R48, R262, R263). -/
  xs : List (Int × Bool)
  label : Option (Int × Int)
  /-- STREAM word in force for the window (R242). -/
  word : Word
  deriving DecidableEq, Repr

/-- An 802.1AS Sync received for relay (R244): ingress port, stamp and correction [2^-16 ns], preciseOriginTimestamp, rate
offset out [2^-41]. -/
structure Relay where
  port : Fin 16
  tIn : Int
  cf : Int
  origin : Stamp
  rho : Int
  deriving DecidableEq, Repr

/-- PTP state of a port in an instance, as the steward decides it (R26, R238). -/
inductive PtpState where
  | listening
  | master
  | slave
  deriving DecidableEq, Repr

/-- What the steward's datasets of an instance hold and an Announce carries (R26, R238, R240; the members are those of
IEEE 1588, log 149): clockClass; timePropertiesDS: the UTC offset, leap61, leap59, currentUtcOffsetValid and ptpTimescale,
timeSource; priorities, accuracy and variance, identity of the grandmaster, stepsRemoved; the path of PATH_TRACE. -/
structure PtpData where
  cls : Byte
  utcOffset : BitVec 16
  leap61 : Bool
  leap59 : Bool
  utcValid : Bool
  ptpTimescale : Bool
  timeSource : Byte
  priority1 : Byte
  accuracy : Byte
  variance : BitVec 16
  priority2 : Byte
  gmId : BitVec 64
  steps : BitVec 16
  path : List (BitVec 64)
  deriving DecidableEq, Repr

/-- A PTP instance (R238): sequence numbers of what it sends, the Sync it relays (R244); of what the steward wrote last, the
port states and the datasets (R26, R27). -/
structure Inst where
  syncSeq : BitVec 16
  annSeq : BitVec 16
  relay : Option Relay
  states : Vector PtpState 16
  data : PtpData
  deriving DecidableEq, Repr

/-- Run states of an engine (R293). -/
inductive Run where
  | idle
  | running
  | waiting
  | halted
  | fault
  deriving DecidableEq, Repr

/-- What an engine waits for (R281, R307). A wait for a datum time holds, once the clock has reached the target, the L
that it resumes with: whether a step carried the clock past it. A wait for events holds, once one that it enables has held at a tick,
those that did. -/
inductive Wait where
  | time (d : Fin 8) (sec : Nat) (v : Nat) (met : Option Bool)
  | tick (k : DWord)
  | event (rd : Fin 32) (mask : DWord) (timeout : DWord) (issue : DWord) (commits : Word) (met : BitVec 5)
  deriving DecidableEq, Repr

/-- A converted stamp in an engine's stamp FIFO (R282, R308). -/
structure EStamp where
  t : Stamp
  desc : BitVec 27
  deriving DecidableEq, Repr

/-- An engine (R275 to R293). -/
structure Engine where
  run : Run
  cpu : Cpu
  forced : Bool
  cause : Byte
  pcReg : Nat
  wait : Option Wait
  fifo : List EStamp
  gap : Bool
  pushq : List Int
  /-- Tick from which the watchdog counts (R291, R307). -/
  wdogFrom : DWord
  /-- Tick from which SWAP_TMO counts (R289). -/
  armedAt : DWord
  prog : Prog
  deriving DecidableEq, Repr

/-- The answer of the last access on a path. -/
inductive Resp where
  | none
  | ok
  | data (w : Word)
  | bytes (bs : List Byte) (poisoned : Bool)
  | ca
  | ur
  | nack
  deriving DecidableEq, Repr

/-- What each register path holds (R326, R328, R329, R412). -/
structure PathSt where
  indAddr : Word
  indBusy : Option (Word × Word)
  overrun : Bool
  noreg : Bool
  off : Bool
  snapView : Bool
  readHold : RegMap
  writeHold : RegMap
  resp : Resp
  deriving DecidableEq, Repr

/-- A PCIe function's configuration as far as the block acts on it (R317, R320). -/
structure Func where
  busMaster : Bool
  msixEn : Bool
  /-- The MSI-X Function Mask, the vector masks and the pending bit array (R318, R320). -/
  funcMask : Bool
  mask : Word
  pba : Word
  /-- Message address and data of each vector of the MSI-X table (R318). -/
  addr : Vector DWord 32
  data : Vector Word 32
  /-- Addresses in BAR0 and BAR2 (R317). -/
  bar0 : DWord
  bar2 : DWord
  deriving DecidableEq, Repr

/-- A mailbox (R335). -/
structure Mbox where
  slots : List (List Byte)
  stage : Vector Word 16
  seq : BitVec 16
  deriving DecidableEq, Repr

/-- The side-band target (R331 to R334). -/
structure SideBand where
  pointer : Word
  lastErr : BitVec 4
  /-- The alert line was released by an Alert Response and waits for the next event (R334). -/
  answered : Bool
  /-- The PEC that the device appended to the last read answered, none where the master took none (R331). -/
  pecOut : Option Byte
  deriving DecidableEq, Repr

/-- States of a module-bus port (R351). -/
inductive PState where
  | off
  | idle
  | busy
  | traverse
  | recovering
  | isolated
  deriving DecidableEq, Repr

/-- A traverse in progress (R346 to R348). -/
structure Trav where
  floor : BitVec 64
  retried : Bool
  attachSeen : Bool
  found : List (BitVec 64)
  /-- Identities entered anew in this traverse (R348). -/
  fresh : List (BitVec 64)
  deriving DecidableEq, Repr

/-- A module-bus port (R340 to R352). -/
structure MbPort where
  pstate : PState
  line : Bool
  pwren : Bool
  pulses : Nat
  /-- Frames that have lost and are retried, with their losses in a row (R344, R345). -/
  arb : List (List Byte × Nat)
  trav : Option Trav
  travAgain : Bool
  /-- A traverse ended by a second failure of R342: a new one starts 1 s later (R347). -/
  travOwed : Bool
  /-- SPEED as of the last WAKE: true = FAST (R351). -/
  fast : Bool
  /-- Ticks of the end of the last traverse (R346), of the rise of a line that was stuck, and of the last step of the recovery
  (R349); none where the standby island, whose time the tick index does not count, has run the time (log 150). -/
  travEnd : Option DWord
  riseAt : Option DWord
  recAt : Option DWord
  deriving DecidableEq, Repr

/-- A gazetteer entry (R350). -/
structure Gaz where
  valid : Bool
  port : Bool
  state : BitVec 2
  ident : BitVec 64
  misses : Nat
  /-- Path delays of an optical switch [2^-16 ns] (R350, R264), and whether a read of them is owed: at entry and at each
  traverse. -/
  delays : Vector Int 4
  owed : Bool
  deriving DecidableEq, Repr

/-- A request through the XFER unit (R352). -/
structure Xfer where
  done : Bool
  result : BitVec 4
  cmd : Word
  deriving DecidableEq, Repr

/-- SRAM, its remap and its error state (R353 to R366). Addresses are physical: bank × 4 MiB + offset. -/
structure Memory where
  /-- Bytes, canonical: rising addresses, no entry equal to 0. -/
  cells : List Host.Cell
  /-- Bits in error in each 64-bit physical word: (word address, bits), no entry 0 (R355). -/
  flaws : List (Nat × Nat)
  remap : Vector (Fin 25) 24
  spareUsed : Bool
  spareBad : Bool
  spareFor : Fin 25
  /-- Bank whose writes go to the spare too: the cover of its self-test, or its retirement (R366, R377). -/
  mirror : Option (Fin 25)
  /-- The mirrored bank's retirement is decided: the copy runs (R366). -/
  retiring : Bool
  /-- BCH strength tags of pages that differ from 0b01: (physical page, tag) (R357, R360). -/
  tags : List (Nat × BitVec 2)
  /-- Correctable errors of each bank since the last CE_THRESH check (R364). -/
  ceAt : Vector Nat 25
  /-- The bank whose fault the self-test of MEM concerns (R364, R366). -/
  testBank : Option (Fin 25)
  /-- Further banks whose self-tests wait, oldest first (R364). -/
  bankWait : List (Fin 25)
  deriving DecidableEq, Repr

/-- A device action recorded in the archive log (R30, R131, R205, R289, R379, R385, R386, R388, R401). -/
inductive LogEntry where
  | swap (target : ProgPort)
  | plan
  | modelClear
  | dly (port : Fin 16)
  | retire (block : Fin 128)
  | service (block : Fin 128)
  | retireBank (bank : Fin 25)
  | digest (dseq : Word) (dg : BitVec 256)
  | repair (key : Nat)
  | keeper (off : Nat)
  | archive (item : Fin 6)
  | mode (m : BitVec 2)
  | slot (n : Bool)
  deriving DecidableEq, Repr

/-- The archive's counters (R368): core resets by RCAUSE 0 to 3, power-on hours, retirements, verification failures. -/
structure ArcCounters where
  resets : Vector Nat 4
  hours : Nat
  retirements : Nat
  failures : Nat
  deriving DecidableEq, Repr

/-- The archive (R366 to R374). -/
structure Archive where
  /-- Bytes below 0x10_0000 outside the log, canonical: rising, no entry equal to 0. -/
  cells : List Host.Cell
  /-- Log records written, newest first, and LOG_WR (R368, R433). -/
  log : List LogEntry
  logWr : Nat
  counters : ArcCounters
  /-- The oven model as last written to the archive (R131). -/
  ovenA : Int
  ovenKt : Int
  ovenValid : Bool
  /-- Words of 64 bits in which an error was found that cannot be corrected (R367, R374), by index. -/
  bad : List Nat
  deriving DecidableEq, Repr

/-- State of a fault block (R382). -/
inductive BlkSt where
  | inService
  | testing
  | retired
  deriving DecidableEq, Repr

/-- A fault block (R377 to R382). -/
structure Blk where
  st : BlkSt
  outcome : BitVec 2
  cause : BitVec 4
  /-- Ticks of the faults of the last 24 h, newest first, each with whether a passed self-test followed (R379). -/
  recent : List (DWord × Bool)
  /-- The test was started by UNRETIRE (R379). -/
  unret : Bool
  /-- A survey group's faulted copy of its shared stages is retired (R378, R379). -/
  shared : Bool
  deriving DecidableEq, Repr

/-- The fault manager (R375 to R382). -/
structure FaultMgr where
  blks : Vector Blk 128
  waiting : List (Fin 128 × BitVec 4)
  deriving DecidableEq, Repr

/-- The part of the start sheet that is set-up, not records (R396). -/
structure SheetSetup where
  valid : Bool
  copyB : Bool
  oscIn : BitVec 2
  ovenPol : Bool
  signReq : Bool
  lanes : Bool
  svRails : BitVec 24
  bankRails : BitVec 24
  modelLoop : Byte
  seq : Word
  deriving DecidableEq, Repr

/-- Device modes (R400, R402). -/
inductive Mode where
  | boot
  | test
  | service
  | recovery
  deriving DecidableEq, Repr

/-- The 16 s gate of the settle detector (R70): its start, the event that opened it and the witness's NOM_FREQ then, events
since, and the event that closed it with the events counted. Events as oven instant [2^-32/25 ns] and packet sample. -/
structure SettleGate where
  start : DWord
  first : Option (Int × Int × Nat)
  n : Nat
  last : Option (Int × Int × Nat)
  deriving DecidableEq, Repr

/-- Oven, OSC_IN and temperature (R12, R13, R70, R71, R131, R132). -/
structure Oven where
  /-- OVEN_WARM ball level and the debounced active level (R70). -/
  pin : Bool
  debounced : Bool
  /-- Tick from which the 10 ms debounce of a change runs; none where the standby island, whose time the tick index does not
  count, has run it (R70). -/
  pinAt : Option DWord
  settled : Bool
  /-- WARM has read 1 since the later of reset release and the last OVEN_COLD (R71). -/
  everWarm : Bool
  /-- Tick from which SETTLE_TMO counts (R70). -/
  tmoFrom : DWord
  count : Nat
  prev : Option Int
  spoiled : Bool
  gate : SettleGate
  oscLost : Bool
  stbyRc : Bool
  lostAt : DWord
  /-- SYNB pulls in after oven loss (R13). -/
  pullIn : Bool
  modelA : Int
  modelKt : Int
  modelValid : Bool
  /-- Blocks of 1,024 qualifying seconds of the model loop, newest first, at most 256: mean f, T (R131). -/
  blocks : List (Int × Int)
  /-- Blocks complete and not yet taken, oldest first: mean f, T (R131). -/
  blockDone : List (Int × Int)
  blockN : Nat
  blockF : Int
  blockT : Int
  newBlocks : Nat
  /-- T in force [2^-8 °C], from a module (R131, R410). -/
  temp : Int
  tempModule : Bool
  tempAt : DWord
  tempLost : Bool
  /-- Tick of the last 1 s read of the module, none as above (R350, log 150); a lost TEMP read, or the STATUS read that follows
  a TEMP read, is still to come (R344). -/
  readAt : Option DWord
  tempOwed : Bool
  statusOwed : Bool
  deriving DecidableEq, Repr

/-- Start-up and modes (R389 to R405). -/
structure Boot where
  mode : Mode
  sheetDone : Bool
  fwSlot : Bool
  fwHost : Bool
  rcause : BitVec 4
  recovWhy : BitVec 4
  /-- The steward's firmware runs (R28, R398). -/
  stewardUp : Bool
  /-- Firmware has been accepted since the core left reset (R398, R399). -/
  fwOk : Bool
  /-- The tick at which the steward restarts after a FW_SWAP (R388). -/
  fwRestart : Option DWord
  /-- The digest of the active firmware image as the benchmark covers it, with the fault manager's shadow of it and of the start
  sheet's sequence number (R384, R386). -/
  fwDigest : BitVec 256
  fwShadow : BitVec 256
  seqShadow : Word
  /-- Both QSPI slots failed or BOOT_HOST: firmware awaited from the host (R399). -/
  awaitHost : Bool
  /-- Tick from which the 10 s of R399 count. -/
  awaitAt : DWord
  straps : Straps
  sheet : SheetSetup
  /-- A copy of the start sheet, or none, has been selected since the core went into reset (R370, R402). -/
  chosen : Bool
  /-- Tick of the first RESET_CORE write (R403). -/
  resetArm : Option DWord
  /-- A change into SERVICE waits for the snapshot in progress (R401). -/
  serviceWait : Bool
  /-- The next record of the start sheet: its byte in the copy, and the tick before which a WAIT holds it (R396). -/
  sheetPos : Nat
  sheetFrom : DWord
  deriving DecidableEq, Repr

/-- The snapshot (R327). -/
structure Snapshot where
  done : Bool
  modeRej : Bool
  rejects : Nat
  tick : DWord
  /-- Ticks that the copy takes, a free value of at most 2 µs (R327). -/
  hold : Nat
  regs : RegMap
  rc : RegMap
  units : Vector StatUnit 32
  deriving DecidableEq, Repr

/-- A PTP or link message sent by a port (R237, R244 to R247, R249). -/
inductive TxMsg where
  | sync (seq : BitVec 16) (oneStep : Bool) (origin : Stamp) (cf rate : Int)
  | followUp (seq : BitVec 16) (precise : Stamp) (cf : Int) (rate : Int)
  | delayReq (seq : BitVec 16)
  | delayResp (seq : BitVec 16) (recv : Stamp) (cf : Int)
  | pdelayReq (seq : BitVec 16)
  | pdelayResp (seq : BitVec 16) (recv : Stamp) (cf : Int)
  | pdelayRespFollowUp (seq : BitVec 16) (origin : Stamp) (cf : Int)
  /-- `data`: the steward's datasets, with the PATH_TRACE TLV's path (R238, R240); `bench`: the benchmark TLV after its type
  and length (R247). -/
  | announce (seq : BitVec 16) (cls : Byte) (timeTr freqTr : Bool) (data : PtpData) (bench : Option (List Byte))
  | esmc (event : Bool) (ssm : BitVec 4) (essm : Option Essm)
  | reist (frame : List Byte)
  deriving DecidableEq, Repr

/-- What carries a PTP message (R239, R244): Annex C with its UDP checksum, Annex D with its checksum-compensation trailer,
Annex E with its destination address. -/
inductive Carrier where
  | annexC (checksum : BitVec 16)
  | annexD (trailer : BitVec 16)
  | annexE (dst : BitVec 48)
  deriving DecidableEq, Repr

/-- What the block sends out of itself. -/
inductive Emission where
  | msi (f : Fin 2) (v : Fin 32) (addr : DWord) (data : Word)
  | hostWrite (f : Bool) (addr : Nat) (bytes : List Byte)
  | drive (ch : Fin 192) (d : Drive) (k : DWord) (fine : Nat)
  /-- The first rising edge of an output (R212, R214, R225): the edges follow at base + m / f for m from `first` on, base [2^-26 ns] on the
  tally as it stood at the last lock sequence, f = num / den Hz; none where the running divider has no grid (R218). -/
  | output (o : Fin 48) (grid : Option (Int × Int × Nat × Nat))
  /-- A UART frame on a ball, or the part of it that a hand-over left (R180, R181): tick of the start bit, bit time in
  ticks, line levels before INV. -/
  | uart (ch : Fin 192) (k : DWord) (baud : Nat) (bits : List Bool)
  | port (n : Fin 16) (m : TxMsg)
  | ptp (n : Fin 16) (c : Carrier) (m : TxMsg)
  | mb (p : Fin 2) (frame : List Byte)
  /-- The windows of a TRAVERSE pass that this device drives as a PEER target (R347): ANSWER low, its IDENT windows (true =
  low), RESIDUE low where it has dropped out. -/
  | mbTarget (p : Fin 2) (ident : List Bool) (residue : Bool)
  /-- A frame that lost arbitration: this controller drove its first `bits` bits (R344). -/
  | mbPart (p : Fin 2) (frame : List Byte) (bits : Nat)
  /-- The QSPI flash is read from this byte on: opcode, 4-byte address (R398, R455). -/
  | qspi (cmd : Byte) (addr : Word)
  | alertResponse (addr : BitVec 7)
  deriving DecidableEq, Repr

/-- The state of the FZ-4192. -/
structure State where
  /-- Commands waiting, first in first out. -/
  pending : List Instr
  /-- The core is out of reset (R393); the tick runs (R14). -/
  coreUp : Bool
  ticking : Bool
  /-- The tick index (R14), and the copy each island holds: SVG0–11, DATA, DATB, ENGA, ENGB. -/
  tick : DWord
  islandTick : Vector DWord 16
  /-- Register words: RW, RWK and WP fields, and RO words the device writes (R406 to R436). -/
  regs : RegMap
  /-- Read-clear words, four copies: key × 4 + view (R325). -/
  rc : RegMap
  /-- The fault manager's shadow of the covered words (R386). -/
  shadow : RegMap
  paths : Vector PathSt 12
  snap : Snapshot
  /-- Steering words in crossings, oldest first (R16, R18). -/
  xwords : List XWord
  datums : Vector Datum 8
  loops : Vector Loop 16
  slots : Vector Slot 96
  chans : Vector Chan 192
  groups : Vector Group 12
  units : Vector StatUnit 32
  book : Book
  notices : Notices
  syns : Vector Syn 9
  /-- Bank source in use (R229), hand-over in progress, drivers held off by a supply mismatch (R224). -/
  bankSrc : Vector (Option (Fin 8)) 12
  bankHand : Vector (Option BankHand) 12
  bankHeld : Vector Bool 12
  outs : Vector OutSt 48
  /-- The tick from which a waiting output looks for its first grid instant (R212, R225). -/
  outFrom : Vector DWord 48
  lines : Vector Line 4
  plan : Prog
  /-- An accepted plan sheet's words wait to take effect (R205). -/
  planDue : Option (List Word)
  ports : Vector Port 16
  sessions : List Sess
  streams : Vector Stream 32
  insts : Vector Inst 8
  engines : Vector Engine 8
  sems : Vector (Option (Fin 8)) 64
  funcs : Vector Func 2
  linkUp : Bool
  linkSpeed : BitVec 3
  linkWidth : BitVec 4
  mboxes : Vector Mbox 16
  dbIn : Word
  dbOut : Word
  sideband : SideBand
  mbs : Vector MbPort 2
  gaz : Vector Gaz 64
  /-- The benchmark digest and DSEQ as the standby island mirrors them for the PEER registers (R350). -/
  peerMir : BitVec 256 × Word
  /-- A benchmark scan is running: STATUS.SCANNING (R385, R415). -/
  scanning : Bool
  /-- DATA and DATB: the island has had a fault and waits for the reload of its clocks (R380, R381). -/
  reloadDue : Vector Bool 2
  xfer : Xfer
  mem : Memory
  arch : Archive
  fm : FaultMgr
  /-- MATCH of the benchmark (R387, R415). -/
  benchMatch : Bool
  /-- STEWARD load figures (R383). -/
  stewLoad : Nat
  shedLevel : BitVec 2
  /-- The last window exceeded SHED_HI; windows at or below SHED_LO in a row (R383). -/
  shedHot : Bool
  shedRun : Nat
  oven : Oven
  boot : Boot
  /-- Power domains that are powered and released (R391), and those powering up (R390). -/
  domOn : Vector Bool 108
  domRising : Vector Bool 108
  /-- The cartouche's CRC is valid (R371). -/
  cartOk : Bool
  /-- What the block has sent out, newest first (the model's own record of its outputs). -/
  emitted : List Emission
  /-- Counter of free values (the model's own). -/
  freeCtr : Nat
  deriving DecidableEq, Repr

/-! ## The state after reset (R404): the instant of reset release at the first power-up, t = 0 of R405. Values no rule
states are named in notes/assumptions. -/

def Tm.zero : Tm := ⟨0, 0, 0⟩

/-- NOM, 1.28 ns in Q8.56 (R39). -/
def nomInc : DWord := 0x0147AE147AE147AE

/-- A clock at 0 s running at NOM (R87, R140). -/
def Clock.reset : Clock := ⟨Tm.zero, nomInc, 0, [⟨0, Tm.zero, nomInc, 0, false⟩]⟩

/-- A datum clock at reset: q is that of the reset BSLEW, 1 ppm (R128). -/
def Datum.reset : Datum where
  clk := Clock.reset
  mirs := Vector.replicate 2 Clock.reset
  rem := 0
  q := 92233751593
  bslew := 0x0010C6F8
  bslewDue := none
  incDue := none
  stepDue := []
  slewStep := 0
  slewDue := []
  setDue := none
  heldSteps := []
  heldSets := []
  lastStep := none
  lastMove := none
  lastPre := none
  assigned := none
  set := false
  traceable := false
  labelSrc := 0xFF
  leapAt := none

/-- CW at its reset value: SATA 1 (R278). -/
def cwReset : Word := 0x20000000

def Cpu.reset : Cpu := ⟨Vector.replicate 32 0, Vector.replicate 4 0, 0, cwReset, 0, []⟩

def Prog.reset : Prog := ⟨.idle, false, false, none, none, 0, 0, false, false, 0, 0⟩

def Slot.reset : Slot where
  qstate := .off
  cause := 0
  los := false
  act := false
  freq := false
  phase := false
  losCause := false
  everQual := false
  wtrAt := none
  stale := false
  vttlFrom := 0
  lastTr := 0
  last := none
  lastRaw := 0
  goodActs := 0
  gate := none
  gateN := 0
  gateCfg := ⟨0, 0, 0, 0, 0, 0⟩
  gateEnd := none
  goodGates := 0
  freqInvalid := true
  freqVal := 0
  phAnchor := none
  phIdx := 0
  phN := 0
  phSum := 0
  phIdxSum := 0
  phCfg := ⟨0, 0, 0, 0, 0⟩
  phDone := none
  phHist := []
  phSetAt := none
  fwmState := false
  pwmState := false
  order := 0xF
  essmMismatch := false
  dc := 0
  dcPend := false
  preDiv := 0
  inbox := []
  labelWait := []
  lastEv := []
  labelQ := []
  labelHist := Vector.replicate 16 []

def Est.reset : Est := ⟨0, 0, 0, 0, 0, 0⟩

def SecAcc.reset : SecAcc := ⟨0, 0, true, false⟩

/-- The reset parameters of R108 and R138. -/
def LoopPar.reset : LoopPar where
  pull := 0x00C9539C
  slope := 0
  lockPh := 0x00640000
  unlockPh := 0x03E80000
  lockCnt := 0x10
  unlockCnt := 4
  acqTmo := 0
  hoWin := 10
  hoMin := 60
  modelEn := true
  hoTmo := 0x15180
  hoTeLimit := 0x5DC
  twinTol := 0x028F5C29

def Loop.reset : Loop where
  code := .freeRun
  sel := none
  clampPull := false
  clampSlope := false
  unwarmed := true
  tally := Clock.reset
  incDue := none
  rates := Clock.reset.segs
  takeD := false
  takeS := false
  instTick := none
  instLo := 0
  instHi := 0
  instLast := false
  x := 0
  flagsW := 0
  out := none
  fp := 0
  f := 0
  cpu := Cpu.reset
  evs := []
  shadow := []
  pbo := 0
  newSrc := false
  lockRun := 0
  unlockRun := 0
  acqAt := 0
  acqHold := false
  fa := 0
  acqFirst := false
  bars := 0
  heldFault := false
  holdoffAt := none
  evalDue := none
  sw := none
  candHeld := []
  selWord := 0x30080000
  par := LoopPar.reset
  est := Est.reset
  ckpt := Est.reset
  ckptAt := none
  secAcc := SecAcc.reset
  secReady := none
  hoFh := 0
  hoAt := 0
  hoTau := 0
  fho := 0
  role := .solo
  closedEn := false
  enAfter := false
  wasStandby := false
  tolRun := 0
  tallyDiff := 0
  mirrorDue := false
  swapDeferred := false
  handNote := false
  prog := Prog.reset

def stampZero : Stamp := ⟨0, 0, 0⟩

def Chan.reset : Chan where
  fifo := []
  crowd := false
  gap := false
  lastFire := none
  lastEdge := none
  level := false
  drv := .off
  hand := none
  cfgWait := none
  ivStart := none
  perOpen := none
  perN := 0
  perGate := 1
  rx := []
  rxCur := none
  tx := []
  txCur := none
  txStalled := false
  parser := []
  sLast := none
  trails := []
  todDue := []
  todSeq := 0
  todLast := 0
  lastDrive := none

def TdcCore.reset : TdcCore := ⟨none, 0, 4095, 0, false⟩

def Group.reset : Group where
  cores := Vector.replicate 17 TdcCore.reset
  coreOf := Vector.ofFn (fun i => Fin.castLE (by decide) i)
  relief := 16
  noRelief := false
  faultCore := none
  reliefLostAt := 0
  frozen := false
  skews := []
  rot := .idle
  rotAt := none
  rotParams := (0xD00003E8, 0x04002710, 0x10)
  newTab := ([], 0, 0)
  invalids := 0
  ovlAt := 0
  ovlEdges := 0
  recover := none
  rr := 0
  xa := []
  xb := []
  supplyHeld := false
  supplyBack := false
  acts := Vector.replicate 4 []
  fired := Vector.replicate 4 none

def Acc.reset : Acc := ⟨0, 0, 0, 0, 0, false, false, false, false⟩

def StatUnit.reset : StatUnit where
  acc := Acc.reset
  inq := []
  stage := []
  timeAt := 0
  res := Acc.reset
  mean := 0
  dev := 0
  rflags := 0
  seq := 0
  closeTick := 0

def Book.reset : Book := ⟨[], [], 0, 0, 0, 0, false⟩

def Notices.reset : Notices := ⟨[], 0, false, false, 0, 0, 0, 0, stampZero, false⟩

def Syn.reset : Syn where
  phase := .off
  seqOn := false
  onGrid := false
  refPath := 0
  band := 0
  searchFail := 0
  failRow := 0
  n0 := 0
  nfb := 0
  n := 0
  heldN := none
  assigned := none
  contour := false
  cseg := 0
  cstep := 0
  c := 0
  contourWait := false
  cAt := 0
  prof := []
  lolAt := 0
  anchor := 0
  gridOff := 0

def Line.reset : Line := ⟨0, false, 0, 0, none⟩

def Reist.reset : Reist where
  lstate := .down
  seq := 0
  rxSeq := 0
  trainN := 0
  txN := 0
  ackSeen := false
  linkSame := false
  crcRun := 0
  rlink := 0x0B4800FF
  lseq := 0
  legSent := []
  part0 := none
  part1 := none
  legSeq := none
  legAcked := false
  partner := none
  peerBench := (0, 0)
  peerId := 0
  peerPort := 0
  pxSeq := 0
  pxInst := 0
  pxSent := 0
  sent := []
  echo := none
  pairs := []
  rho := 0
  rdelay := 0
  ver := []
  verifyFails := 0
  retrainAt := none
  asymSurv := 0
  asymSurvOk := false
  mismatch := false
  reversed := false
  surveying := false
  svPhase := 0
  svId := 0
  svLog2 := 0
  svSum := Vector.replicate 4 0
  svN := Vector.replicate 4 0
  svInst := 0
  cmdWait := false
  posSent := false
  swapAt := 0
  reqOut := none
  survAt := 0
  streamsWait := false
  lastOrder := 0xF

def Port.reset : Port where
  link := false
  cdr := false
  fec := false
  esmcValid := false
  esmcAt := 0
  qlRx := 0xF
  essmRx := 0xFF
  eeecRx := 0
  eecRx := 0
  qlTx := 0xF
  essmTx := 0xFF
  qlFailed := false
  txq := []
  txqLoss := false
  mld := none
  nrr := 0
  pdSeq := 0
  pdT1 := none
  rotN := 0
  oneStepRx := false
  r := Reist.reset

def Stream.reset : Stream := ⟨false, [], [], 0, none, [], none, 0x00009080⟩

/-- Datasets no steward has written: clockClass 248, the rest 0 (log 126, log 149). -/
def PtpData.reset : PtpData := ⟨248, 0, false, false, false, false, 0, 0, 0, 0, 0, 0, 0, []⟩

/-- No port state, no dataset written (log 126). -/
def Inst.reset : Inst := ⟨0, 0, none, Vector.replicate 16 .listening, PtpData.reset⟩

def Engine.reset : Engine where
  run := .idle
  cpu := Cpu.reset
  forced := false
  cause := 0
  pcReg := 0
  wait := none
  fifo := []
  gap := false
  pushq := []
  wdogFrom := 0
  armedAt := 0
  prog := Prog.reset

def PathSt.reset : PathSt := ⟨0, none, false, false, false, false, [], [], .none⟩

def Func.reset : Func := ⟨false, false, false, 0xFFFFFFFF, 0, Vector.replicate 32 0, Vector.replicate 32 0, 0, 0⟩

def Mbox.reset : Mbox := ⟨[], Vector.replicate 16 0, 0⟩

def SideBand.reset : SideBand := ⟨0, 0, false, none⟩

/-- A port after a standby reset: EN 1, a traverse started (R346, R404). -/
def MbPort.reset : MbPort := ⟨.traverse, true, true, 0, [], some ⟨0, false, false, [], []⟩, false, false, false, none, none, none⟩

/-- A module-bus port over a core reset: its times are no more those of the tick index (R24, log 150). -/
def MbPort.unclocked (q : MbPort) : MbPort :=
  { q with travEnd := none, riseAt := none, recAt := none }

def Gaz.reset : Gaz := ⟨false, false, 0, 0, 0, Vector.replicate 4 0, false⟩

def Xfer.reset : Xfer := ⟨true, 0, 0⟩

def Memory.reset : Memory where
  cells := []
  flaws := []
  remap := Vector.ofFn (fun i => Fin.castLE (by decide) i)
  spareUsed := false
  spareBad := false
  spareFor := 0
  mirror := none
  retiring := false
  tags := []
  ceAt := Vector.replicate 25 0
  testBank := none
  bankWait := []

def ArcCounters.reset : ArcCounters := ⟨Vector.replicate 4 0, 0, 0, 0⟩

def Archive.reset : Archive := ⟨[], [], 0, ArcCounters.reset, 0, 0, false, []⟩

def Blk.reset : Blk := ⟨.inService, 0, 0, [], false, false⟩

def FaultMgr.reset : FaultMgr := ⟨Vector.replicate 128 Blk.reset, []⟩

/-- No valid start-sheet copy: OSC_SEL decides, every rail at its highest listed voltage, LANES 1 (R397). -/
def SheetSetup.none (osc : BitVec 2) : SheetSetup where
  valid := false
  copyB := false
  oscIn := osc
  ovenPol := false
  signReq := false
  lanes := true
  svRails := 0xAAAAAA
  bankRails := 0xAAAAAA
  modelLoop := 0xFF
  seq := 0

def Oven.reset : Oven where
  pin := false
  debounced := false
  pinAt := .none
  settled := false
  everWarm := false
  tmoFrom := 0
  count := 0
  prev := .none
  spoiled := false
  gate := ⟨0, .none, 0, .none⟩
  oscLost := false
  stbyRc := false
  lostAt := 0
  pullIn := false
  modelA := 0
  modelKt := 0
  modelValid := false
  blocks := []
  blockDone := []
  blockN := 0
  blockF := 0
  blockT := 0
  newBlocks := 0
  temp := 0
  tempModule := false
  tempAt := 0
  tempLost := false
  readAt := .none
  tempOwed := false
  statusOwed := false

/-- Straps all 0 but RECOV_N, which is inactive high. -/
def Straps.reset : Straps := ⟨false, true, 0, false, 0⟩

def Boot.reset (st : Straps) : Boot where
  mode := .boot
  sheetDone := false
  fwSlot := false
  fwHost := false
  rcause := 0
  recovWhy := 0
  stewardUp := false
  fwRestart := .none
  fwDigest := 0
  fwShadow := 0
  seqShadow := 0
  fwOk := false
  awaitHost := false
  awaitAt := 0
  straps := st
  sheet := SheetSetup.none st.oscSel
  chosen := false
  resetArm := .none
  serviceWait := false
  sheetPos := 20
  sheetFrom := 0

def Snapshot.reset : Snapshot := ⟨false, false, 0, 0, 0, [], [], Vector.replicate 32 StatUnit.reset⟩

/-- Domains on after reset release: DOM_REQ0–3 (R391). -/
def domReset (i : Nat) : Bool :=
  (0xC03FFFFF + 0x007FFFFF * 2 ^ 32 + 0xFFF80000 * 2 ^ 64 + 0xFFF * 2 ^ 96 : Nat).testBit i

def State.reset : State where
  pending := []
  coreUp := true
  ticking := false
  tick := 0
  islandTick := Vector.replicate 16 0
  regs := []
  rc := []
  shadow := []
  paths := Vector.replicate 12 PathSt.reset
  snap := Snapshot.reset
  xwords := []
  datums := Vector.replicate 8 Datum.reset
  loops := Vector.replicate 16 Loop.reset
  slots := Vector.replicate 96 Slot.reset
  chans := Vector.replicate 192 Chan.reset
  groups := Vector.replicate 12 Group.reset
  units := Vector.replicate 32 StatUnit.reset
  book := Book.reset
  notices := Notices.reset
  syns := (Vector.replicate 9 Syn.reset).set 8 { Syn.reset with phase := .locking, seqOn := true, refPath := 1, n0 := 0x0271000000000000, nfb := 0x0271000000000000 }
  bankSrc := Vector.replicate 12 none
  bankHand := Vector.replicate 12 none
  bankHeld := Vector.replicate 12 false
  outs := Vector.replicate 48 .off
  outFrom := Vector.replicate 48 0
  lines := Vector.replicate 4 Line.reset
  plan := Prog.reset
  planDue := none
  ports := Vector.replicate 16 Port.reset
  sessions := []
  streams := Vector.replicate 32 Stream.reset
  insts := Vector.replicate 8 Inst.reset
  engines := Vector.replicate 8 Engine.reset
  sems := Vector.replicate 64 none
  funcs := Vector.replicate 2 Func.reset
  linkUp := false
  linkSpeed := 0
  linkWidth := 0
  mboxes := Vector.replicate 16 Mbox.reset
  dbIn := 0
  dbOut := 0
  sideband := SideBand.reset
  mbs := Vector.replicate 2 MbPort.reset
  gaz := Vector.replicate 64 Gaz.reset
  peerMir := (0, 0)
  scanning := false
  reloadDue := Vector.replicate 2 false
  xfer := Xfer.reset
  mem := Memory.reset
  arch := Archive.reset
  fm := FaultMgr.reset
  benchMatch := false
  stewLoad := 0
  shedLevel := 0
  shedHot := false
  shedRun := 0
  oven := Oven.reset
  boot := Boot.reset Straps.reset
  domOn := Vector.ofFn (fun i => domReset i.val)
  domRising := Vector.replicate 108 false
  cartOk := true
  emitted := []
  freeCtr := 0

/-- Faults. The spec gives every command of the table an effect on every state, so no meaning of this model raises one
(safe). -/
inductive Fault where
  | unused
  deriving DecidableEq, Repr

/-- Refusals. `notModelled` is raised by an arm of `exec` that has no meaning yet (safe). -/
inductive Refusal where
  | notModelled (mnemonic : String)
  deriving DecidableEq, Repr

end Sys2Proof.Machine
end

