-- ==== Sys2Proof/Machine/Ops.lean ====
section
/-! DEFINITION. Shared operations over the state: the sparse register file, counters, reader views, memory bytes, time
conversion, interrupts, notices and field book records. -/

namespace Sys2Proof.Machine

/-- The outcome of a command that does not move the tick: the queue stands, every island's tick index stands or, with
the core held in reset, reads 0 (R14), and the tick may stop (R380). -/
def done (s t : State) : Host.Outcome State Fault Refusal :=
  .next { t with
    pending := s.pending
    tick := if t.coreUp then s.tick else 0
    islandTick := if t.coreUp then s.islandTick else Vector.replicate 16 0
    ticking := s.ticking && t.ticking && t.coreUp }

/-- The same for a command that acts in the core only: nothing happens while the core is held in reset (R24, R393). -/
def doneCore (s : State) (f : State → State) : Host.Outcome State Fault Refusal :=
  done s (if s.coreUp then f s else s)

/-! Sparse maps in canonical form: keys strictly rising, no entry equal to what an unlisted key reads as. -/

/-- The value listed at a key. -/
def mapGet {α : Type} : List (Nat × α) → Nat → Option α
  | [], _ => none
  | (k, v) :: l, i => if k = i then some v else mapGet l i

/-- List a value at a key, keeping keys rising. -/
def mapPut {α : Type} : List (Nat × α) → Nat → α → List (Nat × α)
  | [], i, v => [(i, v)]
  | (k, w) :: l, i, v => if i < k then (i, v) :: (k, w) :: l else if i = k then (i, v) :: l else (k, w) :: mapPut l i v

/-- Unlist a key. -/
def mapDel {α : Type} (l : List (Nat × α)) (i : Nat) : List (Nat × α) :=
  l.filter (fun e => decide (e.1 ≠ i))

/-- Write: list the value, or unlist the key where it equals the default. -/
def mapSet {α : Type} [DecidableEq α] (l : List (Nat × α)) (i : Nat) (v dflt : α) : List (Nat × α) :=
  if v = dflt then mapDel l i else mapPut l i v

/-- The canonical form of a sparse map with default `dflt`. -/
def mapWf {α : Type} [DecidableEq α] (dflt : Nat → α) : List (Nat × α) → Bool
  | [] => true
  | (k, v) :: l => decide (v ≠ dflt k) && l.all (fun e => decide (k < e.1)) && mapWf dflt l

/-! Registers. -/

/-- The stored word of a register; an unlisted one reads its reset word (R404). -/
def State.reg (s : State) (k : Nat) : Word :=
  (mapGet s.regs k).getD (resetWord k)

/-- Covered bits of a key (R384). -/
def coverOf (k : Nat) : Word :=
  match placeOfKey k with
  | none => 0
  | some p => p.cover

/-- Store a register word; a covered one updates its shadow in the same cycle (R386). -/
def State.setReg (s : State) (k : Nat) (v : Word) : State :=
  { s with
    regs := mapSet s.regs k v (resetWord k)
    shadow := if coverOf k = 0 then s.shadow else mapSet s.shadow k v (resetWord k) }

/-- The register of a block by instance and offset. -/
def State.r (s : State) (b : Block) (inst off : Nat) : Word :=
  s.reg (key b inst off)

/-- A field of a register as a number. -/
def State.rf (s : State) (b : Block) (inst off hi lo : Nat) : Nat :=
  bitsOf (s.r b inst off) hi lo

/-- A bit of a register. -/
def State.rb (s : State) (b : Block) (inst off i : Nat) : Bool :=
  bitOf (s.r b inst off) i

/-- Store a register by block, instance and offset. -/
def State.wr (s : State) (b : Block) (inst off : Nat) (v : Word) : State :=
  s.setReg (key b inst off) v

/-- A value held in several words, most significant first (R407). -/
def State.wide (s : State) (b : Block) (inst off words : Nat) : Nat :=
  ofWords ((List.range words).map (fun i => s.r b inst (off + 4 * i)))

/-- Store a value in several words, most significant first. -/
def State.setWide (s : State) (b : Block) (inst off words v : Nat) : State :=
  ((List.range words).zip (wordsOf words v)).foldl (fun s p => s.wr b inst (off + 4 * p.1) p.2) s

/-- Replace a field of a register. -/
def State.setFld (s : State) (b : Block) (inst off hi lo v : Nat) : State :=
  s.wr b inst off (mix (fld (2 ^ (hi + 1 - lo) - 1) lo) (s.r b inst off) (fld (v % 2 ^ (hi + 1 - lo)) lo))

/-- Add to a saturating count held in bits hi:lo of a register. -/
def State.count (s : State) (b : Block) (inst off hi lo : Nat) (n : Nat := 1) : State :=
  s.setFld b inst off hi lo (satAdd (hi + 1 - lo) (s.rf b inst off hi lo) n)

/-! Read-clear fields: views 0, 1, 2 and the live copy 3 (R325). -/

/-- Key of one copy of an RC word. -/
def rcKey (k view : Nat) : Nat :=
  4 * k + view

/-- The RC word of a register in one copy. -/
def State.rcWord (s : State) (k view : Nat) : Word :=
  (mapGet s.rc (rcKey k view)).getD 0

/-- Change every copy of an RC word. -/
def State.rcAll (s : State) (k : Nat) (f : Word → Word) : State :=
  { s with rc := [0, 1, 2, 3].foldl (fun m v => mapSet m (rcKey k v) (f ((mapGet m (rcKey k v)).getD 0)) 0) s.rc }

/-- An event sets RC bits in every copy. -/
def State.rcSet (s : State) (b : Block) (inst off : Nat) (mask : Word) : State :=
  s.rcAll (key b inst off) (· ||| mask)

/-- An event counts in every copy, saturating, in bits hi:lo. -/
def State.rcCount (s : State) (b : Block) (inst off hi lo : Nat) (n : Nat := 1) : State :=
  s.rcAll (key b inst off) (fun w =>
    mix (fld (2 ^ (hi + 1 - lo) - 1) lo) w (fld (satAdd (hi + 1 - lo) (bitsOf w hi lo) n) lo))

/-- Clear bits of one copy (a read through a view clears it). -/
def State.rcClear (s : State) (k view : Nat) (mask : Word) : State :=
  { s with rc := mapSet s.rc (rcKey k view) ((s.rcWord k view) &&& ~~~mask) 0 }

/-- Live value of a field of an RC word. -/
def State.rcLive (s : State) (b : Block) (inst off hi lo : Nat) : Nat :=
  bitsOf (s.rcWord (key b inst off) 3) hi lo

/-! Instances. -/

def State.modDatum (s : State) (d : Fin 8) (f : Datum → Datum) : State :=
  { s with datums := s.datums.set d (f s.datums[d]) }

def State.modLoop (s : State) (n : Fin 16) (f : Loop → Loop) : State :=
  { s with loops := s.loops.set n (f s.loops[n]) }

def State.modSlot (s : State) (i : Fin 96) (f : Slot → Slot) : State :=
  { s with slots := s.slots.set i (f s.slots[i]) }

def State.modChan (s : State) (c : Fin 192) (f : Chan → Chan) : State :=
  { s with chans := s.chans.set c (f s.chans[c]) }

def State.modGroup (s : State) (g : Fin 12) (f : Group → Group) : State :=
  { s with groups := s.groups.set g (f s.groups[g]) }

def State.modUnit (s : State) (u : Fin 32) (f : StatUnit → StatUnit) : State :=
  { s with units := s.units.set u (f s.units[u]) }

def State.modSyn (s : State) (y : Fin 9) (f : Syn → Syn) : State :=
  { s with syns := s.syns.set y (f s.syns[y]) }

def State.modPort (s : State) (n : Fin 16) (f : Port → Port) : State :=
  { s with ports := s.ports.set n (f s.ports[n]) }

def State.modReist (s : State) (n : Fin 16) (f : Reist → Reist) : State :=
  s.modPort n (fun p => { p with r := f p.r })

def State.modStream (s : State) (i : Fin 32) (f : Stream → Stream) : State :=
  { s with streams := s.streams.set i (f s.streams[i]) }

def State.modInst (s : State) (i : Fin 8) (f : Inst → Inst) : State :=
  { s with insts := s.insts.set i (f s.insts[i]) }

def State.modEng (s : State) (e : Fin 8) (f : Engine → Engine) : State :=
  { s with engines := s.engines.set e (f s.engines[e]) }

def State.modMbox (s : State) (m : Fin 16) (f : Mbox → Mbox) : State :=
  { s with mboxes := s.mboxes.set m (f s.mboxes[m]) }

def State.modMb (s : State) (p : Fin 2) (f : MbPort → MbPort) : State :=
  { s with mbs := s.mbs.set p (f s.mbs[p]) }

def State.modGaz (s : State) (i : Fin 64) (f : Gaz → Gaz) : State :=
  { s with gaz := s.gaz.set i (f s.gaz[i]) }

def State.modBlk (s : State) (i : Fin 128) (f : Blk → Blk) : State :=
  { s with fm := { s.fm with blks := s.fm.blks.set i (f s.fm.blks[i]) } }

def State.modOven (s : State) (f : Oven → Oven) : State :=
  { s with oven := f s.oven }

def State.modBoot (s : State) (f : Boot → Boot) : State :=
  { s with boot := f s.boot }

def State.modBook (s : State) (f : Book → Book) : State :=
  { s with book := f s.book }

def State.modNote (s : State) (f : Notices → Notices) : State :=
  { s with notices := f s.notices }

/-- Index of a path among the twelve path states: f0, f1, sb, stw, eng 0–7. -/
def pathIx : Path → Fin 12
  | .f0 => 0
  | .f1 => 1
  | .sb => 2
  | .stw => 3
  | .eng n => ⟨4 + n.val, by omega⟩

def State.path (s : State) (p : Path) : PathSt :=
  s.paths[pathIx p]

def State.modPath (s : State) (p : Path) (f : PathSt → PathSt) : State :=
  { s with paths := s.paths.set (pathIx p) (f (s.path p)) }

/-- Path codes (R335). -/
def pathCode : Path → Nat
  | .f0 => 0
  | .f1 => 1
  | .sb => 2
  | .stw => 3
  | .eng n => 8 + n.val

/-- The answer of an access on its path. -/
def State.answer (s : State) (p : Path) (r : Resp) : State :=
  s.modPath p (fun q => { q with resp := r })

/-- Fold over all the indices of a vector. -/
def overFin (n : Nat) (s : State) (f : Fin n → State → State) : State :=
  (List.finRange n).foldl (fun s i => f i s) s

/-- A fresh free value: nothing constrains it. -/
def State.free (s : State) : BitVec 64 × State :=
  (Config.freeWord s.freeCtr, { s with freeCtr := s.freeCtr + 1 })

/-- Record what the block sends out. -/
def State.emit (s : State) (e : Emission) : State :=
  { s with emitted := e :: s.emitted }

/-- n as an index below k, if it is one. -/
def fin? (k n : Nat) : Option (Fin k) :=
  if h : n < k then some ⟨n, h⟩ else none

/-- n reduced to an index below k. -/
def finMod (k n : Nat) (h : 0 < k := by decide) : Fin k :=
  ⟨n % k, Nat.mod_lt n h⟩

/-! Ticks. -/

/-- Ticks in 1 ms (R38). -/
def msTicks : Nat := 781250

/-- Ticks in 1 s. -/
def secTicks : Nat := 781250000

/-- At least n ticks have passed since tick k. -/
def State.passed (s : State) (k : DWord) (n : Nat) : Bool :=
  decide (s.tick.toNat ≥ k.toNat + n)

/-- At least n ticks have passed since an instant of the standby island; where the tick index has not counted its time, the
island has run it (R24, log 150). -/
def State.since (s : State) (k : Option DWord) (n : Nat) : Bool :=
  match k with
  | none => true
  | some k => s.passed k n

/-- The present tick as an instant of the standby island: none while no tick runs (log 150). -/
def State.mark (s : State) : Option DWord :=
  if s.ticking then some s.tick else none

/-- Whole µs in n ticks: n × 1.28 ns. -/
def usOfTicks (n : Nat) : Nat :=
  n * 4 / 3125

/-! Time of clocks and tallies (R33 to R43). Integers count [2^-56 ns] or [2^-26 ns] as named. -/

/-- 10^9 ns. -/
def secNs : Nat := 1000000000

/-- Range of the seconds in ns: 2^48 s. -/
def wrapNs : Nat := 2 ^ 48 * secNs

/-- Time as one integer [2^-56 ns]. -/
def Tm.toInt56 (t : Tm) : Int :=
  ((t.sec.toNat * secNs + t.ns.toNat) * 2 ^ 56 + t.frac.toNat : Nat)

/-- Normalised time of an integer [2^-56 ns], seconds modulo 2^48 (R37). -/
def Tm.ofInt56 (x : Int) : Tm :=
  let u := (x % ((wrapNs * 2 ^ 56 : Nat) : Int)).toNat
  let ns := u / 2 ^ 56
  ⟨BitVec.ofNat 48 (ns / secNs), BitVec.ofNat 30 (ns % secNs), BitVec.ofNat 56 u⟩

/-- Step 3 of R35: one increment. -/
def Tm.advance (t : Tm) (inc : DWord) : Tm :=
  Tm.ofInt56 (t.toInt56 + inc.toNat)

/-- R39: the increment of a fractional frequency n [2^-72]. -/
def incOf (n : Int) : DWord :=
  BitVec.ofInt 64 (nomInc.toNat + roundDiv (nomInc.toNat * n) (2 ^ 72))

/-- The segment in use at tick k, with HIST where k is older than every segment held (R41). -/
def Clock.segAt (c : Clock) (k : DWord) : Seg × Bool :=
  match c.segs.find? (fun g => decide (g.base.toNat ≤ k.toNat)) with
  | some g => (g, false)
  | none => (c.segs.getLastD ⟨0, c.now, c.inc, c.n, false⟩, true)

/-- T(k) of a segment as an integer [2^-56 ns] (R41). -/
def Seg.at56 (g : Seg) (k : DWord) : Int :=
  g.tb.toInt56 + ((k.toNat : Int) - g.base.toNat) * g.inc.toNat

/-- R42: the stamp [2^-26 ns] of an edge of fraction d latched at datum time tk [2^-56 ns] under the fractional frequency n. -/
def stampAt (tk n : Int) (d : BitVec 14) : Int :=
  tk / 2 ^ 30 - (d.toNat * 2 ^ 14 + roundDiv (d.toNat * n) (2 ^ 58))

/-- The internal stamp of latching tick k and fraction d (R42), [2^-26 ns], with its HIST and SLEW flags. -/
def Clock.stamp26 (c : Clock) (k : DWord) (d : BitVec 14) : Int × Bool × Bool :=
  let (g, hist) := c.segAt k
  (stampAt (g.at56 k) g.n d, hist, g.slew)

/-- The present time of a clock, [2^-26 ns]. -/
def Clock.now26 (c : Clock) : Int :=
  c.now.toInt56 / 2 ^ 30

/-- Export of an internal stamp (R43): truncated to [2^-16 ns], seconds modulo 2^48. -/
def exportStamp (x : Int) : Stamp :=
  let u := (x % ((wrapNs * 2 ^ 26 : Nat) : Int)).toNat
  let ns := u / 2 ^ 26
  ⟨BitVec.ofNat 48 (ns / secNs), BitVec.ofNat 32 (ns % secNs), BitVec.ofNat 16 (u % 2 ^ 26 / 2 ^ 10)⟩

/-- The exported time of a clock at its present tick. -/
def Tm.export (t : Tm) : Stamp :=
  ⟨t.sec, BitVec.ofNat 32 t.ns.toNat, BitVec.ofNat 16 (t.frac.toNat / 2 ^ 40)⟩

/-- A stamp in ns since the epoch of the clock. -/
def stampNs (t : Stamp) : Nat :=
  t.sec.toNat * secNs + t.ns.toNat

/-- A stamp as an integer [2^-16 ns]. -/
def stamp16 (t : Stamp) : Int :=
  (stampNs t * 2 ^ 16 + t.sub.toNat : Nat)

/-- A stamp of an integer [2^-16 ns]. -/
def stampOf16 (x : Int) : Stamp :=
  exportStamp (x * 2 ^ 10)

/-- The epoch number of a time (R45). -/
def Tm.epoch (t : Tm) : Nat :=
  (t.sec.toNat * secNs + t.ns.toNat) / 2 ^ 32

/-- Oven instant of latching tick k and fraction d, in units of [2^-32 / 25 ns]: exact (R34, R42). -/
def ovenInstant (k : DWord) (d : BitVec 14) : Int :=
  (k.toNat : Int) * 2 ^ 37 - d.toNat * 2 ^ 20 * 25

/-- Exported present time of datum clock d. -/
def State.nowStamp (s : State) (d : Fin 8) : Stamp :=
  (s.datums[d]).clk.now.export

/-! Power domains and the oven. -/

/-- A power domain is up. -/
def State.domUp (s : State) (d : Nat) : Bool :=
  match fin? 108 d with
  | some i => s.domOn[i]
  | none => true

/-- DEVICE.OVEN.WARM (R71): the debounced pin is active, the settle detector has declared settled, no oven loss (R13). -/
def State.warm (s : State) : Bool :=
  s.oven.debounced && s.oven.settled && !s.oven.oscLost

/-! Memory (R353, R354): logical bank L at physical bank REMAP[L], 4 MiB each. -/

/-- Bytes of SRAM: 24 logical banks of 4 MiB. -/
def sramSize : Nat := 24 * 2 ^ 22

/-- Physical address of a logical one. -/
def Memory.phys (m : Memory) (a : Nat) : Nat :=
  match fin? 24 (a / 2 ^ 22) with
  | some l => (m.remap[l]).val * 2 ^ 22 + a % 2 ^ 22
  | none => a

/-- A byte at a logical address. -/
def Memory.byte (m : Memory) (a : Nat) : Byte :=
  (mapGet m.cells (m.phys a)).getD 0

/-- Write a byte at a logical address. -/
def Memory.setByte (m : Memory) (a : Nat) (b : Byte) : Memory :=
  { m with cells := mapSet m.cells (m.phys a) b 0 }

/-- n bytes at a logical address. -/
def Memory.bytes (m : Memory) (a n : Nat) : List Byte :=
  (List.range n).map (fun i => m.byte (a + i))

/-- Write bytes at a logical address. -/
def Memory.setBytes (m : Memory) (a : Nat) : List Byte → Memory
  | [] => m
  | b :: bs => (m.setByte a b).setBytes (a + 1) bs

/-- The canonical form of memory: addresses strictly rising, no byte equal to 0 listed. -/
def Memory.wf (m : Memory) : Bool :=
  mapWf (fun _ => (0 : Byte)) m.cells

/-- Bits in error in a 64-bit physical word (R355). -/
def Memory.flaw (m : Memory) (w : Nat) : Nat :=
  (mapGet m.flaws w).getD 0

/-- Change the bits in error of a physical word. -/
def Memory.setFlaw (m : Memory) (w n : Nat) : Memory :=
  { m with flaws := mapSet m.flaws w n 0 }

/-- The device writes whole words of SRAM: they get fresh check bits (R355). -/
def State.memWrite (s : State) (a : Nat) (bs : List Byte) : State :=
  let m := s.mem.setBytes a bs
  { s with mem := { m with flaws := m.flaws.filter (fun e => !(List.range (bs.length / 8)).any (fun i =>
      decide (e.1 = m.phys (a + 8 * i) / 8))) } }

/-! Interrupts (R320). -/

/-- Vector v of a function sends no message now: its own mask, the Function Mask, or bus mastering off (R320). -/
def Func.silent (fn : Func) (v : Fin 32) : Bool :=
  fn.mask.getLsbD v.val || fn.funcMask || !fn.busMaster

/-- Fault block b is in service: neither isolated for its self-test nor retired (R377, R379). -/
def State.blkUp (s : State) (b : Nat) : Bool :=
  match fin? 128 b with
  | some i => (s.fm.blks[i]).st == .inService
  | none => true

/-- The HOST island carries words: it is neither isolated nor retired (R377, R380). -/
def State.hostUp (s : State) : Bool :=
  s.blkUp 0x5D

/-- The REF island does (R377). -/
def State.refUp (s : State) : Bool :=
  s.blkUp 0x10

/-- One event for vector v of function f: sent, held pending while masked, or lost with MSI-X disabled. It stalls in the same
way while the HOST island is isolated (R377). -/
def State.msi (s : State) (f : Fin 2) (v : Fin 32) : State :=
  let fn := s.funcs[f]
  if fn.msixEn = false then s.count .host 0 0x0C 15 0
  else if fn.silent v || !s.hostUp then
    { s with funcs := s.funcs.set f { fn with pba := fn.pba ||| mkBit v.val true } }
  else s.emit (.msi f v fn.addr[v] fn.data[v])

/-- An event that raises the side-band alert (R334). -/
def State.alertEvent (s : State) : State :=
  { s with sideband := { s.sideband with answered := false } }

/-! Notices (R200 to R203). -/

/-- Base of the notices and mailboxes region (R413). -/
def noticeBase : Nat := 0x5C00000

/-- Fill of the notice queue (R413). -/
def State.noteFill (s : State) : Nat :=
  (s.rf .notice 0 4 10 0 + 2048 - s.rf .notice 0 8 10 0) % 2048

/-- Class index of a notice: 0 A, 1 B, 2 C, 3 D. -/
def clsA : BitVec 2 := 0
def clsB : BitVec 2 := 1
def clsC : BitVec 2 := 2
def clsD : BitVec 2 := 3

/-- One offered entry. -/
structure Offer where
  id : Nat
  cls : BitVec 2
  code : Byte
  count : Nat
  unw : Bool
  time : Stamp
  lastDt : Nat
  args : BitVec 64
  deriving DecidableEq, Repr

/-- The 32 bytes of an entry (R200). -/
def Offer.bytes (o : Offer) (seq : BitVec 16) : List Byte :=
  beBytes 2 o.id ++ [BitVec.ofNat 8 (o.cls.toNat * 64 + b2n o.unw * 32), o.code] ++ beBytes 2 seq.toNat
    ++ beBytes 2 (Nat.min o.count 0xFFFF) ++ beBytes 6 o.time.sec.toNat ++ beBytes 4 o.time.ns.toNat
    ++ beBytes 2 o.time.sub.toNat ++ beBytes 4 (Nat.min o.lastDt 0xFFFFFFFF) ++ beBytes 8 o.args.toNat

/-- An entry of this class is admitted (R203). -/
def State.admits (s : State) (cls : BitVec 2) : Bool :=
  if cls.toNat < 2 then decide (s.noteFill < 1024) else !s.notices.shed && decide (s.noteFill < 768)

/-- Path that owns a queue, from an OWNER code (R194, R200). -/
def ownerPath : Nat → Path
  | 0 => .f0
  | 1 => .f1
  | 2 => .sb
  | _ => .stw

/-- The interrupt or alert of an advance of NOTICE.WR (R200). -/
def State.noteSignal (s : State) : State :=
  match s.rf .notice 0 0 31 30 with
  | 0 => s.msi 0 (finMod 32 (s.rf .notice 0 0 20 16))
  | 1 => s.msi 1 (finMod 32 (s.rf .notice 0 0 20 16))
  | 2 => s.alertEvent
  | _ => s

/-- The copy of a snapshot is being taken (R327, R186). -/
def State.snapBusy (s : State) : Bool :=
  s.ticking && !s.passed s.snap.tick s.snap.hold

/-- Write an admitted entry to the ring and advance WR; the source's entry is then outstanding. -/
def State.enter (s : State) (o : Offer) : State :=
  let wr := s.rf .notice 0 4 10 0
  let s := s.memWrite (noticeBase + 32 * (wr % 1024)) (o.bytes s.notices.seq)
  let s := s.wr .notice 0 4 (fld ((wr + 1) % 2048) 0)
  let src : NSrc := ⟨o.id, some wr, o.cls, o.code, 0, 0, false, stampZero, 0, 0⟩
  let s := s.modNote (fun q => { q with
    seq := q.seq + 1
    shed := q.shed || decide (s.noteFill ≥ 768)
    srcs := src :: q.srcs.filter (fun e => decide (e.id ≠ o.id)) })
  s.noteSignal

/-- An entry that is not admitted is lost and counted (R203). The time of the first loss is that of the lost entry's first occurrence, also
of a pending one that is refused at a write of RD, and its UNWARMED with it (DESIGN CHOICE, log 181). -/
def State.lose (s : State) (o : Offer) : State :=
  let n := Nat.min o.count 0xFFFF
  let s := s.count .notice 0 (0x14 + 4 * o.cls.toNat) 31 0 n
  let s := s.modNote (fun q =>
    let first := q.lossA + q.lossB + q.lossC + q.lossD = 0
    { q with
      lossA := if o.cls = clsA then satAdd 16 q.lossA n else q.lossA
      lossB := if o.cls = clsB then satAdd 16 q.lossB n else q.lossB
      lossC := if o.cls = clsC then satAdd 16 q.lossC n else q.lossC
      lossD := if o.cls = clsD then satAdd 16 q.lossD n else q.lossD
      lossTime := if first then o.time else q.lossTime
      lossUnw := if first then o.unw else q.lossUnw
      srcs := q.srcs.filter (fun e => decide (e.id ≠ o.id)) })
  s

/-- Offer an entry to the queue (R203). -/
def State.offer (s : State) (o : Offer) : State :=
  if s.admits o.cls then s.enter o else s.lose o

/-- A notice occurs at a source (R202), with its time: it is offered, or added to the pending count of the source's
outstanding entry, whose code and class are then those of the first pending occurrence (DESIGN CHOICE, log 146). The queue
lies in the core: while the core is held, the standby island's notices are lost. -/
def State.raiseAt (s : State) (time : Stamp) (id : Nat) (cls : BitVec 2) (code : Byte) (args : BitVec 64) : State :=
  let unw := !s.warm
  if s.coreUp = false then s
  else match s.notices.srcs.find? (fun e => decide (e.id = id)) with
  | none => s.offer ⟨id, cls, code, 1, unw, time, 0, args⟩
  | some e =>
    let e' := if e.pend = 0 then
        { e with cls := cls, code := code, pend := 1, args := args, unw := unw, time := time, firstAt := s.tick,
                 lastAt := s.tick }
      else { e with pend := satAdd 16 e.pend 1, lastAt := s.tick }
    s.modNote (fun q => { q with srcs := q.srcs.map (fun x => if x.id = id then e' else x) })

/-- The datum clock of the notices (R200). -/
def State.noteDatum (s : State) : Fin 8 :=
  finMod 8 (s.rf .notice 0 0 10 8)

/-- A notice occurs now, timed by datum clock NOTICE.CFG.DATUM (R200). -/
def State.raise (s : State) (id : Nat) (cls : BitVec 2) (code : Byte) (args : BitVec 64) : State :=
  s.raiseAt (s.nowStamp s.noteDatum) id cls code args

/-- ARGS bytes 24 to 31 (R414), byte 24 first. -/
def args8 (bs : List Byte) : BitVec 64 :=
  BitVec.ofNat 64 (beNat ((bs ++ List.replicate 8 0#8).take 8))

/-- A byte of a number. -/
def byte (n : Nat) : Byte :=
  BitVec.ofNat 8 n

/-- A QUEUE_SUMMARY, where one is due and the previous one is not outstanding (R203). -/
def State.queueSummary (s : State) : State :=
  let q := s.notices
  if q.sumDue = false ∨ (q.srcs.any (fun e => decide (e.id = 0x0801))) then s
  else
    let a := args8 (beBytes 2 q.lossA ++ beBytes 2 q.lossB ++ beBytes 2 q.lossC ++ beBytes 2 q.lossD)
    let s := s.modNote (fun q => { q with sumDue := false, lossA := 0, lossB := 0, lossC := 0, lossD := 0 })
    s.offer ⟨0x0801, clsA, 0x2A, 1, q.lossUnw, q.lossTime, 0, a⟩

/-- The owner's RD passes entries up to `rd` (R202, R203): SHED may drop, then the summary and the pending entries of
the sources whose entries RD passed are offered in ring order. LAST_DT is the floor of the ticks to whole µs (R200, DESIGN CHOICE, log
182). -/
def State.noteConsume (s : State) (rd : Nat) : State :=
  let old := s.rf .notice 0 8 10 0
  let n := (rd + 2048 - old) % 2048
  let passed := (List.range n).filterMap (fun i =>
    s.notices.srcs.find? (fun e => decide (e.outPos = some ((old + i) % 2048))))
  let s := s.wr .notice 0 8 (fld rd 0)
  let s := s.modNote (fun q =>
    let shed := q.shed && decide (s.noteFill > 512)
    let lost := decide (q.lossA + q.lossB + q.lossC + q.lossD > 0)
    { q with
      shed := shed
      sumDue := q.sumDue || (q.shed && !shed && lost)
      srcs := q.srcs.filter (fun e => !passed.any (fun x => decide (x.id = e.id))) })
  let s := s.queueSummary
  passed.foldl (fun s e =>
    if e.pend = 0 ∨ e.id = 0x0801 then s
    else s.offer ⟨e.id, e.cls, e.code, e.pend, e.unw, e.time, usOfTicks (e.lastAt.toNat - e.firstAt.toNat), e.args⟩) s

/-! Field book records (R189 to R193). -/

/-- PRE of a record of datum d taken at tick k: before the latest step or set (R46, R189). -/
def State.preOf (s : State) (d : Fin 8) (k : DWord) : Bool :=
  match (s.datums[d]).lastPre with
  | some a => decide (k.toNat < a.toNat)
  | none => false

/-- Header byte 2 (R189). -/
def flagByte (unw hist slew crowd gap calFact calFrozen calRange : Bool) : Byte :=
  byte (b2n unw * 128 + b2n hist * 64 + b2n slew * 32 + b2n crowd * 16 + b2n gap * 8 + b2n calFact * 4
    + b2n calFrozen * 2 + b2n calRange)

/-- A record of 16 bytes: type, tag, datum, PRE, XF, flags, NS32, SUB16 and seven payload bytes (R189). -/
def mkRec (type tag : Nat) (d : Fin 8) (pre : Bool) (xf : Nat) (flags : Byte) (ns32 sub : Nat) (payload : List Byte) : Rec :=
  BitVec.ofNat 128 (beNat ([byte type, byte (tag % 4 * 64 + d.val * 8 + b2n pre * 4 + xf % 4), flags]
    ++ beBytes 4 ns32 ++ beBytes 2 sub ++ (payload ++ List.replicate 7 0#8).take 7))

/-- A record whose time software extends by R47 (R45). -/
def stampRec (type : Nat) (d : Fin 8) (pre : Bool) (xf : Nat) (flags : Byte) (t : Stamp) (payload : List Byte) : Rec :=
  mkRec type (stampNs t / 2 ^ 32 % 4) d pre xf flags (stampNs t % 2 ^ 32) t.sub.toNat payload

/-- A record that carries complete time: nanoseconds of the second, tag 0 (R192). -/
def fullRec (type : Nat) (d : Fin 8) (pre : Bool) (xf : Nat) (flags : Byte) (t : Stamp) (payload : List Byte) : Rec :=
  mkRec type 0 d pre xf flags t.ns.toNat t.sub.toNat payload

/-- A record group goes on its way to the writer (R16, R192). -/
def State.bookGroup (s : State) (g : List Rec) : State :=
  if g.isEmpty then s else s.modBook (fun b => { b with q := b.q ++ [g] })

/-- Flags of a record taken now on a datum clock: UNWARMED and SLEW. -/
def State.nowFlags (s : State) (d : Fin 8) : Byte :=
  flagByte (!s.warm) false ((s.datums[d]).rem != 0) false false false false false

/-- A CONFIG and CONFIGO group (R191, R192), timed by DATUM0 (R189). -/
def State.bookConfig (s : State) (d : Fin 8) (item index : Nat) (new old : Nat) : State :=
  let t := s.nowStamp d
  let pl (v : Nat) := [byte item, byte index] ++ beBytes 5 (v % 2 ^ 40)
  s.bookGroup [stampRec 0x17 d false 0 (s.nowFlags d) t (pl new), stampRec 0x18 d false 0 (s.nowFlags d) t (pl old)]

/-- The 40 low bits of a signed value (R191). -/
def low40 (x : Int) : Nat :=
  (BitVec.ofInt 40 x).toNat

/-! Archive log (R370, R388). -/

/-! Reports to the fault manager (R377). -/

/-- A log record is written, or counted lost under PROTECT 0b11 (R372, R373). -/
def State.log (s : State) (e : LogEntry) : State :=
  if s.rf .archive 0 0 31 30 = 3 then s.count .archive 0 0x08 31 0
  else
    -- a record's four whole words carry fresh check bits
    let slot := s.arch.logWr % (0x70000 / 32)
    { s with arch := { s.arch with
      log := e :: s.arch.log, logWr := s.arch.logWr + 1, bad := s.arch.bad.filter (fun w => decide (w / 4 ≠ slot)) } }

/-- One of the archive's counters moves, or the record is counted lost under PROTECT 0b11 (R368, R373). -/
def State.arcCount (s : State) (f : ArcCounters → ArcCounters) : State :=
  if s.rf .archive 0 0 31 30 = 3 then s.count .archive 0 0x08 31 0
  else { s with arch := { s.arch with counters := f s.arch.counters } }

/-- A verification has failed (R368). -/
def State.verifyFailed (s : State) : State :=
  s.arcCount (fun c => { c with failures := c.failures + 1 })

/-- The records of the log whose words can be read, newest first: one whose CRC fails is lost (R370). -/
def Archive.readLog (a : Archive) : List LogEntry :=
  if a.bad.all (fun w => decide (0x70000 / 8 ≤ w)) then a.log
  else ((List.range a.log.length).zip a.log).filterMap (fun e =>
    if a.bad.any (fun w => decide (w / 4 = (a.logWr - 1 - e.1) % (0x70000 / 32))) then none else some e.2)

/-- Fault block b is retired (R379). -/
def State.blkRetired (s : State) (b : Nat) : Bool :=
  match fin? 128 b with
  | some i => (s.fm.blks[i]).st == .retired
  | none => false

/-- DATA (0) or DATB (1) works: in service, and its clocks reloaded since its last fault (R377, R380, R381). -/
def State.datUp (s : State) (isl : Fin 2) : Bool :=
  s.blkUp (0x13 + isl.val) && !s.reloadDue[isl]

/-- The datum island of a datum clock: DATA 0 to 3, DATB 4 to 7. -/
def datIsl (d : Fin 8) : Fin 2 :=
  ⟨d.val / 4, by omega⟩

/-- The engine island of an engine: ENGA 0 to 3, ENGB 4 to 7. -/
def engIsl (e : Fin 8) : Fin 2 :=
  ⟨e.val / 4, by omega⟩

/-- A detector reports a fault of block `b`: it waits for the fault manager, in order of arrival, at most 64; a report
of a block that is being tested or already waits is merged (R377). -/
def State.report (s : State) (b : Nat) (cause : Nat) : State :=
  match fin? 128 b with
  | none => s
  | some i =>
    if (s.fm.blks[i]).st = .testing ∨ s.fm.waiting.any (fun e => decide (e.1 = i)) then s
    else if s.fm.waiting.length ≥ 64 then
      let s := s.count .fault 0 0x0C 15 0
      s.raise 0x077F clsB 0x6A (args8 (beBytes 2 (s.rf .fault 0 0x0C 15 0)))
    else { s with fm := { s.fm with waiting := s.fm.waiting ++ [(i, BitVec.ofNat 4 cause)] } }

end Sys2Proof.Machine
end

