-- ==== Sys2Proof/Machine/Outputs.lean ====
section
/-! DEFINITION. Output banks and the code sent on ESMC: what every output and every port shows for the present states of
the synthesizers and loops (R206, R212, R217, R218, R225, R237). -/

namespace Sys2Proof.Machine

/-- Bank of an output. -/
def bankOf (o : Fin 48) : Fin 12 :=
  ⟨o.val / 4, by omega⟩

/-- STD of an output (R428). -/
def State.outStd (s : State) (b : Nat) (i : Nat) : Nat :=
  s.rf .outbank b (0x08 + 8 * i) 31 29

/-- ODIV of an output (R428). -/
def State.outDiv (s : State) (b : Nat) (i : Nat) : Nat :=
  s.rf .outbank b (0x08 + 8 * i) 23 0

/-- An output is used: ODIV 4 or more, a listed driver standard (R206, R224). -/
def State.outUsed (s : State) (b : Nat) (i : Nat) : Bool :=
  decide (s.outDiv b i ≥ 4) && decide (s.outStd b i ≤ 4)

/-- Some output of the bank is used. -/
def State.bankUsed (s : State) (b : Nat) : Bool :=
  (List.range 4).any (fun i => s.outUsed b i)

/-- LOCK of a synthesizer (R222). -/
def Syn.lock (y : Syn) : Bool :=
  y.phase == .locked

/-- A synthesizer is in service: its plan's INSVC, or SYNB (R206, R427). -/
def State.insvc (s : State) (y : Fin 9) : Bool :=
  y.val == 8 || s.rb .synth y.val 0x20 31

/-- The synthesizer below 8 as an instance of the nine. -/
def synIx (y : Fin 8) : Fin 9 :=
  ⟨y.val, by omega⟩

/-- State code of a synthesizer's assigned loop; none counts as FREE_RUN (R218). -/
def State.synLoopCode (s : State) (y : Fin 9) : LoopCode :=
  match (s.syns[y]).assigned with
  | some n => (s.loops[n]).code
  | none => .freeRun

/-- A selected squelch condition holds for a bank fed by y, or a full lock sequence or a failure holds its outputs at the
squelch level (R212, R213, R218), as its self-test and its retirement do (R378, R379); in a short sequence they run from the VCO
where SQ_LOL is 0 (R217, R380). -/
def State.squelched (s : State) (b : Nat) (y : Fin 9) : Bool :=
  let q := s.syns[y]
  let c := s.synLoopCode y
  (decide (y.val < 8) && !s.blkUp (0x18 + y.val)) || q.seqOn || q.phase == .failed || q.phase == .off
    || (s.rb .outbank b 0 22 && !q.lock)
    || (s.rb .outbank b 0 21 && c == .freeRun)
    || (s.rb .outbank b 0 20 && c == .holdover)
    || (s.rb .outbank b 0 19 && c == .extended)

/-- The output is enabled, used, fed by an in-service synthesizer, its bank powered and its drivers not held off
(R224, R225, R389). -/
def State.outEnabled (s : State) (o : Fin 48) : Bool :=
  let b := bankOf o
  let i := o.val % 4
  match s.bankSrc[b] with
  | none => false
  | some y => s.rb .outbank b.val 0 (28 + i) && s.outUsed b.val i && s.insvc (synIx y) && s.domUp (55 + b.val) && !s.bankHeld[b]

/-- The state of an output for the present conditions: off, squelched, waiting for its first grid instant, or running
where it already runs (R212, R218, R225). -/
def State.outNext (s : State) (o : Fin 48) : OutSt :=
  if s.outEnabled o = false then .off
  else
    match s.bankSrc[bankOf o] with
    | none => .off
    | some y =>
      if s.squelched (bankOf o).val (synIx y) then .squelched
      else if s.outs[o] = .running then .running else .waiting

/-- Bring every output to its state for the present conditions; one that begins to wait looks for its first grid instant from
this tick on. -/
def State.refreshOuts (s : State) : State :=
  { s with
    outs := Vector.ofFn (fun o => s.outNext o)
    outFrom := Vector.ofFn (fun o => if s.outNext o = .waiting ∧ s.outs[o] ≠ .waiting then s.tick else s.outFrom[o]) }

/-- What one ball of an output shows (R225, R226). -/
inductive BallLevel where
  | off
  | low
  | high
  | clock
  | inverted
  deriving DecidableEq, Repr

/-- SQ_LEVEL of a bank on the P and N balls of output i: static low (LVCMOS both low), or the driver off (R225). -/
def State.squelchLevel (s : State) (b i : Nat) : BallLevel × BallLevel :=
  if s.rb .outbank b 0 23 then (.off, .off)
  else (.low, if s.outStd b i = 4 then .low else .high)

/-- The P and N balls of an output (R224 to R226): a disabled one is off, a squelched one and one that waits for its first
grid instant show SQ_LEVEL; a running one drives its clock on P, and on N the complement, or P's phase in an LVCMOS pair
with CMOS_N 0. -/
def State.outBalls (s : State) (o : Fin 48) : BallLevel × BallLevel :=
  let b := (bankOf o).val
  let i := o.val % 4
  match s.outs[o] with
  | .off => (.off, .off)
  | .waiting => s.squelchLevel b i
  | .squelched => s.squelchLevel b i
  | .running => (.clock, if s.outStd b i = 4 ∧ s.rb .outbank b (0x08 + 8 * i) 28 = false then .clock else .inverted)

/-- Restart the outputs of a set that run: each drives again from its first grid instant (R205, R212, R225). -/
def State.restartOuts (s : State) (sel : Fin 48 → Bool) : State :=
  { s with
    outs := Vector.ofFn (fun o => if sel o && decide (s.outs[o] = .running) then .waiting else s.outs[o])
    outFrom := Vector.ofFn (fun o => if sel o && decide (s.outs[o] = .running) then s.tick else s.outFrom[o]) }

/-- Restart one output. -/
def State.restartOut (s : State) (o : Fin 48) : State :=
  s.restartOuts (fun x => decide (x = o))

/-! Registers of a port. -/

/-- CFG of a port as it acts: MODE 0b00 while its island is isolated or retired (R377 to R379), or the lane rails are
declared unpowered (R392). -/
def State.pcfg (s : State) (n : Fin 16) : Word :=
  if s.blkUp (0x40 + n.val) && s.boot.sheet.lanes then s.r .port n.val 0 else s.r .port n.val 0 &&& 0x3FFFFFFF

/-- Port n runs the Ethernet timing MAC (R232): MODE 0b01, RATE not reserved. -/
def State.isEth (s : State) (n : Fin 16) : Bool :=
  decide (bitsOf (s.pcfg n) 31 30 = 1 ∧ bitsOf (s.pcfg n) 29 28 ≠ 3)

/-- Port n runs the Reistica link (R232). -/
def State.isReist (s : State) (n : Fin 16) : Bool :=
  decide (bitsOf (s.pcfg n) 31 30 = 2 ∧ bitsOf (s.pcfg n) 29 28 ≠ 3)

/-- The datum clock of a port. -/
def State.portDatum (s : State) (n : Fin 16) : Fin 8 :=
  finMod 8 (bitsOf (s.pcfg n) 26 24)

/-- RS-FEC is honoured only at 25.78125 Gbit/s (R232). -/
def State.rsFec (s : State) (n : Fin 16) : Bool :=
  bitOf (s.pcfg n) 27 && decide (bitsOf (s.pcfg n) 29 28 = 2)

/-! Quality codes. -/

/-- Order of a received SSM code with its eSSM code (R81), and ESSM_MISMATCH: 1 under option II and for every pairing
that is not listed, where the base SSM code alone decides. -/
def orderOfSsm (optII : Bool) (ssm essm : Nat) : Nat × Bool :=
  if optII then
    (match ssm with | 1 => 3 | 0 => 4 | 7 => 5 | 4 => 6 | 0xD => 7 | 0xA => 9 | 0xC => 10 | 0xE => 11 | _ => 15, true)
  else
    match ssm, essm with
    | 2, 0x21 => (0, false)
    | 2, 0x20 => (1, false)
    | 2, 0x23 => (2, false)
    | 2, 0xFF => (3, false)
    | 4, 0xFF => (5, false)
    | 8, 0xFF => (7, false)
    | 0xB, 0x22 => (8, false)
    | 0xB, 0xFF => (9, false)
    | 0xF, 0xFF => (15, false)
    | 2, _ => (3, true)
    | 4, _ => (5, true)
    | 8, _ => (7, true)
    | 0xB, _ => (9, true)
    | _, _ => (15, true)

/-- Order of a clockClass (R81). -/
def orderOfClass (c : Nat) : Nat :=
  match c with
  | 6 => 1
  | 7 => 3
  | 135 => 5
  | 140 => 6
  | 150 => 7
  | 160 => 8
  | 165 => 9
  | 248 => 14
  | _ => 15

/-- The holdover code of a port: SSM and eSSM (R237). -/
def holdCode (optII : Bool) (eecType : Nat) (essm : Bool) : Nat × Nat :=
  if optII then (0xA, 0xFF)
  else if eecType = 2 ∧ essm then (0xB, 0x22) else (0xB, 0xFF)

/-- The listed codes of an option in rising order (R81): (order, SSM, eSSM). -/
def listedCodes (optII : Bool) : List (Nat × Nat × Nat) :=
  if optII then [(3, 1, 0xFF), (4, 0, 0xFF), (5, 7, 0xFF), (6, 4, 0xFF), (7, 0xD, 0xFF), (9, 0xA, 0xFF), (10, 0xC, 0xFF), (11, 0xE, 0xFF)]
  else [(0, 2, 0x21), (1, 2, 0x20), (2, 2, 0x23), (3, 2, 0xFF), (5, 4, 0xFF), (7, 8, 0xFF), (8, 0xB, 0x22), (9, 0xB, 0xFF)]

/-- STATE.ORDER of a source. -/
def State.order (s : State) (src : Fin 96) : Nat :=
  (s.slots[src]).order.toNat

/-- The code port n is to send: SSM and eSSM (R237). -/
def State.qlCode (s : State) (n : Fin 16) : Nat × Nat :=
  let w := s.r .port n.val 0
  let optII := bitOf w 18
  let essm := bitOf w 15 && !optII
  let hold := holdCode optII (bitsOf w 17 16) essm
  match fin? 8 (bitsOf w 23 20) with
  | none => hold
  | some y =>
    match (s.syns[synIx y]).assigned with
    | none => hold
    | some l =>
      let lp := s.loops[l]
      match lp.sel with
      | none => hold
      | some src =>
        if src.val = 16 + n.val then (0xF, 0xFF)
        else if lp.code = .acquire ∨ lp.code = .locked then
          match (listedCodes optII).find? (fun e => decide (e.1 ≥ s.order src)) with
          | some e => (e.2.1, if essm then e.2.2 else 0xFF)
          | none => hold
        else hold

/-- ESMC runs on a port: Ethernet mode, ESMC_EN (R232, R237). -/
def State.esmcOn (s : State) (n : Fin 16) : Bool :=
  s.isEth n && bitOf (s.pcfg n) 19

/-- The port whose recovered clock the loop behind port n has selected (R237). -/
def State.ssmPort (s : State) (n : Fin 16) : Option (Fin 16) :=
  match fin? 8 (s.rf .port n.val 0 23 20) with
  | none => none
  | some y =>
    match (s.syns[synIx y]).assigned.bind (fun l => (s.loops[l]).sel) with
    | none => none
    | some src => if 16 ≤ src.val ∧ src.val < 32 then fin? 16 (src.val - 16) else none

/-- The enhanced SSM TLV of a PDU sent by port n, with ESSM = 1: this device's clock identity (log 55); the counts received on
the selected port, or zero counts, with this device added (R237). -/
def State.essmTlv (s : State) (n : Fin 16) (essm : Nat) : Option Essm :=
  if s.rb .port n.val 0 15 && !s.rb .port n.val 0 18 then
    let (a, b) : Nat × Nat := match s.ssmPort n with
      | some m => ((s.ports[m]).eeecRx.toNat, (s.ports[m]).eecRx.toNat)
      | none => (0, 0)
    let own := decide (s.rf .port n.val 0 17 16 = 2)
    let a := satAdd 8 a (b2n own)
    let b := satAdd 8 b (b2n (!own))
    some ⟨byte essm, Config.devId, byte a, byte b, decide (a ≠ 0 ∧ b ≠ 0)⟩
  else none

/-- Bring one port to the code to be sent: a change sends an event PDU and raises QL_TX_CHANGE (R237, R248). The code is
the SSM with its eSSM. A port with its link down sends nothing. -/
def State.qlRefreshPort (s : State) (n : Fin 16) : State :=
  if s.esmcOn n = false ∨ (s.ports[n]).link = false then s
  else
    let (ssm, essm) := s.qlCode n
    let p := s.ports[n]
    if p.qlTx = BitVec.ofNat 4 ssm ∧ p.essmTx = byte essm then s
    else
      let s := s.modPort n (fun q => { q with qlTx := BitVec.ofNat 4 ssm, essmTx := byte essm })
      let s := s.emit (.port n (.esmc true (BitVec.ofNat 4 ssm) (s.essmTlv n essm)))
      s.raise (0x0500 + 4 * n.val + 1) clsA 0x44 (args8 [byte p.qlTx.toNat, byte ssm])

/-- Every port. -/
def State.qlRefresh (s : State) : State :=
  overFin 16 s (fun n s => s.qlRefreshPort n)

end Sys2Proof.Machine
end

