-- ==== Sys2Proof/Machine/Clocks.lean ====
section
/-! DEFINITION. The datum clocks and tallies at a tick: increments, steps, slews, time sets and the records they write
(R35 to R47, R86, R126 to R128, R145, R146, R192). -/

namespace Sys2Proof.Machine

/-- q := round_ne(BSLEW × NOM / 2^40) [2^-56 ns] (R128). -/
def slewAmount (bslew : Word) : Nat :=
  (roundDiv (bslew.toNat * nomInc.toNat) (2 ^ 40)).toNat

/-- Keep a new rate segment, at most 16 (R41): one that begins at the newest one's base tick takes its place. -/
def Clock.newSeg (c : Clock) (g : Seg) : Clock :=
  { c with segs := (g :: c.segs.dropWhile (fun x => decide (x.base = g.base))).take 16 }

/-- The slew remainder after the Δ values due at the coming tick (R128). -/
def Datum.remDue (d : Datum) : Int :=
  d.slewDue.foldl (fun r p => satS 88 (r + p.2 * 2 ^ 24)) d.rem

/-- What one tick did to a datum clock. -/
structure TickOut where
  d : Datum
  /-- Epoch number before the tick, and whether a step acted. -/
  epoch : Nat
  stepped : Bool
  /-- Δ values applied as steps, with their loops (R127); the Δ of a slew ended by BSLEW 0 (R128). -/
  steps : List (Fin 16 × Int)
  ended : Option Int
  deriving DecidableEq, Repr

/-- Steps 1 and 3 of R35 on a tally at tick k (R86). -/
def Clock.advance (c : Clock) (k : DWord) (due : Option Int) : Clock :=
  match due with
  | none => { c with now := c.now.advance c.inc }
  | some n =>
    let inc := incOf n
    let t := c.now.advance inc
    let c' : Clock := { c with now := t, inc := inc, n := n }
    if inc = c.inc ∧ n = c.n then c' else c'.newSeg ⟨k, t, inc, n, false⟩

/-- Steps 1 to 3 of R35 at tick k, with the slew of R128. A rate segment begins where step 1 or step 2 changes the clock, at the
start and the end of a slew, and at a write of BSLEW (R41, R128); an increment word that repeats the increment and n in force
changes nothing and begins none (log entry 106); its fractional frequency saturates to s64 (R33). The ending step that BSLEW 0
makes leaves `lastStep` as it is: later steps keep no spacing from it (log entry 107); to PPS, ToD and waits it is a step as any
other (`lastMove`). A mirror that agrees with the clock takes what the clock takes (R306); one that does not follows its own
line (log 158). -/
def Datum.advance (d : Datum) (k : DWord) : TickOut :=
  let n := d.incDue.getD d.clk.n
  let inc := match d.incDue with
    | some m => incOf m
    | none => d.clk.inc
  let bslew := d.bslewDue.getD d.bslew
  let q := match d.bslewDue with
    | some b => slewAmount b
    | none => d.q
  let rem1 := d.remDue
  let slewing := decide (q ≠ 0 ∧ rem1.natAbs > q)
  let add : Int := if slewing then (if rem1 < 0 then -(q : Int) else q) else 0
  let last : Int := (if slewing then 0 else rem1) + d.slewStep
  let rem2 := if slewing then rem1 - add else 0
  let steps : Int := (d.stepDue.map (fun p => p.2 * 2 ^ 24)).foldl (· + ·) 0
  let t1 := Tm.ofInt56 (d.clk.now.toInt56 + steps + last)
  let inc' := BitVec.ofInt 64 (inc.toNat + add)
  let t2 := t1.advance inc'
  let n' : Int := satS 64 (n + (if slewing then (if rem1 < 0 then -(bslew.toNat * 2 ^ 32 : Int) else bslew.toNat * 2 ^ 32) else 0))
  let head := d.clk.segs.headD ⟨0, d.clk.now, d.clk.inc, d.clk.n, false⟩
  let fresh := d.bslewDue.isSome || decide (steps + last ≠ 0) || decide ((head.inc, head.n, head.slew) ≠ (inc', n', slewing))
  let ended : Option Int := if d.bslewDue = some 0 ∧ rem1 ≠ 0 then some (rem1 / 2 ^ 24) else none
  let clk : Clock := { now := t2, inc := inc, n := n, segs := d.clk.segs }
  let clk := if fresh then clk.newSeg ⟨k, t2, inc', n', slewing⟩ else clk
  { d := { d with
      clk := clk
      mirs := d.mirs.map (fun m => if m = d.clk then clk else m.advance k d.incDue)
      rem := rem2
      q := q
      bslew := bslew
      bslewDue := none
      incDue := none
      stepDue := []
      slewDue := []
      slewStep := 0
      lastStep := if d.stepDue.isEmpty then d.lastStep else some k
      lastMove := if d.stepDue.isEmpty && ended.isNone then d.lastMove else some k }
    epoch := d.clk.now.epoch
    stepped := !d.stepDue.isEmpty || ended.isSome
    steps := d.stepDue
    ended := ended }

/-- A clock at its reset value from tick k on (R87, R390). -/
def Clock.startAt (k : DWord) : Clock :=
  { Clock.reset with segs := [⟨k, Tm.zero, nomInc, 0, false⟩] }

/-- Load a clock with a time at tick k (R145): a new rate segment begins. -/
def Clock.load (c : Clock) (k : DWord) (t : Tm) : Clock :=
  { c with now := t }.newSeg ⟨k, t, c.inc, c.n, false⟩

/-- The twin of a loop. -/
def twinOf (n : Fin 16) : Fin 16 :=
  ⟨if n.val % 2 = 0 then n.val + 1 else n.val - 1, by have := n.isLt; split <;> omega⟩

/-- The loop whose registers govern loop n: the primary's where n is a standby, and up to the next sample close of a former
standby (R134). -/
def State.govern (s : State) (n : Fin 16) : Fin 16 :=
  if (s.loops[n]).role = .standby ∨ (s.loops[n]).wasStandby then twinOf n else n

/-- The loop on whose tally loop n forms its sample instants: the primary's where n is a standby (R134). -/
def State.instantsOf (s : State) (n : Fin 16) : Fin 16 :=
  if (s.loops[n]).role = .standby then twinOf n else n

/-- Number of sample instants of a second at or before ns, fs in Hz (R91). -/
def instantsTo (fs ns : Nat) : Nat :=
  Nat.min fs ((((ns + 1) * (2 * fs) - 1) / secNs + 1) / 2)

/-- Sample instant j of a second [ns] (R91). -/
def instantNs (fs j : Nat) : Nat :=
  (2 * j + 1) * secNs / (2 * fs)

/-- Global index of the sample instants reached by a time. -/
def instantIx (fs : Nat) (t : Tm) : Nat :=
  t.sec.toNat * fs + instantsTo fs t.ns.toNat

/-- Tally time of the sample instant of global index ix (≥ 1) [2^-26 ns]. -/
def instantAt (fs ix : Nat) : Int :=
  (((ix - 1) / fs * secNs + instantNs fs ((ix - 1) % fs)) * 2 ^ 26 : Nat)

/-- The sample instant a loop reaches between two times of the tally that governs it, if any (R91, R92). -/
def Loop.sampleInstant (l : Loop) (fs : Nat) (old new : Tm) (k : DWord) : Loop :=
  let ix := instantIx fs new
  if fs = 0 ∨ ix ≤ instantIx fs old then l
  else { l with
    instTick := some k
    instLo := if ix ≤ 1 then -(secNs * 2 ^ 26 : Nat) else instantAt fs (ix - 1)
    instHi := instantAt fs ix
    instLast := decide (ix % fs = 0) }

/-- The tally's newest rate segment joins those it has had (R41, log 173). -/
def Loop.keepRate (l : Loop) : Loop :=
  match l.tally.segs with
  | [] => l
  | g :: _ => if l.rates.head? = some g then l else { l with rates := g :: l.rates.dropWhile (fun x => decide (x.base = g.base)) }

/-- Advance every tally by one tick, and note the sample instants they reach (R86, R91, R92, R134). Instants that a time set
carries the tally past are reached by no tick and close no sample (DESIGN CHOICE, log 164). -/
def State.tickTallies (s : State) (k : DWord) : State :=
  let old := s.loops
  let mid := Vector.ofFn (fun n : Fin 16 => let l := old[n]; { l with tally := l.tally.advance k l.incDue, incDue := none }.keepRate)
  let s := { s with loops := mid }
  { s with loops := Vector.ofFn (fun n : Fin 16 =>
      let l := mid[n]
      let g := s.instantsOf n
      if s.rb .loop g.val 0 31 && s.rb .loop n.val 0 31 then
        l.sampleInstant (s.rf .loop (s.govern n).val 0x1C 19 0) (old[g]).tally.now (mid[g]).tally.now k
      else l) }

/-- An event whose latching tick has come gets its stamp against the tally, by the segment that contains that tick (R42). -/
def LEv.latch (c : Clock) (k : DWord) (e : LEv) : LEv :=
  match e.raw with
  | some (ke, d) =>
    if ke.toNat ≤ k.toNat then
      let (t, hist, _) := c.stamp26 ke d
      { e with raw := none, r := t + e.r, hist := e.hist || hist }
    else e
  | none => e

/-- An event that labels may pair with gets its stamps once its latching tick has come (R42, R60, R143). -/
def State.stampLabel (s : State) (e : LabEv) : LabEv :=
  if e.stamps.isSome ∨ s.tick.toNat < e.k.toNat then e
  else { e with stamps := some (s.loops.map (fun l => (l.tally.stamp26 e.k e.d).1 - e.dc * 2 ^ 10),
                                s.datums.map (fun d => (d.clk.stamp26 e.k e.d).1 - e.dc * 2 ^ 10)) }

/-- The same for the event of a label that has paired already. -/
def State.stampLbl (s : State) (b : Lbl) : Lbl :=
  match b.of with
  | .event e => { b with of := .event (s.stampLabel e) }
  | .packet _ => b

/-- The events on their way into the detectors, and those that labels name, at a tick (R42, R92, R143). -/
def State.latchEvents (s : State) : State :=
  { s with
    loops := s.loops.map (fun l => { l with
      evs := l.evs.map (LEv.latch l.tally s.tick), shadow := l.shadow.map (LEv.latch l.tally s.tick) })
    slots := s.slots.map (fun q => { q with
      lastEv := q.lastEv.map s.stampLabel, labelQ := q.labelQ.map s.stampLbl }) }

/-- A wait target as an integer [2^-56 ns]. -/
def waitTime (sec v : Nat) : Int :=
  ((sec * secNs * 2 ^ 16 + v : Nat) : Int) * 2 ^ 40

/-- A forward step or set of the clock at this tick carried it past the target, by the mirror of an engine island (R281, R306). -/
def State.steppedPast (s : State) (isl : Fin 2) (d : Fin 8) (target : Int) : Bool :=
  let q := s.datums[d]
  match (q.mirs[isl]).segs with
  | a :: b :: _ => decide (q.lastMove = some s.tick) && decide (a.base = s.tick) && decide (b.at56 s.tick < target)
  | _ => false

/-- A wait for a datum time is met at the first tick at which the clock has reached the target; L where a forward step
carried the clock past it (R281). -/
def State.meetWait (s : State) (isl : Fin 2) (w : Wait) : Wait :=
  match w with
  | .time d sec v none =>
    if ((s.datums[d]).mirs[isl]).now.toInt56 ≥ waitTime sec v then .time d sec v (some (s.steppedPast isl d (waitTime sec v))) else w
  | w => w

/-- The waits of the engines at a tick (R281). -/
def State.meetWaits (s : State) : State :=
  { s with engines := Vector.ofFn (fun e : Fin 8 =>
    let g := s.engines[e]
    { g with wait := g.wait.map (s.meetWait (engIsl e)) }) }

/-- An EPOCH record, with its EPOCHP where a step or set caused it (R46, R190). -/
def State.epochGroup (s : State) (d : Fin 8) (stepOrSet : Bool) (before : Nat) : State :=
  let c := (s.datums[d]).clk.now
  let t := c.export
  let fl := s.nowFlags d
  let ep := stampRec 0x10 d false (b2n stepOrSet) fl t (0#8 :: beBytes 6 c.epoch)
  if stepOrSet then
    s.bookGroup [ep, stampRec 0x1A d false 0 fl t (0#8 :: beBytes 6 before)]
      |>.modDatum d (fun x => { x with lastPre := some s.tick })
  else s.bookGroup [ep]

/-- A BEARING record and its notice (R127, R190, R414). -/
def State.bearing (s : State) (d : Fin 8) (loop : Fin 16) (delta : Int) : State :=
  let s := s.bookGroup [stampRec 0x13 d false 0 (s.nowFlags d) (s.nowStamp d)
    (byte loop.val :: beBytes 6 (BitVec.ofInt 48 (delta / 2 ^ 16)).toNat)]
  s.raise (0x0240 + 2 * d.val) clsA 0x19 (BitVec.ofInt 64 delta)

/-- The tally of loop n moves by `delta` [2^-56 ns] under its synthesizers, whose grids stay (R215). -/
def State.shiftGrids (s : State) (n : Fin 16) (delta : Int) : State :=
  { s with syns := s.syns.map (fun q => if q.assigned = some n then { q with gridOff := q.gridOff + delta } else q) }

/-- A time set takes effect at the present tick (R145, R146): tally, twin standby and datum clock load the new time. The
stamps already taken, the bounds of the sample that awaits its close, the decision of a transaction and the entry into
holdover move with the tally (log entry 108). PBO is reloaded, so the next sample carries NEW_SRC (R93). The outputs do not move (R215). -/
def State.takeSet (s : State) (d : Fin 8) (sd : SetDue) (epochBefore : Nat) : State :=
  let l := s.loops[sd.loop]
  let k := s.tick
  let old := (s.datums[d]).clk.now
  let t := Tm.ofInt56 (l.tally.now.toInt56 + sd.dset)
  let sh : Int := sd.dset / 2 ^ 30
  let mv (e : LEv) : LEv := if e.raw.isSome then e else { e with r := e.r + sh }
  let set1 (x : Loop) : Loop :=
    { x with tally := x.tally.load k t, rates := x.rates.map (fun g => { g with tb := Tm.ofInt56 (g.tb.toInt56 + sd.dset) }), pbo := 0, newSrc := true, evs := x.evs.map mv, shadow := x.shadow.map mv,
             instLo := x.instLo + sh, instHi := x.instHi + sh, hoAt := x.hoAt + sh,
             sw := x.sw.map (fun w => { w with at_ := w.at_ + sh }) }
  let s := (s.modLoop sd.loop set1).shiftGrids sd.loop sd.dset
  let tw := twinOf sd.loop
  let s := if l.role = .primary ∧ (s.loops[tw]).role = .standby then (s.modLoop tw set1).shiftGrids tw sd.dset else s
  let s := s.modDatum d (fun x =>
    let c := x.clk.load k t
    { x with clk := c, mirs := Vector.replicate 2 c, rem := 0, set := true, traceable := true, labelSrc := byte sd.src.val, setDue := none,
             lastStep := some k, lastMove := some k })
  let s := s.epochGroup d true epochBefore
  let fl := s.nowFlags d
  let s := s.bookGroup
    [fullRec 0x14 d false 0 fl t.export (byte sd.src.val :: beBytes 6 t.sec.toNat),
     fullRec 0x15 d false 0 fl old.export (0#8 :: beBytes 6 old.sec.toNat),
     fullRec 0x16 d false 0 fl t.export (beBytes 7 (BitVec.ofInt 56 (l.pbo / 2 ^ 8)).toNat)]
  s.raise (0x0240 + 2 * d.val) clsA 0x18 (args8 ([byte sd.src.val, 0#8] ++ beBytes 6 t.sec.toNat))

/-- One datum clock's records and notices of a tick (R38, R46, R127, R128). The BEARING record of a slew ended by BSLEW 0
names the clock's assigned loop, loop 0 where none is assigned (log entry 109). -/
def State.tickRecords (s : State) (d : Fin 8) (o : TickOut) : State :=
  let s := match o.d.setDue with
    | some sd => s.takeSet d sd o.epoch
    | none =>
      if o.d.clk.now.epoch ≠ o.epoch then s.epochGroup d o.stepped o.epoch else s
  let s := o.steps.foldl (fun s p => s.bearing d p.1 p.2) s
  match o.ended with
  | some delta => s.bearing d ((s.datums[d]).assigned.getD 0) delta
  | none => s

/-- The engine island whose mirror is sound (R380). -/
def State.mirrorIsl (s : State) : Option (Fin 2) :=
  if s.blkUp 0x52 then some 0 else if s.blkUp 0x53 then some 1 else none

/-- A clock of an isolated datum island at a tick: the mirrors go on, the clock itself stands until it is reloaded (R380, log
158). -/
def Datum.coast (d : Datum) (k : DWord) (isl : Fin 2) : Datum :=
  { ({ d with clk := d.mirs[isl] }.advance k).d with clk := d.clk }

/-- A datum clock at a tick. -/
def State.tickDatum (s : State) (d : Fin 8) (k : DWord) : TickOut :=
  let o := (s.datums[d]).advance k
  if s.datUp (datIsl d) then o else { o with d := (s.datums[d]).coast k (s.mirrorIsl.getD 0) }

/-- The tick (R14, R35): tick indices, tallies, datum clocks, mirrors, records. -/
def State.tickClocks (s : State) : State :=
  let k := s.tick + 1
  let s := { s with tick := k, islandTick := s.islandTick.map (· + 1) }
  let s := s.tickTallies k
  let outs := Vector.ofFn (fun d : Fin 8 => s.tickDatum d k)
  let s := { s with datums := outs.map (·.d) }
  (overFin 8 s (fun d s => if s.datUp (datIsl d) then s.tickRecords d outs[d] else s)).latchEvents.meetWaits

/-! Words at their apply tick (R18 to R20, R38, R127). -/

/-- A steering word's source may steer this destination: the assigned loop, neither failed nor isolated (R20, R377). -/
def State.accepts (s : State) (assigned : Option (Fin 16)) (src : Fin 16) : Bool :=
  assigned == some src && (s.loops[src]).role != .failed
    && (s.fm.blks[finMod 128 (0x11 + src.val % 2)]).st != .testing

/-- The datum clock decides a Δ by the values in force (R127): true = STEP. -/
def State.deltaSteps (s : State) (d : Fin 8) (delta : Int) : Bool :=
  let x := s.datums[d]
  if x.bslewDue.getD x.bslew = 0 then true
  else match s.rf .datum d.val 4 31 30 with
    | 1 => false
    | 2 => decide (delta.natAbs > (s.r .datum d.val 0x0C).toNat * 2 ^ 16)
    | _ => true

/-- Steps and sets of this clock may act at the coming tick (R38): the last lies 781,250 ticks before it, and none acts
there already. -/
def State.spacingMet (s : State) (d : Fin 8) : Bool :=
  let x := s.datums[d]
  x.stepDue.isEmpty && x.setDue.isNone && (match x.lastStep with
    | none => true
    | some k => s.passed k (msTicks - 1))

/-- A step or set that arrives now acts at the coming tick; it is held behind any that is held already (R38). -/
def State.actsNow (s : State) (d : Fin 8) : Bool :=
  s.spacingMet d && (s.datums[d]).heldSteps.isEmpty && (s.datums[d]).heldSets.isEmpty

/-- A Δ reaches its apply tick. -/
def State.applyDelta (s : State) (d : Fin 8) (loop : Fin 16) (delta : Int) : State :=
  if s.deltaSteps d delta = false then s.modDatum d (fun x => { x with slewDue := x.slewDue ++ [(loop, delta)] })
  else if s.actsNow d then s.modDatum d (fun x => { x with stepDue := x.stepDue ++ [(loop, delta)] })
  else s.modDatum d (fun x => { x with heldSteps := x.heldSteps ++ [(loop, delta)] })

/-- What other loops than `keep` have had held at a datum clock is foreign once its assignment has changed (R20, R38,
R140). -/
def State.dropHeld (s : State) (d : Fin 8) (keep : Option (Fin 16)) : State :=
  let x := s.datums[d]
  let st := x.heldSteps.filter (fun p => decide (keep = some p.1))
  let se := x.heldSets.filter (fun q => decide (keep = some q.loop))
  let k := (x.heldSteps.length - st.length) + (x.heldSets.length - se.length)
  if k = 0 then s
  else (s.modDatum d (fun y => { y with heldSteps := st, heldSets := se })).count .datum d.val 0x14 31 0 k

/-- One word takes effect at a datum clock, or is discarded as foreign (R20). The end of an assignment is no word of the
crossing and counts nothing. -/
def State.wordToDatum (s : State) (d : Fin 8) (w : XWord) : State :=
  match w.pay with
  | .release =>
    if (s.datums[d]).assigned = some w.src then
      (s.modDatum d (fun y => { y with assigned := none, traceable := false })).dropHeld d none
    else s
  | pay =>
    if s.accepts (s.datums[d]).assigned w.src = false then s.count .datum d.val 0x14 31 0
    else match pay with
      | .inc n => s.modDatum d (fun x => { x with incDue := some n })
      | .delta v => s.applyDelta d w.src v
      | .tset dset src =>
        let sd : SetDue := ⟨w.src, dset, src⟩
        if s.actsNow d then s.modDatum d (fun x => { x with setDue := some sd })
        else s.modDatum d (fun x => { x with heldSets := x.heldSets ++ [sd] })
      | _ => s

/-- A SELECT notice (R118, R414). -/
def State.selectNotice (s : State) (n : Fin 16) (old new : Option (Fin 96)) (reason : Nat) : State :=
  let b (o : Option (Fin 96)) : Byte := match o with
    | some x => byte x.val
    | none => 0xFF
  s.raise (0x0200 + 4 * n.val + 1) clsA 0x11 (args8 [b old, b new, byte reason])

/-- The datum clock whose time a loop's records carry: the one it steers, else DATUM0 (R189). -/
def State.loopDatum (s : State) (n : Fin 16) : Fin 8 :=
  (fin? 8 (s.rf .loop n.val 0 27 24)).getD 0

/-- A SWITCH record (R190). -/
def State.switchRecord (s : State) (n : Fin 16) (old new : Option (Fin 96)) (reason : Nat) (delta : Int) : State :=
  let b (o : Option (Fin 96)) : Byte := match o with
    | some x => byte x.val
    | none => 0xFF
  let d := s.loopDatum n
  let q := delta / 2 ^ 16
  s.bookGroup [stampRec 0x12 d false (b2n (satS 32 q ≠ q)) (s.nowFlags d) (s.nowStamp d)
    ([byte (n.val * 16 + reason), b old, b new] ++ beBytes 4 (BitVec.ofInt 32 (satS 32 q)).toNat)]

/-- At the apply tick of an incoming loop's first word: SELECT and SWITCH with reason HANDOVER, once (R137). -/
def State.handoverNote (s : State) (w : XWord) : State :=
  if w.take ∧ (s.loops[w.src]).handNote then
    let s := s.modLoop w.src (fun l => { l with handNote := false })
    let sel := (s.loops[w.src]).sel
    (s.switchRecord w.src sel sel 5 0).selectNotice w.src sel sel 5
  else s

/-- The loop feedback word of a synthesizer (R208). -/
def nfbOf (n0 : DWord) (n c : Int) : DWord :=
  BitVec.ofInt 64 (n0.toNat + roundDiv (n0.toNat * (n + c)) (2 ^ 72))

/-- Load a fractional frequency (R204, R208), at the rotator of every port that follows the synthesizer too, 0 where no loop is
assigned to it (R236). -/
def State.loadWord (s : State) (y : Fin 9) (n : Int) : State :=
  let r := if (s.syns[y]).assigned.isSome then n else 0
  let s := s.modSyn y (fun q => { q with n := n, nfb := nfbOf q.n0 n q.c })
  overFin 16 s (fun p s => if s.rf .port p.val 0 23 20 = y.val then s.modPort p (fun q => { q with rotN := r }) else s)

/-- A synthesizer without an assigned loop: the ports that follow it transmit at oven rate (R236). -/
def State.zeroRotators (s : State) (y : Fin 8) : State :=
  overFin 16 s (fun p s => if s.rf .port p.val 0 23 20 = y.val then s.modPort p (fun q => { q with rotN := 0 }) else s)

/-- One word takes effect at a synthesizer (R13, R18, R20, R204, R212): out of service or in a lock sequence it is kept for
the lock that loads it; a word that loads is the most recent one, and none is kept beside it. -/
def State.wordToSyn (s : State) (y : Fin 8) (w : XWord) : State :=
  let i := synIx y
  match w.pay with
  | .release =>
    if (s.syns[i]).assigned = some w.src then (s.modSyn i (fun x => { x with assigned := none })).zeroRotators y else s
  | .nfb n =>
    if s.accepts (s.syns[i]).assigned w.src = false then s.count .synth y.val 0x18 31 0
    else match (s.syns[i]).phase with
      | .locking => s.modSyn i (fun x => { x with heldN := some n })
      | .short => s.modSyn i (fun x => { x with heldN := some n })
      | .holding => s
      | .off => s.modSyn i (fun x => { x with heldN := some n })
      | _ => (s.modSyn i (fun x => { x with heldN := none })).loadWord i n
  | _ => s

/-- One word takes effect at a tally (R86). -/
def State.wordToTally (s : State) (n : Fin 16) (w : XWord) : State :=
  match w.pay with
  | .inc f => s.modLoop n (fun l => { l with incDue := some f })
  | _ => s

/-- A word is due at its destination: readable there, its apply tick at or before the coming tick (R18, R19). -/
def State.wordDue (s : State) (dst : Dest) (w : XWord) : Bool :=
  decide (w.dst = dst) && (w.arrived || decide (w.dst = .tally w.src)) && decide (w.apply.toNat ≤ s.tick.toNat + 1)

/-- The tally difference that a twin hand-over gives a synthesizer [2^-56 ns] (R137, R215). -/
def State.handDiff (s : State) (old : Option (Fin 16)) (new : Fin 16) : Int :=
  match old with
  | some o => if o = twinOf new then (s.loops[new]).tally.now.toInt56 - (s.loops[o]).tally.now.toInt56 else 0
  | none => 0

/-- An assignment passes at the apply tick of the incoming loop's first word (R20, R137). A synthesizer's grid stays where
the outgoing twin's tally had it (R215). -/
def State.passTo (s : State) (dst : Dest) (w : XWord) : State :=
  if w.take = false ∨ (s.loops[w.src]).role = .failed then s
  else match dst with
    | .datum d => (s.modDatum d (fun x => { x with assigned := some w.src })).dropHeld d (some w.src)
    | .syn y => s.modSyn (synIx y) (fun x => { x with
        assigned := some w.src, gridOff := x.gridOff + s.handDiff x.assigned w.src })
    | .tally _ => s

/-- Every due word of one destination takes effect, in order (R15, R18). Assignments pass first: a word of the outgoing
loop never takes effect at the tick of the incoming loop's first word (R20). -/
def State.applyDest (s : State) (dst : Dest) : State :=
  let due := s.xwords.filter (s.wordDue dst)
  let s := { s with xwords := s.xwords.filter (fun w => !s.wordDue dst w) }
  let s := due.foldl (fun s w => s.passTo dst w) s
  let s := due.foldl (fun s w =>
    let s := match dst with
      | .datum d => s.wordToDatum d w
      | .syn y => s.wordToSyn y w
      | .tally n => s.wordToTally n w
    s.handoverNote w) s
  (s.refreshOuts).qlRefresh

/-- Send a word from a loop with apply tick = issue tick + 32 (R18). -/
def State.sendWord (s : State) (src : Fin 16) (dst : Dest) (pay : Pay) (take : Bool) : State :=
  { s with xwords := s.xwords ++ [⟨src, dst, pay, s.tick + 32, false, take⟩] }

/-- The loop issues the words of frequency f: to its tally, its datum clock and its synthesizer (R103). -/
def State.issueWords (s : State) (n : Fin 16) (f : Int) : State :=
  let l := s.loops[n]
  let s := s.sendWord n (.tally n) (.inc f) l.handNote
  let s := match fin? 8 (s.rf .loop n.val 0 27 24) with
    | some d => s.sendWord n (.datum d) (.inc f) l.takeD
    | none => s
  let s := match fin? 8 (s.rf .loop n.val 0 23 20) with
    | some y => s.sendWord n (.syn y) (.nfb f) l.takeS
    | none => s
  s.modLoop n (fun l => { l with takeD := false, takeS := false })

/-- Held steps and the oldest held set act at the coming tick (R38): each held Δ is decided anew (R127); a second set
waits for its own spacing. -/
def State.releaseHeld (s : State) (d : Fin 8) : State :=
  let x := s.datums[d]
  let s := s.modDatum d (fun y => { y with heldSteps := [], heldSets := x.heldSets.tail, setDue := x.heldSets.head? })
  x.heldSteps.foldl (fun s p =>
    if s.deltaSteps d p.2 then s.modDatum d (fun y => { y with stepDue := y.stepDue ++ [p] })
    else s.modDatum d (fun y => { y with slewDue := y.slewDue ++ [p] })) s

/-- What a failed loop has sent to a datum clock and has not yet taken effect (R20). -/
def Datum.pendingOf (x : Datum) (n : Fin 16) : Nat :=
  let mine (l : List (Fin 16 × Int)) : Nat := (l.filter (fun p => decide (p.1 = n))).length
  mine x.stepDue + mine x.heldSteps + mine x.slewDue + (x.heldSets.filter (fun q => decide (q.loop = n))).length
    + b2n (x.setDue.any (fun q => decide (q.loop = n))) + b2n (decide (x.assigned = some n) && x.incDue.isSome)

/-- The datum clock without it. -/
def Datum.dropLoop (x : Datum) (n : Fin 16) : Datum :=
  let keep (l : List (Fin 16 × Int)) : List (Fin 16 × Int) := l.filter (fun p => decide (p.1 ≠ n))
  { x with
    stepDue := keep x.stepDue
    heldSteps := keep x.heldSteps
    slewDue := keep x.slewDue
    heldSets := x.heldSets.filter (fun q => decide (q.loop ≠ n))
    setDue := x.setDue.filter (fun q => decide (q.loop ≠ n))
    incDue := if x.assigned = some n then none else x.incDue }

/-- A loop is declared failed: its words that have not yet taken effect are foreign at their consumers (R20, R137). -/
def State.dropWords (s : State) (n : Fin 16) : State :=
  let s := overFin 8 s (fun d s =>
    let k := (s.datums[d]).pendingOf n
    if k = 0 then s else (s.modDatum d (fun x => x.dropLoop n)).count .datum d.val 0x14 31 0 k)
  overFin 8 s (fun y s =>
    let q := s.syns[synIx y]
    if q.assigned = some n ∧ q.heldN.isSome then
      (s.modSyn (synIx y) (fun x => { x with heldN := none })).count .synth y.val 0x18 31 0
    else s)

/-- The bearing offset of a loop's datum clock [2^-56 ns] (R87, R125). -/
def State.bearingOffset (s : State) (n : Fin 16) : Int :=
  match fin? 8 (s.rf .loop n.val 0 27 24) with
  | none => 0
  | some d =>
    let r : Int := (wrapNs * 2 ^ 56 : Nat)
    let x := ((s.datums[d]).clk.now.toInt56 - (s.loops[n]).tally.now.toInt56) % r
    if x ≥ r / 2 then x - r else x

end Sys2Proof.Machine
end

