-- ==== Sys2Proof/Machine/Nimyor.lean ====
section
/-! DEFINITION. The Nimyor instructions over the registers of one target (R276 to R278, R294 to R304, R310, R314), their
decoding from code words (R295, R296), and the paths of a loop program (R287). -/

namespace Sys2Proof.Machine

/-- Fault causes (R291). -/
def causeIllegal : Byte := 1
def causeFetch : Byte := 2
def causeAlign : Byte := 3
def causeWindow : Byte := 4
def causeWriteRo : Byte := 5
def causeDivZero : Byte := 6
def causeStack : Byte := 7
def causeWatchdog : Byte := 8
def causeEcc : Byte := 9

/-- The registers after an instruction, or the fault it raises; an instruction that faults writes nothing (R313). -/
abbrev NRes := Except Byte Cpu

/-! ## Flags and register writes -/

/-- A flag of F (R277). -/
def Cpu.flag (c : Cpu) (i : Nat) : Bool :=
  c.f.getLsbD i

/-- Set a flag of F. -/
def Cpu.setFlag (c : Cpu) (i : Nat) (b : Bool) : Cpu :=
  { c with f := if b then c.f ||| BitVec.ofNat 6 (2 ^ i) else c.f &&& ~~~(BitVec.ofNat 6 (2 ^ i)) }

def Cpu.setZ (c : Cpu) (b : Bool) : Cpu := c.setFlag 0 b
def Cpu.setN (c : Cpu) (b : Bool) : Cpu := c.setFlag 1 b
def Cpu.setC (c : Cpu) (b : Bool) : Cpu := c.setFlag 2 b
def Cpu.setV (c : Cpu) (b : Bool) : Cpu := c.setFlag 3 b
/-- Q is set when a sat acts, never cleared (R297). -/
def Cpu.orQ (c : Cpu) (b : Bool) : Cpu := if b then c.setFlag 4 true else c
def Cpu.setL (c : Cpu) (b : Bool) : Cpu := c.setFlag 5 b

/-- Z and N of a 64-bit result. -/
def Cpu.zn (c : Cpu) (r : DWord) : Cpu :=
  (c.setZ (r == 0)).setN r.msb

/-- Write a general register. -/
def Cpu.put (c : Cpu) (rd : Fin 32) (v : DWord) : Cpu :=
  { c with g := c.g.set rd v }

/-- Write an accumulator. -/
def Cpu.putAcc (c : Cpu) (d : Fin 4) (v : BitVec 128) : Cpu :=
  { c with acc := c.acc.set d v }

/-- The next word in sequence. -/
def Cpu.next (c : Cpu) : Cpu :=
  { c with pc := c.pc + 1 }

/-- An instruction that runs on to the next word. -/
def Cpu.ok (c : Cpu) : NRes :=
  .ok c.next

/-- Rounding by CW.RND of num / den, den > 0 (R278). -/
def Cpu.rnd (c : Cpu) (num : Int) (den : Nat) : Int :=
  match c.cw.toNat / 2 ^ 30 with
  | 1 => truncDiv num den
  | 2 => num / (den : Int)
  | _ => roundDiv num den

/-- The exact value fits s64. -/
def fits64 (x : Int) : Bool :=
  decide (-(2 ^ 63 : Int) ≤ x ∧ x < 2 ^ 63)

/-- The exact value fits s128. -/
def fits128 (x : Int) : Bool :=
  decide (-(2 ^ 127 : Int) ≤ x ∧ x < 2 ^ 127)

/-! ## Moves and control registers (R299) -/

def opNop (c : Cpu) : NRes := c.ok

def opMov (rd ra : Fin 32) (c : Cpu) : NRes := (c.put rd c.g[ra]).ok

def opLdi (rd : Fin 32) (hw : Fin 4) (keep : Bool) (imm : BitVec 16) (c : Cpu) : NRes :=
  let v : DWord := imm.zeroExtend 64 <<< (16 * hw.val)
  let m : DWord := (0xFFFF : DWord) <<< (16 * hw.val)
  (c.put rd (if keep then (c.g[rd] &&& ~~~m) ||| v else v)).ok

/-- An index at or above CONST_W faults with WINDOW in an engine; verification excludes it in a loop (R299). A constant
in uncorrectable error, whose index `bad` lists, faults with ECC (R313). -/
def opLdc (consts : List DWord) (bad : List Nat) (rd : Fin 32) (idx : BitVec 14) (c : Cpu) : NRes :=
  match consts[idx.toNat]? with
  | some v => if bad.contains idx.toNat then .error causeEcc else (c.put rd v).ok
  | none => .error causeWindow

def opRdf (rd : Fin 32) (c : Cpu) : NRes := (c.put rd (c.f.zeroExtend 64)).ok

def opWrf (ra : Fin 32) (c : Cpu) : NRes := { c with f := c.g[ra].setWidth 6 }.ok

def opRdcw (rd : Fin 32) (c : Cpu) : NRes := (c.put rd (c.cw.zeroExtend 64)).ok

/-- CW written with v: bits 24:0 read 0; in a loop datapath SATA stays 1 (R278). -/
def cwWrite (isLoop : Bool) (v : Word) : Word :=
  (v &&& 0xFE000000) ||| (if isLoop then 0x20000000 else 0)

def opWrcw (isLoop : Bool) (ra : Fin 32) (c : Cpu) : NRes :=
  { c with cw := cwWrite isLoop (c.g[ra].setWidth 32) }.ok

/-! ## Integer arithmetic and logic (R300) -/

/-- Result of a wrapping addition a + b + k: Z N C V. -/
def Cpu.addRes (c : Cpu) (a b : DWord) (k : Nat) : DWord × Cpu :=
  let r := a + b + BitVec.ofNat 64 k
  (r, ((c.zn r).setC (decide (a.toNat + b.toNat + k ≥ 2 ^ 64))).setV (!fits64 (a.toInt + b.toInt + k)))

/-- Result of a wrapping subtraction a − b − k: Z N C V. -/
def Cpu.subRes (c : Cpu) (a b : DWord) (k : Nat) : DWord × Cpu :=
  let r := a - b - BitVec.ofNat 64 k
  (r, ((c.zn r).setC (decide (a.toNat < b.toNat + k))).setV (!fits64 (a.toInt - b.toInt - k)))

/-- A saturating result: Z N V Q. -/
def Cpu.satRes (c : Cpu) (rd : Fin 32) (x : Int) : Cpu :=
  let r := BitVec.ofInt 64 (satS 64 x)
  (((c.zn r).setV (!fits64 x)).orQ (!fits64 x)).put rd r

/-- A result with Z and N. -/
def Cpu.logRes (c : Cpu) (rd : Fin 32) (r : DWord) : Cpu :=
  (c.zn r).put rd r

def opAdd (rd ra rb : Fin 32) (c : Cpu) : NRes :=
  let r := c.addRes c.g[ra] c.g[rb] 0
  (r.2.put rd r.1).ok

def opAdc (rd ra rb : Fin 32) (c : Cpu) : NRes :=
  let r := c.addRes c.g[ra] c.g[rb] (b2n (c.flag 2))
  (r.2.put rd r.1).ok

def opSub (rd ra rb : Fin 32) (c : Cpu) : NRes :=
  let r := c.subRes c.g[ra] c.g[rb] 0
  (r.2.put rd r.1).ok

def opSbb (rd ra rb : Fin 32) (c : Cpu) : NRes :=
  let r := c.subRes c.g[ra] c.g[rb] (b2n (c.flag 2))
  (r.2.put rd r.1).ok

def opAdds (rd ra rb : Fin 32) (c : Cpu) : NRes := (c.satRes rd (c.g[ra].toInt + c.g[rb].toInt)).ok

def opSubs (rd ra rb : Fin 32) (c : Cpu) : NRes := (c.satRes rd (c.g[ra].toInt - c.g[rb].toInt)).ok

def opNeg (rd ra : Fin 32) (c : Cpu) : NRes :=
  let r := c.subRes 0 c.g[ra] 0
  (r.2.put rd r.1).ok

def opNegs (rd ra : Fin 32) (c : Cpu) : NRes := (c.satRes rd (-c.g[ra].toInt)).ok

def opAbs (rd ra : Fin 32) (c : Cpu) : NRes := (c.satRes rd c.g[ra].toInt.natAbs).ok

def opMin (rd ra rb : Fin 32) (c : Cpu) : NRes :=
  (c.logRes rd (if c.g[ra].toInt ≤ c.g[rb].toInt then c.g[ra] else c.g[rb])).ok

def opMax (rd ra rb : Fin 32) (c : Cpu) : NRes :=
  (c.logRes rd (if c.g[ra].toInt ≥ c.g[rb].toInt then c.g[ra] else c.g[rb])).ok

def opCmp (ra rb : Fin 32) (c : Cpu) : NRes := (c.subRes c.g[ra] c.g[rb] 0).2.ok

def opTst (ra rb : Fin 32) (c : Cpu) : NRes := ((c.zn (c.g[ra] &&& c.g[rb])).setV false).ok

def opAddi (rd ra : Fin 32) (imm : BitVec 14) (c : Cpu) : NRes :=
  let r := c.addRes c.g[ra] (imm.signExtend 64) 0
  (r.2.put rd r.1).ok

def opCmpi (ra : Fin 32) (imm : BitVec 14) (c : Cpu) : NRes := (c.subRes c.g[ra] (imm.signExtend 64) 0).2.ok

def opAndi (rd ra : Fin 32) (imm : BitVec 14) (c : Cpu) : NRes := (c.logRes rd (c.g[ra] &&& imm.zeroExtend 64)).ok

def opOri (rd ra : Fin 32) (imm : BitVec 14) (c : Cpu) : NRes := (c.logRes rd (c.g[ra] ||| imm.zeroExtend 64)).ok

def opXori (rd ra : Fin 32) (imm : BitVec 14) (c : Cpu) : NRes := (c.logRes rd (c.g[ra] ^^^ imm.zeroExtend 64)).ok

def opTsti (ra : Fin 32) (imm : BitVec 14) (c : Cpu) : NRes :=
  ((c.zn (c.g[ra] &&& imm.zeroExtend 64)).setV false).ok

def opAnd (rd ra rb : Fin 32) (c : Cpu) : NRes := (c.logRes rd (c.g[ra] &&& c.g[rb])).ok

def opOr (rd ra rb : Fin 32) (c : Cpu) : NRes := (c.logRes rd (c.g[ra] ||| c.g[rb])).ok

def opXor (rd ra rb : Fin 32) (c : Cpu) : NRes := (c.logRes rd (c.g[ra] ^^^ c.g[rb])).ok

def opAndn (rd ra rb : Fin 32) (c : Cpu) : NRes := (c.logRes rd (c.g[ra] &&& ~~~c.g[rb])).ok

/-- Leading zero bits of a 64-bit value. -/
def clz64 (a : DWord) : Nat :=
  if a = 0 then 64 else 63 - a.toNat.log2

def opClz (rd ra : Fin 32) (c : Cpu) : NRes :=
  let r := BitVec.ofNat 64 (clz64 c.g[ra])
  ((c.setZ (r == 0)).put rd r).ok

def opMul (rd ra rb : Fin 32) (c : Cpu) : NRes :=
  let x := c.g[ra].toInt * c.g[rb].toInt
  let r := BitVec.ofInt 64 x
  (((c.zn r).setV (!fits64 x)).put rd r).ok

/-! ## Shifts (R301) -/

/-- Shift amount; none for a reserved X or an unread RB that is not 0 (R296, R301). -/
def Cpu.shiftAmt (c : Cpu) (rb : Fin 32) (x : BitVec 9) : Option Nat :=
  if x.getLsbD 8 then (if x.toNat % 256 ≥ 64 ∨ rb.val ≠ 0 then none else some (x.toNat % 64))
  else if x.toNat ≠ 0 then none else some (c.g[rb].toNat % 128)

def opShl (rd ra rb : Fin 32) (x : BitVec 9) (c : Cpu) : NRes :=
  match c.shiftAmt rb x with
  | none => .error causeIllegal
  | some s =>
    let a := c.g[ra]
    let r := a <<< s
    let cy := if s = 0 then false else if s < 64 then a.getLsbD (64 - s) else if s = 64 then a.getLsbD 63 else false
    (((c.zn r).setC cy).put rd r).ok

def opShr (rd ra rb : Fin 32) (x : BitVec 9) (c : Cpu) : NRes :=
  match c.shiftAmt rb x with
  | none => .error causeIllegal
  | some s =>
    let a := c.g[ra]
    let r := a >>> s
    let cy := if s = 0 then false else if s < 64 then a.getLsbD (s - 1) else if s = 64 then a.getLsbD 0 else false
    (((c.zn r).setC cy).put rd r).ok

def opSar (rd ra rb : Fin 32) (x : BitVec 9) (c : Cpu) : NRes :=
  match c.shiftAmt rb x with
  | none => .error causeIllegal
  | some s =>
    let a := c.g[ra]
    let r := a.sshiftRight s
    let cy := if s = 0 then false else if s < 64 then a.getLsbD (s - 1) else if s = 64 then a.getLsbD 0 else false
    (((c.zn r).setC cy).put rd r).ok

def opRsr (rd ra rb : Fin 32) (x : BitVec 9) (c : Cpu) : NRes :=
  match c.shiftAmt rb x with
  | none => .error causeIllegal
  | some s => (c.logRes rd (BitVec.ofInt 64 (c.rnd c.g[ra].toInt (2 ^ s)))).ok

/-! ## Accumulators (R302) -/

/-- acc_write of an exact value: Z N V Q. -/
def Cpu.accWrite (c : Cpu) (d : Fin 4) (x : Int) : Cpu :=
  let sata := c.cw.getLsbD 29
  let out := !fits128 x
  let r : BitVec 128 := BitVec.ofInt 128 (if sata then satS 128 x else x)
  ((((c.setZ (r == 0)).setN r.msb).setV out).orQ (sata && out)).putAcc d r

/-- The exact product read by X[1:0]: bit 1 = Ga unsigned, bit 0 = Gb unsigned. -/
def Cpu.product (c : Cpu) (ra rb : Fin 32) (x : BitVec 8) : Int :=
  (if x.getLsbD 1 then (c.g[ra].toNat : Int) else c.g[ra].toInt) * (if x.getLsbD 0 then (c.g[rb].toNat : Int) else c.g[rb].toInt)

def opMula (d : Fin 4) (ra rb : Fin 32) (x : BitVec 8) (c : Cpu) : NRes :=
  if x.toNat ≥ 4 then .error causeIllegal else (c.accWrite d (c.product ra rb x)).ok

def opMac (d : Fin 4) (ra rb : Fin 32) (x : BitVec 8) (c : Cpu) : NRes :=
  if x.toNat ≥ 4 then .error causeIllegal else (c.accWrite d (c.acc[d].toInt + c.product ra rb x)).ok

def opMsu (d : Fin 4) (ra rb : Fin 32) (x : BitVec 8) (c : Cpu) : NRes :=
  if x.toNat ≥ 4 then .error causeIllegal else (c.accWrite d (c.acc[d].toInt - c.product ra rb x)).ok

/-- An accumulator result with Z and N. -/
def Cpu.accRes (c : Cpu) (d : Fin 4) (r : BitVec 128) : Cpu :=
  ((c.setZ (r == 0)).setN r.msb).putAcc d r

def opAcmov (d : Fin 4) (ra : Fin 32) (x : BitVec 8) (c : Cpu) : NRes :=
  if x.toNat > 64 then .error causeIllegal else (c.accRes d (BitVec.ofInt 128 (c.g[ra].toInt * 2 ^ x.toNat))).ok

def opAcset (d : Fin 4) (ra rb : Fin 32) (c : Cpu) : NRes := (c.putAcc d (c.g[ra] ++ c.g[rb])).ok

def opAchi (rd : Fin 32) (a : Fin 4) (c : Cpu) : NRes := (c.put rd (c.acc[a].extractLsb' 64 64)).ok

def opAclo (rd : Fin 32) (a : Fin 4) (c : Cpu) : NRes := (c.put rd (c.acc[a].extractLsb' 0 64)).ok

def opAcadd (d a b : Fin 4) (c : Cpu) : NRes := (c.accWrite d (c.acc[a].toInt + c.acc[b].toInt)).ok

def opAcsub (d a b : Fin 4) (c : Cpu) : NRes := (c.accWrite d (c.acc[a].toInt - c.acc[b].toInt)).ok

def opAcneg (d a : Fin 4) (c : Cpu) : NRes := (c.accWrite d (-c.acc[a].toInt)).ok

def opAcshl (d a : Fin 4) (x : BitVec 8) (c : Cpu) : NRes :=
  if x.toNat ≥ 128 then .error causeIllegal else (c.accWrite d (c.acc[a].toInt * 2 ^ x.toNat)).ok

def opAcshr (d a : Fin 4) (x : BitVec 8) (c : Cpu) : NRes :=
  if x.toNat ≥ 128 then .error causeIllegal
  else (c.accRes d (BitVec.ofInt 128 (c.rnd c.acc[a].toInt (2 ^ x.toNat)))).ok

def opAcn (rd : Fin 32) (a : Fin 4) (x : BitVec 8) (c : Cpu) : NRes :=
  if x.toNat ≥ 128 then .error causeIllegal else (c.satRes rd (c.rnd c.acc[a].toInt (2 ^ x.toNat))).ok

def opAccmp (a b : Fin 4) (c : Cpu) : NRes :=
  let x := c.acc[a].toInt - c.acc[b].toInt
  ((c.setZ (decide (x = 0))).setN (decide (x < 0))).ok

/-- rnd(√v): nearest under round_ne (no tie exists), floor otherwise (R302). -/
def Cpu.rootOf (c : Cpu) (v : Nat) : Nat :=
  match c.cw.toNat / 2 ^ 30 with
  | 1 => isqrt v
  | 2 => isqrt v
  | _ => roundSqrt v 1

def opAcsqrt (rd : Fin 32) (a : Fin 4) (c : Cpu) : NRes :=
  let x := c.acc[a].toInt
  let r := if x < 0 then 0 else BitVec.ofNat 64 (c.rootOf x.toNat)
  (((c.zn r).setV (decide (x < 0))).put rd r).ok

/-! ## Divide (R303) -/

/-- rnd(a / b), b ≠ 0. -/
def Cpu.divInt (c : Cpu) (a b : Int) : Int :=
  if b < 0 then c.rnd (-a) b.natAbs else c.rnd a b.natAbs

/-- The result of a division by zero with CW.DZ = 1: Q and V set. -/
def Cpu.divZero (c : Cpu) (rd : Fin 32) (r : DWord) : NRes :=
  if c.cw.getLsbD 28 then (((c.zn r).setV true).orQ true |>.put rd r).ok else .error causeDivZero

/-- Saturation toward the dividend's sign. -/
def signSat (a : Int) : DWord :=
  if a = 0 then 0 else if a < 0 then BitVec.ofInt 64 (-(2 ^ 63)) else BitVec.ofInt 64 (2 ^ 63 - 1)

def opDiv (rd ra rb : Fin 32) (c : Cpu) : NRes :=
  if c.g[rb] = 0 then c.divZero rd (signSat c.g[ra].toInt)
  else (c.satRes rd (c.divInt c.g[ra].toInt c.g[rb].toInt)).ok

def opDivu (rd ra rb : Fin 32) (c : Cpu) : NRes :=
  if c.g[rb] = 0 then c.divZero rd (if c.g[ra] = 0 then 0 else BitVec.allOnes 64)
  else (c.logRes rd (BitVec.ofInt 64 (c.rnd c.g[ra].toNat c.g[rb].toNat))).ok

def opAcdiv (rd : Fin 32) (a : Fin 4) (ra : Fin 32) (c : Cpu) : NRes :=
  if c.g[ra] = 0 then c.divZero rd (signSat c.acc[a].toInt)
  else (c.satRes rd (c.divInt c.acc[a].toInt c.g[ra].toInt)).ok

/-! ## Control flow (R304) -/

/-- COND (R298); the reserved code is none. -/
def Cpu.cond (c : Cpu) (k : BitVec 4) : Option Bool :=
  let z := c.flag 0
  let n := c.flag 1
  let v := c.flag 3
  match k.toNat with
  | 0 => some true
  | 1 => some z
  | 2 => some !z
  | 3 => some (n != v)
  | 4 => some (n == v)
  | 5 => some (z || n != v)
  | 6 => some (!z && n == v)
  | 7 => some (c.flag 2)
  | 8 => some !(c.flag 2)
  | 9 => some n
  | 10 => some !n
  | 11 => some v
  | 12 => some !v
  | 13 => some (c.flag 4)
  | 14 => some (c.flag 5)
  | _ => none

/-- Branch target; none at or beyond CODE_W, or below 0. -/
def Cpu.target (c : Cpu) (codeW : Nat) (off : BitVec 20) : Option Nat :=
  let t := (c.pc : Int) + off.toInt
  if 0 ≤ t ∧ t < codeW then some t.toNat else none

def opB (codeW : Nat) (cond : BitVec 4) (off : BitVec 20) (c : Cpu) : NRes :=
  match c.cond cond with
  | none => .error causeIllegal
  | some false => c.ok
  | some true =>
    match c.target codeW off with
    | none => .error causeFetch
    | some t => .ok { c with pc := t }

def opCall (codeW : Nat) (cond : BitVec 4) (off : BitVec 20) (c : Cpu) : NRes :=
  match c.cond cond with
  | none => .error causeIllegal
  | some false => c.ok
  | some true =>
    match c.target codeW off with
    | none => .error causeFetch
    | some t => if c.stack.length ≥ 16 then .error causeStack else .ok { c with pc := t, stack := (c.pc + 1) :: c.stack }

def opRet (codeW : Nat) (c : Cpu) : NRes :=
  match c.stack with
  | [] => .error causeStack
  | t :: r => if t ≥ codeW then .error causeFetch else .ok { c with pc := t, stack := r }

def opBr (codeW : Nat) (ra : Fin 32) (c : Cpu) : NRes :=
  let t := c.g[ra].toNat
  if t ≥ 2 ^ 14 ∨ t ≥ codeW then .error causeFetch else .ok { c with pc := t }

/-! ## Loop inputs (R310) -/

def opInx (x : Int) (rd : Fin 32) (c : Cpu) : NRes := (c.logRes rd (BitVec.ofInt 64 x)).ok

def opInf (w : BitVec 16) (rd : Fin 32) (c : Cpu) : NRes :=
  let r := w.zeroExtend 64
  ((c.setZ (r == 0)).put rd r).ok

/-! ## Time pairs (R306) -/

/-- A pair as an integer [2^-16 ns]. -/
def pairVal (s v : DWord) : Int :=
  ((s.toNat % 2 ^ 48 * 1000000000 * 2 ^ 16 + v.toNat % 2 ^ 48 : Nat) : Int)

/-- The register above an even one. -/
def upper (r : Fin 32) : Fin 32 :=
  ⟨(r.val + 1) % 32, Nat.mod_lt _ (by decide)⟩

/-- A pair through an odd register is reserved (R306). -/
def odd (r : Fin 32) : Bool :=
  decide (r.val % 2 = 1)

def Cpu.pairAt (c : Cpu) (r : Fin 32) : Int :=
  pairVal c.g[r] c.g[upper r]

/-- Write a time pair. -/
def Cpu.putPair (c : Cpu) (rd : Fin 32) (sec : BitVec 48) (v : Nat) : Cpu :=
  (c.put rd (sec.zeroExtend 64)).put (upper rd) (BitVec.ofNat 64 v)

def opTadd (rd ra rb : Fin 32) (c : Cpu) : NRes :=
  if odd rd ∨ odd ra then .error causeIllegal
  else
    let unit : Nat := 1000000000 * 2 ^ 16
    let t : Int := (c.g[upper ra].toNat % 2 ^ 48 : Nat) + c.g[rb].toInt
    let q := t / (unit : Int)
    let v := (t - q * unit).toNat
    let sec := BitVec.ofInt 48 ((c.g[ra].toNat % 2 ^ 48 : Nat) + q)
    ((c.putPair rd sec v).setZ (sec == 0 && v == 0)).ok

def opTdif (rd ra rb : Fin 32) (c : Cpu) : NRes :=
  if odd ra ∨ odd rb then .error causeIllegal else (c.satRes rd (c.pairAt ra - c.pairAt rb)).ok

/-! ## Decoding (R295, R296) -/

/-- A register field at lo. -/
def wReg (w : Word) (lo : Nat) : Fin 32 :=
  ⟨bitsOf w (lo + 4) lo % 32, Nat.mod_lt _ (by decide)⟩

/-- An accumulator field at lo. -/
def wAcc (w : Word) (lo : Nat) : Fin 4 :=
  ⟨bitsOf w (lo + 1) lo % 4, Nat.mod_lt _ (by decide)⟩

/-- The instruction, if the unread fields (a mask) are zero. -/
def unread (w mask : Word) (i : Instr) : Option Instr :=
  if w &&& mask = 0 then some i else none

/-- X of a shift is well formed with its RB (R301). -/
def shiftOk (w : Word) : Bool :=
  if bitOf w 8 then decide (bitsOf w 7 6 = 0 ∧ bitsOf w 13 9 = 0) else decide (bitsOf w 7 0 = 0)

/-- The instructions that both targets have (R299 to R304, R314): one code word as an instruction of target t. -/
def decodeCommon (t : Tgt) (w : Word) : Option Instr :=
  let rd := wReg w 19
  let ra := wReg w 14
  let rb := wReg w 9
  let i14 := w.setWidth 14
  let x9 := w.setWidth 9
  let x8 := w.setWidth 8
  let ad := wAcc w 22
  let aa := wAcc w 20
  let ab := wAcc w 18
  let fa := wReg w 13
  let fb := wReg w 8
  let j (i : Instr) : Option Instr := if bitsOf w 23 20 = 15 then none else some i
  let r2 : Word := 0x00003FFF
  let r3 : Word := 0x000001FF
  match bitsOf w 31 24 with
  | 0x00 => unread w 0x00FFFFFF (.nop t)
  | 0x08 => unread w r2 (.mov t rd ra)
  | 0x09 => some (.ldi t rd ⟨bitsOf w 18 17, by unfold bitsOf; exact Nat.mod_lt _ (by decide)⟩ (bitOf w 16) (w.setWidth 16))
  | 0x0A => unread w 0x0007C000 (.ldc t rd i14)
  | 0x0B => unread w 0x0007FFFF (.rdf t rd)
  | 0x0C => unread w 0x00F83FFF (.wrf t ra)
  | 0x0D => unread w 0x0007FFFF (.rdcw t rd)
  | 0x0E => unread w 0x00F83FFF (.wrcw t ra)
  | 0x10 => unread w r3 (.add t rd ra rb)
  | 0x11 => unread w r3 (.adc t rd ra rb)
  | 0x12 => unread w r3 (.sub t rd ra rb)
  | 0x13 => unread w r3 (.sbb t rd ra rb)
  | 0x14 => unread w r3 (.adds t rd ra rb)
  | 0x15 => unread w r3 (.subs t rd ra rb)
  | 0x16 => unread w r2 (.neg t rd ra)
  | 0x17 => unread w r2 (.negs t rd ra)
  | 0x18 => unread w r2 (.abs t rd ra)
  | 0x19 => unread w r3 (.min t rd ra rb)
  | 0x1A => unread w r3 (.max t rd ra rb)
  | 0x1B => unread w 0x00F801FF (.cmp t ra rb)
  | 0x1C => unread w 0x00F801FF (.tst t ra rb)
  | 0x20 => some (.addi t rd ra i14)
  | 0x21 => unread w 0x00F80000 (.cmpi t ra i14)
  | 0x22 => some (.andi t rd ra i14)
  | 0x23 => some (.ori t rd ra i14)
  | 0x24 => some (.xori t rd ra i14)
  | 0x25 => unread w 0x00F80000 (.tsti t ra i14)
  | 0x28 => unread w r3 (.and t rd ra rb)
  | 0x29 => unread w r3 (.or t rd ra rb)
  | 0x2A => unread w r3 (.xor t rd ra rb)
  | 0x2B => unread w r3 (.andn t rd ra rb)
  | 0x2C => if shiftOk w then some (.shl t rd ra rb x9) else none
  | 0x2D => if shiftOk w then some (.shr t rd ra rb x9) else none
  | 0x2E => if shiftOk w then some (.sar t rd ra rb x9) else none
  | 0x2F => if shiftOk w then some (.rsr t rd ra rb x9) else none
  | 0x30 => unread w r2 (.clz t rd ra)
  | 0x38 => unread w r3 (.mul t rd ra rb)
  | 0x40 => unread w 0x003C00FC (.mula t ad fa fb x8)
  | 0x41 => unread w 0x003C00FC (.mac t ad fa fb x8)
  | 0x42 => unread w 0x003C00FC (.msu t ad fa fb x8)
  | 0x43 => if x8.toNat > 64 then none else unread w 0x003C1F00 (.acmov t ad fa x8)
  | 0x44 => unread w 0x003C00FF (.acset t ad fa fb)
  | 0x45 => unread w 0x00CFE0FF (.achi t fb aa)
  | 0x46 => unread w 0x00CFE0FF (.aclo t fb aa)
  | 0x47 => unread w 0x0003FFFF (.acadd t ad aa ab)
  | 0x48 => unread w 0x0003FFFF (.acsub t ad aa ab)
  | 0x49 => unread w 0x000FFFFF (.acneg t ad aa)
  | 0x4A => unread w 0x000FFF80 (.acshl t ad aa x8)
  | 0x4B => unread w 0x000FFF80 (.acshr t ad aa x8)
  | 0x4C => unread w 0x00CFE080 (.acn t fb aa x8)
  | 0x4D => unread w 0x00C3FFFF (.accmp t aa ab)
  | 0x4E => unread w 0x00CFE0FF (.acsqrt t fb aa)
  | 0x50 => unread w r3 (.div t rd ra rb)
  | 0x51 => unread w r3 (.divu t rd ra rb)
  | 0x52 => unread w 0x00CC00FF (.acdiv t fb aa fa)
  | 0x05 => j (.b t (BitVec.ofNat 4 (bitsOf w 23 20)) (w.setWidth 20))
  | 0x04 => j (.call t (BitVec.ofNat 4 (bitsOf w 23 20)) (w.setWidth 20))
  | 0x03 => unread w 0x00FFFFFF (.ret t)
  | _ => none

/-- The loop-datapath subset (R310, R314): one code word as the instruction of loop n. -/
def decodeLoop (n : Fin 16) (w : Word) : Option Instr :=
  match bitsOf w 31 24 with
  | 0x02 => unread w 0x00FFFFFF (.stop n)
  | 0x80 => unread w 0x0007FFFF (.inx n (wReg w 19))
  | 0x81 => unread w 0x0007FFFF (.inf n (wReg w 19))
  | 0x82 => unread w 0x00F83FFF (.outf n (wReg w 14))
  | _ => decodeCommon (.loop n) w

/-- What a code word is in an engine (R299 to R311): an instruction of both targets, or one that engines alone have, with
the fields it reads. -/
inductive EngWord where
  | common (i : Instr)
  | halt
  | br (ra : Fin 32)
  | load (bytes : Nat) (sign : Bool) (rd ra : Fin 32) (imm : BitVec 14)
  | store (bytes : Nat) (rd ra : Fin 32) (imm : BitVec 14)
  | tnow (rd : Fin 32) (x : BitVec 9)
  | tick (rd : Fin 32)
  | tadd (rd ra rb : Fin 32)
  | tdif (rd ra rb : Fin 32)
  | waitt (ra : Fin 32) (x : BitVec 9)
  | waitk (ra : Fin 32)
  | waite (rd ra rb : Fin 32)
  | stpop (rd : Fin 32)
  | emit (rd ra rb : Fin 32)
  | spush (ra : Fin 32)
  | note (ra : Fin 32) (imm : BitVec 14)
  | mbpost (rd ra : Fin 32) (imm : BitVec 14)
  | mbtake (rd ra : Fin 32) (imm : BitVec 14)
  | dbell (imm : BitVec 14)
  | sema (rd : Fin 32) (imm : BitVec 14)
  | semr (imm : BitVec 14)
  deriving DecidableEq, Repr

/-- The word, if the unread fields (a mask) are zero. -/
def engWord (w mask : Word) (i : EngWord) : Option EngWord :=
  if w &&& mask = 0 then some i else none

/-- A field that must name the first register of a pair (R306). -/
def evenReg (r : Fin 32) (i : Option EngWord) : Option EngWord :=
  if odd r then none else i

/-- X[3:0] as a clock selector: 0x8 to 0xE are reserved (R306). -/
def selector (w : Word) (i : Option EngWord) : Option EngWord :=
  if 8 ≤ bitsOf w 3 0 ∧ bitsOf w 3 0 ≤ 14 then none else i

/-- A code word in engine e (R295); none for a word that R296 makes reserved, a loop-only instruction included. -/
def decodeEngine (e : Fin 8) (w : Word) : Option EngWord :=
  let rd := wReg w 19
  let ra := wReg w 14
  let rb := wReg w 9
  let i14 := w.setWidth 14
  let x9 := w.setWidth 9
  match bitsOf w 31 24 with
  | 0x01 => engWord w 0x00FFFFFF .halt
  | 0x06 => engWord w 0x00F83FFF (.br ra)
  | 0x60 => some (.load 1 false rd ra i14)
  | 0x61 => some (.load 2 false rd ra i14)
  | 0x62 => some (.load 4 false rd ra i14)
  | 0x63 => some (.load 8 false rd ra i14)
  | 0x64 => some (.load 1 true rd ra i14)
  | 0x65 => some (.load 2 true rd ra i14)
  | 0x66 => some (.load 4 true rd ra i14)
  | 0x68 => some (.store 1 rd ra i14)
  | 0x69 => some (.store 2 rd ra i14)
  | 0x6A => some (.store 4 rd ra i14)
  | 0x6B => some (.store 8 rd ra i14)
  | 0x70 => selector w (evenReg rd (engWord w 0x0007FFF0 (.tnow rd x9)))
  | 0x71 => engWord w 0x0007FFFF (.tick rd)
  | 0x72 => evenReg rd (evenReg ra (engWord w 0x000001FF (.tadd rd ra rb)))
  | 0x73 => evenReg ra (evenReg rb (engWord w 0x000001FF (.tdif rd ra rb)))
  | 0x74 => selector w (evenReg ra (engWord w 0x00F83FF0 (.waitt ra x9)))
  | 0x75 => engWord w 0x00F83FFF (.waitk ra)
  | 0x76 => engWord w 0x000001FF (.waite rd ra rb)
  | 0x77 => if rd.val > 28 then none else evenReg rd (engWord w 0x0007FFFF (.stpop rd))
  | 0x78 => evenReg ra (engWord w 0x000001FF (.emit rd ra rb))
  | 0x88 => engWord w 0x00F83FFF (.spush ra)
  | 0x89 => engWord w 0x00F8000F (.note ra i14)
  | 0x8A => engWord w 0x00003FF0 (.mbpost rd ra i14)
  | 0x8B => engWord w 0x00003FF0 (.mbtake rd ra i14)
  | 0x8C => engWord w 0x00FFFFE0 (.dbell i14)
  | 0x8D => engWord w 0x0007FFC0 (.sema rd i14)
  | 0x8E => engWord w 0x00FFFFC0 (.semr i14)
  | _ => (decodeCommon (.eng e) w).map .common

/-- Cycles of an instruction of the subset, not taken (R299 to R304, R310). -/
def cyclesOf : Instr → Nat
  | .mul .. | .mula .. | .mac .. | .msu .. | .acn .. | .ret .. => 2
  | .acsqrt .. | .div .. | .divu .. => 66
  | .acdiv .. => 130
  | _ => 1

/-- Longest of two optional paths. -/
def pmax : Option Nat → Option Nat → Option Nat
  | none, b => b
  | a, none => a
  | some a, some b => some (Nat.max a b)

/-- Two optional paths in sequence. -/
def padd : Option Nat → Option Nat → Option Nat
  | some a, some b => some (a + b)
  | _, _ => none

/-- Longest weighted paths from each word on: to the program's end, and to a RET of the present call level (R287, R314).
`w` weighs an instruction not taken, `k` is added for a taken B or CALL. The list runs from the word after. -/
def pathStep (w : Instr → Nat) (k : Nat) (i : Instr) (rest : List (Option Nat × Option Nat)) : Option Nat × Option Nat :=
  let fall := rest.headD (some 0, none)
  let here := some (w i)
  let taken := some (w i + k)
  let at_ (off : BitVec 20) := rest.getD (off.toNat - 1) (some 0, none)
  let nt (cond : BitVec 4) : Option Nat × Option Nat :=
    if cond = 0 then (none, none) else (padd here fall.1, padd here fall.2)
  match i with
  | .stop _ => (here, none)
  | .ret _ => (none, here)
  | .b _ c off =>
    let t := at_ off
    (pmax (nt c).1 (padd taken t.1), pmax (nt c).2 (padd taken t.2))
  | .call _ c off =>
    let t := at_ off
    (pmax (nt c).1 (padd taken (pmax t.1 (padd t.2 fall.1))), pmax (nt c).2 (padd taken (padd t.2 fall.2)))
  | _ => (padd here fall.1, padd here fall.2)

/-- Longest path of a program; a RET at the top level ends it. -/
def longest (w : Instr → Nat) (k : Nat) (prog : List Instr) : Nat :=
  let r := prog.foldr (fun i acc => pathStep w k i acc :: acc) []
  let h := r.headD (some 0, none)
  (pmax h.1 h.2).getD 0

/-- A program of the subset, or none where a word or a rule of R287, R314 rejects it with SUBSET. -/
def subset (n : Fin 16) (words : List Word) (constW : Nat) : Option (List Instr) :=
  let prog := words.filterMap (decodeLoop n)
  if prog.length ≠ words.length then none
  else if prog.any (fun i => match i with
      | .b _ _ off => decide (off.toInt ≤ 0)
      | .call _ _ off => decide (off.toInt ≤ 0)
      | .ldc _ _ idx => decide (idx.toNat ≥ constW)
      | _ => false) then none
  else if longest (fun i => match i with | .outf .. => 1 | _ => 0) 0 prog > 1 then none
  else some prog

/-- WCET of a program (R287, R314). -/
def wcetOf (prog : List Instr) : Nat :=
  longest cyclesOf 1 prog

/-! ## A loop program's run (R94) -/

/-- What a run has delivered: registers, OUTF value, the accumulators that saturated, newest first (R96). -/
structure LRun where
  cpu : Cpu
  out : Option Int
  sats : List (Fin 4)
  deriving DecidableEq, Repr

/-- How a run ends: at STOP, or by a fault. -/
inductive LEnd where
  | stop (r : LRun)
  | fault (cause : Byte) (r : LRun)
  deriving DecidableEq, Repr

/-- One instruction of the loop-datapath subset on the registers, with the sample's x and flags word. -/
def loopOp (codeW : Nat) (consts : List DWord) (bad : List Nat) (x : Int) (fw : BitVec 16) (i : Instr) (c : Cpu) : NRes :=
  match i with
  | .mov _ rd ra => opMov rd ra c
  | .ldi _ rd hw k imm => opLdi rd hw k imm c
  | .ldc _ rd i => opLdc consts bad rd i c
  | .rdf _ rd => opRdf rd c
  | .wrf _ ra => opWrf ra c
  | .rdcw _ rd => opRdcw rd c
  | .wrcw _ ra => opWrcw true ra c
  | .add _ rd ra rb => opAdd rd ra rb c
  | .adc _ rd ra rb => opAdc rd ra rb c
  | .sub _ rd ra rb => opSub rd ra rb c
  | .sbb _ rd ra rb => opSbb rd ra rb c
  | .adds _ rd ra rb => opAdds rd ra rb c
  | .subs _ rd ra rb => opSubs rd ra rb c
  | .neg _ rd ra => opNeg rd ra c
  | .negs _ rd ra => opNegs rd ra c
  | .abs _ rd ra => opAbs rd ra c
  | .min _ rd ra rb => opMin rd ra rb c
  | .max _ rd ra rb => opMax rd ra rb c
  | .cmp _ ra rb => opCmp ra rb c
  | .tst _ ra rb => opTst ra rb c
  | .addi _ rd ra imm => opAddi rd ra imm c
  | .cmpi _ ra imm => opCmpi ra imm c
  | .andi _ rd ra imm => opAndi rd ra imm c
  | .ori _ rd ra imm => opOri rd ra imm c
  | .xori _ rd ra imm => opXori rd ra imm c
  | .tsti _ ra imm => opTsti ra imm c
  | .and _ rd ra rb => opAnd rd ra rb c
  | .or _ rd ra rb => opOr rd ra rb c
  | .xor _ rd ra rb => opXor rd ra rb c
  | .andn _ rd ra rb => opAndn rd ra rb c
  | .clz _ rd ra => opClz rd ra c
  | .mul _ rd ra rb => opMul rd ra rb c
  | .shl _ rd ra rb x => opShl rd ra rb x c
  | .shr _ rd ra rb x => opShr rd ra rb x c
  | .sar _ rd ra rb x => opSar rd ra rb x c
  | .rsr _ rd ra rb x => opRsr rd ra rb x c
  | .mula _ d ra rb x => opMula d ra rb x c
  | .mac _ d ra rb x => opMac d ra rb x c
  | .msu _ d ra rb x => opMsu d ra rb x c
  | .acmov _ d ra x => opAcmov d ra x c
  | .acset _ d ra rb => opAcset d ra rb c
  | .achi _ rd a => opAchi rd a c
  | .aclo _ rd a => opAclo rd a c
  | .acadd _ d a b => opAcadd d a b c
  | .acsub _ d a b => opAcsub d a b c
  | .acneg _ d a => opAcneg d a c
  | .acshl _ d a x => opAcshl d a x c
  | .acshr _ d a x => opAcshr d a x c
  | .acn _ rd a x => opAcn rd a x c
  | .accmp _ a b => opAccmp a b c
  | .acsqrt _ rd a => opAcsqrt rd a c
  | .div _ rd ra rb => opDiv rd ra rb c
  | .divu _ rd ra rb => opDivu rd ra rb c
  | .acdiv _ rd a ra => opAcdiv rd a ra c
  | .b _ k off => opB codeW k off c
  | .call _ k off => opCall codeW k off c
  | .ret _ => opRet codeW c
  | .inx _ rd => opInx x rd c
  | .inf _ rd => opInf fw rd c
  | _ => opNop c

/-- The accumulator an acc_write names; its V reports a value outside s128 (R302). -/
def accDest : Instr → Option (Fin 4)
  | .mula _ d .. | .mac _ d .. | .msu _ d .. | .acadd _ d .. | .acsub _ d .. | .acneg _ d .. | .acshl _ d .. => some d
  | _ => none

/-- Run a verified program of a sheet, at most `fuel` instructions; a word in uncorrectable error faults with ECC at its
fetch (R313). -/
def runLoop (prog : List Instr) (sh : Sheet) (x : Int) (fw : BitVec 16) : Nat → LRun → LEnd
  | 0, r => .stop r
  | fuel + 1, r =>
    match prog[r.cpu.pc]? with
    | none => .fault causeFetch r
    | some i =>
      if sh.badCode.contains r.cpu.pc then .fault causeEcc r
      else match i with
      | .stop _ => .stop r
      | _ =>
        match loopOp prog.length sh.consts sh.badConst x fw i r.cpu with
        | .error e => .fault e r
        | .ok c =>
          runLoop prog sh x fw fuel
            { cpu := c
              out := match i with | .outf _ ra => some (r.cpu.g[ra]).toInt | _ => r.out
              sats := if c.flag 3 then (accDest i).toList ++ r.sats else r.sats }

end Sys2Proof.Machine
end

