-- ==== Sys2Proof/Machine/LoopOps.lean ====
section
/-! DEFINITION. Operations of the meridian loops: states, candidate lists, selection, switch transactions, holdover,
twins, the sample (R86 to R139). -/

namespace Sys2Proof.Machine

/-! ## Registers of a loop -/

/-- STATE.CODE (R105). -/
def LoopCode.num : LoopCode → Nat
  | .freeRun => 0
  | .acquire => 1
  | .locked => 2
  | .holdover => 3
  | .extended => 4

/-- The loop runs on a selected source. -/
def LoopCode.follows : LoopCode → Bool
  | .acquire => true
  | .locked => true
  | _ => false

/-- HOLDOVER or HOLDOVER_EXTENDED. -/
def LoopCode.holds : LoopCode → Bool
  | .holdover => true
  | .extended => true
  | _ => false

/-- CFG.EN. -/
def State.loopEn (s : State) (n : Fin 16) : Bool :=
  s.rb .loop n.val 0 31

/-- HO_VALID (R130). -/
def Loop.hoValid (l : Loop) : Bool :=
  decide (l.est.cnt ≥ Nat.max 1 l.par.hoMin)

/-- k of HO_WIN_LOG2 (R129). -/
def Loop.hoK (l : Loop) : Nat :=
  Nat.min 20 l.par.hoWin

/-- The active sheet of a program port (R288). -/
def Prog.cur (p : Prog) : Option Sheet :=
  if p.active then (if p.bank then p.bank1 else p.bank0) else none

/-- The parameters of R108 and R138 that govern loop n, as its registers or its primary's stand (R134). -/
def State.loopPar (s : State) (n : Fin 16) : LoopPar :=
  let g := (s.govern n).val
  { pull := (s.r .loop g 0x30).toNat
    slope := (s.r .loop g 0x34).toNat
    lockPh := (s.r .loop g 0x38).toNat
    unlockPh := (s.r .loop g 0x3C).toNat
    lockCnt := s.rf .loop g 0x40 31 16
    unlockCnt := s.rf .loop g 0x40 15 0
    acqTmo := s.rf .loop g 0x44 15 0
    hoWin := s.rf .loop g 0x48 31 27
    hoMin := s.rf .loop g 0x48 19 0
    modelEn := s.rb .loop g 0x48 26
    hoTmo := (s.r .loop g 0x4C).toNat
    hoTeLimit := (s.r .loop g 0x50).toNat
    twinTol := (s.r .loop g 0x54).toNat }

/-- SEL as a byte (R110). -/
def selByte : Option (Fin 96) → Byte
  | some x => byte x.val
  | none => 0xFF

/-! ## Consumers' view of a state change -/

/-- Every output and every port for the present states. -/
def State.refresh (s : State) : State :=
  (s.refreshOuts).qlRefresh

/-- TRACEABLE of the datum clock this loop is assigned to (R147). -/
def State.setTraceable (s : State) (n : Fin 16) (v : Bool) : State :=
  overFin 8 s (fun d s =>
    if (s.datums[d]).assigned = some n then s.modDatum d (fun x => { x with traceable := if v then x.set else false }) else s)

/-- Change the state code (R105), with what R147 ties to it and the LOOP_STATE notice. -/
def State.loopCode (s : State) (n : Fin 16) (c : LoopCode) : State :=
  let old := (s.loops[n]).code
  if old = c then s
  else
    let s := s.modLoop n (fun l => { l with code := c })
    let s := match c with
      | .freeRun => s.setTraceable n false
      | .extended => s.setTraceable n false
      | .locked => s.setTraceable n true
      | _ => s
    s.raise (0x0200 + 4 * n.val) clsA 0x10 (args8 [byte old.num, byte c.num, selByte (s.loops[n]).sel])

/-- Load a loop's registers from its active sheet's init values, or 0 (R105, R286). -/
def initCpu (sh : Option Sheet) (c : Cpu) : Cpu :=
  let bs : List Byte := match sh with
    | some x => x.init
    | none => []
  let at_ (o n : Nat) : Nat := beNat (((bs.drop o).take n) ++ List.replicate (n - ((bs.drop o).take n).length) 0#8)
  { c with
    g := Vector.ofFn (fun i : Fin 32 => BitVec.ofNat 64 (at_ (8 * i.val) 8))
    acc := Vector.ofFn (fun i : Fin 4 => BitVec.ofNat 128 (at_ (256 + 16 * i.val) 16)) }

/-- Change PBO; a change sends Δ to the datum clock the loop steers (R126). -/
def State.setPbo (s : State) (n : Fin 16) (p : Int) : State :=
  let delta := satS 64 ((s.loops[n]).pbo - p)
  let s := s.modLoop n (fun l => { l with pbo := p })
  match fin? 8 (s.rf .loop n.val 0 27 24) with
  | some d => if delta = 0 then s else s.sendWord n (.datum d) (.delta delta) false
  | none => s

/-- Entry into ACQUIRE from FREE_RUN or holdover (R101, R105). -/
def State.enterAcquire (s : State) (n : Fin 16) : State :=
  let l := s.loops[n]
  let first := decide (s.rf .loop n.val 0 19 18 = 1)
  let s := s.modLoop n (fun x => { x with
    acqAt := s.tick
    acqHold := l.code.holds
    fa := l.f
    acqFirst := first
    newSrc := true
    lockRun := 0
    unlockRun := 0
    holdoffAt := none
    evs := [] })
  let s := if first then s else s.setPbo n 0
  s.loopCode n .acquire

/-! ## Holdover -/

/-- f_ho at τ seconds (R132). -/
def State.hoFreq (s : State) (n : Fin 16) (tau : Nat) : Int :=
  let l := s.loops[n]
  let fh := l.hoFh
  if l.par.modelEn = false ∨ s.oven.modelValid = false then fh
  else
    -- a·(τ + 2^k) + kt·(t_now·2^32 − tm) / 2^32, rounded once
    let num : Int := s.oven.modelA * ((tau : Int) + 2 ^ l.hoK) * 2 ^ 32 + s.oven.modelKt * (s.oven.temp * 2 ^ 32 - l.est.tm)
    satS 64 (fh + roundDiv num (2 ^ 32))

/-- One qualifying second (R129, R132). -/
def Est.update (e : Est) (k : Nat) (fsec : Int) (temp : Int) : Est :=
  let first := decide (e.cnt = 0)
  let d := fsec * 2 ^ 40 - e.h
  let h := if first then fsec * 2 ^ 40 else e.h + roundDiv d (2 ^ k)
  let er := roundDiv d (2 ^ 40)
  let v := if first then 0 else ((e.v : Int) + roundDiv (er * er - e.v) (2 ^ k)).toNat
  { cnt := satAdd 32 e.cnt 1
    h := h
    v := v
    fh := roundDiv h (2 ^ 40)
    unc := Nat.min (2 ^ 32 - 1) (roundSqrt (v * 2 ^ (k + 1)) (2 ^ (k + 17)))
    tm := if first then temp * 2 ^ 32 else e.tm + roundDiv (temp * 2 ^ 32 - e.tm) (2 ^ k) }

/-- One qualifying second of the model loop enters its block; the 1,024th completes it (R131). -/
def State.modelSecond (s : State) (n : Fin 16) (f : Int) : State :=
  if s.boot.sheet.modelLoop.toNat = n.val then
    s.modOven (fun o =>
      if o.blockN + 1 ≥ 1024 then
        { o with blockN := 0, blockF := 0, blockT := 0,
                 blockDone := o.blockDone ++ [(roundDiv (o.blockF + f) 1024, roundDiv (o.blockT + o.temp) 1024)] }
      else { o with blockN := o.blockN + 1, blockF := o.blockF + f, blockT := o.blockT + o.temp })
  else s

/-- A qualifying tally second reaches the estimator, and the oven model where this is the model loop (R129, R131). In
holdover the estimator takes no input (R132). -/
def State.secondDone (s : State) (n : Fin 16) : State :=
  let l := s.loops[n]
  match l.secReady with
  | none => s
  | some a =>
    if l.code.holds then s else
    let f := roundDiv a.sum a.n
    let s := s.modLoop n (fun l => { l with secReady := none, est := l.est.update l.hoK f s.oven.temp })
    if s.boot.sheet.modelLoop.toNat = n.val then s.modelSecond n f else s

/-- Leave ACQUIRE or LOCKED (R105): holdover where HO_VALID, else free run. A qualifying second completed before is in the
estimate; from then on the estimator takes no input (R132). An evaluation that an abort has made due stays due (R121). The change of the
selected source to none leaves NEW_SRC unset: the next, EMPTY sample does not carry it (R93, DESIGN CHOICE, log 174). -/
def State.leaveSource (s : State) (n : Fin 16) : State :=
  let s := s.secondDone n
  let l := s.loops[n]
  let s := s.modLoop n (fun x => { x with
    sel := none
    sw := none
    holdoffAt := none
    evs := []
    shadow := []
    acqFirst := false })
  if l.hoValid then
    let s := s.modLoop n (fun x => { x with hoFh := l.est.fh, hoAt := l.tally.now26, hoTau := 0 })
    let s := s.modLoop n (fun x => { x with fho := s.hoFreq n 0 })
    s.loopCode n .holdover
  else s.loopCode n .freeRun

/-- No source is selected (R105): the loop leaves ACQUIRE or LOCKED, and fp takes the holdover estimate. -/
def State.loseSource (s : State) (n : Fin 16) : State :=
  ((s.secondDone n).modLoop n (fun x => { x with fp := x.est.fh })).leaveSource n

/-! ## Candidate list (R112, R113) -/

/-- Source and priority of a candidate entry. -/
def candOf (w : Word) : Option (Fin 96) × Nat :=
  (fin? 96 (bitsOf w 6 0), bitsOf w 15 12)

/-- Entry i of the list that governs loop n (R134). -/
def State.cand (s : State) (n : Fin 16) (i : Nat) : Option (Fin 96) × Nat :=
  candOf (s.r .loop (s.govern n).val (0x90 + 4 * i))

/-- Every entry with a source: (index, source, priority). -/
def State.cands (s : State) (n : Fin 16) : List (Nat × Fin 96 × Nat) :=
  (List.range 16).filterMap (fun i => match s.cand n i with
    | (some x, p) => some (i, x, p)
    | (none, _) => none)

/-- The source is barred in this loop (R107). -/
def State.isBarred (s : State) (n : Fin 16) (src : Fin 96) : Bool :=
  (s.loops[n]).bars.getLsbD src.val

/-- The bit of one source in a set of sources. -/
def barBit (src : Fin 96) : BitVec 96 :=
  1#96 <<< src.val

/-- Bar a source in a loop, and in the standby that mirrors it (R107, R134). -/
def State.bar (s : State) (n : Fin 16) (src : Fin 96) : State :=
  let set (s : State) (x : Fin 16) : State := s.modLoop x (fun l => { l with bars := l.bars ||| barBit src })
  let q := s.loops[twinOf n]
  let s := set s n
  if (s.loops[n]).role == .primary && q.role == .standby && !q.mirrorDue then set s (twinOf n) else s

/-- The sources that a mask of entries names in the list in force of loop n. -/
def State.entrySources (s : State) (n : Fin 16) (m : BitVec 16) : BitVec 96 :=
  (s.cands n).foldl (fun (b : BitVec 96) e => if m.getLsbD e.1 then b ||| barBit e.2.1 else b) 0

/-- CAND_BAR: the entries of the list in force whose source is barred (R107). -/
def State.candBar (s : State) (n : Fin 16) : BitVec 16 :=
  (s.cands n).foldl (fun (b : BitVec 16) e => if s.isBarred n e.2.1 then b ||| BitVec.ofNat 16 (2 ^ e.1) else b) 0

/-- A source is in QUALIFIED. -/
def State.qualified (s : State) (src : Fin 96) : Bool :=
  (s.slots[src]).qstate == .qualified

/-- On the list, QUALIFIED and not barred. -/
def State.usable (s : State) (n : Fin 16) (src : Fin 96) : Bool :=
  (s.cands n).any (fun e => decide (e.2.1 = src)) && s.qualified src && !s.isBarred n src

/-- Fields of SELECT in force (R115). -/
def Loop.selMode (l : Loop) : Nat := bitsOf l.selWord 31 30
def Loop.revert (l : Loop) : Bool := bitOf l.selWord 29
def Loop.qlEn (l : Loop) : Bool := bitOf l.selWord 28
def Loop.manualIdx (l : Loop) : Nat := bitsOf l.selWord 27 24
def Loop.boSamples (l : Loop) : Nat := Nat.max 1 (bitsOf l.selWord 23 16)
def Loop.holdoff (l : Loop) : Nat := bitsOf l.selWord 15 0

/-- Rank: ORDER where QL_EN, PRIO, index (R113), as one number. -/
def State.rank (s : State) (n : Fin 16) (e : Nat × Fin 96 × Nat) : Nat :=
  ((if (s.loops[n]).qlEn then s.order e.2.1 else 0) * 16 + e.2.2) * 16 + e.1

/-- The eligible candidates of loop n (R113). -/
def State.eligible (s : State) (n : Fin 16) : List (Nat × Fin 96 × Nat) :=
  (s.cands n).filter (fun e => s.qualified e.2.1 && !s.isBarred n e.2.1 && decide (s.order e.2.1 ≤ 14))

/-- The best-ranked of a list. -/
def State.best (s : State) (n : Fin 16) (l : List (Nat × Fin 96 × Nat)) : Option (Nat × Fin 96 × Nat) :=
  l.foldl (fun b e => match b with
    | none => some e
    | some x => if s.rank n e < s.rank n x then some e else some x) none

/-- The usable manual source in MANUAL mode (R117). -/
def State.manual (s : State) (n : Fin 16) : Option (Fin 96) :=
  let l := s.loops[n]
  if l.selMode ≠ 1 then none
  else match s.cand n l.manualIdx with
    | (some x, _) => if s.qualified x && !s.isBarred n x then some x else none
    | (none, _) => none

/-- What the selector presents, and why (R116, R117). A decision away from a presented source whose ORDER has become 15, or
that the list no longer names, carries reason LOSS (log entry 110). -/
def State.choose (s : State) (n : Fin 16) : Option (Fin 96 × SelReason) :=
  let l := s.loops[n]
  match s.manual n with
  | some x => some (x, .manual)
  | none =>
    let el := s.eligible n
    match s.best n el with
    | none => none
    | some b =>
      match l.sel with
      | none => some (b.2.1, .acquire)
      | some p =>
        match s.best n (el.filter (fun e => decide (e.2.1 = p))) with
        | none => some (b.2.1, .loss)
        | some pe =>
          if b.2.1 = p then some (p, .priority)
          else if l.qlEn ∧ s.order b.2.1 < s.order p then some (b.2.1, .order)
          else if l.revert ∧ s.rank n b < s.rank n pe then some (b.2.1, .priority)
          else some (p, .priority)

/-- Reason codes (R190). -/
def SelReason.num : SelReason → Nat
  | .loss => 0
  | .order => 1
  | .priority => 2
  | .manual => 3
  | .abort => 4
  | .handover => 5
  | .acquire => 6

/-! ## Twins (R134 to R137) -/

/-- Digest of the active sheet. -/
def Loop.digest (l : Loop) : Option (BitVec 256) :=
  l.prog.cur.map (·.digest)

/-- The pair's standby is READY (R136). -/
def State.twinReady (s : State) (primary : Fin 16) : Bool :=
  let p := s.loops[primary]
  let q := s.loops[twinOf primary]
  p.role == .primary && q.role == .standby && !q.mirrorDue && p.code == q.code && p.digest == q.digest && decide (q.tolRun ≥ 16)

/-- SWITCHING has read 1 in the present tally second, which then does not qualify (R129): `fs` is the sample rate. The
second's figures wait for the estimator once its last sample has closed. -/
def Loop.spoilSecond (l : Loop) (fs : Nat) : Loop :=
  if instantsTo fs l.tally.now.ns.toNat = fs ∧ l.instTick.isNone then { l with secReady := none }
  else { l with secAcc := { l.secAcc with ok := false } }

/-- The sample rate that governs loop n (R91, R134). -/
def State.sampleRate (s : State) (n : Fin 16) : Nat :=
  s.rf .loop (s.govern n).val 0x1C 19 0

/-- The standby follows the primary's selected source, transaction and PBO (R134); a second in which SWITCHING read 1 does not
qualify (R129). -/
def State.mirrorSel (s : State) (n : Fin 16) : State :=
  let p := s.loops[n]
  let m := twinOf n
  let q := s.loops[m]
  if p.role ≠ .primary ∨ q.role ≠ .standby ∨ q.mirrorDue then s
  else
    let moved := decide (p.sel ≠ q.sel)
    let fs := s.sampleRate m
    let s := s.modLoop m (fun x => { (if p.sw.isSome = x.sw.isSome then x else x.spoilSecond fs) with
      sel := p.sel
      sw := p.sw
      holdoffAt := p.holdoffAt
      selWord := p.selWord
      newSrc := x.newSrc || (moved && p.newSrc)
      evs := if moved then x.shadow else x.evs
      shadow := if p.sw.isNone then [] else x.shadow })
    let q := s.loops[m]
    if q.heldFault then s
    else if p.sel.isSome && !q.code.follows then s.enterAcquire m
    else if p.sel.isNone && q.code.follows then s.loseSource m
    else if p.pbo ≠ q.pbo ∧ moved then s.setPbo m p.pbo
    else s

/-- The standby takes the primary's tally, PBO, registers, fp and estimator, the second in progress with it (R134); a change of
its state code raises LOOP_STATE (R105). Its NEW_SRC is the primary's (DESIGN CHOICE, log 165). A consumer still assigned to it,
of a hand-over whose apply tick is to come, keeps its grid (R215). -/
def State.twinTake (s : State) (primary : Fin 16) : State :=
  let p := s.loops[primary]
  let m := twinOf primary
  let s := s.shiftGrids m (p.tally.now.toInt56 - (s.loops[m]).tally.now.toInt56)
  let s := s.modLoop m (fun q => { q with
    mirrorDue := false
    role := .standby
    tally := p.tally
    rates := p.rates
    incDue := p.incDue
    pbo := p.pbo
    cpu := { q.cpu with g := p.cpu.g, acc := p.cpu.acc }
    fp := p.fp
    f := p.f
    est := p.est
    secAcc := p.secAcc
    secReady := p.secReady
    sel := p.sel
    sw := p.sw
    evs := p.evs
    shadow := p.shadow
    acqAt := p.acqAt
    acqHold := p.acqHold
    fa := p.fa
    acqFirst := p.acqFirst
    newSrc := p.newSrc
    bars := p.bars
    selWord := p.selWord
    holdoffAt := p.holdoffAt
    hoFh := p.hoFh
    hoAt := p.hoAt
    hoTau := p.hoTau
    fho := p.fho
    tolRun := 0 })
  s.loopCode m p.code

/-- The PRIMARY of loop n's pair (R134): the loop whose EN was 1 first, the even one where both were enabled at the same
sample close, that is with no close of the first in between (log entry 111). -/
def State.firstOf (s : State) (n : Fin 16) : Fin 16 :=
  let a := if n.val % 2 = 0 then n else twinOf n
  if (s.loops[a]).enAfter then twinOf a else a

/-- Form a pair where both loops have EN and TWIN_EN 1 (R134). -/
def State.formTwin (s : State) (n : Fin 16) : State :=
  let m := twinOf n
  let en (x : Fin 16) := s.rb .loop x.val 0 31 && s.rb .loop x.val 0 17
  if en n && en m && (s.loops[n]).role == .solo && (s.loops[m]).role == .solo then
    let pr := s.firstOf n
    let s := s.modLoop pr (fun l => { l with role := .primary })
    s.modLoop (twinOf pr) (fun l => { l with role := .standby, mirrorDue := true, tolRun := 0 })
  else s

/-- The incoming loop issues words from its present f with which the consumers' assignment passes (R137). -/
def State.passConsumers (s : State) (n : Fin 16) : State :=
  let s := s.modLoop n (fun l => { l with takeD := true, takeS := true, handNote := true })
  s.issueWords n (s.loops[n]).f

/-- Role of a loop outside a pair: FAILED on a retired island (R379), else SOLO (R134). -/
def State.aloneRole (s : State) (n : Fin 16) : TwinRole :=
  if s.blkRetired (0x11 + n.val % 2) then .failed else .solo

/-- Dissolve the pair of n: both loops SOLO; a former standby goes on under its primary's registers up to its next sample
close (R134). -/
def State.dissolve (s : State) (n : Fin 16) : State :=
  let f (n : Fin 16) (l : Loop) : Loop := { l with
    role := s.aloneRole n, mirrorDue := false, swapDeferred := false, tolRun := 0, wasStandby := decide (l.role = .standby) }
  (s.modLoop n (f n)).modLoop (twinOf n) (f (twinOf n))

/-- CONSUMER_ORPHAN: both twins have failed; the consumers hold their last words (R137, R147). -/
def State.orphan (s : State) (n : Fin 16) : State :=
  let even := n.val - n.val % 2
  let s := (s.setTraceable n false).setTraceable (twinOf n) false
  s.raise (0x0200 + 4 * even + 3) clsA 0x15 (args8 [byte even])

/-- A planned hand-over from the primary `p` to its READY standby (R137): roles change, the outgoing loop re-enters as
STANDBY. -/
def State.plannedHandover (s : State) (p : Fin 16) : State :=
  let m := twinOf p
  let s := s.modLoop p (fun l => { l with role := .standby, mirrorDue := true, swapDeferred := false, sw := none, tolRun := 0 })
  (s.modLoop m (fun l => { l with role := .primary })).passConsumers m

/-- SWAP at loop n of a pair (R137): deferred while SWITCHING, rejected and counted where not READY. -/
def State.twinSwap (s : State) (n : Fin 16) : State :=
  let p := if (s.loops[n]).role = .primary then n else twinOf n
  if (s.loops[p]).role = .primary ∧ (s.loops[p]).sw.isSome then s.modLoop p (fun l => { l with swapDeferred := true })
  else if s.twinReady p then s.plannedHandover p
  else s.count .loop n.val 0x18 15 0

/-- A deferred SWAP runs when the transaction has ended (R137): one that is then rejected counts in SWAP_REJECTS of the PRIMARY, whichever
loop's TWIN it was written to (DESIGN CHOICE, log 178). -/
def State.swapPending (s : State) (n : Fin 16) : State :=
  if (s.loops[n]).swapDeferred ∧ (s.loops[n]).sw.isNone then
    (s.modLoop n (fun l => { l with swapDeferred := false })).twinSwap n
  else s

/-! ## Transactions (R120, R121) -/

/-- Store a candidate entry (R112). -/
def State.candPut (s : State) (n i : Fin 16) (v : Word) : State :=
  s.wr .loop n.val (0x90 + 4 * i.val) (v &&& 0xF07F)

/-- The bars of a set of sources go in loop n, and in the twin that runs under its registers (R107, R134). -/
def State.clearBars (s : State) (n : Fin 16) (m : BitVec 96) : State :=
  let clear (s : State) (x : Fin 16) : State :=
    if x = n ∨ s.govern x = n then s.modLoop x (fun l => { l with bars := l.bars &&& ~~~m }) else s
  clear (clear s n) (twinOf n)

/-- An accepted write of a candidate entry: it takes effect, and clears the bars (R107, R112). -/
def State.candStore (s : State) (n i : Fin 16) (v : Word) : State :=
  (s.candPut n i v).clearBars n (BitVec.allOnes 96)

/-- Candidate writes held during a transaction take effect (R121). -/
def State.releaseCands (s : State) (n : Fin 16) : State :=
  let h := (s.loops[n]).candHeld
  let s := s.modLoop n (fun l => { l with candHeld := [] })
  h.foldl (fun s p => s.candStore n p.1 p.2) s

/-- A transaction ends with PBO unchanged (R121): SWITCHING reads 0, the held candidate writes take effect. -/
def State.endSw (s : State) (n : Fin 16) : State :=
  let s := s.modLoop n (fun l => { (l.spoilSecond (s.sampleRate n)) with sw := none, shadow := [] })
  s.releaseCands n

/-- Abort the transaction in progress: PBO unchanged, an evaluation with reason ABORT is due (R121). -/
def State.abortSw (s : State) (n : Fin 16) : State :=
  if (s.loops[n]).sw.isNone then s
  else (((s.endSw n).modLoop n (fun l => { l with evalDue := some .abort })).mirrorSel n).swapPending n

/-- A fault of a loop's datapath or island (R137): the standby takes over, without the steward, and completes a
transaction with its mirrored window. The failed loop's own transaction ends (R121), and its words that have not yet
taken effect are foreign (R20). -/
def State.twinFault (s : State) (n : Fin 16) : State :=
  let m := twinOf n
  let fail (s : State) : State :=
    let s := if (s.loops[n]).sw.isSome then s.endSw n else s
    s.modLoop n (fun l => { l with role := .failed, swapDeferred := false, mirrorDue := false })
  match (s.loops[n]).role with
  | .primary =>
    let s := (fail s).dropWords n
    if (s.loops[m]).role = .standby then
      (s.modLoop m (fun l => { l with role := .primary, mirrorDue := false })).passConsumers m
    else s.orphan n
  | .standby => fail s
  | _ => s

/-- Start a transaction to t (R120): SELECT is raised, the shadow detector starts. -/
def State.startSw (s : State) (n : Fin 16) (t : Fin 96) (why : SelReason) : State :=
  let l := s.loops[n]
  let s := s.modLoop n (fun x => { (x.spoilSecond (s.sampleRate n)) with
    sw := some ⟨t, why, l.tally.now26, [], false⟩
    shadow := [] })
  s.selectNotice n l.sel (some t) why.num

/-- One evaluation of the selector (R114 to R118), with the reason that replaces the decision's own (R121). While a hold-off runs, nothing
is evaluated (R114, R117, R119, DESIGN CHOICE, log 176). -/
def State.evaluate (s : State) (n : Fin 16) (why : Option SelReason) : State :=
  let l := s.loops[n]
  let s := s.modLoop n (fun x => { x with evalDue := none })
  if s.loopEn n = false ∨ l.role = .standby ∨ l.role = .failed ∨ l.heldFault ∨ s.oven.oscLost ∨ l.sw.isSome
      ∨ l.holdoffAt.isSome then s
  else
    let s' := match s.choose n with
      | none => if l.code.follows then s.loseSource n else s
      | some (t, reason) =>
        if l.code.follows then
          if l.sel = some t then s else s.startSw n t (why.getD reason)
        else
          let s := s.modLoop n (fun x => { x with sel := some t })
          (s.selectNotice n none (some t) 6).enterAcquire n
    s'.mirrorSel n

/-- SELECT written since takes effect (R115). -/
def State.takeSelect (s : State) (n : Fin 16) : State :=
  if (s.loops[n]).sw.isSome then s
  else s.modLoop n (fun l => { l with selWord := s.r .loop (s.govern n).val 0x10 })

/-- Hold-off ends where the presented source is back in QUALIFIED (R119). -/
def State.holdoffBack (s : State) (n : Fin 16) : State :=
  match (s.loops[n]).sel with
  | some p => if (s.loops[n]).holdoffAt.isSome ∧ s.qualified p then
      (s.modLoop n (fun l => { l with holdoffAt := none })).mirrorSel n else s
  | none => s

/-- A source changes QSTATE or ORDER: what each loop makes of it (R107, R114, R119, R121). No hold-off starts where the old
source leaves QUALIFIED during a transaction (DESIGN CHOICE, log 138). -/
def State.sourceChanged (s : State) (src : Fin 96) (wasQ : Bool) : State :=
  let isQ := s.qualified src
  let isLow := decide (s.order src = 15)
  overFin 16 s (fun (n : Fin 16) (s : State) =>
    let l : Loop := s.loops[n]
    let s : State := if wasQ && !isQ then
        -- a bar goes when the source's QSTATE leaves QUALIFIED; it is offered again when it returns
        s.modLoop n (fun x => { x with bars := x.bars &&& ~~~barBit src })
      else s
    if l.role = .standby then
      if l.sel = some src ∧ isQ = false then s.modLoop n (fun x => { x with evs := [] }) else s
    else
      let s : State := match l.sw with
        | some w => if w.tgt = src ∧ isQ = false then s.abortSw n else s
        | none => s
      let l : Loop := s.loops[n]
      if l.sel = some src ∧ l.code.follows then
        if wasQ && !isQ then
          if l.sw.isSome then s.modLoop n (fun x => { x with evs := [] })
          else if l.holdoff ≠ 0 then
            (s.modLoop n (fun x => { x with
              holdoffAt := some (s.tick + BitVec.ofNat 64 (l.holdoff * msTicks)), evs := [] })).mirrorSel n
          else s.modLoop n (fun x => { x with evalDue := some .loss, evs := [] })
        else if isQ && l.holdoffAt.isSome then s.holdoffBack n
        else if isQ && l.qlEn && isLow && l.sw.isNone then
          s.modLoop n (fun x => { x with evalDue := some .loss })
        else s
      else s)

/-! ## Events into the detectors (R88 to R92, R120) -/

/-- Event rate of a source: NOM_FREQ [2^-32 Hz] and its divider (R57, R58). -/
def State.nomFreq (s : State) (src : Fin 96) : Nat :=
  s.wide .mon src.val 0 2

/-- DIV of a source: the pre-divider of sources 0–15, else 1 (R57). -/
def State.srcDiv (s : State) (src : Fin 96) : Nat :=
  if src.val < 16 then
    let d := s.rf .refin src.val 0 15 0
    if d = 0 then 65536 else d
  else 1

/-- The event error of R88 of a stamp r [2^-26 ns], with PE_SAT. -/
def eventError (r : Int) (nom div : Nat) : Int × Bool :=
  -- fr = nom / (div · 2^32) Hz; grid g(m) = m · 10^9 · 2^26 / fr
  let unit : Nat := secNs * 2 ^ 26 * div * 2 ^ 32
  let m := roundDiv (r * nom) unit
  let g := roundDiv (m * unit) nom
  let e := (r - g) * 2 ^ 6
  (satS 64 e, decide (satS 64 e ≠ e))

/-- An event of `src` reaches the loops that follow it and the shadow detectors (R92, R120); a stream's datum clock is that of
the PORT in force for its window (R242). `x` is the packet sample with its PE_SAT,
`k`, `d` the latching tick and fraction, `dc` the compensation [2^-16 ns]. The stamp is taken once tick k has come (R42). The bearing
offset comes off a packet sample at the tick at which it reaches the loop, floored to 2^-32 ns (R89, DESIGN CHOICE, log 175). -/
def State.loopEvent (s : State) (src : Fin 96) (k : DWord) (d : BitVec 14) (x : Option (Int × Bool)) (dc : Int) (unw : Bool) : State :=
  if s.qualified src = false then s
  else
    { s with loops := Vector.ofFn (fun n : Fin 16 =>
        let l := s.loops[n]
        let tgt : Option (Fin 96) := l.sw.map (·.tgt)
        if l.sel ≠ some src ∧ tgt ≠ some src then l
        else
          let bound := match x with
            | none => true
            | some _ => decide (s.rf .loop n.val 0 27 24 = s.rf .port (bitsOf (s.streams[finMod 32 (src.val - 32)]).word 29 26) 0 26 24)
          if s.nomFreq src = 0 ∨ bound = false then l
          else
            let ev : LEv := match x with
              | none => LEv.latch l.tally s.tick ⟨some (k, d), -(dc * 2 ^ 10), none, false, unw, false⟩
              | some v => ⟨none, l.tally.now26, some (v.1 - s.bearingOffset n / 2 ^ 24), false, unw, v.2⟩
            let l := if l.sel = some src ∧ l.holdoffAt.isNone then { l with evs := l.evs ++ [ev] } else l
            if tgt = some src then { l with shadow := l.shadow ++ [ev] } else l) }

/-- Errors of the events of a sample: exact sum, count, PE_SAT (R89). A packet event's error beyond s64 saturates before the
mean and sets PE_SAT, as that of any other event does by R88 (DESIGN CHOICE, log 137). -/
def errSum (nom div : Nat) (evs : List LEv) : Int × Nat × Bool :=
  evs.foldl (fun a e =>
    let r := match e.e with
      | some v => satPE v e.sat
      | none => eventError e.r nom div
    (a.1 + r.1, a.2.1 + 1, a.2.2 || r.2)) (0, 0, false)

/-! ## The sample (R92 to R106) -/

/-- The output stage (R100, R101): f, CLAMP_SLOPE, CLAMP_PULL. -/
def Loop.output (l : Loop) : Int × Bool × Bool :=
  let fp := if l.code.holds then l.fho else l.fp
  let anchor : Option Int :=
    if l.par.slope = 0 then none
    else match l.code with
      | .locked => if l.hoValid then some l.est.fh else none
      | .holdover => some l.hoFh
      | .extended => some l.hoFh
      | .acquire => if l.acqHold then some l.fa else none
      | .freeRun => none
  let f1 := match anchor with
    | none => fp
    | some a => max (a - l.par.slope * 2 ^ 32) (min (a + l.par.slope * 2 ^ 32) fp)
  let pull : Int := Nat.min l.par.pull 0x80000000
  let f2 := satS 64 (max (-pull * 2 ^ 32) (min (pull * 2 ^ 32) f1))
  if l.code = .freeRun then (0, false, false) else (f2, decide (f1 ≠ fp), decide (f2 ≠ f1))

/-- Fabric cycles of the loop's budget at fs (R95). -/
def budget (fs : Nat) : Nat :=
  Nat.min 4096 (390625000 / fs - 90)

/-- A datapath fault (R97): the program ends; the loop goes to holdover where the estimate is valid, else to free run, and
holds until a keeper reloads or swaps the program. A twin takes the consumers over, and a transaction with them (R137). -/
def State.progFault (s : State) (n : Fin 16) (cause : Byte) (pc : Nat) : State :=
  let s := s.rcSet .loop n.val 0x08 0x10
  let s := s.raise (0x0200 + 4 * n.val + 2) clsB 0x13 (args8 ([cause, 0] ++ beBytes 2 pc))
  let s := if (s.loops[n]).role = .solo then s.abortSw n else s
  let s := (s.twinFault n).modLoop n (fun l => { l with heldFault := true, evalDue := none })
  let s := match (s.loops[n]).code with
    | .freeRun => s.modLoop n (fun l => { l with sel := none, evs := [] })
    | .holdover => if (s.loops[n]).hoValid then s else s.leaveSource n
    | .extended => if (s.loops[n]).hoValid then s.loopCode n .holdover else s.leaveSource n
    | _ => s.leaveSource n
  (s.report (0x11 + n.val % 2) 6).refresh

/-- Run the loop program on the sample (R94, R96, R97). In holdover its OUTF is ignored (R132). -/
def State.runProgram (s : State) (n : Fin 16) (x : Int) (fw : BitVec 16) : State :=
  let l := s.loops[n]
  if l.heldFault then s
  else match l.prog.cur with
  | none => (s.rcSet .loop n.val 0x08 0x20).modLoop n (fun y => { y with fp := 0 })
  | some sh =>
    match subset n sh.code sh.consts.length with
    | none => (s.rcSet .loop n.val 0x08 0x20).modLoop n (fun y => { y with fp := 0 })
    | some prog =>
      let res := runLoop prog sh x fw (sh.wcet + 1) ⟨{ l.cpu with pc := 0, stack := [] }, none, []⟩
      let r := match res with
        | .stop r => r
        | .fault _ r => r
      let s := s.modLoop n (fun y => { y with cpu := r.cpu })
      let s := r.sats.foldr (fun a s =>
        (s.rcSet .loop n.val 0x08 0x08).raise (0x0200 + 4 * n.val + 2) clsB 0x12 (args8 [byte a.val])) s
      match res with
      | .fault c r => s.progFault n c r.cpu.pc
      | .stop r =>
        match r.out with
        | some f => if l.code.holds then s else s.modLoop n (fun y => { y with fp := f })
        | none => s.rcSet .loop n.val 0x08 0x20

/-- A sample to every statistics unit of a stream (R184): KIND, INDEX. -/
def State.offerSmp (s : State) (kind index : Nat) (x : Int) (unw gap : Bool) : State :=
  { s with units := Vector.ofFn (fun u : Fin 32 =>
      let q := s.units[u]
      if s.rb .stats u.val 0 31 ∧ s.rf .stats u.val 0 30 28 = kind ∧ s.rf .stats u.val 0 27 20 = index then
        { q with inq := q.inq ++ [⟨x, unw, gap⟩] }
      else q) }

/-- What the sample adds to the estimator's tally second (R129). -/
def State.secondAdd (s : State) (n : Fin 16) (f : Int) (nonEmpty bad : Bool) (wasLocked : Bool) : State :=
  let l := s.loops[n]
  let fs := s.sampleRate n
  let a := l.secAcc
  let a : SecAcc :=
    ⟨a.sum + f, a.n + 1, a.ok && wasLocked && decide (l.code = .locked) && l.sw.isNone && !bad, a.any || nonEmpty⟩
  s.modLoop n (fun x =>
    if l.instLast then
      { x with secReady := if a.ok && a.any && decide (a.n = fs) then some a else none, secAcc := SecAcc.reset }
    else { x with secAcc := a })

/-- TALLY_DIFF of the pair (R135), and the run of closes within TWIN_TOL (R136). -/
def State.tallyDiff (s : State) (primary : Fin 16) : State :=
  let p := s.loops[primary]
  let m := twinOf primary
  let q := s.loops[m]
  if p.role ≠ .primary ∨ q.role ≠ .standby then s
  else
    let r : Int := (wrapNs * 2 ^ 56 : Nat)
    let d0 := (q.tally.now.toInt56 - p.tally.now.toInt56) % r
    let d := satS 64 ((if d0 ≥ r / 2 then d0 - r else d0) / 2 ^ 24)
    let s := s.modLoop primary (fun l => { l with tallyDiff := d })
    s.modLoop m (fun l => { l with
      tallyDiff := d
      tolRun := if d.natAbs ≤ p.par.twinTol then Nat.min 16 (l.tolRun + 1) else 0 })

/-- What the primary's close does for its standby: entry into STANDBY, a repaired twin's return, TALLY_DIFF (R134 to R137). -/
def State.twinClose (s : State) (n : Fin 16) : State :=
  if (s.loops[n]).role ≠ .primary then s
  else
    let m := twinOf n
    let q := s.loops[m]
    let back := q.role = .failed ∧ q.heldFault = false ∧ s.loopEn m ∧ s.rb .loop m.val 0 17
      ∧ (s.fm.blks[finMod 128 (0x11 + m.val % 2)]).st = .inService
    let s := if q.role = .standby ∧ q.mirrorDue then s.twinTake n
      else if back then s.twinTake n
      else s
    s.tallyDiff n

/-- ACQ_TMO has passed since the entry into ACQUIRE (R105, R108). -/
def State.acqOver (s : State) (n : Fin 16) : Bool :=
  let l := s.loops[n]
  decide (l.code = .acquire) && decide (l.par.acqTmo ≠ 0) && s.passed l.acqAt (l.par.acqTmo * secTicks)

/-- The standby leaves with its primary where ACQ_TMO ends ACQUIRE: on this row of R105 it keeps fp as the primary does. -/
def State.standbyLeaves (s : State) (n : Fin 16) : State :=
  let q := s.loops[twinOf n]
  if (s.loops[n]).role == .primary && q.role == .standby && !q.mirrorDue && !q.heldFault && q.code.follows then
    s.leaveSource (twinOf n)
  else s

/-- ACQ_TMO expires (R105, R107, R121): the source is barred, then the transaction aborts and its held candidate writes
take effect, which clear the bars, the new one with them (log entry 112). -/
def State.acqEnds (s : State) (n : Fin 16) : State :=
  let s := match (s.loops[n]).sel with
    | some x => s.bar n x
    | none => s
  (((s.abortSw n).leaveSource n).standbyLeaves n).mirrorSel n

/-- Transitions at a close (R105, R106): no source, ACQ_TMO, unlock, lock; at most one. A loop keeps its code during a
transaction (R122). -/
def State.transitions (s : State) (n : Fin 16) : State :=
  let l := s.loops[n]
  if l.code.follows ∧ l.sel = none ∧ l.holdoffAt.isNone then s.loseSource n
  else if s.acqOver n then (if l.role = .standby then s else s.acqEnds n)
  else if l.sw.isSome then s
  else if l.code = .locked ∧ l.unlockRun ≥ Nat.max 1 l.par.unlockCnt then
    let s := (s.rcSet .loop n.val 0x08 0x01).rcCount .loop n.val 0x08 31 16
    (s.modLoop n (fun x => { x with acqAt := s.tick, acqHold := false, lockRun := 0, unlockRun := 0 })).loopCode n .acquire
  else if l.code = .acquire ∧ l.lockRun ≥ Nat.max 1 l.par.lockCnt then
    (s.modLoop n (fun x => { x with lockRun := 0, unlockRun := 0 })).loopCode n .locked
  else s

/-- The window of a transaction takes a closed shadow sample (R120). -/
def Loop.window (l : Loop) (m : Option Int) : Loop :=
  match l.sw, m with
  | some w, some v =>
    if w.full ∨ l.instLo < w.at_ then l
    else
      let win := v :: w.win
      { l with sw := some { w with win := win, full := decide (win.length ≥ l.boSamples) } }
  | _, _ => l

/-- Mean of a sample's event errors, with PE_SAT. -/
def State.sampleMean (s : State) (src : Option (Fin 96)) (evs : List LEv) : Option Int × Bool :=
  match src with
  | none => (none, false)
  | some x =>
    let r := errSum (s.nomFreq x) (s.srcDiv x) evs
    if r.2.1 = 0 then (none, false) else (some (roundDiv r.1 r.2.1), r.2.2)

/-- The flags word (R93). -/
def flagsWord (l : Loop) (hist unw peSat empty : Bool) : BitVec 16 :=
  BitVec.ofNat 16 (l.code.num * 256 + b2n l.hoValid * 128 + b2n l.clampSlope * 64 + b2n l.clampPull * 32 + b2n l.newSrc * 16
    + b2n hist * 8 + b2n unw * 4 + b2n peSat * 2 + b2n empty)

/-- The stamp of an event has been taken and lies at or before a sample instant. -/
def LEv.upTo (hi : Int) (e : LEv) : Bool :=
  e.raw.isNone && decide (e.r ≤ hi)

/-- The close of a sample (R92 to R106). An event at or before the previous sample instant, whose sample has closed, is in
no sample. With ACQ_PBO 0b01 the first sample's error is that of the first sample that is not EMPTY (log entry 113); the
sample on which PBO is reloaded carries NEW_SRC. -/
def State.closeSample (s : State) (n : Fin 16) : State :=
  let l0 := s.loops[n]
  let own := l0.evs.filter (fun e => e.upTo l0.instHi && decide (l0.instLo < e.r))
  let sh := l0.shadow.filter (fun e => e.upTo l0.instHi && decide (l0.instLo < e.r))
  let s := s.modLoop n (fun l => { l with
    instTick := none
    closedEn := true
    wasStandby := false
    evs := l.evs.filter (fun e => !e.upTo l0.instHi)
    shadow := l.shadow.filter (fun e => !e.upTo l0.instHi) })
  let (mean, sat1) := s.sampleMean l0.sel own
  let s := match mean with
    | some m => if l0.acqFirst then (s.setPbo n m).modLoop n (fun l => { l with acqFirst := false, newSrc := true }) else s
    | none => s
  let l := s.loops[n]
  let x0 := match mean with
    | some m => m - l.pbo
    | none => 0
  let x := satS 64 x0
  let peSat := sat1 || decide (x ≠ x0)
  let empty := mean.isNone
  let hist := own.any (·.hist)
  let unw := own.any (·.unw)
  let fw := flagsWord l hist unw peSat empty
  let bad := l.clampPull || peSat
  let s := if peSat then s.rcSet .loop n.val 0x08 0x04 else s
  let s := s.modLoop n (fun y => { y with
    x := x
    flagsW := fw
    unwarmed := unw
    newSrc := false
    lockRun := if empty then y.lockRun else if decide (x.natAbs ≤ y.par.lockPh * 2 ^ 16) && !bad then y.lockRun + 1 else 0
    unlockRun := if empty then y.unlockRun
      else if decide (x.natAbs > Nat.max y.par.lockPh y.par.unlockPh * 2 ^ 16) || bad then y.unlockRun + 1 else 0 })
  let s := if empty then s else s.offerSmp 2 n.val (roundDiv x (2 ^ 8)) unw false
  let s := s.modLoop n (fun y => y.window (s.sampleMean (l0.sw.map (·.tgt)) sh).1)
  let lf := s.loops[n]
  let s := s.runProgram n x fw
  let faulted := (s.loops[n]).heldFault
  -- the output stage acts in the state of the sample; a fault leaves the previous fp
  let (f, cs, cp) := ({ s.loops[n] with code := lf.code, acqHold := lf.acqHold, fho := (s.loops[n]).fho } : Loop).output
  let s := s.modLoop n (fun y => { y with f := f, clampSlope := cs, clampPull := cp })
  let s := if cs || cp then s.rcSet .loop n.val 0x08 0x02 else s
  let s := s.setWide .loop n.val 0x60 2 (BitVec.ofInt 64 f).toNat
  let s := s.issueWords n f
  let s := if faulted then s else s.transitions n
  let s := s.secondAdd n f (!empty) (l.clampPull || l.clampSlope || peSat || unw) (decide (lf.code = .locked))
  let s := s.twinClose n
  s.modLoop n (fun y => { y with par := s.loopPar n })

/-- The commit of a transaction (R120, R124, R126). -/
def State.commitSw (s : State) (n : Fin 16) : State :=
  match (s.loops[n]).sw with
  | none => s
  | some w =>
    let l := s.loops[n]
    let buildOut := !s.rb .loop (s.govern n).val 0x14 31
    let p := satS 64 (roundDiv (w.win.foldl (· + ·) 0) w.win.length)
    let new := if buildOut then p else l.pbo
    let delta := satS 64 (l.pbo - new)
    let s := s.setPbo n new
    let s := s.switchRecord n l.sel (some w.tgt) w.reason.num delta
    let s := s.modLoop n (fun x => { (x.spoilSecond (s.sampleRate n)) with
      sel := some w.tgt, sw := none, newSrc := true, evs := x.shadow, shadow := [] })
    ((s.releaseCands n).mirrorSel n).swapPending n

/-! ## The estimator (R129 to R133) -/

/-- Clear an estimator (R130). -/
def State.clearEst (s : State) (n : Fin 16) : State :=
  s.modLoop n (fun l => { l with est := { l.est with cnt := 0 } })

/-- Predicted time error reached (R133): PE(τ) × 10^9 ≥ HO_TE_LIMIT, exactly. -/
def Loop.expired (l : Loop) (a : Int) : Bool :=
  let t := l.hoTau
  -- unc·2^-56·τ + |A|·2^-72·τ²/8, times 2^75
  let pe := l.est.unc * t * 2 ^ 19 + a.natAbs * t * t
  (decide (l.par.hoTmo ≠ 0) && decide (t ≥ l.par.hoTmo))
    || (decide (l.par.hoTeLimit ≠ 0) && decide (pe * secNs ≥ l.par.hoTeLimit * 2 ^ 75))

/-- Leave ACQUIRE or LOCKED by oven loss (R13). -/
def State.loopsOscLost (s : State) : State :=
  overFin 16 s (fun n s => if (s.loops[n]).code.follows then (s.abortSw n).loseSource n else s)

end Sys2Proof.Machine
end

