-- ==== Sys2Proof/Machine/MonOps.lean ====
section
/-! DEFINITION. Operations of the monitor slots: events, alarms, gates, qualification, order (R53 to R85). -/

namespace Sys2Proof.Machine

/-! ## Registers of a slot (R54, R417 to R420) -/

/-- Offset of a slot register in its REFIN instance. -/
def slotOff (src : Fin 96) (o : Nat) : Nat :=
  0x20 + 0x20 * (src.val / 16) + o

/-- A directly mapped register of a slot. -/
def State.sl (s : State) (src : Fin 96) (o : Nat) : Word :=
  s.r .refin (src.val % 16) (slotOff src o)

def State.slf (s : State) (src : Fin 96) (o hi lo : Nat) : Nat :=
  bitsOf (s.sl src o) hi lo

/-- A field of the slot's monitor-table entry. -/
def State.mn (s : State) (src : Fin 96) (o hi lo : Nat) : Nat :=
  s.rf .mon src.val o hi lo

/-- CTRL.EN of a slot. -/
def State.slotEn (s : State) (src : Fin 96) : Bool :=
  bitOf (s.sl src 0) 31

/-- Owner of the verdict, if QUAL_OWNER names an engine (R78). -/
def State.owner (s : State) (src : Fin 96) : Option (Fin 8) :=
  fin? 8 (s.slf src 0 27 24)

/-- The verdict in force (R78): GRANT with no owner. -/
def State.grant (s : State) (src : Fin 96) : Bool :=
  match s.owner src with
  | none => true
  | some _ => bitOf (s.sl src 0x14) 31 && !(s.slots[src]).stale

/-- The verdict is stale (R79). -/
def State.isStale (s : State) (src : Fin 96) : Bool :=
  (s.owner src).isSome && (s.slots[src]).stale

/-- DELAY_COMP as written [2^-16 ns]. -/
def State.delayComp (s : State) (src : Fin 96) : Int :=
  (s.sl src 0x10).toInt

/-- The source kinds that deliver phase-error samples (R59). -/
def isPacket (src : Fin 96) : Bool :=
  32 ≤ src.val && src.val < 64

/-- The stream of a packet source. -/
def streamOf (src : Fin 96) : Fin 32 :=
  finMod 32 (src.val - 32)

/-- The survey channel mapped to a survey input, if any (R23). -/
def State.mapped (s : State) (i : Nat) : Option (Fin 192) :=
  if s.rb .pinmux 0 (4 * i) 31 then fin? 192 (s.rf .pinmux 0 (4 * i) 7 0) else none

/-- CFG of a survey channel. -/
def State.chCfg (s : State) (ch : Fin 192) : Word :=
  s.r .survey (ch.val / 16) (0x800 + 0x80 * (ch.val % 16))

/-- A condition of immediate loss is present (R59); a swap fails the recovered clock for its duration (R267); a cascade source
whose CASC_DIV is 0 is off (R206). -/
def State.lossNow (s : State) (src : Fin 96) : Bool :=
  let i := src.val
  if i < 16 then (s.slots[src]).losCause || decide (s.rf .refin i 0 31 30 = 3)
  else if h : i < 32 then
    let p := s.ports[i - 16]'(by omega)
    !p.link || !p.cdr || (decide (s.rf .port (i - 16) 0 31 30 = 2) && decide (p.r.lstate = .down ∨ p.r.lstate = .train ∨ p.r.lstate = .swap))
  else if i < 64 then !(s.streams[streamOf src]).open_
  else if i < 88 then
    match s.mapped (i - 64) with
    | none => true
    | some ch => decide (bitsOf (s.chCfg ch) 31 28 ≠ 1)
  else !(s.syns[finMod 9 (i - 88)]).lock || decide (s.rf .synth (i - 88) 0x20 23 0 = 0)

/-! ## Qualification (R72 to R79) -/

/-- Codes of QSTATE (R72). -/
def QState.num : QState → Nat
  | .off => 0
  | .failed => 1
  | .wait => 2
  | .qualified => 3
  | .lockout => 4

/-- QUAL (R83, R414). -/
def State.qualNotice (s : State) (src : Fin 96) (oq nq : QState) (oo no_ : Nat) : State :=
  s.raise (3 * src.val) clsA 0x01 (args8 [byte oq.num, byte nq.num, byte oo, byte no_, byte (s.slots[src]).cause.toNat])

/-- The witness goes OFF and gives no readings (R70): the gate in progress and the count of consecutive gates end, and the
first gate after gives a reference reading (DESIGN CHOICE, log 12). -/
def State.settleOff (s : State) (src : Fin 96) : State :=
  if s.rf .device 0 0x0C 31 24 = src.val then
    s.modOven (fun o => { o with count := 0, prev := none, gate := { o.gate with first := none, n := 0, last := none } })
  else s

/-- Change QSTATE and CAUSE: QUAL is raised, the loops take note (R75, R83, R114). The timer of WAIT takes WTR as it stands
at the entry; a later write does not move it (DESIGN CHOICE, log 135). -/
def State.setQ (s : State) (src : Fin 96) (q : QState) (cause : Nat) : State :=
  let old := (s.slots[src]).qstate
  if old = q then s.modSlot src (fun x => { x with cause := BitVec.ofNat 4 cause })
  else
    let o := s.order src
    let s := s.modSlot src (fun x => { x with qstate := q, cause := BitVec.ofNat 4 cause })
    let s := if q = .off then s.settleOff src else s
    let s := match q with
      | .wait =>
        let wtr := s.mn src 0x1C 31 20
        let x := s.slots[src]
        let now := decide (wtr = 0) || (bitOf (s.sl src 0) 29 && !x.everQual)
        s.modSlot src (fun x => { x with wtrAt := some (if now then s.tick else s.tick + BitVec.ofNat 64 (wtr * secTicks)) })
      | .qualified => s.modSlot src (fun x => { x with wtrAt := none, everQual := true })
      | _ => s.modSlot src (fun x => { x with wtrAt := none })
    (s.qualNotice src old q o o).sourceChanged src (decide (old = .qualified))

/-- Lowest code of a hard alarm that is set (R73, R74, R76). -/
def State.hardAlarm (s : State) (src : Fin 96) : Option Nat :=
  let x := s.slots[src]
  let m := s.sl src 0
  if x.los then some 1
  else if x.act && !bitOf m 13 then some 2
  else if x.freq && !bitOf m 14 then some 3
  else if x.phase && !bitOf m 15 then some 4
  else none

/-- The cause of a CAUSE code is still there (R76): the alarm set and hard, the verdict REVOKE or stale. -/
def State.causeHolds (s : State) (src : Fin 96) (c : Nat) : Bool :=
  let x := s.slots[src]
  let m := s.sl src 0
  match c with
  | 1 => x.los
  | 2 => x.act && !bitOf m 13
  | 3 => x.freq && !bitOf m 14
  | 4 => x.phase && !bitOf m 15
  | 5 => !s.grant src
  | 6 => s.isStale src
  | _ => true

/-- One evaluation of R75 and R76. -/
def State.evalQ1 (s : State) (src : Fin 96) : State :=
  let x := s.slots[src]
  match x.qstate with
  | .off => s
  | .lockout => s
  | .failed =>
    match s.hardAlarm src with
    | some c => if s.causeHolds src x.cause.toNat then s else s.modSlot src (fun y => { y with cause := BitVec.ofNat 4 c })
    | none => if s.isStale src then s.modSlot src (fun y => { y with cause := 6 }) else s.setQ src .wait x.cause.toNat
  | .wait =>
    match s.hardAlarm src with
    | some c => s.setQ src .failed c
    | none =>
      match x.wtrAt with
      | some k => if s.grant src && s.passed k 0 then s.setQ src .qualified 0 else s
      | none => s
  | .qualified =>
    match s.hardAlarm src with
    | some c => s.setQ src .failed c
    | none => if s.grant src then s else s.setQ src .failed (if s.isStale src then 6 else 5)

/-- The evaluations of the fabric cycles that follow a change, until nothing changes (R75). -/
def State.evalQ (s : State) (src : Fin 96) : State :=
  ((s.evalQ1 src).evalQ1 src).evalQ1 src

/-! ## Order (R80, R81) -/

/-- Partner's legend of a Reistica port, if accepted (R254). -/
def State.partnerOrder (s : State) (p : Fin 16) : Nat :=
  if s.rf .port p.val 0 31 30 ≠ 2 then 15
  else match (s.ports[p]).r.partner with
  | some bs => (bs.getD 17 0xFF).toNat / 16
  | none => 15

/-- KIND, PORT and SESSION of a STREAM word (R242). -/
def bindingOf (w : Word) : Bool × Fin 16 × Nat :=
  (bitOf w 30, finMod 16 (bitsOf w 29 26), bitsOf w 25 17)

/-- Port and session of a stream's binding in force (R242). -/
def State.binding (s : State) (i : Fin 32) : Bool × Fin 16 × Nat :=
  bindingOf (s.streams[i]).word

/-- A session's record (R240 to R243). -/
def State.sess (s : State) (p : Fin 16) (id : Nat) : Option Sess :=
  s.sessions.find? (fun x => decide (x.port = p ∧ x.id.toNat = id))

/-- ORDER and ESSM_MISMATCH of a source (R80, R81). -/
def State.orderOf (s : State) (src : Fin 96) : Nat × Bool :=
  let i := src.val
  match s.slf src 0 22 20 with
  | 0 => (s.slf src 0 19 16, false)
  | 1 =>
    match fin? 16 (i - 16) with
    | some p =>
      let q := s.ports[p]
      if i < 16 ∨ i ≥ 32 ∨ q.qlFailed then (15, false)
      else orderOfSsm (s.rb .port p.val 0 18) q.qlRx.toNat q.essmRx.toNat
    | none => (15, false)
  | 2 =>
    if isPacket src = false then (15, false)
    else
      let (kind, p, id) := s.binding (streamOf src)
      match s.sess p id with
      | some x => (if kind then 15 else orderOfClass x.cls.toNat, false)
      | none => (15, false)
  | 3 =>
    if isPacket src then
      let (kind, p, _) := s.binding (streamOf src)
      (if kind then s.partnerOrder p else 15, false)
    else if 16 ≤ i ∧ i < 32 then (s.partnerOrder (finMod 16 (i - 16)), false)
    else (15, false)
  | 4 => (s.slf src 0x14 19 16, false)
  | _ => (15, false)

/-- Bring a slot's ORDER to its present value (R80): a change raises QUAL, the loops take note, and so does what the ports send
(R237). -/
def State.refreshOrder (s : State) (src : Fin 96) : State :=
  let (o, mm) := s.orderOf src
  let x := s.slots[src]
  let s := s.modSlot src (fun y => { y with essmMismatch := mm })
  if x.order.toNat = o then s
  else
    let s := s.modSlot src (fun y => { y with order := BitVec.ofNat 4 o })
    ((s.qualNotice src x.qstate x.qstate x.order.toNat o).sourceChanged src (decide (x.qstate = .qualified))).qlRefresh

/-- Every slot's ORDER. -/
def State.refreshOrders (s : State) : State :=
  overFin 96 s (fun i s => s.refreshOrder i)

/-! ## Alarms (R63 to R68, R83) -/

/-- Alarm levels. -/
structure Alarms where
  los : Bool
  act : Bool
  freq : Bool
  phase : Bool
  deriving DecidableEq, Repr

def Slot.alarms (x : Slot) : Alarms :=
  ⟨x.los, x.act, x.freq, x.phase⟩

/-- One alarm's set or clear: hit bit and notice. -/
def State.alarmEdge (s : State) (src : Fin 96) (i : Nat) (old new : Bool) : State :=
  if old = new then s
  else if new then
    (s.rcSet .refin (src.val % 16) (slotOff src 0x08) (mkBit (31 - i) true)).raise (3 * src.val + 1) clsC 0x03 (args8 [byte i])
  else s.raise (3 * src.val + 1) clsC 0x04 (args8 [byte i])

/-- The frequency monitor's gate after an ACT or LOS alarm (R65, R66): discarded. -/
def Slot.dropGates (x : Slot) : Slot :=
  { x with
    freqInvalid := if x.gate.isSome || x.gateEnd.isSome then true else x.freqInvalid
    gate := none
    gateN := 0
    gateEnd := none
    goodGates := 0 }

/-- The phase monitor's history is empty after an ACT or LOS alarm clears (R68). -/
def Slot.dropPhase (x : Slot) : Slot :=
  { x with
    phAnchor := none
    phIdx := 0
    phN := 0
    phSum := 0
    phIdxSum := 0
    phDone := none
    phHist := [] }

/-- Put the alarm levels, then evaluate the qualification (R66, R75, R83). A set ACT or LOS sets FREQ and spoils the
settle gate of a witness (R70). -/
def State.setAlarms (s : State) (src : Fin 96) (a : Alarms) : State :=
  let x := s.slots[src]
  let risen := (a.act && !x.act) || (a.los && !x.los)
  let a : Alarms := { a with freq := a.freq || risen, act := a.act || a.los }
  let fell := (x.act && !a.act) || (x.los && !a.los)
  let s := s.modSlot src (fun y =>
    let y := { y with los := a.los, act := a.act, freq := a.freq, phase := a.phase }
    let y := if risen then { y.dropGates with goodActs := 0 } else y
    if fell then y.dropPhase else y)
  let s := s.alarmEdge src 0 x.los a.los
  let s := s.alarmEdge src 1 x.act a.act
  let s := s.alarmEdge src 2 x.freq a.freq
  let s := s.alarmEdge src 3 x.phase a.phase
  let s := if (a.act || a.los) && decide (s.rf .device 0 0x0C 31 24 = src.val) then s.modOven (fun o => { o with spoiled := true }) else s
  s.evalQ src

/-- A watermark comparison (R84): i = 0 FREQ_WM, 1 PH_WM. A compared value above 32 bits enters the notice as 0xFFFF_FFFF
(DESIGN CHOICE, log 121). -/
def State.watermark (s : State) (src : Fin 96) (i : Nat) (value level : Nat) : State :=
  let x := s.slots[src]
  let old := if i = 0 then x.fwmState else x.pwmState
  let new := decide (value ≥ level)
  let s := s.modSlot src (fun y => if i = 0 then { y with fwmState := new } else { y with pwmState := new })
  if new && !old then
    let s := s.rcSet .refin (src.val % 16) (slotOff src 0x08) (mkBit (27 - i) true)
    let s := s.rcCount .refin (src.val % 16) (slotOff src 0x0C) (31 - 16 * i) (16 - 16 * i)
    s.raise (3 * src.val + 2) clsC 0x05 (args8 ([byte i, 0, 0, 0] ++ beBytes 4 (Nat.min value 0xFFFFFFFF)))
  else s

/-! ## Events (R59 to R68) -/

/-- The settle detector drops the gate in progress on its witness; the next event opens it anew (R70, log 12). -/
def State.settleDrop (s : State) (src : Fin 96) : State :=
  if s.rf .device 0 0x0C 31 24 = src.val then
    s.modOven (fun o => { o with gate := { o.gate with first := none, n := 0, last := none } })
  else s

/-- A DELAY_COMP write takes effect (R62). A gate of the settle detector begins again with the next event (DESIGN CHOICE,
log 12). -/
def State.applyDelayComp (s : State) (src : Fin 96) : State :=
  let x := s.slots[src]
  if x.dcPend = false then s
  else
    let new := s.delayComp src
    let s := s.modSlot src (fun y =>
      { y.dropGates.dropPhase with dc := new, dcPend := false, freqInvalid := true, goodGates := y.goodGates })
    (s.settleDrop src).bookConfig 0 0x01 src.val (low40 new) (low40 x.dc)

/-- Numerator of a spacing or an instant against P: units of [2^-32 / 25 ns] times NOM_FREQ; P itself. -/
def periodUnits (div : Nat) : Nat :=
  secNs * 25 * 2 ^ 64 * div

/-- Spacing within 0.75 P to 1.25 P (R63). -/
def spacingGood (sp : Int) (nom div : Nat) : Bool :=
  let v := sp * nom * 4
  decide ((3 * periodUnits div : Nat) ≤ v ∧ v ≤ (5 * periodUnits div : Nat))

/-- FGATE_LOG2 etc. as they stand (R55, R65). -/
def State.gateConfig (s : State) (src : Fin 96) : GateCfg :=
  { len := Nat.min 24 (s.mn src 0x08 12 8)
    fset := (s.r .mon src.val 0x0C).toNat
    fclr := Nat.min (s.r .mon src.val 0x10).toNat (s.r .mon src.val 0x0C).toNat
    cnt := Nat.max 1 (s.mn src 0x08 3 0)
    wm := (s.r .mon src.val 0x20).toNat
    nom := s.nomFreq src }

/-- The frequency monitor takes an event at t with sample x (R65). -/
def Slot.gateEvent (q : Slot) (cfg : GateCfg) (t x : Int) : Slot :=
  match q.gate with
  | none => { q with gate := some (t, x), gateN := 0, gateCfg := cfg }
  | some _ =>
    match q.gateEnd with
    | some _ => { q with gateN := q.gateN + 1 }
    | none =>
      if q.gateN + 1 ≥ 2 ^ q.gateCfg.len then { q with gateEnd := some (t, x), gateN := 0 }
      else { q with gateN := q.gateN + 1 }

/-- PH_AVG_LOG2, NOM_FREQ, PH_STEP, PH_WM and PH_HOLD as they stand (R55, R67). -/
def State.phaseConfig (s : State) (src : Fin 96) : PhaseCfg :=
  { len := Nat.min 16 (s.mn src 0x14 31 27)
    nom := s.nomFreq src
    step := (s.r .mon src.val 0x18).toNat
    wm := (s.r .mon src.val 0x24).toNat
    hold := Nat.max 1 (s.mn src 0x14 15 0) }

/-- The phase monitor takes an event at t with sample x (R67); a sample in progress keeps its configuration (R55). `div`
gives the nominal instants of edges: their grid is anchored at the first event after the history is emptied, and the mean
is brought to [2^-32 ns] by round_ne and sat to s64; each event takes the next nominal instant, so a missing or stray event
moves the samples by a period (DEDUCED, log 119). -/
def Slot.phaseEvent (q : Slot) (packet : Bool) (div : Nat) (cfg : PhaseCfg) (t x : Int) : Slot :=
  let anchor := q.phAnchor.getD t
  let cfg := if q.phN = 0 then cfg else q.phCfg
  let sum := q.phSum + (if packet then x else t - anchor)
  let ixs := q.phIdxSum + q.phIdx
  let cnt := q.phN + 1
  let q := { q with phAnchor := some anchor, phCfg := cfg, phIdx := q.phIdx + 1 }
  if cnt ≥ 2 ^ cfg.len then
    let v := if packet then roundDiv sum cnt
      else roundDiv (sum * cfg.nom - (ixs * periodUnits div : Nat)) (25 * cnt * cfg.nom)
    { q with phN := 0, phSum := 0, phIdxSum := 0, phDone := some (satS 64 v) }
  else { q with phN := cnt, phSum := sum, phIdxSum := ixs }

/-- First start bit of the oldest byte that the parser of a source's label channel holds, or of the byte that arrives
(R142, R143). -/
def State.labelFrom (s : State) (src : Fin 96) : Option DWord :=
  match fin? 192 (s.mn src 0x28 18 11) with
  | none => none
  | some ch =>
    let c := s.chans[ch]
    match c.parser.getLast? with
    | some e => some e.2
    | none => c.rxCur.map (·.start)

/-- The events that labels may still pair with (R143): those from a start bit on, and the newest one before it. -/
def keepEvents (start : Option DWord) (l : List LabEv) : List LabEv :=
  match start with
  | none => l.take 1
  | some k0 =>
    let later (e : LabEv) : Bool := decide ((k0.toNat : Int) * 2 ^ 37 ≤ ovenInstant e.k e.d)
    l.takeWhile later ++ (l.dropWhile later).take 1

/-- An event of the witness reaches the settle detector (R70): the first one opens the gate, which then begins no earlier than
that event, and the first one 16 s after the gate's start closes it (log entry 12). -/
def State.settleEvent (s : State) (src : Fin 96) (t x : Int) : State :=
  if s.rf .device 0 0x0C 31 24 ≠ src.val ∨ s.nomFreq src = 0 ∨ s.oven.settled then s
  else s.modOven (fun o =>
    let g := o.gate
    let due := decide (((g.start.toNat + 16 * secTicks : Nat) : Int) * 2 ^ 37 ≤ t)
    { o with gate := match g.first, g.last with
        | none, _ => { g with
            start := BitVec.ofNat 64 (Nat.max g.start.toNat ((t + (2 ^ 37 - 1)) / 2 ^ 37).toNat)
            first := some (t, x, s.nomFreq src), n := 0 }
        | some _, none => if due then { g with n := 0, last := some (t, x, g.n + 1) } else { g with n := g.n + 1 }
        | some _, some _ => { g with n := g.n + 1 } })

/-- An event of a source reaches its slot and the loops (R59 to R68). Latching tick k, fraction d; packet sources give their
sample x with its PE_SAT (R48), to which DELAY_COMP adds. While REF is isolated or retired its words are discarded (R377); a
packet sample crosses from the packet timing engine to the loop islands without it (R16). -/
def State.monEvent (s : State) (src : Fin 96) (k : DWord) (d : BitVec 14) (x0 : Int × Bool) (label : Option (Int × Int)) : State :=
  if (s.slots[src]).qstate = .off then s
  else if s.refUp = false then
    if isPacket src then s.loopEvent src k d (some (satPE (x0.1 + (s.slots[src]).dc * 2 ^ 16) x0.2)) 0 (!s.warm) else s
  else
    let s := s.applyDelayComp src
    let q := s.slots[src]
    let packet := isPacket src
    let pe := if packet then satPE (x0.1 + q.dc * 2 ^ 16) x0.2 else x0
    let x := pe.1
    let t := ovenInstant k d - (if packet then 0 else q.dc * (25 * 2 ^ 16))
    let nom := s.nomFreq src
    let div := s.srcDiv src
    let gone := q.los && !s.lossNow src
    let valid := q.last.isSome && !q.los
    let good := valid && decide (nom ≠ 0) && spacingGood (t - q.last.getD 0) nom div
    let bad := valid && decide (nom ≠ 0) && !good
    let runs := if good then q.goodActs + 1 else 0
    let clear := q.act && good && decide (runs ≥ Nat.max 1 (s.mn src 0x08 23 16))
    let le := s.stampLabel ⟨k, d, q.dc, none⟩
    let s := s.modSlot src (fun y => { y with
      last := some t
      lastRaw := ovenInstant k d
      goodActs := runs
      lastEv := if gone then [le] else keepEvents (s.labelFrom src) (le :: y.lastEv) })
    -- a gate begins with the event after the one that clears ACT; the clear empties the phase monitor's history (R68)
    let s := if !q.act && !q.los && good then s.modSlot src (fun y => y.gateEvent (s.gateConfig src) t x) else s
    let s := if nom = 0 then s else s.modSlot src (fun y => y.phaseEvent packet div (s.phaseConfig src) t x)
    let s := s.settleEvent src t x
    let y := s.slots[src]
    let s := if gone || bad || clear then
        s.setAlarms src ⟨y.los && !gone, (y.act || bad) && !clear, y.freq, y.phase⟩
      else s
    -- labels (R142, R143)
    let s : State := match label with
      | some (l, tt) => s.modSlot src (fun z => { z with labelQ := z.labelQ ++ [⟨l, .packet tt⟩] })
      | none =>
        -- LBL_WHICH 1: the first event after the start bit, within 1.25 nominal periods of it
        let sp (k0 : DWord) : Int := ovenInstant k d - (k0.toNat : Int) * 2 ^ 37
        let met := (s.slots[src]).labelWait.filter (fun e => decide (sp e.2 > 0))
        let ok := met.filter (fun e => decide (sp e.2 * nom * 4 ≤ (5 * periodUnits div : Nat)))
        (s.modSlot src (fun z => { z with
          labelWait := z.labelWait.filter (fun e => decide (sp e.2 ≤ 0))
          labelQ := z.labelQ ++ ok.map (fun e => ⟨e.1, .event le⟩) })).count .refin (src.val % 16) 0x08 15 0 (met.length - ok.length)
    s.loopEvent src k d (if packet then some pe else none) (if packet then 0 else q.dc) (!s.warm)

/-- The FREQ_VAL of a complete gate (R65): fr stays the exact quotient NOM_FREQ / DIV, and the gate's length is brought to
[2^-16 ns] by round_ne (DEDUCED, log 118). -/
def freqOf (packet : Bool) (nom div m : Nat) (a b : Int × Int) : Int :=
  let span := b.1 - a.1
  if packet then
    if span ≤ 0 then 0 else satS 64 (roundDiv (25 * (b.2 - a.2) * 2 ^ 72) span.toNat)
  else
    let el := (roundDiv span (25 * 2 ^ 16)).toNat
    if el * nom = 0 then 0
    else satS 64 (roundDiv (((m * secNs * 2 ^ 48 * div : Nat) - (el * nom : Nat) : Int) * 2 ^ 72) (el * nom))

/-- A frequency gate closes (R65, R66, R84). -/
def State.closeGate (s : State) (src : Fin 96) : State :=
  let q := s.slots[src]
  match q.gate, q.gateEnd with
  | some a, some b =>
    let c := q.gateCfg
    let n := freqOf (isPacket src) c.nom (s.srcDiv src) (2 ^ c.len) a b
    let fm := n.natAbs / 2 ^ 32
    let good := decide (fm < c.fclr)
    let cnt := if good then q.goodGates + 1 else 0
    let s := s.modSlot src (fun y => { y with
      gate := some b, gateEnd := none, gateCfg := s.gateConfig src, freqVal := n, freqInvalid := false, goodGates := cnt })
    let s := s.watermark src 0 fm c.wm
    let s := s.offerSmp 4 src.val n (!s.warm) false
    let y := s.slots[src]
    if fm ≥ c.fset then s.setAlarms src ⟨y.los, y.act, true, y.phase⟩
    else if y.freq && decide (cnt ≥ c.cnt) then s.setAlarms src ⟨y.los, y.act, false, y.phase⟩
    else s
  | _, _ => s

/-- A phase sample completes (R67, R68, R84). -/
def State.phaseSample (s : State) (src : Fin 96) : State :=
  let q := s.slots[src]
  match q.phDone with
  | none => s
  | some x =>
    let s := s.modSlot src (fun y => { y with phDone := none, phHist := (x :: y.phHist).take 2 })
    match q.phHist with
    | [x1, x2] =>
      let h := satS 64 (x - 2 * x1 + x2)
      let v := h.natAbs / 2 ^ 16
      let s := s.watermark src 1 v q.phCfg.wm
      if v > q.phCfg.step then
        let s := s.modSlot src (fun y => { y with phSetAt := some s.tick })
        let y := s.slots[src]
        s.setAlarms src ⟨y.los, y.act, y.freq, true⟩
      else s
    | _ => s

/-- The witness of the settle detector shows ACT or LOS, so the gate in progress is spoiled (R70). -/
def State.witnessBad (s : State) : Bool :=
  match fin? 96 (s.rf .device 0 0x0C 31 24) with
  | some w => (s.slots[w]).act || (s.slots[w]).los
  | none => false

/-- LOS set by an immediate loss (R59, R64). -/
def State.setLos (s : State) (src : Fin 96) : State :=
  let y := s.slots[src]
  if y.qstate = .off ∨ y.los then s else s.setAlarms src ⟨true, true, true, y.phase⟩

/-- A monitor-table or slot write that must act now: pre-divider restart (R57). -/
def State.restartDiv (s : State) (src : Fin 96) : State :=
  s.modSlot src (fun y => { y with preDiv := 0 })

end Sys2Proof.Machine
end

