-- ==== Sys2Proof/Machine/DatumOps.lean ====
section
/-! DEFINITION. Operations of the datum clocks: time labels and sets, UTC, civil dates, the ToD messages, reading the time
(R142 to R156). -/

namespace Sys2Proof.Machine

/-! ## Time labels (R142 to R146) -/

/-- The label's event against loop n: r on the tally and T(r) on the loop's datum clock [2^-26 ns]; none where the
loop takes no sample of this source (R90), whose datum clock is that of the PORT in force for its window (R242). -/
def State.labelStamps (s : State) (src : Fin 96) (n : Fin 16) (b : Lbl) : Option (Int × Int) :=
  match b.of with
  | .event e => e.stamps.map (fun st =>
      (st.1[n], match fin? 8 (s.rf .loop n.val 0 27 24) with
        | some d => st.2[d]
        | none => st.1[n]))
  | .packet t =>
    if s.rf .loop n.val 0 27 24 = s.rf .port (bitsOf (s.streams[finMod 32 (src.val - 32)]).word 29 26) 0 26 24 then
      some (t - s.bearingOffset n / 2 ^ 30, t)
    else none

/-- The phase error of the loop's last sample as R144 and R145 use it: 0 where EMPTY or PE_SAT. -/
def Loop.labelX (l : Loop) : Int :=
  if l.flagsW.getLsbD 0 || l.flagsW.getLsbD 1 then 0 else l.x

/-- Three labels whose L − r differ pairwise by less than 1 µs (R144). -/
def consistent (h : List (Int × Bool)) : Bool :=
  match h with
  | [a, b, c] =>
    let lim := 1000 * 2 ^ 26
    decide ((a.1 - b.1).natAbs < lim) && decide ((a.1 - c.1).natAbs < lim) && decide ((b.1 - c.1).natAbs < lim)
  | _ => false

/-- One label of `src` at loop n: it counts toward consistency, and may issue a time set (R144, R145). -/
def State.labelAtLoop (s : State) (src : Fin 96) (b : Lbl) (n : Fin 16) : State :=
  match s.labelStamps src n b with
  | none => s
  | some (r, t) =>
    let l := s.loops[n]
    let x := l.labelX
    let bad := decide ((b.l * 2 ^ 6 + x - t * 2 ^ 6).natAbs ≥ secNs / 2 * 2 ^ 32)
    let h := ((b.l - r, bad) :: (s.slots[src]).labelHist[n]).take 3
    let s := s.modSlot src (fun q => { q with labelHist := q.labelHist.set n h })
    match fin? 8 (s.rf .loop n.val 0 27 24) with
    | none => s
    | some d =>
      let c := s.datums[d]
      if s.loopEn n && decide (c.assigned = some n) && decide (l.role ≠ .standby) && l.code.follows && decide (l.sel = some src)
          && l.sw.isNone && consistent h && (!c.set || h.all (·.2)) then
        s.sendWord n (.datum d) (.tset (b.l * 2 ^ 30 + x * 2 ^ 24 - r * 2 ^ 30) src) false
      else s

/-- The label's event has been stamped, its latching tick having come (R42). -/
def Lbl.ready (b : Lbl) : Bool :=
  match b.of with
  | .event e => e.stamps.isSome
  | .packet _ => true

/-- The oldest label of a source is judged, once its event has its stamps (R42, R144). -/
def State.judgeLabel (s : State) (src : Fin 96) : State :=
  match (s.slots[src]).labelQ with
  | [] => s
  | b :: q =>
    if b.ready = false then s
    else
    let s := s.modSlot src (fun x => { x with labelQ := q })
    overFin 16 s (fun n s => s.labelAtLoop src b n)

/-- A UART label is discarded and counted (R143). -/
def State.dropLabel (s : State) (src : Fin 96) : State :=
  s.count .refin (src.val % 16) 0x08 15 0

/-- A UART label L [2^-26 ns] with its first start bit at tick k0 reaches its source (R143). It arrives at the tick of its
last byte, and the preceding event of the 900 ms bound is the newest event then (DESIGN CHOICE, log 139). -/
def State.pairLabel (s : State) (src : Fin 96) (l : Int) (k0 : DWord) : State :=
  let q := s.slots[src]
  let start : Int := (k0.toNat : Int) * 2 ^ 37
  let now : Int := (s.tick.toNat : Int) * 2 ^ 37
  let late := match q.lastEv.head? with
    | some e => decide (now - ovenInstant e.k e.d > 900000000 * 25 * 2 ^ 32)
    | none => false
  if late then s.dropLabel src
  else if s.rb .mon src.val 0x28 8 then
    match (q.lastEv.reverse.find? (fun e => decide (ovenInstant e.k e.d > start))) with
    | some e =>
      if (ovenInstant e.k e.d - start) * s.nomFreq src * 4 ≤ (5 * periodUnits (s.srcDiv src) : Nat) then
        s.modSlot src (fun x => { x with labelQ := x.labelQ ++ [⟨l, .event e⟩] })
      else s.dropLabel src
    | none => s.modSlot src (fun x => { x with labelWait := x.labelWait ++ [(l, k0)] })
  else
    match q.lastEv.find? (fun e => decide (ovenInstant e.k e.d < start)) with
    | some e => s.modSlot src (fun x => { x with labelQ := x.labelQ ++ [⟨l, .event e⟩] })
    | none => s.dropLabel src

/-- A label has waited for its event longer than 1.25 nominal periods (R143, LBL_WHICH 1). -/
def State.labelOld (s : State) (src : Fin 96) (e : Int × DWord) : Bool :=
  decide (((s.tick.toNat : Int) - e.2.toNat) * 2 ^ 37 * s.nomFreq src * 4 > (5 * periodUnits (s.srcDiv src) : Nat))

/-- Labels that waited too long are discarded and counted (R143). -/
def State.expireLabels (s : State) (src : Fin 96) : State :=
  let l := (s.slots[src]).labelWait
  let live := l.filter (fun e => !s.labelOld src e)
  if live.length = l.length then s
  else (s.modSlot src (fun x => { x with labelWait := live })).count .refin (src.val % 16) 0x08 15 0 (l.length - live.length)

/-! ## TAI and UTC (R149, R150) -/

/-- TAI_UTC of a datum clock. -/
def State.taiUtc (s : State) (d : Fin 8) : Int :=
  signed 16 (s.rf .datum d.val 0x10 15 0)

/-- LEAP of a datum clock; the reserved code acts as none (R149). -/
def State.leapCode (s : State) (d : Fin 8) : Nat :=
  let c := s.rf .datum d.val 0x10 31 30
  if c = 3 then 0 else c

/-- The last TAI second before LEAP acts, for the present UTC day (R149, R150); none where that second is already past: a
deletion named in the second 23:59:59 that it would delete has no instant left (log 123). `inserted`: the present second
is the day's 23:59:60, so that the day ends with it. -/
def State.leapTime (s : State) (d : Fin 8) (inserted : Bool) : Option Nat :=
  let off := s.taiUtc d
  let now := (s.datums[d]).clk.now.sec.toNat
  let dayEnd := (((now : Int) - off - b2n inserted) / 86400 + 1) * 86400
  let at_ (x : Int) : Option Nat := if (now : Int) ≤ x then some x.toNat else none
  match s.leapCode d with
  | 1 => at_ (dayEnd + off)
  | 2 => at_ (dayEnd + off - 2)
  | _ => none

/-- TAI_UTC in force for a TAI second, and whether that second is the inserted one 23:59:60 (R150). -/
def State.utcAt (s : State) (d : Fin 8) (sec : Nat) : Int × Bool :=
  let x := s.datums[d]
  let off := s.taiUtc d
  let ins := decide (s.leapCode d = 1)
  match x.leapAt with
  | some a => if sec > a then (if ins then off + 1 else off - 1, false) else (off, ins && decide (sec = a))
  | none => (off, false)

/-- A write of UTC takes effect: LEAP names the present day, a CONFIG record is written (R149, R191). A leap that was due
at this tick and has not acted is dropped (R324). Written in an inserted second with TAI_UTC unchanged, the present day
is the one that this second ends (log entry 27). -/
def State.utcWritten (s : State) (d : Fin 8) (old : Word) : State :=
  let x := s.datums[d]
  let inserted := decide (bitsOf old 31 30 = 1 ∧ x.leapAt = some x.clk.now.sec.toNat
    ∧ signed 16 (bitsOf old 15 0) = s.taiUtc d)
  let s := s.modDatum d (fun x => { x with leapAt := s.leapTime d inserted })
  s.bookConfig d 0x03 d.val (s.r .datum d.val 0x10).toNat old.toNat

/-- The leap instant (R150). -/
def State.leap (s : State) (d : Fin 8) : State :=
  match (s.datums[d]).leapAt with
  | none => s
  | some sec =>
    if (s.datums[d]).clk.now.sec.toNat ≤ sec then s
    else
      let off := s.taiUtc d
      let new : Int := if s.leapCode d = 1 then off + 1 else off - 1
      (s.wr .datum d.val 0x10 (fld (BitVec.ofInt 16 new).toNat 0)).modDatum d (fun x => { x with leapAt := none })

/-! ## Civil time -/

/-- Year, month and day of a day counted from 1970-01-01, from the year 0 on. -/
def civilOf (days : Int) : Nat × Nat × Nat :=
  let z := (days + 719468).toNat
  let era := z / 146097
  let doe := z % 146097
  let yoe := (doe - doe / 1460 + doe / 36524 - doe / 146096) / 365
  let doy := doe - (365 * yoe + yoe / 4 - yoe / 100)
  let mp := (5 * doy + 2) / 153
  let m := if mp < 10 then mp + 3 else mp - 9
  (yoe + era * 400 + (if m ≤ 2 then 1 else 0), m, doy - (153 * mp + 2) / 5 + 1)

/-- Days from 1970-01-01 of a date from 1970 on. -/
def daysOf (y m d : Nat) : Nat :=
  let y := if m ≤ 2 then y - 1 else y
  let yoe := y % 400
  let doy := (153 * (if m > 2 then m - 3 else m + 9) + 2) / 5 + d - 1
  y / 400 * 146097 + (yoe * 365 + yoe / 4 - yoe / 100 + doy) - 719468

/-! ## Label and ToD formats (R142, R153, R154) -/

/-- ASCII digits of n, w of them. -/
def digits : Nat → Nat → List Byte
  | 0, _ => []
  | w + 1, n => byte (0x30 + n / 10 ^ w % 10) :: digits w n

/-- Bytes of ASCII characters. -/
def ascii (t : String) : List Byte :=
  t.toList.map (fun c => byte c.toNat)

/-- CRC-16 of R153. -/
def crc16 (bs : List Byte) : Nat :=
  crc 16 0x1021 0xFFFF bs

/-- Upper-case hexadecimal digit. -/
def hexDigit (n : Nat) : Byte :=
  byte (if n < 10 then 0x30 + n else 0x37 + n)

/-- An NMEA 0183 sentence of the bytes between `$` and `*`. -/
def sentence (body : List Byte) : List Byte :=
  let c := (body.foldl (· ^^^ ·) 0).toNat
  0x24#8 :: body ++ [0x2A#8, hexDigit (c / 16), hexDigit (c % 16), 0x0D#8, 0x0A#8]

/-- What a parsed UART label amounts to: not a label, a label with a bad checksum, or L [2^-26 ns]. -/
inductive LabelParse where
  | none
  | bad
  | ok (l : Int)
  deriving DecidableEq, Repr

/-- The binary frame of R153, 22 bytes. -/
def parseBinary (f : List Byte) : LabelParse :=
  if f.take 2 ≠ [0xFA#8, 0x2C#8] then .none
  else if crc16 ((f.drop 2).take 18) ≠ beNat (f.drop 20) then .bad
  else if (f.drop 2).take 2 = [0x01#8, 0x10#8] then .ok ((beNat ((f.drop 4).take 6) * secNs : Nat) * 2 ^ 26)
  else .none

/-- Split bytes at a separator. -/
def splitAt (sep : Byte) : List Byte → List Byte → List (List Byte)
  | acc, [] => [acc.reverse]
  | acc, b :: r => if b = sep then acc.reverse :: splitAt sep [] r else splitAt sep (b :: acc) r

/-- Number of ASCII digits; none for an empty field or a byte that is no digit. -/
def number (bs : List Byte) : Option Nat :=
  if bs.isEmpty then none
  else bs.foldl (fun a b => match a with
    | some n => if 0x30 ≤ b.toNat ∧ b.toNat ≤ 0x39 then some (n * 10 + (b.toNat - 0x30)) else none
    | none => none) (some 0)

/-- Time of day hhmmss with an optional fraction [ns]. -/
def timeOfDay (bs : List Byte) : Option Nat :=
  match splitAt 0x2E [] bs with
  | [t] => (number t).map (fun v => (v / 10000 * 3600 + v / 100 % 100 * 60 + v % 100) * secNs)
  | [t, fr] =>
    match number t, number (fr.take 9) with
    | some v, some q => some ((v / 10000 * 3600 + v / 100 % 100 * 60 + v % 100) * secNs + q * 10 ^ (9 - (fr.take 9).length))
    | _, _ => none
  | _ => none

/-- Seconds of the day and date of the fields of a ZDA or RMC sentence [ns since 1970, UTC]. -/
def sentenceTime (rmc : Bool) (fs : List (List Byte)) : Option Nat :=
  match timeOfDay (fs.getD 1 []) with
  | none => none
  | some t =>
    if rmc then (number (fs.getD 9 [])).map (fun v => daysOf (2000 + v % 100) (v / 100 % 100) (v / 10000) * 86400 * secNs + t)
    else
      match number (fs.getD 2 []), number (fs.getD 3 []), number (fs.getD 4 []) with
      | some d, some m, some y => some (daysOf y m d * 86400 * secNs + t)
      | _, _, _ => none

/-- An NMEA sentence from `$` to its line end (R142): `utc` is LBL_UTC. -/
def parseNmea (rmc : Bool) (utc : Nat) (f : List Byte) : LabelParse :=
  match splitAt 0x2A [] (f.drop 1) with
  | [body, tail] =>
    if (body.drop 2).take 3 ≠ (if rmc then ascii "RMC" else ascii "ZDA") then .none
    else
      let c := (body.foldl (· ^^^ ·) 0).toNat
      if tail.take 2 ≠ [hexDigit (c / 16), hexDigit (c % 16)] then .bad
      else match sentenceTime rmc (splitAt 0x2C [] body) with
        | some t => .ok ((t + utc * secNs : Nat) * 2 ^ 26)
        | none => .none
  | _ => .none

/-- What a ToD message says of its clock and loop (R153, R154). -/
structure TodInfo where
  t : Stamp
  off : Int
  leap : Nat
  /-- The second described is the inserted one (R150). -/
  inserted : Bool
  traceable : Bool
  set : Bool
  code : LoopCode
  order : Nat
  unw : Bool
  stepped : Bool
  datum : Nat
  seq : Byte
  deriving DecidableEq, Repr

/-- The binary ToD frame (R153). -/
def todBinary (i : TodInfo) : List Byte :=
  let body := [0x01#8, 0x10#8] ++ beBytes 6 i.t.sec.toNat ++ beBytes 2 (BitVec.ofInt 16 i.off).toNat
    ++ [byte (b2n i.traceable * 128 + b2n i.set * 64 + b2n (i.code == .holdover) * 32 + b2n i.unw * 16 + b2n i.stepped * 8
          + i.leap * 2 + b2n (i.code == .extended)),
        byte (i.order * 16 + i.code.num), byte i.datum, i.seq, 0, 0, 0, 0]
  [0xFA#8, 0x2C#8] ++ body ++ beBytes 2 (crc16 body)

/-- UTC of the edge described: second of day (86,400 for an inserted second), date (R150). -/
def TodInfo.utc (i : TodInfo) : Nat × Nat × Nat × Nat :=
  let v : Int := (i.t.sec.toNat : Int) - i.off - b2n i.inserted
  ((v % 86400).toNat + b2n i.inserted, civilOf (v / 86400))

/-- hhmmss.00 of a second of the day; 86,400 is 23:59:60. -/
def clockText (t : Nat) : List Byte :=
  (if t = 86400 then ascii "235960" else digits 2 (t / 3600) ++ digits 2 (t / 60 % 60) ++ digits 2 (t % 60)) ++ ascii ".00"

/-- The ZDA sentence (R154). -/
def todZda (talk : List Byte) (i : TodInfo) : List Byte :=
  let (t, y, m, d) := i.utc
  sentence (talk ++ ascii "ZDA," ++ clockText t ++ ascii "," ++ digits 2 d ++ ascii "," ++ digits 2 m ++ ascii ","
    ++ digits 4 y ++ ascii ",00,00")

/-- The RMC sentence (R154). -/
def todRmc (talk : List Byte) (i : TodInfo) : List Byte :=
  let (t, y, m, d) := i.utc
  sentence (talk ++ ascii "RMC," ++ clockText t ++ ascii "," ++ ascii (if i.traceable then "A" else "V") ++ ascii ",,,,,,,"
    ++ digits 2 d ++ digits 2 m ++ digits 2 (y % 100) ++ ascii ",,,N")

/-! ## Reading the time (R156) -/

/-- A read of NOW_SEC_HI through path p latches the time and its flags in the path's holding registers. -/
def State.nowLatch (s : State) (p : Path) (d : Fin 8) : State :=
  let t := s.nowStamp d
  let put (m : RegMap) (o : Nat) (w : Word) : RegMap := mapPut m (key .datum d.val o) w
  s.modPath p (fun q => { q with
    readHold := put (put (put (put q.readHold 0x20 (fld (t.sec.toNat / 2 ^ 32) 0)) 0x24 (fld (t.sec.toNat % 2 ^ 32) 0))
      0x28 t.ns) 0x2C (fld (t.sub.toNat * 2 ^ 16 + (s.nowFlags d).toNat) 0) })

end Sys2Proof.Machine
end

