-- ==== Sys2Proof/Machine/MemOps.lean ====
section
/-! DEFINITION. SRAM with its word and page codes: checked reads, narrow writes, error counts and notices (R353 to R366). -/

namespace Sys2Proof.Machine

/-- Region bases, logical (R319, R353). -/
def graticuleBase : Nat := 20 * 2 ^ 22
def packetBase : Nat := 21 * 2 ^ 22
def statsBase : Nat := 22 * 2 ^ 22
def engineBase : Nat := 22 * 2 ^ 22 + 2 ^ 21
def stewardBase : Nat := 23 * 2 ^ 22 + 2 ^ 20

/-- The logical address lies in a region under the page code (R353). -/
def isPaged (a : Nat) : Bool :=
  decide (a < packetBase)

/-- Strength t of a code 0–3 (R359). -/
def bchT (c : Nat) : Nat :=
  4 * (c + 1)

/-- The strength tag of a physical page (R357): 0b01 at reset. -/
def Memory.tag (m : Memory) (page : Nat) : BitVec 2 :=
  (mapGet m.tags page).getD 1

/-- The logical bank that a physical bank serves, if any. -/
def Memory.logical (m : Memory) (p : Fin 25) : Option (Fin 24) :=
  (List.finRange 24).find? (fun l => decide (m.remap[l] = p))

/-- A bank's self-test is asked for (R364): at once, or behind that of another bank. -/
def State.bankReport (s : State) (p : Fin 25) (cause : Nat) : State :=
  if s.mem.testBank = none ∨ s.mem.testBank = some p then
    ({ s with mem := { s.mem with testBank := some p } }).report 0x58 cause
  else if s.mem.bankWait.contains p then s
  else { s with mem := { s.mem with bankWait := s.mem.bankWait ++ [p] } }

/-- One correctable error of the word at logical address a, physical ph (R364). -/
def State.memCe (s : State) (a ph : Nat) : State :=
  let p := ph / 2 ^ 22
  let s := s.rcCount .memory 0 (0x80 + 4 * p) 31 16
  let i := finMod 25 p
  let s := { s with mem := { s.mem with ceAt := s.mem.ceAt.set i (s.mem.ceAt[i] + 1) } }
  s.raise 0x0759 clsD 0x59 (args8 (beBytes 4 a))

/-- One uncorrectable error at logical address a, physical ph: counted, noticed, and its bank's self-test asked for (R364). -/
def State.memUe (s : State) (a ph : Nat) : State :=
  let s := s.rcCount .memory 0 (0x80 + 4 * (ph / 2 ^ 22)) 15 8
  let s := s.raise 0x0758 clsB 0x5A (args8 (beBytes 4 a ++ beBytes 4 ph))
  s.bankReport (finMod 25 (ph / 2 ^ 22)) 7

/-- Bits in error in a physical page. -/
def Memory.pageFlaws (m : Memory) (page : Nat) : Nat :=
  m.flaws.foldl (fun n e => if e.1 / 128 = page then n + e.2 else n) 0

/-- How a checked word came out. -/
inductive WordCheck where
  | ok
  | corrected
  | bad
  | wrong
  deriving DecidableEq, Repr

/-- Check the physical word w, at logical address a (R355, R358). -/
def State.checkAt (s : State) (a w : Nat) : WordCheck × State :=
  let n := s.mem.flaw w
  if n = 0 then (.ok, s)
  else if isPaged a then
    let page := w / 128
    if s.mem.pageFlaws page ≤ bchT (s.mem.tag page).toNat then
      (.corrected, ({ s with mem := { s.mem with flaws := s.mem.flaws.filter (fun e => decide (e.1 / 128 ≠ page)) } }).memCe a (8 * w))
    else (.bad, s.memUe a (8 * w))
  else if n = 1 then (.corrected, s.memCe a (8 * w))
  else if n = 2 then (.bad, s.memUe a (8 * w))
  else
    let (v, s) := s.free
    if v.getLsbD 0 then (.bad, s.memUe a (8 * w)) else (.wrong, s.memCe a (8 * w))

/-- Check the word that holds logical address a, as a read does (R355, R358). -/
def State.checkWord (s : State) (a : Nat) : WordCheck × State :=
  s.checkAt a (s.mem.phys a / 8)

/-- The bytes read from one word: those stored, or free ones where the word could not be corrected. -/
def State.wordBytes (s : State) (a : Nat) : (List Byte × Bool) × State :=
  let a := a - a % 8
  match s.checkWord a with
  | (.ok, s) => ((s.mem.bytes a 8, false), s)
  | (.corrected, s) => ((s.mem.bytes a 8, false), s)
  | (.bad, s) =>
    let (v, s) := s.free
    ((beBytes 8 v.toNat, true), s)
  | (.wrong, s) =>
    let (v, s) := s.free
    ((beBytes 8 v.toNat, false), s)

/-- Read k words from the word at logical address a. -/
def State.readWords : Nat → State → Nat → (List Byte × Bool) × State
  | 0, s, _ => (([], false), s)
  | k + 1, s, a =>
    let ((b, u), s) := s.wordBytes a
    let ((bs, us), s) := State.readWords k s (a + 8)
    ((b ++ bs, u || us), s)

/-- Read n bytes at logical address a: the bytes, and whether a touched word is uncorrectable. -/
def State.memRead (s : State) (a n : Nat) : (List Byte × Bool) × State :=
  let a0 := a - a % 8
  let ((bs, u), s) := State.readWords ((a % 8 + n + 7) / 8) s a0
  (((bs.drop (a % 8)).take n, u), s)

/-- Write the given bytes of one word (R356): a whole word gets fresh check bits; a narrower write merges, or is dropped
where the word is uncorrectable. -/
def State.writeWord (s : State) (a : Nat) (bs : List (Option Byte)) : State :=
  if bs.all (·.isNone) then s
  else
    let w := s.mem.phys a / 8
    let put (s : State) : State :=
      let m := ((List.range 8).zip bs).foldl (fun (m : Memory) p => match p.2 with
        | some b => m.setByte (a + p.1) b
        | none => m) s.mem
      { s with mem := m.setFlaw w 0 }
    if bs.all (·.isSome) then put s
    else match s.checkWord a with
      | (.ok, s) => put s
      | (.corrected, s) => put s
      | (.bad, s) => s
      | (.wrong, s) =>
        let (v, s) := s.free
        put { s with mem := s.mem.setBytes a (beBytes 8 v.toNat) }

/-- Write bytes at logical address a, word by word, absent bytes left as they are. -/
def State.memStore (s : State) (a : Nat) (bs : List (Option Byte)) : State :=
  let a0 := a - a % 8
  let l := List.replicate (a % 8) none ++ bs
  let n := (l.length + 7) / 8
  let l := l ++ List.replicate (8 * n - l.length) none
  (List.range n).foldl (fun s i => s.writeWord (a0 + 8 * i) ((l.drop (8 * i)).take 8)) s

/-- Remap the bank under mirroring to the spare (R366): correctable words are copied corrected, an uncorrectable one
poisoned, with two bits in error; an uncorrectable page keeps the errors that make it so. -/
def State.completeRemap (s : State) (p : Fin 25) : State :=
  match s.mem.logical p with
  | none => { s with mem := { s.mem with mirror := none, retiring := false } }
  | some l =>
    let m := s.mem
    let sh (a : Nat) : Nat := a - p.val * 2 ^ 22 + 24 * 2 ^ 22
    let inBank (a : Nat) : Bool := decide (a / 2 ^ 22 = p.val)
    let keep (a : Nat) : Bool := decide (a / 2 ^ 22 ≠ 24)
    let cells := (m.cells.filter (fun e => inBank e.1)).foldl (fun c e => mapSet c (sh e.1) e.2 0)
      (m.cells.filter (fun e => keep e.1))
    let bad (w : Nat) : Bool :=
      if isPaged (l.val * 2 ^ 22) then decide (m.pageFlaws (w / 128) > bchT (m.tag (w / 128)).toNat) else decide (m.flaw w ≥ 2)
    let flaws := (m.flaws.filter (fun e => inBank (8 * e.1) && bad e.1)).foldl (fun c e =>
      mapSet c (sh (8 * e.1) / 8) (if isPaged (l.val * 2 ^ 22) then Nat.max 2 e.2 else 2) 0) (m.flaws.filter (fun e => keep (8 * e.1)))
    let tags := (m.tags.filter (fun e => inBank (1024 * e.1))).foldl (fun c e => mapSet c (sh (1024 * e.1) / 1024) e.2 1)
      (m.tags.filter (fun e => keep (1024 * e.1)))
    let s := { s with mem := { m with
      cells := cells, flaws := flaws, tags := tags, remap := m.remap.set l 24, mirror := none, retiring := false, spareUsed := true, spareFor := p } }
    s.raise 0x0758 clsB 0x5B (args8 [byte l.val, byte 24])

/-- A retirement is counted in the archive (R368). -/
def State.retireCount (s : State) : State :=
  s.arcCount (fun c => { c with retirements := c.retirements + 1 })

/-- A physical bank is retired, or its retirement runs (R366). -/
def Memory.retires (m : Memory) (p : Fin 25) : Bool :=
  (decide (m.mirror = some p) && m.retiring) || (m.spareUsed && decide (m.spareFor = p))

/-- Retirement of a physical bank begins (R366): mirroring, or no spare. One that is retired already stays so. -/
def State.retireMem (s : State) (p : Fin 25) : State :=
  if s.mem.retires p then s
  else if s.mem.spareUsed ∨ s.mem.spareBad ∨ s.mem.mirror.isSome then s.raise 0x0758 clsB 0x5D 0
  else (({ s with mem := { s.mem with mirror := some p, retiring := true } }).retireCount).log (.retireBank p)

end Sys2Proof.Machine
end

