-- ==== Sys2Proof/Machine/SurveyOps.lean ====
section
/-! DEFINITION. Operations of the survey groups and channels: calibration, stamps, intervals, periods, emission, PPS and
ToD outputs, UART, hand-over (R151 to R182). -/

namespace Sys2Proof.Machine

/-! ## Places -/

/-- Group and channel within the group. -/
def grpOf (ch : Fin 192) : Fin 12 :=
  ⟨ch.val / 16, by omega⟩

def subOf (ch : Fin 192) : Fin 16 :=
  ⟨ch.val % 16, Nat.mod_lt _ (by decide)⟩

/-- Channel c of group g. -/
def chIx (g : Fin 12) (c : Fin 16) : Fin 192 :=
  ⟨16 * g.val + c.val, by omega⟩

/-- Offset of a channel register in its group. -/
def chOff (ch : Fin 192) (o : Nat) : Nat :=
  0x800 + 0x80 * (ch.val % 16) + o

/-- A channel register. -/
def State.chw (s : State) (ch : Fin 192) (o : Nat) : Word :=
  s.r .survey (ch.val / 16) (chOff ch o)

def State.chf (s : State) (ch : Fin 192) (o hi lo : Nat) : Nat :=
  bitsOf (s.chw ch o) hi lo

/-- MODE of a CFG word; 0xA–0xF act as 0x0 (R168). -/
def modeOf (w : Word) : Nat :=
  let m := bitsOf w 31 28
  if m ≥ 10 then 0 else m

/-- The mode is an input mode (R168). -/
def inputMode (w : Word) : Bool :=
  match modeOf w with
  | 1 | 2 | 3 | 6 | 8 => true
  | _ => false

/-- CFG outside a hand-over (R167): a word written with MODE unchanged acts from the next tick, but its DATUM and EDGE in an
input mode at the next edge. -/
def State.cfgAct (s : State) (ch : Fin 192) : Word :=
  let w := s.chCfg ch
  match (s.chans[ch]).cfgWait with
  | some (k, old) =>
    if s.tick.toNat < k.toNat then (if inputMode w then mix 0x07C00000 old w else old) else w
  | none => w

/-- The CFG in force at the present tick: none during a hand-over (R181). -/
def State.cfgNow (s : State) (ch : Fin 192) : Option Word :=
  match (s.chans[ch]).hand with
  | none => some (s.cfgAct ch)
  | some h => if s.tick.toNat < h.h.toNat then some h.cfg else none

/-- Datum clock of a CFG word. -/
def cfgDatum (w : Word) : Fin 8 :=
  finMod 8 (bitsOf w 26 24)

/-- The edge is selected by EDGE (R167). -/
def selects (w : Word) (fall : Bool) : Bool :=
  match bitsOf w 23 22 with
  | 1 => fall
  | 2 => true
  | _ => !fall

/-- Bit time in ticks (R169). -/
def State.baud (s : State) (ch : Fin 192) : Nat :=
  Nat.max 16 (s.chf ch 0x18 23 0)

/-- Bits of one frame: start, data, parity, stops (R169). -/
def State.frameBits (s : State) (ch : Fin 192) : Nat :=
  let p := s.chf ch 0x1C 30 29
  9 + (if p = 1 ∨ p = 2 then 1 else 0) + (if bitOf (s.chw ch 0x1C) 28 then 2 else 1)

/-! ## Calibration (R159 to R164) -/

/-- Sum of the first c entries. -/
def prefixSum (h : Nat → Nat) : Nat → Nat
  | 0 => 0
  | c + 1 => prefixSum h c + h c

/-- Entry c of the table of a histogram of m hits (R160). -/
def tabEntry (h : Nat → Nat) (m c : Nat) : Nat :=
  (roundDiv ((131072 * (2 * m + prefixSum h c + prefixSum h (c + 1)) : Nat) : Int) (50 * m)).toNat

/-- Lowest and highest code hit. -/
def hitRange (h : Nat → Nat) : Nat × Nat :=
  let l := (List.range 4096).filter (fun c => h c != 0)
  (l.headD 0, l.getLastD 4095)

/-- A table is valid (R160). -/
def tableValid (h : Nat → Nat) (m : Nat) : Bool :=
  let (lo, hi) := hitRange h
  (List.range 4096).all (fun c => (decide (c < lo) || decide (c > hi) || h c != 0) && decide (256 * h c ≤ m))

/-- Factory bin width of a code (R164, R368). -/
def factoryWidth (g : Fin 12) (core : Fin 17) (c : Nat) : Nat :=
  (Config.factoryByte (0x100000 + (g.val * 17 + core.val) * 4096 + c)).toNat

/-- Factory skew [2^-12 ns] (R164, R368). -/
def factorySkew (g : Fin 12) (ch : Fin 16) (core : Fin 17) : Int :=
  let a := 0x1CC000 + ((g.val * 16 + ch.val) * 17 + core.val) * 2
  signed 16 ((Config.factoryByte a).toNat * 256 + (Config.factoryByte (a + 1)).toNat)

/-- Skew of a channel through a core. -/
def State.skew (s : State) (g : Fin 12) (ch : Fin 16) (core : Fin 17) : Int :=
  (mapGet (s.groups[g]).skews (ch.val * 17 + core.val)).getD (factorySkew g ch core)

/-- The table entry of a raw code in a core, and whether the code was outside the hit range (R160, R164). -/
def State.lookup (s : State) (g : Fin 12) (core : Fin 17) (code : Nat) : Nat × Bool :=
  let c := (s.groups[g]).cores[core]
  match c.tab with
  | some l =>
    let k := Nat.max c.lo (Nat.min c.hi code)
    (l.getD k 0, decide (k ≠ code))
  | none =>
    let h := factoryWidth g core
    let (lo, hi) := hitRange h
    let k := Nat.max lo (Nat.min hi code)
    (tabEntry h (prefixSum h 4096) k, decide (k ≠ code))

/-- A fraction within the range of R159 [2^-12 ns]. -/
def clampFrac (d : Int) : Int :=
  max 0x0C00 (min 0x3100 d)

/-- The TDC fraction of a raw code on a channel, with CAL_RANGE (R159). -/
def State.fraction (s : State) (ch : Fin 192) (core : Fin 17) (code : Nat) : BitVec 14 × Bool :=
  let (e, out) := s.lookup (grpOf ch) core code
  let d : Int := e + s.skew (grpOf ch) (subOf ch) core
  let q := clampFrac d
  (BitVec.ofInt 14 q, out || decide (q ≠ d))

/-- Calibration flags of a stamp: CAL_FACT, CAL_FROZEN, CAL_RANGE (R170). -/
def State.calFlags (s : State) (g : Fin 12) (core : Fin 17) (range : Bool) : Byte :=
  flagByte false false false false false ((s.groups[g]).cores[core]).tab.isNone (s.groups[g]).frozen range

/-- The core that measures a channel (R158). -/
def State.coreAt (s : State) (ch : Fin 192) : Fin 17 :=
  (s.groups[grpOf ch]).coreOf[subOf ch]

/-- The measuring core whose table is oldest, with its channel (R161); among equally old tables that of the lowest channel
(DESIGN CHOICE, log 141). -/
def Group.oldest (g : Group) : Fin 16 × Fin 17 :=
  (List.finRange 16).foldl (fun (b : Fin 16 × Fin 17) c =>
    let x := g.coreOf[c]
    let a := g.cores[x]
    let o := g.cores[b.2]
    let key (t : TdcCore) : Nat := if t.tab.isNone then 0 else t.age.toNat + 1
    if key a < key o then (c, x) else b) (0, g.coreOf[(0 : Fin 16)])

/-- A rotation step starts (R161, R163): its parameters are taken. -/
def State.startRotation (s : State) (g : Fin 12) : State :=
  let q := s.groups[g]
  let p (o : Nat) := s.r .survey g.val o
  let early : Bool := match q.rotAt with
    | some k => !s.passed k (bitsOf q.rotParams.1 15 0 * msTicks)
    | none => false
  if s.ticking = false ∨ q.noRelief ∨ q.rot ≠ .idle ∨ early then s
  else s.modGroup g (fun q => { q with rot := .collecting, rotAt := some s.tick, rotParams := (p 4, p 8, p 0xC), invalids := 0 })

/-- Hits per table (R163). -/
def calHits (w : Word) : Nat :=
  2 ^ Nat.max 22 (Nat.min 28 (bitsOf w 31 27))

/-- Block g is under test or a report of it waits (R377). -/
def State.groupBusy (s : State) (g : Fin 12) : Bool :=
  (s.fm.blks[finMod 128 g.val]).st == .testing || s.fm.waiting.any (fun e => decide (e.1.val = g.val))

/-- A detector names a core of a group (R159, R161, R376): the block's report is of that core, unless it is merged into one
under way (R377). -/
def State.coreFault (s : State) (g : Fin 12) (core : Fin 17) : State :=
  let t := s.report g.val 4
  if s.groupBusy g = false ∧ t.groupBusy g then t.modGroup g (fun q => { q with faultCore := some core }) else t

/-- The relief core's table is invalid, or its overlap was rejected (R161, R162): it collects anew; after three in a row
it is reported. -/
def State.badTable (s : State) (g : Fin 12) : State :=
  let n := (s.groups[g]).invalids + 1
  if n ≥ 3 then
    (s.modGroup g (fun q => { q with invalids := 0, rot := .idle, newTab := ([], 0, 0) })).coreFault g (s.groups[g]).relief
  else s.modGroup g (fun q => { q with invalids := n, rot := .collecting, newTab := ([], 0, 0) })

/-- The relief core has its hits and builds a table (R160, R161). -/
def State.buildTable (s : State) (g : Fin 12) (hist : List Nat) : State :=
  let q := s.groups[g]
  let m := calHits q.rotParams.1
  let h (c : Nat) : Nat := hist.getD c 0
  if q.rot ≠ .collecting ∨ prefixSum h 4096 ≠ m then s
  else if tableValid h m then
    let (lo, hi) := hitRange h
    s.modGroup g (fun q => { q with
      rot := .overlap, newTab := ((List.range 4096).map (tabEntry h m), lo, hi), ovlAt := s.tick, ovlEdges := 0 })
  else s.badTable g

/-- The d of an overlap's event from a core with its table in use and a skew (R159, R162). -/
def State.overlapFrac (s : State) (g : Fin 12) (core : Fin 17) (skew : Int) (code : BitVec 12) : BitVec 14 :=
  BitVec.ofInt 14 (clampFrac ((s.lookup g core code.toNat).1 + skew))

/-- The same from the relief core with the table that it has just built (R162). -/
def State.newFrac (s : State) (g : Fin 12) (ch : Fin 16) (code : BitVec 12) : BitVec 14 :=
  let q := s.groups[g]
  let (l, lo, hi) := q.newTab
  BitVec.ofInt 14 (clampFrac (l.getD (Nat.max lo (Nat.min hi code.toNat)) 0 + s.skew g ch q.relief))

/-- Mean offset of two cores over the events of an overlap [2^-12 ns] (R162). -/
def overlapMean (dr dx : List (BitVec 14)) : Int :=
  let sum (l : List (BitVec 14)) : Int := l.foldl (fun a d => a + d.toNat) 0
  roundDiv (sum dr - sum dx) dr.length

/-- OVL_WIN of the step in ticks (R162, R163). -/
def Group.ovlWin (q : Group) : Nat :=
  bitsOf q.rotParams.2.1 15 0 * 3125 / 4

/-- OVL_N of the step, 0 acts as 1 (R163). -/
def Group.ovlN (q : Group) : Nat :=
  Nat.max 1 (bitsOf q.rotParams.2.1 31 16)

/-- The channel of the outgoing core has brought OVL_N edges within OVL_WIN, so the overlap is live (R162). -/
def Group.ovlLive (q : Group) : Bool :=
  decide (q.ovlEdges ≥ q.ovlN)

/-- An edge that the outgoing core measures within OVL_WIN of the overlap's start counts toward a live overlap (R162). -/
def State.overlapEdge (s : State) (ch : Fin 192) : State :=
  let q := s.groups[grpOf ch]
  if q.rot = .overlap ∧ q.oldest.1 = subOf ch ∧ s.passed q.ovlAt (q.ovlWin + 1) = false then
    s.modGroup (grpOf ch) (fun q => { q with ovlEdges := q.ovlEdges + 1 })
  else s

/-- Ticks in which a channel whose core was lost is without a core at most: 20 µs (R163). -/
def recoverTicks : Nat := 15625

/-- The tap overlap of 64 pulses by which the relief core takes the channel of a lost core (R163). -/
def State.recoverCore (s : State) (g : Fin 12) (c : Fin 16) (base : Int) (m : Int) : State :=
  s.modGroup g (fun q => { q with
    recover := none
    skews := mapPut q.skews (c.val * 17 + (q.coreOf[c]).val) (base - m) })

/-- An overlap completes (R162): live once the channel brought its edges, through the tap once the window has passed
without them; or it is that of a lost core's channel (R163). `dr` and `dx` are the raw codes of the events in the relief
core and in the outgoing one. RELIEF names the channel by its number 0–15 in the group (DESIGN CHOICE, log 180). -/
def State.overlap (s : State) (g : Fin 12) (dr dx : List (BitVec 12)) (tap : Bool) : State :=
  let q := s.groups[g]
  let n := q.ovlN
  match q.recover with
  | some (c, _, base) =>
    if tap ∧ dr.length = 64 ∧ dx.length = 64 then
      s.recoverCore g c base (overlapMean (dr.map (s.overlapFrac g q.coreOf[c] base))
        (dx.map (s.overlapFrac g q.relief (s.skew g c q.relief))))
    else s
  | none =>
  if q.rot ≠ .overlap ∨ dr.length ≠ n ∨ dx.length ≠ n ∨ (if tap then q.ovlLive || !s.passed q.ovlAt q.ovlWin else !q.ovlLive) then s
  else
    let (c, x) := q.oldest
    let m := overlapMean (dr.map (s.newFrac g c)) (dx.map (s.overlapFrac g x (s.skew g c x)))
    let r := q.relief
    let sk := s.skew g c r - m
    if m.natAbs > bitsOf q.rotParams.2.2 15 0 ∨ sk.natAbs > 0x0800 then s.badTable g
    else
      let core : TdcCore := ⟨some q.newTab.1, q.newTab.2.1, q.newTab.2.2, s.tick, false⟩
      let s := s.modGroup g (fun q => { q with
        cores := q.cores.set r core
        coreOf := q.coreOf.set c r
        relief := x
        skews := mapPut q.skews (c.val * 17 + r.val) sk
        rot := .idle
        newTab := ([], 0, 0)
        invalids := 0 })
      s.raise (0x03C0 + g.val) clsD 0x20 (args8 ([byte x.val, byte r.val, byte c.val, byte (b2n tap)]
        ++ beBytes 4 (BitVec.ofInt 32 m).toNat))

/-- A core is lost (R163): the relief core takes its channel with its last valid table, the one just built where an overlap
was in progress, and a skew from a tap overlap. Until that overlap is commanded the skew is a free value (log 31). -/
def State.loseCore (s : State) (g : Fin 12) (core : Fin 17) : State :=
  let q := s.groups[g]
  if q.noRelief then s
  else
    let (v, s) := s.free
    let sk : Int := (v.toNat % 0x1001 : Nat) - 0x0800
    let s := s.modGroup g (fun q => if q.rot = .overlap ∧ core ≠ q.relief then
        { q with cores := q.cores.set q.relief
                  { q.cores[q.relief] with tab := some q.newTab.1, lo := q.newTab.2.1, hi := q.newTab.2.2, age := s.tick } }
      else q)
    let s := s.modGroup g (fun q =>
      match (List.finRange 16).find? (fun c => decide (q.coreOf[c] = core)) with
      | some c => { q with
          coreOf := q.coreOf.set c q.relief
          recover := some (c, s.tick, s.skew g c q.relief)
          skews := mapPut q.skews (c.val * 17 + q.relief.val) sk
          relief := core }
      | none => { q with relief := core })
    let s := s.modGroup g (fun q => { q with noRelief := true, reliefLostAt := s.tick, rot := .idle, newTab := ([], 0, 0), invalids := 0 })
    s.raise (0x03C0 + g.val) clsB 0x21 (args8 [byte core.val])

/-- The lost core returns in the relief role (R381); a retired one does not (R163, R379). -/
def State.reliefBack (s : State) (g : Fin 12) : State :=
  s.modGroup g (fun q => if q.cores[q.relief].retired then { q with faultCore := none }
    else { q with noRelief := false, frozen := false, faultCore := none, recover := none })

/-! ## Burst FIFOs and crossings (R171, R172) -/

/-- CH_LOSS (R414): the channel's counts of crowded edges and dropped stamps. -/
def State.lossNotice (s : State) (ch : Fin 192) : State :=
  let n (hi lo : Nat) := s.rcLive .survey (ch.val / 16) (chOff ch 8) hi lo
  s.raise (0x0300 + ch.val) clsC 0x23 (args8 (beBytes 2 (n 31 16) ++ beBytes 2 (n 15 0)))

/-- A selected edge is lost to dead time (R171). -/
def State.crowdEdge (s : State) (ch : Fin 192) : State :=
  ((s.rcCount .survey (ch.val / 16) (chOff ch 8) 31 16).modChan ch (fun c => { c with crowd := true })).lossNotice ch

/-- An edge is neither stamped nor crowded but counted as dropped (R163, R380). -/
def State.dropEdge (s : State) (ch : Fin 192) : State :=
  (s.rcCount .survey (ch.val / 16) (chOff ch 8) 15 0).lossNotice ch

/-- An edge finds its channel's burst FIFO full: it is discarded, and the next stamp stored carries GAP (R172, R175). -/
def State.gapEdge (s : State) (ch : Fin 192) : State :=
  (s.dropEdge ch).modChan ch (fun c => { c with gap := true })

/-- The burst FIFO of a channel is full: 32 stamps, beside which a HANDOVER record takes no place (R172, R181). -/
def Chan.full (c : Chan) : Bool :=
  decide ((c.fifo.filter (fun r => r.kind.stamps)).length ≥ 32)

/-- A stamp enters its burst FIFO, or is discarded (R172). -/
def State.pushStamp (s : State) (ch : Fin 192) (r : RawStamp) : State :=
  let c := s.chans[ch]
  if c.full then s.gapEdge ch
  else
    let fl := r.flags ||| flagByte false false false c.crowd c.gap false false false
    s.modChan ch (fun c => { c with fifo := c.fifo ++ [{ r with flags := fl }], crowd := false, gap := false })

/-- The destination island of a stamp: A for DATUM0–3. -/
def RawStamp.islB (r : RawStamp) : Bool :=
  decide ((cfgDatum r.cfg).val ≥ 4)

/-- No stamp of a channel is on its way in a crossing. -/
def clearOf (ch : Fin 192) (l : List (RawStamp × Bool)) : Bool :=
  l.all (fun e => decide (e.1.ch ≠ ch))

/-- The group drains one stamp (R172): round robin, a full crossing leaves the stamp in its FIFO, and so does an older stamp
of its channel in the other crossing, so that the channel's records stay in time order (R193). -/
def State.drainFifo (s : State) (g : Fin 12) : State :=
  let q := s.groups[g]
  let fits (c : Fin 16) : Bool := match (s.chans[chIx g c]).fifo with
    | [] => false
    | r :: _ => if r.islB then decide (q.xb.length < 64) && clearOf r.ch q.xa else decide (q.xa.length < 64) && clearOf r.ch q.xb
  match ((List.range 16).map (fun i => finMod 16 (q.rr.val + i))).find? fits with
  | none => s
  | some c =>
    match (s.chans[chIx g c]).fifo with
    | [] => s
    | r :: rest =>
      let s := s.modChan (chIx g c) (fun x => { x with fifo := rest })
      s.modGroup g (fun q =>
        let q := { q with rr := finMod 16 (c.val + 1) }
        if r.islB then { q with xb := q.xb ++ [(r, false)] } else { q with xa := q.xa ++ [(r, false)] })

/-- The oldest stamp in a crossing that has not arrived becomes readable (R16). -/
def arriveFirst : List (RawStamp × Bool) → List (RawStamp × Bool)
  | [] => []
  | (r, true) :: l => (r, true) :: arriveFirst l
  | (r, false) :: l => (r, true) :: l

/-! ## Edges (R158, R170 to R176) -/

/-- dk ticks in [2^-12 ns], rounded (R34, R174, R176). -/
def elapsed12 (k0 k1 : DWord) (d0 d1 : BitVec 14) : Int :=
  roundDiv (((k1.toNat : Int) - k0.toNat) * 131072) 25 + (d0.toNat - d1.toNat)

/-- The interval of R174 [2^-16 ns]. -/
def interval16 (k0 k1 : DWord) (d0 d1 : BitVec 14) : Int :=
  roundDiv (((k1.toNat : Int) - k0.toNat) * (32 * 2 ^ 16)) 25 + (d0.toNat - d1.toNat) * 16

/-- A stamped edge of channel `ch` closes the open intervals of its group that name it in PAIR (R174). The result carries the
closing edge's flags (DESIGN CHOICE, log 168). -/
def State.closeIntervals (s : State) (ch : Fin 192) (k : DWord) (d : BitVec 14) (core : Fin 17) (fl : Byte) (fall : Bool) : State :=
  overFin 16 s (fun c s =>
    let x := chIx (grpOf ch) c
    match s.cfgNow x, (s.chans[x]).ivStart with
    | some w, some (k0, d0) =>
      if modeOf w = 2 ∧ bitsOf w 15 12 = (subOf ch).val ∧ ovenInstant k0 d0 < ovenInstant k d then
        let iv := (interval16 k0 k d0 d).toNat
        (s.modChan x (fun q => { q with ivStart := none })).pushStamp x ⟨k, d, x, core, fall, fl, w, .interval iv false⟩
      else s
    | _, _ => s)

/-- PERIOD mode takes a stamped edge (R176). -/
def State.periodEdge (s : State) (ch : Fin 192) (w : Word) (k : DWord) (d : BitVec 14) (core : Fin 17) (fl : Byte) (fall : Bool) : State :=
  let open_ (s : State) : State := s.modChan ch (fun q => { q with
    perOpen := some (k, d), perN := 0, perGate := Nat.max 1 (s.chw ch 0x0C).toNat })
  match (s.chans[ch]).perOpen with
  | none => open_ s
  | some (k0, d0) =>
    let c := s.chans[ch]
    let el := elapsed12 k0 k d0 d
    if el < (c.perGate * 1000 * 4096 : Nat) then s
    else
      let m := Nat.max 1 c.perN
      let per := (roundDiv (el * 2 ^ 20) m).toNat
      let frq := (roundDiv ((m * secNs * 2 ^ 44 : Nat) : Int) el.toNat).toNat
      let s := s.setWide .survey (ch.val / 16) (chOff ch 0x30) 2 (per % 2 ^ 64)
      let s := s.setWide .survey (ch.val / 16) (chOff ch 0x38) 2 (frq % 2 ^ 64)
      open_ (s.pushStamp ch ⟨k, d, ch, core, fall, fl, w, .period per false⟩)

/-- A code outside the table's range or a clamped fraction is reported (R159, R376). TDC_RANGE names the channel by its number 0–15 in the
group (DESIGN CHOICE, log 180). -/
def State.rangeFault (s : State) (ch : Fin 192) (core : Fin 17) : State :=
  (s.raise (0x03C0 + (grpOf ch).val) clsB 0x22 (args8 [byte core.val, byte (subOf ch).val])).coreFault (grpOf ch) core

/-- The start bit of a byte falls on a UART_RX channel with no byte in progress: the frame takes its parameters (R169,
R180). -/
def State.rxStart (s : State) (ch : Fin 192) (stamp : Option (BitVec 14 × Fin 17 × Byte)) : State :=
  s.modChan ch (fun c => { c with rxCur := some ⟨s.tick, s.frameBits ch * s.baud ch, s.chf ch 0x1C 30 29, bitOf (s.chw ch 0x1C) 28, stamp, s.cfgAct ch⟩ })

/-- A byte is in progress on a UART_RX channel. -/
def State.rxBusy (s : State) (ch : Fin 192) : Bool :=
  match (s.chans[ch]).rxCur with
  | some f => !s.passed f.start f.len
  | none => false

/-- A selected edge that its core measures at latching tick k and fraction d (R170, R174, R176, R180). A start or stop that
finds its channel's FIFO full is missed (R175). -/
def State.measured (s : State) (ch : Fin 192) (w : Word) (k : DWord) (d : BitVec 14) (core : Fin 17) (out fall : Bool) : State :=
  let s := (s.modChan ch (fun c => { c with lastFire := some (ovenInstant k d) })).overlapEdge ch
  let fl := s.calFlags (grpOf ch) core out
  let s := if out then s.rangeFault ch core else s
  let full := (s.chans[ch]).full
  let opened := (s.chans[ch]).ivStart.isSome
  match modeOf w with
  | 1 => (if full then s else s.closeIntervals ch k d core fl fall).pushStamp ch ⟨k, d, ch, core, fall, fl, w, .edge⟩
  | 8 => s.pushStamp ch ⟨k, d, ch, core, fall, fl, w, .gpio⟩
  | 2 =>
    if full then s.gapEdge ch
    else
      let s := s.closeIntervals ch k d core fl fall
      if opened then s else s.modChan ch (fun c => { c with ivStart := some (k, d) })
  | 6 => s.rxStart ch (some (d, core, s.calFlags (grpOf ch) core out))
  | _ => s.periodEdge ch w k d core fl fall

/-- The edge is one that the mode stamps or times (R167, R168, R170, R180): a selected one, or a start bit's in UART_RX. -/
def State.wantsEdge (s : State) (ch : Fin 192) (w : Word) (fall : Bool) : Bool :=
  match modeOf w with
  | 1 => selects w fall
  | 2 => selects w fall
  | 3 => selects w fall
  | 6 => fall && !s.rxBusy ch
  | 8 => selects w fall && bitOf w 21
  | _ => false

/-- The channel waits for its new core (R163). -/
def State.coreless (s : State) (ch : Fin 192) : Bool :=
  match (s.groups[grpOf ch]).recover with
  | some (c, k, _) => decide (c = subOf ch) && !s.passed k recoverTicks
  | none => false

/-- The core of the channel is dead at an instant (R171). -/
def Chan.dead (c : Chan) (inst : Int) : Bool :=
  match c.lastFire with
  | some f => decide (inst - f < 40 * 2 ^ 32)
  | none => false

/-- An edge at an instant ends a pulse narrower than 0.8 ns, so that it does not reach the comparator (R171, log 147). -/
def Chan.narrow (c : Chan) (inst : Int) (fall : Bool) : Bool :=
  match c.lastEdge with
  | some (p, f) => f != fall && decide (inst - p < 20 * 2 ^ 32)
  | none => false

/-- An edge crosses the threshold of a channel in the present tick interval (R158, R159, R170 to R176). A PERIOD gate closes
at the first edge that a core measures (DESIGN CHOICE, log 169). -/
def State.survEdge (s : State) (ch : Fin 192) (fall : Bool) (code : BitVec 12) : State :=
  let core := s.coreAt ch
  let k := s.tick + 2
  let f := s.fraction ch core code.toNat
  let narrow := s.ticking && (s.chans[ch]).narrow (ovenInstant k f.1) fall
  let s := s.modChan ch (fun c => { c with
    level := !fall
    lastEdge := if narrow || !s.ticking then none else some (ovenInstant k f.1, fall) })
  match s.cfgNow ch with
  | none => s
  | some w =>
    if narrow || s.wantsEdge ch w fall = false then s
    else if s.ticking then
      let s := if modeOf w = 3 then s.modChan ch (fun c => { c with perN := c.perN + 1 }) else s
      if s.coreless ch then (if modeOf w = 6 then s.rxStart ch none else s).dropEdge ch
      else if (s.chans[ch]).dead (ovenInstant k f.1) then (if modeOf w = 6 then s.rxStart ch none else s).crowdEdge ch
      else s.measured ch w k f.1 core f.2 fall
    else if (s.syns[8]).phase = .regain then s.dropEdge ch
    else s

/-- 2^40 ticks. -/
def ovfTicks : Nat := 2 ^ 40

/-- An interval is abandoned (R175). -/
def State.ovfInterval (s : State) (ch : Fin 192) : State :=
  match s.cfgNow ch, (s.chans[ch]).ivStart with
  | some w, some (k0, _) =>
    if modeOf w = 2 ∧ s.passed k0 ovfTicks then
      (s.modChan ch (fun c => { c with ivStart := none })).pushStamp ch
        ⟨s.tick, 0, ch, s.coreAt ch, false, s.calFlags (grpOf ch) (s.coreAt ch) false, w, .interval 0x7FFFFFFFFFFFFFFF true⟩
    else s
  | _, _ => s

/-- A period gate ends without its closing edge (R176). -/
def State.ovfPeriod (s : State) (ch : Fin 192) : State :=
  match s.cfgNow ch, (s.chans[ch]).perOpen with
  | some w, some (k0, _) =>
    if modeOf w = 3 ∧ s.passed k0 ovfTicks then
      (s.modChan ch (fun c => { c with perOpen := none, perN := 0 })).pushStamp ch
        ⟨s.tick, 0, ch, s.coreAt ch, false, s.calFlags (grpOf ch) (s.coreAt ch) false, w, .period 0 true⟩
    else s
  | _, _ => s

/-! ## Converted stamps (R42, R43, R170, R184, R282) -/

/-- NOM of a unit [2^-16 ns] (R183). -/
def State.statNom (s : State) (u : Fin 32) : Nat :=
  let n := s.wide .stats u.val 0x10 2
  if n = 0 then secNs * 2 ^ 16 else n

/-- A stamp to every statistics unit of its channel: the stamp deviation (R184). -/
def State.offerStamp (s : State) (ch : Fin 192) (t : Stamp) (unw gap : Bool) : State :=
  { s with units := Vector.ofFn (fun u : Fin 32 =>
      let q := s.units[u]
      if s.rb .stats u.val 0 31 ∧ s.rf .stats u.val 0 30 28 = 1 ∧ s.rf .stats u.val 0 27 20 = ch.val then
        let nom := s.statNom u
        let v := stamp16 t
        { q with inq := q.inq ++ [⟨v - nom * roundDiv v nom, unw, gap⟩] }
      else q) }

/-- A subscribed stamp enters the engines' stamp FIFOs (R282, R308). -/
def State.offerEngines (s : State) (ch : Fin 192) (d : Fin 8) (core : Fin 17) (fall : Bool) (t : Stamp) (fl : Byte) : State :=
  overFin 8 s (fun e s =>
    if (List.range 16).any (fun i => s.rb .engine e.val (0x40 + 4 * i) 31 && decide (s.rf .engine e.val (0x40 + 4 * i) 7 0 = ch.val)) then
      let q := s.engines[e]
      if q.run = .fault ∨ q.fifo.length ≥ 64 then
        (s.rcCount .engine e.val 0x18 31 16).modEng e (fun q => { q with gap := true })
      else
        let fl := fl ||| flagByte false false false false q.gap false false false
        let desc := BitVec.ofNat 27 (d.val * 2 ^ 24 + core.val * 2 ^ 17 + b2n fall * 2 ^ 16 + ch.val * 2 ^ 8 + fl.toNat)
        s.modEng e (fun q => { q with fifo := q.fifo ++ [⟨t, desc⟩], gap := false })
    else s)

/-- The sources whose survey input is mapped to a channel (R23). -/
def State.sourcesOf (s : State) (ch : Fin 192) : List (Fin 96) :=
  (List.finRange 96).filter (fun i => decide (64 ≤ i.val ∧ i.val < 88) && decide (s.mapped (i.val - 64) = some ch))

/-- The field book record of a converted stamp, if it writes one (R190): the group and whether BOOK of CFG asks for it. -/
def RawStamp.group (r : RawStamp) (d : Fin 8) (pre : Bool) (fl : Byte) (t : Stamp) : List Rec :=
  let c := byte r.ch.val
  let dev (target : Int) : Nat := (BitVec.ofInt 32 (satS 32 (stamp16 t - target))).toNat
  match r.kind with
  | .edge => [stampRec 0x01 d pre 0 fl t [c, byte (b2n r.fall * 128 + r.core.val)]]
  | .gpio => [stampRec 0x01 d pre 0 fl t [c, byte (b2n r.fall * 128 + r.core.val)]]
  | .interval iv ovf =>
    let a := stampRec 0x02 d pre (b2n ovf) fl t (c :: beBytes 6 (iv % 2 ^ 48))
    if iv ≥ 2 ^ 48 then [a, stampRec 0x03 d pre 0 fl t (beBytes 2 (iv / 2 ^ 48))] else [a]
  | .period per ovf =>
    let v := if ovf then 2 ^ 48 - 1 else Nat.min (2 ^ 48 - 1) (roundDiv per (2 ^ 16)).toNat
    [stampRec 0x04 d pre (b2n ovf) fl t (c :: beBytes 6 v)]
  | .uart b pe fe => [stampRec 0x07 d pre 0 fl t [c, b, byte (b2n pe * 2 + b2n fe)]]
  | .emit sch act late target => [stampRec 0x05 d pre (b2n late) fl t ([c, byte (sch.val * 64), act] ++ beBytes 4 (dev target))]
  | .handover old new held => [stampRec 0x11 d pre 0 fl t [c, byte (old.toNat * 16 + new.toNat), byte held.toNat]]
  | .pulse trail late stepped target =>
    [stampRec 0x06 d pre (b2n late + 2 * b2n stepped) fl t ([c, byte (b2n trail * 128), 0] ++ beBytes 4 (dev target))]

/-- A raw stamp in its datum island: conversion and fork (R42, R43, R170). -/
def State.convertStamp (s : State) (r : RawStamp) : State :=
  let d := cfgDatum r.cfg
  let (st, hist, slew) := (s.datums[d]).clk.stamp26 r.k r.d
  let unw := !s.warm
  let fl := r.flags ||| flagByte unw hist slew false false false false false
  let t := exportStamp st
  let gap := fl.getLsbD 4 || fl.getLsbD 3
  let s := if bitOf r.cfg 21 then s.bookGroup (r.group d (s.preOf d r.k) fl t) else s
  match r.kind with
  | .edge =>
    let s := (s.offerStamp r.ch t unw gap).offerEngines r.ch d r.core r.fall t fl
    (s.sourcesOf r.ch).foldl (fun s i => s.modSlot i (fun q => { q with inbox := q.inbox ++ [⟨r.k, r.d, 0, fl, none, false⟩] })) s
  | .gpio => (s.offerStamp r.ch t unw gap).offerEngines r.ch d r.core r.fall t fl
  | .interval iv ovf => if ovf then s else s.offerSmp 1 r.ch.val iv unw gap
  | .period per ovf => if ovf then s else s.offerSmp 1 r.ch.val (roundDiv per (2 ^ 16)) unw gap
  | .uart _ _ _ => s.offerEngines r.ch d r.core r.fall t fl
  | _ => s

/-- Datum clock of a record (R189). -/
def Rec.datum (r : Rec) : Nat :=
  bitsOf (r.extractLsb' 96 32) 21 19

/-- Records of an island on their way to the writer: DATA for datum clocks 0 to 3, DATB for 4 to 7 (R16). -/
def State.memWords (s : State) (isl : Fin 2) : Nat :=
  (s.book.q.flatMap (fun g => g.filter (fun r => decide (r.datum / 4 = isl.val)))).length

/-- Stamps of an island on their way to the statistics units (R16). -/
def State.statWords (s : State) (isl : Fin 2) : Nat :=
  ((List.finRange 32).map (fun u =>
    match fin? 192 (s.rf .stats u.val 0 27 20) with
    | some ch => if s.rf .stats u.val 0 30 28 = 1 ∧ (cfgDatum (s.chCfg ch)).val / 4 = isl.val then (s.units[u]).inq.length else 0
    | none => 0)).sum

/-- The crossings behind a datum island have room for what one stamp writes (R16). -/
def State.islandRoom (s : State) (isl : Fin 2) : Bool :=
  decide (s.memWords isl + 2 ≤ 128 ∧ s.statWords isl < 64)

/-- The oldest arrived stamp of a crossing is converted (R42), from its latching tick on, so that EPOCH records up to that
tick come before it (R46, R193), while its datum island works (R377, R380). -/
def State.stampArrives (s : State) (g : Fin 12) (isl : Fin 2) : State :=
  let q := s.groups[g]
  match (if isl.val = 0 then q.xa else q.xb) with
  | (r, true) :: rest =>
    if r.k.toNat > s.tick.toNat ∨ s.islandRoom isl = false ∨ s.datUp isl = false then s
    else (s.modGroup g (fun q => if isl.val = 0 then { q with xa := rest } else { q with xb := rest })).convertStamp r
  | _ => s

/-! ## Emission (R151, R155, R177 to R180) -/

/-- R179: tick and fine delay [2^-12 ns] of a datum time [2^-56 ns] on one segment. -/
def Seg.place (g : Seg) (tt : Int) : DWord × Nat :=
  let inc : Int := g.inc.toNat
  let dk := (tt - g.tb.toInt56) / inc
  let res := tt - g.tb.toInt56 - dk * inc
  let o := (roundDiv (res * nomInc.toNat) (g.inc.toNat * 2 ^ 44)).toNat
  let k : Int := g.base.toNat + dk
  if o = 5243 then (BitVec.ofInt 64 (k + 1), 0) else (BitVec.ofInt 64 k, o)

/-- R179: the segment in force 64 ticks before the action's tick decides. -/
def Clock.place (c : Clock) (tt : Int) : DWord × Nat :=
  let k0 : DWord := ((c.segs.headD ⟨0, c.now, c.inc, c.n, false⟩).place tt).1
  (c.segAt (BitVec.ofInt 64 (max 0 ((k0.toNat : Int) - 64)))).1.place tt

/-- A level as driven: INV applied. -/
def invDrive (w : Word) (high : Bool) : Drive :=
  if (high != bitOf w 20) then .high else .low

/-- Instant of a driven edge [2^-32 / 25 ns]. -/
def driveInstant (k : DWord) (fine : Nat) : Int :=
  (k.toNat : Int) * 2 ^ 37 + fine * (25 * 2 ^ 20)

/-- What a channel sends out at its ball; a group held off by its supply drives nothing (R445). -/
def State.ballEmit (s : State) (ch : Fin 192) (e : Emission) : State :=
  if (s.groups[grpOf ch]).supplyHeld then s else s.emit e

/-- Drive a ball at tick k plus a fine delay, at the earliest 1.6 ns after its previous edge (R178): the tick and delay
taken, and whether they are late. Where the ball has the level already, no edge is driven. -/
def State.driveAt (s : State) (ch : Fin 192) (v : Drive) (k : DWord) (fine : Nat) : (DWord × Nat × Bool) × State :=
  let i := driveInstant k fine
  let (k, fine, late) := match (s.chans[ch]).lastDrive with
    | some p =>
      if i < p + 40 * 2 ^ 32 then
        let j := p + 40 * 2 ^ 32
        (BitVec.ofInt 64 (j / 2 ^ 37), (roundDiv (j % 2 ^ 37) (25 * 2 ^ 20)).toNat, true)
      else (k, fine, false)
    | none => (k, fine, false)
  if (s.chans[ch]).drv = v then ((k, fine, late), s)
  else
    let s := s.modChan ch (fun c => { c with drv := v, lastDrive := some (driveInstant k fine) })
    ((k, fine, late), s.ballEmit ch (.drive ch v k fine))

/-- Drive a pulse's trailing edge: at its own tick and fine delay, however short the pulse (R177, R180). -/
def State.driveTrail (s : State) (ch : Fin 192) (v : Drive) (k : DWord) (fine : Nat) : State :=
  if (s.chans[ch]).drv = v then s
  else (s.modChan ch (fun c => { c with drv := v, lastDrive := some (driveInstant k fine) })).ballEmit ch (.drive ch v k fine)

/-- A trailing edge joins those that are due, in the order of their instants (R178, R180). -/
def putTrail (e : DWord × Nat × Bool) : List (DWord × Nat × Bool) → List (DWord × Nat × Bool)
  | [] => [e]
  | x :: l => if driveInstant e.1 e.2.1 < driveInstant x.1 x.2.1 then e :: x :: l else x :: putTrail e l

/-- Drive the trailing edges whose instant lies before `i` [2^-32 / 25 ns]. -/
def State.trailsTo (s : State) (ch : Fin 192) (w : Word) (i : Int) : State :=
  let due (e : DWord × Nat × Bool) : Bool := decide (driveInstant e.1 e.2.1 < i)
  let l := (s.chans[ch]).trails
  (l.takeWhile due).foldl (fun s e => s.driveTrail ch (invDrive w e.2.2) e.1 e.2.1)
    (s.modChan ch (fun c => { c with trails := l.dropWhile due }))

/-- The comparator's readback stamp of an edge driven at tick k plus a fine delay (R179): latching tick k + 2, and a fraction
that places the edge within ±3 ps (12 × 2^-12 ns) of the launch; the deviation is a free value. The comparators of a group that
is held off by its supply stamp nothing (R445); an edge of a channel that waits for its new core is counted as dropped (R163). -/
def State.readback (s : State) (ch : Fin 192) (w : Word) (k : DWord) (fine : Nat) (kind : StampKind) : State :=
  if (s.groups[grpOf ch]).supplyHeld then s
  else if s.coreless ch then s.dropEdge ch
  else
  let (v, s) := s.free
  let d : Int := 10486 - (fine : Int) + ((v.toNat % 25 : Nat) : Int) - 12
  let core := s.coreAt ch
  s.pushStamp ch ⟨k + 2, BitVec.ofInt 14 d, ch, core, false, s.calFlags (grpOf ch) core false, w, kind⟩

/-- Offset of a schedule register. -/
def schedOff (j : Fin 4) (o : Nat) : Nat :=
  0x40 + 0x20 * j.val + o

/-- A schedule entry is skipped, or a write ignored: BAD (R177, R178, R423). -/
def State.schedBad (s : State) (g : Fin 12) (j : Fin 4) : State :=
  s.rcCount .survey g.val (schedOff j 0x10) 15 0

/-- Tick and fine delay of an instant [2^-32 / 25 ns]. -/
def instantPlace (i : Int) : DWord × Nat :=
  (BitVec.ofInt 64 (i / 2 ^ 37), (i % 2 ^ 37 / (25 * 2 ^ 20)).toNat)

/-- Where an entry of a schedule fires, and whether late (R178): at its own instant; at tick `now` where its time has passed,
or at its predecessor's instant where that is later. -/
def State.fireAt (s : State) (g : Fin 12) (j : Fin 4) (clk : Clock) (tt : Int) (now : DWord) (forced : Bool) : (DWord × Nat) × Bool :=
  let past := forced || decide (tt < clk.now.toInt56)
  let (k, fine) := if past then (now, 0) else clk.place tt
  match (s.groups[g]).fired[j] with
  | some i => if driveInstant k fine < i then (instantPlace i, true) else ((k, fine), past)
  | none => ((k, fine), past)

/-- An action acts on its channel (R177, R178): due at datum time `target`, or late; one held through a hand-over acts late at
`held`. A pulse's trailing edge follows when its time comes, also where a later action has driven the channel inside the
pulse (DESIGN CHOICE, log 143). Toggle drives high where the driver is off (DESIGN CHOICE, log 142), and the EMIT record of an
action that drives no edge carries a readback at the action's instant (DESIGN CHOICE, log 144). -/
def State.fireAct (s : State) (g : Fin 12) (j : Fin 4) (a : Act) (held : Option DWord) : State :=
  let ch := chIx g a.ch
  let w := (s.cfgNow ch).getD (s.chCfg ch)
  let tt := stamp16 a.target * 2 ^ 40
  let ((k, fine), past) := s.fireAt g j (s.datums[cfgDatum w]).clk tt (held.getD s.tick) held.isSome
  let s := s.modGroup g (fun q => { q with fired := q.fired.set j (some (driveInstant k fine)) })
  if modeOf w ≠ 4 ∨ bitsOf w 17 16 ≠ j.val then s.schedBad g j
  else
    let w' := if a.book then w ||| mkBit 21 true else w
    let book := a.book || bitOf w 21
    let s := s.trailsTo ch w (driveInstant k fine + 1)
    let cur := decide ((s.chans[ch]).drv = invDrive w true)
    let level : Option Bool := match a.act.toNat with
      | 0 => some false
      | 1 => some true
      | 2 => some (!cur)
      | 3 => some true
      | 4 => some false
      | _ => none
    let back (s : State) (k : DWord) (f : Nat) (late : Bool) : State :=
      if book then s.readback ch w' k f (.emit j a.act (past || late) (stamp16 a.target)) else s
    match level with
    | some v =>
      let ((k1, f1, l1), s) := s.driveAt ch (invDrive w v) k fine
      let s := back s k1 f1 l1
      if a.act.toNat = 3 ∨ a.act.toNat = 4 then
        s.modChan ch (fun c => { c with trails := putTrail (k1 + BitVec.ofNat 64 a.wid, f1, !v) c.trails })
      else s
    | none =>
      if a.act.toNat = 5 then
        let ((k1, f1, l1), s) := s.driveAt ch .off k fine
        back s k1 f1 l1
      else back s k fine false

/-- The fetcher reads the next entry of a schedule (R177, R178, R365). -/
def State.fetchAct (s : State) (g : Fin 12) (j : Fin 4) : State :=
  let size := s.rf .survey g.val (schedOff j 4) 18 0
  let head := s.rf .survey g.val (schedOff j 8) 17 0
  let tail := s.rf .survey g.val (schedOff j 0xC) 17 0
  if size ≤ 1 ∨ head = tail then s
  else
    let base := s.rf .survey g.val (schedOff j 0) 17 0
    let ((bs, bad), s) := s.memRead (graticuleBase + 16 * ((base + tail) % 262144)) 16
    let s := s.wr .survey g.val (schedOff j 0xC) (fld ((tail + 1) % size) 0)
    let n (o k : Nat) : Nat := beNat ((bs.drop o).take k)
    if bad then s
    else if n 6 4 ≥ secNs ∨ n 12 1 ≥ 16 then s.schedBad g j
    else
      let act := n 13 1
      let s := if act ≥ 7 then s.schedBad g j else s
      let a : Act := ⟨⟨BitVec.ofNat 48 (n 0 6), BitVec.ofNat 32 (n 6 4), BitVec.ofNat 16 (n 10 2)⟩, finMod 16 (n 12 1),
        byte (if act ≥ 7 then 6 else act), decide (n 14 1 ≥ 128), Nat.max 1 (n 15 1)⟩
      s.modGroup g (fun q => { q with acts := q.acts.set j (q.acts[j] ++ [a]) })

/-- The next action of a schedule fires once its time is reached or passed (R155, R178, R181), while its datum island works: one
whose time falls in the gap fires LATE after it (R380). -/
def State.fireNext (s : State) (g : Fin 12) (j : Fin 4) : State :=
  match (s.groups[g]).acts[j] with
  | [] => s
  | a :: rest =>
    let ch := chIx g a.ch
    let d := cfgDatum ((s.cfgNow ch).getD (s.chCfg ch))
    let clk := (s.datums[d]).clk
    if s.datUp (datIsl d) = false ∨ stamp16 a.target * 2 ^ 40 ≥ clk.now.toInt56 + clk.inc.toNat then s
    else
      let s := s.modGroup g (fun q => { q with acts := q.acts.set j rest })
      match s.cfgNow ch with
      | none => s.modChan ch (fun c => { c with hand := c.hand.map (fun h => { h with acts := h.acts ++ [(j, a)] }) })
      | some _ => s.fireAct g j a none

/-- Width of a pulse [ns] (R169). -/
def State.ppsWidth (s : State) (ch : Fin 192) : Nat :=
  Nat.max 8 (Nat.min 999999999 (s.chw ch 0x14).toNat)

/-- The whole second whose leading edge is the latest at or before datum time t [2^-56 ns] (R151, R180). -/
def State.ppsAt (s : State) (ch : Fin 192) (t : Int) : Int :=
  let sec := (t - (s.chw ch 0x10).toInt * 2 ^ 40) / (secNs * 2 ^ 56 : Nat)
  if bitOf (s.chw ch 0x1C) 31 then sec - sec % 2 else sec

/-- The whole second whose leading edge is the latest reached within the present tick. -/
def State.ppsSecond (s : State) (ch : Fin 192) : Int :=
  let clk := (s.datums[cfgDatum ((s.cfgNow ch).getD (s.cfgAct ch))]).clk
  s.ppsAt ch (clk.now.toInt56 + (clk.inc.toNat : Int) - 1)

/-- The edge of instant tt was passed over by the clock's latest step or set (R128, R151). -/
def Datum.steppedOver (d : Datum) (tt : Int) : Bool :=
  match d.lastMove with
  | none => false
  | some a =>
    let told := (d.clk.segAt (a - 1)).1.at56 a
    decide (told ≤ tt ∧ tt < (d.clk.segAt a).1.at56 a)

/-- A PULSE channel's clock, offset or seconds have changed: a second whose instant now lies in the past gives no edge, as the
channel emits only at an instant S + PPS_OFS or at a step (R151, R180). -/
def State.ppsRebase (s : State) (ch : Fin 192) : State :=
  let x := s.ppsAt ch ((s.datums[cfgDatum (s.cfgAct ch)]).clk.now.toInt56 - 1)
  s.modChan ch (fun c => { c with sLast := some (max (c.sLast.getD x) x) })

/-- A PULSE channel emits its leading edge (R151, R152, R180). -/
def State.ppsFire (s : State) (ch : Fin 192) : State :=
  match s.cfgNow ch with
  | none => s
  | some w =>
    let sec := s.ppsSecond ch
    let d := s.datums[cfgDatum w]
    let t16 := sec * (secNs * 2 ^ 16 : Nat) + (s.chw ch 0x10).toInt
    let tt := t16 * 2 ^ 40
    let due := match (s.chans[ch]).sLast with
      | some p => decide (sec > p)
      | none => decide (d.clk.now.toInt56 ≤ tt)
    if modeOf w ≠ 5 ∨ due = false ∨ s.ticking = false then s
    else
      let past := decide (tt < d.clk.now.toInt56)
      let stepped := past && d.steppedOver tt
      let (k, fine) := if past then (s.tick, 0) else d.clk.place tt
      let s := s.trailsTo ch w (driveInstant k fine + 1)
      let ((k1, f1, l1), s) := s.driveAt ch (invDrive w true) k fine
      let s := if bitOf w 21 then s.readback ch w k1 f1 (.pulse false (l1 || (past && !stepped)) stepped t16) else s
      let tot := f1 + s.ppsWidth ch * 4096
      let dk := tot * 25 / 131072
      let f2 := (roundDiv ((tot * 25 - dk * 131072 : Nat) : Int) 25).toNat
      let trail := if f2 = 5243 then (k1 + BitVec.ofNat 64 (dk + 1), 0) else (k1 + BitVec.ofNat 64 dk, f2)
      let s := s.modChan ch (fun c => { c with sLast := some sec, trails := putTrail (trail.1, trail.2, false) c.trails })
      overFin 192 s (fun c s =>
        if (s.cfgNow c).any (fun w => modeOf w == 7) && decide (s.chf c 0x20 31 24 = ch.val) then
          let dly := Nat.min 999 (s.chf c 0x1C 9 0)
          let next : Int := if bitOf (s.chw c 0x1C) 24 then (if bitOf (s.chw ch 0x1C) 31 then 2 else 1) else 0
          let t := stampOf16 (t16 + next * (secNs * 2 ^ 16 : Nat))
          let due : TodDue :=
            { t := t
              k := k1 + BitVec.ofNat 64 (dly * msTicks)
              utc := if next = 0 then some (s.utcAt (cfgDatum (s.chCfg c)) t.sec.toNat) else none }
          s.modChan c (fun q => { q with todDue := q.todDue ++ [due] })
        else s)

/-- The next trailing edge of a pulse (R178, R180); a PULSE channel with BOOK books it. -/
def State.pulseEnd (s : State) (ch : Fin 192) : State :=
  match s.cfgNow ch, (s.chans[ch]).trails with
  | some w, (k, f, v) :: rest =>
    if (modeOf w ≠ 5 ∧ modeOf w ≠ 4) ∨ s.passed k 0 = false then s
    else
      let s := s.modChan ch (fun c => { c with trails := rest })
      let s := s.driveTrail ch (invDrive w v) k f
      let t16 := ((s.datums[cfgDatum w]).clk.segAt k).1.at56 k / 2 ^ 40 + f * 16
      if modeOf w = 5 ∧ bitOf w 21 then s.readback ch w k f (.pulse true false false t16) else s
  | _, _ => s

/-! ## UART and ToD (R142, R143, R152 to R154, R180) -/

/-- What a channel that has held its output since tick `from_` owes for the ticks after it, its trailing edges and its ToD messages, is
due now (R380, R445). -/
def State.lateOuts (s : State) (ch : Fin 192) (from_ : DWord) : State :=
  let late (k : DWord) : Bool := decide (from_.toNat < k.toNat ∧ k.toNat < s.tick.toNat)
  s.modChan ch (fun c => { c with
    trails := c.trails.map (fun e => if late e.1 then (s.tick, 0, e.2.2) else e)
    todDue := c.todDue.map (fun e => if late e.k then { e with k := s.tick } else e) })

/-- Parity bit of a byte for a PARITY code, none without parity (R169). -/
def parityBit (code : Nat) (b : Byte) : Option Bool :=
  let odd := ((List.range 8).filter (fun i => b.getLsbD i)).length % 2 == 1
  match code with
  | 1 => some odd
  | 2 => some (!odd)
  | _ => none

/-- The line levels of a byte's frame: start, data, parity, stops (R169). -/
def State.txBits (s : State) (ch : Fin 192) (b : Byte) : List Bool :=
  false :: (List.range 8).map (fun i => b.getLsbD i) ++ (parityBit (s.chf ch 0x1C 30 29) b).toList
    ++ List.replicate (if bitOf (s.chw ch 0x1C) 28 then 2 else 1) true

/-- The frame ends before or at a tick. -/
def TxFrame.stop (f : TxFrame) : Nat :=
  f.start.toNat + f.baud * f.bits.length

/-- A transmitter up to tick `now` (R180): the frames that are complete, the frame in progress, the bytes that wait. A byte
that starts takes the present parameters (R169). -/
def txRun (mk : Byte → Nat → TxFrame) (now : Nat) : Option TxFrame → List Byte → List TxFrame × Option TxFrame × List Byte
  | none, q => ([], none, q)
  | some f, [] => if f.stop ≤ now then ([f], none, []) else ([], some f, [])
  | some f, b :: q =>
    if f.stop ≤ now then
      let (out, c, r) := txRun mk now (some (mk b f.stop)) q
      (f :: out, c, r)
    else ([], some f, b :: q)

/-- The frame of a byte that starts at a tick. -/
def State.txFrame (s : State) (ch : Fin 192) (b : Byte) (k : Nat) : TxFrame :=
  ⟨BitVec.ofNat 64 k, s.baud ch, s.txBits ch b⟩

/-- A channel's output holds its level: its datum island is down, or the datum tick stands (R380). -/
def State.outHeld (s : State) (ch : Fin 192) : Bool :=
  !s.ticking || !s.datUp (datIsl (cfgDatum (s.cfgAct ch)))

/-- A UART_TX channel sends no bit now: its output holds its level, or its group's drivers are off (R380, R445, log 161). -/
def State.txHeld (s : State) (ch : Fin 192) : Bool :=
  (s.groups[grpOf ch]).supplyHeld || s.outHeld ch

/-- The frame being sent stands still from the present tick on: its bits so far, the one in progress too, are out. -/
def State.txStall (s : State) (ch : Fin 192) : State :=
  match (s.chans[ch]).txCur, (s.chans[ch]).txStalled with
  | some f, false =>
    let n := (s.tick.toNat - f.start.toNat + f.baud - 1) / f.baud
    let s := if n = 0 then s else s.ballEmit ch (.uart ch f.start f.baud (f.bits.take n))
    s.modChan ch (fun c => { c with txStalled := true, txCur := some { f with bits := f.bits.drop n } })
  | _, _ => s

/-- Bring a UART_TX channel to the present tick: complete frames have gone out; a frame that has stood still goes on with its next
bit. -/
def State.txAdvance (s : State) (ch : Fin 192) : State :=
  if s.txHeld ch then s.txStall ch
  else
  let s := if (s.chans[ch]).txStalled then
      s.modChan ch (fun c => { c with txStalled := false, txCur := c.txCur.map (fun f => { f with start := s.tick }) })
    else s
  let c := s.chans[ch]
  let (out, cur, rest) := txRun (s.txFrame ch) s.tick.toNat c.txCur c.tx
  out.foldl (fun s f => s.ballEmit ch (.uart ch f.start f.baud f.bits)) (s.modChan ch (fun c => { c with txCur := cur, tx := rest }))

/-- Bytes to send from tick k on: the first starts there where nothing is in progress. -/
def State.txPut (s : State) (ch : Fin 192) (k : DWord) (bs : List Byte) : State :=
  match (s.chans[ch]).txCur, bs with
  | none, b :: rest => s.modChan ch (fun c => { c with txCur := some (s.txFrame ch b k.toNat), tx := rest, txStalled := s.txHeld ch })
  | _, _ => s.modChan ch (fun c => { c with tx := c.tx ++ bs })

/-- A hand-over at tick h cuts off the byte in progress, whose bits so far have gone out, and discards the rest (R181). -/
def State.txCut (s : State) (ch : Fin 192) (h : DWord) : State :=
  let s := s.txAdvance ch
  let s := match (s.chans[ch]).txCur with
    | some f =>
      let bits := if (s.chans[ch]).txStalled then [] else f.bits.take ((h.toNat - f.start.toNat + f.baud - 1) / f.baud)
      let s := if bits = [] then s else s.ballEmit ch (.uart ch f.start f.baud bits)
      s.modChan ch (fun c => { c with drv := invDrive (s.cfgAct ch) (bits.getLastD true) })
    | none => s
  s.modChan ch (fun c => { c with txCur := none, txStalled := false, tx := [] })

/-- The oldest ToD message due is sent (R152 to R154), labelled with the TAI_UTC in force for its stamp (R150). A clock without
an assigned loop reports FREE_RUN (DESIGN CHOICE, log 140). -/
def State.sendTod (s : State) (ch : Fin 192) : State :=
  let s := s.txAdvance ch
  let w := s.cfgAct ch
  let c := s.chans[ch]
  match c.todDue with
  | e :: rest =>
    if modeOf w ≠ 7 ∨ c.hand.isSome ∨ s.passed e.k 0 = false then s
    else
      let t := e.t
      let d := cfgDatum w
      let x := s.datums[d]
      let code := match x.assigned with
        | some n => (s.loops[n]).code
        | none => .freeRun
      let order := match x.assigned with
        | some n => (match (s.loops[n]).sel with
          | some src => s.order src
          | none => 15)
        | none => 15
      let stepped := match x.lastMove with
        | some a => decide (a.toNat > c.todLast.toNat)
        | none => false
      let (off, ins) := e.utc.getD (s.utcAt d t.sec.toNat)
      let i : TodInfo := ⟨t, off, s.leapCode d, ins, x.traceable, x.set, code, order, !s.warm, stepped, d.val, c.todSeq⟩
      let talk := beBytes 2 (s.chf ch 0x20 15 0)
      let fmt := s.chf ch 0x1C 26 25
      let s := s.modChan ch (fun q => { q with todDue := rest })
      match fmt with
      | 0 => (s.modChan ch (fun q => { q with todSeq := q.todSeq + 1, todLast := s.tick })).txPut ch e.k (todBinary i)
      | 1 => s.txPut ch e.k (todZda talk i)
      | 2 => s.txPut ch e.k (todRmc talk i)
      | _ => s
  | [] => s

/-- The sources whose labels come through a channel, with their LBL_FMT and LBL_UTC (R142). -/
def State.labelSlots (s : State) (ch : Fin 192) : List (Fin 96 × Nat × Nat) :=
  (List.finRange 96).filterMap (fun i =>
    let kind := (decide (i.val < 16) && decide (s.rf .refin (i.val % 16) 0 31 30 = 2)) || (decide (64 ≤ i.val) && decide (i.val < 88))
    if kind && decide (s.mn i 0x28 18 11 = ch.val) && decide (s.mn i 0x28 10 9 ≠ 3) then some (i, s.mn i 0x28 10 9, s.mn i 0x28 7 0)
    else none)

/-- The frame that the parser's newest byte completes, oldest byte first: fixed length, or from `$` to a line end. -/
def frameOf (fmt : Nat) (p : List (Byte × DWord)) : List (Byte × DWord) :=
  if fmt = 0 then (if p.length < 22 then [] else (p.take 22).reverse)
  else match p with
    | (b, _) :: _ =>
      if b ≠ 0x0A#8 then []
      else
        let n := (p.takeWhile (fun e => decide (e.1 ≠ 0x24#8))).length
        if n < p.length then (p.take (n + 1)).reverse else []
    | [] => []

/-- The label parser takes a byte (R142, R143, R153). -/
def State.parseByte (s : State) (ch : Fin 192) (b : Byte) (k : DWord) : State :=
  let p := ((b, k) :: (s.chans[ch]).parser).take 96
  let s := s.modChan ch (fun c => { c with parser := p })
  (s.labelSlots ch).foldl (fun (s : State) (e : Fin 96 × Nat × Nat) =>
    match frameOf e.2.1 p with
    | [] => s
    | f :: fs =>
      let bytes := (f :: fs).map (·.1)
      let r : LabelParse := if e.2.1 = 0 then parseBinary bytes else parseNmea (decide (e.2.1 = 2)) e.2.2 bytes
      let s : State := match r with
        | .none => s
        | .bad => s.dropLabel e.1
        | .ok l => s.pairLabel e.1 l f.2
      if r ≠ .none ∧ e.2.1 = 0 then s.modChan ch (fun c => { c with parser := [] }) else s) s

/-- A UART_RX channel completes the byte whose start bit fell (R180): its parity bit and its stop bits; a stop bit of the
frame that is low is the framing error. -/
def State.uartByte (s : State) (ch : Fin 192) (b : Byte) (pbit stop1 stop2 : Bool) : State :=
  let g := ch.val / 16
  match s.cfgNow ch, (s.chans[ch]).rxCur with
  | some w, some f =>
    if modeOf w ≠ 6 ∨ s.passed f.start f.len = false then s
    else
      let pe := match parityBit f.parity b with
        | some v => v != pbit
        | none => false
      let fe := !stop1 || (f.two && !stop2)
      let s := s.modChan ch (fun c => { c with rxCur := none })
      let s := if pe then s.rcCount .survey g (chOff ch 0x2C) 31 24 else s
      let s := if fe then s.rcCount .survey g (chOff ch 0x2C) 23 16 else s
      let s := if (s.chans[ch]).rx.length ≥ 256 then s.rcCount .survey g (chOff ch 0x2C) 15 8
        else s.modChan ch (fun c => { c with rx := c.rx ++ [b] })
      let s := match f.stamp with
        | some (d, core, fl) => s.pushStamp ch ⟨f.start + 2, d, ch, core, true, fl, f.cfg, .uart b pe fe⟩
        | none => s
      s.parseByte ch b f.start
  | _, _ => s

/-- TOD_PPS names a PULSE channel (R152, R180). -/
def State.todActive (s : State) (ch : Fin 192) : Bool :=
  match fin? 192 (s.chf ch 0x20 31 24) with
  | some p => decide (modeOf (s.chCfg p) = 5)
  | none => false

/-- A byte is written to TXDATA (R180). -/
def State.sendByte (s : State) (ch : Fin 192) (b : Byte) : State :=
  if modeOf (s.chCfg ch) ≠ 7 ∨ (s.chans[ch]).hand.isSome ∨ s.todActive ch then s
  else
    let s := s.txAdvance ch
    if (s.chans[ch]).tx.length ≥ 256 then s.rcCount .survey (ch.val / 16) (chOff ch 0x2C) 7 0 else s.txPut ch s.tick [b]

/-! ## Channel functions and hand-over (R167, R168, R180 to R182) -/

/-- Level of a channel at the start of a function (R168, R180). -/
def State.entryDrive (s : State) (ch : Fin 192) (w : Word) : Drive :=
  match modeOf w with
  | 0 => (match bitsOf w 19 18 with | 1 => .low | 2 => .high | _ => .off)
  | 4 => invDrive w false
  | 5 => invDrive w false
  | 7 => invDrive w true
  | 9 => invDrive w (bitOf (s.chw ch 0x1C) 27)
  | _ => .off

/-- Drive a ball from the coming tick, where its level changes. -/
def State.driveNow (s : State) (ch : Fin 192) (v : Drive) (k : DWord) : State :=
  if (s.chans[ch]).drv = v then s
  else (s.modChan ch (fun c => { c with drv := v, lastDrive := some (driveInstant k 0) })).ballEmit ch (.drive ch v k 0)

/-- A byte on its way in when the old function ends, at tick h, counts as a framing error (R181). -/
def State.rxCut (s : State) (ch : Fin 192) (old : Word) : State :=
  if modeOf old = 6 ∧ s.rxBusy ch then
    (s.rcCount .survey (ch.val / 16) (chOff ch 0x2C) 23 16).modChan ch (fun c => { c with rxCur := none })
  else s

/-- INV has changed: a ball that is driven takes the other level at tick k (R167). -/
def State.flipDrive (s : State) (ch : Fin 192) (k : DWord) : State :=
  match (s.chans[ch]).drv with
  | .off => s
  | .low => s.driveNow ch .high k
  | .high => s.driveNow ch .low k

/-- A CFG word that left MODE unchanged acts from tick k on: the level by INV, the seconds of a PULSE output by DATUM (R167). -/
def State.cfgTurns (s : State) (ch : Fin 192) (old : Word) (k : DWord) : State :=
  let w := s.chCfg ch
  let s := if modeOf w = 0 ∨ bitOf old 20 = bitOf w 20 then s else s.flipDrive ch k
  if modeOf w = 5 ∧ cfgDatum old ≠ cfgDatum w then s.ppsRebase ch else s

/-- What a channel owes to the tick just reached (R167, R181). -/
def State.chanTurns (s : State) (ch : Fin 192) : State :=
  match (s.chans[ch]).hand, (s.chans[ch]).cfgWait with
  | some h, _ => if h.h = s.tick then s.rxCut ch h.cfg else s
  | none, some (k, old) => if k = s.tick then s.cfgTurns ch old k else s
  | none, none => s

/-- A channel has something due at tick k. -/
def Chan.turns (c : Chan) (k : DWord) : Bool :=
  match c.hand, c.cfgWait with
  | some h, _ => decide (h.h = k)
  | none, some (h, _) => decide (h = k)
  | none, none => false

/-- The channels that change their function or their word at the tick just reached. -/
def State.chansTurn (s : State) : State :=
  if s.chans.toList.any (fun c => c.turns s.tick) then
    overFin 192 s (fun ch s => if (s.chans[ch]).turns s.tick then s.chanTurns ch else s)
  else s

/-- The old function ends at tick h (R181): a byte on its way in counts as a framing error at that tick, one on its way out is
cut off, trailing edges due by then have been driven. What else the old function holds goes when the new one takes over. -/
def State.functionEnds (s : State) (ch : Fin 192) (old : Word) (h : DWord) : State :=
  let s := if h.toNat ≤ s.tick.toNat then s.rxCut ch old else s
  let s := if modeOf old = 7 then s.txCut ch h else s
  s.trailsTo ch old (driveInstant h 0)

/-- An accepted CFG write reaches the group (R167, R181): with MODE unchanged the word acts from tick h, a change of MODE
starts a hand-over there. -/
def State.cfgReaches (s : State) (ch : Fin 192) (v : Word) (h : DWord) : State :=
  let old := s.chCfg ch
  let act := s.cfgAct ch
  if bitsOf old 31 28 = bitsOf v 31 28 then
    let s := (s.wr .survey (ch.val / 16) (chOff ch 0) v).modChan ch (fun c => { c with cfgWait := some (h, act) })
    if modeOf v = 0 then s.driveNow ch (s.entryDrive ch v) h
    else if h.toNat ≤ s.tick.toNat then s.cfgTurns ch act h
    else s
  else
    let s := (s.functionEnds ch act h).wr .survey (ch.val / 16) (chOff ch 0) v
    let s := s.modChan ch (fun c => { c with hand := some ⟨h, act, [], []⟩, cfgWait := none })
    if modeOf v = 1 then s else (s.sourcesOf ch).foldl (fun s i => s.setLos i) s

/-- A CFG write at the register hub: held during a hand-over (R182). -/
def State.cfgWrite (s : State) (ch : Fin 192) (v : Word) : State :=
  match (s.chans[ch]).hand with
  | some _ => s.modChan ch (fun c => { c with hand := c.hand.map (fun h => { h with held := h.held ++ [v] }) })
  | none => s.cfgReaches ch v (s.tick + 1)

/-- Held writes act at h + 8, in order; one that changes MODE starts a hand-over that holds the rest (R182). -/
def State.heldWrites (s : State) (ch : Fin 192) (k : DWord) : List Word → State
  | [] => s
  | v :: vs =>
    match (s.chans[ch]).hand with
    | some _ => s.modChan ch (fun c => { c with hand := c.hand.map (fun h => { h with held := h.held ++ v :: vs }) })
    | none => (s.cfgReaches ch v k).heldWrites ch k vs

/-- The new function takes over at h + 8 (R181). The HANDOVER record queues behind the channel's older stamps (R193). -/
def State.handEnd (s : State) (ch : Fin 192) : State :=
  match (s.chans[ch]).hand with
  | none => s
  | some h =>
    if s.passed h.h 8 = false then s
    else
      let w := s.chCfg ch
      let held := match (s.chans[ch]).drv with | .off => 0 | .low => 1 | .high => 2
      let rec_ : RawStamp := ⟨h.h, 0, ch, 0, false, 0, w ||| mkBit 21 true,
        .handover ((h.cfg >>> 28).setWidth 4) ((w >>> 28).setWidth 4) (BitVec.ofNat 2 held)⟩
      let s := s.modChan ch (fun c => { c with
        fifo := c.fifo ++ [rec_]
        hand := none, lastDrive := none, lastFire := none, ivStart := none, perOpen := none, perN := 0, rxCur := none, parser := [], trails := [], todDue := [] })
      let s := s.driveNow ch (s.entryDrive ch w) (h.h + 8)
      -- actions held through the hand-over act at h + 8; the turning on of the driver is no edge that delays them (R181)
      let s := s.modChan ch (fun c => { c with lastDrive := none })
      let s := h.acts.foldl (fun s a => s.fireAct (grpOf ch) a.1 a.2 (some (h.h + 8))) s
      let s := s.heldWrites ch (h.h + 8) h.held
      -- a PPS instant at or before h + 8 of the clock then in force gives no edge (R182)
      let e := s.cfgAct ch
      if modeOf e = 5 ∧ (s.chans[ch]).hand.isNone then
        s.modChan ch (fun c => { c with
          sLast := some (s.ppsAt ch (((s.datums[cfgDatum e]).clk.segAt (h.h + 8)).1.at56 (h.h + 8))) })
      else s

/-- A GPIO_OUT channel drives OUT from tick k on, unless it holds its level (R180, R380). -/
def State.driveOut (s : State) (ch : Fin 192) (k : DWord) : State :=
  if modeOf (s.chCfg ch) = 9 ∧ (s.chans[ch]).hand.isNone ∧ s.outHeld ch = false then s.driveNow ch (s.entryDrive ch (s.chCfg ch)) k else s

/-- MODEPAR is written: OUT of a GPIO_OUT channel acts at the next tick (R180). -/
def State.outWritten (s : State) (ch : Fin 192) : State :=
  s.driveOut ch (s.tick + 1)

/-- A channel's output holds its level from now on (R380, R445): its ToD messages that have come due go out first. -/
def State.holdOuts (s : State) (ch : Fin 192) : State :=
  ((s.chans[ch]).todDue.foldl (fun (s : State) _ => s.sendTod ch) s).txStall ch

/-- A channel's output, held since tick `from_`, goes on at the present tick (R380): what it owes is due now, a GPIO_OUT channel drives OUT,
a UART_TX channel sends its next bit. -/
def State.resumeOuts (s : State) (ch : Fin 192) (from_ : DWord) : State :=
  let s := (s.lateOuts ch from_).driveOut ch s.tick
  if (s.chans[ch]).txCur.isSome ∧ (s.chans[ch]).hand.isNone then s.txAdvance ch else s

/-- The datum tick stops (R211, R216, R380): every output holds. -/
def State.stopTick (s : State) : State :=
  { overFin 192 s (fun ch s => s.holdOuts ch) with ticking := false }

end Sys2Proof.Machine
end

