-- ==== Sys2Proof/Machine/BookOps.lean ====
section
/-! DEFINITION. Operations of the statistics units, of the field book writer and of the book drain (R49 to R51, R183 to
R199). -/

namespace Sys2Proof.Machine

/-! ## Statistics units -/

/-- RFLAGS of accumulators (R186). -/
def Acc.flags (a : Acc) (cmd defer : Bool) : Nat :=
  b2n cmd * 64 + b2n defer * 32 + b2n a.gap * 16 + b2n a.full * 8 + b2n a.unw * 4 + b2n a.sat * 2 + b2n (decide (a.n = 0))

/-- The result words of a unit, N to CLOSE_TICK (R186, R425). -/
def StatUnit.words (u : StatUnit) : List Word :=
  wordsOf 2 u.res.n ++ wordsOf 3 (BitVec.ofInt 96 u.res.s1).toNat ++ wordsOf 5 u.res.s2
    ++ wordsOf 2 (BitVec.ofInt 64 u.res.mn).toNat ++ wordsOf 2 (BitVec.ofInt 64 u.res.mx).toNat
    ++ wordsOf 2 (BitVec.ofInt 64 u.mean).toNat ++ wordsOf 2 u.dev
    ++ [fld u.rflags.toNat 0, u.seq] ++ wordsOf 2 u.closeTick.toNat

/-- The accumulators take a sample (R49, R50). -/
def Acc.add (a : Acc) (q : Smp) : Acc :=
  let x := satS 56 q.x
  { n := a.n + 1
    s1 := a.s1 + x
    s2 := a.s2 + (x * x).toNat
    mn := if a.n = 0 then x else min a.mn x
    mx := if a.n = 0 then x else max a.mx x
    sat := a.sat || decide (x ≠ q.x)
    unw := a.unw || q.unw
    full := a.full
    gap := a.gap || q.gap }

/-- Mode of a unit's window: 1 TIME, 2 MANUAL, else COUNT (R183). -/
def State.winMode (s : State) (u : Fin 32) : Nat :=
  match s.rf .stats u.val 0 19 18 with
  | 1 => 1
  | 2 => 2
  | _ => 0

/-- The window closes: the accumulators move to the result stage and clear (R186). -/
def State.closeWindow (s : State) (u : Fin 32) (cmd : Bool) : State :=
  s.modUnit u (fun q => { q with acc := Acc.reset, stage := q.stage ++ [(q.acc, s.tick, cmd, false)] })

/-- The unit takes its oldest waiting sample (R184, R185). -/
def State.takeSample (s : State) (u : Fin 32) : State :=
  match (s.units[u]).inq with
  | [] => s
  | q :: rest =>
    let s := s.modUnit u (fun x => { x with inq := rest })
    if s.rb .stats u.val 0 31 = false then s
    else
      let a := (s.units[u]).acc
      let full := decide (a.n ≥ 2 ^ 32)
      let lim := if s.r .stats u.val 4 = 0 then 2 ^ 32 else (s.r .stats u.val 4).toNat
      let closes := decide (s.winMode u = 0 ∧ a.n + 1 ≥ lim)
      let b : Acc := if full then { a with full := true } else
        let c := a.add q
        { c with full := c.full || (decide (c.n ≥ 2 ^ 32) && !closes) }
      let s := s.modUnit u (fun x => { x with acc := b })
      let s := if full then s.count .stats u.val 0x1C 31 0 else s
      let s := if (b.full && !a.full) || (b.sat && !a.sat) then
          s.raise (0x0400 + u.val) clsC 0x24 (args8 [byte (b.flags false false)]) else s
      if closes && !full then s.closeWindow u false else s

/-- A TIME window closes at a multiple of WIN_MS (R185). -/
def State.closeTime (s : State) (u : Fin 32) : State :=
  let w := Nat.max 1 (s.r .stats u.val 8).toNat * msTicks
  if s.rb .stats u.val 0 31 ∧ s.winMode u = 1 ∧ s.tick ≠ 0 ∧ s.tick.toNat % w = 0 ∧ (s.units[u]).timeAt ≠ s.tick then
    (s.closeWindow u false).modUnit u (fun q => { q with timeAt := s.tick })
  else s

/-- The result stage commits (R186, R187): while a snapshot holds the commit path the write waits, and DEFER is set. -/
def State.commitStats (s : State) (u : Fin 32) : State :=
  match (s.units[u]).stage with
  | [] => s
  | (a, k, cmd, defer) :: rest =>
    if s.snapBusy then s.modUnit u (fun q => { q with stage := (a, k, cmd, true) :: rest }) else
    let s := s.modUnit u (fun q => { q with
      stage := rest
      res := a
      mean := if a.n = 0 then 0 else satS 64 (roundDiv (a.s1 * 2 ^ 8) a.n)
      dev := if a.n = 0 then 0 else
        Nat.min (2 ^ 64 - 1) (roundSqrt (((a.n : Int) * a.s2 - a.s1 * a.s1).toNat * 2 ^ 16) a.n)
      rflags := byte (a.flags cmd defer)
      seq := q.seq + 1
      closeTick := k })
    let q := s.units[u]
    let s := if bitOf (s.r .stats u.val 0) 17 then
        let slot := q.seq.toNat % 512
        let ws := q.words ++ List.replicate (32 - q.words.length) 0
        (s.memWrite (statsBase + u.val * 2 ^ 16 + 128 * slot) (ws.flatMap (fun w => beBytes 4 w.toNat))).wr .stats u.val 0x20 (fld slot 0)
      else s
    overFin 8 s (fun e s => s.modEng e (fun x => match x.wait with
      | some (.event rd m t i c h) => { x with wait := some (.event rd m t i (c ||| mkBit u.val true) h) }
      | _ => x))

/-- A write of CFG, WIN_N, WIN_MS or NOM drops the open window, with the samples of the old stream still on their way
(R183). -/
def State.dropWindow (s : State) (u : Fin 32) : State :=
  (s.modUnit u (fun q => { q with acc := Acc.reset, inq := [] })).count .stats u.val 0x18 15 0

/-! ## The field book writer (R188 to R196) -/

/-- SIZE in records, WR, RD and the fill (R194). -/
def State.bookSize (s : State) : Nat := (s.r .fieldbook 0 8).toNat
def State.bookWr (s : State) : Nat := (s.r .fieldbook 0 0x0C).toNat
def State.bookRd (s : State) : Nat := (s.r .fieldbook 0 0x10).toNat

def State.bookFill (s : State) : Nat :=
  (s.bookWr + s.bookSize - s.bookRd) % s.bookSize

/-- n records fit (R194). -/
def State.bookFits (s : State) (n : Nat) : Bool :=
  decide (s.bookFill + n < s.bookSize)

/-- LEVEL of watermark i and whether the fill is at or above it (R196). -/
def State.wmState (s : State) (i : Nat) (fill : Nat) : Bool :=
  decide (fill ≥ s.rf .fieldbook 0 (0x30 + 4 * i) 23 0)

/-- A rising crossing of watermark i (R196). -/
def State.bookCross (s : State) (i : Nat) (before : Nat) : State :=
  let f := s.bookFill
  if s.wmState i f && !s.wmState i before then
    let s := (s.rcSet .fieldbook 0 0x38 (mkBit (29 - i) true)).rcCount .fieldbook 0 0x3C (31 - 16 * i) (16 - 16 * i)
    s.raise 0x0800 clsC 0x28 (args8 ([byte i, 0, 0, 0] ++ beBytes 4 f))
  else s

/-- The first k groups from RD are passed over (R195, R198). -/
def State.bookPop (s : State) : Nat → State
  | 0 => s
  | k + 1 =>
    match s.book.groups with
    | [] => s
    | n :: rest =>
      let s := s.wr .fieldbook 0 0x10 (fld ((s.bookRd + n) % s.bookSize) 0)
      (s.modBook (fun b => { b with groups := rest })).bookPop k

/-- How many whole groups must be passed for n records to fit. -/
def popsFor (size fill n : Nat) : List Nat → Nat
  | [] => 0
  | g :: gs => if fill + n < size then 0 else 1 + popsFor size (fill - g) n gs

/-- Write one group at WR (R192). -/
def State.bookPut (s : State) (g : List Rec) : State :=
  let wr := s.bookWr
  let size := s.bookSize
  let before := s.bookFill
  let base := (s.r .fieldbook 0 4).toNat
  let s := ((List.range g.length).zip g).foldl (fun s p =>
    s.memWrite (base + 16 * ((wr + p.1) % size)) (beBytes 16 p.2.toNat)) s
  let s := s.wr .fieldbook 0 0x0C (fld ((wr + g.length) % size) 0)
  let s := s.modBook (fun b => { b with groups := b.groups ++ [g.length] })
  (s.bookCross 0 before).bookCross 1 before

/-- RING mode: RD moves past whole groups until the group fits (R195). -/
def State.bookRing (s : State) (g : List Rec) : State :=
  let k := popsFor s.bookSize s.bookFill g.length s.book.groups
  let passed := (s.book.groups.take k).foldl (· + ·) 0
  let s := if k = 0 then s else (s.bookPop k).count .fieldbook 0 0x14 31 0 passed
  let s := if k = 0 then s else s.wr .fieldbook 0 0x18 (s.r .fieldbook 0 0x18 + 1)
  s.bookPut g

/-- Records are lost in STOP mode or with EN 0 (R195). -/
def State.bookLose (s : State) (g : List Rec) : State :=
  (s.count .fieldbook 0 0x1C 31 0 g.length).modBook (fun b => { b with
    lost := b.lost + g.length
    lostHdr := if b.lost = 0 then g.headD 0 else b.lostHdr })

/-- The SUMMARY record of the loss so far (R190, R195). -/
def Book.summary (b : Book) : Rec :=
  let h := beBytes 16 b.lostHdr.toNat
  BitVec.ofNat 128 (beNat ([0x19#8, (h.getD 1 0) &&& 0xFC#8, 0#8] ++ (h.drop 3).take 6
    ++ beBytes 4 (Nat.min b.lost 0xFFFFFFFF) ++ [0#8, 0#8, 0#8]))

/-- The survey channel (below 192) or the loop (256 + n) whose record it is, if it is one's (R190, R191). An IVX names none: its group is
its INTERVAL's (R192). -/
def Rec.source (r : Rec) : Option Nat :=
  let at_ (i : Nat) : Nat := r.toNat / 256 ^ (15 - i) % 256
  let t := at_ 0
  if (1 ≤ t ∧ t ≤ 7 ∧ t ≠ 3) ∨ t = 0x11 then some (at_ 9)
  else if t = 0x12 then some (256 + at_ 9 / 16)
  else if t = 0x13 then some (256 + at_ 9)
  else if (t = 0x17 ∨ t = 0x18) ∧ at_ 9 = 4 then some (256 + at_ 10)
  else none

/-- A record that waits while a group of its datum clock goes past it: an EPOCH of a step or set among those makes it PRE (R46, R189). -/
def Rec.passedBy (g : List Rec) (r : Rec) : Rec :=
  if g.any (fun e => decide (e.toNat / 256 ^ 15 = 0x10) && e.getLsbD 112 && decide (e.extractLsb' 115 3 = r.extractLsb' 115 3)) then
    r ||| 1#128 <<< 114
  else r

/-- The oldest group whose datum island works and none of whose channels and loops, `past` with them, has an older group in
the crossing of an isolated island, which stalls (R193, R377); and the others, as they are once it has gone past them. -/
def State.bookNext (s : State) (past : List Nat) : List (List Rec) → Option (List Rec × List (List Rec))
  | [] => none
  | g :: rest =>
    let of := g.filterMap Rec.source
    if s.datUp (finMod 2 ((g.headD 0).datum / 4)) && of.all (fun n => !past.contains n) then some (g, rest)
    else (s.bookNext (of ++ past) rest).map (fun r => (r.1, g.map (Rec.passedBy r.1) :: r.2))

/-- A group reaches the field book writer (R195). -/
def State.bookWrite (s : State) : State :=
  match s.bookNext [] s.book.q with
  | none => s
  | some (g, rest) =>
    let s := s.modBook (fun b => { b with q := rest })
    if s.rb .fieldbook 0 0 31 = false then s.bookLose g
    else
      let sum := s.book.lost > 0
      let summary := [s.book.summary]
      if s.rb .fieldbook 0 0 30 then
        if s.bookFits (g.length + (if sum then 1 else 0)) then
          let s := if sum then (s.bookPut summary).modBook (fun b => { b with lost := 0 }) else s
          s.bookPut g
        else s.bookLose g
      else
        let s := if sum then (s.bookRing summary).modBook (fun b => { b with lost := 0 }) else s
        s.bookRing g

/-- BASE or SIZE is written (R188). -/
def State.bookConfigure (s : State) (size : Bool) (v : Word) : State :=
  let base := if size then (s.r .fieldbook 0 4).toNat else v.toNat
  let n := if size then v.toNat else s.bookSize
  if s.rb .fieldbook 0 0 31 ∨ base % 2 ^ 16 ≠ 0 ∨ n % 4096 ≠ 0 ∨ n < 4096 ∨ n > 5242880 ∨ base + 16 * n > 80 * 2 ^ 20 then
    s.count .fieldbook 0 0x20 15 0
  else
    let s := s.wr .fieldbook 0 (if size then 8 else 4) v
    ((s.wr .fieldbook 0 0x0C 0).wr .fieldbook 0 0x10 0).modBook (fun b => { b with groups := [] })

/-- Groups after RD has advanced n records. An owner's RD may stop inside a group, whose rest is then a group of its own (R194, DESIGN
CHOICE, log 183). -/
def dropRecords : Nat → List Nat → List Nat
  | _, [] => []
  | n, g :: gs => if n < g then (g - n) :: gs else dropRecords (n - g) gs

/-- A write of RD (R194). -/
def State.bookRdWrite (s : State) (p : Path) (v : Word) : State :=
  let size := s.bookSize
  let adv := (v.toNat + size - s.bookRd) % size
  if p ≠ ownerPath (s.rf .fieldbook 0 0 29 28) ∨ s.rb .fieldbook 0 0x80 31 ∨ v.toNat ≥ size ∨ adv > s.bookFill then
    s.count .fieldbook 0 0x24 15 0
  else (s.wr .fieldbook 0 0x10 v).modBook (fun b => { b with groups := dropRecords adv b.groups })

/-! ## The book drain (R197 to R199) -/

/-- FUNC of the drain. -/
def State.drainFunc (s : State) : Fin 2 :=
  finMod 2 (s.rf .fieldbook 0 0x80 30 30)

/-- Host ring size in records (R197). -/
def State.hostRing (s : State) : Nat :=
  2 ^ Nat.max 12 (Nat.min 24 (s.rf .fieldbook 0 0x80 28 24))

/-- Room in the host ring, in records (R197). -/
def State.hostRoom (s : State) : Nat :=
  s.hostRing - (s.r .fieldbook 0 0x9C - s.r .fieldbook 0 0xA0).toNat

/-- The drain pauses (R199). -/
def State.drainPaused (s : State) : Bool :=
  decide (s.hostRoom = 0) || !s.linkUp || !s.hostUp || !(s.funcs[s.drainFunc]).busMaster || !s.rb .fieldbook 0 0x80 31

/-- What one batch takes: groups consumed, their records written to the host, records lost to an uncorrectable error. -/
structure Batch where
  st : State
  groups : Nat
  out : List (List Byte)
  ecc : Nat

/-- Read groups from RD onward, at most k of them and no more than the host ring has room for (R198, R365). -/
def State.takeBatch : Nat → State → (rd : Nat) → List Nat → (room : Nat) → Batch
  | 0, s, _, _, _ => ⟨s, 0, [], 0⟩
  | _ + 1, s, _, [], _ => ⟨s, 0, [], 0⟩
  | k + 1, s, rd, n :: gs, room =>
    let base := (s.r .fieldbook 0 4).toNat
    let size := s.bookSize
    let rd' := (rd + n) % size
    let ((recs, bad), s1) := (List.range n).foldl (fun (a : (List (List Byte) × Bool) × State) i =>
      let ((b, u), t) := a.2.memRead (base + 16 * ((rd + i) % size)) 16
      ((a.1.1 ++ [b], a.1.2 || u), t)) (([], false), s)
    if bad then
      let r := State.takeBatch k s1 rd' gs room
      { r with groups := r.groups + 1, ecc := r.ecc + n }
    else if bitOf (s.r .fieldbook 0 0x98) ((recs.headD []).headD 0).toNat = false then
      let r := State.takeBatch k s1 rd' gs room
      { r with groups := r.groups + 1 }
    else if room < n then ⟨s, 0, [], 0⟩
    else
      let r := State.takeBatch k s1 rd' gs (room - n)
      { r with groups := r.groups + 1, out := recs ++ r.out }

/-- The drain's vector (R198). -/
def State.drainSignal (s : State) : State :=
  (s.msi s.drainFunc (finMod 32 (s.rf .fieldbook 0 0x80 20 16))).modBook (fun b => { b with unsig := 0 })

/-- A batch of the drain (R198, R199). -/
def State.drain (s : State) (groups : Nat) (result : DrainEnd) : State :=
  if s.drainPaused ∨ s.book.drainErr ∨ groups = 0 ∨ s.book.groups = [] then s
  else
    match result with
    | .ok =>
      let b := State.takeBatch groups s s.bookRd s.book.groups s.hostRoom
      if b.groups = 0 then s
      else
        let s := b.st
        let f := decide (s.drainFunc.val = 1)
        let ring := s.hostRing
        let base := s.wide .fieldbook 0 0x88 2
        let base := base - base % 4096
        let wb := s.wide .fieldbook 0 0x90 2
        let head := (s.r .fieldbook 0 0x9C).toNat
        let s := ((List.range b.out.length).zip b.out).foldl (fun s p =>
          s.emit (.hostWrite f (base + 16 * ((head + p.1) % ring)) p.2)) s
        let head' := (head + b.out.length) % 2 ^ 32
        let s := s.wr .fieldbook 0 0x9C (fld head' 0)
        let s := s.emit (.hostWrite f (wb - wb % 8) (beBytes 4 head' ++ [0, 0, 0, 0]))
        let s := s.bookPop b.groups
        let s := s.count .fieldbook 0 0x28 31 0 b.ecc
        let s := s.modBook (fun q => { q with
          unsig := q.unsig + b.out.length
          unsigAt := if q.unsig = 0 then s.tick else q.unsigAt })
        let cnt := s.rf .fieldbook 0 0x84 31 16
        if cnt = 0 ∨ s.book.unsig ≥ cnt then s.drainSignal else s
    | .completionError => (s.modBook (fun b => { b with drainErr := true })).raise 0x0800 clsB 0x29 (args8 [0])
    | .unsupported => (s.modBook (fun b => { b with drainErr := true })).raise 0x0800 clsB 0x29 (args8 [1])

/-- MOD_US have passed since the first unsignalled record (R198). -/
def State.drainTimeout (s : State) : State :=
  let us := s.rf .fieldbook 0 0x84 15 0
  if s.book.unsig = 0 ∨ usOfTicks (s.tick.toNat - s.book.unsigAt.toNat) < us then s else s.drainSignal

/-- A write of HOST_RD (R197, R426). -/
def State.hostRdWrite (s : State) (p : Path) (v : Word) : State :=
  if p = (if s.drainFunc.val = 1 then .f1 else .f0) then s.wr .fieldbook 0 0xA0 v else s.count .fieldbook 0 0x24 15 0

end Sys2Proof.Machine
end

