-- ==== Sys2Proof/Machine/SynthOps.lean ====
section
/-! DEFINITION. Operations of the projection synthesizers, the output banks and the alignment lines (R204 to R230). -/

namespace Sys2Proof.Machine

/-! ## Frequencies (R207 to R210) -/

/-- OSC_IN in Hz by its code (R395, R396). -/
def State.oscHz (s : State) : Nat :=
  match s.boot.sheet.oscIn.toNat with
  | 1 => 20000000
  | 2 => 40000000
  | _ => 10000000

/-- Twice the factor of a reference path: ×1, ×2, ÷2 (R206). -/
def pathTwice (p : Nat) : Nat :=
  match p with
  | 1 => 4
  | 2 => 1
  | _ => 2

/-- f_pd of a path lies between 5 MHz and 80 MHz (R207). -/
def pathOk (osc p : Nat) : Bool :=
  decide (10000000 ≤ osc * pathTwice p ∧ osc * pathTwice p ≤ 160000000)

/-- Feedback ratio of a path [2^-49] for an N0 [2^-48] stated at ×1 (R210). -/
def ratio49 (n0 p : Nat) : Nat :=
  4 * n0 / pathTwice p

/-- Boundary offset of a path, none for an integer ratio, which counts as infinite (R210). -/
def boundary (n0 p : Nat) : Option Nat :=
  let r := ratio49 n0 p % 2 ^ 49
  if r = 0 then none else some (Nat.min r (2 ^ 49 - r) * pathTwice p)

/-- The path with the larger boundary offset; a tie keeps the first (R210). -/
def betterPath (osc n0 a b : Nat) : Nat :=
  if pathOk osc b = false then a
  else if pathOk osc a = false then b
  else match boundary n0 a, boundary n0 b with
    | none, _ => a
    | some _, none => b
    | some x, some y => if y > x then b else a

/-- Reference path and N0 at that path for a plan (R210). -/
def planPath (osc mode n0 : Nat) : Nat × Nat :=
  if mode = 3 then
    let p := betterPath osc n0 (betterPath osc n0 0 1) 2
    (p, ratio49 n0 p / 2)
  else (mode, n0)

/-- N0 of a synthesizer's plan [2^-48]; SYNB's is fixed (R221, R427). -/
def State.planN0 (s : State) (y : Fin 9) : Nat :=
  if y.val = 8 then 625 * 2 ^ 48 else s.wide .synth y.val 0x28 2

/-- Path and N0 of a synthesizer's next lock sequence; SYNB by OSC_IN (R221). -/
def State.lockPath (s : State) (y : Fin 9) : Nat × Nat :=
  if y.val = 8 then
    ((match s.boot.sheet.oscIn.toNat with | 1 => 0 | 2 => 2 | _ => 1), 625 * 2 ^ 48)
  else planPath s.oscHz (s.rf .synth y.val 0x20 29 28) (s.planN0 y)

/-- The output frequency of a synthesizer over a divider as a fraction F / G Hz. -/
def State.outFreq (s : State) (y : Fin 9) (div : Nat) : Nat × Nat :=
  let (p, n0) := s.lockPath y
  (s.oscHz * pathTwice p * n0, 2 * 2 ^ 48 * div)

/-- NOM_FREQ of a synthesizer's cascade source [2^-32 Hz]: the rate of its events by round_ne, 0 while CASC_DIV is 0 (R58,
R206; log 116). -/
def State.cascNom (s : State) (y : Fin 9) : Nat :=
  let (f, g) := s.outFreq y (s.rf .synth y.val 0x20 23 0)
  if g = 0 then 0 else Nat.min (2 ^ 64 - 1) (roundDiv (f * 2 ^ 32 : Nat) g).toNat

/-! ## Contour profiles (R219, R220) -/

/-- The profile of a synthesizer's plan. -/
def State.planProfile (s : State) (y : Fin 9) : List (Int × Nat) :=
  if y.val = 8 then []
  else ((List.range 16).map (fun i => ((s.r .synth y.val (0x80 + 8 * i)).toInt, s.rf .synth y.val (0x84 + 8 * i) 15 0))).takeWhile
    (fun g => decide (g.2 ≠ 0))

/-- Stop a contour (R220). -/
def Syn.stopContour (q : Syn) : Syn :=
  { q with contour := false, cseg := 0, cstep := 0, c := 0, contourWait := false }

/-- One contour step (R208, R219, R220). A running contour goes on through an in-band regain (R217): only a lock sequence
stops it. -/
def State.stepContour (s : State) (y : Fin 9) : State :=
  let q := s.syns[y]
  let runs := (q.phase == .locked && !q.seqOn) || (q.phase == .regain && q.contour)
  if s.tick.toNat % 256 ≠ 0 ∨ q.cAt = s.tick ∨ runs = false then s
  else
    -- at the end of a pass a waiting plan takes effect
    let q := if q.contour = false then { q with prof := s.planProfile y, contourWait := false, cseg := 0, cstep := 0, c := 0 } else q
    match q.prof[q.cseg]? with
    | none => s.modSyn y (fun _ => { q with contour := false })
    | some (slope, len) =>
      let c := q.c + slope * 2 ^ 32
      let next := decide (q.cstep + 1 ≥ len)
      let last := next && decide (q.cseg + 1 ≥ q.prof.length)
      let q := { q with
        contour := !(last && q.contourWait)
        c := if last then 0 else c
        cseg := if last then 0 else if next then q.cseg + 1 else q.cseg
        cstep := if next then 0 else q.cstep + 1
        cAt := s.tick
        nfb := nfbOf q.n0 q.n c }
      s.modSyn y (fun _ => q)

/-! ## Lock sequences (R211 to R217) -/

/-- The cascade source of a synthesizer reports LOS (R59, R212, R216). -/
def State.cascadeLos (s : State) (y : Fin 9) : State :=
  match fin? 96 (88 + y.val) with
  | some i => s.setLos i
  | none => s

/-- Outputs fed by a synthesizer restart from their first grid instant. -/
def State.restartFed (s : State) (y : Fin 9) : State :=
  s.restartOuts (fun o => decide (s.bankSrc[bankOf o].map synIx = some y))

/-- A retired synthesizer stays without lock, its banks at SQ_LEVEL (R379). -/
def State.synRetired (s : State) (y : Fin 9) : Bool :=
  match fin? 128 (0x18 + y.val) with
  | some i => (s.fm.blks[i]).st == .retired && decide (y.val < 8)
  | none => false

/-- A lock sequence starts (R210, R212), but of a retired synthesizer (R379), or of a projection synthesizer during oven
loss: it holds its tuning, and its sequence runs once OSC_IN is back (R13). The most recent word it has taken stays the
one that is loaded at lock (R204). -/
def State.startLock (s : State) (y : Fin 9) : State :=
  if s.synRetired y then ((s.modSyn y (fun q => { q.stopContour with phase := .failed, seqOn := false, onGrid := false })).cascadeLos y).refresh
  else
  let (p, n0) := s.lockPath y
  let s := s.modSyn y (fun q => { q.stopContour with
    phase := .locking
    seqOn := true
    onGrid := false
    refPath := BitVec.ofNat 2 p
    n0 := BitVec.ofNat 64 n0 })
  let s := if s.oven.oscLost ∧ y.val < 8 then s.modSyn y (fun q => { q with phase := .holding, seqOn := false }) else s
  ((s.cascadeLos y).restartFed y).refresh

/-- A synthesizer goes out of service. -/
def State.synOff (s : State) (y : Fin 9) : State :=
  ((s.modSyn y (fun q => { q.stopContour with phase := .off, seqOn := false, onGrid := false })).cascadeLos y).refresh

/-- LOCK goes to 1: the band is set and the held word loads with it (R204, R212). -/
def State.reportLock (s : State) (y : Fin 9) (band : BitVec 6) : State :=
  let q := s.syns[y]
  let s := s.modSyn y (fun q => { q with phase := .locked, band := band, failRow := 0 })
  let s := s.loadWord y (q.heldN.getD q.n)
  s.modSyn y (fun q => { q with heldN := none })

/-- The dividers are preset and the outputs gridded (R212, R214): the anchor is the assigned loop's tally at that instant, 0
without a loop (DESIGN CHOICE, log 170). -/
def State.reportGrid (s : State) (y : Fin 9) : State :=
  let t := match (s.syns[y]).assigned with
    | some n => (s.loops[n]).tally.now26
    | none => 0
  (s.modSyn y (fun q => { q with onGrid := true, seqOn := false, anchor := t, gridOff := 0 })).refresh

/-- A lock sequence fails (R213). -/
def State.failLock (s : State) (y : Fin 9) : State :=
  let q := s.syns[y]
  let s := s.modSyn y (fun q => { q with
    phase := .failed, lolAt := s.tick, searchFail := Nat.min 255 (q.searchFail + 1), failRow := q.failRow + 1 })
  let s := s.rcSet .synth y.val 4 2
  if q.failRow + 1 = 3 then s.report (0x18 + y.val) 5 else s

/-- Loss of lock (R216, R217): the notice, the count, the cascade source. -/
def State.loseLock (s : State) (y : Fin 9) : State :=
  let s := s.modSyn y (fun q => { q with phase := .regain, lolAt := s.tick })
  let s := (s.rcSet .synth y.val 4 1).rcCount .synth y.val 4 31 16
  let s := s.cascadeLos y
  let s := s.raise (0x0718 + y.val) clsB 0x38 (args8 [byte y.val])
  (s.report (0x18 + y.val) 5).refresh

/-- 20 µs in ticks (R217). -/
def regainTicks : Nat := 15625

/-! ## Alignment lines (R227, R228) -/

/-- PLAN word of line a and its fields (R428). -/
def State.alPlan (s : State) (a : Fin 4) (hi lo : Nat) : Nat :=
  s.rf .align 0 (0x10 * a.val + 4) hi lo

/-- AL_SLOPE, 0 acts as 1. -/
def State.alSlope (s : State) (a : Fin 4) : Nat :=
  Nat.max 1 (s.r .align 0 (0x10 * a.val + 8)).toNat

/-- The tally against which a synthesizer's edges are stamped, with every rate segment it has had: its assigned loop's, or one that runs
at NOM from tick 0 where no loop is assigned (R42, R227, log 173). -/
def State.synTally (s : State) (y : Fin 8) : Clock :=
  match (s.syns[synIx y]).assigned with
  | some n => { (s.loops[n]).tally with segs := (s.loops[n]).rates }
  | none => Clock.reset

/-- The stamp of an interpolator's edge against a tally (R42) [2^-26 ns]. -/
def Clock.stampEdge (c : Clock) (e : LineEdge) : Int :=
  (c.stamp26 e.k e.d).1

/-- An instant of the tally at tick k as a synthesizer's grid counts it [2^-26 ns]: time sets and twin hand-overs since the last lock
sequence are taken off (R215). -/
def State.gridTime (s : State) (y : Fin 8) (k : DWord) : Int :=
  ((s.synTally y).stamp26 k 0).1 - (s.syns[synIx y]).gridOff / 2 ^ 30

/-- Where the grid of output i of bank b begins [2^-26 ns] under synthesizer y: OFS, and the anchor where the frequency f / g Hz is no
whole number of hertz (R214). -/
def State.gridBase (s : State) (y : Fin 8) (b i f g : Nat) : Int :=
  (s.r .outbank b (0x0C + 8 * i)).toInt * 2 ^ 10 + (if f % g = 0 then 0 else (s.syns[synIx y]).anchor)

/-- The index of the last grid instant at or before t of a grid from base on at f / g Hz (R214). -/
def gridFloor (f g : Nat) (base t : Int) : Int :=
  (t - base) * f / ((secNs * 2 ^ 26 * g : Nat) : Int)

/-- An output that waits drives its first rising edge (R212, R214, R225): at the first grid instant after it began to wait, or from the
running divider where its synthesizer is not on its grid (R218). -/
def State.outStarts (s : State) (o : Fin 48) : State :=
  match s.bankSrc[bankOf o] with
  | none => s
  | some y =>
    let (f, g) := s.outFreq (synIx y) (s.outDiv (bankOf o).val (o.val % 4))
    let base := s.gridBase y (bankOf o).val (o.val % 4) f g
    let m := gridFloor f g base (s.gridTime y s.outFrom[o]) + 1
    let run (e : Option (Int × Int × Nat × Nat)) : State := { s with outs := s.outs.set o .running }.emit (.output o e)
    if s.outs[o] ≠ .waiting ∨ f = 0 ∨ g = 0 then s
    else if (s.syns[synIx y]).onGrid = false then run none
    else if m ≤ gridFloor f g base (s.gridTime y s.tick) then run (some (base, m, f, g))
    else s

/-- Nearest grid index and the error r − grid of a tally stamp [2^-26 ns], over F: the grid is OFS + m / f_o (R214, R227). -/
def gridIndex (f g : Nat) (r : Int) : Int :=
  roundDiv (r * f) (secNs * 2 ^ 26 * g)

/-- Movement of a delay [2^-12 ns] toward a target, at most slope × 2^-40 × the time passed. -/
def moveToward (d target : Int) (slope ticks : Nat) : Int :=
  let m : Int := ((slope * ticks * 131072 / 25 / 2 ^ 40 : Nat) : Int)
  max (d - m) (min (d + m) target)

/-- 20 ns in [2^-12 ns]. -/
def delayMax : Nat := 81920

/-- Target delay [2^-12 ns] for a delay D and a mean error e [2^-16 ns] of an output of F / G Hz: D − e modulo the output's
period, (P − p) mod P for a consumer path p (R227). -/
def alTarget (f g : Nat) (d : Nat) (e : Int) : Int :=
  roundDiv ((((d : Int) * 16 - e) * f) % (secNs * 2 ^ 16 * g : Nat)) (16 * f)

/-- Zero delay on bank b (R227, R228). -/
def State.zeroDelay (s : State) (a : Fin 4) (b : Fin 12) (edges : List LineEdge) : State :=
  let l := s.lines[a]
  match s.bankSrc[b] with
  | none => s
  | some y =>
    let o := s.alPlan a 25 24
    let n := 2 ^ s.alPlan a 19 16
    let q := s.syns[synIx y]
    let (f, g) := s.outFreq (synIx y) (s.outDiv b.val o)
    if edges.length ≠ n ∨ f = 0 ∨ g = 0 then s
    else
      let ofs := s.gridBase y b.val o f g + q.gridOff / 2 ^ 30
      let sum := (edges.map (s.synTally y).stampEdge).foldl (fun (t : Int × Int) r => (t.1 + (r - ofs), t.2 + gridIndex f g (r - ofs))) (0, 0)
      let e := roundDiv (sum.1 * f - sum.2 * (secNs * 2 ^ 26 * g : Nat)) (f * n * 2 ^ 10)
      let target := alTarget f g l.d e
      let d := moveToward l.d (min delayMax target) (s.alSlope a) (s.tick.toNat - l.lastAt.toNat)
      { s with lines := s.lines.set a { l with
          d := d.toNat
          range := decide (target > delayMax)
          good := if e.natAbs ≤ 655 then Nat.min 4 (l.good + 1) else 0
          lastAt := s.tick } }

/-- A line that held a bank for a hand-over moves to 0 and detaches (R229). -/
def State.lineRelax (s : State) (a : Fin 4) : State :=
  let l := s.lines[a]
  let d := moveToward l.d 0 (s.alSlope a) (s.tick.toNat - l.lastAt.toNat)
  { s with lines := s.lines.set a { l with d := d.toNat, lastAt := s.tick, bank := if d = 0 then none else l.bank } }

/-- The line measures for a hand-over and keeps its delay (R229). -/
def State.lineBusy (s : State) (a : Fin 4) : Bool :=
  s.bankHand.toList.any (fun h => match h with
    | some x => decide (x.line = a)
    | none => false)

/-- An update of a line (R227 to R229) with FBIN edges. Zero delay where AL_MODE says so; else a line
that holds a bank after a hand-over goes back to 0. -/
def State.alignUpdate (s : State) (a : Fin 4) (edges : List LineEdge) : State :=
  if s.lineBusy a then s
  else match fin? 12 (s.alPlan a 31 28) with
  | some b =>
    if s.alPlan a 27 26 = 1 then s.zeroDelay a b edges
    else if (s.lines[a]).bank.isSome then s.lineRelax a
    else s
  | none => if (s.lines[a]).bank.isSome then s.lineRelax a else s

/-! ## Plan sheets in force (R205, R206, R229, R429) -/

/-- Synthesizer a fraction of output frequency: equal for two plans. -/
def sameFreq (a b : Nat × Nat) : Bool :=
  decide (a.1 * b.2 = b.1 * a.2)

/-- LOCK and ON_GRID (R229). -/
def Syn.ready (q : Syn) : Bool :=
  q.lock && q.onGrid

/-- The line named by ALIGN_HO is free or attached to this bank (R229). -/
def State.hoLine (s : State) (b : Fin 12) (plan : Word) : Option (Fin 4) :=
  match fin? 4 (bitsOf plan 26 24) with
  | none => none
  | some a =>
    let al := s.alPlan a 31 28
    let used := decide (s.alPlan a 27 26 = 1 ∨ s.alPlan a 27 26 = 2) && decide (al < 12) && decide (al ≠ b.val)
    let held := match (s.lines[a]).bank with
      | some x => decide (x ≠ b)
      | none => false
    if used || held then none else some a

/-- A bank moves from one synthesizer to another (R205, R229): through a line where every condition holds, else through the
squelch level. `oldDiv`: the dividers before the load. -/
def State.moveBank (s : State) (b : Fin 12) (old new : Option (Fin 8)) (oldFreq : List (Nat × Nat)) : State :=
  let restart (s : State) : State :=
    let s := { s with bankSrc := s.bankSrc.set b new, bankHand := s.bankHand.set b none }
    (List.range 4).foldl (fun s i => s.restartOut (finMod 48 (4 * b.val + i))) s
  match old, new with
  | some x, some y =>
    let used := (List.range 4).filter (fun i => s.outUsed b.val i)
    let ok := used.all (fun i =>
      let f := s.outFreq (synIx y) (s.outDiv b.val i)
      sameFreq (oldFreq.getD i (0, 0)) f && decide (f.1 ≥ 50000000 * f.2))
    match s.hoLine b (s.r .outbank b.val 4) with
    | some a =>
      if (s.syns[synIx x]).ready && (s.syns[synIx y]).ready && ok then
        { s with
          bankHand := s.bankHand.set b (some ⟨a, y, (s.lines[a]).d⟩)
          lines := s.lines.set a { s.lines[a] with bank := some b } }
      else restart s
    | none => restart s
  | _, _ => restart s

/-- Word i of an accepted plan sheet. -/
def planWord (ws : List Word) (i : Nat) : Word :=
  ws.getD i 0

/-- The plan of one synthesizer takes effect (R205). -/
def State.planSyn (s : State) (ws : List Word) (y : Fin 8) : State :=
  let i := synIx y
  let w (k : Nat) := planWord ws (35 * y.val + k)
  let old := s.r .synth y.val 0x20
  let n0 := s.planN0 i
  let prof := s.planProfile i
  let s := (((s.wr .synth y.val 0x20 (w 0 &&& 0xB0FFFFFF)).wr .synth y.val 0x28 (w 1)).wr .synth y.val 0x2C (w 2))
  let s := (List.range 16).foldl (fun s k =>
    (s.wr .synth y.val (0x80 + 8 * k) (w (3 + 2 * k))).wr .synth y.val (0x84 + 8 * k) (w (4 + 2 * k) &&& 0xFFFF)) s
  let new := s.r .synth y.val 0x20
  let changed := decide (bitOf old 31 ≠ bitOf new 31) || decide (bitsOf old 29 28 ≠ bitsOf new 29 28) || decide (s.planN0 i ≠ n0)
  let s := if decide (s.planProfile i ≠ prof) && (s.syns[i]).contour then s.modSyn i (fun q => { q with contourWait := true }) else s
  let s := { s with domOn := s.domOn.set (22 + y.val) (bitOf new 31) }
  let s := s.setWide .mon (88 + y.val) 0 2 (s.cascNom i)
  let s := if bitsOf new 23 0 = 0 ∧ bitsOf old 23 0 ≠ 0 then s.cascadeLos i else s
  if changed then
    if bitOf new 31 then
      let s := if bitOf old 31 = false then
          s.modSyn i (fun q => { q with nfb := nfbOf (BitVec.ofNat 64 (s.lockPath i).2) q.n 0 }) else s
      s.startLock i
    else s.synOff i
  else s

/-- VDDO_BANK*b* as the start sheet declares it (R396). -/
def State.bankRail (s : State) (b : Nat) : Nat :=
  s.boot.sheet.bankRails.toNat / 4 ^ b % 4

/-- The plan of one bank takes effect (R205, R229). -/
def State.planBank (s : State) (ws : List Word) (old : State) (b : Fin 12) : State :=
  let w (k : Nat) := planWord ws (280 + 9 * b.val + k)
  let s := s.wr .outbank b.val 4 (w 0 &&& 0xF7000000)
  let s := (List.range 4).foldl (fun s i =>
    (s.wr .outbank b.val (8 + 8 * i) (w (1 + 2 * i) &&& 0xF0FFFFFF)).wr .outbank b.val (0x0C + 8 * i) (w (2 + 2 * i))) s
  let s := (List.range 4).foldl (fun s i =>
    if s.r .outbank b.val (8 + 8 * i) ≠ old.r .outbank b.val (8 + 8 * i) ∨ s.r .outbank b.val (0x0C + 8 * i) ≠ old.r .outbank b.val (0x0C + 8 * i)
    then s.restartOut (finMod 48 (4 * b.val + i)) else s) s
  let s := { s with domOn := s.domOn.set (55 + b.val) (s.bankUsed b.val && decide (s.bankRail b.val ≠ 3)) }
  let src (t : State) := fin? 8 (t.rf .outbank b.val 4 31 28)
  if src s = src old then s
  else s.moveBank b (src old) (src s) ((List.range 4).map (fun i => match src old with
    | some x => old.outFreq (synIx x) (old.outDiv b.val i)
    | none => (0, 0)))

/-- The plan of one line takes effect: an attach starts from D = 0 (R227). A detach, or a change of AL_BANK or AL_MODE, puts D to 0 at once
(DESIGN CHOICE, log 184). -/
def State.planLine (s : State) (ws : List Word) (a : Fin 4) : State :=
  let old := s.r .align 0 (0x10 * a.val + 4)
  let new := planWord ws (388 + 2 * a.val) &&& 0xFF0F0000
  let s := (s.wr .align 0 (0x10 * a.val + 4) new).wr .align 0 (0x10 * a.val + 8) (planWord ws (389 + 2 * a.val))
  if bitsOf old 31 26 = bitsOf new 31 26 then s
  else { s with lines := s.lines.set a { Line.reset with lastAt := s.tick } }

/-- An accepted plan sheet takes effect (R205). -/
def State.applyPlan (s : State) : State :=
  match s.planDue with
  | none => s
  | some ws =>
    let old := s
    let s := { s with planDue := none }
    let s := (List.finRange 8).foldl (fun (s : State) y => s.planSyn ws y) s
    let s := (List.finRange 4).foldl (fun (s : State) a => s.planLine ws a) s
    let s := (List.finRange 12).foldl (fun (s : State) b => s.planBank ws old b) s
    s.refresh

/-- A bank's hand-over measures φ and switches (R229): edges under the old and the new synthesizer, both
stamped against the tally of the old one. -/
def State.switchBank (s : State) (b : Fin 12) (edges : List (LineEdge × LineEdge)) : State :=
  match s.bankHand[b] with
  | none => s
  | some h =>
    let o := s.alPlan h.line 25 24
    let (f, g) := s.outFreq (synIx h.next) (s.outDiv b.val o)
    if edges.length ≠ 64 ∨ f = 0 ∨ g = 0 then s
    else
      -- φ and P in units of [2^-12 ns] / (64 F)
      let per : Int := ((secNs * 2 ^ 12 * g * 64 : Nat) : Int)
      let c := s.synTally (s.bankSrc[b].getD h.next)
      let sum : Int := edges.foldl (fun (t : Int) e => t + (c.stampEdge e.1 - c.stampEdge e.2)) 0
      let phi : Int := (sum * ((f : Nat) : Int) / 2 ^ 14) % per
      let d : Int := (((h.d0 * f * 64 : Nat) : Int) + phi) % per
      let s := { s with
        bankSrc := s.bankSrc.set b (some h.next)
        bankHand := s.bankHand.set b none
        lines := s.lines.set h.line { s.lines[h.line] with d := (roundDiv d (64 * f)).toNat, lastAt := s.tick } }
      s.refresh

/-- Declared supply of a bank in mV, none for an unpowered one (R396). -/
def State.bankMv (s : State) (b : Fin 12) : Option Nat :=
  match s.bankRail b.val with
  | 0 => some 1800
  | 1 => some 2500
  | 2 => some 3300
  | _ => none

/-- A measured supply departs from the declared one by more than 10 % (R224). -/
def State.bankDeparts (s : State) (b : Fin 12) (mv : Nat) : Bool :=
  match s.bankMv b with
  | some n => decide (10 * mv > 11 * n ∨ 10 * mv < 9 * n)
  | none => false

/-- A bank's supply is measured (R224): while it departs from the declared value the drivers are held off. -/
def State.bankMismatch (s : State) (b : Fin 12) (mv : Nat) : State :=
  if s.bankDeparts b mv = s.bankHeld[b] then s
  else if s.bankHeld[b] then State.refresh { s with bankHeld := s.bankHeld.set b false }
  else
  let s := { s with bankHeld := s.bankHeld.set b true }
  ((s.raise (0x0728 + b.val) clsB 0x6B (args8 [byte (55 + b.val), byte b.val])).report (0x28 + b.val) 0xA).refresh

/-! ## Lock pins (R230) -/

/-- LOCK_AN*i* may drive high: every covered synthesizer is locked outside a sequence; low in reset and powered down. -/
def State.lockAn (s : State) (i : Fin 2) : Bool :=
  s.coreUp && [8, 4 * i.val, 4 * i.val + 1, 4 * i.val + 2, 4 * i.val + 3].all (fun k =>
    let y := finMod 9 k
    !s.insvc y || ((s.syns[y]).lock && !(s.syns[y]).seqOn))

end Sys2Proof.Machine
end

