-- ==== Sys2Proof/Machine/PortOps.lean ====
section
/-! DEFINITION. Operations of the timing ports and of the packet timing engine: stamps at the lane balls, streams, PTP
messages, ESMC and the transmit timestamp queue (R232 to R248, R430, R431). -/

namespace Sys2Proof.Machine

/-! ## Ports -/

/-- The packet timing engine works: its domain is on, its block in service (R377, R389). -/
def State.pteOn (s : State) : Bool :=
  s.domUp 7 && s.blkUp 0x50

/-- PTP runs on port n: Ethernet mode with its link up. -/
def State.ptpUp (s : State) (n : Fin 16) : Bool :=
  s.isEth n && (s.ports[n]).link

/-! ## Stamps (R234, R235) -/

/-- UI of a rate [ns] as numerator and denominator (R234). -/
def uiOf (rate : Nat) : Nat × Nat :=
  match rate with
  | 0 => (4, 5)
  | 1 => (16, 165)
  | _ => (32, 825)

/-- The UI count of R234. -/
def uiCount (rate : Nat) (fec tx : Bool) (var : Nat) : Int :=
  let v : Int := (var : Int)
  match rate, fec with
  | 0, _ => if tx then 31 + v else -(52 + v)
  | 1, _ => if tx then 406 + v else -(548 + v)
  | _, false => if tx then 790 + v else -(1081 + v)
  | _, true => if tx then 412 + v else -296 + v

/-- round_ne(u × UI × 2^16) [2^-16 ns]. -/
def uiCorr (rate : Nat) (u : Int) : Int :=
  let (a, b) := uiOf rate
  roundDiv (u * ((a * 2 ^ 16 : Nat) : Int)) b

/-- The internal stamp of a boundary event against the port's datum clock, CFG.DATUM [2^-26 ns] (R42, R232). -/
def State.boundary (s : State) (n : Fin 16) (e : Edge) : Int :=
  ((s.datums[s.portDatum n]).clk.stamp26 e.k e.d).1

/-- An event frame's timestamp at the medium [2^-16 ns], from the exported stamp of its boundary event (R234, R235). -/
def State.ballStamp (s : State) (n : Fin 16) (tx : Bool) (tb : Stamp) (var : Nat) : Int :=
  let rate := bitsOf (s.pcfg n) 29 28
  let ball := stamp16 tb + uiCorr rate (uiCount rate (s.rsFec n) tx var)
  if tx then ball + (s.r .port n.val 8).toInt else ball - (s.r .port n.val 0x0C).toInt

/-- An event frame's timestamp at the medium [2^-16 ns], from its boundary event (R42, R234, R235). -/
def State.frameStamp (s : State) (n : Fin 16) (tx : Bool) (e : Edge) (var : Nat) : Int :=
  s.ballStamp n tx (exportStamp (s.boundary n e)) var

/-- The PTP Timestamp of a stamp: seconds and nanoseconds (R44). -/
def ptpTime (t : Stamp) : Stamp :=
  { t with sub := 0 }

/-- A correction field [2^-16 ns]. -/
def cfInt (cf : BitVec 64) : Int :=
  cf.toInt

/-- The correction field that excludes a message (R242, R244). -/
def cfMax : Int := 2 ^ 63 - 1

/-- A TimeInterval at its limit (R33): too large a value in either sense reads 0x7FFF_FFFF_FFFF_FFFF. -/
def tiLimit (v : Int) : Int :=
  if satS 64 v ≠ v then cfMax else v

/-! ## Streams (R242, R243, R263) -/

/-- The source number of a stream. -/
def streamSrc (i : Fin 32) : Fin 96 :=
  finMod 96 (32 + i.val)

/-- A stream is to be open (R242, R243, R263, R270). -/
def State.streamWanted (s : State) (i : Fin 32) : Bool :=
  let (kind, p, id) := s.binding i
  bitOf (s.streams[i]).word 31 &&
    (if kind then
      let r := (s.ports[p]).r
      s.isReist p && decide (id = 0) && decide (r.lstate = .up ∨ r.lstate = .swap) && !r.streamsWait
    else
      s.ptpUp p && (match s.sess p id with
        | some x => x.active && x.granted
        | none => false))

/-- An empty window under the STREAM word as written (R242: a write takes effect at the next window). -/
def State.newWindow (s : State) (i : Fin 32) (keepD : Bool) : State :=
  let w := s.r .pte 0 (0x80 + 4 * i.val)
  s.modStream i (fun t => { t with
    dfs := []
    drs := []
    cnt := 0
    xs := []
    label := none
    lastD := if keepD then t.lastD else none
    word := w })

/-- Open or close one stream for the present conditions: a closed stream's source reports LOS (R59, R243). -/
def State.refreshStream (s : State) (i : Fin 32) : State :=
  let s : State := if (s.streams[i]).open_ then s else s.newWindow i false
  let on := s.streamWanted i
  if on = (s.streams[i]).open_ then s
  else if on then (s.newWindow i false).modStream i (fun t => { t with open_ := true })
  else ((s.newWindow i false).modStream i (fun t => { t with open_ := false })).setLos (streamSrc i)

/-- Every stream. -/
def State.refreshStreams (s : State) : State :=
  overFin 32 s (fun i s => s.refreshStream i)

/-- A write of STREAM (R242, R243): EN 0 closes at once. -/
def State.streamWritten (s : State) (i : Fin 32) : State :=
  let w := s.r .pte 0 (0x80 + 4 * i.val)
  let s := if bitOf w 31 then s else s.modStream i (fun t => { t with word := t.word &&& ~~~(mkBit 31 true) })
  (s.refreshStream i).refreshOrder (streamSrc i)

/-- Deliver one sample [2^-32 ns], with PE_SAT, to the monitor slot of a stream: the phase error of R48 saturates and is flagged. -/
def State.deliver (s : State) (i : Fin 32) (e : Int × Bool) (label : Option (Int × Int)) : State :=
  let src := streamSrc i
  let x := satPE e.1 e.2
  if (s.slots[src]).qstate = .off then s
  else s.modSlot src (fun q => { q with inbox := q.inbox ++ [⟨s.tick, 0, x.1, flagByte (!s.warm) false false false false false false false, label, x.2⟩] })

/-- Deliver one sample of a PTP session [2^-32 ns]: it is the port's offset for the statistics units as well, in the
weight of R49 (R184, R242). -/
def State.deliverPtp (s : State) (i : Fin 32) (n : Fin 16) (x : Int) : State :=
  (s.offerSmp 3 n.val (roundDiv (satS 64 x) (2 ^ 16)) (!s.warm) false).deliver i (x, false) none

/-- Sync messages or exchange instants of a window (R242). -/
def Stream.winLen (t : Stream) : Nat :=
  2 ^ Nat.min 16 (bitsOf t.word 14 10)

/-- SEL with its reserved code (R242): 0 ALL, 1 MIN, 2 MEAN_LOW. -/
def Stream.selMode (t : Stream) : Nat :=
  bitsOf t.word 16 15 % 3

/-- Insert into a rising list. -/
def insertInt (x : Int) : List Int → List Int
  | [] => [x]
  | y :: l => if x ≤ y then x :: y :: l else y :: insertInt x l

/-- A list in rising order. -/
def sortInts (l : List Int) : List Int :=
  l.foldl (fun a x => insertInt x a) []

/-- sel() of R242 over a window's delays, as a sum and a count: the least value, or the lowest 2^LOW_LOG2 of them. -/
def Stream.pick (t : Stream) (l : List Int) : Int × Nat :=
  let low := if t.selMode = 2 then 2 ^ Nat.min (bitsOf t.word 9 6) (Nat.min 16 (bitsOf t.word 14 10)) else 1
  let ds := (sortInts l).take low
  (ds.foldl (· + ·) 0, ds.length)

/-- The profile of an instance (R431). -/
def State.profile (s : State) (i : Fin 8) : Nat :=
  s.rf .pte 0 (0x200 + 0x20 * i.val) 30 28

/-- An enabled instance holds port n (R431). -/
def State.instHas (s : State) (i : Fin 8) (n : Fin 16) : Bool :=
  let w := s.r .pte 0 (0x200 + 0x20 * i.val)
  bitOf w 31 && decide (bitsOf w 30 28 < 6) && bitOf w n.val

/-- The lowest enabled instance of a port. -/
def State.portInst (s : State) (n : Fin 16) : Option (Fin 8) :=
  (List.finRange 8).find? (fun i => s.instHas i n)

/-- The delay mechanism of a port is P2P (R239, R431): the profile of its lowest enabled instance. -/
def State.isP2p (s : State) (n : Fin 16) : Bool :=
  match s.portInst n with
  | some i => [2, 3, 5].contains (s.profile i)
  | none => false

/-- A PTP window closes (R242): MIN and MEAN_LOW give a sample where the other delay exists. -/
def State.closePtp (s : State) (i : Fin 32) : State :=
  let t := s.streams[i]
  let (_, p, _) := s.binding i
  let (sf, nf) := t.pick t.dfs
  let (sr, nr) := t.pick t.drs
  let x : Option Int :=
    if t.selMode = 0 ∨ nf = 0 then none
    else if s.isP2p p then (s.ports[p]).mld.map (fun m => roundDiv ((m * nf - sf) * 2 ^ 16) nf)
    else if nr = 0 then none
    else some (roundDiv ((sr * nf - sf * nr) * 2 ^ 15) (nf * nr))
  let mins : Option (Int × Int) := match sortInts t.dfs, sortInts t.drs with
    | a :: _, b :: _ => some (a, b)
    | _, _ => none
  let s := match x with
    | some v => s.deliverPtp i p v
    | none => s
  (s.newWindow i true).modStream i (fun q => { q with lastD := mins })

/-- A Reistica window closes (R263): round_ne of the exact mean; no sample in SWAP. -/
def State.closeReist (s : State) (i : Fin 32) : State :=
  let t := s.streams[i]
  let s := if t.selMode = 0 ∨ t.xs.isEmpty ∨ (s.ports[(s.binding i).2.1]).r.lstate ≠ .up then s
    else s.deliver i (roundDiv ((t.xs.map (·.1)).foldl (· + ·) 0) t.xs.length, t.xs.any (·.2)) t.label
  s.newWindow i true

/-- A stream's window closes, once it is complete; the next runs under the STREAM word as written, whose session and port decide whether
the stream is open and what its ORDER is (R242, R243). -/
def State.closeStream (s : State) (i : Fin 32) : State :=
  let t := s.streams[i]
  if t.open_ = false ∨ t.cnt < t.winLen then s
  else ((if (s.binding i).1 then s.closeReist i else s.closePtp i).refreshStream i).refreshOrder (streamSrc i)

/-- The open streams whose STREAM word in force binds them so: KIND, port, session (R242). -/
def State.boundTo (s : State) (b : Bool × Fin 16 × Nat) : List (Fin 32) :=
  (List.finRange 32).filter (fun i => (s.streams[i]).open_ && decide (s.binding i = b))

/-- A message of a session or partner comes: streams that are bound to it, or that the word as written will bind to it, close a
complete window first, so that the message meets the words of the windows it falls in (R242). -/
def State.closeBefore (s : State) (b : Bool × Fin 16 × Nat) : State :=
  overFin 32 s (fun i s =>
    if s.binding i = b ∨ bindingOf (s.r .pte 0 (0x80 + 4 * i.val)) = b then s.closeStream i else s)

/-- A Sync's forward delay reaches a session's streams (R142, R242): master time t1 + cf, own arrival t2 [2^-16 ns]. -/
def State.offerDf (s : State) (n : Fin 16) (id : Nat) (t1 t2 cf : Int) (ptp : Bool) : State :=
  let s := s.closeBefore (false, n, id)
  (s.boundTo (false, n, id)).foldl (fun (s : State) i =>
    let df := t2 - t1 - cf
    let t := s.streams[i]
    let s : State := if t.selMode ≠ 0 then s
      else if s.isP2p n then
        match (s.ports[n]).mld with
        | some m => s.deliverPtp i n ((m - df) * 2 ^ 16)
        | none => s
      else match t.lastD with
        | some (a, b) => s.deliverPtp i n ((a + b - 2 * df) * 2 ^ 15)
        | none => s
    let s := s.modStream i (fun q => { q with dfs := q.dfs ++ [df], cnt := q.cnt + 1 })
    let src := streamSrc i
    if ptp && decide ((s.slots[src]).qstate ≠ .off) then
      s.modSlot src (fun q => { q with labelQ := q.labelQ ++ [⟨(t1 + cf) * 2 ^ 10, .packet (t2 * 2 ^ 10)⟩] })
    else s) s

/-- A reverse delay reaches a session's streams (R242). -/
def State.offerDr (s : State) (n : Fin 16) (id : Nat) (dr : Int) : State :=
  let s := s.closeBefore (false, n, id)
  (s.boundTo (false, n, id)).foldl (fun (s : State) i => s.modStream i (fun q => { q with drs := q.drs ++ [dr] })) s

/-! ## Sessions and messages (R238 to R245, R247) -/

/-- A session's record, or a new one. -/
def State.sessOr (s : State) (n : Fin 16) (id : BitVec 9) : Sess :=
  (s.sess n id.toNat).getD ⟨n, id, false, true, true, true, true, 0xFF, none, none, 0, none⟩

/-- Store a session's record. -/
def State.putSess (s : State) (x : Sess) : State :=
  { s with sessions := x :: s.sessions.filter (fun y => !decide (y.port = x.port ∧ y.id = x.id)) }

/-- Our grant of a message type stands (R243). -/
def Sess.serves (x : Sess) : Grant → Bool
  | .sync => x.srvSync
  | .announce => x.srvAnnounce
  | .delayResp => x.srvDelayResp

/-- Our grant of a message type, set or cleared. -/
def Sess.setServes (x : Sess) (k : Grant) (on : Bool) : Sess :=
  match k with
  | .sync => { x with srvSync := on }
  | .announce => { x with srvAnnounce := on }
  | .delayResp => { x with srvDelayResp := on }

/-- A message type may be sent to a session (R243): its grant stands. A lapsed grant is renewed only by the steward: while it
runs, whether it has renewed the grant is a free value (log 127). -/
def State.serves (s : State) (n : Fin 16) (id : BitVec 9) (k : Grant) : Bool × State :=
  if (s.sessOr n id).serves k then (true, s)
  else if s.boot.stewardUp = false then (false, s)
  else
    let (v, s) := s.free
    if v.getLsbD 0 then (true, s.putSess ((s.sessOr n id).setServes k true)) else (false, s)

/-- An instance runs on a port (R431). -/
def State.instOn (s : State) (i : Fin 8) (n : Fin 16) : Bool :=
  s.instHas i n && s.ptpUp n

/-! What the steward writes (R26, R238): while it runs, a command that the PTE performs under a port state shows that the
steward has decided that state, and the state is kept; while it does not run, the states last held govern (R27, log 126). -/

/-- The state of port n in instance i is x, kept or just decided. -/
def State.inState (s : State) (i : Fin 8) (n : Fin 16) (x : PtpState) : Bool :=
  s.boot.stewardUp || decide ((s.insts[i]).states[n] = x)

/-- Keep a port state. -/
def State.setPtp (s : State) (i : Fin 8) (n : Fin 16) (x : PtpState) : State :=
  s.modInst i (fun q => { q with states := q.states.set n x })

/-- The enabled 802.1AS instances of a port in which it is the slave port (R244, R431). -/
def State.asInstances (s : State) (n : Fin 16) : List (Fin 8) :=
  (List.finRange 8).filter (fun i => s.instHas i n && decide (s.profile i = 2) && decide ((s.insts[i]).states[n] = .slave))

/-- A PTP message with its TLVs is taken (R240): AUTHENTICATION discards it, TLVs of other types are skipped and counted. -/
def State.takeTail (s : State) (n : Fin 16) (tl : PtpTail) (f : State → State) : State :=
  if s.ptpUp n = false then s
  else if tl.auth then s.count .pte 0 8 31 0
  else f (s.count .pte 0 4 31 0 tl.others)

/-- The logical address of a session's entry in the packet tables (R353). -/
def sessAddr (n : Fin 16) (id : BitVec 9) : Nat :=
  packetBase + 8 * (Config.sessWord n.val id.toNat % 2 ^ 19)

/-- A session's entry is free of errors, or the port runs no PTP and reads none (R365). -/
def State.sessClean (s : State) (n : Fin 16) (id : BitVec 9) : Bool :=
  !s.ptpUp n || decide (s.mem.flaw (s.mem.phys (sessAddr n id) / 8) = 0)

/-- The engine reads a session's entry (R365): an uncorrectable one is discarded, the session closes, and its streams with
it; else the command goes on. -/
def State.withSess (s : State) (n : Fin 16) (id : BitVec 9) (f : State → State) : State :=
  if s.ptpUp n = false then f s
  else match s.checkWord (sessAddr n id) with
    | (.bad, s) =>
      { s with sessions := s.sessions.filter (fun y => !decide (y.port = n ∧ y.id = id)) }.refreshStreams
    | (_, s) => f s

/-- The words of a Timestamp and a correction field. -/
def stampWords (t : Stamp) (cf : Int) : List Nat :=
  let c := (BitVec.ofInt 64 cf).toNat
  [t.sec.toNat / 2 ^ 32, t.sec.toNat / 2 ^ 16 % 2 ^ 16, t.sec.toNat % 2 ^ 16, t.ns.toNat / 2 ^ 16, t.ns.toNat % 2 ^ 16,
   c / 2 ^ 48, c / 2 ^ 32 % 2 ^ 16, c / 2 ^ 16 % 2 ^ 16, c % 2 ^ 16]

/-- The ones' complement sum of 16-bit words. -/
def onesSum (ws : List Nat) : Nat :=
  ws.foldl (fun a w => (a + w) % 2 ^ 16 + (a + w) / 2 ^ 16) 0

/-- What carries a message of an instance, or of a port without one (R239, R244, log 128). `peer`: a peer-delay message. -/
def State.carrier (s : State) (i : Option (Fin 8)) (peer : Bool) : Carrier :=
  let fwd : BitVec 48 := 0x011B19000000
  let link : BitVec 48 := 0x0180C200000E
  match i with
  | none => .annexE (if peer then link else fwd)
  | some i =>
    let alt := Config.ptpTransport i.val
    match s.profile i with
    | 0 => .annexE (if alt % 2 = 1 then link else fwd)
    | 1 => if alt % 2 = 1 then .annexD 0 else .annexC 0
    | 2 => .annexE link
    | 3 => .annexE (if peer then 0x011B1900000E else fwd)
    | _ => match alt % 3 with
      | 0 => .annexE (if peer then link else fwd)
      | 1 => .annexC 0
      | _ => .annexD 0

/-- A one-step insertion (R244): the Annex D trailer is rewritten so that the words inserted leave the checksum as it was. -/
def Carrier.insert (c : Carrier) (t : Stamp) (cf : Int) : Carrier :=
  match c with
  | .annexD _ => .annexD (BitVec.ofNat 16 (0xFFFF - onesSum (stampWords t cf)))
  | c => c

/-- Send a PTP message. -/
def State.sendPtp (s : State) (n : Fin 16) (i : Option (Fin 8)) (m : TxMsg) : State :=
  let peer := match m with
    | .pdelayReq _ | .pdelayResp _ _ _ | .pdelayRespFollowUp _ _ _ => true
    | _ => false
  let c := s.carrier i peer
  s.emit (.ptp n (match m with
    | .sync _ true t cf _ => c.insert t cf
    | _ => c) m)

/-- A Sync for relay is kept for the master ports of its instance (R244): ρ = (rateRatio_in × neighborRateRatio − 1) × 2^41. -/
def State.keepRelay (s : State) (n : Fin 16) (tIn cf : Int) (origin : Stamp) (rate : Int) : State :=
  let rho := satS 32 (roundDiv ((2 ^ 41 + rate) * (2 ^ 48 + (s.ports[n]).nrr) - 2 ^ 89) (2 ^ 48))
  (s.asInstances n).foldl (fun (s : State) i =>
    s.modInst i (fun q => { q with relay := some ⟨n, tIn, cf, ptpTime origin, rho⟩ })) s

/-- A complete Sync: forward delay and relay. Either correction field at its highest value excludes it from the streams
(R242) and stays in the relay (R244). -/
def State.syncDone (s : State) (n : Fin 16) (id : Nat) (t1 : Stamp) (t2 cf1 cf2 : Int) (ptp : Bool) (rate : Int) : State :=
  let excluded := decide (cf1 = cfMax ∨ cf2 = cfMax)
  let s := if excluded then s else s.offerDf n id (stamp16 (ptpTime t1)) t2 (cf1 + cf2) ptp
  s.keepRelay n t2 (if excluded then cfMax else tiLimit (cf1 + cf2)) t1 rate

/-- A Sync arrives (R242). While the steward runs it shows that the session's grant stands (R243, log 59). The parent's ptpTimescale is
the flag of each Sync received (R142, DESIGN CHOICE, log 179). -/
def State.rxSync (s : State) (n : Fin 16) (id : BitVec 9) (seq : BitVec 16) (twoStep ptp : Bool) (t1 : Stamp)
    (cf : BitVec 64) (rate : BitVec 32) (tb : Edge) (var : Nat) : State :=
  let t2 := s.frameStamp n false tb var
  let x := s.sessOr n id
  let s := s.putSess { x with
    granted := x.granted || s.boot.stewardUp
    pendSync := if twoStep then some (seq, t2, cfInt cf, ptp) else none }
  let s := s.refreshStreams
  if twoStep then s else s.syncDone n id.toNat t1 t2 (cfInt cf) 0 ptp rate.toInt

/-- A Follow_Up completes a two-step Sync (R242, R244). -/
def State.rxFollowUp (s : State) (n : Fin 16) (id : BitVec 9) (seq : BitVec 16) (t1 : Stamp) (cf : BitVec 64)
    (rate : BitVec 32) : State :=
  let x := s.sessOr n id
  match x.pendSync with
  | none => s
  | some (q, t2, cf1, ptp) =>
    if q ≠ seq then s
    else (s.putSess { x with pendSync := none }).syncDone n id.toNat t1 t2 cf1 (cfInt cf) ptp rate.toInt

/-- The lowest enabled instance of a port in which its kept state is master (R26, R431). -/
def State.masterInst (s : State) (n : Fin 16) : Option (Fin 8) :=
  (List.finRange 8).find? (fun i => s.instHas i n && decide ((s.insts[i]).states[n] = .master))

/-- The instance under whose state a port answers a Delay_Req (R27, R238): one in which it is master. Where none is kept, only
the running steward can have made the port one, which is a free value, and is kept (log 126). -/
def State.answers (s : State) (n : Fin 16) : Option (Fin 8) × State :=
  match s.masterInst n, s.portInst n with
  | some i, _ => (some i, s)
  | none, none => (none, s)
  | none, some i =>
    if s.boot.stewardUp = false then (none, s)
    else
      let (v, s) := s.free
      if v.getLsbD 0 then (some i, s.setPtp i n .master) else (none, s)

/-- A Delay_Req is answered with a Delay_Resp by a master port (R27, R243, R244). -/
def State.rxDelayReq (s : State) (n : Fin 16) (id : BitVec 9) (seq : BitVec 16) (cf : BitVec 64) (tb : Edge) (var : Nat) : State :=
  let t4 := stampOf16 (s.frameStamp n false tb var)
  match s.answers n with
  | (none, s) => s
  | (some i, s) =>
    let (on, s) := s.serves n id .delayResp
    if on then s.sendPtp n (some i) (.delayResp seq (ptpTime t4) (tiLimit (cfInt cf - t4.sub.toNat))) else s

/-- A Delay_Resp gives t4 and the reverse delay (R242). -/
def State.rxDelayResp (s : State) (n : Fin 16) (id : BitVec 9) (seq : BitVec 16) (t4 : Stamp) (cf : BitVec 64) : State :=
  let x := s.sessOr n id
  match x.pendReq with
  | none => s
  | some (q, t3) =>
    if q ≠ seq then s
    else
      let s := s.putSess { x with pendReq := none }
      if cfInt cf = cfMax then s else s.offerDr n id.toNat (stamp16 (ptpTime t4) - t3 - cfInt cf)

/-- A Pdelay_Req is answered with a Pdelay_Resp and its follow-up (R238). The Pdelay_Resp carries the receive timestamp
(R44); its sub-ns part and the request's correction travel in its correction field. The follow-up carries the response's own
transmit timestamp, its sub-ns part in its correction field (log 129). -/
def State.rxPdelayReq (s : State) (n : Fin 16) (seq : BitVec 16) (cf : BitVec 64) (tb : Edge) (var : Nat) (tx : Edge)
    (txVar : Nat) : State :=
  let t2 := stampOf16 (s.frameStamp n false tb var)
  let t3 := stampOf16 (s.frameStamp n true tx txVar)
  let i := s.portInst n
  (s.sendPtp n i (.pdelayResp seq (ptpTime t2) (tiLimit (cfInt cf - t2.sub.toNat)))).sendPtp n i
    (.pdelayRespFollowUp seq (ptpTime t3) t3.sub.toNat)

/-- A Pdelay_Resp with its follow-up (R242, R244): meanLinkDelay = ((t4 − t1) − (t3 − t2) − cf) / 2; neighborRateRatio is
formed by a rule the spec does not give, so its value is free. -/
def State.rxPdelayResp (s : State) (n : Fin 16) (seq : BitVec 16) (t2 t3 : Stamp) (cf : BitVec 64) (tb : Edge) (var : Nat) : State :=
  match (s.ports[n]).pdT1 with
  | none => s
  | some t1 =>
    if seq ≠ (s.ports[n]).pdSeq then s
    else
      let t4 := s.frameStamp n false tb var
      let (r, s) := s.free
      s.modPort n (fun p => { p with
        pdT1 := none
        nrr := (r.setWidth 32).toInt
        mld := if cfInt cf = cfMax then p.mld
          else some (roundDiv (t4 - t1 - (stamp16 (ptpTime t3) - stamp16 (ptpTime t2)) - cfInt cf) 2) })

/-- Raise a session's notice (R243, R248, R414). -/
def State.sessNotice (s : State) (n : Fin 16) (id : BitVec 9) (code : Byte) : State :=
  s.raise (0x0500 + 4 * n.val + 2) clsB code (args8 (beBytes 2 id.toNat))

/-- The parents that a session of port n would replace: the active sessions on a port of one of its instances (R243). -/
def State.rivals (s : State) (n : Fin 16) (id : BitVec 9) : List Sess :=
  s.sessions.filter (fun y => y.active && !decide (y.port = n ∧ y.id = id)
    && (List.finRange 8).any (fun i => s.instHas i n && s.instHas i y.port))

/-- The steward selects a session as parent (R238, R243): the port becomes slave in its instances, and the parents it
replaces are none any more. -/
def State.selectParent (s : State) (n : Fin 16) (id : BitVec 9) : State :=
  let s := (s.rivals n id).foldl (fun (s : State) y =>
    overFin 8 (s.putSess { y with active := false, pendSync := none, pendReq := none })
      (fun i s => if s.instHas i n ∧ s.instHas i y.port then s.setPtp i y.port .listening else s)) s
  overFin 8 (s.putSess { s.sessOr n id with active := true }) (fun i s => if s.instHas i n then s.setPtp i n .slave else s)

/-- The steward's decision about a session that announces itself (R26, R238): a parent stays one; while the steward runs it
takes a session without rivals, and whether it prefers one to its rivals is a free value (log 126). -/
def State.decideParent (s : State) (n : Fin 16) (id : BitVec 9) : State :=
  if (s.sessOr n id).active ∨ s.boot.stewardUp = false then s
  else if (s.rivals n id).isEmpty then s.selectParent n id
  else
    let (v, s) := s.free
    if v.getLsbD 0 then s.selectParent n id else s

/-- An Announce arrives (R80, R238, R247). -/
def State.rxAnnounce (s : State) (n : Fin 16) (id : BitVec 9) (cls : Byte) (bench : Option (BitVec 256 × Word)) : State :=
  let x := s.sessOr n id
  let s := s.putSess { x with cls := cls, bench := bench.orElse (fun _ => x.bench) }
  let s := s.decideParent n id
  overFin 32 s.refreshStreams (fun i s => s.refreshOrder (streamSrc i))

/-- The Announce receipt timeout expires (R243, R248). -/
def State.parentLost (s : State) (n : Fin 16) (id : BitVec 9) : State :=
  let x := s.sessOr n id
  if x.active = false then s
  else
    let s := s.putSess { x with active := false, pendSync := none, pendReq := none }
    let s := overFin 8 s (fun i s => s.modInst i (fun q =>
      { q with relay := match q.relay with
          | some r => if r.port = n then none else some r
          | none => none }))
    (s.refreshStreams).sessNotice n id 0x46

/-- A grant's duration ends (R243): as master, that message type stops; as slave, the stream closes (log 127). -/
def State.grantLapse (s : State) (n : Fin 16) (id : BitVec 9) (l : Lapse) : State :=
  let x := s.sessOr n id
  let (on, y) : Bool × Sess := match l with
    | .slave => (x.granted, { x with granted := false })
    | .master k => (x.serves k, x.setServes k false)
  if on then ((s.putSess y).refreshStreams).sessNotice n id 0x45 else s

/-- cf_out of the relay (R244). -/
def relayCf (r : Relay) (tEg mld : Int) : Int :=
  let v := r.cf + roundDiv ((tEg - r.tIn + mld) * (2 ^ 41 + r.rho)) (2 ^ 41)
  if r.cf = cfMax then cfMax else tiLimit v

/-- Send one Sync (R238, R244): one-step with the predicted transmit timestamp `own` as origin, its sub-ns part in the
correction field; two-step with a Follow_Up that carries `origin`, `cf` and `rate`. -/
def State.emitSync (s : State) (i : Fin 8) (n : Fin 16) (oneStep : Bool) (own origin : Stamp) (cf rate : Int) : State :=
  let seq := (s.insts[i]).syncSeq
  let s := s.modInst i (fun q => { q with syncSeq := q.syncSeq + 1 })
  if oneStep then s.sendPtp n (some i) (.sync seq true (ptpTime own) own.sub.toNat rate)
  else (s.sendPtp n (some i) (.sync seq false stampZero 0 0)).sendPtp n (some i) (.followUp seq origin cf rate)

/-- A Sync of port n goes out one-step (R239): as asked for, but in 802.1AS only where the neighbour's oneStepReceive allows
it, which the steward keeps (R26, log 126). -/
def State.stepMode (s : State) (i : Fin 8) (n : Fin 16) (oneStep : Bool) : Bool × State :=
  if s.profile i ≠ 2 then (oneStep, s)
  else if s.boot.stewardUp then (oneStep, s.modPort n (fun p => { p with oneStepRx := oneStep }))
  else (oneStep && (s.ports[n]).oneStepRx, s)

/-- The PTE sends a Sync of an instance (R238, R243, R244): the relayed Sync of an 802.1AS instance, or its own time. A relay
whose ingress port has no valid meanLinkDelay takes it as 0 (DESIGN CHOICE, log 171). -/
def State.txSync (s : State) (i : Fin 8) (n : Fin 16) (id : BitVec 9) (oneStep : Bool) (tb : Edge) (var : Nat) : State :=
  if s.instOn i n = false ∨ s.inState i n .master = false then s
  else
    let s := s.setPtp i n .master
    let (on, s) := s.serves n id .sync
    if on = false then s
    else
      let (one, s) := s.stepMode i n oneStep
      let t := s.frameStamp n true tb var
      let own := stampOf16 t
      match (if s.profile i = 2 then (s.insts[i]).relay else none) with
      | none => s.emitSync i n one own (ptpTime own) own.sub.toNat 0
      | some r =>
        if r.port = n then s
        else if s.portDatum r.port ≠ s.portDatum n then s.count .pte 0 0x0C 31 0
        else s.emitSync i n one own r.origin (relayCf r t ((s.ports[r.port]).mld.getD 0)) r.rho

/-- The PTE sends a Delay_Req from a slave port, or a Pdelay_Req where the profile's delay mechanism is P2P (R238, R239). -/
def State.txDelayReq (s : State) (i : Fin 8) (n : Fin 16) (id : BitVec 9) (tb : Edge) (var : Nat) : State :=
  if s.instOn i n = false then s
  else
    let t := s.frameStamp n true tb var
    if [2, 3, 5].contains (s.profile i) then
      let q := (s.ports[n]).pdSeq + 1
      (s.modPort n (fun p => { p with pdSeq := q, pdT1 := some t })).sendPtp n (some i) (.pdelayReq q)
    else if s.inState i n .slave = false then s
    else
      let s := s.setPtp i n .slave
      let x := s.sessOr n id
      (s.putSess { x with reqSeq := x.reqSeq + 1, pendReq := some (x.reqSeq, t) }).sendPtp n (some i) (.delayReq x.reqSeq)

/-- The benchmark digest and its sequence number (R247, R385). -/
def State.benchDigest (s : State) : BitVec 256 × Word :=
  (BitVec.ofNat 256 (s.wide .benchmark 0 0x20 8), s.r .benchmark 0 0x0C)

/-- The benchmark TLV after its type and length (R247): organizationId, organizationSubType, the digest, its sequence number,
big-endian. -/
def State.benchTlv (s : State) : List Byte :=
  let (dig, seq) := s.benchDigest
  beBytes 3 0x4A5FD3 ++ beBytes 3 1 ++ beBytes 32 dig.toNat ++ beBytes 4 seq.toNat

/-- Datasets as two free words and a path spell them. -/
def ptpDataOf (a b : BitVec 64) (gm : BitVec 64) (path : List (BitVec 64)) : PtpData where
  cls := a.extractLsb' 0 8
  utcOffset := a.extractLsb' 8 16
  leap61 := a.getLsbD 24
  leap59 := a.getLsbD 25
  utcValid := a.getLsbD 26
  ptpTimescale := a.getLsbD 27
  timeSource := a.extractLsb' 32 8
  priority1 := b.extractLsb' 0 8
  accuracy := b.extractLsb' 8 8
  variance := b.extractLsb' 16 16
  priority2 := b.extractLsb' 32 8
  gmId := gm
  steps := b.extractLsb' 40 16
  path := path

/-- The steward's datasets of an instance (R26, R27): while the steward runs, what it has written is a free value, and is
kept; while it does not, they are those last held (log 58, log 149). -/
def State.datasets (s : State) (i : Fin 8) : PtpData × State :=
  if s.boot.stewardUp then
    let path := Config.freePath s.freeCtr
    let (a, s) := s.free
    let (b, s) := s.free
    let (gm, s) := s.free
    (ptpDataOf a b gm path, s.modInst i (fun q => { q with data := ptpDataOf a b gm path }))
  else ((s.insts[i]).data, s)

/-- Advertised quality (R245) under a dataset's clockClass: clockClass, timeTraceable, frequencyTraceable. -/
def State.quality (s : State) (i : Fin 8) (cls : Byte) : Byte × Bool × Bool :=
  let d := finMod 8 (s.rf .pte 0 (0x200 + 0x20 * i.val) 27 25)
  let q (lo : Nat) : Byte := byte (s.rf .pte 0 (0x100 + 0x10 * i.val) (lo + 7) lo)
  let tr := (s.datums[d]).traceable
  match ((s.datums[d]).assigned.map (fun n => (s.loops[n]).code)).getD .freeRun with
  | .freeRun => (q 0, false, false)
  | .extended => (q 8, false, false)
  | .holdover => (q 16, tr, true)
  | _ => (cls, tr, true)

/-- The PTE sends an Announce: the steward's datasets with PATH_TRACE's path (R26, R240), the quality of the moment (R245), the
benchmark TLV (R247). -/
def State.txAnnounce (s : State) (i : Fin 8) (n : Fin 16) (id : BitVec 9) : State :=
  if s.instOn i n = false ∨ s.inState i n .master = false then s
  else
    let s := s.setPtp i n .master
    let (on, s) := s.serves n id .announce
    if on = false then s
    else
      let (data, s) := s.datasets i
      let (cls, tt, ft) := s.quality i data.cls
      let seq := (s.insts[i]).annSeq
      let s := s.modInst i (fun q => { q with annSeq := q.annSeq + 1 })
      s.sendPtp n (some i) (.announce seq cls tt ft data (if s.rb .pte 0 0 31 then some s.benchTlv else none))

/-! ## Instances (R431) -/

/-- The domain numbers of a profile (R239). -/
def domainOk (profile dom : Nat) : Bool :=
  match profile with
  | 0 => 24 ≤ dom && dom ≤ 43
  | 1 => 44 ≤ dom && dom ≤ 63
  | 2 => dom ≤ 127
  | 3 => dom = 0
  | _ => true

/-- Enabled instances other than i that hold port n. -/
def State.instCount (s : State) (i : Fin 8) (n : Fin 16) : Nat :=
  ((List.finRange 8).filter (fun j => decide (j ≠ i) && s.instHas j n)).length

/-- A CFG word runs an instance: EN with a profile that is not reserved (R431). -/
def instRuns (w : Word) : Bool :=
  bitOf w 31 && decide (bitsOf w 30 28 < 6)

/-- An INST write is accepted (R431): its domain and the DATUM of its ports are checked in every word; a word that runs no
instance places no port in one (DEDUCED, log 162). -/
def State.instOk (s : State) (i : Fin 8) (w : Word) : Bool :=
  domainOk (bitsOf w 30 28) (bitsOf w 23 16) &&
    (List.finRange 16).all (fun n => !bitOf w n.val ||
      (decide (bitsOf (s.pcfg n) 26 24 = bitsOf w 27 25) && (!instRuns w || decide (s.instCount i n < 4))))

/-- A write of INST[i].CFG (R431). -/
def State.instWrite (s : State) (i : Fin 8) (w : Word) : State :=
  if s.instOk i w then (s.wr .pte 0 (0x200 + 0x20 * i.val) w).modInst i (fun q => { q with relay := none })
  else s.count .pte 0 0x14 31 0

/-- A port's DATUM changed: it leaves every instance of another DATUM (R431). -/
def State.leaveInstances (s : State) (n : Fin 16) : State :=
  overFin 8 s (fun i s =>
    let o := 0x200 + 0x20 * i.val
    if s.rf .pte 0 o 27 25 = bitsOf (s.pcfg n) 26 24 ∨ s.rb .pte 0 o n.val = false then s
    else s.wr .pte 0 o (s.r .pte 0 o &&& ~~~(mkBit n.val true)))

/-! ## Port configuration and link (R232, R233, R236, R237, R248) -/

/-- A notice of a port's first source. -/
def State.portNotice (s : State) (n : Fin 16) (code : Byte) : State :=
  s.raise (0x0500 + 4 * n.val) clsB code 0

/-- The recovered-clock source of a port (R236). -/
def portSrc (n : Fin 16) : Fin 96 :=
  finMod 96 (16 + n.val)

/-- The Reistica side of a port at DOWN (R252): what outlives it is the partner's name and its survey (R271), and the optical
switch with the command it waits for (R253, R267). -/
def Reist.downed (r : Reist) : Reist :=
  { Reist.reset with
    seq := r.seq
    lseq := r.lseq
    legSent := r.legSent
    rlink := r.rlink
    peerBench := r.peerBench
    peerId := r.peerId
    peerPort := r.peerPort
    pxSeq := r.pxSeq
    pxInst := r.pxInst
    pxSent := r.pxInst
    rdelay := r.rdelay
    verifyFails := r.verifyFails
    asymSurv := r.asymSurv
    asymSurvOk := r.asymSurvOk
    svId := r.svId
    survAt := r.survAt
    reversed := r.reversed
    cmdWait := r.cmdWait
    posSent := r.posSent
    swapAt := r.swapAt
    lastOrder := r.lastOrder }

/-- The transmit phase rotator for the present TX_SYN (R236). -/
def State.rotator (s : State) (n : Fin 16) : State :=
  let v : Int := match fin? 8 (bitsOf (s.pcfg n) 23 20) with
    | none => 0
    | some y => if (s.syns[synIx y]).assigned.isSome then (s.syns[synIx y]).n else 0
  s.modPort n (fun p => { p with rotN := v })

/-- Orders and streams that rest on a port. -/
def State.portRefresh (s : State) (n : Fin 16) : State :=
  let s := (s.refreshStreams).refreshOrder (portSrc n)
  overFin 32 s (fun i s => if (s.binding i).2.1 = n then s.refreshOrder (streamSrc i) else s)

/-- Notices of a port's third source. -/
def State.reistNotice (s : State) (n : Fin 16) (code : Byte) (args : BitVec 64) : State :=
  s.raise (0x0500 + 4 * n.val + 2) clsB code args

/-- Command the switch to a position: the link swaps, streams deliver nothing, source 16 + n fails for the swap's duration
(R252, R265, R267). -/
def State.swapTo (s : State) (n : Fin 16) : State :=
  (s.modReist n (fun r => { r with lstate := .swap, swapAt := s.tick, cmdWait := true, posSent := false })).setLos (portSrc n)

/-- The position a link port has commanded: reversed in R1 and R2 (R265). -/
def State.switchPos (s : State) (n : Fin 16) : Byte :=
  let r := (s.ports[n]).r
  byte (b2n (r.surveying && decide (r.svPhase = 1 ∨ r.svPhase = 2)))

/-- A survey ends without a result (R267): the switch returns to normal, the previous asymmetry stands. A command to normal
that waits for its confirmation goes on waiting. -/
def State.abortSurvey (s : State) (n : Fin 16) : State :=
  let r := (s.ports[n]).r
  let back := r.cmdWait || (r.surveying && (r.reversed || decide (r.lstate = .swap)))
  let kept := r.posSent && decide (s.switchPos n = 0)
  let s := s.modReist n (fun r => { r with surveying := false, svPhase := 0, reqOut := none, cmdWait := back, posSent := kept })
  let s := if r.surveying && r.reversed && decide (r.lstate = .up) then s.swapTo n else s
  s.reistNotice n 0x4D 0

/-- The port goes down (R232, R243, R252): source 16 + n reports LOS, its streams close; a survey ends without its relock (R267). -/
def State.portDown (s : State) (n : Fin 16) : State :=
  let up := (s.ports[n]).link
  let s := if (s.ports[n]).r.surveying then s.abortSurvey n else s
  let s := s.modPort n (fun p => { p with link := false, r := p.r.downed })
  let s := s.setLos (portSrc n)
  let s := if up then s.portNotice n 0x40 else s
  s.portRefresh n

/-- A write of PORT[n].CFG (R90, R232, R431), the new word stored. A stream's window in progress goes on over a change of
DATUM (DESIGN CHOICE, log 172). -/
def State.portWritten (s : State) (n : Fin 16) (old : Word) : State :=
  let new := s.pcfg n
  let s : State := if bitsOf old 31 27 = bitsOf new 31 27 then s
    else (s.portDown n).modPort n (fun p => { p with cdr := false, fec := false })
  let s := if bitsOf old 26 24 = bitsOf new 26 24 then s else s.leaveInstances n
  let s := if bitsOf old 23 20 = bitsOf new 23 20 then s else s.rotator n
  (s.refreshOrder (portSrc n)).qlRefreshPort n

/-- PCS lock: the link comes up (R232, R248, R252). In SWAP it is the relock of a survey (`swapped`). -/
def State.linkComesUp (s : State) (n : Fin 16) : State :=
  let s := s.modPort n (fun p => { p with link := true, cdr := true, fec := s.rsFec n })
  let s := if s.isReist n then s.modReist n (fun r => { r.downed with lstate := .train }) else s
  ((s.portNotice n 0x41).portRefresh n).qlRefreshPort n

/-! ## ESMC (R237, R82) -/

/-- An ESMC PDU arrives (R80, R82, R237): any valid one restores the mapped order. -/
def State.rxEsmc (s : State) (n : Fin 16) (ssm : BitVec 4) (essm : Option Essm) (info : Bool) : State :=
  if s.esmcOn n = false ∨ (s.ports[n]).link = false then s
  else
    let interp := s.rb .port n.val 0 15 && !s.rb .port n.val 0 18
    let s := s.modPort n (fun p => { p with
      qlRx := ssm
      essmRx := if interp then (essm.map (·.code)).getD 0xFF else 0xFF
      eeecRx := if interp then (essm.map (·.eeec)).getD 0 else 0
      eecRx := if interp then (essm.map (·.eec)).getD 0 else 0
      esmcValid := p.esmcValid || info
      esmcAt := if info then s.tick else p.esmcAt
      qlFailed := false })
    (s.refreshOrder (portSrc n)).qlRefresh

/-- 5 s without an information PDU (R82). -/
def State.qlFails (s : State) (n : Fin 16) : State :=
  let p := s.ports[n]
  if p.qlFailed ∨ s.passed p.esmcAt (5 * secTicks) = false then s
  else
    let s := s.modPort n (fun p => { p with qlFailed := true, esmcValid := false })
    let src := portSrc n
    if s.slf src 0 22 20 = 1 then
      ((s.refreshOrder src).raise (3 * src.val) clsA 0x02 (args8 [byte n.val])).qlRefresh
    else s

/-- The information PDU of every second (R237). -/
def State.txEsmc (s : State) (n : Fin 16) : State :=
  if s.esmcOn n = false ∨ (s.ports[n]).link = false then s
  else
    let s := s.qlRefreshPort n
    let p := s.ports[n]
    s.emit (.port n (.esmc false p.qlTx (s.essmTlv n p.essmTx.toNat)))

/-! ## Transmit timestamp queue (R246) -/

/-- A transmit stamp of an injected frame arrives. -/
def State.txqPut (s : State) (n : Fin 16) (id seq : BitVec 16) (mt : BitVec 4) (dom : Byte) (tb : Edge) (var : Nat) : State :=
  let p := s.ports[n]
  if p.txq.length ≥ 16 then
    let s := (s.modPort n (fun p => { p with txqLoss := true })).count .port n.val 0x1C 15 0
    s.raise (0x0500 + 4 * n.val + 3) clsC 0x47 (args8 (beBytes 2 (s.rf .port n.val 0x1C 15 0)))
  else
    let e : TxqEntry := ⟨id, seq, mt, dom, p.txqLoss, !s.warm, stampOf16 (s.frameStamp n true tb var)⟩
    s.modPort n (fun p => { p with txq := p.txq ++ [e], txqLoss := false })

/-- The words TXQ_E0 to TXQ_E4 of the oldest entry (R246). -/
def TxqEntry.words (e : TxqEntry) : List Word :=
  [e.id ++ e.seq,
   BitVec.ofNat 32 (e.msgType.toNat * 2 ^ 28 + e.domain.toNat * 2 ^ 20 + b2n e.loss * 2 ^ 19 + b2n e.unw * 2 ^ 18
     + e.t.sec.toNat / 2 ^ 32),
   BitVec.ofNat 32 e.t.sec.toNat, e.t.ns, BitVec.ofNat 32 (e.t.sub.toNat * 2 ^ 16)]

/-- A write of TXQ_POP (R246). -/
def State.txqPopped (s : State) (p : Path) (n : Fin 16) (v : Word) : State :=
  match (s.ports[n]).txq with
  | e :: rest =>
    if p = ownerPath (s.rf .port n.val 0x14 1 0) ∧ e.id = v.setWidth 16 then s.modPort n (fun q => { q with txq := rest })
    else s.count .port n.val 0x1C 31 16
  | [] => s.count .port n.val 0x1C 31 16

end Sys2Proof.Machine
end

