-- ==== Sys2Proof/Machine/ReistOps.lean ====
section
/-! DEFINITION. Operations of the Reistica link: frames, link states, the legend, the phase exchange, the reversal
survey (R249 to R274). -/

namespace Sys2Proof.Machine

/-! ## Frames (R249, R250) -/

/-- CRC-32 of the IEEE 802.3 frame check sequence (R249). -/
def crc32 (bs : List Byte) : Nat :=
  crcRef 32 0x04C11DB7 0xFFFFFFFF 0xFFFFFFFF bs

/-- A body of 64 bytes: header, payload padded with zeros, CRC in the byte order of an Ethernet frame (R249, R250). -/
def reistBody (type : Nat) (seq ack : Byte) (payload : List Byte) : List Byte :=
  let b := [byte type, seq, ack, 0#8] ++ (payload ++ List.replicate 56 0#8).take 56
  b ++ leBytes 4 (crc32 b)

/-- A frame on the lane: six bytes of 0x55, the start delimiter 0xD6, the body (R249). -/
def reistFrame (type : Nat) (seq ack : Byte) (payload : List Byte) : List Byte :=
  List.replicate 6 0x55#8 ++ [0xD6#8] ++ reistBody type seq ack payload

/-- Send one frame: SEQ adds 1 for each (R250). -/
def State.sendFrame (s : State) (n : Fin 16) (type : Nat) (payload : List Byte) : State :=
  let r := (s.ports[n]).r
  (s.emit (.port n (.reist (reistFrame type r.seq r.rxSeq payload)))).modReist n (fun r =>
    { r with seq := r.seq + 1, txN := Nat.min 256 (r.txN + 1) })

/-- The Reistica link runs on port n with its PCS link up. -/
def State.reistUp (s : State) (n : Fin 16) : Bool :=
  s.isReist n && (s.ports[n]).link

/-- RLINK in force: as of the last exchange instant (R272). -/
def State.rlink (s : State) (n : Fin 16) : Word :=
  (s.ports[n]).r.rlink

/-- The LINK byte (R255): RATE, FEC, PX_LOG2, of which 15 acts as 14 (R272). -/
def State.linkByte (s : State) (n : Fin 16) : Byte :=
  byte (bitsOf (s.pcfg n) 29 27 * 32 + Nat.min 14 (bitsOf (s.rlink n) 27 24))

/-- A signed notice-free word of a port's parameters (R273). -/
def State.prw (s : State) (n : Fin 16) (o : Nat) : Word :=
  s.r .port n.val o

/-! ## Asymmetry and the optical switch (R264, R350) -/

/-- The gazetteer entry of a port's optical switch: of TYPE 0x03, named by RLINK.OSW (R264, R265). -/
def State.oswEntry (s : State) (n : Fin 16) : Option Gaz :=
  match fin? 64 (bitsOf (s.rlink n) 7 0) with
  | none => none
  | some i =>
    let g := s.gaz[i]
    if g.valid ∧ (g.ident.toNat / 2 ^ 40) % 256 = 3 then some g else none

/-- The optical switch of a port, PRESENT or LATE (R349). -/
def State.oswitch (s : State) (n : Fin 16) : Option Gaz :=
  (s.oswEntry n).filter (fun g => decide (g.state.toNat < 2))

/-- ASYM_MODE is SURVEY. -/
def State.asymBySurvey (s : State) (n : Fin 16) : Bool :=
  decide (bitsOf (s.rlink n) 29 28 = 1)

/-- The asymmetry in force [2^-16 ns] (R264). -/
def State.asym (s : State) (n : Fin 16) : Int :=
  let r := (s.ports[n]).r
  let a := if s.asymBySurvey n && r.asymSurvOk then r.asymSurv else (s.prw n 0x4C).toInt
  if r.reversed then -a else a

/-- ASYM_VALID (R264). -/
def State.asymValid (s : State) (n : Fin 16) : Bool :=
  !s.asymBySurvey n || (s.ports[n]).r.asymSurvOk

/-- The switch's path delay, out or in, in the present position [2^-16 ns] (R264, R350), as its entry holds it, UNREACHABLE too. -/
def State.switchDelay (s : State) (n : Fin 16) (out : Bool) : Int :=
  match s.oswEntry n with
  | none => 0
  | some g =>
    match (s.ports[n]).r.reversed, out with
    | false, true => g.delays[0]
    | false, false => g.delays[1]
    | true, true => g.delays[2]
    | true, false => g.delays[3]

/-! ## Fields of the partner's legend (R255), by payload index: body byte less 4 -/

/-- A big-endian field of a legend part. -/
def legField (bs : List Byte) (i n : Nat) : Nat :=
  beNat ((bs.drop i).take n)

/-- DEV_ID of a part 0. -/
def legDev (bs : List Byte) : BitVec 64 :=
  BitVec.ofNat 64 (legField bs 0 8)

/-- The partner's FLAGS. -/
def State.partnerFlags (s : State) (n : Fin 16) : Byte :=
  match (s.ports[n]).r.partner with
  | some bs => bs.getD 18 0
  | none => 0

/-! ## Surveys: request, switch, abort (R265, R267) -/

/-- A survey may start (R265): UP, switch named and present, SURV_CAP in both legends, none in progress. -/
def State.canSurvey (s : State) (n : Fin 16) : Bool :=
  let r := (s.ports[n]).r
  s.reistUp n && decide (r.lstate = .up) && !r.surveying && (s.oswitch n).isSome && (s.partnerFlags n).getLsbD 3

/-- Request a survey (R265); a request that no answer has met is made again, under a new SURV_ID. -/
def State.requestSurvey (s : State) (n : Fin 16) : State :=
  if s.canSurvey n = false then s
  else
    let id := (s.ports[n]).r.svId + 1
    (s.modReist n (fun r => { r with svId := id, reqOut := some id, survAt := s.tick })).sendFrame n 5
      [1#8, id, byte (bitsOf (s.rlink n) 19 16)]

/-- A survey starts with phase N1 (R265). -/
def State.startSurvey (s : State) (n : Fin 16) (id : Byte) (log2 : Nat) : State :=
  s.modReist n (fun r => { r with
    surveying := true
    reqOut := none
    svId := id
    svLog2 := Nat.min 15 log2
    svPhase := 0
    svSum := Vector.replicate 4 0
    svN := Vector.replicate 4 0
    svInst := 0
    survAt := s.tick })

/-- A SURVEY REQ arrives (R265, R267). -/
def State.rxSurveyReq (s : State) (n : Fin 16) (id log2 : Byte) : State :=
  let r := (s.ports[n]).r
  if s.canSurvey n = false then s.sendFrame n 5 [3#8, id, log2]
  else if r.reqOut.isSome ∧ Config.devId.toNat < r.peerId.toNat then s
  else (s.sendFrame n 5 [2#8, id, log2]).startSurvey n id log2.toNat

/-! ## Link states (R252) -/

/-- To TRAIN (R252): the port counts as down (R243, R59). -/
def State.toTrain (s : State) (n : Fin 16) : State :=
  let s := if (s.ports[n]).r.surveying then s.abortSurvey n else s
  let s := s.modReist n (fun r => { r.downed with lstate := .train, rxSeq := r.rxSeq })
  (s.setLos (portSrc n)).portRefresh n

/-- To DOWN (R252). -/
def State.toDown (s : State) (n : Fin 16) : State :=
  let s := if (s.ports[n]).r.surveying then s.abortSurvey n else s
  let s := s.modReist n (fun r => r.downed)
  (s.setLos (portSrc n)).portRefresh n

/-- LEGEND to VERIFY, once both legends are exchanged and acknowledged (R252); a partner with the own DEV_ID holds the port
in LEGEND (R270). -/
def State.legendDone (s : State) (n : Fin 16) : State :=
  let r := (s.ports[n]).r
  match r.partner with
  | none => s
  | some bs =>
    if r.lstate = .legend ∧ r.legAcked ∧ legDev bs ≠ Config.devId then
      s.modReist n (fun r => { r with lstate := .verify, ver := [] })
    else s

/-- The last exchange instant the port's datum clock has reached, under the PX_LOG2 in force [2^-14 s] (R259, R272). -/
def State.pxNow (s : State) (n : Fin 16) : Nat :=
  let px := Nat.min 14 (bitsOf (s.rlink n) 27 24)
  ((s.datums[s.portDatum n]).clk.now.toInt56 * 2 ^ px / ((secNs * 2 ^ 56 : Nat) : Int)).toNat * 2 ^ (14 - px)

/-- TRAIN to LEGEND (R252). The exchange begins with the next instant (R259). -/
def State.trainDone (s : State) (n : Fin 16) : State :=
  let r := (s.ports[n]).r
  if r.lstate = .train ∧ r.trainN ≥ 256 ∧ r.ackSeen ∧ r.linkSame then
    s.modReist n (fun r => { r with lstate := .legend, pxSent := r.pxInst })
  else s

/-- The header of a CRC-clean frame (R250, R252, R254): the frame is acknowledged, its ACK shows what the partner has. -/
def State.rxHeader (s : State) (n : Fin 16) (seq ack : Byte) : State :=
  let s := s.modReist n (fun r => { r with
    rxSeq := seq
    crcRun := 0
    trainN := Nat.min 256 (r.trainN + 1)
    ackSeen := r.ackSeen || decide ((r.seq - 1 - ack).toNat < r.txN)
    legAcked := r.legAcked || (match r.legSeq with
      | some q => decide ((ack - q).toNat < 128)
      | none => false) })
  (s.trainDone n).legendDone n

/-- A TRAIN frame arrives (R250, R252). -/
def State.rxTrain (s : State) (n : Fin 16) (seq ack link : Byte) : State :=
  let same := decide (link = s.linkByte n)
  (s.modReist n (fun r => { r with linkSame := same })).rxHeader n seq ack

/-- Entry to UP (R265, R270, R274). -/
def State.enterUp (s : State) (n : Fin 16) : State :=
  let bs := (s.ports[n]).r.partner.getD []
  let first := bitOf (s.rlink n) 31
  let s := s.modReist n (fun r => { r with
    lstate := .up, peerId := legDev bs, peerPort := bs.getD 13 0, streamsWait := first, survAt := s.tick })
  let s := (s.portNotice n 0x48).portRefresh n
  if first then s.requestSurvey n else s

/-- The PCS relocks within a swap (R265): the link is up again, in UP and the commanded position (R248). -/
def State.relockUp (s : State) (n : Fin 16) : State :=
  let s := s.modPort n (fun p => { p with link := true, cdr := true, fec := s.rsFec n })
  let s := s.modReist n (fun r => { r with
    lstate := .up, reversed := r.surveying && decide (r.svPhase = 1), svInst := 0 })
  (s.portNotice n 0x41).portRefresh n

/-- LINK_UP (R232, R252): a relock within 50 ms of the swap instant; a later one finds the port DOWN. -/
def State.linkUp' (s : State) (n : Fin 16) : State :=
  if (s.isEth n || s.isReist n) = false ∨ (s.ports[n]).link then s
  else if s.isReist n ∧ (s.ports[n]).r.lstate = .swap then
    (if s.passed (s.ports[n]).r.swapAt (50 * msTicks + 1) then (s.toDown n).linkComesUp n else s.relockUp n)
  else s.linkComesUp n

/-- LINK_DOWN (R233, R252): in SWAP the state waits for the relock. -/
def State.linkDown' (s : State) (n : Fin 16) : State :=
  if (s.ports[n]).link = false then s
  else if s.isReist n ∧ (s.ports[n]).r.lstate = .swap then
    (s.modPort n (fun p => { p with link := false })).portNotice n 0x40
  else s.portDown n

/-! ## The legend (R254 to R256, R269, R271) -/

/-- The assigned loop of a port's datum clock. -/
def State.portLoop (s : State) (n : Fin 16) : Option (Fin 16) :=
  (s.datums[s.portDatum n]).assigned

/-- A source is bound to a Reistica port: its recovered clock, or a stream (R256, R269). -/
def State.reistPortOf (s : State) (src : Fin 96) : Option (Fin 16) :=
  if 16 ≤ src.val ∧ src.val < 32 then
    (if s.isReist (finMod 16 (src.val - 16)) then some (finMod 16 (src.val - 16)) else none)
  else if isPacket src then
    let (kind, p, _) := s.binding (streamOf src)
    if kind then some p else none
  else none

/-- ORDER sent (R256). -/
def State.legendOrder (s : State) (n : Fin 16) : Nat :=
  match s.portLoop n with
  | none => 14
  | some l =>
    let lp := s.loops[l]
    let own := match lp.sel with
      | some src => decide (src = portSrc n) || (isPacket src && decide ((s.binding (streamOf src)).2.1 = n))
      | none => false
    if own then 15
    else match lp.code, lp.sel with
      | .acquire, some src => s.order src
      | .locked, some src => s.order src
      | .holdover, _ => bitsOf (s.prw n 0x5C) 3 0
      | _, _ => 14

/-- HOPS, CHAIN_MEAN, CHAIN_VAR, ROOT_ID (R269). -/
def State.chain (s : State) (n : Fin 16) : Nat × Nat × Nat × Nat :=
  let m : Option (Fin 16) := match s.portLoop n with
    | some l => (s.loops[l]).sel.bind (fun src => s.reistPortOf src)
    | none => none
  match m with
  | none => (0, 0, 0, Config.devId.toNat)
  | some p =>
    match (s.ports[p]).r.partner with
    | none => (1, 0xFFFF, 0, Config.devId.toNat)
    | some bs =>
      let hop := s.prw p 0x60
      let rms := bitsOf hop 15 0
      (satAdd 8 (legField bs 19 1) 1,
       if legField bs 20 2 = 0xFFFF ∨ s.asymValid p = false then 0xFFFF else satAdd 16 (legField bs 20 2) (bitsOf hop 31 16),
       satAdd 32 (legField bs 22 4) (rms * rms),
       legField bs 30 8)

/-- The two legend payloads but for LSEQ (R255). -/
def State.legendParts (s : State) (n : Fin 16) (lseq : BitVec 16) : List Byte × List Byte :=
  let d := s.datums[s.portDatum n]
  let code := match s.portLoop n with
    | some l => (s.loops[l]).code.num
    | none => 0
  let flags := b2n d.traceable * 128 + b2n d.set * 64 + b2n (!s.warm) * 32 + b2n (s.asymValid n) * 16 + b2n (s.oswitch n).isSome * 8
  let (hops, mean, var, root) := s.chain n
  let (dig, dseq) := s.benchDigest
  (beBytes 8 Config.devId.toNat ++ beBytes 3 0x4A5FD3 ++ [byte (if Config.gradeV then 0x56 else 0x54), 0x42#8]
    ++ [byte n.val, s.linkByte n] ++ beBytes 2 lseq.toNat ++ [byte (s.legendOrder n * 16 + code), byte flags, byte hops]
    ++ beBytes 2 mean ++ beBytes 4 var ++ beBytes 4 (BitVec.ofInt 32 (s.asym n)).toNat ++ beBytes 8 root,
   beBytes 32 dig.toNat ++ beBytes 4 dseq.toNat ++ beBytes 2 lseq.toNat)

/-- Both legend parts go out; changed content takes the next LSEQ, a changed ORDER raises QL_TX_CHANGE (R254, R256). -/
def State.txLegend (s : State) (n : Fin 16) : State :=
  let r := (s.ports[n]).r
  if s.reistUp n = false ∨ ¬(r.lstate = .legend ∨ r.lstate = .verify ∨ r.lstate = .up) then s
  else
    let (a, b) := s.legendParts n 0
    let changed := decide (r.legSent ≠ a ++ b)
    let lseq := if changed then r.lseq + 1 else r.lseq
    let o := BitVec.ofNat 4 (s.legendOrder n)
    let s := s.modReist n (fun r => { r with lseq := lseq, legSent := a ++ b, lastOrder := o })
    let (a, b) := s.legendParts n lseq
    let s := (s.sendFrame n 2 a).sendFrame n 3 b
    let s := s.modReist n (fun q => { q with legSeq := if q.legSeq.isNone || changed then some (q.seq - 1) else q.legSeq })
    if r.lastOrder = o then s
    else s.raise (0x0500 + 4 * n.val + 1) clsA 0x44 (args8 [byte r.lastOrder.toNat, byte o.toNat])

/-- A legend is accepted (R253, R254, R270, R271). -/
def State.acceptLegend (s : State) (n : Fin 16) (a b : List Byte) : State :=
  let r := (s.ports[n]).r
  let dev := legDev a
  let s := s.modReist n (fun r => { r with
    partner := some a
    peerBench := (BitVec.ofNat 256 (legField b 0 32), BitVec.ofNat 32 (legField b 32 4))
    asymSurvOk := r.asymSurvOk && decide (dev = r.peerId ∧ a.getD 13 0 = r.peerPort)
    asymSurv := if dev = r.peerId ∧ a.getD 13 0 = r.peerPort then r.asymSurv else 0 })
  let mm := decide ((s.asym n + signed 32 (legField a 26 4)).natAbs > bitsOf (s.prw n 0x50) 15 0)
  let s := s.modReist n (fun r => { r with mismatch := mm })
  let s := if mm && !r.mismatch then s.reistNotice n 0x4C 0 else s
  let s := if r.lstate = .legend ∧ dev = Config.devId then s.reistNotice n 0x4B 0 else s
  let s : State := if r.lstate = .up ∧ dev ≠ r.peerId then
      let s := if r.surveying then s.abortSurvey n else s
      (s.modReist n (fun r => { r with lstate := .verify, ver := [] })).reistNotice n 0x4A (BitVec.ofNat 64 dev.toNat)
    else s
  (s.legendDone n).portRefresh n

/-- A legend part arrives (R254). `part` false = LEGEND0. -/
def State.rxLegend (s : State) (n : Fin 16) (part : Bool) (seq ack : Byte) (payload : List Byte) : State :=
  if s.reistUp n = false then s
  else
    let same := decide (payload.getD 14 0 = s.linkByte n)
    let s := (s.modReist n (fun r =>
      if part then { r with part1 := some payload } else { r with part0 := some payload, linkSame := same })).rxHeader n seq ack
    match (s.ports[n]).r.part0, (s.ports[n]).r.part1 with
    | some a, some b =>
      if legField a 15 2 = legField b 36 2 ∧ (s.ports[n]).r.lstate ≠ .train then s.acceptLegend n a b else s
    | _, _ => s

/-! ## The phase exchange (R258 to R263, R270) -/

/-- The 12 bytes of a stamp (R260). -/
def stampBytes (t : Stamp) : List Byte :=
  beBytes 6 t.sec.toNat ++ beBytes 4 t.ns.toNat ++ beBytes 2 t.sub.toNat

/-- RLINK takes effect at an exchange instant, PX_LOG2 at a whole second (R272), in every link state. -/
def State.latchRlink (s : State) (n : Fin 16) (inst : Nat) : State :=
  let w := s.r .port n.val 0x44
  s.modReist n (fun r =>
    let whole := decide (r.pxInst / 2 ^ 14 ≠ inst / 2 ^ 14)
    { r with pxInst := inst, rlink := mix (if whole then 0xFFFFFFFF else 0xF0FFFFFF) r.rlink w })

/-- The link sends PHASE frames: in LEGEND, VERIFY and UP (R251). -/
def State.sendsPhase (s : State) (n : Fin 16) : Bool :=
  let l := (s.ports[n]).r.lstate
  s.reistUp n && decide (l = .legend ∨ l = .verify ∨ l = .up)

/-- At a tick: the port's datum clock reaches an exchange instant (R259). RLINK acts (R272), the windows of the port's
streams and the phase of a survey count it (R263, R265); where the link sends no frames, none is owed for it. -/
def State.pxTick (s : State) (n : Fin 16) : State :=
  let at_ := s.pxNow n
  if at_ = (s.ports[n]).r.pxInst then s
  else
    let owes := s.sendsPhase n
    let s := (s.latchRlink n at_).modReist n (fun q => { q with
      pxSent := if owes then q.pxSent else at_
      svInst := if q.surveying ∧ q.lstate = .up then q.svInst + 1 else q.svInst })
    if s.pteOn then
      let s := s.closeBefore (true, n, 0)
      (s.boundTo (true, n, 0)).foldl (fun (s : State) i => s.modStream i (fun t => { t with cnt := t.cnt + 1 })) s
    else s

/-- An exchange instant has come since the last frame: a PHASE frame goes out (R251, R259, R260). -/
def State.txPhase (s : State) (n : Fin 16) (tb : Edge) (var : Nat) : State :=
  let r := (s.ports[n]).r
  if s.sendsPhase n = false ∨ r.pxSent = r.pxInst then s
  else
    let t3 := s.frameStamp n true tb var + s.switchDelay n true
    let (eq, et) := r.echo.getD (0, stampZero)
    let fl := byte (b2n r.echo.isSome * 128 + b2n r.reversed * 64 + b2n (!s.warm) * 32)
    let s := s.sendFrame n 4 (beBytes 2 r.pxSeq.toNat ++ stampBytes (stampOf16 t3) ++ beBytes 2 eq.toNat ++ stampBytes et ++ [fl])
    s.modReist n (fun q => { q with
      pxSeq := q.pxSeq + 1
      pxSent := q.pxInst
      sent := ((r.pxSeq, t3) :: q.sent).take 16 })

/-- The mean of 64 boundaries [2^-26 ns], their internal stamps against the port's datum clock (R258). -/
def State.meanBoundary (s : State) (n : Fin 16) (bounds : List Edge) : Int :=
  let rate := bitsOf (s.pcfg n) 29 28
  let (a, b) := uiOf rate
  let l := if rate = 0 ∨ s.rsFec n then 10 else 66
  roundDiv (bounds.foldl (fun a e => a + s.boundary n e) 0 * b - ((63 * 32 * l * a * 2 ^ 26 : Nat) : Int)) (64 * b)

/-- The receive stamp of a PHASE frame at the switch's far side [2^-16 ns] (R258, R264). -/
def State.phaseStamp (s : State) (n : Fin 16) (bounds : List Edge) (var : Nat) : Int :=
  s.ballStamp n false (exportStamp (s.meanBoundary n bounds)) var - s.switchDelay n false

/-- ρ [2^-48] from the oldest and the newest of the valid pairs (R261); where their t3 are equal the spec states no value. -/
def State.rhoOf (s : State) (ps : List Pair) : Int × State :=
  match ps, ps.getLast? with
  | new :: _ :: _, some old =>
    let den := new.t3 - old.t3
    let num := new.t4 - old.t4
    if den = 0 then
      let (v, s) := s.free
      (v.toInt, s)
    else
      let (num, den) := if den < 0 then (-num, -den) else (num, den)
      (satS 64 (roundDiv ((num - den) * 2 ^ 48) den.toNat), s)
  | _, _ => (0, s)

/-- VERIFY passes on the newest pairs (R270). -/
def State.verifyOk (s : State) (n : Fin 16) (ver : List Int) : Bool :=
  let cnt := 2 ^ bitsOf (s.rlink n) 23 20
  let dmax : Int := (((s.prw n 0x58).toNat * 2 ^ 17 : Nat) : Int)
  let tol : Int := (((s.prw n 0x54).toNat * 2 : Nat) : Int)
  let v := ver.take cnt
  match v with
  | [] => false
  | a :: l =>
    let mx := l.foldl max a
    let mn := l.foldl min a
    decide (v.length = cnt ∧ 0 ≤ mn ∧ mx ≤ dmax ∧ mx - mn ≤ tol)
      && (match (s.ports[n]).r.partner with
        | some bs => decide (legDev bs ≠ Config.devId)
        | none => false)

/-- A valid pair in UP feeds the survey and the streams (R263, R265). x [2^-32 ns] with PE_SAT (R48), t3, t4, rt [2^-16 ns]. -/
def State.usePair (s : State) (n : Fin 16) (x : Int × Bool) (t3 t4 rt : Int) : State :=
  let r := (s.ports[n]).r
  let a := s.asym n
  let s := if r.surveying ∧ r.svPhase ≤ 3 ∧ r.svInst < 2 ^ r.svLog2 then
      s.modReist n (fun q =>
        let i : Fin 4 := finMod 4 q.svPhase
        { q with svSum := q.svSum.set i (q.svSum[i] + x.1 + a * 2 ^ 15), svN := q.svN.set i (q.svN[i] + 1) })
    else s
  let fl := s.partnerFlags n
  let label : Option (Int × Int) :=
    if fl.getLsbD 7 && fl.getLsbD 6 then some (t3 * 2 ^ 10 + (rt - a) * 2 ^ 9, t4 * 2 ^ 10) else none
  let s := s.closeBefore (true, n, 0)
  (s.boundTo (true, n, 0)).foldl (fun (s : State) i =>
    if (s.streams[i]).selMode = 0 then s.deliver i x label
    else s.modStream i (fun t => { t with xs := t.xs ++ [x], label := label })) s

/-- A PHASE frame arrives (R258, R260 to R263, R270). -/
def State.rxPhase (s : State) (n : Fin 16) (seq ack : Byte) (f : PhaseFrame) (bounds : List Edge) (var : Nat) : State :=
  if s.reistUp n = false ∨ bounds.length ≠ 64 then s
  else
    let t4 := s.phaseStamp n bounds var
    let s := s.rxHeader n seq ack
    let r := (s.ports[n]).r
    let s := s.modReist n (fun q => { q with echo := some (f.pxSeq, stampOf16 t4) })
    match r.sent.find? (fun e => decide (e.1 = f.echoSeq)) with
    | none => s.modReist n (fun q => { q with ver := [] })
    | some (_, t1) =>
      if f.echoValid = false ∨ f.reversed ≠ r.reversed then s.modReist n (fun q => { q with ver := [] })
      else
        let t2 := stamp16 f.t2
        let t3 := stamp16 f.t3
        let ps := (⟨t3, t4⟩ :: r.pairs).take 64
        let (rho, s) := s.rhoOf ps
        let turn := t3 - t2
        let rt := (t4 - t1) - turn - roundDiv (turn * rho) (2 ^ 48)
        let x := satPE ((t3 - t4) * 2 ^ 16 + rt * 2 ^ 15 - s.asym n * 2 ^ 15) false
        let s := s.modReist n (fun q => { q with
          pairs := ps
          rho := rho
          rdelay := satS 64 (rt * 2 ^ 15)
          ver := if q.lstate = .verify then (rt :: q.ver).take 32768 else [] })
        match r.lstate with
        | .verify => if r.retrainAt = none ∧ s.verifyOk n (s.ports[n]).r.ver then s.enterUp n else s
        | .up => s.usePair n x t3 t4 rt
        | _ => s

/-- A VERIFY fails (R270): the port returns to TRAIN after 1 s. -/
def State.verifyFails (s : State) (n : Fin 16) : State :=
  let r := (s.ports[n]).r
  if r.lstate ≠ .verify ∨ r.retrainAt.isSome ∨ s.verifyOk n r.ver then s
  else (s.modReist n (fun q => { q with
      verifyFails := satAdd 16 q.verifyFails 1, retrainAt := some (s.tick + BitVec.ofNat 64 secTicks) })).portNotice n 0x49

/-- At a tick: the port whose VERIFY failed 1 s ago returns to TRAIN (R270). -/
def State.retrainDue (s : State) (n : Fin 16) : State :=
  match (s.ports[n]).r.retrainAt with
  | some k => if s.passed k 0 ∧ (s.ports[n]).r.lstate = .verify then s.toTrain n else s
  | none => s

/-- RCMD.RETRAIN (R252, R272). -/
def State.retrain (s : State) (n : Fin 16) : State :=
  match (s.ports[n]).r.lstate with
  | .legend => s.toTrain n
  | .verify => s.toTrain n
  | .up => s.toTrain n
  | _ => s

/-! ## The survey's course (R265 to R267) -/

/-- A survey phase ends (R265, R267). -/
def State.phaseEnd (s : State) (n : Fin 16) : State :=
  let r := (s.ports[n]).r
  if r.surveying = false ∨ r.lstate ≠ .up ∨ r.svInst < 2 ^ r.svLog2 ∨ r.svPhase > 3 then s
  else if 2 * r.svN[finMod 4 r.svPhase] < 2 ^ r.svLog2 then s.abortSurvey n
  else
    let s := s.modReist n (fun q => { q with svPhase := q.svPhase + 1, svInst := 0 })
    if r.svPhase = 0 ∨ r.svPhase = 2 then s.swapTo n else s

/-- The survey is done: F is formed, the result accepted (R266). -/
def State.surveyDone (s : State) (n : Fin 16) : State :=
  let r := (s.ports[n]).r
  if r.surveying = false ∨ r.svPhase ≠ 4 then s
  else
    let c (i : Fin 4) : Int := ((r.svN[i] : Nat) : Int)
    let num := (r.svSum[0] * c 3 + r.svSum[3] * c 0) * (c 1 * c 2) - (r.svSum[1] * c 2 + r.svSum[2] * c 1) * (c 0 * c 3)
    let den := 2 * r.svN[0] * r.svN[1] * r.svN[2] * r.svN[3]
    let v := satS 32 (roundDiv num (den * 2 ^ 16))
    let before := s.asym n
    let s := s.modReist n (fun q => { q with
      surveying := false, svPhase := 0, asymSurv := v, asymSurvOk := true, streamsWait := false, survAt := s.tick })
    let ch := satS 32 (s.asym n - before)
    let s := s.raise (0x0500 + 4 * n.val + 3) clsC 0x4E
      (args8 (beBytes 4 (BitVec.ofInt 32 v).toNat ++ beBytes 4 (BitVec.ofInt 32 ch).toNat))
    s.portRefresh n

/-- SURV_INT hours have passed at the end with the lower DEV_ID (R265). -/
def State.survTimer (s : State) (n : Fin 16) : State :=
  let r := (s.ports[n]).r
  let h := bitsOf (s.rlink n) 15 8
  if h = 0 ∨ ¬(Config.devId.toNat < r.peerId.toNat) ∨ s.passed r.survAt (h * 3600 * secTicks) = false then s
  else s.requestSurvey n

/-- 50 ms without a relock (R252, R267): a link still up goes down (R248). -/
def State.relockTimeout (s : State) (n : Fin 16) : State :=
  let r := (s.ports[n]).r
  if r.lstate ≠ .swap ∨ s.passed r.swapAt (50 * msTicks) = false then s
  else
    let up := (s.ports[n]).link
    let s := s.modPort n (fun p => { p with link := false })
    (if up then s.portNotice n 0x40 else s).toDown n

/-- 10 ms without the switch's confirmation (R267). -/
def State.confirmTimeout (s : State) (n : Fin 16) : State :=
  let r := (s.ports[n]).r
  if r.cmdWait = false ∨ r.surveying = false ∨ s.passed r.swapAt (10 * msTicks) = false then s else s.abortSurvey n

/-- A discarded frame (R250, R252, R237, R241): one that fails its CRC, or one whose header with SEQ and ACK arrived CRC-clean, which
acknowledges and trains as any other. -/
def State.discardFrame (s : State) (n : Fin 16) (hdr : Option (Byte × Byte)) : State :=
  let s := s.count .port n.val 0x10 31 0
  if s.reistUp n = false then s
  else match hdr with
  | none =>
    let s := s.modReist n (fun r => { r with crcRun := r.crcRun + 1, trainN := 0 })
    if (s.ports[n]).r.crcRun ≥ 64 then s.retrain n else s
  | some (seq, ack) => s.rxHeader n seq ack

end Sys2Proof.Machine
end

