-- ==== Sys2Proof/Machine/ArcOps.lean ====
section
/-! DEFINITION. The archive: its areas, reads and writes of 32 bits, block protect, key slots and refresh (R367 to
R374). -/

namespace Sys2Proof.Machine

/-- Log records the ring holds: 0x7_0000 bytes of 32-byte records (R368). -/
def logRing : Nat := 0x70000 / 32

/-- Record n of the archive log (R370): the last two bytes are the CRC-16 of R343 over the others. -/
def logRecord (n : Nat) : List Byte :=
  let bs := (List.range 30).map (fun i => Config.logByte n i)
  bs ++ beBytes 2 (crc 16 0x1021 0xFFFF bs)

/-- A byte of the log area: the newest record written to its place in the ring, 0 where none was. -/
def logAreaByte (written a : Nat) : Byte :=
  let slot := a / 32
  if written ≤ slot then 0
  else
    let n := written - 1 - (written - 1 - slot) % logRing
    (logRecord n).getD (a % 32) 0

/-- A byte of the block area (R368): block i of the model, oldest first, mean f as s64, T as s16, six reserved bytes. -/
def blockAreaByte (blocks : List (Int × Int)) (a : Nat) : Byte :=
  match blocks.reverse[a / 16]? with
  | none => 0
  | some (f, t) =>
    (beBytes 8 (BitVec.ofInt 64 f).toNat ++ beBytes 2 (BitVec.ofInt 16 t).toNat).getD (a % 16) 0

/-- Byte a lies in an area that keepers write (R368). -/
def arcKeeperArea (a : Nat) : Bool :=
  decide (0x80000 ≤ a ∧ a < 0x100000)

/-- Byte a lies in an area of the factory half (R368). -/
def arcFactoryArea (a : Nat) : Bool :=
  decide ((0x100000 ≤ a ∧ a < 0x1CC000) ∨ (0x1CC000 ≤ a ∧ a ≤ 0x1CD97F) ∨ (0x1D0000 ≤ a ∧ a < 0x1E0000)
    ∨ (0x1FE000 ≤ a ∧ a < 0x1FE400) ∨ 0x1FF000 ≤ a)

/-- The cartouche's fields (R371): DEV_ID, ORG_ID, grade, die revision, FLOOR, test date, CAL_LOG2. -/
def cartFields : List Byte :=
  beBytes 8 Config.devId.toNat ++ beBytes 3 0x4A5FD3 ++ [byte (if Config.gradeV then 0x56 else 0x54), 0x42, 2]
    ++ beBytes 6 Config.testDate.toNat ++ [byte Config.calLog2.toNat]

/-- The bytes of the cartouche: its fields and a CRC-32 over them (R371), FLOOR and CAL_LOG2 in a byte each (log 154). -/
def cartBytes : List Byte :=
  cartFields ++ beBytes 4 (crc32 cartFields)

/-- A byte of the archive (R368). The VALID byte of key slot 0 reads 0xA5: the slot holds the Slaovorad key (R287, R369). -/
def State.arcByte (s : State) (a : Nat) : Byte :=
  if a < 0x70000 then logAreaByte s.arch.logWr a
  else if a < 0x71000 then
    Config.ovenByte (a - 0x70000) s.arch.ovenA s.arch.ovenKt s.arch.ovenValid s.oven.blocks.length
  else if a < 0x75000 then blockAreaByte s.oven.blocks (a - 0x71000)
  else if a < 0x80000 then
    let c := s.arch.counters
    Config.counterByte (a - 0x75000) c.resets.toList c.hours c.retirements c.failures
  else if arcKeeperArea a then (mapGet s.arch.cells a).getD 0
  else if a = 0x1FE040 then 0xA5
  else if arcFactoryArea a then (cartBytes[a - 0x1FF000]?.filter (fun _ => 0x1FF000 ≤ a)).getD (Config.factoryByte a)
  else 0

/-- A word of the archive among the n bytes from a has an error that cannot be corrected (R374). -/
def Archive.badIn (m : Archive) (a n : Nat) : Bool :=
  m.bad.any (fun w => decide (a < 8 * w + 8 ∧ 8 * w < a + n))

/-- The cartouche's CRC is valid (R371): each of its words can be read. -/
def State.cartSound (s : State) : Bool :=
  !s.arch.badIn 0x1FF000 25

/-- A 32-bit read at archive byte a (R367); a word that cannot be corrected takes a free value (log entry 134). -/
def State.arcRead (s : State) (a : Nat) : Word × State :=
  let a := a - a % 4
  if s.arch.badIn a 4 then
    let (v, s) := s.free
    (v.setWidth 32, s)
  else (BitVec.ofNat 32 (beNat ((List.range 4).map (fun i => s.arcByte (a + i)))), s)

/-- An uncorrectable word of the archive is met at byte a (R356, R367, R374): counted, noticed, left as found. -/
def State.arcUe (s : State) (a : Nat) : State :=
  (s.count .archive 0 0x10 31 0).raise 0x075A clsB 0x61 (args8 (beBytes 4 a))

/-- The protection in force (R372): the larger of PROTECT and the cartouche's FLOOR, 0b10 on every shipped part. -/
def State.protection (s : State) : Nat :=
  Nat.max 2 (s.rf .archive 0 0 31 30)

/-- Archive byte a is protected (R372). -/
def State.arcProtected (s : State) (a : Nat) : Bool :=
  match s.protection with
  | 3 => true
  | _ => decide (a ≥ 0x100000)

/-- The item of R388 that archive byte a belongs to: start-sheet copy A or B, key slot 1 to 4 (R368). -/
def arcItem (a : Nat) : Option (Fin 6) :=
  if 0x80000 ≤ a ∧ a < 0xC0000 then fin? 6 ((a - 0x80000) / 0x20000)
  else if 0xC0000 ≤ a ∧ a < 0xC1000 then fin? 6 (2 + (a - 0xC0000) / 0x400)
  else none

/-- A 32-bit write at archive byte a by a keeper path or the steward (R367, R372): a read-merge-write of its word, dropped
where the word cannot be corrected (R356). A write of a start-sheet copy or a key slot is recorded in the archive log (R388), once for
writes that follow one another in one item (DESIGN CHOICE, log 163). -/
def State.arcWrite (s : State) (a : Nat) (v : Word) : State :=
  let a := a - a % 4
  if s.arcProtected a then s.count .archive 0 4 15 0
  else if s.arch.badIn a 4 then s.arcUe a
  else if arcKeeperArea a then
    let cells := ((List.range 4).zip (beBytes 4 v.toNat)).foldl (fun m p => mapSet m (a + p.1) p.2 0) s.arch.cells
    let s := { s with arch := { s.arch with cells := cells } }
    match arcItem a with
    | some n => if s.arch.log.head? = some (.archive n) then s else s.log (.archive n)
    | none => s
  else s

/-- The canonical form of the archive's keeper area. -/
def Archive.wf (m : Archive) : Bool :=
  mapWf (fun _ => (0 : Byte)) m.cells

/-- Base of key slot k, 0–4 (R368, R369). -/
def keyBase (k : Nat) : Nat :=
  if k = 0 then 0x1FE000 else 0x0C0000 + (k - 1) * 0x400

/-- The public key in slot k, if the slot is not empty (R369, R287); none where a word of it cannot be read. -/
def State.keySlot (s : State) (k : Nat) : Option (Nat × Nat) :=
  if k > 4 ∨ s.arch.badIn (keyBase k) 65 then none
  else
    let at_ (i : Nat) := s.arcByte (keyBase k + i)
    if at_ 64 = 0xA5 then
      some (beNat ((List.range 32).map at_), beNat ((List.range 32).map (fun i => at_ (32 + i))))
    else none

/-- A write of ARCHIVE.CTRL by a keeper (R372): PROTECT rises in any mode and falls only in RECOVERY. -/
def State.protectWrite (s : State) (v : Word) : State :=
  let old := s.rf .archive 0 0 31 30
  let new := bitsOf v 31 30
  let p := if new < old ∧ s.boot.mode ≠ .recovery then old else new
  s.wr .archive 0 0 (mix 0xC0000000 (v &&& 0x2000FFFF) (fld p 30))

/-- A word that cannot be corrected lies in a record of the log, which is then lost: reported in LOG_LOST, once (R370, log 154). -/
def State.recordLost (s : State) (w : Nat) : State :=
  if w / 4 < Nat.min logRing s.arch.logWr ∧ s.arch.badIn (32 * (w / 4)) 32 = false then s.count .archive 0 0x08 31 0 else s

/-- One word is visited by a refresh pass (R374): `bad`, an error that cannot be corrected is found, or was found before. -/
def State.refreshWord (s : State) (word : BitVec 18) (weak bad : Bool) : State :=
  let args := args8 (beBytes 4 (8 * word.toNat))
  if s.rb .archive 0 0 29 = false then s
  else if s.arch.badIn (8 * word.toNat) 8 then s.arcUe (8 * word.toNat)
  else if bad then
    let s := s.recordLost word.toNat
    let s := { s with arch := { s.arch with bad := word.toNat :: s.arch.bad } }
    s.arcUe (8 * word.toNat)
  else if weak then (s.count .archive 0 0x0C 31 0).raise 0x075B clsC 0x60 args
  else s

end Sys2Proof.Machine
end

