-- ==== Sys2Proof/Machine/ProgOps.lean ====
section
/-! DEFINITION. Sheet images, their verification, program ports and swaps (R205, R207, R220, R224, R284 to R290, R292,
R429). -/

namespace Sys2Proof.Machine

/-! ## Program ports (R288) -/

/-- The port of a target. -/
def State.prog (s : State) : ProgPort → Prog
  | .eng n => (s.engines[n]).prog
  | .loop n => (s.loops[n]).prog
  | .plan => s.plan

def State.modProg (s : State) (pp : ProgPort) (f : Prog → Prog) : State :=
  match pp with
  | .eng n => s.modEng n (fun e => { e with prog := f e.prog })
  | .loop n => s.modLoop n (fun l => { l with prog := f l.prog })
  | .plan => { s with plan := f s.plan }

/-- The place of PROG_SRC; PROG_CMD and PROG_STATUS follow it. -/
def progPlace : ProgPort → Place
  | .eng n => ⟨.engine, n.val, 0x004⟩
  | .loop n => ⟨.loop, n.val, 0x0D0⟩
  | .plan => ⟨.synth, 8, 0x100⟩

/-- TARGET of the images a port accepts (R285, R288). -/
def progTarget : ProgPort → Nat
  | .eng _ => 1
  | .loop _ => 2
  | .plan => 3

/-- The inactive bank. -/
def Prog.spare (p : Prog) : Option Sheet :=
  if p.bank then p.bank0 else p.bank1

def Prog.setSpare (p : Prog) (x : Option Sheet) : Prog :=
  if p.bank then { p with bank0 := x } else { p with bank1 := x }

/-- PROG_STATUS (R288). -/
def Prog.status (p : Prog) : Word :=
  fld (match p.phase with | .idle => 0 | .verifying => 1 | .armed => 2) 30 ||| mkBit 29 p.active ||| mkBit 28 p.bank
    ||| fld p.cause.toNat 24 ||| fld (Nat.min 255 p.rejects) 16

/-- PROG_DIGEST of a bank (R288). -/
def bankDigest : Option Sheet → BitVec 256
  | some x => x.digest
  | none => 0

/-! ## The image (R285, R286, R429) -/

/-- The header fields of an image. -/
structure ImgHead where
  target : Nat
  drop : Bool
  keepData : Bool
  signed : Bool
  codeW : Nat
  constW : Nat
  initB : Nat
  wcet : Nat
  entry : Nat
  carryG : Word
  carryAcc : BitVec 4
  digest : BitVec 256
  deriving DecidableEq, Repr

/-- Number at byte i, n bytes. -/
def numAt (bs : List Byte) (i n : Nat) : Nat :=
  beNat ((bs.drop i).take n)

/-- The header of the first 96 bytes, none where it breaks the layout of R285 for this target. -/
def readHead (target : Nat) (h : List Byte) : Option ImgHead :=
  let b (i : Nat) : Nat := (h.getD i 0).toNat
  let head : ImgHead :=
    { target := b 4, drop := (h.getD 6 0).getLsbD 7, keepData := (h.getD 6 0).getLsbD 6, signed := (h.getD 6 0).getLsbD 5
      codeW := numAt h 8 4, constW := numAt h 12 4, initB := numAt h 16 4, wcet := numAt h 20 4, entry := numAt h 24 4
      carryG := BitVec.ofNat 32 (numAt h 28 4), carryAcc := BitVec.ofNat 4 (b 32)
      digest := BitVec.ofNat 256 (numAt h 64 32) }
  if h.length < 96 ∨ numAt h 0 4 ≠ 0x4E4D5952 ∨ b 4 ≠ target ∨ b 5 ≠ 1 ∨ b 6 % 32 ≠ 0 ∨ b 7 ≠ 0 ∨ b 32 / 16 ≠ 0
      ∨ numAt h 33 3 ≠ 0 ∨ numAt h 40 24 ≠ 0 then none
  else if (target ≠ 2 ∧ head.wcet ≠ 0) ∨ (target ≠ 1 ∧ head.entry ≠ 0) then none
  else if (target = 2 ∧ head.initB ≠ 320) ∨ (target = 3 ∧ (head.codeW ≠ 0 ∨ head.constW ≠ 0 ∨ head.initB ≠ 1584)) then none
  else some head

/-- Code words and constants a target holds (R275). -/
def sizeLimit : Nat → Nat × Nat
  | 1 => (16384, 2048)
  | 2 => (4096, 512)
  | _ => (0, 0)

/-- Bytes of the image. -/
def ImgHead.size (h : ImgHead) : Nat :=
  96 + 4 * h.codeW + 8 * h.constW + h.initB + (if h.signed then 68 else 0)

/-- The image exceeds a size of R275, or runs beyond the SRAM. -/
def ImgHead.tooLarge (h : ImgHead) (src : Nat) : Bool :=
  decide (h.codeW > (sizeLimit h.target).1 ∨ h.constW > (sizeLimit h.target).2 ∨ src + h.size > sramSize)

/-- Words of a byte list, n bytes each. -/
def chunks (n : Nat) : Nat → List Byte → List Nat
  | 0, _ => []
  | k + 1, bs => beNat (bs.take n) :: chunks n k (bs.drop n)

/-- The runs of an engine's init section (R286): (offset, data), none where the list does not parse. -/
def initRuns : Nat → List Byte → Option (List (Nat × List Byte))
  | 0, bs => if bs.isEmpty then some [] else none
  | k + 1, bs =>
    if bs.isEmpty then some []
    else if bs.length < 8 then none
    else
      let len := numAt bs 4 4
      let pad := (len + 3) / 4 * 4
      if bs.length < 8 + pad ∨ ((bs.drop (8 + len)).take (pad - len)).any (fun b => decide (b ≠ 0)) then none
      else match initRuns k (bs.drop (8 + pad)) with
        | none => none
        | some r => some ((numAt bs 0 4, (bs.drop 8).take len) :: r)

/-- The engine's data window (R279). -/
def sliceSize : Nat := 0x40000

/-- Rejection causes of a load (R288). -/
inductive LoadCause where
  | format
  | size
  | digest
  | signature
  | unsigned
  | subset
  | cycles
  | overrun
  | busy
  | ecc
  | plan
  deriving DecidableEq, Repr

def LoadCause.num : LoadCause → BitVec 4
  | .format => 1
  | .size => 2
  | .digest => 3
  | .signature => 4
  | .unsigned => 5
  | .subset => 6
  | .cycles => 7
  | .overrun => 8
  | .busy => 9
  | .ecc => 10
  | .plan => 11

/-! ## Validity of a plan (R207, R220, R224) -/

/-- Exact closed form of a contour profile's pass (R220) in units of 2^32 [2^-72]: c at the end, the sum over all steps,
the largest |c|. -/
def contourPass (prof : List (Int × Nat)) : Int × Int × Nat :=
  prof.foldl (fun (a : Int × Int × Nat) g =>
    let len : Int := ((g.2 : Nat) : Int)
    let c := a.1 + g.1 * len
    (c, a.2.1 + a.1 * len + g.1 * (len * (len + 1) / 2), Nat.max a.2.2 (Nat.max (a.1 + (if g.2 = 0 then 0 else g.1)).natAbs c.natAbs)))
    (0, 0, 0)

/-- A profile is valid (R220). -/
def contourOk (prof : List (Int × Nat)) : Bool :=
  let p := contourPass prof
  decide (p.1 = 0 ∧ p.2.1 = 0 ∧ p.2.2 ≤ 2 ^ 30)

/-- Profile of synthesizer y in the words of a plan sheet (R429). -/
def planProf (ws : List Word) (y : Nat) : List (Int × Nat) :=
  ((List.range 16).map (fun i => ((planWord ws (35 * y + 3 + 2 * i)).toInt, bitsOf (planWord ws (35 * y + 4 + 2 * i)) 15 0))).takeWhile
    (fun g => decide (g.2 ≠ 0))

/-- Twice f_vco times 2^48 of synthesizer y in a plan sheet, from OSC_IN in Hz (R207). -/
def planVco (osc : Nat) (ws : List Word) (y : Nat) : Nat :=
  let mode := bitsOf (planWord ws (35 * y)) 29 28
  osc * pathTwice (if mode = 3 then 0 else mode) * ofWords [planWord ws (35 * y + 1), planWord ws (35 * y + 2)]

/-- Highest output frequency of a standard in Hz (R224). -/
def stdMax : Nat → Nat
  | 0 => 1500000000
  | 1 => 400000000
  | 2 => 2500000000
  | 3 => 2500000000
  | _ => 250000000

/-- A declared VDDO code is listed for a standard (R224, R396). -/
def stdSupply (std code : Nat) : Bool :=
  match code with
  | 0 => decide (std ≠ 3)
  | 1 => true
  | 2 => true
  | _ => false

/-- The plan of synthesizer y is valid (R207). -/
def planSynOk (osc : Nat) (ws : List Word) (y : Nat) : Bool :=
  let w := planWord ws (35 * y)
  if bitOf w 31 = false then true
  else
    let mode := bitsOf w 29 28
    let v := planVco osc ws y
    let casc := bitsOf w 23 0
    let one : Nat := 2 * 2 ^ 48
    (if mode = 3 then [0, 1, 2].all (pathOk osc) else pathOk osc mode)
      && decide (9628900000 * one ≤ v ∧ v ≤ 12761700000 * one)
      && (decide (casc = 0) || decide (v ≤ 25000000 * casc * one))
      && contourOk (planProf ws y)

/-- The plan of output i of bank b is valid under the bank's declared supply (R207, R224). -/
def planOutOk (osc : Nat) (ws : List Word) (supply b i : Nat) : Bool :=
  let o := planWord ws (281 + 9 * b + 2 * i)
  let std := bitsOf o 31 29
  let div := bitsOf o 23 0
  let src := bitsOf (planWord ws (280 + 9 * b)) 31 28
  decide (std ≤ 4)
    && (decide (div < 4)
      || (decide (src < 8) && bitOf (planWord ws (35 * src)) 31 && stdSupply std supply
          && decide (planVco osc ws src ≤ stdMax std * div * (2 * 2 ^ 48))))

/-- The banks that name alignment line a by ALIGN_HO, and the bank it is attached to (R207). -/
def planLineOk (ws : List Word) (a : Nat) : Bool :=
  let ho := (List.range 12).filter (fun b => decide (bitsOf (planWord ws (280 + 9 * b)) 26 24 = a))
  let al := bitsOf (planWord ws (388 + 2 * a)) 31 28
  match ho with
  | [] => true
  | [b] => decide (al ≥ 12 ∨ al = b)
  | _ => false

/-- A plan sheet is valid (R207). -/
def State.planOk (s : State) (ws : List Word) : Bool :=
  let osc := s.oscHz
  (List.range 8).all (planSynOk osc ws)
    && (List.range 12).all (fun b => (List.range 4).all (planOutOk osc ws (s.boot.sheet.bankRails.toNat / 4 ^ b % 4) b))
    && (List.range 4).all (planLineOk ws)

/-! ## Verification (R287) -/

/-- The signature trailer verifies under the key slot it names (R285, R287). -/
def State.signatureOk (s : State) (digest : BitVec 256) (sig : List Byte) : Bool :=
  match s.keySlot (numAt sig 0 1) with
  | none => false
  | some (x, y) => ecdsaVerify x y digest.toNat (numAt sig 1 32) (numAt sig 33 32)

/-- The sheet of an image that passes, or the cause; `body` is everything after the header. -/
def State.checkImage (s : State) (pp : ProgPort) (h : ImgHead) (hb body : List Byte) : Except LoadCause Sheet :=
  let main := body.take (4 * h.codeW + 8 * h.constW + h.initB)
  let sig := body.drop (4 * h.codeW + 8 * h.constW + h.initB)
  let code := (chunks 4 h.codeW main).map (BitVec.ofNat 32)
  let consts := (chunks 8 h.constW (main.drop (4 * h.codeW))).map (BitVec.ofNat 64)
  let init := main.drop (4 * h.codeW + 8 * h.constW)
  let sheet : Sheet :=
    { code := code, consts := consts, init := init, wcet := h.wcet, entry := h.entry, carryG := h.carryG
      carryAcc := h.carryAcc, keepData := h.keepData, keeper := (s.prog pp).byKeeper && !h.drop, signed := h.signed
      digest := h.digest, badCode := [], badConst := [] }
  if h.signed ∧ numAt sig 65 3 ≠ 0 then .error .format
  else if h.target = 1 ∧ (initRuns init.length init).isNone then .error .format
  else if h.target = 1 ∧ ((initRuns init.length init).getD []).any (fun r => decide (r.1 + r.2.length > sliceSize)) then .error .size
  else if sha256 (hb.take 64 ++ main) ≠ h.digest then .error .digest
  else if h.signed && !s.signatureOk h.digest sig then .error .signature
  else if h.signed = false ∧ s.boot.sheet.signReq then .error .unsigned
  else match pp with
    | .eng _ => .ok sheet
    | .plan => if s.planOk ((chunks 4 396 init).map (BitVec.ofNat 32)) then .ok sheet else .error .plan
    | .loop n =>
      match subset n code h.constW with
      | none => .error .subset
      | some prog =>
        if wcetOf prog ≠ h.wcet then .error .cycles
        else if h.wcet > budget (s.rf .loop (s.govern n).val 0x1C 19 0) then .error .overrun
        else .ok sheet

/-- The image at PROG_SRC, read once and tested (R285 to R288). -/
def State.verifyImage (s : State) (pp : ProgPort) : Except LoadCause Sheet × State :=
  let src := (s.reg (progPlace pp).key).toNat
  if src + 96 > sramSize then (.error .format, s)
  else
    let ((hb, bad), s) := s.memRead src 96
    if bad then (.error .ecc, s)
    else match readHead (progTarget pp) hb with
      | none => (.error .format, s)
      | some h =>
        if h.tooLarge src then (.error .size, s)
        else
          let ((body, bad), s) := s.memRead (src + 96) (h.size - 96)
          if bad then (.error .ecc, s) else (s.checkImage pp h hb body, s)

/-! ## Swaps (R289) -/

/-- Clear n bytes of SRAM at logical address a, within one bank. -/
def Memory.clear (m : Memory) (a n : Nat) : Memory :=
  let p := m.phys a
  { m with
    cells := m.cells.filter (fun e => !decide (p ≤ e.1 ∧ e.1 < p + n))
    flaws := m.flaws.filter (fun e => !decide (p ≤ 8 * e.1 ∧ 8 * e.1 < p + n)) }

/-- Step 3 of R289: the data slice, cleared unless KEEP_DATA, then the init runs. -/
def State.initData (s : State) (e : Fin 8) (x : Sheet) : State :=
  let base := engineBase + e.val * sliceSize
  let s := if x.keepData then s else { s with mem := s.mem.clear base sliceSize }
  ((initRuns x.init.length x.init).getD []).foldl (fun s r => s.memStore (base + r.1) (r.2.map some)) s

/-- Steps 1 and 2 of R289: registers kept by CARRY, the others from `init`; CW, F and the return stack at reset. -/
def carryCpu (x : Sheet) (init old : Cpu) (entry : Nat) : Cpu :=
  { g := Vector.ofFn (fun i : Fin 32 => if x.carryG.getLsbD i.val then old.g[i] else init.g[i])
    acc := Vector.ofFn (fun i : Fin 4 => if x.carryAcc.getLsbD i.val then old.acc[i] else init.acc[i])
    f := 0, cw := cwReset, pc := entry, stack := [] }

/-- Release every semaphore engine e holds (R284). -/
def State.releaseSems (s : State) (e : Fin 8) : State :=
  { s with sems := s.sems.map (fun h => if h = some e then none else h) }

/-- The port's banks change over: the benchmark's word of its active sheet and its shadow with them (R386). -/
def Prog.toggled (p : Prog) : Prog :=
  let d := bankDigest (if p.bank then p.bank0 else p.bank1)
  { p with bank := !p.bank, active := true, phase := .idle, swapReq := false, digest := d, digestShadow := d }

/-- Step 4 of R289: the CONFIG record and the archive log. -/
def State.swapRecords (s : State) (pp : ProgPort) (old new : BitVec 256) : State :=
  match pp with
  | .eng n => (s.bookConfig 0 5 n.val (new.toNat % 2 ^ 40) (old.toNat % 2 ^ 40)).log (.swap pp)
  | .loop n => (s.bookConfig 0 4 n.val (new.toNat % 2 ^ 40) (old.toNat % 2 ^ 40)).log (.swap pp)
  | .plan => s.log .plan

/-- The program that a swap would put in fits the loop's present cycle budget (R95). -/
def State.swapFits (s : State) (pp : ProgPort) : Bool :=
  match pp, (s.prog pp).spare with
  | .loop n, some x => decide (x.wcet ≤ budget (s.rf .loop (s.govern n).val 0x1C 19 0))
  | _, _ => true

/-- An engine stays in FAULT: its island is retired (R379), or under a self-test (R378), which the engine's own fault (cause 6)
starts with the island's other engines running (log 70). -/
def State.engHeld (s : State) (e : Fin 8) : Bool :=
  s.blkRetired (0x52 + e.val / 4) || (!s.blkUp (0x52 + e.val / 4)
    && ((s.engines[e]).run == .fault || decide ((s.fm.blks[(finMod 128 (0x52 + e.val / 4) : Fin 128)]).cause ≠ 6)))

/-- The swap of an armed port (R289). One whose program exceeds the present budget is rejected with OVERRUN (R95): the
image stays armed and the request is gone (log entry 115). -/
def State.swapNow (s : State) (pp : ProgPort) (forced : Bool) : State :=
  match (s.prog pp).spare with
  | none => s
  | some x =>
    if s.swapFits pp = false then s.modProg pp (fun p => { p with cause := LoadCause.overrun.num, swapReq := false })
    else
    let old := match (s.prog pp).cur with
      | some y => y.digest
      | none => 0
    let s := s.modProg pp Prog.toggled
    let s := match pp with
      | .eng n =>
        let s := s.initData n x
        s.modEng n (fun e => { e with
          run := if s.engHeld n then .fault else .running
          cpu := carryCpu x Cpu.reset e.cpu x.entry, forced := forced, wait := none, wdogFrom := s.tick })
      | .loop n => s.modLoop n (fun l => { l with cpu := carryCpu x (initCpu (some x) Cpu.reset) l.cpu 0, heldFault := false })
      | .plan => { s with planDue := some ((chunks 4 396 x.init).map (BitVec.ofNat 32)) }
    s.swapRecords pp old x.digest

/-- A port that is ARMED with a swap request. -/
def Prog.due (p : Prog) : Bool :=
  p.phase == .armed && p.swapReq

/-- The swap need not wait for a boundary (R289). A HALTED or faulted engine is not idle: it issues no wait, and its swap
is forced after SWAP_TMO. -/
def State.swapsAtOnce (s : State) : ProgPort → Bool
  | .eng n =>
    let e := s.engines[n]
    !e.prog.active || e.run == .idle
  | .loop n => !(s.loops[n]).prog.active
  | .plan => true

/-- Swap an armed port where nothing has to be awaited; else the boundary is awaited, an engine's from now (R289). -/
def State.trySwap (s : State) (pp : ProgPort) : State :=
  if (s.prog pp).due = false then s
  else if s.swapsAtOnce pp then s.swapNow pp false
  else match pp with
    | .eng n => s.modEng n (fun e => { e with armedAt := s.tick })
    | _ => s

/-- A rejected load (R288): the inactive bank is left empty, but by BUSY. A plan's rejection is counted by the
synthesizers as well (R205). -/
def State.rejectLoad (s : State) (pp : ProgPort) (c : LoadCause) : State :=
  let s := s.modProg pp (fun p =>
    let p := { p with cause := c.num, rejects := Nat.min 255 (p.rejects + 1) }
    if c = .busy then p else { (p.setSpare none) with phase := .idle, swapReq := false })
  if c = .plan then overFin 9 s (fun y s => s.count .synth y.val 0x0C 15 0) else s

/-- A verification ends (R287, R288). -/
def State.verificationDone (s : State) (pp : ProgPort) : State :=
  if (s.prog pp).phase ≠ .verifying then s
  else match s.verifyImage pp with
    | (.error c, s) => s.verifyFailed.rejectLoad pp c
    | (.ok x, s) => (s.modProg pp (fun p => { (p.setSpare (some x)) with phase := .armed, cause := 0 })).trySwap pp

/-! ## PROG_CMD (R288) -/

/-- CANCEL. -/
def State.progCancel (s : State) (pp : ProgPort) : State :=
  s.modProg pp (fun p => match p.phase with
    | .idle => p
    | .verifying => { (p.setSpare none) with phase := .idle, swapReq := false }
    | .armed => { p with phase := .idle, swapReq := false })

/-- A load from path p gives keeper rights (R290). -/
def State.loadKeeper (s : State) (p : Path) : Bool :=
  match p with
  | .f1 => true
  | .sb => s.boot.straps.sbKeeper
  | .stw => !s.boot.sheetDone
  | _ => false

/-- LOAD; whether the SWAP bit of the same write still counts. -/
def State.progLoad (s : State) (p : Path) (pp : ProgPort) : State × Bool :=
  if (s.prog pp).phase = .idle then
    (s.modProg pp (fun q => { (q.setSpare none) with phase := .verifying, swapReq := false, byKeeper := s.loadKeeper p }), true)
  else (s.rejectLoad pp .busy, false)

/-- SWAP. -/
def State.progSwap (s : State) (pp : ProgPort) : State :=
  if (s.prog pp).phase = .idle then s else (s.modProg pp (fun q => { q with swapReq := true })).trySwap pp

/-- RESTART of an engine's active sheet (R284, R288, R293); an engine of an island under test, or retired, stays in FAULT (R378,
R379). -/
def State.progRestart (s : State) (e : Fin 8) : State :=
  match (s.engines[e]).prog.cur with
  | none => s
  | some x =>
    if s.engHeld e then s
    else
    let s := (s.initData e x).releaseSems e
    s.modEng e (fun g => { g with
      run := .running, cause := 0, wait := none, wdogFrom := s.tick
      cpu := { Cpu.reset with pc := x.entry } })

/-- A write of PROG_CMD (R288): CANCEL, LOAD, SWAP, RESTART in this order. -/
def State.progCmd (s : State) (p : Path) (pp : ProgPort) (v : Word) : State :=
  let s := if bitOf v 29 then s.progCancel pp else s
  let (s, sw) := if bitOf v 31 then s.progLoad p pp else (s, true)
  let s := if bitOf v 30 && sw then s.progSwap pp else s
  match pp with
  | .eng e => if bitOf v 28 then s.progRestart e else s
  | _ => s

end Sys2Proof.Machine
end

