-- ==== Sys2Proof/Machine/HostOps.lean ====
section
/-! DEFINITION. Mailboxes, doorbells and the side-band alert (R28, R334 to R339). -/

namespace Sys2Proof.Machine

/-! ## Mailboxes (R335 to R337) -/

/-- SENDER and RECEIVER of a mailbox. -/
def State.mbSender (s : State) (m : Fin 16) : Nat := s.rf .mailbox m.val 0 31 28
def State.mbReceiver (s : State) (m : Fin 16) : Nat := s.rf .mailbox m.val 0 27 24

/-- The receiver's power domain is down (R336): HOST, STW or the engine's island. -/
def State.mbOff (s : State) (r : Nat) : Bool :=
  match r with
  | 0 => !s.domUp 11
  | 1 => !s.domUp 11
  | 3 => !s.domUp 10
  | _ => decide (r ≥ 8) && !s.domUp (8 + (r - 8) / 4)

/-- The receiver is not running (R28, R336). -/
def State.mbAsleep (s : State) (r : Nat) : Bool :=
  match r with
  | 3 => !s.boot.stewardUp
  | _ =>
    if r < 8 then false
    else
      let e := s.engines[finMod 8 r]
      e.run == .idle || e.run == .halted || e.run == .fault

/-- MAILBOX.STATUS (R335). -/
def State.mbStatus (s : State) (m : Fin 16) : Word :=
  let r := s.mbReceiver m
  fld (s.mboxes[m]).slots.length 29 ||| mkBit 28 (s.mbAsleep r) ||| mkBit 27 (s.mbOff r) ||| fld (s.mboxes[m]).seq.toNat 0

/-- Outcome of a post (R311, R336). -/
inductive MbStatus where
  | done
  | full
  | asleep
  | off
  | empty
  | denied
  deriving DecidableEq, Repr

/-- The status codes of R311. -/
def MbStatus.num : MbStatus → Nat
  | .done => 0
  | .full => 1
  | .asleep => 2
  | .off => 3
  | .empty => 4
  | .denied => 5

/-- Low bit of the REJECTS count of a status (R335). -/
def MbStatus.rejLo : MbStatus → Nat
  | .full => 24
  | .asleep => 16
  | .off => 8
  | _ => 0

/-- Count a rejection in MAILBOX.REJECTS. -/
def State.mbReject (s : State) (m : Fin 16) (r : MbStatus) : State :=
  s.count .mailbox m.val 0x10 (r.rejLo + 7) r.rejLo

/-- The conditions of a post, in order (R336). -/
def State.postStatus (s : State) (p : Path) (m : Fin 16) : MbStatus :=
  let r := s.mbReceiver m
  if s.mbSender m ≠ pathCode p then .denied
  else if s.mbOff r then .off
  else if s.mbAsleep r then .asleep
  else if (s.mboxes[m]).slots.length ≥ 4 then .full
  else .done

/-- Logical address of the message in slot i of a mailbox, behind the notice ring (R335, R353, log 160). -/
def mailAddr (m : Fin 16) (i : Nat) : Nat :=
  noticeBase + 0x8000 + 64 * (Config.mailSlot m.val (i % 4) % 15872)

/-- The slot of a mailbox's oldest message. -/
def Mbox.oldest (q : Mbox) : Nat :=
  (q.seq.toNat + 4 - q.slots.length) % 4

/-- A message is written to slot i: its words carry fresh check bits (R356). -/
def State.mailPut (s : State) (m : Fin 16) (i : Nat) : State :=
  let w := s.mem.phys (mailAddr m i) / 8
  { s with mem := (List.range 8).foldl (fun mm j => mm.setFlaw (w + j) 0) s.mem }

/-- n words of the oldest message as they are read, from its word i on (R337, R365): the posted bytes, or free ones for a word that
is uncorrectable or miscorrected; with whether one is uncorrectable. -/
def State.mailWords : Nat → State → Fin 16 → Nat → (List Byte × Bool) × State
  | 0, s, _, _ => (([], false), s)
  | n + 1, s, m, i =>
    let q := s.mboxes[m]
    let msg := ((q.slots.headD []).drop (8 * i)).take 8
    let ((b, u), s) := match s.checkWord (mailAddr m q.oldest + 8 * i) with
      | (.ok, s) => ((msg, false), s)
      | (.corrected, s) => ((msg, false), s)
      | (.bad, s) => let (v, s) := s.free; ((beBytes 8 v.toNat, true), s)
      | (.wrong, s) => let (v, s) := s.free; ((beBytes 8 v.toNat, false), s)
    let ((bs, us), s) := State.mailWords n s m (i + 1)
    ((b ++ bs, u || us), s)

/-- RX word i as it is read by the mailbox's receiver (R337, R365): its data as read. -/
def State.mailRx (s : State) (m : Fin 16) (i : Nat) : Word × State :=
  if (s.mboxes[m]).slots = [] then (0, s)
  else
    let ((bs, _), s) := s.mailWords 1 m (i / 2)
    (BitVec.ofNat 32 (beNat ((bs.drop (4 * (i % 2))).take 4)), s)

/-- A message is posted, or rejected and counted (R336); an accepted one signals its receiver (R320, R334). -/
def State.mbPost (s : State) (p : Path) (m : Fin 16) (msg : List Byte) : MbStatus × State :=
  match s.postStatus p m with
  | .done =>
    let s := (s.mailPut m (s.mboxes[m]).seq.toNat).modMbox m (fun q => { q with slots := q.slots ++ [msg], seq := q.seq + 1 })
    let v := finMod 32 (s.rf .mailbox m.val 0 20 16)
    (.done, match s.mbReceiver m with
      | 0 => s.msi 0 v
      | 1 => s.msi 1 v
      | 2 => s.alertEvent
      | _ => s)
  | r => (r, s.mbReject m r)

/-- The bytes of STAGE. -/
def Mbox.stageBytes (q : Mbox) : List Byte :=
  q.stage.toList.flatMap (fun w => beBytes 4 w.toNat)

/-- LAST_ERR codes (R333). -/
def errFull : BitVec 4 := 1
def errAsleep : BitVec 4 := 2
def errOff : BitVec 4 := 3
def errDenied : BitVec 4 := 4
def errPec : BitVec 4 := 5
def errCoreDown : BitVec 4 := 6
def errBadCmd : BitVec 4 := 7
def errLength : BitVec 4 := 8

/-- LAST_ERR of a refused post. -/
def MbStatus.sbErr : MbStatus → BitVec 4
  | .full => errFull
  | .asleep => errAsleep
  | .off => errOff
  | _ => errDenied

/-- A refusal of the side-band target (R333, R435). -/
def State.sbRefuse (s : State) (e : BitVec 4) : State :=
  (({ s with sideband := { s.sideband with lastErr := e } }).count .sideband 0 8 15 0).answer .sb .nack

/-- The answer of a refused post on its path (R336). -/
def State.postAnswer (s : State) (p : Path) (r : MbStatus) : State :=
  if p = .sb then s.sbRefuse r.sbErr
  else s.answer p (if r = .off then .ur else .ca)

/-- The read of POST (R336): the word it returns, none for a refusal. -/
def State.postRead (s : State) (p : Path) (m : Fin 16) : Option Word × State :=
  match s.mbPost p m (s.mboxes[m]).stageBytes with
  | (.done, s) => (some (mkBit 31 true ||| fld (s.mboxes[m]).seq.toNat 0), s)
  | (r, s) => (none, s.postAnswer p r)

/-- A write of ACK (R337). -/
def State.mbAck (s : State) (p : Path) (m : Fin 16) : State :=
  if s.mbReceiver m = pathCode p ∧ (s.mboxes[m]).slots ≠ [] then s.modMbox m (fun q => { q with slots := q.slots.drop 1 })
  else s.mbReject m .denied

/-- A keeper's write of CFG (R335). -/
def State.mbCfg (s : State) (m : Fin 16) (v : Word) : State :=
  if (s.mboxes[m]).slots = [] then s.wr .mailbox m.val 0 (v &&& 0xFF1F0000) else s.mbReject m .denied

/-- RX word i as path p reads it (R337). -/
def State.mbRx (s : State) (p : Path) (m : Fin 16) (i : Nat) : Word :=
  if s.mbReceiver m = pathCode p then
    BitVec.ofNat 32 (beNat ((((s.mboxes[m]).slots.headD []).drop (4 * i)).take 4))
  else 0

/-- STAGE word i as path p reads it (R336). -/
def State.mbStage (s : State) (p : Path) (m : Fin 16) (i : Nat) : Word :=
  if s.mbSender m = pathCode p then (s.mboxes[m]).stage.toList.getD i 0 else 0

/-- A write of STAGE word i (R336). -/
def State.mbStageWrite (s : State) (p : Path) (m : Fin 16) (i : Nat) (v : Word) : State :=
  if s.mbSender m = pathCode p then s.modMbox m (fun q => { q with stage := q.stage.setIfInBounds i v }) else s

/-- MBTAKE's transaction (R311, R337): none where a word of the message is uncorrectable (R365). -/
def State.mbTake (s : State) (e : Fin 8) (m : Fin 16) : Option (MbStatus × List Byte) × State :=
  if s.mbReceiver m ≠ 8 + e.val then (some (.denied, []), s.mbReject m .denied)
  else match (s.mboxes[m]).slots with
    | [] => (some (.empty, []), s)
    | _ :: rest =>
      match s.mailWords 8 m 0 with
      | ((_, true), s) => (none, s)
      | ((b, false), s) => (some (.done, b), s.modMbox m (fun q => { q with slots := rest }))

/-! ## Doorbells (R338, R339) -/

/-- DB_IN_MAP and DB_OUT_MAP of a doorbell. -/
def State.dbInMap (s : State) (i : Nat) : Word := s.r .access 0 (0x100 + 4 * i)
def State.dbOutMap (s : State) (i : Nat) : Word := s.r .access 0 (0x200 + 4 * i)

/-- One count in DB_REJECTS. -/
def State.dbReject (s : State) : State :=
  s.count .access 0 0x2C 15 0

/-- A path code that names the steward or an engine. -/
def inner (c : Nat) : Bool :=
  decide (c = 3 ∨ 8 ≤ c)

/-- Ring inbound doorbell i (R338). -/
def State.ringIn (s : State) (p : Path) (i : Nat) : State :=
  if bitsOf (s.dbInMap i) 7 4 = pathCode p then { s with dbIn := s.dbIn ||| mkBit i true } else s.dbReject

/-- Clear inbound doorbell i (R338). -/
def State.clearIn (s : State) (p : Path) (i : Nat) : State :=
  if bitsOf (s.dbInMap i) 3 0 = pathCode p ∧ inner (pathCode p) then { s with dbIn := s.dbIn &&& ~~~(mkBit i true) } else s

/-- Ring outbound doorbell i (R339): whether the path may. -/
def State.ringOut (s : State) (p : Path) (i : Nat) : Bool × State :=
  let m := s.dbOutMap i
  if bitsOf m 15 12 ≠ pathCode p ∨ inner (pathCode p) = false then (false, s)
  else if bitOf s.dbOut i then (true, s)
  else
    let s := { s with dbOut := s.dbOut ||| mkBit i true }
    (true, match bitsOf m 9 8 with
      | 0 => s.msi 0 (finMod 32 (bitsOf m 4 0))
      | 1 => s.msi 1 (finMod 32 (bitsOf m 4 0))
      | 2 => s.alertEvent
      | _ => s)

/-- Clear outbound doorbell i (R339). -/
def State.clearOut (s : State) (p : Path) (i : Nat) : State :=
  if bitsOf (s.dbOutMap i) 9 8 = pathCode p ∧ pathCode p < 3 then { s with dbOut := s.dbOut &&& ~~~(mkBit i true) } else s.dbReject

/-- Each doorbell whose bit is 1. -/
def overBits (s : State) (v : Word) (f : State → Nat → State) : State :=
  (List.range 32).foldl (fun s i => if bitOf v i then f s i else s) s

def State.dbInSet (s : State) (p : Path) (v : Word) : State := overBits s v (fun s i => s.ringIn p i)
def State.dbInClr (s : State) (p : Path) (v : Word) : State := overBits s v (fun s i => s.clearIn p i)
def State.dbOutSet (s : State) (p : Path) (v : Word) : State :=
  overBits s v (fun s i => match s.ringOut p i with
    | (true, t) => t
    | (false, t) => t.dbReject)
def State.dbOutClr (s : State) (p : Path) (v : Word) : State := overBits s v (fun s i => s.clearOut p i)

/-- An inbound doorbell addressed to engine e is pending (R307, R338). -/
def State.doorFor (s : State) (e : Fin 8) : Bool :=
  (List.range 32).any (fun i => bitOf s.dbIn i && decide (bitsOf (s.dbInMap i) 3 0 = 8 + e.val))

/-! ## MSI-X (R318, R320) -/

/-- Vector v of function f sends its pending message once nothing holds it back (R320). -/
def State.msiRelease (s : State) (f : Fin 2) (v : Fin 32) : State :=
  let fn := s.funcs[f]
  if fn.msixEn && fn.pba.getLsbD v.val && !fn.silent v && s.hostUp then
    ({ s with funcs := s.funcs.set f { fn with pba := fn.pba &&& ~~~(mkBit v.val true) } }).emit (.msi f v fn.addr[v] fn.data[v])
  else s

/-- Every vector of a function. -/
def State.msiReleaseAll (s : State) (f : Fin 2) : State :=
  overFin 32 s (fun v s => s.msiRelease f v)

/-- A mask bit of the MSI-X table is written. -/
def State.msiMask (s : State) (f : Fin 2) (v : Fin 32) (masked : Bool) : State :=
  let fn := s.funcs[f]
  let mask := if masked then fn.mask ||| mkBit v.val true else fn.mask &&& ~~~(mkBit v.val true)
  ({ s with funcs := s.funcs.set f { fn with mask := mask } }).msiRelease f v

/-- BAR0 offset a lies in a function's MSI-X table or names its pending bit array (R318). -/
def msixAt (a : Nat) : Bool :=
  decide (0x100000 ≤ a ∧ a < 0x100200) || decide (0x101000 ≤ a ∧ a < 0x101004)

/-- The word of the table or of the pending bit array at BAR0 offset a: address, data, vector control (R318). -/
def Func.msixWord (fn : Func) (a : Nat) : Word :=
  if 0x101000 ≤ a then fn.pba
  else
    let v : Fin 32 := finMod 32 ((a - 0x100000) / 16)
    match a / 4 % 4 with
    | 0 => (fn.addr[v]).setWidth 32
    | 1 => ((fn.addr[v]) >>> 32).setWidth 32
    | 2 => fn.data[v]
    | _ => mkBit 0 (fn.mask.getLsbD v.val)

/-- A write of one word of the table; the pending bit array is read-only (R318). -/
def State.msixPut (s : State) (f : Fin 2) (a : Nat) (w : Word) : State :=
  if 0x101000 ≤ a then s
  else
    let fn := s.funcs[f]
    let v : Fin 32 := finMod 32 ((a - 0x100000) / 16)
    match a / 4 % 4 with
    | 0 => { s with funcs := s.funcs.set f { fn with addr := fn.addr.set v (((fn.addr[v] >>> 32).setWidth 32 : Word) ++ (w &&& 0xFFFFFFFC)) } }
    | 1 => { s with funcs := s.funcs.set f { fn with addr := fn.addr.set v (w ++ ((fn.addr[v]).setWidth 32 : Word)) } }
    | 2 => { s with funcs := s.funcs.set f { fn with data := fn.data.set v w } }
    | _ => s.msiMask f v (bitOf w 0)

/-- A word of a function's configuration space: identities, class code, subsystem (R317, R409) and the two BARs, each
64-bit: BAR0 non-prefetchable of 4 MiB, BAR2 prefetchable of 128 MiB. Words that no rule states read free. -/
def Func.configWord (fn : Func) (f : Fin 2) (a : Nat) : Word :=
  match a with
  | 0x00 => if f.val = 0 then 0x41921F5A else 0x41931F5A
  | 0x08 => 0x11800002
  | 0x10 => (fn.bar0.setWidth 32 &&& 0xFFC00000) ||| 0x4
  | 0x14 => (fn.bar0 >>> 32).setWidth 32
  | 0x18 => (fn.bar2.setWidth 32 &&& 0xF8000000) ||| 0xC
  | 0x1C => (fn.bar2 >>> 32).setWidth 32
  | 0x2C => (if Config.gradeV then 0x00021F5A else 0x00011F5A)
  | _ => Config.configWord f a

/-! ## The alert (R334) -/

/-- A cause of the alert is present. -/
def State.alertCause (s : State) : Bool :=
  (decide (s.rf .notice 0 0 31 30 = 2) && decide (s.noteFill > 0))
    || (List.finRange 16).any (fun m => decide (s.mbReceiver m = 2) && !(s.mboxes[m]).slots.isEmpty)
    || (List.range 32).any (fun i => bitOf s.dbOut i && decide (bitsOf (s.dbOutMap i) 9 8 = 2))

/-- SB_ALERT_N is asserted. -/
def State.alertOn (s : State) : Bool :=
  s.alertCause && !s.sideband.answered

end Sys2Proof.Machine
end

