-- ==== Sys2Proof/Machine/EngineOps.lean ====
section
/-! DEFINITION. Engines: issue, faults, time, waits, stamps, emission, statistics pushes, notices, mailboxes and
semaphores (R276, R279 to R284, R291 to R293, R304 to R313). -/

namespace Sys2Proof.Machine

/-! ## Issue and faults (R291, R292, R313) -/

/-- Code words of an engine's active sheet. -/
def Engine.codeW (e : Engine) : Nat :=
  match e.prog.cur with
  | some x => x.code.length
  | none => 0

/-- Constants of an engine's active sheet. -/
def Engine.consts (e : Engine) : List DWord :=
  match e.prog.cur with
  | some x => x.consts
  | none => []

/-- The active sheet runs with keeper rights (R290). -/
def Engine.keeper (e : Engine) : Bool :=
  match e.prog.cur with
  | some x => x.keeper
  | none => false

/-- Notice source of an engine (R201). -/
def engSrc (e : Fin 8) : Nat := 0x0600 + e.val

/-- An engine faults at its present instruction (R292): it stops, releases its semaphores, raises ENG_FAULT, and the fault
manager hears of it, whose cover action leaves the other engines of the island running (log entry 70). -/
def State.engFault (s : State) (e : Fin 8) (cause : Byte) : State :=
  let pc := (s.engines[e]).cpu.pc
  let s := (s.modEng e (fun g => { g with run := .fault, cause := cause, pcReg := pc, wait := none })).releaseSems e
  (s.raise (engSrc e) clsB 0xFF (args8 ([cause, 0] ++ beBytes 2 pc))).report (0x52 + e.val / 4) 6

/-- The fault that the fetch of the word at `pc` meets: FETCH past the code, ECC, ILLEGAL where the target cannot run the
word (R296, R313). -/
def fetchFault (sheet : Option Sheet) (pc : Nat) (runs : Word → Bool) : Option Byte :=
  match sheet with
  | none => some causeFetch
  | some x => match x.code[pc]? with
    | none => some causeFetch
    | some w => if x.badCode.contains pc then some causeEcc else if runs w then none else some causeIllegal

/-- What an engine's fetch meets now. -/
def Engine.fetch (g : Engine) (e : Fin 8) : Option Byte :=
  fetchFault g.prog.cur g.cpu.pc (fun w => (decodeEngine e w).isSome)

/-- WDOG µs have passed in RUNNING without a wait issue (R291, R307). -/
def State.wdogDue (s : State) (e : Fin 8) : Bool :=
  let w := (s.r .engine e.val 0x14).toNat
  let g := s.engines[e]
  g.run == .running && decide (w ≠ 0) && decide (usOfTicks (s.tick.toNat - g.wdogFrom.toNat) ≥ w)

/-- An instruction boundary of a running engine (R313): WATCHDOG, then the fetch, then the instruction. -/
def State.engIssue (s : State) (e : Fin 8) (f : State → State) : State :=
  let g := s.engines[e]
  if g.run ≠ .running then s
  else if s.wdogDue e then s.engFault e causeWatchdog
  else match g.fetch e with
    | some c => s.engFault e c
    | none => f s

/-- The engine executes at its program counter: registers after, STATE.PC (R293). -/
def State.engPut (s : State) (e : Fin 8) (c : Cpu) : State :=
  s.modEng e (fun g => { g with cpu := c, pcReg := g.cpu.pc })

/-- The result of an instruction on the registers. -/
def State.engRes (s : State) (e : Fin 8) (r : NRes) : State :=
  match r with
  | .error c => s.engFault e c
  | .ok c => s.engPut e c

/-- An instruction that touches only the engine's registers. -/
def State.engOp (s : State) (e : Fin 8) (op : Cpu → NRes) : State :=
  s.engIssue e (fun (s : State) => s.engRes e (op (s.engines[e]).cpu))

/-- Code words of a target. -/
def State.tgtCode (s : State) : Tgt → Nat
  | .eng e => (s.engines[e]).codeW
  | .loop n => match (s.loops[n]).prog.cur with
    | some x => x.code.length
    | none => 0

/-- A loop datapath executes its next instruction: one with EN 0, without an active sheet, or held by a program fault,
executes nothing (R97, R109, R289); a program counter past the code faults with FETCH, a word in uncorrectable error with ECC (R304,
R313). -/
def State.loopIssue (s : State) (n : Fin 16) (f : State → State) : State :=
  let l := s.loops[n]
  if s.loopEn n = false ∨ l.heldFault ∨ l.prog.cur.isNone then s
  else match fetchFault l.prog.cur l.cpu.pc (fun _ => true) with
    | some c => s.progFault n c l.cpu.pc
    | none => f s

/-- An instruction of the common set on a target's registers; a loop's fault is that of R97. -/
def State.tgtOp (s : State) (t : Tgt) (op : Cpu → NRes) : State :=
  match t with
  | .eng e => s.engOp e op
  | .loop n => s.loopIssue n (fun (s : State) =>
    match op (s.loops[n]).cpu with
    | .error c => s.progFault n c (s.loops[n]).cpu.pc
    | .ok c => s.modLoop n (fun l => { l with cpu := c }))

/-- The same for an instruction whose acc_write may saturate into accumulator d; in a loop that raises ACC_SAT (R96,
R302). -/
def State.tgtAcc (s : State) (t : Tgt) (d : Fin 4) (op : Cpu → NRes) : State :=
  match t with
  | .eng e => s.engOp e op
  | .loop n => s.loopIssue n (fun (s : State) =>
    match op (s.loops[n]).cpu with
    | .error c => s.progFault n c (s.loops[n]).cpu.pc
    | .ok c =>
      let s := s.modLoop n (fun l => { l with cpu := c })
      if c.flag 3 then
        (s.rcSet .loop n.val 0x08 0x08).raise (0x0200 + 4 * n.val + 2) clsB 0x12 (args8 [byte d.val])
      else s)

/-- Constants of a target. -/
def State.tgtConsts (s : State) : Tgt → List DWord
  | .eng e => (s.engines[e]).consts
  | .loop n => match (s.loops[n]).prog.cur with
    | some x => x.consts
    | none => []

/-- Constants of a target that stand in uncorrectable error, by index. -/
def State.tgtBad (s : State) : Tgt → List Nat
  | .eng e => match (s.engines[e]).prog.cur with
    | some x => x.badConst
    | none => []
  | .loop n => match (s.loops[n]).prog.cur with
    | some x => x.badConst
    | none => []

/-- The target is a loop datapath. -/
def Tgt.isLoop : Tgt → Bool
  | .eng _ => false
  | .loop _ => true

/-! ## Time (R306) -/

/-- The clock a selector names: 0–7, 0xF for CW.DATUM; none for a reserved X. -/
def Cpu.clock (c : Cpu) (x : BitVec 9) : Option (Fin 8) :=
  if x.toNat < 8 then some (finMod 8 x.toNat)
  else if x.toNat = 15 then some (finMod 8 (bitsOf c.cw 27 25))
  else none

/-- The engine island's tick index (R14). -/
def State.engTick (s : State) (e : Fin 8) : DWord :=
  if e.val < 4 then s.islandTick[14] else s.islandTick[15]

def opTnow (s : State) (isl : Fin 2) (rd : Fin 32) (x : BitVec 9) (c : Cpu) : NRes :=
  match c.clock x with
  | none => .error causeIllegal
  | some d =>
    if odd rd then .error causeIllegal
    else
      let t := ((s.datums[d]).mirs[isl]).now.export
      ((c.putPair rd t.sec (t.ns.toNat * 2 ^ 16 + t.sub.toNat)).setC (!(s.datums[d]).set)).ok

def opTick (s : State) (e : Fin 8) (rd : Fin 32) (c : Cpu) : NRes :=
  (c.put rd (s.engTick e)).ok

/-! ## Waits (R281, R289, R307) -/

/-- The events of a WAITE that hold, in bits 4:0, enabled or not (R307). -/
def State.waitEvents (s : State) (e : Fin 8) (mask : DWord) (timeout issue : DWord) (commits : Word) : BitVec 5 :=
  let unit := mask.toNat / 2 ^ 8 % 32
  let sem := finMod 64 (mask.toNat / 2 ^ 16)
  BitVec.ofNat 5 (b2n (!(s.engines[e]).fifo.isEmpty) + 2 * b2n (s.doorFor e) + 4 * b2n (bitOf commits unit)
    + 8 * b2n (s.sems[sem]).isNone + 16 * b2n (decide (s.tick.toNat ≥ issue.toNat + timeout.toNat)))

/-- What a wait finds now: not ended, or the registers at its end (R281, R307). -/
def State.waitEnd (s : State) (e : Fin 8) (w : Wait) (c : Cpu) : Option Cpu :=
  match w with
  | .time _ _ _ met => met.map c.setL
  | .tick k => if s.tick.toNat ≥ k.toNat then some (c.setL false) else none
  | .event rd mask timeout issue commits met =>
    let on := if met = 0 then s.waitEvents e mask timeout issue commits &&& mask.setWidth 5 else met
    if on = 0 then none else some ((c.setZ false).put rd (on.zeroExtend 64))

/-- The events that a WAITE enables are tested at a tick: it keeps those that hold at the first tick at which any does (R307). -/
def State.meetEvents (s : State) : State :=
  { s with engines := Vector.ofFn (fun e : Fin 8 =>
    let g := s.engines[e]
    { g with wait := g.wait.map (fun w => match w with
      | .event rd mask timeout issue commits met =>
        .event rd mask timeout issue commits
          (if met = 0 then s.waitEvents e mask timeout issue commits &&& mask.setWidth 5 else met)
      | w => w) }) }

/-- The engine goes on after a wait: the watchdog count restarts (R307). -/
def State.engResume (s : State) (e : Fin 8) (c : Cpu) : State :=
  s.modEng e (fun g => { g with run := .running, wait := none, cpu := c, wdogFrom := s.tick })

/-- A wait is issued: an armed swap takes its place (R289); a wait that has ended goes on at once. `late` is L where the
target has passed at issue. -/
def State.engWait (s : State) (e : Fin 8) (w : Wait) (late : Bool) : State :=
  if (s.engines[e]).prog.due then s.swapNow (.eng e) false
  else
    let s := s.modEng e (fun g => { g with pcReg := g.cpu.pc, cpu := g.cpu.next, wdogFrom := s.tick })
    match s.waitEnd e w (s.engines[e]).cpu with
    | some c => s.engResume e (if late then c.setL true else c)
    | none => s.modEng e (fun g => { g with run := .waiting, wait := some w })

/-- WAITT. -/
def State.engWaitt (s : State) (e : Fin 8) (ra : Fin 32) (x : BitVec 9) : State :=
  s.engIssue e (fun (s : State) =>
    let c := (s.engines[e]).cpu
    match c.clock x with
    | none => s.engFault e causeIllegal
    | some d =>
      if odd ra then s.engFault e causeIllegal
      else
        let sec := c.g[ra].toNat % 2 ^ 48
        let v := c.g[upper ra].toNat % 2 ^ 48
        let now := ((s.datums[d]).mirs[engIsl e]).now.toInt56
        s.engWait e (.time d sec v (if now ≥ waitTime sec v then some (decide (now > waitTime sec v)) else none)) false)

/-- WAITK. -/
def State.engWaitk (s : State) (e : Fin 8) (ra : Fin 32) : State :=
  s.engIssue e (fun (s : State) =>
    let k := (s.engines[e]).cpu.g[ra]
    s.engWait e (.tick k) (decide (s.tick.toNat > k.toNat)))

/-- WAITE: with no event enabled it continues at once. -/
def State.engWaite (s : State) (e : Fin 8) (rd ra rb : Fin 32) : State :=
  s.engIssue e (fun (s : State) =>
    let c := (s.engines[e]).cpu
    if c.g[ra].setWidth 5 = (0 : BitVec 5) then
      if (s.engines[e]).prog.due then s.swapNow (.eng e) false
      else (s.engPut e ((c.setZ true).put rd 0).next).modEng e (fun g => { g with wdogFrom := s.tick })
    else s.engWait e (.event rd c.g[ra] c.g[rb] s.tick 0 0) false)

/-- SWAP_TMO has passed since the swap was due (R289). -/
def State.swapTmoDue (s : State) (e : Fin 8) : Bool :=
  let t := s.rf .engine e.val 0x10 15 0
  (s.engines[e]).prog.due && decide (t ≠ 0) && decide (usOfTicks (s.tick.toNat - (s.engines[e]).armedAt.toNat) ≥ t)

/-- A waiting engine resumes when its wait has ended; a swap whose time-out has passed is then forced (R281, R289). -/
def State.engWake (s : State) (e : Fin 8) : State :=
  let g := s.engines[e]
  match g.run, g.wait with
  | .waiting, some w =>
    match s.waitEnd e w g.cpu with
    | none => s
    | some c =>
      let s := s.engResume e c
      if s.swapTmoDue e then s.swapNow (.eng e) true else s
  | _, _ => s

/-- SWAP_TMO expires: the swap is forced at the next instruction boundary, where an engine that has stopped stands; a
wait in progress ends first (R289). -/
def State.swapTimeout (s : State) (e : Fin 8) : State :=
  let r := (s.engines[e]).run
  if s.swapTmoDue e && (r == .running || r == .halted || r == .fault) then s.swapNow (.eng e) true else s

/-- The word at the program counter is a wait (R289). -/
def Engine.atWait (g : Engine) : Bool :=
  match g.prog.cur with
  | some x => match x.code[g.cpu.pc]? with
    | some w => decide (0x74 ≤ bitsOf w 31 24 ∧ bitsOf w 31 24 ≤ 0x76)
    | none => false
  | none => false

/-! ## Stamps and emission (R308, R309) -/

/-- STPOP. -/
def State.engStpop (s : State) (e : Fin 8) (rd : Fin 32) : State :=
  s.engIssue e (fun (s : State) =>
    let g := s.engines[e]
    if odd rd ∨ rd.val > 28 then s.engFault e causeIllegal
    else match g.fifo with
      | [] => s.engPut e (g.cpu.setC true).next
      | q :: rest =>
        let c := (g.cpu.putPair rd q.t.sec (q.t.ns.toNat * 2 ^ 16 + q.t.sub.toNat)).put (upper (upper rd)) (q.desc.zeroExtend 64)
        (s.engPut e (c.setC false).next).modEng e (fun g => { g with fifo := rest }))

/-- Entries a schedule of this SIZE holds between TAIL and HEAD. -/
def ringFill (size head tail : Nat) : Nat :=
  (head + size - tail) % size

/-- The datum clock of an entry's channel, CW.DATUM where CH names none (R309, R178). -/
def State.entryDatum (s : State) (c : Cpu) (g : Fin 12) (ch : Nat) : Fin 8 :=
  match fin? 16 ch with
  | some i => cfgDatum (s.chCfg (chIx g i))
  | none => finMod 8 (bitsOf c.cw 27 25)

/-- EMIT. -/
def State.engEmit (s : State) (e : Fin 8) (rd ra rb : Fin 32) : State :=
  s.engIssue e (fun (s : State) =>
    let c := (s.engines[e]).cpu
    if odd ra then s.engFault e causeIllegal
    else
      let ds := c.g[rb]
      let sec := c.g[ra].setWidth 48
      let v := c.g[upper ra].toNat % 2 ^ 48
      let out (s : State) (code : DWord) (late : Bool) : State :=
        s.engPut e (((c.put rd code).setC (code != 0)).setL late).next
      match fin? 12 (ds.toNat / 2 ^ 60) with
      | none => out s 2 false
      | some g =>
        if ds.toNat / 2 ^ 32 % 2 ^ 26 ≠ 0 then out s 2 false
        else
          let j := finMod 4 (ds.toNat / 2 ^ 58)
          let up := s.domUp (30 + g.val)
          let size := if up then s.rf .survey g.val (schedOff j 4) 18 0 else 0
          let head := s.rf .survey g.val (schedOff j 8) 17 0
          let tail := s.rf .survey g.val (schedOff j 0xC) 17 0
          let s := if up then s else s.count .access 0 0x28 15 0
          if size ≤ 1 ∨ ringFill size head tail ≥ size - 1 then out s 1 false
          else
            let base := s.rf .survey g.val (schedOff j 0) 17 0
            let ns := v / 2 ^ 16
            let entry := beBytes 6 sec.toNat ++ beBytes 4 ns ++ beBytes 2 (v % 2 ^ 16) ++ beBytes 4 (ds.toNat % 2 ^ 32)
            let s := s.memWrite (graticuleBase + 16 * ((base + head) % 262144)) entry
            let s := s.wr .survey g.val (schedOff j 8) (fld ((head + 1) % size) 0)
            let d := s.entryDatum c g (ds.toNat / 2 ^ 24 % 256)
            let soon := decide (waitTime sec.toNat v < (s.datums[d]).clk.now.toInt56 + ((2000 * 2 ^ 56 : Nat) : Int))
            out s 0 soon)

/-! ## Statistics, notices, mailboxes, doorbells, semaphores (R311) -/

/-- SPUSH. -/
def State.engSpush (s : State) (e : Fin 8) (ra : Fin 32) : State :=
  s.engIssue e (fun (s : State) =>
    let g := s.engines[e]
    if g.pushq.length ≥ 16 then (s.engPut e (g.cpu.setC true).next).rcCount .engine e.val 0x18 15 0
    else (s.engPut e (g.cpu.setC false).next).modEng e (fun q => { q with pushq := q.pushq ++ [g.cpu.g[ra].toInt] }))

/-- NOTE: a class A or B request of an ordinary program is issued as class C and counted; code 0xFF as 0xFE (R282, R414). -/
def State.engNote (s : State) (e : Fin 8) (ra : Fin 32) (imm : BitVec 14) : State :=
  s.engIssue e (fun (s : State) =>
    let g := s.engines[e]
    if imm.toNat % 16 ≠ 0 then s.engFault e causeIllegal
    else
      let cls : BitVec 2 := imm.extractLsb' 12 2
      let code : Byte := imm.extractLsb' 4 8
      let low := decide (cls.toNat < 2) && !g.keeper
      let s := s.engPut e g.cpu.next
      let s := if low then s.rcCount .engine e.val 0x1C 31 16 else s
      s.raise (engSrc e) (if low then clsC else cls) (if code = 0xFF then 0xFE else code) g.cpu.g[ra])

/-- Own data slice in the engine's address space (R279). -/
def ownBase : Nat := 0x100000

/-- The address of a mailbox message: aligned and inside the own slice, or the fault (R311). -/
def mbAddr (outside : Byte) (a : DWord) : Except Byte Nat :=
  if a.toNat % 64 ≠ 0 then .error causeAlign
  else if a.toNat < ownBase ∨ a.toNat + 64 > ownBase + sliceSize then .error outside
  else .ok (a.toNat - ownBase)

/-- Gd := status, C := a non-zero one. -/
def Cpu.status (c : Cpu) (rd : Fin 32) (r : MbStatus) : Cpu :=
  ((c.put rd (BitVec.ofNat 64 r.num)).setC (decide (r.num ≠ 0))).next

/-- MBPOST. -/
def State.engMbpost (s : State) (e : Fin 8) (rd ra : Fin 32) (imm : BitVec 14) : State :=
  s.engIssue e (fun (s : State) =>
    let c := (s.engines[e]).cpu
    if imm.toNat ≥ 16 then s.engFault e causeIllegal
    else match mbAddr causeWindow c.g[ra] with
      | .error f => s.engFault e f
      | .ok o =>
        let ((msg, bad), s) := s.memRead (engineBase + e.val * sliceSize + o) 64
        if bad then s.engFault e causeEcc
        else
          let (r, s) := s.mbPost (.eng e) (finMod 16 imm.toNat) msg
          s.engPut e (c.status rd r))

/-- MBTAKE. -/
def State.engMbtake (s : State) (e : Fin 8) (rd ra : Fin 32) (imm : BitVec 14) : State :=
  s.engIssue e (fun (s : State) =>
    let c := (s.engines[e]).cpu
    if imm.toNat ≥ 16 then s.engFault e causeIllegal
    else match mbAddr causeWriteRo c.g[ra] with
      | .error f => s.engFault e f
      | .ok o =>
        let m : Fin 16 := finMod 16 imm.toNat
        match s.mbTake e m with
        | (none, s) => s.engFault e causeEcc
        | (some (r, msg), s) =>
          let s := if r = .done then s.memStore (engineBase + e.val * sliceSize + o) (msg.map some) else s
          s.engPut e (c.status rd r))

/-- DBELL: it names no register, so RD must be 0 (R296, R311). -/
def State.engDbell (s : State) (e : Fin 8) (rd : Fin 32) (imm : BitVec 14) : State :=
  s.engIssue e (fun (s : State) =>
    let c := (s.engines[e]).cpu
    if rd ≠ 0 ∨ imm.toNat ≥ 32 then s.engFault e causeIllegal
    else
      let (ok, s) := s.ringOut (.eng e) imm.toNat
      s.engPut e (c.setC (!ok)).next)

/-- Another engine than e holds semaphore i. -/
def State.semHeld (s : State) (e : Fin 8) (i : Fin 64) : Bool :=
  match s.sems[i] with
  | some h => decide (h ≠ e)
  | none => false

/-- SEMA (R284). -/
def State.engSema (s : State) (e : Fin 8) (rd : Fin 32) (imm : BitVec 14) : State :=
  s.engIssue e (fun (s : State) =>
    let c := (s.engines[e]).cpu
    if imm.toNat ≥ 64 then s.engFault e causeIllegal
    else
      let i : Fin 64 := finMod 64 imm.toNat
      let held : Bool := s.semHeld e i
      let t : State := if held then s else { s with sems := s.sems.set i (some e) }
      t.engPut e (((c.put rd (BitVec.ofNat 64 (b2n held))).setZ (!held)).setC held).next)

/-- SEMR (R284). -/
def State.engSemr (s : State) (e : Fin 8) (imm : BitVec 14) : State :=
  s.engIssue e (fun (s : State) =>
    let c := (s.engines[e]).cpu
    if imm.toNat ≥ 64 then s.engFault e causeIllegal
    else
      let i := finMod 64 imm.toNat
      let mine : Bool := decide (s.sems[i] = some e)
      let t : State := if mine then { s with sems := s.sems.set i none } else s.count .engine 0 0x300 15 0
      t.engPut e (c.setC (!mine)).next)

/-! ## Control (R293, R304) -/

/-- HALT. -/
def State.engHalt (s : State) (e : Fin 8) : State :=
  s.engIssue e (fun (s : State) => s.modEng e (fun g => { g with run := .halted, pcReg := g.cpu.pc, cpu := g.cpu.next }))

/-- WATCHDOG at an instruction boundary. -/
def State.engWatchdog (s : State) (e : Fin 8) : State :=
  if s.wdogDue e then s.engFault e causeWatchdog else s

/-- STOP: the output stage takes the OUTF value, in holdover it ignores it, or NO_OUT is set; the next sample starts at word
0 with an empty return stack (R94, R132, R276). -/
def State.loopStop (s : State) (n : Fin 16) : State :=
  let l := s.loops[n]
  let s := s.modLoop n (fun y => { y with out := none, cpu := { y.cpu with pc := 0, stack := [] } })
  match l.out with
  | some f => if l.code.holds then s else s.modLoop n (fun y => { y with fp := f })
  | none => s.rcSet .loop n.val 0x08 0x20

end Sys2Proof.Machine
end

