-- ==== Sys2Proof/Machine/FaultOps.lean ====
section
/-! DEFINITION. The fault manager, steward shedding and the benchmark (R28, R163, R366, R375 to R388). -/

namespace Sys2Proof.Machine

/-! ## Blocks (R382) -/

/-- The identities the table of R382 lists. -/
def blockListed (i : Nat) : Bool :=
  decide (i ≤ 0x0B ∨ (0x10 ≤ i ∧ i ≤ 0x14) ∨ (0x18 ≤ i ∧ i ≤ 0x21) ∨ (0x28 ≤ i ∧ i ≤ 0x33) ∨ (0x40 ≤ i ∧ i ≤ 0x53)
    ∨ (0x58 ≤ i ∧ i ≤ 0x5E) ∨ i = 0x60 ∨ i = 0x61 ∨ i = 0x70 ∨ i = 0x7F)

/-- Class of a block's notices. -/
def blockClass (i : Nat) : BitVec 2 :=
  if i = 0x59 then clsD else if i = 0x5B then clsC else if i = 0x70 then clsA else clsB

/-- Ticks in 24 h. -/
def dayTicks : Nat := 86400 * secTicks

/-- Faults of the last 24 h at tick k (R379). -/
def Blk.lastDay (b : Blk) (k : DWord) : List (DWord × Bool) :=
  b.recent.filter (fun e => decide (k.toNat < e.1.toNat + dayTicks))

/-- FAULT.BLOCK but TOTAL (R382). -/
def Blk.word (b : Blk) (k : DWord) : Word :=
  fld (match b.st with | .inService => 0 | .testing => 1 | .retired => 2) 30 ||| fld b.outcome.toNat 28 ||| fld b.cause.toNat 24
    ||| fld (Nat.min 255 (b.lastDay k).length) 16

/-- Offset of FAULT.BLOCK[i]. -/
def blockOff (i : Nat) : Nat := 0x200 + 4 * i

/-- The FAULT notice with the block's word at the decision (R382). -/
def State.faultNotice (s : State) (i : Fin 128) : State :=
  let w := (s.fm.blks[i]).word s.tick ||| fld (s.rcLive .fault 0 (blockOff i.val) 15 0) 0
  s.raise (0x0700 + i.val) (blockClass i.val) 0x58 (args8 (beBytes 4 w.toNat))

/-! ## Cover actions (R377, R380) -/

/-- The loops of a loop island: LPA (0) the even ones, LPB (1) the odd ones. -/
def islandLoops (isl : Nat) : List (Fin 16) :=
  (List.finRange 16).filter (fun n => decide (n.val % 2 = isl))

/-- The engines of an engine island. -/
def islandEngines (isl : Nat) : List (Fin 8) :=
  (List.finRange 8).filter (fun e => decide (e.val / 4 = isl))

/-- An engine stops in FAULT with its island (R378, R380): no instruction has faulted, so CAUSE stands, and PC names the last one
executed (R293). -/
def State.engStop (s : State) (e : Fin 8) : State :=
  (s.modEng e (fun g => { g with run := .fault, wait := none })).releaseSems e

/-- The steward restarts: its path's holdings and its load windows are cleared with it (R326, R383, R394). -/
def State.stewardClear (s : State) : State :=
  { s.modPath .stw (fun q => { q with readHold := [], writeHold := [] }) with
    stewLoad := 0, shedLevel := 0, shedHot := false, shedRun := 0 }

/-- The steward is held (R28). -/
def State.stewardDown (s : State) : State :=
  (s.modBoot (fun b => { b with stewardUp := false })).stewardClear

/-- The cover action of a block, at once on the report (R377, R380). An engine's own fault (cause 6) has stopped it, and
the island's other engines run on (log entry 70). While the core is held in reset there is nothing to cover. -/
def State.cover (s : State) (i cause : Nat) : State :=
  if s.coreUp = false then s
  else match fin? 12 i with
  | some g => match (s.groups[g]).faultCore with
    | some c => s.loseCore g c
    | none => s
  | none =>
    if i = 0x11 ∨ i = 0x12 then (islandLoops (i - 0x11)).foldl (fun (s : State) n => s.twinFault n) s
    else if i = 0x52 ∨ i = 0x53 then if cause = 6 then s else (islandEngines (i - 0x52)).foldl (fun (s : State) e => s.engStop e) s
    else if i = 0x58 then
      match s.mem.testBank with
      | some p => if s.mem.spareUsed ∨ s.mem.spareBad ∨ s.mem.mirror.isSome then s
        else { s with mem := { s.mem with mirror := some p } }
      | none => s
    else if i = 0x13 ∨ i = 0x14 then
      match fin? 2 (i - 0x13) with
      | some k =>
        let s := overFin 192 s (fun ch s => if datIsl (cfgDatum (s.cfgAct ch)) = k then s.holdOuts ch else s)
        { s with reloadDue := s.reloadDue.set k true }
      | none => s
    else if i = 0x5C then s.stewardDown
    else match fin? 16 (i - 0x40) with
      | some n => if i ≥ 0x40 then s.portDown n else s
      | none => s

/-- A loss of lock of SYN0–SYN7 that R217 covers: neither isolated nor tested until the third failed sequence (R377). -/
def State.lolOnly (s : State) (i : Nat) (cause : Nat) : Bool :=
  decide (0x18 ≤ i ∧ i ≤ 0x1F) && decide (cause = 5) && decide ((s.syns[finMod 9 (i - 0x18)]).failRow < 3)

/-- A detector has named a core of the group, or the block is the memory: a part of the block is at fault, and the rest works. -/
def State.partOf (s : State) (i : Nat) : Bool :=
  match fin? 12 i with
  | some g => (s.groups[g]).faultCore.isSome
  | none => decide (i = 0x58)

/-- The fault manager acts on a report (R377): count, cover, isolate and test. -/
def State.actOn (s : State) (i : Fin 128) (cause : BitVec 4) : State :=
  let b := s.fm.blks[i]
  if b.st = .testing then s
  else
    let s := s.rcCount .fault 0 (blockOff i.val) 15 0
    let s := s.modBlk i (fun b => { b with cause := cause, recent := (s.tick, false) :: b.lastDay s.tick })
    if b.st = .retired ∧ s.partOf i.val = false then s
    else if s.lolOnly i.val cause.toNat then (s.modBlk i (fun b => { b with outcome := 1 })).faultNotice i
    else
      let s := s.cover i.val cause.toNat
      (s.modBlk i (fun b => { b with st := .testing, unret := false })).refresh

/-- The oldest waiting report is taken (R377). -/
def State.takeReport (s : State) : State :=
  match s.fm.waiting with
  | [] => s
  | (i, c) :: rest => ({ s with fm := { s.fm with waiting := rest } }).actOn i c

/-- The fault manager takes every report that waits, in order of arrival (R377). -/
def State.takeReports (s : State) : State :=
  s.fm.waiting.foldl (fun (s : State) _ => s.takeReport) s

/-- A report reaches the fault manager, which acts on it at once, behind those that wait (R377). -/
def State.faultReport (s : State) (i : Fin 128) (cause : BitVec 4) : State :=
  if blockListed i.val = false then s else (s.report i.val cause.toNat).takeReports

/-! ## The end of a self-test (R379, R381) -/

/-- CFG of both loops of a pair makes them a twin (R134). -/
def State.twinCfg (s : State) (n : Fin 16) : Bool :=
  s.loopEn n && s.rb .loop n.val 0 17 && s.loopEn (twinOf n) && s.rb .loop (twinOf n).val 0 17

/-- A loop of a tested island restarts with its active sheet (R381), no second of before the fault left to count: a pair's loop
as STANDBY, a solo loop, one of a retired island too, in holdover from the checkpoint or in free run. -/
def State.restartLoop (s : State) (n : Fin 16) : State :=
  let l := s.loops[n]
  let s := if l.sw.isSome then s.endSw n else s
  let s := s.modLoop n (fun l => { l with
    cpu := { (initCpu l.prog.cur Cpu.reset) with cw := cwReset }
    instTick := none
    out := none
    secAcc := SecAcc.reset
    secReady := none })
  if l.role ≠ .solo ∧ s.twinCfg n then
    s.modLoop n (fun l => { l with role := .standby, mirrorDue := true, tolRun := 0 })
  else
    let s := s.modLoop n (fun l => { l with role := .solo })
    if s.loopEn n then (s.modLoop n (fun l => { l with est := l.ckpt })).loseSource n else s

/-- Return to service after a transient fault (R381); a block of a core that is held in reset comes back with it. -/
def State.backInService (s : State) (i : Nat) : State :=
  if s.coreUp = false then s
  else match fin? 12 i with
  | some g => s.reliefBack g
  | none =>
    if i = 0x11 ∨ i = 0x12 then (islandLoops (i - 0x11)).foldl (fun (s : State) n => s.restartLoop n) s
    else if 0x18 ≤ i ∧ i ≤ 0x1F then
      let y := finMod 9 (i - 0x18)
      let s := s.modSyn y (fun q => { q with failRow := 0 })
      if s.insvc y then s.startLock y else s
    else if i = 0x58 then { s with mem := { s.mem with mirror := if s.mem.retiring then s.mem.mirror else none, testBank := none } }
    else if i = 0x5C then s.modBoot (fun b => { b with stewardUp := b.fwOk && b.fwRestart.isNone })
    else if i = 0x5D then (s.msiReleaseAll 0).msiReleaseAll 1
    else s

/-- The fault manager powers an island off and on again after a transient supply fault (R25, R390): PTE, STAT, the loop islands and the
engine islands; a port's domain goes off and on with its isolation (R379, R389). The others' bounds in R380 leave no time for it (log 153).
The domain's release ends it. -/
def State.powerCycle (s : State) (i : Nat) : State :=
  let cycle (s : State) (d : Fin 108) : State :=
    if s.coreUp && s.domOn[d] then { s with domOn := s.domOn.set d false, domRising := s.domRising.set d true } else s
  match i with
  | 0x50 => cycle s 7
  | 0x51 => cycle s 2
  | 0x11 => cycle s 3
  | 0x12 => cycle s 4
  | 0x52 => cycle s 8
  | 0x53 => cycle s 9
  | _ => s

/-- Retirement after a persistent fault (R379). Of a survey group's shared stages the faulted copy is retired: the standby copy, in
service since the fault, serves on (R378, R380). -/
def State.retireBlock (s : State) (i : Fin 128) : State :=
  let s := if i.val = 0x58 then s else s.retireCount.log (.retire i)
  match fin? 12 i.val with
  | some g => match (s.groups[g]).faultCore with
    | some c => s.modGroup g (fun q => { q with cores := q.cores.set c { q.cores[c] with retired := true }, faultCore := none })
    | none => s.modBlk i (fun b => { b with st := .retired, shared := true })
  | none =>
    if i.val = 0x11 ∨ i.val = 0x12 then
      (islandLoops (i.val - 0x11)).foldl (fun (s : State) n => s.modLoop n (fun l => { l with role := .failed })) s
    else if i.val = 0x52 ∨ i.val = 0x53 then (islandEngines (i.val - 0x52)).foldl (fun (s : State) e => s.engStop e) s
    else if i.val = 0x58 then
      match s.mem.testBank with
      | some p =>
        let s := { s with mem := { s.mem with testBank := none } }
        if s.mem.mirror = some p ∧ s.mem.retiring = false then ({ s with mem := { s.mem with mirror := none } }).retireMem p
        else s.retireMem p
      | none => s
    else s

/-- A core of the group, or a bank, is retired (R379). -/
def State.partRetired (s : State) (i : Nat) : Bool :=
  match fin? 12 i with
  | some g => (List.finRange 17).any (fun c => ((s.groups[g]).cores[c]).retired)
  | none => decide (i = 0x58) && s.mem.spareUsed

/-- The block, or the part of it that UNRETIRE has put to the test, returns to service (R379): a group's shared stages, or
a core as the relief core, a bank when REMAP next returns to identity (R354, R394, log 159). -/
def State.unretired (s : State) (i : Fin 128) : State :=
  let s := s.log (.service i)
  match fin? 12 i.val with
  | some g =>
    if (s.fm.blks[i]).shared then s.modBlk i (fun b => { b with st := .inService, shared := false })
    else s.modGroup g (fun q => match (List.finRange 17).find? (fun c => (q.cores[c]).retired) with
      | some c => { q with cores := q.cores.set c { q.cores[c] with retired := false } }
      | none => q)
  | none => s

/-- The next bank whose self-test waits is put to the test (R364). -/
def State.nextBank (s : State) : State :=
  match s.mem.testBank, s.mem.bankWait with
  | none, p :: rest => ({ s with mem := { s.mem with testBank := some p, bankWait := rest } }).report 0x58 7
  | _, _ => s

/-- A targeted self-test ends (R379). -/
def State.selfTestDone (s : State) (i : Fin 128) (pass : Bool) : State :=
  let b := s.fm.blks[i]
  if b.st ≠ .testing then s
  else
    let day := b.lastDay s.tick
    let persistent := !pass || (!b.unret && decide ((day.drop 1).countP (fun e => e.2) ≥ 2))
    let recent := match day with
      | e :: r => (e.1, pass) :: r
      | [] => []
    let part := decide (i.val < 12 ∨ i.val = 0x58)
    let st : BlkSt := if (persistent && !part) || b.shared then .retired else .inService
    let s := s.modBlk i (fun b => { b with st := st, outcome := if persistent then 2 else 1, recent := recent, unret := false })
    let s := if b.unret && !persistent then s.unretired i else s
    let s := if persistent then (if b.unret && part then s else s.retireBlock i)
      else if b.cause = 0xA then (s.backInService i.val).powerCycle i.val
      else s.backInService i.val
    ((s.faultNotice i).nextBank).refresh

/-- UNRETIRE (R379): TEST mode, a retired block, or one of which a core or a bank is retired. -/
def State.unretire (s : State) (i : Fin 128) : State :=
  if s.boot.mode = .test ∧ ((s.fm.blks[i]).st = .retired ∨ ((s.fm.blks[i]).st = .inService ∧ s.partRetired i.val)) then
    s.modBlk i (fun b => { b with st := .testing, unret := true })
  else s.count .fault 0 8 15 0

/-- RETIRE_BANK (R388): a free and sound spare, a physical bank that serves. -/
def State.retireBankCmd (s : State) (p : Nat) : State :=
  match fin? 24 p with
  | some q =>
    if s.mem.spareUsed ∨ s.mem.spareBad ∨ s.mem.mirror.isSome then s.count .fault 0 8 15 0
    else s.retireMem (Fin.castLE (by decide) q)
  | none => s.count .fault 0 8 15 0

/-- A write of FAULT.CMD by a keeper path (R388, R416). -/
def State.faultCmd (s : State) (v : Word) : State :=
  if bitOf v 31 && bitOf v 30 then s.count .fault 0 8 15 0
  else if bitOf v 31 then
    match fin? 128 (bitsOf v 7 0) with
    | some i => s.unretire i
    | none => s.count .fault 0 8 15 0
  else if bitOf v 30 then s.retireBankCmd (bitsOf v 7 0)
  else s

/-- The estimator's checkpoint, once per tally second (R381). -/
def State.checkpoint (s : State) (n : Fin 16) : State :=
  let sec := (s.loops[n]).tally.now.sec.toNat
  if (s.loops[n]).ckptAt = some sec then s else s.modLoop n (fun l => { l with ckpt := l.est, ckptAt := some sec })

/-- CE_THRESH over 1 s (R364). -/
def State.ceCheck (s : State) (p : Fin 25) : State :=
  let n := s.mem.ceAt[p]
  let th := s.rf .memory 0 8 15 0
  let s := { s with mem := { s.mem with ceAt := s.mem.ceAt.set p 0 } }
  if n ≥ th then
    s.bankReport p 7
  else s

/-! ## Steward overload (R383) -/

/-- SHED changes. -/
def State.setShed (s : State) (lvl : BitVec 2) : State :=
  ({ s with shedLevel := lvl, shedRun := 0 }).raise 0x075C clsB 0x62 (args8 [byte lvl.toNat])

/-- A 100 ms window of the steward ends with this load, in %. -/
def State.shedWindow (s : State) (load : Nat) : State :=
  if s.boot.stewardUp = false then s
  else
    let load := Nat.min 100 load
    let hi := s.rf .device 0 0x804 15 8
    let lo := s.rf .device 0 0x804 7 0
    let lo : Int := if lo ≥ hi then (hi : Int) - 1 else lo
    let s := { s with stewLoad := load }
    let s := s.rcAll (key .device 0 0x800) (fun w => mix 0x00FF0000 w (fld (Nat.max (bitsOf w 23 16) load) 16))
    let hot := decide (load > hi)
    let was := s.shedHot
    let run := if (load : Int) ≤ lo then s.shedRun + 1 else 0
    let s := { s with shedHot := hot, shedRun := run }
    if hot then
      if s.shedLevel = 0 then s.setShed 1
      else if s.shedLevel = 1 ∧ was then s.setShed 2
      else s
    else if run ≥ 10 ∧ s.shedLevel ≠ 0 then s.setShed (s.shedLevel - 1)
    else s

/-- The first flash byte of a QSPI slot (R455). -/
def qspiBase (slot : Bool) : Word :=
  if slot then 0x400000 else 0

/-- The image of a QSPI slot is read, with the Quad I/O Fast Read of a 4-byte address (R398, R455). -/
def State.qspiRead (s : State) (slot : Bool) : State :=
  s.emit (.qspi 0xEC (qspiBase slot))

/-- The steward runs image n (0, 1 a QSPI slot, 2 the host's): sheet 15 of the benchmark holds its digest (R384). -/
def Boot.runs (b : Boot) (n : Nat) : Boot :=
  { b with fwDigest := Config.fwDigest n, fwShadow := Config.fwDigest n }

/-- FW_SWAP (R388): the steward is down until it restarts, within 250 ms, from the new image, or from the old one with FW_REJECT; an
accepted image ends the wait for one (R399, R402). -/
def State.fwSwap (s : State) (ok : Bool) : State :=
  let slot := if s.boot.fwHost then s.boot.fwSlot else !s.boot.fwSlot
  let s := ((s.log (.keeper 0x1808)).qspiRead slot).stewardDown
  let (v, s) := s.free
  let s := s.modBoot (fun b => { b with fwRestart := some (s.tick + BitVec.ofNat 64 (v.toNat % (250 * msTicks + 1))) })
  if ok then
    (s.log (.slot slot)).modBoot (fun b => { (b.runs (b2n slot)) with
      fwSlot := slot, fwHost := false, fwOk := true, awaitHost := false, recovWhy := b.recovWhy &&& 0x7 })
  else s.verifyFailed.raise 0x075C clsB 0x63 (args8 [byte (b2n slot)])

/-- The steward's restart after a FW_SWAP is over (R388): it runs, where it has firmware and its block is in service. -/
def State.stewardBack (s : State) : State :=
  match s.boot.fwRestart with
  | none => s
  | some k =>
    if s.passed k 0 then
      let up := s.blkUp 0x5C
      s.modBoot (fun b => { b with fwRestart := none, stewardUp := b.fwOk && up })
    else s

/-! ## The benchmark (R384 to R387) -/

/-- Put a key in its place, rising. -/
def putKey (k : Nat) : List Nat → List Nat
  | [] => [k]
  | x :: l => if k ≤ x then k :: x :: l else x :: putKey k l

/-- The keys of a sheet's covered words in ascending offset; the monitor table follows the register space (R384). -/
def sheetKeys (n : Nat) : List Nat :=
  (coveredKeys.filter (fun k => match placeOfKey k with
    | some p => decide (p.sheet = some n ∧ p.cover ≠ 0)
    | none => false)).foldr putKey []

/-- The 8-byte record of a covered word (R384). -/
def coverRec (off : Nat) (w : Word) : List Byte :=
  beBytes 4 off ++ beBytes 4 w.toNat

/-- The words a sheet names beside registers (R384): active sheet digests, the start sheet's sequence number, the
firmware's digest; and the number of MODEL_CLEARs the archive log holds, once there is one, since the clear enters the
benchmark (R131, log entry 114). -/
def State.namedWords (s : State) (n : Nat) : List Word :=
  let dg (p : Prog) : List Word := wordsOf 8 p.digest.toNat
  match n with
  | 5 => s.loops.toList.flatMap (fun l => dg l.prog)
  | 6 => s.engines.toList.flatMap (fun e => dg e.prog)
  | 8 => dg s.plan
  | 0 => match s.arch.readLog.countP (fun e => decide (e = .modelClear)) with
    | 0 => []
    | n + 1 => [BitVec.ofNat 32 (n + 1)]
  | 14 => [s.boot.sheet.seq]
  | 15 => wordsOf 8 s.boot.fwDigest.toNat
  | _ => []

/-- A sheet's digest (R384). -/
def State.sheetDigest (s : State) (n : Nat) : BitVec 256 :=
  let regs := (sheetKeys n).flatMap (fun k => coverRec (if k < monBase then k else k - monBase) (s.reg k &&& coverOf k))
  let ws := s.namedWords n
  let named := ((List.range ws.length).zip ws).flatMap (fun p => coverRec (Config.benchOffset n p.1).toNat p.2)
  sha256 (regs ++ named)

/-- The fault block of the island that owns a covered register (R386). -/
def ownerBlock (p : Place) : Nat :=
  match p.blk with
  | .refin => 0x10
  | .mon => 0x10
  | .loop => 0x11 + p.inst % 2
  | .datum => 0x13 + p.inst / 4
  | .survey => p.inst
  | .stats => 0x51
  | .synth => 0x18 + p.inst
  | .outbank => 0x21
  | .align => 0x21
  | .port => 0x40 + p.inst
  | .pte => 0x50
  | .engine => 0x52 + p.inst / 4
  | .fieldbook => 0x58
  | .memory => 0x58
  | .archive => 0x5A
  | .modbus => if 0x20 ≤ p.off ∧ p.off < 0x40 then 0x61 else 0x60
  | .device => 0x5C
  | _ => 0x5E

/-- The shadow of the named words of a sheet (R386); the archive log, which keeps its own check bits, has none. -/
def State.namedShadow (s : State) (n : Nat) : List Word :=
  let dg (p : Prog) : List Word := wordsOf 8 p.digestShadow.toNat
  match n with
  | 5 => s.loops.toList.flatMap (fun l => dg l.prog)
  | 6 => s.engines.toList.flatMap (fun e => dg e.prog)
  | 8 => dg s.plan
  | 14 => [s.boot.seqShadow]
  | 15 => wordsOf 8 s.boot.fwShadow.toNat
  | _ => s.namedWords n

/-- The named words of a sheet are rewritten from their shadow (R386). -/
def State.namedRewrite (s : State) (n : Nat) : State :=
  let f (p : Prog) : Prog := { p with digest := p.digestShadow }
  match n with
  | 5 => { s with loops := s.loops.map (fun l => { l with prog := f l.prog }) }
  | 6 => { s with engines := s.engines.map (fun e => { e with prog := f e.prog }) }
  | 8 => { s with plan := f s.plan }
  | 14 => s.modBoot (fun b => { b with sheet := { b.sheet with seq := b.seqShadow } })
  | 15 => s.modBoot (fun b => { b with fwDigest := b.fwShadow })
  | _ => s

/-- The fault block of the island that owns word i of a sheet's named words (R386, log 94). -/
def namedOwner (n i : Nat) : Nat :=
  match n with
  | 5 => 0x11 + i / 8 % 2
  | 6 => 0x52 + i / 32
  | 8 => 0x20
  | 14 => 0x5A
  | _ => 0x5C

/-- A word has been found to differ from its shadow (R386): the repair is logged, noticed, counted, and reported as a fault of the
owning block. -/
def State.upset (s : State) (key sheet off owner : Nat) : State :=
  let s := (s.log (.repair key)).raise 0x0770 clsA 0x68 (args8 ([byte sheet, 0, 0, 0] ++ beBytes 4 off))
  (s.count .benchmark 0 0x10 15 0).report owner 1

/-- The named words of a sheet are compared with their shadow and rewritten on a difference (R386). -/
def State.scanNamed (s : State) (n : Nat) : State :=
  let ws := s.namedWords n
  let bad := ((List.range ws.length).zip (ws.zip (s.namedShadow n))).filter (fun e => decide (e.2.1 ≠ e.2.2))
  bad.foldl (fun (s : State) e =>
    let off := (Config.benchOffset n e.1).toNat
    s.upset off n off (namedOwner n e.1)) (if bad = [] then s else s.namedRewrite n)

/-- One word is compared with its shadow and rewritten on a difference (R386). -/
def State.scanWord (s : State) (k : Nat) : State :=
  match placeOfKey k with
  | none => s
  | some p =>
    let m := p.cover
    let sh := (mapGet s.shadow k).getD (resetWord k)
    if s.reg k &&& m = sh &&& m then s
    else
      let off := if k < monBase then k else k - monBase
      (s.setReg k (mix m (s.reg k) sh)).upset k (p.sheet.getD 0) off (ownerBlock p)

/-- MATCH follows the comparison with EXPECT (R387). -/
def State.matchExpect (s : State) (dg : BitVec 256) : State :=
  let m := s.rb .benchmark 0 0 31 && decide (s.wide .benchmark 0 0x40 8 = dg.toNat)
  if m = s.benchMatch then s
  else ({ s with benchMatch := m }).raise 0x0770 clsA 0x69 (args8 ([byte (b2n m), 0, 0, 0] ++ beBytes 4 (s.r .benchmark 0 0x0C).toNat))

/-- A scan (R385): repairs, the sheet digests, the benchmark digest, DSEQ, MATCH. -/
def State.benchScan (s : State) : State :=
  let s := coveredKeys.foldl (fun (s : State) k => s.scanWord k) s
  let s := [5, 6, 8, 14, 15].foldl (fun (s : State) n => s.scanNamed n) s
  let ds := (List.range 16).map s.sheetDigest
  let mask := s.rf .benchmark 0 8 15 0
  let input := beBytes 2 mask ++ ((List.range 16).zip ds).flatMap (fun p =>
    beBytes 32 (if mask.testBit p.1 then p.2.toNat else 0))
  let dg := sha256 input
  let old := s.wide .benchmark 0 0x20 8
  let s := ((List.range 16).zip ds).foldl (fun (s : State) p => s.setWide .benchmark 0 (0x100 + 0x20 * p.1) 8 p.2.toNat) s
  let s := { s.setWide .benchmark 0 0x20 8 dg.toNat with peerMir := (dg, s.peerMir.2), scanning := false }
  let s := if dg.toNat = old then s
    else
      let q := s.r .benchmark 0 0x0C + 1
      { (s.wr .benchmark 0 0x0C q).log (.digest q dg) with peerMir := (dg, q) }
  s.matchExpect dg

end Sys2Proof.Machine
end

