-- ==== Sys2Proof/Machine/PowerOps.lean ====
section
/-! DEFINITION. Power domains, core and standby resets, reset release, the start sheet's set-up fields, firmware and
modes (R389 to R405), the oven model (R131), the SYNB relock (R380). -/

namespace Sys2Proof.Machine

/-! ## Power domains (R389 to R392) -/

/-- Who switches a domain (R389). -/
inductive DomCtl where
  | always
  | keeper
  | config
  | fault
  deriving DecidableEq, Repr

/-- The Control column of R389. -/
def domCtl (d : Nat) : DomCtl :=
  if d = 2 ∨ d = 3 ∨ d = 4 ∨ d = 7 ∨ d = 8 ∨ d = 9 ∨ (30 ≤ d ∧ d ≤ 53) then .keeper
  else if (22 ≤ d ∧ d ≤ 29) ∨ (55 ≤ d ∧ d ≤ 82) then .config
  else if 83 ≤ d then .fault
  else .always

/-- A domain is powered and released (DOM_STATE): a port's exactly while its MODE is not 0b00. -/
def State.domState (s : State) (d : Fin 108) : Bool :=
  match fin? 16 (d.val - 67) with
  | some n => if 67 ≤ d.val then s.isEth n || s.isReist n else s.domOn[d]
  | none => s.domOn[d]

/-- A bit of DOM_REQ as it reads (R391): bits of CONFIG and FAULT domains read their present state. -/
def State.domReq (s : State) (d : Fin 108) : Bool :=
  match domCtl d.val with
  | .config => s.domState d
  | .fault => s.domState d
  | _ => s.rb .power 0 (4 * (d.val / 32)) (d.val % 32)

/-- A word of bits, one for each domain 32w + i. -/
def domWord (f : Fin 108 → Bool) (w : Nat) : Word :=
  (List.range 32).foldl (fun v i => match fin? 108 (32 * w + i) with
    | some d => v ||| mkBit i (f d)
    | none => v) 0

/-- A KEEPER domain is idle (R390). -/
def State.domIdle (s : State) (d : Nat) : Bool :=
  if d = 2 then (List.range 32).all (fun u => !s.rb .stats u 0 31)
  else if d = 3 ∨ d = 4 then (islandLoops (d - 3)).all (fun n => !s.rb .loop n.val 0 31)
  else if d = 7 then (List.finRange 16).all (fun n => !(s.isEth n || s.isReist n))
  else if d = 8 ∨ d = 9 then (islandEngines (d - 8)).all (fun e => (s.engines[e]).run == .idle)
  else
    let g := if d ≥ 42 then d - 42 else d - 30
    (List.range 16).all (fun c =>
      let w := s.r .survey g (0x800 + 0x80 * c)
      decide (modeOf w = 0) && decide (bitsOf w 19 18 = 0 ∨ bitsOf w 19 18 = 3))
    && (List.range 24).all (fun i => match s.mapped i with
      | some ch => decide (ch.val / 16 ≠ g)
      | none => true)

/-- The start sheet declares the rail that feeds a domain unpowered (R392). -/
def State.railOff (s : State) (d : Nat) : Bool :=
  let g := if d ≥ 42 then d - 42 else d - 30
  decide (30 ≤ d ∧ d ≤ 53) && decide (s.boot.sheet.svRails.toNat / 4 ^ g % 4 = 3)

/-- One bit that a write of DOM_REQ by a keeper path reaches: the state, and whether the bit is refused (R390, R392). -/
def State.domBit (s : State) (d : Fin 108) (v : Bool) : State × Bool :=
  if domCtl d.val ≠ .keeper then (s, true)
  else if v = s.domReq d then (s, false)
  else
    let w := 4 * (d.val / 32)
    let bit (s : State) : State := s.setFld .power 0 w (d.val % 32) (d.val % 32) (b2n v)
    if v then
      if s.railOff d.val then (s, true)
      else ({ bit s with domRising := s.domRising.set d true }, false)
    else if s.domIdle d.val then
      ({ bit s with domOn := s.domOn.set d false, domRising := s.domRising.set d false }, false)
    else (s, true)

/-- A write of DOM_REQ word w reaches the bits of `sel`, one through the alias (R322): each acts by itself, and a write with a
refused bit counts once (R390, R391; log 155). -/
def State.domWrite (s : State) (w : Nat) (sel v : Word) : State :=
  let (s, bad) := (List.range 32).foldl (fun (p : State × Bool) i =>
    match fin? 108 (32 * w + i) with
    | some d => if bitOf sel i then let (s, b) := p.1.domBit d (bitOf v i); (s, p.2 || b) else p
    | none => p) (s, false)
  if bad then s.rcCount .power 0 0x20 15 0 else s

/-- The KEEPER domain that holds a register, if any (R330, R389). -/
def Place.domain (p : Place) : Option Nat :=
  match p.blk with
  | .stats => some 2
  | .loop => some (3 + p.inst % 2)
  | .pte => some 7
  | .engine => if 0x200 ≤ p.off ∧ p.off ≤ 0x300 then none else some (8 + p.inst / 4)
  | .survey => some (30 + p.inst)
  | _ => none

/-- The retired core of a group, applied again at every reset (R379): the relief core takes its channel. So it does that of a core
whose report or self-test is under way, `busy`, in the fault manager. -/
def Group.resetKeeping (old : Group) (busy : Bool) : Group :=
  let cores := Vector.ofFn (fun c : Fin 17 => { TdcCore.reset with retired := (old.cores[c]).retired })
  let tested := if busy then old.faultCore else none
  let fresh := { Group.reset with cores := cores, faultCore := tested, supplyHeld := old.supplyHeld, supplyBack := old.supplyBack }
  match ((List.finRange 17).find? (fun c => (old.cores[c]).retired)).or tested with
  | none => fresh
  | some c =>
    let base := { fresh with noRelief := true, relief := c }
    match fin? 16 c.val with
    | some i => { base with coreOf := base.coreOf.set i 16 }
    | none => base

/-- The fields of a domain's block that are no registers, at their reset values: a loop of a retired island stays FAILED (R379). A KEEPER
turns a domain off only while it is idle (R390); where the fault manager has cycled one that was not, an enabled loop and an engine in FAULT
return as R381 has left them (log 153). -/
def State.domClear (s : State) (d : Nat) : State :=
  if d = 2 then { s with units := Vector.replicate 32 StatUnit.reset }
  else if d = 3 ∨ d = 4 then (islandLoops (d - 3)).foldl (fun (s : State) n =>
    if s.loopEn n then s else s.modLoop n (fun _ => { Loop.reset with tally := Clock.startAt s.tick, rates := (Clock.startAt s.tick).segs, role := s.aloneRole n })) s
  else if d = 7 then { s with sessions := [], streams := Vector.replicate 32 Stream.reset, insts := Vector.replicate 8 Inst.reset }
  else if d = 8 ∨ d = 9 then (islandEngines (d - 8)).foldl (fun (s : State) e =>
    if (s.engines[e]).run = .fault then s else (s.modEng e (fun _ => Engine.reset)).modPath (.eng e) (fun q => { q with readHold := [], writeHold := [] })) s
  else match fin? 12 (d - 30) with
    | some g =>
      if 30 ≤ d then
        let s := (List.finRange 16).foldl (fun (s : State) c => s.modChan (chIx g c) (fun _ => Chan.reset)) s
        s.modGroup g (fun q => q.resetKeeping (s.groupBusy g))
      else s
    | none => s

/-- A domain that is powering up is released (R390): covered fields from the shadow, every other at its reset value. -/
def State.domRelease (s : State) (d : Fin 108) : State :=
  if s.domRising[d] = false then s
  else
    let mine (k : Nat) : Bool := match placeOfKey k with
      | some p => decide (p.domain = some d.val)
      | none => false
    let s := { s with domRising := s.domRising.set d false, domOn := s.domOn.set d true }
    let s := { s with
      regs := s.regs.filter (fun e => !mine e.1)
      rc := s.rc.filter (fun e => !mine (e.1 / 4)) }
    let s := (s.shadow.filter (fun e => mine e.1)).foldl (fun (s : State) e =>
      { s with regs := mapSet s.regs e.1 (mix (coverOf e.1) (resetWord e.1) e.2) (resetWord e.1) }) s
    (s.domClear d.val).refresh

/-- The fault block whose supply a domain is (R376, R382). -/
def domBlock (d : Nat) : Option Nat :=
  if d = 0 then none
  else if d ≤ 12 then [0x10, 0x51, 0x11, 0x12, 0x13, 0x14, 0x50, 0x52, 0x53, 0x5C, 0x5D, 0x5E][d - 1]?
  else if d = 13 then some 0x20
  else if d ≤ 29 then some (0x18 + (d - 14) % 8)
  else if d ≤ 53 then some ((d - 30) % 12)
  else if d = 54 then some 0x21
  else if d ≤ 66 then some (0x28 + (d - 55))
  else if d ≤ 82 then some (0x40 + (d - 67))
  else some 0x58

/-- A domain's supply leaves its range (R376): the notice from 0x077F, and the report of the block. -/
def State.supplyFault (s : State) (d : Fin 108) : State :=
  let s := s.raise 0x077F clsB 0x6B (args8 [byte d.val])
  if 83 ≤ d.val then s.bankReport (finMod 25 (d.val - 83)) 0xA
  else match domBlock d.val with
  | some b => s.report b 0xA
  | none => s

/-- The drivers of a group go off, or come back to the levels of their functions, at tick k (R445). -/
def State.groupDrive (s : State) (g : Fin 12) (on : Bool) (k : DWord) : State :=
  (List.finRange 16).foldl (fun (s : State) c =>
    let ch := chIx g c
    if (s.chans[ch]).drv = .off then s
    else s.emit (.drive ch (if on then (s.chans[ch]).drv else .off) k 0)) s

/-- A group whose rail is back resumes at a tick (R445): trailing edges due in the hold have come without an edge at the ball, ToD messages
due in it begin now. -/
def State.groupResume (s : State) (g : Fin 12) : State :=
  if (s.groups[g]).supplyBack = false then s
  else
    let s := (List.finRange 16).foldl (fun (s : State) c =>
      match s.cfgNow (chIx g c) with
      | some w => s.trailsTo (chIx g c) w (driveInstant s.tick 0 + 1)
      | none => s) s
    let s := (List.finRange 16).foldl (fun (s : State) c => s.lateOuts (chIx g c) 0) s
    (s.modGroup g (fun q => { q with supplyHeld := false, supplyBack := false })).groupDrive g true s.tick

/-- The rail of a survey group while the core is held in reset, where nothing is driven and no notice raised: the group is held, or
resumes at the first tick (R445). -/
def State.svRail (s : State) (g : Fin 12) (within : Bool) : State :=
  s.modGroup g (fun q => { q with supplyHeld := q.supplyHeld || !within, supplyBack := q.supplyHeld && within })

/-- A survey group's rail departs from its declaration, or has been back for 1 ms, so that the group resumes at the next tick
(R445): while it is held its balls are off, and `Chan.drv` is the level to which its functions have brought them (log 161). -/
def State.svMismatch (s : State) (g : Fin 12) (within : Bool) : State :=
  if (s.groups[g]).supplyHeld then s.modGroup g (fun q => { q with supplyBack := within })
  else if within then s
  else
    let s := (List.finRange 16).foldl (fun (s : State) c => s.holdOuts (chIx g c)) s
    ((s.groupDrive g false (s.tick + 1)).modGroup g (fun q => { q with supplyHeld := true })).raise 0x077F clsB 0x6B (args8 [byte (30 + g.val)])

/-! ## The start sheet's copies (R368, R370, R396) -/

/-- A byte of a copy: A at 0x08_0000, B at 0x0A_0000, 128 KiB each. -/
def State.copyBytes (s : State) (b : Bool) (i n : Nat) : List Byte :=
  (List.range n).map (fun j => s.arcByte (0x80000 + (b2n b) * 0x20000 + i + j))

/-- The set-up of a copy, if the copy is valid (R370, R396); a word that cannot be corrected fails the CRC. -/
def State.readCopy (s : State) (b : Bool) : Option SheetSetup :=
  let h := s.copyBytes b 0 20
  if s.arch.badIn (0x80000 + (b2n b) * 0x20000) 0x20000 then none
  else if h.take 5 ≠ [0x53, 0x54, 0x53, 0x48, 0x01] then none
  else
    let setup := (h.getD 5 0).toNat
    let len := beNat (h.drop 16)
    if setup / 64 = 3 ∨ 20 + len > 0x20000 - 8 then none
    else
      let body := s.copyBytes b 0 (0x20000 - 4)
      if crc32 body ≠ beNat (s.copyBytes b (0x20000 - 4) 4) then none
      else some {
        valid := true
        copyB := b
        oscIn := BitVec.ofNat 2 (setup / 64)
        ovenPol := setup.testBit 5
        signReq := setup.testBit 4
        lanes := setup.testBit 3
        svRails := BitVec.ofNat 24 (beNat ((h.drop 6).take 3))
        bankRails := BitVec.ofNat 24 (beNat ((h.drop 9).take 3))
        modelLoop := h.getD 12 0xFF
        seq := BitVec.ofNat 32 (beNat (s.copyBytes b (0x20000 - 8) 4)) }

/-- Codes of MODE (R402). -/
def Mode.num : Mode → Nat
  | .boot => 0
  | .test => 1
  | .service => 2
  | .recovery => 3

/-- No sheet byte is listed in the archive: both copies read 0 and are invalid. -/
def State.noCopy (s : State) : Bool :=
  s.arch.cells.all (fun e => decide (e.1 < 0x80000 ∨ 0xC0000 ≤ e.1))

/-- The copy the device uses (R370): the valid one with the higher sequence number; none leaves OSC_SEL to decide (R397). -/
def State.chooseSheet (s : State) (osc : BitVec 2) : SheetSetup :=
  if s.noCopy then SheetSetup.none osc
  else match s.readCopy false, s.readCopy true with
    | some a, some b => if b.seq.toNat > a.seq.toNat then b else a
    | some a, none => a
    | none, some b => b
    | none, none => SheetSetup.none osc

/-- RECOV_WHY as it reads (R402): each cause that was found, until it has gone: a cartouche whose CRC is valid, a valid copy that
a keeper has written since (log 152). -/
def State.recovNow (s : State) : BitVec 4 :=
  let why := s.boot.recovWhy
  let gone (n : Nat) (f : Bool) : BitVec 4 := if why.getLsbD n && f then 1 <<< n else 0
  why ^^^ gone 0 s.cartSound ^^^ gone 1 (!s.noCopy && (s.chooseSheet 0).valid)

/-! ## Resets (R393 to R395) -/

/-- A register of the standby island: FAULT, POWER, ARCHIVE, MODBUS and SIDEBAND (R24). -/
def standbyKey (k : Nat) : Bool :=
  decide ((0x6000 ≤ k ∧ k < 0x8000) ∨ (0x98000 ≤ k ∧ k < 0x99000) ∨ (0xA0000 ≤ k ∧ k < 0xA2000))

/-- A domain after a reset of the core (R389, R394, R404): CONFIG domains off, KEEPER domains by DOM_REQ. -/
def State.domAfterReset (s : State) (d : Fin 108) : Bool :=
  match domCtl d.val with
  | .config => false
  | .keeper => s.rb .power 0 (4 * (d.val / 32)) (d.val % 32) && !s.railOff d.val
  | _ => true

/-- What the standby island keeps through a core reset: the oven's pin and clock, the model in the archive. -/
def Oven.resetKeeping (o : Oven) (a : Archive) : Oven :=
  { Oven.reset with
    pin := o.pin, debounced := o.debounced, stbyRc := o.stbyRc, oscLost := o.oscLost
    modelA := a.ovenA, modelKt := a.ovenKt, modelValid := a.ovenValid, blocks := o.blocks, newBlocks := o.newBlocks
    tempOwed := o.tempOwed, statusOwed := o.statusOwed }

/-- A change of mode (R401): the notice and the archive log. -/
def State.setMode (s : State) (m : Mode) : State :=
  if s.boot.mode = m then s
  else
    let old := s.boot.mode
    let s := (s.modBoot (fun b => { b with mode := m, serviceWait := false })).log (.mode (BitVec.ofNat 2 m.num))
    s.raise 0x0802 clsA 0x33 (args8 [byte old.num, byte m.num, byte s.recovNow.toNat])

/-- A change into SERVICE, which waits for the snapshot in progress (R401). -/
def State.toService (s : State) : State :=
  if s.snapBusy then s.modBoot (fun b => { b with serviceWait := true }) else s.setMode .service

/-- The change into SERVICE that waited. -/
def State.serviceDue (s : State) : State :=
  if s.boot.serviceWait && !s.snapBusy then s.setMode .service else s

/-- The archive counts a core reset by its source (R368, R394). -/
def State.countReset (s : State) (cause : Nat) : State :=
  s.arcCount (fun c => match fin? 4 cause with
    | some i => { c with resets := c.resets.set i (c.resets[i] + 1) }
    | none => c)

/-- The notice of the change to BOOT waits in the queue that the reset has cleared (R401). -/
def State.bootNotice (s : State) (old : Mode) : State :=
  { ({ s with coreUp := true }).raise 0x0802 clsA 0x33 (args8 [byte old.num, 0, 0]) with coreUp := s.coreUp }

/-- What a reset of the core leaves (R393, R394): every core domain resets, the standby island with the side-band's path and the archive
keep their state; the change of mode is logged (R401). -/
def State.coreCleared (s0 : State) (cause : BitVec 4) : State :=
  let s := if s0.boot.mode = .boot then s0 else s0.log (.mode 0)
  { State.reset with
    pending := s.pending
    coreUp := false
    ticking := false
    regs := s.regs.filter (fun e => standbyKey e.1)
    rc := s.rc.filter (fun e => standbyKey (e.1 / 4))
    shadow := s.shadow.filter (fun e => standbyKey e.1)
    paths := State.reset.paths.set 2 s.paths[2]
    groups := Vector.ofFn (fun g : Fin 12 => (s.groups[g]).resetKeeping (s.groupBusy g))
    syns := Vector.replicate 9 Syn.reset
    mem := { Memory.reset with
      remap := s.mem.remap, spareUsed := s.mem.spareUsed, spareBad := s.mem.spareBad, spareFor := s.mem.spareFor
      mirror := s.mem.mirror, retiring := s.mem.retiring, testBank := s.mem.testBank, bankWait := s.mem.bankWait }
    arch := s.arch
    fm := s.fm
    sideband := s.sideband
    mbs := s.mbs.map MbPort.unclocked
    gaz := s.gaz
    peerMir := s.peerMir
    xfer := s.xfer
    oven := s.oven.resetKeeping s.arch
    boot := { Boot.reset s.boot.straps with rcause := cause, sheet := s.boot.sheet, seqShadow := s.boot.seqShadow }
    domOn := Vector.ofFn s.domAfterReset
    cartOk := s.cartOk
    emitted := s.emitted
    freeCtr := s.freeCtr }

/-- The core goes into reset and stays there until reset release (R393, R394). -/
def State.coreReset (s0 : State) (cause : BitVec 4) : State :=
  let t := s0.coreCleared cause
  if s0.boot.mode = .boot then t else t.bootNotice s0.boot.mode

/-- A reset source acts on a core that is out of reset (R394). -/
def State.resetCore (s : State) (cause : BitVec 4) : State :=
  if s.coreUp then (s.countReset cause.toNat).coreReset cause else s

/-- The retirements in the archive log, by block (R379): the newest entry about a block decides (log 159). -/
def Archive.retired (a : Archive) (i : Fin 128) : Bool :=
  a.readLog.find? (fun e => decide (e = .retire i ∨ e = .service i)) == some (.retire i)

/-- A block is retired, or still so under a self-test that UNRETIRE has asked for; of a survey group its shared stages (R379). -/
def State.retiredYet (s : State) (i : Fin 128) : Bool :=
  let b := s.fm.blks[i]
  b.st == .retired || (b.st == .testing && (b.shared || (b.unret && decide (12 ≤ i.val) && decide (i.val ≠ 0x58))))

/-- Standby power-on or brown-out (R394): everything resets, the archive keeps its content and its retirements. -/
def State.standbyReset (s0 : State) (st : Straps) : State :=
  let s := s0.coreCleared 0
  let blks := Vector.ofFn (fun i : Fin 128 =>
    if s0.retiredYet i ∧ s0.arch.retired i then { Blk.reset with st := .retired, shared := decide (i.val < 12) } else Blk.reset)
  let t : State := { s with
    regs := []
    rc := []
    shadow := []
    paths := State.reset.paths
    mem := Memory.reset
    fm := ⟨blks, []⟩
    groups := Vector.ofFn (fun g : Fin 12 => (s0.groups[g]).resetKeeping false)
    sideband := SideBand.reset
    mbs := Vector.replicate 2 MbPort.reset
    gaz := Vector.replicate 64 Gaz.reset
    peerMir := (0, 0)
    xfer := Xfer.reset
    oven := { s.oven with debounced := false, stbyRc := false, oscLost := false, tempOwed := false, statusOwed := false }
    boot := Boot.reset { Straps.reset with sbKeeper := st.sbKeeper, sbAddr := st.sbAddr }
    domOn := State.reset.domOn }
  if s0.boot.mode = .boot then t.countReset 0 else (t.countReset 0).bootNotice s0.boot.mode

/-- The bank retirements of the archive log serve again through the spare (R366, R379). -/
def State.reapplyBanks (s : State) : State :=
  match s.arch.readLog.findSome? (fun e => match e with
    | .retireBank p => some (some p)
    | .service i => if i = 0x58 then some none else none
    | _ => none) with
  | some (some p) =>
    if s.mem.spareUsed then s
    else match s.mem.logical p with
      | some l => { s with mem := { s.mem with remap := s.mem.remap.set l 24, spareUsed := true, spareFor := p } }
      | none => s
  | _ => s

/-- Retired blocks as they stand from reset release (R379): loops FAILED, engines in FAULT, datum clocks to be reloaded. -/
def State.reapplyBlocks (s : State) : State :=
  let s := { s with reloadDue := Vector.ofFn (fun k : Fin 2 => s.blkRetired (0x13 + k.val)) }
  let s := [0, 1].foldl (fun (s : State) k =>
    if s.blkRetired (0x11 + k) then (islandLoops k).foldl (fun (s : State) n => s.modLoop n (fun l => { l with role := .failed })) s else s) s
  [0, 1].foldl (fun (s : State) k =>
    if s.blkRetired (0x52 + k) then (islandEngines k).foldl (fun (s : State) e => s.modEng e (fun g => { g with run := .fault })) s else s) s

/-- Reset release (R393, R395, R404, R405), once OSC_IN is present: straps, the start sheet's set-up, retirements, the SYNB lock
sequence; RECOV_WHY shows a missing copy and RECOV_N (R401, log 152). While the
debounce that a change of active level restarts is running, the level is inactive (DESIGN CHOICE, log 136). -/
def State.release (s : State) (st : Straps) : State :=
  if s.coreUp ∨ s.oven.oscLost then s
  else
    let straps := { st with sbKeeper := s.boot.straps.sbKeeper, sbAddr := s.boot.straps.sbAddr }
    let sheet := s.chooseSheet st.oscSel
    let s := { s with coreUp := true }
    let pol (x : SheetSetup) : Bool := if x.valid then x.ovenPol else true
    let s := if pol sheet = pol s.boot.sheet then s
      else s.modOven (fun o => { o with debounced := false, pinAt := some s.tick })
    let s := s.modBoot (fun b => { b with
      straps := straps, sheet := sheet, seqShadow := sheet.seq, chosen := true
      recovWhy := BitVec.ofNat 4 (2 * b2n (!sheet.valid) + 4 * b2n (!straps.recovN)) })
    let s := { s with domOn := Vector.ofFn s.domAfterReset }
    let s := (s.reapplyBanks).reapplyBlocks
    let n0 : DWord := BitVec.ofNat 64 (625 * 2 ^ 48)
    (s.startLock 8).modSyn 8 (fun q => { q with n0 := n0, nfb := n0 })

/-! ## Firmware and modes (R398 to R403) -/

/-- The QSPI slot that the archive log records as active (R398); slot 0 before any record. -/
def Archive.activeSlot (a : Archive) : Bool :=
  (a.readLog.findSome? (fun e => match e with | .slot n => some n | _ => none)).getD false

/-- The steward starts from the image of a QSPI slot (R398). -/
def Boot.fromSlot (b : Boot) (slot : Bool) : Boot :=
  { b.runs (b2n slot) with stewardUp := true, fwOk := true, fwSlot := slot, fwHost := false }

/-- The boot ROM waits for an image from the host (R399). -/
def State.awaitImage (s : State) : State :=
  s.modBoot (fun b => { b with awaitHost := true, awaitAt := s.tick })

/-- The boot ROM reads QSPI, the active slot first; BOOT_HOST or two failures leave it to the host (R398, R399). It runs on the
steward, while block 0x5C is in service. -/
def State.firmwareBoot (s : State) (ok0 ok1 : Bool) : State :=
  if s.boot.sheetDone = false ∨ s.boot.fwOk ∨ s.boot.awaitHost ∨ s.blkUp 0x5C = false then s
  else
    let first := s.arch.activeSlot
    let ok (n : Bool) : Bool := if n then ok1 else ok0
    if s.boot.straps.bootHost then s.awaitImage
    else
      let s := s.qspiRead first
      if ok first then s.modBoot (fun b => b.fromSlot first)
      else
        let s := s.verifyFailed.qspiRead (!first)
        if ok (!first) then s.modBoot (fun b => b.fromSlot (!first))
        else s.verifyFailed.awaitImage

/-- The host's image is verified (R399): accepted, or the host may try again. -/
def State.hostImage (s : State) (ok : Bool) : State :=
  if s.boot.awaitHost = false ∨ s.blkUp 0x5C = false then s
  else if ok then
    s.modBoot (fun b => { (b.runs 2) with
      awaitHost := false, stewardUp := true, fwOk := true, fwHost := true, recovWhy := b.recovWhy &&& 0x7 })
  else s.verifyFailed

/-- 10 s without an accepted image: RECOVERY, and the device goes on waiting (R399, R401). -/
def State.hostTimeout (s : State) : State :=
  if s.boot.awaitHost && s.passed s.boot.awaitAt (10 * secTicks) then
    let s := s.modBoot (fun b => { b with recovWhy := b.recovWhy ||| 0x8 })
    if s.boot.mode = .boot ∧ s.boot.sheetDone then s.setMode .recovery else s
  else s

/-- The boot ROM checks the cartouche, before the first record (R371, R405). -/
def State.cartCheck (s : State) : State :=
  let ok := s.cartSound
  { s.modBoot (fun b => if ok then b else { b with recovWhy := b.recovWhy ||| 1 }) with cartOk := ok }

/-- The start sheet has been applied (R397). -/
def State.sheetEnds (s : State) : State :=
  s.modBoot (fun b => { b with sheetDone := true })

/-- BOOT ends (R401): in SERVICE with a valid copy applied, firmware that runs and no cause for RECOVERY. -/
def State.bootComplete (s : State) : State :=
  if s.boot.mode ≠ .boot ∨ s.boot.sheetDone = false then s
  else if s.recovNow ≠ 0 ∨ s.boot.sheet.valid = false then s.setMode .recovery
  else if s.boot.stewardUp then s.toService
  else s

/-- MODE_GO by a keeper (R401, R403). -/
def State.modeGo (s : State) (to_ : Nat) : State :=
  match s.boot.mode, to_ with
  | .service, 1 => s.setMode .test
  | .test, 2 => s.toService
  | .service, 3 => s.setMode .recovery
  | .test, 3 => s.setMode .recovery
  | .recovery, 2 =>
    if s.recovNow = 0 ∧ s.boot.stewardUp then s.toService else s.count .device 0 0x24 15 0
  | _, _ => s.count .device 0 0x24 15 0

/-- A write of DEVICE.CMD by a keeper (R403): two RESET_CORE within 1 ms reset the core. -/
def State.deviceCmd (s : State) (v : Word) : State :=
  let s := if bitOf v 25 then s.modeGo (bitsOf v 27 26) else s
  if bitOf v 31 then
    match s.boot.resetArm with
    | some k => if s.passed k (msTicks + 1) then s.modBoot (fun b => { b with resetArm := some s.tick }) else s.resetCore 3
    | none => s.modBoot (fun b => { b with resetArm := some s.tick })
  else s

/-- The instructions of the JTAG test access port that the spec names (R400). -/
inductive TapInstr where
  | idcode
  | bypass
  | extest
  | other
  deriving DecidableEq, Repr

/-- The mode permits a JTAG instruction: any but IDCODE and BYPASS, EXTEST included, in TEST alone (R400). -/
def State.tapPermits (s : State) : TapInstr → Bool
  | .idcode => true
  | .bypass => true
  | .extest => s.boot.mode == .test
  | .other => s.boot.mode == .test

/-- PERST_N (R394): the HOST island alone. -/
def State.perst (s : State) : State :=
  let s := { s with funcs := Vector.replicate 2 Func.reset, linkUp := false, linkSpeed := 0, linkWidth := 0 }
  [Path.f0, .f1].foldl (fun (s : State) p => s.modPath p (fun q => { PathSt.reset with snapView := q.snapView })) s

/-- A function-level reset (R317): configuration, MSI-X, holdings and the indirect pair of one function. -/
def State.flr (s : State) (f : Fin 2) : State :=
  let s := { s with funcs := s.funcs.set f Func.reset }
  s.modPath (if f = 0 then .f0 else .f1) (fun q => { PathSt.reset with snapView := q.snapView })

/-! ## The oven model (R131) -/

/-- Least squares of f = c + A·t + KT·T over blocks, newest first, t in blocks' time of 1,024 s: exact sums, round_ne;
none where the blocks do not determine the coefficients. A coefficient beyond its s32 saturates (DESIGN CHOICE, log 167). -/
def fitModel (bs : List (Int × Int)) : Option (Int × Int) :=
  let pts := (List.range bs.length).zip bs.reverse
  let n : Int := bs.length
  let sum (f : Nat × Int × Int → Int) : Int := pts.foldl (fun a p => a + f p) 0
  let t (p : Nat × Int × Int) : Int := ((1024 * p.1 : Nat) : Int)
  let (st, sz, sy) := (sum t, sum (·.2.2), sum (·.2.1))
  let stt := n * sum (fun p => t p * t p) - st * st
  let szz := n * sum (fun p => p.2.2 * p.2.2) - sz * sz
  let stz := n * sum (fun p => t p * p.2.2) - st * sz
  let sty := n * sum (fun p => t p * p.2.1) - st * sy
  let szy := n * sum (fun p => p.2.2 * p.2.1) - sz * sy
  let det := stt * szz - stz * stz
  if det ≤ 0 then none
  else some (satS 32 (roundDiv (sty * szz - szy * stz) det.toNat), satS 32 (roundDiv (szy * stt - sty * stz) det.toNat))

/-- The oven model is written to the archive (R131, R368): its area's words are sound again. -/
def Archive.putModel (m : Archive) (a kt : Int) (valid : Bool) : Archive :=
  { m with ovenA := a, ovenKt := kt, ovenValid := valid, bad := m.bad.filter (fun w => decide (w / 512 ≠ 0x70)) }

/-- The ageing where T is the same in every block: the least-squares slope of f over t, which KT leaves as it is (R131). -/
def fitAgeing (bs : List (Int × Int)) : Option Int :=
  let pts := (List.range bs.length).zip bs.reverse
  let n : Int := bs.length
  let sum (f : Nat × Int × Int → Int) : Int := pts.foldl (fun a p => a + f p) 0
  let t (p : Nat × Int × Int) : Int := ((1024 * p.1 : Nat) : Int)
  let (st, sz, sy) := (sum t, sum (·.2.2), sum (·.2.1))
  let stt := n * sum (fun p => t p * t p) - st * st
  let sty := n * sum (fun p => t p * p.2.1) - st * sy
  if n * sum (fun p => p.2.2 * p.2.2) = sz * sz ∧ 0 < stt then some (satS 32 (roundDiv sty stt.toNat)) else none

/-- The oldest complete block of 1,024 qualifying seconds is taken: it is held, the model is fitted, and archived after every
64th new block (R131); PROTECT 0b11 blocks the writer (R373). -/
def State.modelBlock (s : State) : State :=
  match s.oven.blockDone with
  | [] => s
  | b :: rest =>
    let s := s.modOven (fun o => { o with blockDone := rest })
    if s.rf .archive 0 0 31 30 = 3 then s.count .archive 0 8 31 0
    else
      let s := s.modOven (fun o => { o with blocks := (b :: o.blocks).take 256, newBlocks := o.newBlocks + 1 })
      let s := if s.oven.blocks.length < 64 then s
        else match fitModel s.oven.blocks with
          | some (a, kt) => s.modOven (fun o => { o with modelA := a, modelKt := kt, modelValid := true })
          | none =>
            let (a, s) := s.free
            let (kt, s) := s.free
            s.modOven (fun o => { o with modelA := (fitAgeing s.oven.blocks).getD (a.setWidth 32).toInt, modelKt := (kt.setWidth 32).toInt, modelValid := true })
      if s.oven.newBlocks % 64 = 0 then
        { s with arch := s.arch.putModel s.oven.modelA s.oven.modelKt s.oven.modelValid }
      else s

/-- MODEL_CLEAR by a keeper (R131); the model's record in the archive is blocked at PROTECT 0b11 and then lost (R373). -/
def State.modelClear (s : State) : State :=
  let s := s.modOven (fun o => { o with modelA := 0, modelKt := 0, modelValid := false })
  let s := s.bookConfig 0 0x06 0 0 0
  if s.rf .archive 0 0 31 30 = 3 then (s.count .archive 0 8 31 0).log .modelClear
  else ({ s with arch := s.arch.putModel 0 0 false }).log .modelClear

/-! ## The SYNB relock and the datum reload (R380) -/

/-- A clock advances by k increments in one update, up to tick k1. Its time stays on the line of the segment in force, and
no segment begins (R41), but where a slew makes that line another. -/
def Clock.leapBy (c : Clock) (k : Nat) (k1 : DWord) : Clock :=
  let t := Tm.ofInt56 (c.now.toInt56 + ((k * c.inc.toNat : Nat) : Int))
  let c' : Clock := { c with now := t }
  if (c.segs.headD ⟨0, c.now, c.inc, c.n, false⟩).slew then c'.newSeg ⟨k1, t, c.inc, c.n, true⟩ else c'

/-- SYNB relocks (R380): every tick index advances by 625 m, every datum clock, tally and mirror by 625 m increments;
the survey outputs go on. -/
def State.synbRelock (s : State) (m : Nat) : State :=
  let k := 625 * m
  let was := s.tick
  let tick := was + BitVec.ofNat 64 k
  let before := s.datums.map (fun x => x.clk.now.epoch)
  let s := (s.modSyn 8 (fun q => { q with phase := .locked, seqOn := false, onGrid := true, failRow := 0 }))
  let s := { s with
    ticking := true
    tick := tick
    islandTick := Vector.replicate 16 tick
    datums := s.datums.map (fun x => { x with clk := x.clk.leapBy k tick, mirs := x.mirs.map (fun m => m.leapBy k tick) })
    loops := s.loops.map (fun l => { l with tally := l.tally.leapBy k tick }) }
  let s := overFin 8 s (fun d s =>
    if ((s.datums[d]).clk.now).epoch = before[d] then s else s.epochGroup d false before[d])
  (overFin 192 s (fun ch s => s.resumeOuts ch was)).refresh

/-- The outputs of a datum island, which have held their level, go on (R380). -/
def State.latecomers (s : State) (isl : Fin 2) : State :=
  overFin 192 s (fun ch s => if datIsl (cfgDatum (s.cfgAct ch)) = isl then s.resumeOuts ch 0 else s)

/-- The clocks of a datum island are reloaded from the mirrors of a sound engine island, and the island resumes (R380, R381): no
step, an EPOCH record only where the epoch number changes. -/
def State.datumReload (s : State) (isl : Fin 2) : State :=
  match s.mirrorIsl with
  | none => s
  | some m =>
    if s.reloadDue[isl] = false ∨ s.blkUp (0x13 + isl.val) = false then s
    else
      let s := { s with reloadDue := s.reloadDue.set isl false }
      let s := overFin 8 s (fun d s =>
        if datIsl d ≠ isl then s
        else
          let e := (s.datums[d]).clk.now.epoch
          let s := s.modDatum d (fun x => { x with clk := x.mirs[m] })
          if (s.datums[d]).clk.now.epoch = e then s else s.epochGroup d false e)
      s.latecomers isl

end Sys2Proof.Machine
end

