-- ==== Sys2Proof/Machine/ModBusOps.lean ====
section
/-! DEFINITION. The Ouvtur module bus and the gazetteer (R340 to R352). -/

namespace Sys2Proof.Machine

/-! ## Identities and frames (R342, R343) -/

/-- CHECK of an identity: CRC-12 over bits 63:12. -/
def identCheck (v : BitVec 64) : Nat :=
  (List.range 52).foldl (fun c i => crcBit 12 0x80F c (v.getLsbD (63 - i))) 0xFFF

/-- TYPE of an identity. -/
def identType (v : BitVec 64) : Nat :=
  v.toNat / 2 ^ 40 % 256

/-- The identity is one the controller keeps (R342). -/
def identOk (v : BitVec 64) : Bool :=
  decide (v ≠ 0) && decide (identType v ≠ 0) && decide (identType v ≠ 0xFF) && decide (identCheck v = v.toNat % 2 ^ 12)

/-- The CRC-16 of the bus. -/
def mbCrc (bs : List Byte) : List Byte :=
  beBytes 2 (crc 16 0x1021 0xFFFF bs)

/-- The identity of this device as a PEER target (R350). -/
def peerIdent : BitVec 64 :=
  let hi := ((Config.peerMaker.toNat * 256 + 4) * 2 ^ 28 + Config.peerSerial.toNat) * 2 ^ 12
  BitVec.ofNat 64 (hi + identCheck (BitVec.ofNat 64 hi))

/-! ## Ports -/

/-- CFG of a port (R351). -/
def State.mbCfgWord (s : State) (p : Fin 2) : Word :=
  s.r .modbus 0 (0x20 * p.val)

/-- The port runs and its line serves transactions (R349, R351). -/
def State.mbRuns (s : State) (p : Fin 2) : Bool :=
  let q := (s.mbs[p]).pstate
  bitOf (s.mbCfgWord p) 31 && decide (q = .idle ∨ q = .busy ∨ q = .traverse)

/-- Change the entries of one port. -/
def State.gazOf (s : State) (p : Fin 2) (f : Gaz → Gaz) : State :=
  { s with gaz := s.gaz.map (fun g => if g.valid && g.port == decide (p.val = 1) then f g else g) }

/-- Sticky bits of a port (R434). -/
def State.mbSticky (s : State) (p : Fin 2) (mask : Word) : State :=
  s.rcSet .modbus 0 (0x20 * p.val + 8) mask

/-- A traverse is triggered (R346): it starts, or starts again as soon as the present one ends. -/
def State.mbTrigger (s : State) (p : Fin 2) : State :=
  if s.mbRuns p = false then s
  else if (s.mbs[p]).trav.isSome then s.modMb p (fun q => { q with travAgain := true })
  else s.modMb p (fun q => { q with pstate := .traverse, trav := some ⟨0, false, false, [], []⟩, travAgain := false, travOwed := false })

/-- A frame of the port has ended (R345): its losses in a row are forgotten. -/
def State.mbEnded (s : State) (p : Fin 2) (frame : List Byte) : State :=
  s.modMb p (fun q => { q with arb := q.arb.filter (fun e => decide (e.1 ≠ frame)) })

/-- The first frame of a pass (R347). -/
def passFrame (floor : BitVec 64) : List Byte :=
  [0xC3#8] ++ beBytes 8 floor.toNat

/-- A traverse ends: what it found with no ATTACH seen is PRESENT (R348); the next one waits, or the port idles. -/
def State.mbTravEnd (s : State) (p : Fin 2) : State :=
  let q := s.mbs[p]
  let s := match q.trav with
    | none => s
    | some t => (s.mbEnded p (passFrame t.floor)).gazOf p (fun g =>
      if t.found.contains g.ident ∧ t.attachSeen = false ∧ g.state = 1 then { g with state := 0 } else g)
  let s := s.modMb p (fun q => { q with pstate := .idle, trav := none, travAgain := false, travEnd := s.mark })
  if q.travAgain then s.mbTrigger p else s

/-- A module's ATTACH low (R346, R348). -/
def State.mbAttach (s : State) (p : Fin 2) : State :=
  if s.mbRuns p = false then s
  else
    let s := s.mbSticky p 0x40000000
    match (s.mbs[p]).trav with
    | none => s.mbTrigger p
    | some t =>
      let s := s.modMb p (fun q => { q with trav := some { t with attachSeen := true }, travAgain := true })
      if t.fresh.isEmpty then s
      else (s.gazOf p (fun g => if t.fresh.contains g.ident then { g with state := 1 } else g)).mbSticky p 0x10000000

/-! ## Entries (R350) -/

/-- The index a new identity takes: its former one, else the lowest never used, else the lowest freed. -/
def State.gazIndex (s : State) (v : BitVec 64) : Option (Fin 64) :=
  let pick (f : Gaz → Bool) : Option (Fin 64) := (List.finRange 64).find? (fun i => f s.gaz[i])
  match pick (fun g => decide (g.ident = v)) with
  | some i => some i
  | none => match pick (fun g => !g.valid && decide (g.ident = 0)) with
    | some i => some i
    | none => pick (fun g => !g.valid)

/-- An identity found by a pass is entered (R347, R348, R350); a switch's path delays are to be read. -/
def State.gazEnter (s : State) (p : Fin 2) (t : Trav) (v : BitVec 64) : State :=
  match s.gazIndex v with
  | none => s.count .modbus 0 0x44 15 0
  | some i =>
    let g := s.gaz[i]
    if g.valid ∧ g.ident = v then
      s.modGaz i (fun g => { g with
        port := decide (p.val = 1), misses := 0, state := if g.state = 2 then 0 else g.state, owed := decide (identType v = 3) })
    else
      let s := s.modGaz i (fun _ => ⟨true, decide (p.val = 1), if t.attachSeen then 1 else 0, v, 0, Vector.replicate 4 0, decide (identType v = 3)⟩)
      let s := s.modMb p (fun q => { q with trav := q.trav.map (fun t => { t with fresh := v :: t.fresh }) })
      if t.attachSeen then s.mbSticky p 0x10000000 else s

/-- A traverse that no target answers further (R347, R348): what it did not find is dropped. -/
def State.mbTravDone (s : State) (p : Fin 2) (t : Trav) : State :=
  let mine (g : Gaz) : Bool := g.valid && g.port == decide (p.val = 1)
  let gone := s.gaz.toList.any (fun g => mine g && !t.found.contains g.ident)
  let s := s.gazOf p (fun g => if t.found.contains g.ident then g else { g with valid := false })
  let s := if gone then s.mbSticky p 0x20000000 else s
  s.mbTravEnd p

/-- One transaction addressed to an entry failed with NOTARGET or CHECK (R349, R350): the third in a row makes the entry
UNREACHABLE and starts a traverse. -/
def State.gazMiss (s : State) (i : Fin 64) : State :=
  let g := s.gaz[i]
  let s := s.modGaz i (fun g => { g with misses := Nat.min 15 (g.misses + 1), state := if g.misses ≥ 2 then 2 else g.state })
  if g.misses = 2 then s.mbTrigger (if g.port then 1 else 0) else s

/-- A transaction to an entry succeeded. -/
def State.gazHit (s : State) (i : Fin 64) : State :=
  s.modGaz i (fun g => { g with misses := 0 })

/-! ## Outcomes (R352) -/

/-- RESULT codes. -/
inductive MbRes where
  | ok
  | notarget
  | check
  | refused
  | arbLimit
  | stuck
  | isolated
  | busy
  deriving DecidableEq, Repr

def MbRes.num : MbRes → BitVec 4
  | .ok => 0
  | .notarget => 1
  | .check => 2
  | .refused => 3
  | .arbLimit => 4
  | .stuck => 5
  | .isolated => 6
  | .busy => 7

/-- Losses in a row of a frame (R345). -/
def MbPort.losses (q : MbPort) (frame : List Byte) : Nat :=
  match q.arb.find? (fun e => decide (e.1 = frame)) with
  | some e => e.2
  | none => 0

/-- A lost arbitration (R344, R345): counted; the sixteenth in a row ends the frame with ARB_LIMIT. -/
def State.mbArbLost (s : State) (p : Fin 2) (frame : List Byte) : State × Bool :=
  let k := (s.mbs[p]).losses frame + 1
  let s := (s.count .modbus 0 (0x20 * p.val + 4) 15 0).mbEnded p frame
  if k ≥ 16 then (s, true)
  else (s.modMb p (fun q => { q with arb := (frame, k) :: q.arb }), false)

/-- A transaction begins with a WAKE, at which the port takes SPEED as CFG holds it (R341, R351). -/
def State.mbWake (s : State) (p : Fin 2) : State :=
  s.modMb p (fun q => { q with fast := bitOf (s.mbCfgWord p) 30 })

/-- A frame goes out on a port, behind its WAKE (R343, R344): none where the roll-call cell finds no target; where it loses, what it drove
before the lost bit. -/
def State.mbSend (s : State) (p : Fin 2) (frame : List Byte) (e : MbEnd) : State :=
  match e with
  | .noTarget => s.mbWake p
  | .arbLost bit => (s.mbWake p).emit (.mbPart p frame (Nat.min bit (8 * frame.length)))
  | _ => (s.mbWake p).emit (.mb p frame)

/-- The outcome of a READ transaction of n bytes: none to retry, else the result and the data; with it the entry's
misses. -/
def State.mbReadEnd (s : State) (p : Fin 2) (i : Fin 64) (n : Nat) (frame : List Byte) (e : MbEnd) :
    Option (MbRes × List Byte) × State :=
  match e with
  | .arbLost _ =>
    let (s, lim) := s.mbArbLost p frame
    (if lim then some (.arbLimit, []) else none, s)
  | .stuck => (some (.stuck, []), s.mbEnded p frame)
  | .noTarget => (some (.notarget, []), (s.mbEnded p frame).gazMiss i)
  | .answered bs =>
    let s := s.mbEnded p frame
    let d := bs.take n
    if 1 ≤ n ∧ n ≤ 32 ∧ bs.length = n + 2 ∧ bs.drop n = mbCrc d then (some (.ok, d), s.gazHit i)
    else (some (.check, []), s.gazMiss i)

/-- The outcome of a WRITE transaction (R343): ACK 0x3C accepted, 0xFF no ACK, any other refused. -/
def State.mbWriteEnd (s : State) (p : Fin 2) (i : Fin 64) (n : Nat) (frame : List Byte) (e : MbEnd) : Option MbRes × State :=
  match e with
  | .arbLost _ =>
    let (s, lim) := s.mbArbLost p frame
    (if lim then some .arbLimit else none, s)
  | .stuck => (some .stuck, s.mbEnded p frame)
  | .noTarget => (some .notarget, (s.mbEnded p frame).gazMiss i)
  | .answered bs =>
    let s := s.mbEnded p frame
    match bs with
    | [a] =>
      if n = 0 ∨ 32 < n ∨ a = 0xFF then (some .notarget, s.gazMiss i)
      else if a = 0x3C then (some .ok, s.gazHit i)
      else (some .refused, s.gazHit i)
    | _ => (some .check, s.gazMiss i)

/-! ## Requests (R352) -/

/-- Fields of the XFER request: WRITE, ENTRY, REG, LEN. -/
def Xfer.write (x : Xfer) : Bool := bitOf x.cmd 30
def Xfer.entry (x : Xfer) : Fin 64 := finMod 64 (bitsOf x.cmd 29 24)
def Xfer.reg (x : Xfer) : Byte := byte (bitsOf x.cmd 23 16)
def Xfer.len (x : Xfer) : Nat := bitsOf x.cmd 5 0

/-- The port of an entry. -/
def Gaz.mb (g : Gaz) : Fin 2 := if g.port then 1 else 0

/-- The XFER request ends. -/
def State.xferEnd (s : State) (r : MbRes) : State :=
  { s with xfer := { s.xfer with done := true, result := r.num } }

/-- An XFER request waits on a port. -/
def State.xferOn (s : State) (p : Fin 2) : Bool :=
  !s.xfer.done && decide ((s.gaz[s.xfer.entry]).mb = p)

/-- The entry of a link port's switch waits for a command or its confirmation on bus port p (R265, R352). -/
def State.switchOn (s : State) (p : Fin 2) (i : Fin 64) (n : Fin 16) : Bool :=
  (s.ports[n]).r.cmdWait && decide (bitsOf (s.rlink n) 7 0 = i.val) && (s.oswitch n).isSome && decide ((s.gaz[i]).mb = p)

/-- The link port whose switch command uses entry i. -/
def State.switchPort (s : State) (p : Fin 2) (i : Fin 64) : Option (Fin 16) :=
  (List.finRange 16).find? (fun n => s.switchOn p i n)

/-- Some switch command waits on the port. -/
def State.switchWaits (s : State) (p : Fin 2) : Bool :=
  (List.finRange 64).any (fun i => (s.switchPort p i).isSome)

/-- The switch confirms the commanded position, which has been written to it (R265, R267, R350); outside a swap REVERSED shows
it at once (R253), in a swap at the relock (R265). -/
def State.switchConfirmed (s : State) (n : Fin 16) : State :=
  let rev := decide (s.switchPos n = 1)
  s.modReist n (fun r => { r with cmdWait := false, posSent := false, reversed := if r.lstate = .swap then r.reversed else rev })

/-- A write of XFER_CMD by a keeper path or the steward (R352). -/
def State.xferGo (s : State) (v : Word) : State :=
  if bitOf v 31 = false then s
  else if s.xfer.done = false then { s with xfer := { s.xfer with result := MbRes.busy.num } }
  else
    let x : Xfer := ⟨false, 0, v⟩
    let g := s.gaz[x.entry]
    let s : State := { s with xfer := x }
    if g.valid = false then s.xferEnd .notarget
    else if (s.mbs[g.mb]).pstate = .isolated then s.xferEnd .isolated
    else if s.mbRuns g.mb = false ∧ (s.mbs[g.mb]).pstate ≠ .recovering then s.xferEnd .notarget
    else s

/-- XFER_DATA as bytes. -/
def State.xferBytes (s : State) (n : Nat) : List Byte :=
  ((List.range 8).flatMap (fun i => beBytes 4 (s.r .modbus 0 (0x68 + 4 * i)).toNat)).take n

/-- Store bytes read into XFER_DATA, byte 0 in bits 31:24 of DATA0. -/
def State.xferStore (s : State) (bs : List Byte) : State :=
  ((List.range bs.length).zip bs).foldl (fun (s : State) p =>
    let lo := 24 - 8 * (p.1 % 4)
    s.setFld .modbus 0 (0x68 + 4 * (p.1 / 4)) (lo + 7) lo p.2.toNat) s

/-- The frame of a READ, but for what the target drives (R343). -/
def readFrame (g : Gaz) (reg len : Byte) : List Byte :=
  [0xA5#8] ++ beBytes 8 g.ident.toNat ++ [reg, len]

/-- A READ transaction (R343, R350, R352): for a switch's confirmation once POS has been written, for XFER, or of a switch's path
delays where a read of them is owed; it stays owed where the frame loses (R344). -/
def State.mbRead (s : State) (p : Fin 2) (i : Fin 64) (reg : Byte) (n : Nat) (e : MbEnd) : State :=
  let g := s.gaz[i]
  if s.mbRuns p = false ∨ g.valid = false ∨ g.mb ≠ p then s
  else
    let frame := readFrame g reg (byte n)
    let sent (s : State) : State := s.mbSend p frame e
    match s.switchPort p i with
    | some l =>
      if reg = 0x21 ∧ n = 1 ∧ (s.ports[l]).r.posSent then
        match (sent s).mbReadEnd p i n frame e with
        | (some (.ok, d), s) => if d = [s.switchPos l] then s.switchConfirmed l else s
        | (_, s) => s
      else s
    | none =>
      if s.switchWaits p then s
      else if s.xferOn p then
        let x := s.xfer
        if x.write ∨ x.entry ≠ i ∨ x.reg ≠ reg ∨ x.len ≠ n then s
        else match (sent s).mbReadEnd p i n frame e with
          | (some (r, d), s) => (s.xferStore d).xferEnd r
          | (none, s) => s
      else if g.owed ∧ reg = 0x30 ∧ n = 16 then
        match (sent s).mbReadEnd p i n frame e with
        | (some (.ok, d), s) =>
          s.modGaz i (fun g => { g with owed := false, delays := Vector.ofFn (fun k : Fin 4 =>
            (BitVec.ofNat 32 (beNat ((d.drop (4 * k.val)).take 4))).toInt) })
        | (some _, s) => s.modGaz i (fun g => { g with owed := false })
        | (none, s) => s
      else s

/-- A WRITE transaction (R343, R350, R352): a switch command, or XFER. A LEN of 33 to 63 sends bytes past XFER_DATA that no rule
states; the target ignores the frame (R343, log 130). -/
def State.mbWrite (s : State) (p : Fin 2) (i : Fin 64) (reg : Byte) (data : List Byte) (e : MbEnd) : State :=
  let g := s.gaz[i]
  if s.mbRuns p = false ∨ g.valid = false ∨ g.mb ≠ p then s
  else
    let body := [0x5A#8] ++ beBytes 8 g.ident.toNat ++ [reg, byte data.length] ++ data
    let frame := body ++ mbCrc body
    let sent (s : State) : State := s.mbSend p frame e
    match s.switchPort p i with
    | some l =>
      if reg = 0x20 ∧ data = [s.switchPos l] then
        match (sent s).mbWriteEnd p i 1 frame e with
        | (some .ok, s) => s.modReist l (fun r => { r with posSent := true })
        | (_, s) => s
      else s
    | none =>
      if s.switchWaits p ∨ s.xferOn p = false then s
      else
        let x := s.xfer
        if x.write = false ∨ x.entry ≠ i ∨ x.reg ≠ reg ∨ x.len ≠ data.length ∨ data.take 32 ≠ s.xferBytes (Nat.min 32 x.len) then s
        else match (sent s).mbWriteEnd p i x.len frame e with
          | (some r, s) => s.xferEnd r
          | (none, s) => s

/-! ## Traverse passes (R347, R348) -/

/-- The OVEN entry that is read: the one OVEN_IDX names, or the lowest-indexed one. -/
def State.ovenEntry (s : State) : Option (Fin 64) :=
  let isOven (i : Fin 64) : Bool := (s.gaz[i]).valid && decide (identType (s.gaz[i]).ident = 1)
  if s.rf .modbus 0 0x40 7 0 = 0xFF then (List.finRange 64).find? isOven
  else match fin? 64 (s.rf .modbus 0 0x40 7 0) with
    | some i => if isOven i then some i else none
    | none => none

/-- A read of the oven module is due on a port and goes before its passes (R350, R352): 1 s has passed since the last, by the
tick index, or one of its transactions is still to come. -/
def State.ovenDue (s : State) (p : Fin 2) : Bool :=
  match s.ovenEntry with
  | none => false
  | some i => decide ((s.gaz[i]).mb = p) && (s.oven.tempOwed || s.oven.statusOwed || (match s.oven.readAt with
    | some k => s.passed k secTicks
    | none => false))

/-- A switch command, an XFER request or an oven read goes before the port's passes (R352). -/
def State.mbBefore (s : State) (p : Fin 2) : Bool :=
  s.switchWaits p || s.xferOn p || s.ovenDue p

/-- One pass of a traverse: `answer` = ANSWER read 0, `ident` = the IDENT read. A pass that ends with ARB_LIMIT ends the
traverse, which drops nothing (log 151). -/
def State.mbPass (s : State) (p : Fin 2) (e : MbEnd) (answer : Bool) (ident : BitVec 64) : State :=
  match (s.mbs[p]).trav with
  | none => s
  | some t =>
    if s.mbRuns p = false ∨ s.mbBefore p then s
    else
      let frame := passFrame t.floor
      let sent (s : State) : State := s.mbSend p frame e
      match e with
      | .arbLost _ =>
        let (s, lim) := (sent s).mbArbLost p frame
        if lim then s.mbTravEnd p else s
      | .stuck => (sent s).mbEnded p frame
      | .noTarget => (sent s).mbTravDone p t
      | .answered _ =>
        let s := (sent s).mbEnded p frame
        if answer = false then s.mbTravDone p t
        else if identOk ident then
          let t := { t with floor := ident, retried := false, found := ident :: t.found }
          (s.modMb p (fun q => { q with trav := some t })).gazEnter p t ident
        else if t.retried = false then s.modMb p (fun q => { q with trav := some { t with retried := true } })
        else
          ((s.rcCount .modbus 0 (0x20 * p.val + 8) 15 0).modMb p (fun q => { q with travOwed := true })).mbTravEnd p

/-! ## The stuck line (R349) -/

/-- The line is stuck: recovery begins. The frame in progress has ended with STUCK; a request that has not begun waits. A line
under recovery or isolation is low again. -/
def State.mbStuck (s : State) (p : Fin 2) : State :=
  if s.mbRuns p = false then
    if (s.mbs[p]).pstate = .recovering ∨ (s.mbs[p]).pstate = .isolated then s.modMb p (fun q => { q with line := false }) else s
  else
    let s := s.modMb p (fun q => { q with
      pstate := .recovering, line := false, pulses := 0, trav := none, travAgain := false, travOwed := false, arb := []
      recAt := s.mark })
    (s.mbSticky p 0x80000000).raise (0x0760 + p.val) clsB 0x64 0

/-- An edge of a recovery pulse (R349): module power goes off 10 ms after the last step with the line still low, or comes on again
100 ms later. -/
def State.mbPulse (s : State) (p : Fin 2) : State :=
  let q := s.mbs[p]
  if q.pstate ≠ .recovering ∨ bitOf (s.mbCfgWord p) 28 = false then s
  else if q.pwren = false then
    (if s.since q.recAt (100 * msTicks) then s.modMb p (fun q => { q with pwren := true, recAt := s.mark }) else s)
  else if q.line = false ∧ q.pulses < 3 ∧ s.since q.recAt (10 * msTicks) then
    s.modMb p (fun q => { q with pulses := q.pulses + 1, pwren := false, recAt := s.mark })
  else s

/-- Recovery has failed, 10 ms after its last step with the line still low: the port is isolated, its entries UNREACHABLE (R349). -/
def State.mbIsolate (s : State) (p : Fin 2) : State :=
  let q := s.mbs[p]
  if q.pstate = .recovering ∧ q.line = false ∧ (bitOf (s.mbCfgWord p) 28 = false ∨ (q.pulses = 3 ∧ q.pwren)) ∧ s.since q.recAt (10 * msTicks) then
    let s := s.modMb p (fun q => { q with pstate := .isolated, recAt := s.mark })
    let s := if s.xferOn p then s.xferEnd .isolated else s
    (s.gazOf p (fun g => { g with state := 2 })).raise (0x0760 + p.val) clsB 0x65 0
  else s

/-- A STOP of the port in ticks at the speed in force (R341, R351): FAST, or STANDARD, as it runs from the relaxation oscillator
whatever SPEED says. -/
def State.mbStop (s : State) (p : Fin 2) : Nat :=
  if (s.mbs[p]).fast && !s.oven.stbyRc then 25000 else 200000

/-- The line that was stuck goes high, or has stayed high long enough (R349): for a STOP in recovery, for 1 s once isolated. -/
def State.mbFree (s : State) (p : Fin 2) : State :=
  let q := s.mbs[p]
  if q.line = false then s.modMb p (fun q => { q with line := true, riseAt := s.mark })
  else if (q.pstate = .recovering ∧ s.since q.riseAt (s.mbStop p)) ∨ (q.pstate = .isolated ∧ s.since q.riseAt secTicks) then
    (s.modMb p (fun q => { q with pstate := .idle, pulses := 0, pwren := true })).mbTrigger p
  else s

/-! ## CFG (R351) and the oven module (R350) -/

/-- A write of PORT[p].CFG by a keeper: EN 0 releases the line and drops the entries, EN 1 starts a traverse (R346, R351). -/
def State.mbCfgWrite (s : State) (p : Fin 2) (v : Word) : State :=
  let s := s.wr .modbus 0 (0x20 * p.val) (v &&& 0xF000FFFF)
  if bitOf v 31 then
    let s := if (s.mbs[p]).pstate = .off then s.modMb p (fun q => { q with pstate := .idle }) else s
    s.mbTrigger p
  else
    let s := if s.xferOn p then s.xferEnd .notarget else s
    let s := s.modMb p (fun q => { q with pstate := .off, pwren := true, trav := none, travAgain := false, travOwed := false, pulses := 0, arb := [] })
    s.gazOf p (fun g => { g with valid := false })

/-- A temperature in force [2^-8 °C]. -/
def State.takeTemp (s : State) (module : Bool) (t : Int) : State :=
  s.modOven (fun o => { o with temp := t, tempModule := module, tempAt := s.tick, tempLost := false })

/-- The oven module's TEMP and STATUS are read every 1 s, after switch commands and XFER requests (R131, R350, R352). A TEMP read
that loses is retried before STATUS is read, and a STATUS read that loses is retried alone (R344). -/
def State.ovenRead (s : State) (temp status : MbEnd) : State :=
  match s.ovenEntry with
  | none => s
  | some i =>
    let g := s.gaz[i]
    let o := s.oven
    if s.mbRuns g.mb = false ∨ s.switchWaits g.mb ∨ s.xferOn g.mb
        ∨ (o.tempOwed = false ∧ o.statusOwed = false ∧ s.since o.readAt secTicks = false) then s
    else
      let read (reg n : Byte) (e : MbEnd) (s : State) : Option (MbRes × List Byte) × State :=
        (s.mbSend g.mb (readFrame g reg n) e).mbReadEnd g.mb i n.toNat (readFrame g reg n) e
      let s := if o.tempOwed || o.statusOwed then s else s.modOven (fun o => { o with readAt := s.mark })
      let s := if o.statusOwed then s
        else match read 0x10 2 temp s with
          | (some (.ok, d), s) => (s.takeTemp true (BitVec.ofNat 16 (beNat d)).toInt).modOven (fun o => { o with tempOwed := false })
          | (some _, s) => s.modOven (fun o => { o with tempOwed := false })
          | (none, s) => s.modOven (fun o => { o with tempOwed := true })
      if s.oven.tempOwed then s
      else match read 0x12 1 status s with
        | (some _, s) => s.modOven (fun o => { o with statusOwed := false })
        | (none, s) => s.modOven (fun o => { o with statusOwed := true })

/-- The die sensor's reading counts while the gazetteer holds no oven (R131, R132). -/
def State.dieReading (s : State) (t : BitVec 16) : State :=
  if s.ovenEntry.isSome then s else s.takeTemp false t.toInt

/-! ## The device as a PEER target (R350) -/

/-- A register byte of the PEER target: DEV_ID, and the benchmark digest and sequence number as the standby island mirrors them;
others are not stated. -/
def State.peerByte (s : State) (free : Byte) (a : Nat) : Byte :=
  if a < 8 then (beBytes 8 Config.devId.toNat).getD a 0
  else if 0x40 ≤ a ∧ a < 0x60 then (beBytes 32 s.peerMir.1.toNat).getD (a - 0x40) 0
  else if 0x60 ≤ a ∧ a < 0x64 then (beBytes 4 s.peerMir.2.toNat).getD (a - 0x60) 0
  else free

/-- The windows of a pass that this device drives (R347): its identity, most significant bit first, up to the 1 at bit `drop` for which
it samples 0; from there it leaves IDENT high and drives RESIDUE. -/
def peerIdentBits (drop : Option Nat) : List Bool × Bool :=
  let bits := (List.range 64).map (fun i => peerIdent.getLsbD (63 - i))
  match drop with
  | some k => if bits.getD k false then ((List.range 64).zip bits |>.map (fun e => decide (e.1 < k) && !e.2), true)
    else (bits.map (!·), false)
  | none => (bits.map (!·), false)

/-- A frame of another controller reaches the port (R343, R347, R350). `drop`: in a pass, the bit of IDENT for which the device
leaves the window high and samples 0. -/
def State.peerFrame (s : State) (p : Fin 2) (frame : List Byte) (drop : Option Nat) : State :=
  if bitOf (s.mbCfgWord p) 31 = false ∨ bitOf (s.mbCfgWord p) 29 = false then s
  else
    let id := beNat ((frame.drop 1).take 8)
    let reg := (frame.getD 9 0).toNat
    let len := (frame.getD 10 0).toNat
    match frame.head? with
    | some 0xA5 =>
      if frame.length = 11 ∧ id = peerIdent.toNat ∧ 1 ≤ len ∧ len ≤ 32 then
        let (v, s) := s.free
        let d := (List.range len).map (fun i => s.peerByte (byte (v.toNat / 256 ^ (i % 8))) (reg + i))
        s.emit (.mb p (d ++ mbCrc d))
      else s
    | some 0x5A =>
      if frame.length = 13 + len ∧ id = peerIdent.toNat ∧ 1 ≤ len ∧ len ≤ 32 ∧ frame.drop (11 + len) = mbCrc (frame.take (11 + len)) then
        let (v, s) := s.free
        s.emit (.mb p [byte v.toNat])
      else s
    | some 0xC3 =>
      if frame.length = 9 ∧ peerIdent.toNat > id then s.emit (.mbTarget p (peerIdentBits drop).1 (peerIdentBits drop).2) else s
    | _ => s

end Sys2Proof.Machine
end

