-- ==== Sys2Proof/Machine/RegWrites.lean ====
section
/-! DEFINITION. What a write that the hub accepts does at each register (R8, R31, R406 to R436). -/

namespace Sys2Proof.Machine

/-! ## Monitor slots (R57 to R62, R72 to R79) -/

/-- EN goes to 1 (R57, R75): FAILED with cause ACT, ACT and FREQ set, monitors empty. -/
def State.slotUp (s : State) (src : Fin 96) : State :=
  let s := s.modSlot src (fun y => { y.dropGates.dropPhase with
    everQual := false
    freqInvalid := true
    last := none
    goodActs := 0
    phSetAt := none
    preDiv := 0
    inbox := []
    labelWait := []
    lastEv := []
    labelQ := []
    phase := false })
  let s := (s.setQ src .failed 2).setAlarms src ⟨false, true, true, false⟩
  if s.lossNow src then s.setLos src else s

/-- EN goes to 0 (R75): OFF, alarm levels and WM_STATE 0 without their notices. -/
def State.slotDown (s : State) (src : Fin 96) : State :=
  let s := s.modSlot src (fun y => { y.dropGates.dropPhase with
    los := false, act := false, freq := false, phase := false, fwmState := false, pwmState := false, inbox := [], last := none })
  s.setQ src .off (s.slots[src]).cause.toNat

/-- LOCKOUT's level on an enabled slot (R75). -/
def State.slotLock (s : State) (src : Fin 96) (lock : Bool) : State :=
  let q := (s.slots[src]).qstate
  if lock then (if q = .lockout then s else s.setQ src .lockout 7)
  else if q = .lockout then
    match s.hardAlarm src with
    | some c => s.setQ src .failed c
    | none => s.setQ src .wait (s.slots[src]).cause.toNat
  else s

/-- CTRL of a slot is written (R75 to R80); `sel` are the bits the write reaches. A write that names an engine starts the
verdict's age afresh, and without an owner nothing is stale (DEDUCED, log 122). LOCKOUT written 1 while the slot is OFF
locks it as soon as EN is written 1 (DEDUCED, log 120). -/
def State.slotCtrl (s : State) (src : Fin 96) (old new sel : Word) : State :=
  let s :=
    if sel &&& 0x0F000000 = 0 then s
    else if bitsOf new 27 24 < 8 then s.modSlot src (fun y => { y with stale := false, vttlFrom := s.tick })
    else s.modSlot src (fun y => { y with stale := false })
  let s :=
    if bitOf new 31 then (if bitOf old 31 then s else s.slotUp src).slotLock src (bitOf new 30)
    else if bitOf old 31 then s.slotDown src else s
  (s.refreshOrder src).evalQ src

/-- VERDICT (R78, R79): the owning engine's write takes effect, any other is counted. -/
def State.verdict (s : State) (p : Path) (src : Fin 96) (new : Word) : State :=
  match s.owner src with
  | some e =>
    if p = .eng e then
      let s := s.wr .refin (src.val % 16) (slotOff src 0x14) new
      let s := s.modSlot src (fun y => { y with stale := false, vttlFrom := s.tick })
      (s.refreshOrder src).evalQ src
    else s.count .fault 0 0x10 31 0
  | none => s.count .fault 0 0x10 31 0

/-- A divided frequency above 25 MHz (R57): NOM_FREQ [2^-32 Hz], DIV as coded. -/
def tooFast (nom div : Nat) : Bool :=
  decide (nom > 25000000 * 2 ^ 32 * (if div = 0 then 65536 else div))

/-- REFIN[n].CFG is written (R56, R57). A rejected write leaves the pre-divider as it runs (DEDUCED, log 117). -/
def State.refinCfg (s : State) (n : Fin 16) (new : Word) : State :=
  let src : Fin 96 := n.castLE (by decide)
  if tooFast (s.wide .mon n.val 0 2) (bitsOf new 15 0) then s.count .refin n.val 4 15 0
  else
    let s := (s.wr .refin n.val 0 new).restartDiv src
    let s := if bitsOf new 31 30 = 0 then s else s.modSlot src (fun y => { y with losCause := false })
    if bitsOf new 31 30 = 3 then s.setLos src else s

/-- No loop counts the events of a source whose NOM_FREQ has become 0, those of the sample in progress among them (R58). -/
def State.uncount (s : State) (src : Fin 96) : State :=
  { s with loops := s.loops.map (fun l => { l with
      evs := if l.sel = some src then [] else l.evs
      shadow := if l.sw.map (·.tgt) = some src then [] else l.shadow }) }

/-- NOM_FREQ of a source is committed (R57, R58). -/
def State.nomWrite (s : State) (src : Fin 96) (v : Nat) : State :=
  if src.val < 16 ∧ tooFast v (s.rf .refin (src.val % 16) 0 15 0) then s.count .refin (src.val % 16) 4 15 0
  else
    let s := s.setWide .mon src.val 0 2 v
    let s := if v = 0 then s.uncount src else s
    let y := s.slots[src]
    if v = 0 ∧ y.qstate ≠ .off then s.setAlarms src ⟨y.los, true, true, y.phase⟩ else s

/-- A word of the monitor table is written (R55, R79, R142); the new word is stored. -/
def State.monWrite (s : State) (src : Fin 96) (off : Nat) (old new sel : Word) : State :=
  if off = 0x1C ∧ sel &&& 0xFFFF ≠ 0 then (s.modSlot src (fun y => { y with vttlFrom := s.tick })).evalQ src
  else if off = 0x28 ∧ old ≠ new then s.bookConfig 0 0x02 src.val new.toNat old.toNat
  else s

/-- WARM has read 1 since the later of reset release and the last OVEN_COLD (R71). -/
def State.noteWarm (s : State) : State :=
  if s.warm then s.modOven (fun o => { o with everWarm := true }) else s

/-- SETTLE_TMO has passed with the debounced pin active: the detector declares the oven settled (R70). -/
def State.settleTimer (s : State) : State :=
  let o := s.oven
  if o.debounced && !o.settled && s.passed o.tmoFrom (s.rf .device 0 0x0C 15 0 * secTicks) then
    (s.modOven (fun o => { o with settled := true })).noteWarm
  else s

/-- SETTLE is written (R70): a new source restarts the count, a value already exceeded expires at once. -/
def State.settleSet (s : State) (old new : Word) : State :=
  if bitsOf old 31 24 = bitsOf new 31 24 then s.settleTimer
  else (s.modOven (fun o => { o with
    count := 0, prev := none, spoiled := s.witnessBad, gate := ⟨s.tick, none, 0, none⟩ })).settleTimer

/-! ## Loops (R91, R95, R103 to R109, R112, R130, R134, R137) -/

/-- FREE_RUN by EN 0 or CMD.FREE (R105, R121): the transaction aborts, with its evaluation due, fp is 0, the registers take
their load values. -/
def State.loopFree (s : State) (n : Fin 16) : State :=
  let s := s.abortSw n
  let s := s.modLoop n (fun l => { l with
    sel := none, holdoffAt := none, evs := [], shadow := [], acqFirst := false, fp := 0
    cpu := initCpu l.prog.cur l.cpu })
  (s.loopCode n .freeRun).mirrorSel n

/-- A consumer's assignment to loop n ends at an apply tick, where it stands or is on its way (R20, R147). -/
def State.releaseDest (s : State) (n : Fin 16) (dst : Dest) : State :=
  let held := match dst with
    | .datum d => decide ((s.datums[d]).assigned = some n)
    | .syn y => decide ((s.syns[synIx y]).assigned = some n)
    | .tally _ => false
  if held || s.xwords.any (fun w => decide (w.src = n ∧ w.dst = dst) && w.take) then s.sendWord n dst .release false else s

/-- The datum clock and the synthesizer a CFG word names, as codes 8 and above for none. -/
def cfgDsel (w : Word) : Nat := bitsOf w 27 24
def cfgSsel (w : Word) : Nat := bitsOf w 23 20

/-- Another loop names the same consumer, and is not the twin that may share it (R109). -/
def State.consumerTaken (s : State) (n : Fin 16) (new : Word) (hi lo : Nat) : Bool :=
  decide (bitsOf new hi lo < 8) && (List.finRange 16).any (fun m =>
    decide (m ≠ n) && decide (s.rf .loop m.val 0 hi lo = bitsOf new hi lo)
      && !(decide (m = twinOf n) && bitOf new 17 && s.rb .loop m.val 0 17))

/-- WCETs of the programs a loop holds, an image under verification by its header (R95). -/
def State.loopWcets (s : State) (n : Fin 16) : List Nat :=
  let p := (s.loops[n]).prog
  let held := (match p.cur with | some x => [x.wcet] | none => [])
    ++ (if p.phase = .armed then (match p.spare with | some x => [x.wcet] | none => []) else [])
  if p.phase = .verifying then
    match readHead 2 (s.mem.bytes (s.r .loop n.val 0xD0).toNat 96) with
    | some h => h.wcet :: held
    | none => held
  else held

/-- Some program of loop n exceeds the budget at a sample rate (R95). -/
def State.overBudget (s : State) (n : Fin 16) (fs : Nat) : Bool :=
  (s.loopWcets n).any (fun w => decide (w > budget fs))

/-- EN of a loop goes to 1 (R103, R134): the sample schedule starts at the next sample instant, and whether the twin has
closed a sample before decides which of the two was first. -/
def State.enUp (s : State) (n : Fin 16) : State :=
  let after := s.rb .loop (twinOf n).val 0 31 && (s.loops[twinOf n]).closedEn
  s.modLoop n (fun l => { l with closedEn := false, enAfter := after, instTick := none })

/-- The pair that CFG word `new` of loop n would form (R134): its PRIMARY, by the order of the EN writes. -/
def State.wouldPair (s : State) (n : Fin 16) (new : Word) : Option (Fin 16) :=
  let m := twinOf n
  if bitOf new 31 && bitOf new 17 && s.rb .loop m.val 0 31 && s.rb .loop m.val 0 17 && (s.loops[n]).role == .solo
      && (s.loops[m]).role == .solo then
    some ((if s.rb .loop n.val 0 31 then s else s.enUp n).firstOf n)
  else none

/-- EN of a loop goes to 0 (R103, R105, R121, R130, R134): a PRIMARY first hands its consumers to its twin; a final pair of
words of frequency 0 goes out, which F_OUT shows. CLAMP_PULL and CLAMP_SLOPE stay as the last sample left them (DESIGN CHOICE,
log 166). -/
def State.loopStopEn (s : State) (n : Fin 16) : State :=
  let m := twinOf n
  let hand := decide ((s.loops[n]).role = .primary) && decide ((s.loops[m]).role = .standby)
  let s := if hand then s.passConsumers m else s
  let s := if (s.loops[n]).role = .solo then s else s.dissolve n
  let s := ((s.loopFree n).clearEst n).modLoop n (fun l => { l with
    f := 0, instTick := none, out := none, secAcc := SecAcc.reset, secReady := none, wasStandby := false, evs := [], shadow := [] })
  let s := s.modLoop m (fun l => { l with enAfter := false })
  (s.setWide .loop n.val 0x60 2 0).issueWords n 0

/-- The consumers named by a new CFG word: what is left is released, what is new passes with the next word (R20, R109). -/
def State.consumersMove (s : State) (n : Fin 16) (old new : Word) : State :=
  let lead := decide ((s.loops[n]).role = .solo ∨ (s.loops[n]).role = .primary)
  let s :=
    if cfgDsel old = cfgDsel new then s
    else
      let s := match fin? 8 (cfgDsel old) with
        | some d => s.releaseDest n (.datum d)
        | none => s
      s.modLoop n (fun l => { l with takeD := lead && decide (cfgDsel new < 8) })
  if cfgSsel old = cfgSsel new then s
  else
    let s := match fin? 8 (cfgSsel old) with
      | some y => s.releaseDest n (.syn y)
      | none => s
    s.modLoop n (fun l => { l with takeS := lead && decide (cfgSsel new < 8) })

/-- LOOP[n].CFG is written (R103, R109, R134). A write of EN 1 that would form a pair whose STANDBY is over budget is rejected
and counted as one of TWIN_EN is (DESIGN CHOICE, log 177). -/
def State.loopCfg (s : State) (n : Fin 16) (old new : Word) : State :=
  let clash := (decide (cfgDsel old ≠ cfgDsel new) && s.consumerTaken n new 27 24)
    || (decide (cfgSsel old ≠ cfgSsel new) && s.consumerTaken n new 23 20)
  let heavy := match s.wouldPair n new with
    | some pr => s.overBudget (twinOf pr) (s.rf .loop pr.val 0x1C 19 0)
    | none => false
  if clash || heavy then s.count .loop n.val 0x2C 15 0
  else
    let off := bitOf old 31 && !bitOf new 31
    let s := if off then s.loopStopEn n else s
    let s := if bitOf old 17 && !bitOf new 17 && decide ((s.loops[n]).role ≠ .solo) then s.dissolve n else s
    let s := (s.wr .loop n.val 0 new).consumersMove n old new
    let s := if bitOf new 31 && !bitOf old 31 then s.enUp n else s
    (s.formTwin n).refresh

/-- LOOP[n].CMD: FREE and HO_CLEAR (R105, R130). -/
def State.loopCmd (s : State) (n : Fin 16) (cmd : Word) : State :=
  let s := if bitOf cmd 31 then (s.loopFree n).refresh else s
  if bitOf cmd 30 then s.clearEst n else s

/-- SAMPLE.RATE is written (R91, R95); a primary's rate is checked against the standby's programs too. -/
def State.rateWrite (s : State) (n : Fin 16) (new : Word) : State :=
  let fs := bitsOf new 19 0
  let twin := decide ((s.loops[n]).role = .primary) && s.overBudget (twinOf n) fs
  if fs = 0 ∨ fs > 1000000 ∨ s.overBudget n fs ∨ twin then s.count .loop n.val 0x2C 15 0
  else s.wr .loop n.val 0x1C new

/-- Loops that drive a synthesizer (R22). -/
def State.driversOf (s : State) (y : Nat) : List (Fin 16) :=
  (List.finRange 16).filter (fun m => decide (s.rf .loop m.val 0 23 20 = y))

/-- The sources loop m may take its reference from: those of its list, and those of the list writes held for it (R121). -/
def State.listSources (s : State) (m : Fin 16) : List (Fin 96) :=
  (s.cands m).map (fun e => e.2.1) ++ ((s.loops[s.govern m]).candHeld).filterMap (fun p => (candOf p.2).1)

/-- Synthesizer y is driven by loop n, directly or through further cascade sources (R22). -/
def State.drivenBy (s : State) (n : Fin 16) : Nat → Nat → Bool
  | 0, _ => false
  | k + 1, y => (s.driversOf y).any (fun m => decide (m = n) || (s.listSources m).any (fun x =>
      decide (88 ≤ x.val) && s.drivenBy n k (x.val - 88)))

/-- The candidate list that entry write leaves, held writes included. -/
def State.listWith (s : State) (n : Fin 16) (ws : List (Fin 16 × Word)) : List (Option (Fin 96)) :=
  (List.finRange 16).map (fun j =>
    match (ws.reverse).find? (fun p => decide (p.1 = j)) with
    | some p => (candOf p.2).1
    | none => (candOf (s.r .loop n.val (0x90 + 4 * j.val))).1)

/-- CAND[i] of loop n is written (R22, R90, R107, R112, R121). A standby's own list keeps its values and has no effect, so
the write changes neither the transaction nor the bars that it mirrors (R134). -/
def State.candSet (s : State) (n i : Fin 16) (new : Word) : State :=
  let src := (candOf new).1
  let cycle := match src with
    | some x => decide (88 ≤ x.val) && s.drivenBy n 9 (x.val - 88)
    | none => false
  let binding := match src with
    | some x => isPacket x && decide (bitsOf (s.pcfg (s.binding (streamOf x)).2.1) 26 24 ≠ s.rf .loop n.val 0 27 24)
    | none => false
  if cycle || binding then
    let s := s.wr .loop n.val 0x20 (s.r .loop n.val 0x20 ||| mkBit 31 cycle ||| mkBit 30 binding)
    s.count .loop n.val 0x24 15 0
  else
    let s := s.wr .loop n.val 0x20 0
    if (s.loops[n]).role = .standby then s.candPut n i new
    else match (s.loops[n]).sw with
    | none => s.candStore n i new
    | some w =>
      let held := (s.loops[n]).candHeld ++ [(i, new)]
      let s := s.modLoop n (fun l => { l with candHeld := held })
      if (s.listWith n held).any (fun x => decide (x = some w.tgt)) then s else s.abortSw n

/-! ## Survey, field book, notices -/

/-- BASE, SIZE or HEAD of a schedule is written (R423); `new` is the merged word. -/
def State.schedWrite (s : State) (g : Fin 12) (j : Fin 4) (o : Nat) (new : Word) : State :=
  let w (x : Nat) : Nat := (s.r .survey g.val (schedOff j x)).toNat
  let ok := if o = 8 then decide (new.toNat < w 4)
    else decide (w 8 = w 0x0C) && decide ((if o = 0 then new.toNat + w 4 else w 0 + new.toNat) ≤ 262144)
  if ok then s.wr .survey g.val (schedOff j o) new else s.schedBad g j

/-- NOTICE.RD is written (R200, R413). -/
def State.noteRdWrite (s : State) (p : Path) (new : Word) : State :=
  let adv := (new.toNat + 2048 - s.rf .notice 0 8 10 0) % 2048
  if p = ownerPath (s.rf .notice 0 0 31 30) ∧ adv ≤ s.noteFill then s.noteConsume (new.toNat % 2048)
  else s.count .notice 0 0x10 15 0

/-- SVIN_MAP[i] is written (R23, R435): the source of a changed mapping loses its channel (R59). -/
def State.svinWrite (s : State) (i : Nat) (old new : Word) : State :=
  let en := bitOf new 31
  let c := bitsOf new 7 0
  let taken := decide (c < 192) && (List.range 24).any (fun j => decide (j ≠ i) && decide ((s.mapped j).map (·.val) = some c))
  if en && ((decide (0xC0 ≤ c) && decide (c ≤ 0xFE)) || taken) then s.count .pinmux 0 0x60 15 0
  else
    let s := s.wr .pinmux 0 (4 * i) new
    if old = new then s else s.setLos (finMod 96 (64 + i))

/-! ## The write of one register -/

/-- A write as the hub passes it: path, place, the bits it reaches, the words before and after, the CMD bits it sets, and
how a firmware verification comes out where a command asks for it. -/
structure Wr where
  p : Path
  pl : Place
  sel : Word
  old : Word
  new : Word
  cmd : Word
  fw : Option Bool

/-- Store the new word in the register's writable bits. -/
def State.store (s : State) (w : Wr) : State :=
  s.wr w.pl.blk w.pl.inst w.pl.off (mix (w.pl.reg.rw ||| w.pl.reg.rwk) (s.r w.pl.blk w.pl.inst w.pl.off) w.new)

/-- A keeper's command is recorded in the archive log (R388; which ones, log 163). -/
def State.keeperLog (s : State) (w : Wr) : State :=
  s.log (.keeper w.pl.key)

/-- PROG_SRC and PROG_CMD (R288). -/
def State.progWrite (s : State) (w : Wr) (pp : ProgPort) (src : Bool) : State :=
  if src then s.wr w.pl.blk w.pl.inst w.pl.off (w.new &&& 0xFFFFF000)
  else if w.cmd = 0 then s else (s.keeperLog w).progCmd w.p pp w.cmd

def State.writeDevice (s : State) (w : Wr) : State :=
  match w.pl.off with
  | 0x004 => if w.cmd = 0 then s else s.deviceCmd w.cmd
  | 0x008 => if w.cmd = 0 then s else s.modelClear
  | 0x00C => (s.store w).settleSet w.old w.new
  | 0x808 =>
    if w.cmd = 0 then s
    else match w.fw with
      | some ok => s.fwSwap ok
      | none => let (v, s) := s.free; s.fwSwap (v.getLsbD 0)
  | _ => s.store w

def State.writeAccess (s : State) (w : Wr) : State :=
  match w.pl.off with
  | 0x030 => s.dbInSet w.p w.cmd
  | 0x034 => s.dbInClr w.p w.cmd
  | 0x03C => s.dbOutSet w.p w.cmd
  | 0x040 => s.dbOutClr w.p w.cmd
  | _ => s.store w

def State.writeMailbox (s : State) (w : Wr) : State :=
  let m : Fin 16 := finMod 16 w.pl.inst
  match w.pl.off with
  | 0x00 => s.mbCfg m w.new
  | 0x0C => s.mbAck w.p m
  | o => if 0x40 ≤ o ∧ o < 0x80 then s.mbStageWrite w.p m ((o - 0x40) / 4) w.new else s

def State.writeRefin (s : State) (w : Wr) : State :=
  if w.pl.off = 0 then s.refinCfg (finMod 16 w.pl.inst) w.new
  else
    let src : Fin 96 := finMod 96 (slotSrc w.pl)
    match (w.pl.off - 0x20) % 0x20 with
    | 0x00 => (s.store w).slotCtrl src w.old w.new w.sel
    | 0x10 => (s.store w).modSlot src (fun y => { y with dcPend := true })
    | 0x14 => s.verdict w.p src w.new
    | _ => s

def State.writeLoop (s : State) (w : Wr) : State :=
  let n : Fin 16 := finMod 16 w.pl.inst
  match w.pl.off with
  | 0x000 => s.loopCfg n w.old w.new
  | 0x00C => s.loopCmd n w.cmd
  | 0x018 => if w.cmd = 0 then s else (s.keeperLog w).twinSwap n
  | 0x01C => s.rateWrite n w.new
  | 0x028 => s.clearBars n (s.entrySources n (w.cmd.setWidth 16))
  | 0x0D0 => s.progWrite w (.loop n) true
  | 0x0D4 => s.progWrite w (.loop n) false
  | o => if 0x090 ≤ o ∧ o < 0x0D0 then s.candSet n (finMod 16 ((o - 0x90) / 4)) w.new else s.store w

def State.writeDatum (s : State) (w : Wr) : State :=
  let d : Fin 8 := finMod 8 w.pl.inst
  match w.pl.off with
  | 0x08 => (s.store w).modDatum d (fun x => { x with bslewDue := some w.new })
  | 0x10 => (s.store w).utcWritten d w.old
  | _ => s.store w

def State.writeSurvey (s : State) (w : Wr) : State :=
  let g : Fin 12 := finMod 12 w.pl.inst
  let o := w.pl.off
  if 0x40 ≤ o ∧ o < 0xC0 then s.schedWrite g (finMod 4 ((o - 0x40) / 0x20)) ((o - 0x40) % 0x20) w.new
  else if o < 0x800 then s.store w
  else
    let ch := chIx g (finMod 16 ((o - 0x800) / 0x80))
    match (o - 0x800) % 0x80 with
    | 0x00 => s.cfgWrite ch w.new
    | 0x18 => (s.txAdvance ch).store w
    | 0x10 => let s := s.store w; if modeOf (s.cfgAct ch) = 5 ∧ (s.chans[ch]).hand.isNone then s.ppsRebase ch else s
    | 0x1C =>
      let s := ((s.txAdvance ch).store w).outWritten ch
      if modeOf (s.cfgAct ch) = 5 ∧ (s.chans[ch]).hand.isNone ∧ bitOf w.old 31 ≠ bitOf w.new 31 then s.ppsRebase ch else s
    | 0x28 => s.sendByte ch (w.cmd.setWidth 8)
    | _ => s.store w

/-- STATS (R185): CMD.CLOSE closes a window in progress, that of a COUNT unit without a sample as EMPTY too; with EN 0 it
closes nothing, nor does a TIME boundary (DESIGN CHOICE, log 145). A write of CFG, WIN or NOM drops the window. -/
def State.writeStats (s : State) (w : Wr) : State :=
  let u : Fin 32 := finMod 32 w.pl.inst
  match w.pl.off with
  | 0x0C => if w.cmd ≠ 0 ∧ s.rb .stats u.val 0 31 then s.closeWindow u true else s
  | _ => (s.store w).dropWindow u

def State.writeBook (s : State) (w : Wr) : State :=
  match w.pl.off with
  | 0x04 => s.bookConfigure false w.new
  | 0x08 => s.bookConfigure true w.new
  | 0x10 => s.bookRdWrite w.p w.new
  | 0x80 =>
    let s := s.store w
    if bitOf (w.new &&& w.sel) 31 then s.modBook (fun b => { b with drainErr := false }) else s
  | 0xA0 => s.hostRdWrite w.p w.new
  | _ => s.store w

/-- SYNB runs a lock sequence that a keeper has commanded (R211): the datum tick stops, and the sequence ends as the relock
of R380 does, with the count of the dividers' cycles (log entry 148). -/
def State.relockSynb (s : State) : State :=
  if (s.syns[(8 : Fin 9)]).phase = .locked then
    (s.modSyn 8 (fun q => { q with phase := .regain, seqOn := true, onGrid := false })).stopTick
  else s

/-- RELOCK (R211, R217, R427): a full lock sequence of a synthesizer in service, or of SYNB. -/
def State.relock (s : State) (y : Fin 9) : State :=
  if s.insvc y = false ∨ (s.syns[y]).phase = .holding then s
  else if y.val = 8 then s.relockSynb
  else s.startLock y

def State.writeSynth (s : State) (w : Wr) : State :=
  match w.pl.off with
  | 0x008 => if w.cmd = 0 then s else (s.keeperLog w).relock (finMod 9 w.pl.inst)
  | 0x100 => s.progWrite w .plan true
  | 0x104 => s.progWrite w .plan false
  | _ => s

def State.writePort (s : State) (w : Wr) : State :=
  let n : Fin 16 := finMod 16 w.pl.inst
  match w.pl.off with
  | 0x00 =>
    let old := s.pcfg n
    let s := s.store w
    (if bitsOf old 31 27 = bitsOf (s.pcfg n) 31 27 then s else s.keeperLog w).portWritten n old
  | 0x08 => (s.store w).log (.dly n)
  | 0x0C => (s.store w).log (.dly n)
  | 0x18 => s.txqPopped w.p n w.cmd
  | 0x48 =>
    let s := if bitOf w.cmd 31 then s.requestSurvey n else s
    if bitOf w.cmd 30 then s.retrain n else s
  | _ => s.store w

def State.writePte (s : State) (w : Wr) : State :=
  let o := w.pl.off
  if 0x80 ≤ o ∧ o < 0x100 then (s.store w).streamWritten (finMod 32 ((o - 0x80) / 4))
  else if 0x200 ≤ o then s.instWrite (finMod 8 ((o - 0x200) / 0x20)) w.new
  else s.store w

def State.writeEngine (s : State) (w : Wr) : State :=
  let e : Fin 8 := finMod 8 w.pl.inst
  match w.pl.off with
  | 0x004 => s.progWrite w (.eng e) true
  | 0x008 => s.progWrite w (.eng e) false
  | _ => s.store w

def State.writeModbus (s : State) (w : Wr) : State :=
  match w.pl.off with
  | 0x000 => s.mbCfgWrite 0 w.new
  | 0x020 => s.mbCfgWrite 1 w.new
  | 0x00C => if w.cmd = 0 then s else s.mbTrigger 0
  | 0x02C => if w.cmd = 0 then s else s.mbTrigger 1
  | 0x060 => s.xferGo w.cmd
  | _ => s.store w

def State.writeFault (s : State) (w : Wr) : State :=
  if w.pl.off = 4 ∧ w.cmd &&& 0xC0000000 ≠ 0 then
    let s := if bitOf w.cmd 31 && !bitOf w.cmd 30 then s.keeperLog w else s
    s.faultCmd w.cmd
  else s

/-- The effect of a write at its register. -/
def State.writeAt (s : State) (w : Wr) : State :=
  match w.pl.blk with
  | .device => s.writeDevice w
  | .access => s.writeAccess w
  | .notice => if w.pl.off = 8 then s.noteRdWrite w.p w.new else s.store w
  | .mailbox => s.writeMailbox w
  | .fault => s.writeFault w
  | .power => if w.pl.off < 0x10 then s.domWrite (w.pl.off / 4) w.sel w.new else s
  | .refin => s.writeRefin w
  | .loop => s.writeLoop w
  | .datum => s.writeDatum w
  | .survey => s.writeSurvey w
  | .stats => s.writeStats w
  | .fieldbook => s.writeBook w
  | .synth => s.writeSynth w
  | .outbank => (s.store w).refreshOuts
  | .port => s.writePort w
  | .pte => s.writePte w
  | .engine => s.writeEngine w
  | .archive => s.protectWrite w.new
  | .modbus => s.writeModbus w
  | .pinmux => if w.pl.off < 0x60 then s.svinWrite (w.pl.off / 4) w.old w.new else s
  | .mon => (s.store w).monWrite (finMod 96 w.pl.inst) w.pl.off w.old w.new w.sel
  | _ => s.store w

/-- A multi-word register is committed whole (R326). -/
def State.writeWide (s : State) (pl : Place) (words v : Nat) : State :=
  match pl.blk with
  | .mon => s.nomWrite (finMod 96 pl.inst) v
  | .stats => (s.setWide .stats pl.inst pl.off words v).dropWindow (finMod 32 pl.inst)
  | b => s.setWide b pl.inst pl.off words v

end Sys2Proof.Machine
end

