-- ==== Sys2Proof/Machine/Live.lean ====
section
/-! DEFINITION. The words that registers show: those stored in the register file, and those composed from the state when
they are read (R408 to R435). -/

namespace Sys2Proof.Machine

/-- A word of a list, 0 beyond it. -/
def wordAt (ws : List Word) (i : Nat) : Word :=
  ws.getD i 0

/-- A signed 64-bit value as two words. -/
def pair64 (x : Int) (i : Nat) : Word :=
  wordAt (wordsOf 2 (BitVec.ofInt 64 x).toNat) i

/-- Words of a 256-bit digest. -/
def digestWord (d : BitVec 256) (i : Nat) : Word :=
  wordAt (wordsOf 8 d.toNat) i

/-- PEER_BENCH: a digest and its sequence number. -/
def benchWord (b : BitVec 256 × Word) (i : Nat) : Word :=
  if i < 8 then digestWord b.1 i else b.2

/-- LEGEND (R371, R408). -/
def State.liveLegend (s : State) (o : Nat) : Word :=
  match o with
  | 0x00 => wordAt (wordsOf 2 Config.devId.toNat) 0
  | 0x04 => wordAt (wordsOf 2 Config.devId.toNat) 1
  | 0x0C => fld (if Config.gradeV then 0x56 else 0x54) 24 ||| fld 0x42 16 ||| fld 2 14 ||| fld Config.calLog2.toNat 8
  | 0x10 => wordAt (wordsOf 2 Config.testDate.toNat) 0
  | 0x14 => wordAt (wordsOf 2 Config.testDate.toNat) 1
  | 0x18 => mkBit 31 s.cartOk
  | _ => if 0x40 ≤ o ∧ o < 0x5C then spanWord ((o - 0x40) / 4) else s.r .legend 0 o

/-- DEVICE and STEWARD (R383, R402, R410, R411). -/
def State.liveDevice (s : State) (o : Nat) : Word :=
  let b := s.boot
  match o with
  | 0x000 => fld b.mode.num 30 ||| mkBit 29 b.sheetDone ||| mkBit 28 (b.chosen && b.sheet.valid && b.sheet.copyB) ||| mkBit 27 (b.chosen && !b.sheet.valid)
      ||| mkBit 26 b.fwSlot ||| mkBit 25 b.fwHost ||| fld b.rcause.toNat 20 ||| fld s.recovNow.toNat 16
  | 0x008 => mkBit 31 s.warm ||| mkBit 30 s.oven.settled ||| mkBit 29 s.oven.debounced ||| mkBit 28 s.oven.modelValid
  | 0x014 => BitVec.ofInt 32 s.oven.modelA
  | 0x018 => BitVec.ofInt 32 s.oven.modelKt
  | 0x01C => mkBit 31 s.oven.tempModule ||| fld (BitVec.ofInt 16 s.oven.temp).toNat 0
  | 0x800 => fld s.stewLoad 24 ||| fld s.shedLevel.toNat 14
  | _ => s.r .device 0 o

/-- ACCESS, but for the words of each path (R412). -/
def State.liveAccess (s : State) (o : Nat) : Word :=
  match o with
  | 0x014 => mkBit 31 (s.snap.done && !s.snapBusy) ||| mkBit 30 s.snap.modeRej ||| fld s.snap.rejects 0
  | 0x020 => wordAt (wordsOf 2 s.snap.tick.toNat) 0
  | 0x024 => wordAt (wordsOf 2 s.snap.tick.toNat) 1
  | 0x038 => s.dbIn
  | 0x044 => s.dbOut
  | _ => s.r .access 0 o

/-- LOOP (R110, R111, R125, R135, R139, R288). -/
def State.liveLoop (s : State) (n : Fin 16) (o : Nat) : Word :=
  let l := s.loops[n]
  let tau := if l.code.holds then Nat.min l.hoTau 0xFFFFFFFF else 0
  let shift := satS 64 (s.bearingOffset n / 2 ^ 24)
  match o with
  | 0x004 => fld l.code.num 29 ||| mkBit 28 l.sw.isSome ||| fld (selByte l.sel).toNat 16 ||| mkBit 15 l.clampPull
      ||| mkBit 14 l.clampSlope ||| mkBit 13 l.hoValid ||| mkBit 12 l.unwarmed
  | 0x018 =>
    let role := match l.role with
      | .solo => 0
      | .primary => 1
      | .standby => 2
      | .failed => 3
    let pr := if l.role = .standby then twinOf n else n
    let ready := decide (l.role = .primary ∨ l.role = .standby) && s.twinReady pr
    let mism := decide (l.role ≠ .solo) && decide (l.digest ≠ (s.loops[twinOf n]).digest)
    fld role 30 ||| mkBit 29 ready ||| mkBit 28 mism ||| (s.r .loop n.val o &&& 0xFFFF)
  | 0x028 => fld (s.candBar n).toNat 0
  | 0x058 => fld l.est.unc 0
  | 0x05C => fld tau 0
  | 0x068 => pair64 l.pbo 0
  | 0x06C => pair64 l.pbo 1
  | 0x070 => pair64 shift 0
  | 0x074 => pair64 shift 1
  | 0x078 => pair64 l.est.fh 0
  | 0x07C => pair64 l.est.fh 1
  | 0x080 => pair64 l.tallyDiff 0
  | 0x084 => pair64 l.tallyDiff 1
  | 0x088 => mkBit 31 s.oven.tempLost
  | 0x0D8 => l.prog.status
  | _ =>
    if 0x100 ≤ o ∧ o < 0x120 then digestWord (bankDigest l.prog.bank0) ((o - 0x100) / 4)
    else if 0x120 ≤ o ∧ o < 0x140 then digestWord (bankDigest l.prog.bank1) ((o - 0x120) / 4)
    else s.r .loop n.val o

/-- REFIN (R65, R78, R419). -/
def State.liveRefin (s : State) (pl : Place) : Word :=
  if pl.off < 0x20 then s.reg pl.key
  else
    let src : Fin 96 := finMod 96 (slotSrc pl)
    let y := s.slots[src]
    match (pl.off - 0x20) % 0x20 with
    | 0x04 => fld y.qstate.num 29 ||| fld y.cause.toNat 25 ||| fld y.order.toNat 21 ||| mkBit 20 y.los ||| mkBit 19 y.act
        ||| mkBit 18 y.freq ||| mkBit 17 y.phase ||| mkBit 16 y.fwmState ||| mkBit 15 y.pwmState ||| mkBit 14 (!s.warm)
        ||| mkBit 13 y.freqInvalid ||| mkBit 12 y.essmMismatch
    | 0x14 => s.reg pl.key ||| mkBit 30 (s.isStale src)
    | 0x18 => pair64 y.freqVal 0
    | 0x1C => pair64 y.freqVal 1
    | _ => s.reg pl.key

/-- DATUM.STATUS (R141). -/
def State.liveDatum (s : State) (d : Fin 8) (o : Nat) : Word :=
  let x := s.datums[d]
  if o = 0 then
    let lp := match x.assigned with
      | some n => n.val
      | none => 0
    mkBit 31 x.set ||| mkBit 30 x.traceable ||| mkBit 29 (x.rem ≠ 0) ||| mkBit 28 x.assigned.isSome ||| fld lp 24
      ||| fld x.labelSrc.toNat 16
  else s.r .datum d.val o

/-- SURVEY (R423, R424). -/
def State.liveSurvey (s : State) (g : Fin 12) (o : Nat) : Word :=
  if o = 0 then mkBit 31 (s.groups[g]).noRelief ||| fld (s.groups[g]).relief.val 24
  else if o < 0x800 then s.r .survey g.val o
  else
    let c := s.chans[chIx g (finMod 16 ((o - 0x800) / 0x80))]
    match (o - 0x800) % 0x80 with
    | 0x04 => mkBit 31 c.level ||| mkBit 30 c.hand.isSome ||| mkBit 29 (c.rx ≠ [])
    | 0x24 => match c.rx with
      | b :: _ => mkBit 31 true ||| fld b.toNat 0
      | [] => 0
    | _ => s.r .survey g.val o

/-- FIELDBOOK (R196, R199). -/
def State.liveBook (s : State) (o : Nat) : Word :=
  match o with
  | 0x38 => mkBit 31 (s.wmState 0 s.bookFill) ||| mkBit 30 (s.wmState 1 s.bookFill)
  | 0xA4 => mkBit 31 s.drainPaused ||| mkBit 30 s.book.drainErr
  | _ => s.r .fieldbook 0 o

/-- LOCKING: a lock sequence, full or short, is in progress, up to its grid (R212, R217, R222). -/
def Syn.inSequence (q : Syn) : Bool :=
  q.phase == .locking || q.phase == .short || ((q.phase == .locked || q.phase == .regain) && q.seqOn)

/-- SYNTH (R208, R221, R222, R288, R427). -/
def State.liveSynth (s : State) (y : Fin 9) (o : Nat) : Word :=
  let q := s.syns[y]
  let own := decide (y.val < 8)
  match o with
  | 0x000 =>
    let lp := match q.assigned with
      | some n => n.val
      | none => 0
    mkBit 31 q.lock ||| mkBit 30 q.inSequence ||| mkBit 29 q.onGrid ||| mkBit 28 q.contour
      ||| fld q.refPath.toNat 26 ||| fld q.band.toNat 20 ||| fld (if own then lp else 0) 16
      ||| mkBit 15 (own && q.assigned.isSome) ||| fld (Nat.min 255 q.searchFail) 0
  | 0x010 => wordAt (wordsOf 2 q.nfb.toNat) 0
  | 0x014 => wordAt (wordsOf 2 q.nfb.toNat) 1
  | 0x020 => if own then s.r .synth y.val o else mkBit 31 true ||| fld (s.lockPath y).1 28
  | 0x028 => if own then s.r .synth y.val o else wordAt (wordsOf 2 (s.planN0 y)) 0
  | 0x02C => if own then s.r .synth y.val o else wordAt (wordsOf 2 (s.planN0 y)) 1
  | 0x108 => if own then 0 else s.plan.status
  | _ =>
    if own ∨ o < 0x140 then s.r .synth y.val o
    else if o < 0x160 then digestWord (bankDigest s.plan.bank0) ((o - 0x140) / 4)
    else if o < 0x180 then digestWord (bankDigest s.plan.bank1) ((o - 0x160) / 4)
    else s.r .synth y.val o

/-- PORT (R233, R246, R253). -/
def State.livePort (s : State) (n : Fin 16) (o : Nat) : Word :=
  let p := s.ports[n]
  match o with
  | 0x04 => mkBit 31 p.link ||| mkBit 30 p.cdr ||| mkBit 29 p.fec ||| mkBit 28 p.esmcValid ||| fld p.qlRx.toNat 24
      ||| fld p.essmRx.toNat 16 ||| fld p.txq.length 8
  | 0x40 =>
    let ls := match p.r.lstate with
      | .down => 0
      | .train => 1
      | .legend => 2
      | .verify => 3
      | .up => 4
      | .swap => 5
    fld ls 29 ||| mkBit 28 (s.isReist n && s.asymValid n) ||| mkBit 27 p.r.surveying ||| mkBit 26 p.r.mismatch ||| mkBit 25 p.r.reversed
      ||| fld (Nat.min 0xFFFF p.r.verifyFails) 0
  | 0x68 => wordAt (wordsOf 2 p.r.peerId.toNat) 0
  | 0x6C => wordAt (wordsOf 2 p.r.peerId.toNat) 1
  | 0x70 => pair64 p.r.rdelay 0
  | 0x74 => pair64 p.r.rdelay 1
  | 0x78 => BitVec.ofInt 32 p.r.asymSurv
  | _ =>
    if 0x20 ≤ o ∧ o < 0x34 then
      match p.txq with
      | e :: _ => wordAt e.words ((o - 0x20) / 4)
      | [] => 0
    else if 0x80 ≤ o ∧ o < 0xA4 then benchWord p.r.peerBench ((o - 0x80) / 4)
    else s.r .port n.val o

/-- PTE.PEER_BENCH: digest and sequence number of the session PEER_SEL names (R431). -/
def State.livePte (s : State) (o : Nat) : Word :=
  if 0x20 ≤ o ∧ o < 0x44 then
    match s.sess (finMod 16 (s.rf .pte 0 0x10 29 26)) (s.rf .pte 0 0x10 8 0) with
    | some x => match x.bench with
      | some b => benchWord b ((o - 0x20) / 4)
      | none => 0
    | none => 0
  else s.r .pte 0 o

/-- ENGINE (R284, R288, R293). -/
def State.liveEngine (s : State) (e : Fin 8) (o : Nat) : Word :=
  let g := s.engines[e]
  match o with
  | 0x000 =>
    let run := match g.run with
      | .idle => 0
      | .running => 1
      | .waiting => 2
      | .halted => 3
      | .fault => 4
    let sg := match g.prog.cur with
      | some x => x.signed
      | none => false
    fld run 29 ||| mkBit 28 g.keeper ||| mkBit 27 sg ||| mkBit 26 g.forced ||| fld g.cause.toNat 16 ||| fld (g.pcReg % 2 ^ 14) 0
  | 0x00C => g.prog.status
  | _ =>
    if 0x080 ≤ o ∧ o < 0x0A0 then digestWord (bankDigest g.prog.bank0) ((o - 0x080) / 4)
    else if 0x0A0 ≤ o ∧ o < 0x0C0 then digestWord (bankDigest g.prog.bank1) ((o - 0x0A0) / 4)
    else if 0x200 ≤ o ∧ o < 0x300 then
      match s.sems[(finMod 64 ((o - 0x200) / 4) : Fin 64)] with
      | some h => mkBit 31 true ||| fld h.val 0
      | none => 0
    else s.r .engine e.val o

/-- Every page of a region, logical banks lo to hi, carries tag c (R360). -/
def Memory.coded (m : Memory) (lo hi c : Nat) : Bool :=
  let here (pg : Nat) : Bool := match fin? 25 (pg / 4096) with
    | some p => match m.logical p with
      | some l => decide (lo ≤ l.val) && decide (l.val < hi)
      | none => false
    | none => false
  let mine := m.tags.filter (fun e => here e.1)
  if c = 1 then mine.isEmpty else decide ((mine.filter (fun e => decide (e.2.toNat = c))).length = (hi - lo) * 4096)

/-- MEMORY (R354, R360, R363, R366, R433). -/
def State.liveMemory (s : State) (o : Nat) : Word :=
  let m := s.mem
  if o = 4 then
    mkBit 31 (!(m.coded 0 20 (s.rf .memory 0 0 31 30) && m.coded 20 21 (s.rf .memory 0 0 29 28))) ||| mkBit 30 m.spareUsed
      ||| mkBit 29 m.spareBad ||| fld m.spareFor.val 24
  else if 0x20 ≤ o ∧ o < 0x80 then fld (m.remap[(finMod 24 ((o - 0x20) / 4) : Fin 24)]).val 0
  else s.r .memory 0 o

/-- MODBUS (R350, R351, R352): an idle port that a transaction waits for shows BUSY. -/
def State.liveModbus (s : State) (o : Nat) : Word :=
  let status (p : Fin 2) : Word :=
    let q := s.mbs[p]
    let ps := match q.pstate with
      | .off => 0
      | .idle => if s.xferOn p ∨ s.switchWaits p then 2 else 1
      | .busy => 2
      | .traverse => 3
      | .recovering => 4
      | .isolated => 5
    fld ps 29 ||| mkBit 28 q.line ||| (s.r .modbus 0 (0x20 * p.val + 4) &&& 0xFFFF)
  match o with
  | 0x004 => status 0
  | 0x024 => status 1
  | 0x064 => mkBit 31 s.xfer.done ||| fld s.xfer.result.toNat 0
  | _ =>
    if 0x400 ≤ o then
      let g := s.gaz[(finMod 64 ((o - 0x400) / 0x10) : Fin 64)]
      match (o - 0x400) % 0x10 with
      | 0 => if g.valid then mkBit 31 true ||| mkBit 30 g.port ||| fld g.state.toNat 28 ||| fld (identType g.ident) 20 ||| fld (Nat.min 15 g.misses) 16
          else 0
      | 4 => if g.valid then wordAt (wordsOf 2 g.ident.toNat) 0 else 0
      | 8 => if g.valid then wordAt (wordsOf 2 g.ident.toNat) 1 else 0
      | _ => 0
    else s.r .modbus 0 o

/-- SIDEBAND, PINMUX and HOST (R435). -/
def State.livePins (s : State) (b : Block) (o : Nat) : Word :=
  let st := s.boot.straps
  match b, o with
  | .sideband, 4 => mkBit 31 st.sbKeeper ||| fld st.sbAddr.toNat 29 ||| mkBit 28 s.alertOn
  | .pinmux, 0x64 => mkBit 31 st.bootHost ||| mkBit 30 st.recovN ||| fld st.oscSel.toNat 28 ||| mkBit 27 st.sbKeeper ||| fld st.sbAddr.toNat 25
  | .host, 0 => mkBit 31 s.linkUp ||| fld s.linkSpeed.toNat 28 ||| fld s.linkWidth.toNat 24
  | _, _ => s.r b 0 o

/-- A word of a register as a keeper sees it, but for its read-clear fields. -/
def State.live (s : State) (p : Path) (pl : Place) : Word :=
  let o := pl.off
  match pl.blk with
  | .legend => s.liveLegend o
  | .device => s.liveDevice o
  | .access => s.liveAccess o
  | .notice => if o = 0x0C then mkBit 31 s.notices.shed ||| fld s.noteFill 0 else s.reg pl.key
  | .mailbox =>
    let m : Fin 16 := finMod 16 pl.inst
    if o = 4 then s.mbStatus m
    else if 0x40 ≤ o ∧ o < 0x80 then s.mbStage p m ((o - 0x40) / 4)
    else if 0x80 ≤ o ∧ o < 0xC0 then s.mbRx p m ((o - 0x80) / 4)
    else s.reg pl.key
  | .benchmark => if o = 4 then mkBit 31 s.benchMatch ||| mkBit 30 s.scanning else s.reg pl.key
  | .fault =>
    if o = 0 then mkBit 31 s.oven.stbyRc ||| mkBit 30 s.oven.oscLost
    else if 0x200 ≤ o then (s.fm.blks[(finMod 128 ((o - 0x200) / 4) : Fin 128)]).word s.tick
    else s.reg pl.key
  | .power => if o < 0x10 then domWord s.domReq (o / 4) else if o < 0x20 then domWord s.domState (o / 4 - 4) else s.reg pl.key
  | .refin => s.liveRefin pl
  | .loop => s.liveLoop (finMod 16 pl.inst) o
  | .datum => s.liveDatum (finMod 8 pl.inst) o
  | .survey => s.liveSurvey (finMod 12 pl.inst) o
  | .stats => if 0x40 ≤ o then wordAt (s.units[(finMod 32 pl.inst : Fin 32)]).words ((o - 0x40) / 4) else s.reg pl.key
  | .fieldbook => s.liveBook o
  | .synth => s.liveSynth (finMod 9 pl.inst) o
  | .align =>
    let q := s.lines[(finMod 4 (o / 0x10) : Fin 4)]
    if o % 0x10 = 0 then mkBit 31 (decide (q.good ≥ 4)) ||| mkBit 30 q.range ||| fld q.d 0 else s.reg pl.key
  | .port => s.livePort (finMod 16 pl.inst) o
  | .pte => s.livePte o
  | .engine => s.liveEngine (finMod 8 pl.inst) o
  | .memory => s.liveMemory o
  | .archive => if o = 0x14 then fld s.arch.logWr 0 else s.reg pl.key
  | .modbus => s.liveModbus o
  | .sideband => s.livePins .sideband o
  | .pinmux => s.livePins .pinmux o
  | .host => s.livePins .host o
  | _ => s.reg pl.key

/-- The counts of RO registers that a snapshot copies (R327), where they share a word with other fields. -/
def Place.countMask (pl : Place) : Word :=
  if pl.reg.cnt = false then 0
  else match pl.blk, pl.off with
    | .loop, 0x0D8 => 0x00FF0000
    | .loop, 0x018 => 0xFFFF
    | .synth, 0x108 => 0x00FF0000
    | .engine, 0x00C => 0x00FF0000
    | .synth, 0x000 => 0xFF
    | .port, 0x040 => 0xFFFF
    | .access, 0x014 => 0xFFFF
    | .modbus, 0x004 => 0xFFFF
    | .modbus, 0x024 => 0xFFFF
    | .fault, o => if 0x200 ≤ o then 0x00FF0000 else 0xFFFFFFFF
    | .modbus, o => if 0x400 ≤ o then 0x000F0000 else 0xFFFFFFFF
    | _, _ => 0xFFFFFFFF

end Sys2Proof.Machine
end

