-- ==== Sys2Proof/Machine/Hub.lean ====
section
/-! DEFINITION. The register hub (R315 to R334): rights, guarding, views, holdings, the bit alias, the indirect pair, the
snapshot, and the side-band target and BAR2 on top of it. -/

namespace Sys2Proof.Machine

/-! ## Paths (R315) -/

/-- Keeper rights of a path (R290, R315). -/
def State.keeper (s : State) : Path → Bool
  | .f0 => false
  | .f1 => true
  | .sb => s.boot.straps.sbKeeper
  | .stw => true
  | .eng e => (s.engines[e]).keeper

/-- Clear-on-read view of a path; 3 = live (R315, R325). -/
def viewOf : Path → Nat
  | .f0 => 0
  | .f1 => 1
  | .sb => 2
  | _ => 3

/-- Rights at one register: no engine writes PROG_CMD, whatever its rights (R288). -/
def State.keeperAt (s : State) (p : Path) (pl : Place) : Bool :=
  match p with
  | .eng _ =>
    let prog := (pl.blk == .loop && pl.off == 0xD4) || (pl.blk == .synth && pl.off == 0x104) || (pl.blk == .engine && pl.off == 8)
    s.keeper p && !prog
  | _ => s.keeper p

/-- One guarded write of an ordinary path is counted (R316). -/
def State.guardCount (s : State) (p : Path) : State :=
  if s.coreUp = false then s
  else match p with
    | .f0 => s.count .access 0 0x0C 31 16
    | .sb => s.count .access 0 0x0C 15 0
    | .eng e => s.rcCount .engine e.val 0x1C 15 0
    | _ => s

/-- Guarded fields of a register: RWK and ROK ones; CAND_BAR's bits are written by keepers alone (R421). -/
def Place.guard (pl : Place) : Word :=
  if pl.blk = .loop ∧ pl.off = 0x28 then 0xFFFF else pl.reg.rwk ||| pl.reg.rok

/-- An ordinary write that reaches these bits with this value is counted (R316): not one that only clears keeper
commands. -/
def Place.trips (pl : Place) (sel v : Word) : Bool :=
  decide (pl.guard &&& sel ≠ 0) || (decide (pl.reg.cmdk &&& sel &&& v ≠ 0)) ||
    (decide (pl.reg.cmdk &&& sel ≠ 0) && decide (pl.guard ≠ 0))

/-- An offset within a span that holds a register (R321, R407). -/
def Place.listed (pl : Place) : Bool :=
  (rowAt pl.blk pl.off).isSome

/-- The register's power domain is down (R330). -/
def State.placeDown (s : State) (pl : Place) : Bool :=
  match pl.domain with
  | some d => !s.domUp d
  | none => false

/-! ## Multi-word registers (R326) -/

/-- Words of a multi-word register, and the word this place is. -/
def Place.wideAt (pl : Place) : Option (Nat × Nat) :=
  match rowAt pl.blk pl.off with
  | some (r, _, i) => if r.reg.mw then some (r.words, i) else none
  | none => none

/-- Another word of the same register. -/
def Place.word (pl : Place) (i j : Nat) : Place :=
  { pl with off := pl.off - 4 * i + 4 * j }

/-- A write of one word of a writable multi-word register: a lower word is held, the highest commits. -/
def State.wideWrite (s : State) (p : Path) (pl : Place) (words i : Nat) (v : Word) : State :=
  if i ≠ 0 then s.modPath p (fun q => { q with writeHold := mapSet q.writeHold pl.key v 0 })
  else
    let held (j : Nat) : Word := (mapGet (s.path p).writeHold (pl.word i j).key).getD 0
    s.writeWide pl words (ofWords (v :: (List.range (words - 1)).map (fun j => held (j + 1))))

/-- A read of one word of a multi-word register: the highest fills the read holding, a lower one returns it, as far as the
path's rights reach (R316). -/
def State.wideRead (s : State) (p : Path) (pl : Place) (words i : Nat) (mask : Word) : Word × State :=
  if i = 0 then
    let fill (m : RegMap) (j : Nat) : RegMap :=
      let q := pl.word 0 j
      mapSet m q.key (s.live p q &&& mask) 0
    let s' := s.modPath p (fun q => { q with readHold := (List.range words).foldl fill q.readHold })
    (s.live p pl &&& mask, s')
  else ((mapGet (s.path p).readHold pl.key).getD 0 &&& mask, s)

/-! ## The snapshot (R327) -/

/-- Words with counts that the snapshot copies. -/
def countPlaces : List Place :=
  blockMap.flatMap (fun m => (List.range m.insts).flatMap (fun i => m.blk.rows.flatMap (fun r =>
    if r.reg.cnt then (List.range r.count).map (fun j => Place.mk m.blk i (r.off + j * r.stride)) else [])))

/-- TAKE: accepted outside SERVICE; the copy is that of this instant and completes within 2 µs, 1,562 ticks. -/
def State.takeSnapshot (s : State) : State :=
  if s.boot.mode = .service then
    { s with snap := { s.snap with modeRej := true, rejects := satAdd 16 s.snap.rejects 1 } }
  else
    let (v, s) := s.free
    let s : State := { s with snap := { s.snap with done := true, modeRej := false, tick := s.tick, hold := v.toNat % 1563 } }
    let regs := countPlaces.foldl (fun m pl => mapSet m pl.key (s.live .stw pl &&& pl.countMask) 0) []
    { s with snap := { s.snap with regs := regs, rc := s.rc, units := s.units } }

/-- The word as the path's SNAP_VIEW shows it: copied fields from the snapshot. -/
def State.snapWord (s : State) (p : Path) (pl : Place) : Word :=
  let w := s.live p pl
  if pl.blk = .stats ∧ 0x40 ≤ pl.off then wordAt (s.snap.units[(finMod 32 pl.inst : Fin 32)]).words ((pl.off - 0x40) / 4)
  else mix pl.countMask w ((mapGet s.snap.regs pl.key).getD 0)

/-! ## One access at a place -/

/-- A write at a place: `sel` are the bits it reaches, `bit` where it comes through the alias. An offset that holds no register
ignores it (R321). -/
def State.placeWrite (s : State) (p : Path) (pl : Place) (sel v : Word) (bit : Bool) (fw : Option Bool) : State :=
  if pl.listed = false then s
  else if s.placeDown pl then s.count .access 0 0x28 15 0
  else
    let r := pl.reg
    let k := s.keeperAt p pl
    let s := if !k && pl.trips sel v then s.guardCount p else s
    match pl.wideAt with
    | some (n, i) => if bit ∨ (r.rw = 0 ∧ (r.rwk = 0 ∨ !k)) then s else s.wideWrite p pl n i v
    | none =>
      let wmask := (r.rw ||| (if k then r.rwk else 0)) &&& sel
      let bars : Word := if pl.blk = .loop ∧ pl.off = 0x28 then 0xFFFF else 0
      let cmask := (r.cmd ||| (if k then r.cmdk ||| bars else 0)) &&& sel
      if (wmask = 0 ∧ cmask = 0) ∨ (bit ∧ wmask = 0 ∧ cmask &&& v = 0) then s
      else
        let old := s.live p pl &&& (r.rw ||| r.rwk)
        s.writeAt ⟨p, pl, sel, old, mix wmask old v, v &&& cmask, fw⟩

/-- A read at a place: the word, none where a post is refused. A word of the alias clears no counter. -/
def State.placeRead (s : State) (p : Path) (pl : Place) : Option Word × State :=
  if pl.listed = false then (some 0, s)
  else if s.placeDown pl then (some 0, s.count .access 0 0x28 15 0)
  else
    let r := pl.reg
    let k := s.keeper p
    let mask : Word := if k then 0xFFFFFFFF else ~~~(r.rwk ||| r.rok)
    if pl.blk = .mailbox ∧ 0x80 ≤ pl.off ∧ s.mbReceiver (finMod 16 pl.inst) = pathCode p then
      let (w, s) := s.mailRx (finMod 16 pl.inst) ((pl.off - 0x80) / 4)
      (some w, s)
    else if pl.blk = .mailbox ∧ pl.off = 8 then s.postRead p (finMod 16 pl.inst)
    else if pl.blk = .datum ∧ pl.off = 0x20 then
      let s := s.nowLatch p (finMod 8 pl.inst)
      (some ((mapGet (s.path p).readHold pl.key).getD 0), s)
    else if pl.blk = .datum ∧ 0x20 < pl.off then (some ((mapGet (s.path p).readHold pl.key).getD 0), s)
    else match pl.wideAt with
      | some (n, i) => let (w, s) := s.wideRead p pl n i mask; (some w, s)
      | none =>
        let snap := (s.path p).snapView
        let w := (if snap then s.snapWord p pl else s.live p pl) &&& mask
        let rc := (if snap then (mapGet s.snap.rc (rcKey pl.key (viewOf p))).getD 0 else s.rcWord pl.key (viewOf p)) &&& r.rc
        let s := if !snap && decide (viewOf p < 3) then s.rcClear pl.key (viewOf p) r.rc else s
        let s := if pl.blk = .survey ∧ 0x800 ≤ pl.off ∧ (pl.off - 0x800) % 0x80 = 0x24 then
            s.modChan (chIx (finMod 12 pl.inst) (finMod 16 ((pl.off - 0x800) / 0x80))) (fun c => { c with rx := c.rx.drop 1 })
          else s
        (some (w ||| rc), s)

/-! ## The indirect pair (R328, R329, R436) -/

/-- What an indirect address names. -/
inductive IndAt where
  | reg (pl : Place)
  | diag (dom : Option Nat)
  | arc (a : Nat)
  | none

/-- R436. While the core is down the side-band's pair reaches the archive alone (R24). -/
def State.indAt (s : State) (a : Nat) : IndAt :=
  if 0x02000000 ≤ a ∧ a < 0x02200000 then .arc (a - 0x02000000)
  else if s.coreUp = false then .none
  else if 0x10000 ≤ a ∧ a < 0x11800 then
    let pl := monPlace a
    if (rowAt .mon pl.off).isSome then .reg pl else .none
  else if 0x100000 ≤ a ∧ a < 0x109000 ∧ a % 0x1000 < 0x400 then .diag none
  else if 0x200000 ≤ a ∧ a < 0x210000 ∧ a % 0x1000 < 0x400 then .diag (some (67 + (a - 0x200000) / 0x1000))
  else .none

/-- A domain that an indirect target needs is down. -/
def State.indDown (s : State) : Option Nat → Bool
  | some d => match fin? 108 d with
    | some i => !s.domState i
    | none => false
  | none => false

/-- A write of an indirect target. -/
def State.indWrite (s : State) (p : Path) (a : Nat) (v : Word) : State :=
  match s.indAt a with
  | .reg pl => s.placeWrite p pl 0xFFFFFFFF v false none
  | .diag d => if s.indDown d then s.modPath p (fun q => { q with off := true }) else s
  | .arc x => if s.keeper p then s.arcWrite x v
    else if s.arcProtected (x - x % 4) then (s.guardCount p).count .archive 0 4 15 0
    else s.guardCount p
  | .none => s.modPath p (fun q => { q with noreg := true })

/-- A read of an indirect target. -/
def State.indRead (s : State) (p : Path) (a : Nat) : Word × State :=
  match s.indAt a with
  | .reg pl => match s.placeRead p pl with
    | (some w, s) => (w, s)
    | (none, s) => (0, s)
  | .diag d => if s.indDown d then (0, s.modPath p (fun q => { q with off := true })) else (Config.diagWord (a - a % 4), s)
  | .arc x => s.arcRead x
  | .none => (0, s.modPath p (fun q => { q with noreg := true }))

/-- A write of the path to the archive is in progress. -/
def State.arcPosted (s : State) (p : Path) : Bool :=
  match (s.path p).indBusy with
  | some (a, _) => match s.indAt a.toNat with
    | .arc _ => true
    | _ => false
  | none => false

/-- The posted write completes: BUSY clears. -/
def State.indDone (s : State) (p : Path) : State :=
  match (s.path p).indBusy with
  | some (a, v) => (s.indWrite p a.toNat v).modPath p (fun q => { q with indBusy := none })
  | none => s

/-- A write of IND_DATA: posted, or an overrun. -/
def State.indPost (s : State) (p : Path) (v : Word) : State :=
  s.modPath p (fun q => match q.indBusy with
    | some _ => { q with overrun := true }
    | none => { q with indBusy := some (q.indAddr, v), indAddr := q.indAddr + 4 })

/-- A read of IND_DATA: a posted write goes first. -/
def State.indFetch (s : State) (p : Path) : Word × State :=
  let s := s.indDone p
  let a := (s.path p).indAddr
  let (w, s) := s.indRead p a.toNat
  (w, s.modPath p (fun q => { q with indAddr := q.indAddr + 4 }))

/-- IND_STATUS of a path; its read clears the path's RC bits. -/
def State.indStatus (s : State) (p : Path) : Word :=
  let q := s.path p
  mkBit 31 q.indBusy.isSome ||| mkBit 30 q.overrun ||| mkBit 29 q.noreg ||| mkBit 28 q.off

/-! ## Register offsets -/

/-- A write from outside before the start sheet has been applied (R397); the standby island serves the side-band while
the core is down (R24). -/
def State.tooEarly (s : State) (p : Path) : Bool :=
  s.coreUp && !s.boot.sheetDone && decide (p = .f0 ∨ p = .f1 ∨ p = .sb)

/-- A write of a register offset (R315 to R330). -/
def State.hubWrite (s : State) (p : Path) (o : Nat) (sel v : Word) (bit : Bool) (fw : Option Bool) : State :=
  if s.tooEarly p then s.count .device 0 0x20 15 0
  else match placeOf o with
    | none => s
    | some pl =>
      if pl.blk = .access then
        match pl.off with
        | 0x00 => s.modPath p (fun q => { q with indAddr := mix sel q.indAddr v })
        | 0x04 => if bit then s else s.indPost p v
        | 0x10 =>
          if s.keeper p then (if bitOf (v &&& sel) 31 then s.takeSnapshot else s)
          else if bitOf (v &&& sel) 31 then s.guardCount p else s
        | 0x18 => if bitOf sel 0 then s.modPath p (fun q => { q with snapView := bitOf v 0 }) else s
        | _ => s.placeWrite p pl sel v bit fw
      else s.placeWrite p pl sel v bit fw

/-- A read of a register offset. -/
def State.hubRead (s : State) (p : Path) (o : Nat) : Option Word × State :=
  match placeOf o with
  | none => (some 0, s)
  | some pl =>
    if pl.blk = .access then
      match pl.off with
      | 0x00 => (some (s.path p).indAddr, s)
      | 0x04 => let (w, s) := s.indFetch p; (some w, s)
      | 0x08 => (some (s.indStatus p), s.modPath p (fun q => { q with overrun := false, noreg := false, off := false }))
      | 0x18 => (some (mkBit 0 (s.path p).snapView), s)
      | _ => s.placeRead p pl
    else s.placeRead p pl

/-! ## The bit alias (R322) -/

/-- Register offset and bit of an alias address. -/
def aliasOf (a : Nat) : Nat × Nat :=
  ((a - 0x200000) / 128 * 4, (a - 0x200000) % 128 / 4)

/-- An alias word that reads 0 and ignores writes: POST, IND_DATA and multi-word registers. -/
def aliasDead (o : Nat) : Bool :=
  match placeOf o with
  | none => true
  | some pl => (pl.blk == .mailbox && pl.off == 8) || (pl.blk == .access && pl.off == 4) || pl.wideAt.isSome

/-- A write of an alias word. -/
def State.aliasWrite (s : State) (p : Path) (a : Nat) (v : Word) (fw : Option Bool) : State :=
  let (o, b) := aliasOf a
  if s.tooEarly p then s.count .device 0 0x20 15 0
  else if aliasDead o then s
  else s.hubWrite p o (mkBit b true) (if bitOf v 0 then mkBit b true else 0) true fw

/-- The single-bit RC fields of a register (R111, R223, R419, R426, R434); its other RC bits belong to counters. -/
def Place.rcBits (pl : Place) : Word :=
  let rc := pl.reg.rc
  if rc = 0xFFFFFFFF then 0
  else match pl.blk with
    | .refin => rc
    | .stats => rc
    | .loop => rc &&& 0x0000003F
    | .synth => rc &&& 0x00000003
    | .modbus => rc &&& 0xF0000000
    | _ => 0

/-- A read of an alias word: one bit; it clears a single-bit RC field of the path's own view, and no counter. What the read itself counts
in other registers stays (R325). -/
def State.aliasRead (s : State) (p : Path) (a : Nat) : Word × State :=
  let (o, b) := aliasOf a
  if aliasDead o then (0, s)
  else match placeOf o with
    | none => (0, s)
    | some pl =>
      if pl.blk = .access ∧ pl.off = 8 then
        (fld (b2n (bitOf (s.indStatus p) b)) 0, s.modPath p (fun q => match b with
          | 30 => { q with overrun := false }
          | 29 => { q with noreg := false }
          | 28 => { q with off := false }
          | _ => q))
      else match s.hubRead p o with
        | (some w, t) =>
          let bit := fld (b2n (bitOf w b)) 0
          let t : State := if viewOf p < 3 then { t with rc := mapSet t.rc (rcKey pl.key (viewOf p)) (s.rcWord pl.key (viewOf p)) 0 } else t
          if bitOf pl.rcBits b && !(s.placeDown pl) && !(s.path p).snapView && decide (viewOf p < 3) then
            (bit, t.rcClear pl.key (viewOf p) (mkBit b true))
          else (bit, t)
        | (none, t) => (0, t)

/-- The paths that reach the bit alias: the host functions and the side-band (R315). -/
def pathAliases : Path → Bool
  | .f0 => true
  | .f1 => true
  | .sb => true
  | _ => false

/-- The function of a host path (R317). -/
def pathFunc : Path → Option (Fin 2)
  | .f0 => some 0
  | .f1 => some 1
  | _ => none

/-- A BAR0 write: register space, the function's MSI-X table, or bit alias; elsewhere, and where the path does not reach,
ignored (R315, R318). -/
def State.busWrite (s : State) (p : Path) (a : Nat) (v : Word) : State :=
  if a < 0x100000 then s.hubWrite p a 0xFFFFFFFF v false none
  else if (decide (0x200000 ≤ a ∧ a < 0x400000)) && pathAliases p then s.aliasWrite p a v none
  else match pathFunc p with
    | some f => if msixAt a then (if s.tooEarly p then s.count .device 0 0x20 15 0 else s.msixPut f a v) else s
    | none => s

/-- A BAR0 read. -/
def State.busRead (s : State) (p : Path) (a : Nat) : Option Word × State :=
  if a < 0x100000 then s.hubRead p a
  else if (decide (0x200000 ≤ a ∧ a < 0x400000)) && pathAliases p then let (w, s) := s.aliasRead p a; (some w, s)
  else match pathFunc p with
    | some f => (some (if msixAt a then (s.funcs[f]).msixWord a else 0), s)
    | none => (some 0, s)

/-- A read with its answer on the path. -/
def State.readAnswer (s : State) (p : Path) (a : Nat) : State :=
  match s.busRead p a with
  | (some w, s) => s.answer p (.data w)
  | (none, s) => s

/-- A field of a register is written: `mask` its bits (the form of the commands that name one field). -/
def State.fieldWrite (s : State) (p : Path) (b : Block) (inst off : Nat) (mask v : Word) : State :=
  s.hubWrite p (key b inst off) mask v false none

/-- A whole register is written. -/
def State.regWrite (s : State) (p : Path) (b : Block) (inst off : Nat) (v : Word) : State :=
  s.hubWrite p (key b inst off) 0xFFFFFFFF v false none

/-- A field of a monitor-table entry or word of it is written through the indirect space by the boot ROM. -/
def State.indDirect (s : State) (p : Path) (a : Nat) (v : Word) : State :=
  (s.indWrite p a v).modPath p (fun q => { q with indAddr := BitVec.ofNat 32 (a + 4) })

/-! ## The side-band target (R24, R331 to R333) -/

/-- A BAR0 offset the side-band reaches now: any with the core up; of the standby island's registers and its own pair
without it (R24). -/
def State.sbReaches (s : State) (a : Nat) : Bool :=
  if s.coreUp then true
  else
    let o := if 0x200000 ≤ a ∧ a < 0x400000 then (aliasOf a).1 else a
    if 0x100000 ≤ o then false
    else match placeOf o with
      | none => false
      | some pl => pl.blk == .fault || pl.blk == .power || pl.blk == .archive || pl.blk == .modbus || pl.blk == .sideband
          || (pl.blk == .access && decide (pl.off ≤ 8))

/-- The target's address byte, for a write or a read (R331). -/
def State.sbAddrByte (s : State) (read : Bool) : Byte :=
  byte (2 * (0x5C + s.boot.straps.sbAddr.toNat) + b2n read)

/-- The PEC of a block write of these data bytes (R331). -/
def State.sbPec (s : State) (code count : Byte) (data : List Byte) : Byte :=
  byte (crc8 ([s.sbAddrByte false, code, count] ++ data))

/-- A block write is well formed: its count, then its PEC (R331, R333); none = accepted. -/
def State.sbFault (s : State) (code count want : Byte) (data : List Byte) (pec : Pec) : Option (BitVec 4) :=
  if count ≠ want then some errLength
  else match pec with
    | .given b => if b = s.sbPec code count data then none else some errPec
    | .absent => if s.rb .sideband 0 0 31 then some errPec else none

/-- The PEC the device appends to a read, where the master takes it: over the bytes written, the read address, and the
bytes read (R331). -/
def State.sbAppend (s : State) (take : Bool) (sent read : List Byte) : State :=
  { s with sideband := { s.sideband with
      pecOut := if take then some (byte (crc8 ([s.sbAddrByte false] ++ sent ++ [s.sbAddrByte true] ++ read))) else none } }

/-- A refused write: the NACK, its cause, and PEC_ERRS for a PEC missing or wrong. -/
def State.sbNack (s : State) (e : BitVec 4) : State :=
  let s := if e = errPec then s.count .sideband 0 0x0C 15 0 else s
  s.sbRefuse e

/-- A read by the side-band at a BAR0 offset, after the bytes `sent`; whether it was served. -/
def State.sbRead (s : State) (a : Nat) (pec : Bool) (sent : List Byte) : Bool × State :=
  if s.sbReaches a = false then (false, s.sbRefuse errCoreDown)
  else match s.busRead .sb a with
    | (some w, s) => (true, (s.sbAppend pec sent (4 :: beBytes 4 w.toNat)).answer .sb (.data w))
    | (none, s) => (false, s)

/-- A write by the side-band at a BAR0 offset; whether it was served. -/
def State.sbWrite (s : State) (a : Nat) (v : Word) : Bool × State :=
  if s.sbReaches a = false then (false, s.sbRefuse errCoreDown) else (true, (s.busWrite .sb a v).answer .sb .ok)

/-- Move the pointer. -/
def State.sbPoint (s : State) (o : Word) : State :=
  { s with sideband := { s.sideband with pointer := o } }

/-- Command 0x01. -/
def State.sbSet (s : State) (count : Byte) (off : Word) (pec : Pec) : State :=
  match s.sbFault 0x01 count 4 (beBytes 4 off.toNat) pec with
  | some e => s.sbNack e
  | none => (s.sbPoint off).answer .sb .ok

/-- Command 0x02. -/
def State.sbGet (s : State) (pec : Bool) : State :=
  match s.sbRead s.sideband.pointer.toNat pec [0x02] with
  | (true, t) => t.sbPoint (s.sideband.pointer + 4)
  | (false, t) => t

/-- Command 0x03. -/
def State.sbPut (s : State) (count : Byte) (v : Word) (pec : Pec) : State :=
  match s.sbFault 0x03 count 4 (beBytes 4 v.toNat) pec with
  | some e => s.sbNack e
  | none => match s.sbWrite s.sideband.pointer.toNat v with
    | (true, t) => t.sbPoint (s.sideband.pointer + 4)
    | (false, t) => t

/-- Command 0x04. -/
def State.sbGetAt (s : State) (count : Byte) (off : Word) (pec : Bool) : State :=
  if count ≠ 4 then s.sbRefuse errLength
  else match s.sbRead off.toNat pec ([0x04, count] ++ beBytes 4 off.toNat) with
    | (true, t) => t.sbPoint (off + 4)
    | (false, t) => t

/-- Command 0x05. -/
def State.sbPutAt (s : State) (count : Byte) (off v : Word) (pec : Pec) : State :=
  match s.sbFault 0x05 count 8 (beBytes 4 off.toNat ++ beBytes 4 v.toNat) pec with
  | some e => s.sbNack e
  | none => match s.sbWrite off.toNat v with
    | (true, t) => t.sbPoint (off + 4)
    | (false, t) => t

/-- Command 0x10: LAST_ERR, ALERT, CORE_UP; the read clears LAST_ERR. The PEC is the one the device appends where the master
acknowledges the byte (log 79). -/
def State.sbStatus (s : State) : State :=
  let w := fld s.sideband.lastErr.toNat 4 ||| mkBit 3 s.alertOn ||| mkBit 2 s.coreUp
  let s := s.sbAppend true [0x10] [w.setWidth 8]
  ({ s with sideband := { s.sideband with lastErr := 0 } }).answer .sb (.bytes [w.setWidth 8] false)

/-- The Alert Response Address is read (R334): the answer while the line is asserted, then its release. -/
def State.alertAnswer (s : State) : State :=
  if s.alertOn then
    ({ s with sideband := { s.sideband with answered := true } }).emit (.alertResponse (0x5C + s.boot.straps.sbAddr.setWidth 7))
  else s

/-! ## BAR2 (R319) -/

/-- Function f may write BAR2 byte a. -/
def bar2Writable (f : Fin 2) (a : Nat) : Bool :=
  (decide (0x5D00000 ≤ a) && decide (a < 0x6000000))
    || (decide (f.val = 1) && ((decide (0x5000000 ≤ a) && decide (a < 0x5800000)) || (decide (0x5A00000 ≤ a) && decide (a < 0x5C00000))))

/-- The path of a host function. -/
def fnPath (f : Fin 2) : Path :=
  if f.val = 1 then .f1 else .f0

/-- A write TLP: dropped and counted as one where the table does not permit all its bytes. -/
def State.bar2Put (s : State) (f : Fin 2) (off : Nat) (bs : List (Option Byte)) : State :=
  if s.tooEarly (fnPath f) then s.count .device 0 0x20 15 0
  else if (List.range bs.length).all (fun i => bar2Writable f (off + i)) then s.memStore off bs
  else s.count .host 0 8 31 0

/-- A read: bytes of SRAM, 0 beyond it, poisoned where a word is uncorrectable. -/
def State.bar2Get (s : State) (f : Fin 2) (off len : Nat) : State :=
  let inside := Nat.min len (0x6000000 - off)
  let ((bs, bad), s) := s.memRead off inside
  s.answer (fnPath f) (.bytes (bs ++ List.replicate (len - inside) 0) bad)

/-! ## Commands that are accesses -/

/-- A path reaches a BAR0 offset now: with the core held in reset only the side-band does, and of the standby island's
registers alone (R24); a host function does not while the HOST island is isolated or retired (R377, R380). -/
def State.reachable (s : State) (p : Path) (a : Nat) : Bool :=
  (s.coreUp && (s.hostUp || (pathFunc p).isNone)) || (p == .sb && s.sbReaches a)

/-- An access of path p at BAR0 offset a. While the core is held nothing serves the other paths, and the side-band is
refused with a NACK where it does not reach (R24). -/
def access (s : State) (p : Path) (a : Nat) (f : State → State) : Host.Outcome State Fault Refusal :=
  done s (if s.reachable p a then f s else if p = .sb then s.sbRefuse errCoreDown else s)

/-- A write of one register as a command. -/
def regAccess (s : State) (p : Path) (b : Block) (inst off : Nat) (v : Word) : Host.Outcome State Fault Refusal :=
  access s p (key b inst off) (fun s => s.regWrite p b inst off v)

end Sys2Proof.Machine
end

