-- ==== Sys2Proof/Machine/EngineMem.lean ====
section
/-! DEFINITION. An engine's loads and stores: the windows of R279, in the order of faults of R313. -/

namespace Sys2Proof.Machine

/-- What an engine address reaches (R279). -/
inductive Window where
  | consts (off : Nat)
  | ram (a : Nat) (writable : Bool)
  | regs (o : Nat)
  | none

/-- The window of address a for engine e. -/
def windowOf (e : Fin 8) (a : Int) : Window :=
  if a < 0 ∨ a ≥ 2 ^ 32 then .none
  else
    let n := a.toNat
    if 0x10000 ≤ n ∧ n < 0x14000 then .consts (n - 0x10000)
    else if 0x100000 ≤ n ∧ n < 0x140000 then .ram (engineBase + e.val * sliceSize + (n - 0x100000)) true
    else if 0x140000 ≤ n ∧ n < 0x240000 then
      .ram (engineBase + (n - 0x140000) / 0x20000 * sliceSize + (n - 0x140000) % 0x20000) false
    else if 0x1000000 ≤ n ∧ n < 0x1100000 then .regs (n - 0x1000000)
    else if 0x2000000 ≤ n ∧ n < 0x2400000 then .ram (graticuleBase + (n - 0x2000000)) true
    else if 0x3000000 ≤ n ∧ n < 0x3200000 then .ram (statsBase + (n - 0x3000000)) false
    else if 0x4000000 ≤ n ∧ n < 0x4100000 then .ram (noticeBase + (n - 0x4000000)) false
    else .none

/-- A load or store address (R305). -/
def Cpu.address (c : Cpu) (ra : Fin 32) (imm : BitVec 14) : Int :=
  (c.g[ra]).toNat + imm.toInt

/-- Misaligned, or a register access that is not 32 bits wide (R279, R305). -/
def misaligned (e : Fin 8) (w : Nat) (a : Int) : Bool :=
  decide (a % (w : Int) ≠ 0) || (match windowOf e a with
    | .regs _ => decide (w ≠ 4)
    | _ => false)

/-- The constant at this offset of the constant window stands in uncorrectable error (R313). -/
def State.constBad (s : State) (e : Fin 8) (off : Nat) : Bool :=
  (s.tgtBad (.eng e)).contains (off / 8)

/-- Bytes of the constant table; past CONST_W no rule states the value. -/
def State.constBytes (s : State) (e : Fin 8) (off w : Nat) : Nat × State :=
  let ks := (s.engines[e]).consts
  if off / 8 < ks.length then (beNat ((((ks.flatMap (fun k => beBytes 8 k.toNat))).drop off).take w), s)
  else let (v, s) := s.free; (v.toNat % 256 ^ w, s)

/-- The value of a load of w bytes, or its fault. -/
def State.loadValue (s : State) (e : Fin 8) (w : Nat) (a : Int) : Except Byte Nat × State :=
  if misaligned e w a then (.error causeAlign, s)
  else match windowOf e a with
    | .none => (.error causeWindow, s)
    | .consts off => if s.constBad e off then (.error causeEcc, s) else let (v, s) := s.constBytes e off w; (.ok v, s)
    | .ram x _ =>
      let ((bs, bad), s) := s.memRead x w
      if bad then (.error causeEcc, s) else (.ok (beNat bs), s)
    | .regs o => match s.hubRead (.eng e) o with
      | (some v, s) => (.ok v.toNat, s)
      | (none, s) => let (v, s) := s.free; (.ok (v.toNat % 2 ^ 32), s)

/-- A load of w bytes (R305). -/
def State.engLoad (s : State) (e : Fin 8) (w : Nat) (sign : Bool) (rd ra : Fin 32) (imm : BitVec 14) : State :=
  s.engIssue e (fun (s : State) =>
    let c := (s.engines[e]).cpu
    match s.loadValue e w (c.address ra imm) with
    | (.error f, s) => s.engFault e f
    | (.ok v, s) =>
      let r : DWord := if sign then BitVec.ofInt 64 (signed (8 * w) v) else BitVec.ofNat 64 v
      s.engPut e ((c.put rd r).next))

/-- A store of w bytes (R305). -/
def State.engStore (s : State) (e : Fin 8) (w : Nat) (rd ra : Fin 32) (imm : BitVec 14) : State :=
  s.engIssue e (fun (s : State) =>
    let c := (s.engines[e]).cpu
    let a := c.address ra imm
    let v := (c.g[rd]).toNat
    if misaligned e w a then s.engFault e causeAlign
    else match windowOf e a with
      | .none => s.engFault e causeWindow
      | .consts _ => s.engFault e causeWriteRo
      | .ram x true => (s.memStore x ((beBytes w v).map some)).engPut e c.next
      | .ram _ false => s.engFault e causeWriteRo
      | .regs o => (s.hubWrite (.eng e) o 0xFFFFFFFF (BitVec.ofNat 32 v) false none).engPut e c.next)

end Sys2Proof.Machine
end

