-- ==== Sys2Proof/Machine/Islands.lean ====
section
/-! DEFINITION. Commands of the islands, of oven loss, of the crossings and of the datum tick (R11 to R47), and the way of
a survey stamp to the field book (R42, R158, R172, R195). -/

namespace Sys2Proof.Machine

/-! ## Oven loss (R13) -/

/-- The settle detector restarts (R70). -/
def State.settleRestart (s : State) : State :=
  s.modOven (fun o => { o with
    settled := false, count := 0, prev := none, spoiled := s.witnessBad, gate := ⟨s.tick, none, 0, none⟩, tmoFrom := s.tick })

/-- A synthesizer's VCO tuning is held: LOCK reads 0 and no lock sequence starts. -/
def State.holdSyn (s : State) (y : Fin 9) : State :=
  match (s.syns[y]).phase with
  | .off => s
  | .failed => s
  | .holding => s
  | _ => if y.val = 8 ∧ s.ticking = false then s else (s.modSyn y (fun q => { q with phase := .holding })).cascadeLos y

/-- Oven loss for the core. -/
def State.ovenLost (s : State) : State :=
  let s := s.modOven (fun o => { o with oscLost := true, pullIn := false, lostAt := s.tick })
  let s := s.raise 0x0802 clsA 0x34 (args8 [byte 0xC0])
  let s := overFin 9 s (fun y s => s.holdSyn y)
  let s : State := { s.loopsOscLost with datums := s.loopsOscLost.datums.map (fun x => { x with traceable := false }) }
  (s.settleRestart).refresh

/-- No activity on OSC_IN for 2 µs (R12, R13): the standby clock falls over, and the core declares oven loss. -/
def State.oscGone (s : State) : State :=
  let s := s.modOven (fun o => { o with stbyRc := true })
  if s.oven.oscLost then s
  else if s.coreUp then s.ovenLost
  else s.modOven (fun o => { o with oscLost := true, lostAt := s.tick })

/-- The end of oven loss for the core. -/
def State.ovenBack (s : State) : State :=
  let us := Nat.min (2 ^ 32 - 1) (usOfTicks (s.tick - s.oven.lostAt).toNat)
  let s := (s.modOven (fun o => { o with oscLost := false, pullIn := decide ((s.syns[8]).phase = .holding) })).noteWarm
  let s := s.raise 0x0802 clsA 0x35 (args8 (beBytes 4 us))
  overFin 8 s (fun y s => if s.insvc (synIx y) then s.startLock (synIx y) else s)

/-- 1,024 cycles of renewed activity (R12, R13). -/
def State.oscReturns (s : State) : State :=
  if s.oven.stbyRc = false then s
  else
    let s := s.modOven (fun o => { o with stbyRc := false })
    if s.oven.oscLost = false then s
    else if s.coreUp then s.ovenBack
    else s.modOven (fun o => { o with oscLost := false })

/-- SYNB loses lock: the datum tick stops until it relocks (R216, R380). -/
def State.synbLost (s : State) : State :=
  (s.loseLock 8).stopTick

/-- SYNB's pull-in ends. -/
def State.pullInEnds (s : State) (locked : Bool) : State :=
  if s.oven.pullIn = false ∨ (s.syns[8]).phase ≠ .holding then s
  else
    let s := s.modOven (fun o => { o with pullIn := false })
    if locked then s.modSyn 8 (fun q => { q with phase := .locked }) else s.synbLost

def execOscLost (s : State) : Host.Outcome State Fault Refusal :=
  done s s.oscGone

def execOscBack (s : State) : Host.Outcome State Fault Refusal :=
  done s s.oscReturns

def execSynbPullInEnd (locked : Bool) (s : State) : Host.Outcome State Fault Refusal :=
  doneCore s (fun s => s.pullInEnds locked)

/-! ## Tick indices and crossings (R14 to R23) -/

/-- The fault block of the island that holds tick index i: SVG0–11, DATA, DATB, ENGA, ENGB (R382). -/
def tickBlock (i : Nat) : Nat :=
  if i < 12 then i else if i < 14 then 0x13 + (i - 12) else 0x52 + (i - 14)

/-- Every tick index that differs from the device's is reported (R14, R376). -/
def State.compareTicks (s : State) : State :=
  overFin 16 s (fun i s => if s.islandTick[i] = s.tick then s else s.report (tickBlock i.val) 2)

def execTickIndexCompare (s : State) : Host.Outcome State Fault Refusal :=
  doneCore s (fun s => s.compareTicks)

/-- The fault block of a destination of steering words. -/
def destBlock : Dest → Nat
  | .datum d => 0x13 + d.val / 4
  | .syn y => 0x18 + y.val
  | .tally n => 0x11 + n.val % 2

/-- The oldest word on its way from `src` to `dst` arrives: the list with it readable, and the word. -/
def arriveWord (src : Fin 16) (dst : Dest) : List XWord → List XWord × Option XWord
  | [] => ([], none)
  | w :: l =>
    if w.src = src ∧ w.dst = dst ∧ w.arrived = false then ({ w with arrived := true } :: l, some w)
    else ((w :: (arriveWord src dst l).1), (arriveWord src dst l).2)

/-- CROSSING_LATE (R19): the notice names the two islands, whose self-tests the fault manager runs. -/
def State.crossingLate (s : State) (w : XWord) : State :=
  let a := 0x11 + w.src.val % 2
  let b := destBlock w.dst
  ((s.raise 0x0802 clsB 0x31 (args8 [byte a, byte b])).report a 9).report b 9

/-- A word becomes readable in its destination island (R15, R16, R19). -/
def State.crossing (s : State) : Xing → State
  | .steer src dst =>
    let (ws, w) := arriveWord src dst s.xwords
    let s : State := { s with xwords := ws }
    match w with
    | some x => if x.apply.toNat ≤ s.tick.toNat then s.crossingLate x else s
    | none => s
  | .stamp g isl => s.modGroup g (fun q => if isl.val = 0 then { q with xa := arriveFirst q.xa } else { q with xb := arriveFirst q.xb })

def execCrossingWordArrival (x : Xing) (s : State) : Host.Outcome State Fault Refusal :=
  doneCore s (fun s => s.crossing x)

def execApplyTick (dst : Dest) (s : State) : Host.Outcome State Fault Refusal :=
  doneCore s (fun s => if s.ticking then s.applyDest dst else s)

def execCandWrite (p : Path) (n : Fin 16) (i : Fin 16) (v : Word) (s : State) : Host.Outcome State Fault Refusal :=
  regAccess s p .loop n.val (0x90 + 4 * i.val) v

def execSvinMapWrite (p : Path) (i : Fin 24) (v : Word) (s : State) : Host.Outcome State Fault Refusal :=
  regAccess s p .pinmux 0 (4 * i.val) v

/-! ## The datum tick (R35, R38) -/

/-- An engine's push queue gives one sample in each fabric cycle (R311). -/
def State.drainPush (s : State) (e : Fin 8) : State :=
  match (s.engines[e]).pushq with
  | [] => s
  | x :: rest => (s.modEng e (fun g => { g with pushq := rest })).offerSmp 5 e.val x (!s.warm) false

/-- UART frames that are complete have gone out (R180). -/
def State.uartTick (s : State) : State :=
  if s.chans.toList.any (fun c => c.txCur.isSome) then
    overFin 192 s (fun ch s => if (s.chans[ch]).txCur.isSome ∧ (s.chans[ch]).hand.isNone then s.txAdvance ch else s)
  else s

/-- An hour of the datum tick is over: the power-on hours count it (R368, log 156). -/
def State.hourTick (s : State) : State :=
  if s.tick.toNat % (3600 * secTicks) = 0 then s.arcCount (fun c => { c with hours := c.hours + 1 }) else s

/-- Each datum clock is compared with its mirrors in the engine islands every 1,024 ticks (R376). -/
def State.compareMirrors (s : State) : State :=
  if s.tick.toNat % 1024 ≠ 0 then s
  else overFin 8 s (fun d s =>
    let x := s.datums[d]
    let off (isl : Fin 2) : Bool := s.blkUp (0x52 + isl.val) && decide ((x.mirs[isl]).now ≠ x.clk.now)
    if s.datUp (datIsl d) && (off 0 || off 1) then s.report (0x13 + (datIsl d).val) 3 else s)

/-- A benchmark scan starts every 100 ms (R385). -/
def State.scanTick (s : State) : State :=
  if s.tick.toNat % (100 * msTicks) = 0 then { s with scanning := true } else s

/-- What else happens at a datum tick: the engines that wait test their events (R307), the fault manager acts on the reports it
has received (R377), failed VERIFYs end their second (R270), exchange instants pass (R259), UART frames complete, a change into
SERVICE that waited for the snapshot is made (R401), the steward is back from a FW_SWAP (R388), survey groups resume (R445),
channels turn to a new word or function (R167, R181), the power-on hours count (R368), push queues drain at every second tick.
-/
def State.tickRest (s : State) : State :=
  let s := overFin 12 s.meetEvents.compareMirrors.takeReports.scanTick.stewardBack (fun g s => s.groupResume g)
  let s := (((overFin 16 s (fun n s => (s.retrainDue n).pxTick n)).chansTurn).uartTick).serviceDue.hourTick
  if s.tick.getLsbD 0 then s else overFin 8 s (fun e s => s.drainPush e)

/-- The datum tick: the only command that moves every tick index by one. -/
def execDatumTick (s : State) : Host.Outcome State Fault Refusal :=
  if s.coreUp && s.ticking then
    let t := s.tickClocks
    let u := t.tickRest
    .next { u with pending := s.pending, tick := t.tick, islandTick := t.islandTick }
  else .next s

/-- Held steps and a held set act once 1 ms has passed since the previous (R38). -/
def State.holdRelease (s : State) (d : Fin 8) : State :=
  let x := s.datums[d]
  if s.ticking && s.spacingMet d && (!x.heldSteps.isEmpty || !x.heldSets.isEmpty) then s.releaseHeld d else s

def execStepHoldRelease (d : Fin 8) (s : State) : Host.Outcome State Fault Refusal :=
  doneCore s (fun s => s.holdRelease d)

/-! ## The way of a stamp (R42, R158, R172, R195) -/

/-- A survey group works: its I/O and core domains are on, its rail is not held off (R389, R445). -/
def State.groupOn (s : State) (g : Fin 12) : Bool :=
  s.domUp (30 + g.val) && s.domUp (42 + g.val) && !(s.groups[g]).supplyHeld

def execSurveyEdge (ch : Fin 192) (fall : Bool) (code : BitVec 12) (s : State) : Host.Outcome State Fault Refusal :=
  doneCore s (fun s => if s.groupOn (grpOf ch) then s.survEdge ch fall code else s)

def execBurstFifoDrain (g : Fin 12) (s : State) : Host.Outcome State Fault Refusal :=
  doneCore s (fun s => s.drainFifo g)

def execStampArrival (g : Fin 12) (isl : Fin 2) (s : State) : Host.Outcome State Fault Refusal :=
  doneCore s (fun s => s.stampArrives g isl)

def execFieldBookWrite (s : State) : Host.Outcome State Fault Refusal :=
  doneCore s (fun s => s.bookWrite)

end Sys2Proof.Machine
end

