-- ==== Sys2Proof/Machine/References.lean ====
section
/-! DEFINITION. Commands of the reference monitors, of qualification and of the settle detector (R53 to R85, R325). -/

namespace Sys2Proof.Machine

/-! ## Events and alarms (R57 to R68) -/

/-- A tick-domain edge latched in the present interval is stamped with this latching tick (R34, R158). -/
def State.latchTick (s : State) : DWord :=
  s.tick + 2

/-- A REFIN input as a candidate source. -/
def refinSrc (n : Fin 16) : Fin 96 :=
  n.castLE (by decide)

/-- A command of the reference island: isolated for its self-test, or retired, the island's monitors stand still (R377). -/
def doneRef (s : State) (f : State → State) : Host.Outcome State Fault Refusal :=
  doneCore s (fun s => if s.refUp then f s else s)

/-- An edge on a REFIN input (R56, R57, R59): any edge is activity, a selected one advances the pre-divider. -/
def State.refEdge (s : State) (n : Fin 16) (fall : Bool) (d : BitVec 14) : State :=
  let src := refinSrc n
  if s.rf .refin n.val 0 31 30 = 3 ∨ s.refUp = false then s
  else
    let s := s.modSlot src (fun y => { y with losCause := false, lastTr := s.tick })
    let y := s.slots[src]
    if s.ticking = false ∨ y.qstate = .off ∨ s.rb .refin n.val 0 29 ≠ fall then s
    else if y.preDiv = 0 then
      (s.modSlot src (fun y => { y with preDiv := s.srcDiv src - 1 })).monEvent src s.latchTick d (0, false) none
    else s.modSlot src (fun y => { y with preDiv := y.preDiv - 1 })

def execRefinEdge (n : Fin 16) (fall : Bool) (d : BitVec 14) (s : State) : Host.Outcome State Fault Refusal :=
  doneCore s (fun s => s.refEdge n fall d)

/-- The oldest sample that waits for a packet source has a place in the crossing from the packet timing engine, which holds 32
(R16): one that finds it full waits in front of it (DESIGN CHOICE, log 3). -/
def State.inCrossing (s : State) (src : Fin 96) : Bool :=
  !isPacket src || match (s.slots[src]).inbox with
    | [] => true
    | e :: _ => decide (((List.finRange 32).map (fun i =>
        ((s.slots[streamSrc i]).inbox.filter (fun f => decide (f.k.toNat < e.k.toNat))).length)).sum < 32)

/-- An event of another kind of source (R59): an edge of a recovered clock or of a synthesizer now, or the oldest event
that the datum island or the packet timing engine delivered. -/
def State.sourceEvent (s : State) (src : Fin 96) (d : BitVec 14) : State :=
  if src.val < 16 then s
  else if 32 ≤ src.val ∧ src.val < 88 then
    match (s.slots[src]).inbox with
    | [] => s
    | e :: rest => if s.inCrossing src = false then s else (s.modSlot src (fun y => { y with inbox := rest })).monEvent src e.k e.d (e.x, e.sat) e.label
  else if s.ticking && !s.lossNow src then s.monEvent src s.latchTick d (0, false) none
  else s

def execMonitorEvent (src : Fin 96) (d : BitVec 14) (s : State) : Host.Outcome State Fault Refusal :=
  doneCore s (fun s => s.sourceEvent src d)

/-- The fast loss detector of a CLOCK input: 800 ticks without an undivided transition (R59). -/
def State.fastLoss (s : State) (n : Fin 16) : State :=
  let y := s.slots[refinSrc n]
  if s.rf .refin n.val 0 31 30 ≠ 0 ∨ y.qstate = .off ∨ s.passed y.lastTr 800 = false then s
  else (s.modSlot (refinSrc n) (fun y => { y with losCause := true })).setLos (refinSrc n)

def execClockLosTimeout (n : Fin 16) (s : State) : Host.Outcome State Fault Refusal :=
  doneRef s (fun s => s.fastLoss n)

def execSourceLosReport (src : Fin 96) (s : State) : Host.Outcome State Fault Refusal :=
  doneRef s (fun s => if s.lossNow src then s.setLos src else s)

/-- (ACT_MISS + 0.25) nominal periods have passed since the previous event (R63); both instants are uncompensated. -/
def State.missed (s : State) (src : Fin 96) : Bool :=
  match (s.slots[src]).last with
  | none => false
  | some _ =>
    let sp := ovenInstant s.tick 0 - (s.slots[src]).lastRaw
    decide (s.nomFreq src ≠ 0 ∧ ((4 * Nat.max 1 (s.mn src 0x08 31 24) + 1) * periodUnits (s.srcDiv src) : Nat) ≤ sp * s.nomFreq src * 4)

/-- ACT sets by missing events. -/
def State.actMiss (s : State) (src : Fin 96) : State :=
  let y := s.slots[src]
  if y.qstate ≠ .off ∧ s.missed src then s.setAlarms src ⟨y.los, true, y.freq, y.phase⟩ else s

def execActMissTimeout (src : Fin 96) (s : State) : Host.Outcome State Fault Refusal :=
  doneRef s (fun s => s.actMiss src)

def execFreqGateClose (src : Fin 96) (s : State) : Host.Outcome State Fault Refusal :=
  doneRef s (fun s => s.closeGate src)

def execPhaseSample (src : Fin 96) (s : State) : Host.Outcome State Fault Refusal :=
  doneRef s (fun s => s.phaseSample src)

/-- PHASE clears PH_HOLD after the last sample that set it, by the PH_HOLD of the latest sample (R55, R68). -/
def State.phaseHold (s : State) (src : Fin 96) : State :=
  let y := s.slots[src]
  match y.phSetAt with
  | some k =>
    if y.phase ∧ s.passed k (y.phCfg.hold * msTicks) then s.setAlarms src ⟨y.los, y.act, y.freq, false⟩ else s
  | none => s

def execPhaseHoldExpiry (src : Fin 96) (s : State) : Host.Outcome State Fault Refusal :=
  doneRef s (fun s => s.phaseHold src)

/-! ## Writes of a slot (R57, R62, R75 to R79) -/

/-- A field of CTRL is written. -/
def State.ctrlField (s : State) (p : Path) (src : Fin 96) (mask v : Word) : State :=
  s.fieldWrite p .refin (src.val % 16) (slotOff src 0) mask v

def execSlotEnable (p : Path) (src : Fin 96) (s : State) : Host.Outcome State Fault Refusal :=
  access s p (key .refin (src.val % 16) (slotOff src 0)) (fun s => s.ctrlField p src 0x80000000 0x80000000)

def execSlotDisable (p : Path) (src : Fin 96) (s : State) : Host.Outcome State Fault Refusal :=
  access s p (key .refin (src.val % 16) (slotOff src 0)) (fun s => s.ctrlField p src 0x80000000 0)

def execLockoutSet (p : Path) (src : Fin 96) (s : State) : Host.Outcome State Fault Refusal :=
  access s p (key .refin (src.val % 16) (slotOff src 0)) (fun s => s.ctrlField p src 0x40000000 0x40000000)

def execLockoutClear (p : Path) (src : Fin 96) (s : State) : Host.Outcome State Fault Refusal :=
  access s p (key .refin (src.val % 16) (slotOff src 0)) (fun s => s.ctrlField p src 0x40000000 0)

def execQualOwnerWrite (p : Path) (src : Fin 96) (v : BitVec 4) (s : State) : Host.Outcome State Fault Refusal :=
  access s p (key .refin (src.val % 16) (slotOff src 0)) (fun s => s.ctrlField p src 0x0F000000 (fld v.toNat 24))

def execRefinCfgWrite (p : Path) (n : Fin 16) (v : Word) (s : State) : Host.Outcome State Fault Refusal :=
  regAccess s p .refin n.val 0 v

def execDelayCompWrite (p : Path) (src : Fin 96) (v : Word) (s : State) : Host.Outcome State Fault Refusal :=
  regAccess s p .refin (src.val % 16) (slotOff src 0x10) v

def execDelayCompApply (src : Fin 96) (s : State) : Host.Outcome State Fault Refusal :=
  doneRef s (fun s => if (s.slots[src]).qstate = .off then s else s.applyDelayComp src)

def execWtrExpiry (src : Fin 96) (s : State) : Host.Outcome State Fault Refusal :=
  doneRef s (fun s => s.evalQ src)

def execVerdictWrite (p : Path) (src : Fin 96) (v : Word) (s : State) : Host.Outcome State Fault Refusal :=
  regAccess s p .refin (src.val % 16) (slotOff src 0x14) v

/-- The verdict goes stale VTTL after the latest of the instants of R79. -/
def State.verdictAge (s : State) (src : Fin 96) : State :=
  let vttl := s.mn src 0x1C 15 0
  let y := s.slots[src]
  if (s.owner src).isNone ∨ vttl = 0 ∨ y.stale ∨ s.passed y.vttlFrom (vttl * msTicks) = false then s
  else
    let s := s.modSlot src (fun y => { y with stale := true })
    (s.raise 0x0802 clsB 0x32 (args8 [byte src.val])).evalQ src

def execVerdictStale (src : Fin 96) (s : State) : Host.Outcome State Fault Refusal :=
  doneRef s (fun s => s.verdictAge src)

def execQlFailed (n : Fin 16) (s : State) : Host.Outcome State Fault Refusal :=
  doneCore s (fun s => s.qlFails n)

/-! ## The oven's pin and the settle detector (R70, R71) -/

def execOvenWarmPin (level : Bool) (s : State) : Host.Outcome State Fault Refusal :=
  done s (s.modOven (fun o => { o with
    pin := level
    pinAt := if level = o.pin then o.pinAt else if s.coreUp then some s.tick else none }))

/-- The pin as an active level: OVEN_POL of the chosen sheet, active high while no copy is valid. -/
def State.pinActive (s : State) : Bool :=
  s.oven.pin == (!s.boot.sheet.valid || s.boot.sheet.ovenPol)

/-- OVEN_COLD (R71): every holdover estimator is cleared (R130). -/
def State.ovenCold (s : State) : State :=
  let s := ((s.modOven (fun o => { o with everWarm := false })).settleRestart).raise 0x0802 clsB 0x30 0
  overFin 16 s (fun n s => s.clearEst n)

/-- The 10 ms of the debounce have passed since the ball, or its active level, last changed (R70). -/
def State.pinSteady (s : State) : Bool :=
  match s.oven.pinAt with
  | none => true
  | some k => s.passed k (10 * msTicks)

/-- The debounced level takes the pin's level, once the pin has stood for 10 ms. -/
def State.debounce (s : State) : State :=
  let a := s.pinActive
  if a = s.oven.debounced ∨ s.pinSteady = false then s
  else
    let s := s.modOven (fun o => { o with debounced := a })
    if s.coreUp = false then s
    else if a then (s.modOven (fun o => { o with tmoFrom := s.tick })).noteWarm
    else if s.oven.everWarm then s.ovenCold
    else s

def execOvenWarmDebounced (s : State) : Host.Outcome State Fault Refusal :=
  done s s.debounce

/-- The witness of the settle detector, if its slot gives readings. -/
def State.witness (s : State) : Option (Fin 96) :=
  match fin? 96 (s.rf .device 0 0x0C 31 24) with
  | some w => if (s.slots[w]).qstate = .off ∨ s.nomFreq w = 0 then none else some w
  | none => none

/-- A valid gate's reading [2^-72]. Its change is judged by the SETTLE_SLOPE and SETTLE_CNT in force at the gate's close
(DESIGN CHOICE, log 12). -/
def State.settleReading (s : State) (v : Int) : State :=
  match s.oven.prev with
  | none => s.modOven (fun o => { o with prev := some v })
  | some u =>
    let quiet := decide ((v - u).natAbs < (s.r .device 0 0x10).toNat * 2 ^ 32)
    let n := if quiet then s.oven.count + 1 else 0
    let s := s.modOven (fun o => { o with prev := some v, count := n })
    if n ≥ Nat.max 1 (s.rf .device 0 0x0C 23 16) then (s.modOven (fun o => { o with settled := true })).noteWarm else s

/-- The reading [2^-72] of a complete gate, by the formula of R65 over the gate's own events (log entry 12). -/
def State.settleValue (s : State) (w : Fin 96) : Option Int :=
  match s.oven.gate.first, s.oven.gate.last with
  | some (t0, x0, nom), some (t1, x1, m) => some (freqOf (isPacket w) nom (s.srcDiv w) m (t0, x0) (t1, x1))
  | _, _ => none

/-- The next gate begins where this one ends; `first` is the event that opens it. -/
def State.nextGate (s : State) (first : Option (Int × Int × Nat)) : State :=
  s.modOven (fun o => { o with
    spoiled := s.witnessBad
    gate := ⟨o.gate.start + BitVec.ofNat 64 (16 * secTicks), first, if first.isSome then o.gate.n else 0, none⟩ })

/-- A 16 s gate on source `w` closes, where that is the witness, once its time has passed: spoiled, or with the reading of a
complete gate. -/
def State.settleGate (s : State) (w : Fin 96) : State :=
  if s.witness ≠ some w then s
  else
    let y := s.slots[w]
    if s.oven.settled ∨ s.passed s.oven.gate.start (16 * secTicks) = false then s
    else if s.oven.spoiled || y.act || y.los then
      (s.modOven (fun o => { o with count := 0, prev := none })).nextGate none
    else match s.settleValue w with
      | none => s
      | some v => (s.nextGate (s.oven.gate.last.map (fun e => (e.1, e.2.1, s.nomFreq w)))).settleReading v

def execSettleGateClose (src : Fin 96) (s : State) : Host.Outcome State Fault Refusal :=
  doneRef s (fun s => s.settleGate src)

def execSettleTimeout (s : State) : Host.Outcome State Fault Refusal :=
  doneCore s (fun s => s.settleTimer)

def execSettleWrite (p : Path) (slope : Bool) (v : Word) (s : State) : Host.Outcome State Fault Refusal :=
  regAccess s p .device 0 (if slope then 0x10 else 0x0C) v

/-! ## Clear on read (R325) -/

def execRcRead (p : Path) (off : Word) (s : State) : Host.Outcome State Fault Refusal :=
  access s p off.toNat (fun s => s.readAnswer p off.toNat)

end Sys2Proof.Machine
end

