-- ==== Sys2Proof/Machine/Loops.lean ====
section
/-! DEFINITION. Commands of the loops, of selection, holdover and twins (R86 to R139). -/

namespace Sys2Proof.Machine

/-! ## Samples and state (R92 to R107) -/

/-- The island of a loop is in service and powered (R377, R379, R389). -/
def State.loopIsland (s : State) (n : Fin 16) : Bool :=
  s.blkUp (0x11 + n.val % 2) && s.domUp (3 + n.val % 2)

/-- A command of a loop: one of an isolated or retired island evaluates, times and switches nothing; its consumers hold their
last words (R377, R380). -/
def doneLoop (s : State) (n : Fin 16) (f : State → State) : Host.Outcome State Fault Refusal :=
  doneCore s (fun s => if s.loopIsland n then f s else s)

/-- A sample closes at the 256th tick after its instant tick (R92); an armed program swaps first (R289). A loop of an
isolated island forms no sample. -/
def State.sampleDue (s : State) (n : Fin 16) : State :=
  match (s.loops[n]).instTick with
  | none => s
  | some k =>
    if s.loopEn n = false ∨ s.passed k 256 = false then s
    else if s.loopIsland n = false then s.modLoop n (fun l => { l with instTick := none })
    else
      let s := if (s.loops[n]).prog.due then s.swapNow (.loop n) false else s
      (s.closeSample n).refresh

def execSampleClose (n : Fin 16) (s : State) : Host.Outcome State Fault Refusal :=
  doneCore s (fun s => s.sampleDue n)

/-- ACQ_TMO expires in ACQUIRE (R105, R107). -/
def State.acqExpires (s : State) (n : Fin 16) : State :=
  if s.acqOver n = false ∨ (s.loops[n]).role = .standby then s else (s.acqEnds n).refresh

def execAcqTimeout (n : Fin 16) (s : State) : Host.Outcome State Fault Refusal :=
  doneLoop s n (fun s => s.acqExpires n)

/-! ## Loop registers (R95, R103, R105, R107, R109, R130, R134, R137) -/

/-- A field of LOOP[n].CFG is written. -/
def State.loopField (s : State) (p : Path) (n : Fin 16) (mask v : Word) : State :=
  s.fieldWrite p .loop n.val 0 mask v

def execLoopEnable (p : Path) (n : Fin 16) (s : State) : Host.Outcome State Fault Refusal :=
  access s p (key .loop n.val 0) (fun s => s.loopField p n 0x80000000 0x80000000)

def execLoopDisable (p : Path) (n : Fin 16) (s : State) : Host.Outcome State Fault Refusal :=
  access s p (key .loop n.val 0) (fun s => s.loopField p n 0x80000000 0)

def execLoopConsumerSelect (p : Path) (n : Fin 16) (dsel ssel : BitVec 4) (s : State) : Host.Outcome State Fault Refusal :=
  access s p (key .loop n.val 0) (fun s => s.loopField p n 0x0FF00000 (fld dsel.toNat 24 ||| fld ssel.toNat 20))

def execFree (p : Path) (n : Fin 16) (s : State) : Host.Outcome State Fault Refusal :=
  regAccess s p .loop n.val 0x0C 0x80000000

def execHoClear (p : Path) (n : Fin 16) (s : State) : Host.Outcome State Fault Refusal :=
  regAccess s p .loop n.val 0x0C 0x40000000

def execSampleRateWrite (p : Path) (n : Fin 16) (v : Word) (s : State) : Host.Outcome State Fault Refusal :=
  regAccess s p .loop n.val 0x1C v

def execCandBarClear (p : Path) (n : Fin 16) (v : Word) (s : State) : Host.Outcome State Fault Refusal :=
  regAccess s p .loop n.val 0x28 v

def execSelectWrite (p : Path) (n : Fin 16) (v : Word) (s : State) : Host.Outcome State Fault Refusal :=
  regAccess s p .loop n.val 0x10 v

def execTwinEnable (p : Path) (n : Fin 16) (s : State) : Host.Outcome State Fault Refusal :=
  access s p (key .loop n.val 0) (fun s => s.loopField p n 0x00020000 0x00020000)

def execTwinDisable (p : Path) (n : Fin 16) (s : State) : Host.Outcome State Fault Refusal :=
  access s p (key .loop n.val 0) (fun s => s.loopField p n 0x00020000 0)

def execSwap (p : Path) (n : Fin 16) (s : State) : Host.Outcome State Fault Refusal :=
  regAccess s p .loop n.val 0x18 0x08000000

/-! ## Selection and switching (R114 to R121) -/

/-- A selection tick: every tick whose index is a multiple of 781,250 (R114, R115). Banks and ports follow the loop's state
and source at once (R218, R237). -/
def State.selectTick (s : State) (n : Fin 16) : State :=
  if s.ticking && decide (s.tick.toNat % msTicks = 0) then ((s.takeSelect n).evaluate n none).refresh else s

def execSelectionTick (n : Fin 16) (s : State) : Host.Outcome State Fault Refusal :=
  doneLoop s n (fun s => s.selectTick n)

/-- An evaluation that is due outside the selection tick (R114, R121). -/
def State.selectNow (s : State) (n : Fin 16) : State :=
  match (s.loops[n]).evalDue with
  | none => s
  | some .abort => (s.evaluate n (some .abort)).refresh
  | some _ => (s.evaluate n none).refresh

def execSelectorEvaluate (n : Fin 16) (s : State) : Host.Outcome State Fault Refusal :=
  doneLoop s n (fun s => s.selectNow n)

/-- Hold-off expires (R119). -/
def State.holdoffEnds (s : State) (n : Fin 16) : State :=
  match (s.loops[n]).holdoffAt with
  | some k =>
    if (s.loops[n]).role = .standby ∨ s.passed k 0 = false then s
    else ((s.modLoop n (fun l => { l with holdoffAt := none })).evaluate n none).refresh
  | none => s

def execHoldoffExpiry (n : Fin 16) (s : State) : Host.Outcome State Fault Refusal :=
  doneLoop s n (fun s => s.holdoffEnds n)

/-- The window of a transaction is full: it commits (R120). A standby commits with its primary, by the same commit (R134). -/
def State.switchDue (s : State) (n : Fin 16) : State :=
  match (s.loops[n]).sw with
  | some w => if w.full && (s.loops[n]).role != .standby then (s.commitSw n).refresh else s
  | none => s

def execSwitchCommit (n : Fin 16) (s : State) : Host.Outcome State Fault Refusal :=
  doneLoop s n (fun s => s.switchDue n)

/-- A slew remainder of at most q is staged as the final step of the coming tick (R128). -/
def Datum.endSlew (x : Datum) : Datum :=
  let rem := x.remDue
  if x.bslewDue.isNone && decide (rem ≠ 0) && decide (rem.natAbs ≤ x.q) then
    { x with rem := 0, slewDue := [], slewStep := x.slewStep + rem }
  else x

def execSlewEnd (d : Fin 8) (s : State) : Host.Outcome State Fault Refusal :=
  doneCore s (fun s => s.modDatum d Datum.endSlew)

def execBslewWrite (p : Path) (d : Fin 8) (v : Word) (s : State) : Host.Outcome State Fault Refusal :=
  regAccess s p .datum d.val 0x08 v

/-! ## Holdover (R129 to R133) -/

def execQualifyingSecond (n : Fin 16) (s : State) : Host.Outcome State Fault Refusal :=
  doneLoop s n (fun s => s.secondDone n)

/-- The next second of a holdover has passed on the tally (R132). -/
def State.holdSecond (s : State) (n : Fin 16) : State :=
  let l := s.loops[n]
  let t := l.hoTau + 1
  if l.code.holds && decide (l.tally.now26 - l.hoAt ≥ (t * secNs * 2 ^ 26 : Nat)) then
    s.modLoop n (fun l => { l with hoTau := t, fho := s.hoFreq n t })
  else s

def execHoldoverSecond (n : Fin 16) (s : State) : Host.Outcome State Fault Refusal :=
  doneLoop s n (fun s => s.holdSecond n)

/-- Holdover expiry (R133). -/
def State.holdExpires (s : State) (n : Fin 16) : State :=
  let l := s.loops[n]
  if l.code = .holdover ∧ l.expired s.oven.modelA then
    ((s.loopCode n .extended).raise (0x0200 + 4 * n.val + 3) clsA 0x14 (args8 (beBytes 4 l.hoTau))).refresh
  else s

def execHoldoverExpired (n : Fin 16) (s : State) : Host.Outcome State Fault Refusal :=
  doneLoop s n (fun s => s.holdExpires n)

/-- The gazetteer holds an oven module, and 10 s have passed without a reading of it (R131, R132). -/
def State.tempLoss (s : State) : State :=
  if s.ovenEntry.isSome && s.passed s.oven.tempAt (10 * secTicks) then s.modOven (fun o => { o with tempLost := true }) else s

def execTempLostTimeout (s : State) : Host.Outcome State Fault Refusal :=
  doneCore s (fun s => s.tempLoss)

def execOvenModelBlock (s : State) : Host.Outcome State Fault Refusal :=
  doneCore s (fun s => s.modelBlock)

def execModelClear (p : Path) (s : State) : Host.Outcome State Fault Refusal :=
  regAccess s p .device 0 0x08 0x08000000

end Sys2Proof.Machine
end

