-- ==== Sys2Proof/Machine/Datums.lean ====
section
/-! DEFINITION. Commands of the datum clocks, of the time outputs and of the survey channels (R140 to R182). -/

namespace Sys2Proof.Machine

/-! ## Time labels and UTC (R142 to R150) -/

/-- Labels that waited too long go (R143), the oldest paired label is judged (R144). -/
def execTimeLabel (src : Fin 96) (s : State) : Host.Outcome State Fault Refusal :=
  doneCore s (fun s => (s.expireLabels src).judgeLabel src)

def execUtcWrite (p : Path) (d : Fin 8) (v : Word) (s : State) : Host.Outcome State Fault Refusal :=
  regAccess s p .datum d.val 0x10 v

def execLeapSecond (d : Fin 8) (s : State) : Host.Outcome State Fault Refusal :=
  doneCore s (fun s => s.leap d)

def execNowLatchRead (p : Path) (d : Fin 8) (s : State) : Host.Outcome State Fault Refusal :=
  access s p (key .datum d.val 0x20) (fun s => s.readAnswer p (key .datum d.val 0x20))

/-! ## Channels that act on their own (R151 to R154, R177 to R180) -/

/-- The datum clock of a channel's function works, so that its outputs act; else they hold their level (R380). -/
def State.chanUp (s : State) (ch : Fin 192) : Bool :=
  s.groupOn (grpOf ch) && s.datUp (datIsl (cfgDatum (s.cfgAct ch)))

def execPpsEdge (ch : Fin 192) (s : State) : Host.Outcome State Fault Refusal :=
  doneCore s (fun s => if s.chanUp ch then s.ppsFire ch else s)

def execPulseTrail (ch : Fin 192) (s : State) : Host.Outcome State Fault Refusal :=
  doneCore s (fun s => if s.chanUp ch && s.ticking then s.pulseEnd ch else s)

def execTodMessage (ch : Fin 192) (s : State) : Host.Outcome State Fault Refusal :=
  doneCore s (fun s => if s.chanUp ch && s.ticking then s.sendTod ch else s)

def execGraticuleFetch (g : Fin 12) (j : Fin 4) (s : State) : Host.Outcome State Fault Refusal :=
  doneCore s (fun s => if s.groupOn g then s.fetchAct g j else s)

def execGraticuleFire (g : Fin 12) (j : Fin 4) (s : State) : Host.Outcome State Fault Refusal :=
  doneCore s (fun s => if s.groupOn g && s.ticking then s.fireNext g j else s)

/-! ## The relief rotation (R160 to R163) -/

def execRotationStepStart (g : Fin 12) (s : State) : Host.Outcome State Fault Refusal :=
  doneCore s (fun s => if s.groupOn g then s.startRotation g else s)

def execCalTableBuilt (g : Fin 12) (hist : List Nat) (s : State) : Host.Outcome State Fault Refusal :=
  doneCore s (fun s => if s.groupOn g then s.buildTable g hist else s)

def execRelief (g : Fin 12) (dr dx : List (BitVec 12)) (tap : Bool) (s : State) : Host.Outcome State Fault Refusal :=
  doneCore s (fun s => if s.groupOn g then s.overlap g dr dx tap else s)

/-- 60 s without a relief core (R163). -/
def State.reliefTimeout (s : State) (g : Fin 12) : State :=
  let q := s.groups[g]
  if q.noRelief && s.passed q.reliefLostAt (60 * secTicks) then s.modGroup g (fun q => { q with frozen := true }) else s

def execReliefLostTimeout (g : Fin 12) (s : State) : Host.Outcome State Fault Refusal :=
  doneCore s (fun s => s.reliefTimeout g)

/-! ## Channel functions (R174 to R182) -/

def execChannelModeWrite (p : Path) (ch : Fin 192) (v : Word) (s : State) : Host.Outcome State Fault Refusal :=
  regAccess s p .survey (grpOf ch).val (chOff ch 0) v

def execHandoverEnd (ch : Fin 192) (s : State) : Host.Outcome State Fault Refusal :=
  doneCore s (fun s => s.handEnd ch)

def execIntervalOverflow (ch : Fin 192) (s : State) : Host.Outcome State Fault Refusal :=
  doneCore s (fun s => s.ovfInterval ch)

def execPeriodOverflow (ch : Fin 192) (s : State) : Host.Outcome State Fault Refusal :=
  doneCore s (fun s => s.ovfPeriod ch)

def execUartRxByte (ch : Fin 192) (b : Byte) (parityBit stop1 stop2 : Bool) (s : State) : Host.Outcome State Fault Refusal :=
  doneCore s (fun s => if s.groupOn (grpOf ch) && s.ticking then s.uartByte ch b parityBit stop1 stop2 else s)

def execRxdataRead (p : Path) (ch : Fin 192) (s : State) : Host.Outcome State Fault Refusal :=
  access s p (key .survey (grpOf ch).val (chOff ch 0x24)) (fun s => s.readAnswer p (key .survey (grpOf ch).val (chOff ch 0x24)))

def execTxdataWrite (p : Path) (ch : Fin 192) (v : Word) (s : State) : Host.Outcome State Fault Refusal :=
  regAccess s p .survey (grpOf ch).val (chOff ch 0x28) v

def execGpioOutWrite (p : Path) (ch : Fin 192) (out : Bool) (s : State) : Host.Outcome State Fault Refusal :=
  access s p (key .survey (grpOf ch).val (chOff ch 0x1C)) (fun s => s.fieldWrite p .survey (grpOf ch).val (chOff ch 0x1C) 0x08000000 (mkBit 27 out))

end Sys2Proof.Machine
end

