-- ==== Sys2Proof/Machine/Records.lean ====
section
/-! DEFINITION. Commands of the statistics units, of the field book with its drain and of the notice queue (R183 to
R203). -/

namespace Sys2Proof.Machine

/-! ## Statistics (R183 to R187) -/

/-- A command of the statistics island: isolated for its self-test, or retired, the island does nothing, and what is on its
way to it stalls (R377, R378). -/
def doneStat (s : State) (f : State → State) : Host.Outcome State Fault Refusal :=
  doneCore s (fun s => if s.blkUp 0x51 then f s else s)

def execStatsSample (u : Fin 32) (s : State) : Host.Outcome State Fault Refusal :=
  doneStat s (fun s => s.takeSample u)

/-- Offset of a register that drops the open window (R425). -/
def statsOff : StatsReg → Nat
  | .cfg => 0x00
  | .winN => 0x04
  | .winMs => 0x08
  | .nomHi => 0x10
  | .nomLo => 0x14

def execStatsCfgWrite (p : Path) (u : Fin 32) (r : StatsReg) (v : Word) (s : State) : Host.Outcome State Fault Refusal :=
  regAccess s p .stats u.val (statsOff r) v

def execClose (p : Path) (u : Fin 32) (s : State) : Host.Outcome State Fault Refusal :=
  regAccess s p .stats u.val 0x0C 0x80000000

def execStatsWindowClose (u : Fin 32) (s : State) : Host.Outcome State Fault Refusal :=
  doneStat s (fun s => s.closeTime u)

def execStatsCommit (u : Fin 32) (s : State) : Host.Outcome State Fault Refusal :=
  doneStat s (fun s => s.commitStats u)

/-! ## Field book and drain (R188 to R199) -/

def execFieldbookCfgWrite (p : Path) (size : Bool) (v : Word) (s : State) : Host.Outcome State Fault Refusal :=
  regAccess s p .fieldbook 0 (if size then 0x08 else 0x04) v

def execFieldbookRdWrite (p : Path) (v : Word) (s : State) : Host.Outcome State Fault Refusal :=
  regAccess s p .fieldbook 0 0x10 v

def execDrainBatch (groups : Nat) (result : DrainEnd) (s : State) : Host.Outcome State Fault Refusal :=
  doneCore s (fun s => s.drain groups result)

def execDrainModTimeout (s : State) : Host.Outcome State Fault Refusal :=
  doneCore s (fun s => s.drainTimeout)

def execDrainEnWrite (p : Path) (v : Word) (s : State) : Host.Outcome State Fault Refusal :=
  regAccess s p .fieldbook 0 0x80 v

def execHostRdWrite (p : Path) (v : Word) (s : State) : Host.Outcome State Fault Refusal :=
  regAccess s p .fieldbook 0 0xA0 v

/-! ## Notices (R200 to R203) -/

/-- Member k of the n sources that each instance of a block has, from `base` on (R201). -/
def srcOf (base insts n k i : Nat) : Bool :=
  decide (base ≤ i ∧ i < base + n * insts ∧ (i - base) % n = k)

/-- Source of a fault-manager block from `a` to `b` (R201, R382). -/
def faultSrc (a b i : Nat) : Bool :=
  decide (0x0700 + a ≤ i ∧ i ≤ 0x0700 + b)

/-- The source, the class and the code belong together (R201, R382, R414); an engine's own codes carry any class (R311). -/
def noticeOk (i : Nat) (cls : BitVec 2) (code : Byte) : Bool :=
  let c := code.toNat
  let engine := srcOf 0x0600 8 1 0 i
  if engine then c ≠ 0xFF || cls == clsB
  else if c = 0x58 then decide (i < 0x0780) && faultSrc 0 0x7F i && blockListed (i - 0x0700) && cls == blockClass (i - 0x0700)
  else
    let want : Option (Bool × BitVec 2) :=
      if c = 1 ∨ c = 2 then some (srcOf 0 96 3 0 i, clsA)
      else if c = 3 ∨ c = 4 then some (srcOf 0 96 3 1 i, clsC)
      else if c = 5 then some (srcOf 0 96 3 2 i, clsC)
      else if c = 0x10 then some (srcOf 0x0200 16 4 0 i, clsA)
      else if c = 0x11 then some (srcOf 0x0200 16 4 1 i, clsA)
      else if c = 0x12 ∨ c = 0x13 then some (srcOf 0x0200 16 4 2 i, clsB)
      else if c = 0x14 ∨ c = 0x15 then some (srcOf 0x0200 16 4 3 i, clsA)
      else if c = 0x18 ∨ c = 0x19 then some (srcOf 0x0240 8 2 0 i, clsA)
      else if c = 0x20 then some (srcOf 0x03C0 12 1 0 i, clsD)
      else if c = 0x21 ∨ c = 0x22 then some (srcOf 0x03C0 12 1 0 i, clsB)
      else if c = 0x23 then some (srcOf 0x0300 192 1 0 i, clsC)
      else if c = 0x24 then some (srcOf 0x0400 32 1 0 i, clsC)
      else if c = 0x28 then some (decide (i = 0x0800), clsC)
      else if c = 0x29 then some (decide (i = 0x0800), clsB)
      else if c = 0x2A then some (decide (i = 0x0801), clsA)
      else if 0x30 ≤ c ∧ c ≤ 0x32 then some (decide (i = 0x0802), clsB)
      else if 0x33 ≤ c ∧ c ≤ 0x35 then some (decide (i = 0x0802), clsA)
      else if c = 0x38 then some (faultSrc 0x18 0x20 i, clsB)
      else if (0x40 ≤ c ∧ c ≤ 0x43) ∨ c = 0x48 ∨ c = 0x49 then some (srcOf 0x0500 16 4 0 i, clsB)
      else if c = 0x44 then some (srcOf 0x0500 16 4 1 i, clsA)
      else if c = 0x45 ∨ c = 0x46 ∨ (0x4A ≤ c ∧ c ≤ 0x4D) then some (srcOf 0x0500 16 4 2 i, clsB)
      else if c = 0x47 ∨ c = 0x4E then some (srcOf 0x0500 16 4 3 i, clsC)
      else if c = 0x59 then some (faultSrc 0x59 0x59 i, clsD)
      else if 0x5A ≤ c ∧ c ≤ 0x5D then some (faultSrc 0x58 0x58 i, clsB)
      else if c = 0x60 then some (faultSrc 0x5B 0x5B i, clsC)
      else if c = 0x61 then some (faultSrc 0x5A 0x5A i, clsB)
      else if c = 0x62 ∨ c = 0x63 then some (faultSrc 0x5C 0x5C i, clsB)
      else if c = 0x64 ∨ c = 0x65 then some (faultSrc 0x60 0x61 i, clsB)
      else if c = 0x68 ∨ c = 0x69 then some (faultSrc 0x70 0x70 i, clsA)
      else if c = 0x6A then some (faultSrc 0x7F 0x7F i, clsB)
      else if c = 0x6B then some (faultSrc 0x7F 0x7F i || faultSrc 0x28 0x33 i, clsB)
      else none
    match want with
    | some (src, k) => src && cls == k
    | none => false

/-- The bytes of ARGS, 24 to 31, that the row of a code lists (R414); an engine's own codes use any. -/
def argBytes (engine : Bool) (c : Nat) : List Nat :=
  if c = 0xFF then [24, 26, 27]
  else if engine then [24, 25, 26, 27, 28, 29, 30, 31]
  else if c = 0x19 ∨ c = 0x20 ∨ c = 0x2A ∨ c = 0x4A ∨ c = 0x4E ∨ c = 0x5A then [24, 25, 26, 27, 28, 29, 30, 31]
  else if c = 1 then [24, 25, 26, 27, 28]
  else if c = 5 ∨ c = 0x28 ∨ c = 0x68 ∨ c = 0x69 then [24, 28, 29, 30, 31]
  else if c = 0x10 ∨ c = 0x11 ∨ c = 0x33 then [24, 25, 26]
  else if c = 0x13 then [24, 26, 27]
  else if c = 0x14 ∨ c = 0x23 ∨ c = 0x35 ∨ (0x58 ≤ c ∧ c ≤ 0x59) ∨ c = 0x60 ∨ c = 0x61 then [24, 25, 26, 27]
  else if c = 0x18 then [24, 26, 27, 28, 29, 30, 31]
  else if c = 0x22 ∨ c = 0x31 ∨ (0x44 ≤ c ∧ c ≤ 0x47) ∨ c = 0x5B ∨ c = 0x6A ∨ c = 0x6B then [24, 25]
  else if c = 0x30 ∨ (0x40 ≤ c ∧ c ≤ 0x43) ∨ c = 0x48 ∨ c = 0x49 ∨ (0x4B ≤ c ∧ c ≤ 0x4D) ∨ c = 0x5C ∨ c = 0x5D ∨ c = 0x64
      ∨ c = 0x65 then []
  else [24]

/-- The bits of ARGS that a source fills for a code: unlisted bytes are 0 (R414). -/
def argMask (src : BitVec 16) (code : Byte) : BitVec 64 :=
  (argBytes (srcOf 0x0600 8 1 0 src.toNat) code.toNat).foldl (fun m b => m ||| (0xFF : BitVec 64) <<< (8 * (31 - b))) 0

def execNoticeOccurrence (src : BitVec 16) (cls : BitVec 2) (code : Byte) (args : BitVec 64) (s : State) :
    Host.Outcome State Fault Refusal :=
  doneCore s (fun s => if noticeOk src.toNat cls code then s.raise src.toNat cls code (args &&& argMask src code) else s)

def execNoticeRdWrite (p : Path) (v : Word) (s : State) : Host.Outcome State Fault Refusal :=
  regAccess s p .notice 0 0x08 v

end Sys2Proof.Machine
end

