-- ==== Sys2Proof/Machine/Synths.lean ====
section
/-! DEFINITION. Commands of the synthesizers, the output banks and the alignment lines (R204 to R231). -/

namespace Sys2Proof.Machine

/-! ## Lock sequences (R210 to R217) -/

/-- A synthesizer that may lock: its reference is there and its block is not isolated (R13, R377). -/
def State.canLock (s : State) (y : Fin 9) : Bool :=
  !s.oven.oscLost && s.blkUp (0x18 + y.val) && s.insvc y

/-- A full lock sequence starts, unless one runs (R212). SYNB runs one from reset release, or where a keeper commands it. -/
def State.lockStart (s : State) (y : Fin 9) : State :=
  match (s.syns[y]).phase with
  | .locking => s
  | .short => s
  | .holding => s
  | _ => if y.val < 8 ∧ s.canLock y then s.startLock y else s

def execLockSequenceStart (y : Fin 9) (s : State) : Host.Outcome State Fault Refusal :=
  doneCore s (fun s => s.lockStart y)

/-- A datum clock at the tick at which SYNB first reports lock (R14, R140). -/
def Datum.zeroed (x : Datum) : Datum :=
  { x with clk := Clock.reset, mirs := Vector.replicate 2 Clock.reset }

/-- SYNB first reports lock (R14): every tick index, datum clock and tally starts from 0, and the tick runs. The boot ROM then
checks the cartouche (R405). -/
def State.synbLocks (s : State) (band : BitVec 6) : State :=
  let s := s.reportLock 8 band
  let s : State := { s with
    tick := 0
    islandTick := Vector.replicate 16 0
    ticking := true
    scanning := true
    datums := s.datums.map Datum.zeroed
    loops := s.loops.map (fun l => { l with tally := Clock.reset, rates := Clock.reset.segs }) }
  (overFin 192 s.cartCheck (fun ch s => s.outWritten ch)).refresh

/-- LOCK goes to 1 in a lock sequence (R212); the first lock of SYNB starts the datum tick. -/
def execSynLock (y : Fin 9) (band : BitVec 6) (s : State) : Host.Outcome State Fault Refusal :=
  if s.coreUp ∧ (s.syns[y]).phase = .locking ∧ s.oven.oscLost = false then
    if y.val = 8 then .next { s.synbLocks band with pending := s.pending }
    else done s ((s.reportLock y band).refresh)
  else done s s

/-- ON_GRID goes to 1 at the end of a full sequence (R212, R214). -/
def State.gridReached (s : State) (y : Fin 9) : State :=
  let q := s.syns[y]
  if q.phase = .locked ∧ q.seqOn then s.reportGrid y else s

def execOnGrid (y : Fin 9) (s : State) : Host.Outcome State Fault Refusal :=
  doneCore s (fun s => s.gridReached y)

def execOutputStart (o : Fin 48) (s : State) : Host.Outcome State Fault Refusal :=
  doneCore s (fun s => s.outStarts o)

def execLockSequenceFail (y : Fin 9) (s : State) : Host.Outcome State Fault Refusal :=
  doneCore s (fun s => if (s.syns[y]).phase = .locking then (s.failLock y).refresh else s)

/-- A failed sequence repeats after 1 ms (R213); while SYNB has no lock the tick does not measure that time. -/
def State.lockAgain (s : State) (y : Fin 9) : State :=
  let q := s.syns[y]
  if q.phase = .failed ∧ s.canLock y ∧ (y.val = 8 ∨ s.passed q.lolAt msTicks) then s.startLock y else s

def execLockRetry (y : Fin 9) (s : State) : Host.Outcome State Fault Refusal :=
  doneCore s (fun s => s.lockAgain y)

/-- Loss of lock (R216). -/
def State.lolDeclared (s : State) (y : Fin 9) : State :=
  if (s.syns[y]).phase ≠ .locked then s
  else if y.val = 8 then s.synbLost
  else s.loseLock y

def execSynLol (y : Fin 9) (s : State) : Host.Outcome State Fault Refusal :=
  doneCore s (fun s => s.lolDeclared y)

/-- 20 µs without lock: the short lock sequence starts (R217). -/
def State.regainEnds (s : State) (y : Fin 9) : State :=
  let q := s.syns[y]
  if y.val < 8 ∧ q.phase = .regain ∧ s.passed q.lolAt regainTicks then
    (s.modSyn y (fun q => { q.stopContour with phase := .short, onGrid := false })).refresh
  else s

def execRegainTimeout (y : Fin 9) (s : State) : Host.Outcome State Fault Refusal :=
  doneCore s (fun s => s.regainEnds y)

/-- Lock returns in the present band; the divider phase is not measured again (R217). -/
def State.regained (s : State) (y : Fin 9) : State :=
  if y.val < 8 ∧ (s.syns[y]).phase = .regain then (s.modSyn y (fun q => { q with phase := .locked, onGrid := false })).refresh
  else s

def execInBandRegain (y : Fin 9) (s : State) : Host.Outcome State Fault Refusal :=
  doneCore s (fun s => s.regained y)

/-- The short sequence searches the present band and the two beside it (R217). -/
def bandNear (old new : BitVec 6) : Bool :=
  decide (new.toNat ≤ old.toNat + 1 ∧ old.toNat ≤ new.toNat + 1)

/-- The short lock sequence ends (R217), locked in a band it searches, or without lock. -/
def State.shortEnds (s : State) (y : Fin 9) (ok : Bool) (band : BitVec 6) : State :=
  if (s.syns[y]).phase ≠ .short ∨ (ok = true ∧ bandNear (s.syns[y]).band band = false) then s
  else if ok then ((s.reportLock y band).restartFed y).reportGrid y
  else (s.failLock y).startLock y

def execShortLockSequenceEnd (y : Fin 9) (ok : Bool) (band : BitVec 6) (s : State) : Host.Outcome State Fault Refusal :=
  doneCore s (fun s => s.shortEnds y ok band)

def execRelock (p : Path) (y : Fin 9) (s : State) : Host.Outcome State Fault Refusal :=
  regAccess s p .synth y.val 0x08 0x80000000

/-! ## Contours, banks, lines and plans (R205, R219, R224 to R229) -/

def execContourStep (y : Fin 9) (s : State) : Host.Outcome State Fault Refusal :=
  doneCore s (fun s => if y.val < 8 && s.ticking then s.stepContour y else s)

def execOutbankCtrlWrite (p : Path) (b : Fin 12) (v : Word) (s : State) : Host.Outcome State Fault Refusal :=
  regAccess s p .outbank b.val 0x00 v

def execAlignUpdate (a : Fin 4) (edges : List LineEdge) (s : State) : Host.Outcome State Fault Refusal :=
  doneCore s (fun s => s.alignUpdate a edges)

def execBankSupplyMismatch (m : BankSupply) (s : State) : Host.Outcome State Fault Refusal :=
  doneCore s (fun s => s.bankMismatch m.b m.mv)

def execPlanApply (s : State) : Host.Outcome State Fault Refusal :=
  doneCore s (fun s => s.applyPlan)

def execAlignHandoverSwitch (b : Fin 12) (edges : List (LineEdge × LineEdge)) (s : State) : Host.Outcome State Fault Refusal :=
  doneCore s (fun s => s.switchBank b edges)

end Sys2Proof.Machine
end

