-- ==== Sys2Proof/Machine/Ports.lean ====
section
/-! DEFINITION. Commands of the timing ports, of PTP and of ESMC (R232 to R248). -/

namespace Sys2Proof.Machine

/-- A command of the packet timing engine. -/
def donePte (s : State) (f : State → State) : Host.Outcome State Fault Refusal :=
  doneCore s (fun s => if s.pteOn then f s else s)

/-! ## Ports and links -/

def execPortCfgWrite (p : Path) (n : Fin 16) (v : Word) (s : State) : Host.Outcome State Fault Refusal :=
  regAccess s p .port n.val 0x00 v

def execLinkUp (n : Fin 16) (s : State) : Host.Outcome State Fault Refusal :=
  doneCore s (fun s => s.linkUp' n)

def execLinkDown (n : Fin 16) (s : State) : Host.Outcome State Fault Refusal :=
  doneCore s (fun s => s.linkDown' n)

/-- A port that runs a PCS: Ethernet timing MAC or Reistica link. -/
def State.portRuns (s : State) (n : Fin 16) : Bool :=
  s.isEth n || s.isReist n

/-- The receive CDR loses lock (R59, R233, R248). -/
def State.cdrLost (s : State) (n : Fin 16) : State :=
  if (s.ports[n]).cdr = false then s
  else ((s.modPort n (fun p => { p with cdr := false })).setLos (portSrc n)).portNotice n 0x42

def execCdrUnlock (n : Fin 16) (s : State) : Host.Outcome State Fault Refusal :=
  doneCore s (fun s => s.cdrLost n)

def execCdrLock (n : Fin 16) (s : State) : Host.Outcome State Fault Refusal :=
  doneCore s (fun s => if s.portRuns n then s.modPort n (fun p => { p with cdr := true }) else s)

/-- RS-FEC codeword alignment is lost (R233, R248). -/
def State.fecLost (s : State) (n : Fin 16) : State :=
  if (s.ports[n]).fec then (s.modPort n (fun p => { p with fec := false })).portNotice n 0x43 else s

def execFecAlignLost (n : Fin 16) (s : State) : Host.Outcome State Fault Refusal :=
  doneCore s (fun s => s.fecLost n)

def execFecAlignGained (n : Fin 16) (s : State) : Host.Outcome State Fault Refusal :=
  doneCore s (fun s => if s.portRuns n && s.rsFec n then s.modPort n (fun p => { p with fec := true }) else s)

def execFrameDiscard (n : Fin 16) (hdr : Option (Byte × Byte)) (s : State) : Host.Outcome State Fault Refusal :=
  doneCore s (fun s => if s.portRuns n then s.discardFrame n hdr else s)

/-! ## PTP messages -/

def execSyncRx (n : Fin 16) (sess : BitVec 9) (seq : BitVec 16) (fl : SyncFlags) (t1 : Stamp) (rate : BitVec 32) (tl : PtpTail)
    (tb : Edge) (var : Nat) (s : State) : Host.Outcome State Fault Refusal :=
  donePte s (fun s => s.takeTail n tl (fun s => s.withSess n sess (fun s =>
    s.rxSync n sess seq fl.twoStep fl.ptpTimescale t1 tl.cf rate tb var)))

def execFollowUpRx (n : Fin 16) (sess : BitVec 9) (seq : BitVec 16) (t1 : Stamp) (rate : BitVec 32) (tl : PtpTail)
    (s : State) : Host.Outcome State Fault Refusal :=
  donePte s (fun s => s.takeTail n tl (fun s => s.withSess n sess (fun s => s.rxFollowUp n sess seq t1 tl.cf rate)))

def execDelayReqRx (n : Fin 16) (sess : BitVec 9) (seq : BitVec 16) (tl : PtpTail) (tb : Edge) (var : Nat)
    (s : State) : Host.Outcome State Fault Refusal :=
  donePte s (fun s => s.takeTail n tl (fun s => s.withSess n sess (fun s => s.rxDelayReq n sess seq tl.cf tb var)))

def execDelayRespRx (n : Fin 16) (sess : BitVec 9) (seq : BitVec 16) (t4 : Stamp) (tl : PtpTail) (s : State) :
    Host.Outcome State Fault Refusal :=
  donePte s (fun s => s.takeTail n tl (fun s => s.withSess n sess (fun s => s.rxDelayResp n sess seq t4 tl.cf)))

def execPdelayReqRx (n : Fin 16) (seq : BitVec 16) (tl : PtpTail) (rx tx : Point)
    (s : State) : Host.Outcome State Fault Refusal :=
  donePte s (fun s => s.takeTail n tl (fun s => s.rxPdelayReq n seq tl.cf rx.edge rx.var tx.edge tx.var))

def execPdelayRespRx (n : Fin 16) (seq : BitVec 16) (t2 t3 : Stamp) (tl : PtpTail) (tb : Edge) (var : Nat)
    (s : State) : Host.Outcome State Fault Refusal :=
  donePte s (fun s => s.takeTail n tl (fun s => s.rxPdelayResp n seq t2 t3 tl.cf tb var))

def execAnnounceRx (n : Fin 16) (sess : BitVec 9) (clockClass : Byte) (bench : Option (BitVec 256 × Word)) (others : Nat) (auth : Bool)
    (s : State) : Host.Outcome State Fault Refusal :=
  donePte s (fun s => s.takeTail n ⟨0, others, auth⟩ (fun s => s.withSess n sess (fun s => s.rxAnnounce n sess clockClass bench)))

def execSyncTx (i : Fin 8) (n : Fin 16) (sess : BitVec 9) (oneStep : Bool) (tb : Edge) (var : Nat) (s : State) :
    Host.Outcome State Fault Refusal :=
  donePte s (fun s => s.withSess n sess (fun s => s.txSync i n sess oneStep tb var))

def execDelayReqTx (i : Fin 8) (n : Fin 16) (sess : BitVec 9) (tb : Edge) (var : Nat) (s : State) :
    Host.Outcome State Fault Refusal :=
  donePte s (fun s => s.withSess n sess (fun s => s.txDelayReq i n sess tb var))

def execAnnounceTx (i : Fin 8) (n : Fin 16) (sess : BitVec 9) (s : State) : Host.Outcome State Fault Refusal :=
  donePte s (fun s => s.withSess n sess (fun s => s.txAnnounce i n sess))

def execStreamWindowClose (i : Fin 32) (s : State) : Host.Outcome State Fault Refusal :=
  donePte s (fun s => s.closeStream i)

def execParentLost (n : Fin 16) (sess : BitVec 9) (s : State) : Host.Outcome State Fault Refusal :=
  donePte s (fun s => s.parentLost n sess)

def execGrantLapse (n : Fin 16) (sess : BitVec 9) (l : Lapse) (s : State) : Host.Outcome State Fault Refusal :=
  donePte s (fun s => s.grantLapse n sess l)

/-! ## ESMC and injected frames -/

def execEsmcPduRx (n : Fin 16) (ssm : BitVec 4) (essm : Option Essm) (info : Bool) (s : State) : Host.Outcome State Fault Refusal :=
  donePte s (fun s => s.rxEsmc n ssm essm info)

def execEsmcInfoTx (n : Fin 16) (s : State) : Host.Outcome State Fault Refusal :=
  donePte s (fun s => s.txEsmc n)

def execTxqStamp (n : Fin 16) (id seq : BitVec 16) (msgType : BitVec 4) (domain : Byte) (tb : Edge) (var : Nat) (s : State) :
    Host.Outcome State Fault Refusal :=
  donePte s (fun s => if s.ptpUp n then s.txqPut n id seq msgType domain tb var else s)

def execTxqPop (p : Path) (n : Fin 16) (v : Word) (s : State) : Host.Outcome State Fault Refusal :=
  regAccess s p .port n.val 0x18 v

end Sys2Proof.Machine
end

