-- ==== Sys2Proof/Machine/Reistica.lean ====
section
/-! DEFINITION. Commands of the Reistica link (R249 to R274). The link runs in the port and the packet timing engine (R271). -/

namespace Sys2Proof.Machine

/-! ## Frames -/

def execTrainRx (n : Fin 16) (seq ack : Byte) (_devId : BitVec 64) (link : Byte) (s : State) : Host.Outcome State Fault Refusal :=
  donePte s (fun s => if s.reistUp n then s.rxTrain n seq ack link else s)

/-- In TRAIN the port sends TRAIN frames (R250, R252). -/
def State.trainSends (s : State) (n : Fin 16) : State :=
  if s.reistUp n ∧ (s.ports[n]).r.lstate = .train then
    s.sendFrame n 1 (beBytes 8 Config.devId.toNat ++ [s.linkByte n])
  else s

def execTrainTx (n : Fin 16) (s : State) : Host.Outcome State Fault Refusal :=
  donePte s (fun s => s.trainSends n)

def execLegendRx (n : Fin 16) (part : Bool) (seq ack : Byte) (payload : List Byte) (s : State) : Host.Outcome State Fault Refusal :=
  donePte s (fun s => s.rxLegend n part seq ack payload)

def execLegendTx (n : Fin 16) (s : State) : Host.Outcome State Fault Refusal :=
  donePte s (fun s => s.txLegend n)

def execPhaseTx (n : Fin 16) (tb : Edge) (var : Nat) (s : State) : Host.Outcome State Fault Refusal :=
  donePte s (fun s => s.txPhase n tb var)

def execPhaseRx (n : Fin 16) (seq ack : Byte) (f : PhaseFrame) (bounds : List Edge) (var : Nat) (s : State) :
    Host.Outcome State Fault Refusal :=
  donePte s (fun s => s.rxPhase n seq ack f bounds var)

/-! ## The reversal survey (R265 to R267) -/

def execSurveyReqRx (n : Fin 16) (f : SurveyHead) (log2 : Byte) (s : State) : Host.Outcome State Fault Refusal :=
  donePte s (fun s => if s.reistUp n then (s.rxHeader n f.seq f.ack).rxSurveyReq n f.id log2 else s)

/-- The partner acknowledges this end's request: the survey starts with the SURV_LOG2 the ACK carries (R265). -/
def State.surveyAcked (s : State) (n : Fin 16) (id log2 : Byte) : State :=
  if (s.ports[n]).r.reqOut = some id ∧ (s.ports[n]).r.lstate = .up then s.startSurvey n id log2.toNat else s

def execSurveyAckRx (n : Fin 16) (f : SurveyHead) (log2 : Byte) (s : State) : Host.Outcome State Fault Refusal :=
  donePte s (fun s => if s.reistUp n then (s.rxHeader n f.seq f.ack).surveyAcked n f.id log2 else s)

/-- An ABORT frame ends the survey or turns the request away, whatever SURV_ID it names (R267). -/
def State.surveyRefused (s : State) (n : Fin 16) : State :=
  let r := (s.ports[n]).r
  if r.surveying || r.reqOut.isSome then s.abortSurvey n else s

def execSurveyAbortRx (n : Fin 16) (f : SurveyHead) (s : State) : Host.Outcome State Fault Refusal :=
  donePte s (fun s => if s.reistUp n then (s.rxHeader n f.seq f.ack).surveyRefused n else s)

def execSurveyPhaseEnd (n : Fin 16) (s : State) : Host.Outcome State Fault Refusal :=
  donePte s (fun s => s.phaseEnd n)

def execSurveyDone (n : Fin 16) (s : State) : Host.Outcome State Fault Refusal :=
  donePte s (fun s => s.surveyDone n)

def execSurvIntTimer (n : Fin 16) (s : State) : Host.Outcome State Fault Refusal :=
  donePte s (fun s => s.survTimer n)

def execSwapRelockTimeout (n : Fin 16) (s : State) : Host.Outcome State Fault Refusal :=
  donePte s (fun s => s.relockTimeout n)

def execSwitchConfirmTimeout (n : Fin 16) (s : State) : Host.Outcome State Fault Refusal :=
  donePte s (fun s => s.confirmTimeout n)

/-! ## VERIFY and keeper commands (R270, R272) -/

def execVerifyFail (n : Fin 16) (s : State) : Host.Outcome State Fault Refusal :=
  donePte s (fun s => s.verifyFails n)

def execSurvey (p : Path) (n : Fin 16) (s : State) : Host.Outcome State Fault Refusal :=
  regAccess s p .port n.val 0x48 0x80000000

def execRetrain (p : Path) (n : Fin 16) (s : State) : Host.Outcome State Fault Refusal :=
  regAccess s p .port n.val 0x48 0x40000000

end Sys2Proof.Machine
end

