-- ==== Sys2Proof/Machine/Programs.lean ====
section
/-! DEFINITION. Commands of the program ports and of the engines' run state (R275 to R293). -/

namespace Sys2Proof.Machine

/-- PROG_CMD of a port is written. -/
def State.cmdWrite (s : State) (p : Path) (pp : ProgPort) (v : Word) : State :=
  let q := progPlace pp
  s.regWrite p q.blk q.inst (q.off + 4) v

/-- The same as a command of a path. -/
def cmdAccess (s : State) (p : Path) (pp : ProgPort) (v : Word) : Host.Outcome State Fault Refusal :=
  access s p (progPlace pp).key (fun s => s.cmdWrite p pp v)

def execLoad (p : Path) (pp : ProgPort) (s : State) : Host.Outcome State Fault Refusal :=
  cmdAccess s p pp 0x80000000

def execProgSwapCmd (p : Path) (pp : ProgPort) (s : State) : Host.Outcome State Fault Refusal :=
  cmdAccess s p pp 0x40000000

def execCancel (p : Path) (pp : ProgPort) (s : State) : Host.Outcome State Fault Refusal :=
  cmdAccess s p pp 0x20000000

def execRestart (p : Path) (e : Fin 8) (s : State) : Host.Outcome State Fault Refusal :=
  cmdAccess s p (.eng e) 0x10000000

/-- A verification ends; one that the start sheet asked for counts in SHEET_ERRS where it rejects (R397). -/
def State.verified (s : State) (pp : ProgPort) : State :=
  let t := s.verificationDone pp
  let r := s.modProg pp (fun p => { p with rejects := 0 })
  if ((r.verificationDone pp).prog pp).rejects ≠ 0 ∧ s.boot.sheetDone = false then t.count .device 0 0x20 31 16 else t

def execVerificationDone (pp : ProgPort) (s : State) : Host.Outcome State Fault Refusal :=
  doneCore s (fun s => s.verified pp)

/-- A boundary of R289 is reached: an engine at a wait instruction, a loop at a sample close. -/
def State.atBoundary (s : State) : ProgPort → Bool
  | .eng e => s.swapsAtOnce (.eng e) || ((s.engines[e]).run == .running && (s.engines[e]).atWait)
  | .loop n => s.swapsAtOnce (.loop n) || (match (s.loops[n]).instTick with
    | some k => s.passed k 256
    | none => false)
  | .plan => true

/-- An armed port with a swap request swaps at a boundary. -/
def State.boundarySwap (s : State) (pp : ProgPort) : State :=
  if (s.prog pp).due && s.atBoundary pp then s.swapNow pp false else s

def execProgramSwap (pp : ProgPort) (s : State) : Host.Outcome State Fault Refusal :=
  doneCore s (fun s => s.boundarySwap pp)

def execSwapTmoExpiry (e : Fin 8) (s : State) : Host.Outcome State Fault Refusal :=
  doneCore s (fun s => s.swapTimeout e)

def execWatchdog (e : Fin 8) (s : State) : Host.Outcome State Fault Refusal :=
  doneCore s (fun s => s.engWatchdog e)

def execWaitResume (e : Fin 8) (s : State) : Host.Outcome State Fault Refusal :=
  doneCore s (fun s => s.engWake e)

end Sys2Proof.Machine
end

