-- ==== Sys2Proof/Machine/Instructions.lean ====
section
/-! DEFINITION. The Nimyor instructions, one at a time on a target (R294 to R314): what each does to the registers stands
in Machine/Nimyor, here it is applied to an engine or to a loop datapath. -/

namespace Sys2Proof.Machine

/-- OUTF: the value becomes the program's output of this sample (R94, R310). -/
def State.loopOutf (s : State) (n : Fin 16) (ra : Fin 32) : State :=
  s.loopIssue n (fun (s : State) => s.modLoop n (fun l => { l with out := some (l.cpu.g[ra]).toInt, cpu := l.cpu.next }))

/-! ## Moves and control registers (R299) -/

def execNop (t : Tgt) (s : State) : Host.Outcome State Fault Refusal :=
  doneCore s (fun s => s.tgtOp t opNop)

def execMov (t : Tgt) (rd : Fin 32) (ra : Fin 32) (s : State) : Host.Outcome State Fault Refusal :=
  doneCore s (fun s => s.tgtOp t (opMov rd ra))

def execLdi (t : Tgt) (rd : Fin 32) (hw : Fin 4) (keep : Bool) (imm : BitVec 16) (s : State) : Host.Outcome State Fault Refusal :=
  doneCore s (fun s => s.tgtOp t (opLdi rd hw keep imm))

def execLdc (t : Tgt) (rd : Fin 32) (idx : BitVec 14) (s : State) : Host.Outcome State Fault Refusal :=
  doneCore s (fun s => s.tgtOp t (opLdc (s.tgtConsts t) (s.tgtBad t) rd idx))

def execRdf (t : Tgt) (rd : Fin 32) (s : State) : Host.Outcome State Fault Refusal :=
  doneCore s (fun s => s.tgtOp t (opRdf rd))

def execWrf (t : Tgt) (ra : Fin 32) (s : State) : Host.Outcome State Fault Refusal :=
  doneCore s (fun s => s.tgtOp t (opWrf ra))

def execRdcw (t : Tgt) (rd : Fin 32) (s : State) : Host.Outcome State Fault Refusal :=
  doneCore s (fun s => s.tgtOp t (opRdcw rd))

def execWrcw (t : Tgt) (ra : Fin 32) (s : State) : Host.Outcome State Fault Refusal :=
  doneCore s (fun s => s.tgtOp t (opWrcw (Tgt.isLoop t) ra))

/-! ## Integer arithmetic and logic (R300) -/

def execAdd (t : Tgt) (rd : Fin 32) (ra : Fin 32) (rb : Fin 32) (s : State) : Host.Outcome State Fault Refusal :=
  doneCore s (fun s => s.tgtOp t (opAdd rd ra rb))

def execAdc (t : Tgt) (rd : Fin 32) (ra : Fin 32) (rb : Fin 32) (s : State) : Host.Outcome State Fault Refusal :=
  doneCore s (fun s => s.tgtOp t (opAdc rd ra rb))

def execSub (t : Tgt) (rd : Fin 32) (ra : Fin 32) (rb : Fin 32) (s : State) : Host.Outcome State Fault Refusal :=
  doneCore s (fun s => s.tgtOp t (opSub rd ra rb))

def execSbb (t : Tgt) (rd : Fin 32) (ra : Fin 32) (rb : Fin 32) (s : State) : Host.Outcome State Fault Refusal :=
  doneCore s (fun s => s.tgtOp t (opSbb rd ra rb))

def execAdds (t : Tgt) (rd : Fin 32) (ra : Fin 32) (rb : Fin 32) (s : State) : Host.Outcome State Fault Refusal :=
  doneCore s (fun s => s.tgtOp t (opAdds rd ra rb))

def execSubs (t : Tgt) (rd : Fin 32) (ra : Fin 32) (rb : Fin 32) (s : State) : Host.Outcome State Fault Refusal :=
  doneCore s (fun s => s.tgtOp t (opSubs rd ra rb))

def execNeg (t : Tgt) (rd : Fin 32) (ra : Fin 32) (s : State) : Host.Outcome State Fault Refusal :=
  doneCore s (fun s => s.tgtOp t (opNeg rd ra))

def execNegs (t : Tgt) (rd : Fin 32) (ra : Fin 32) (s : State) : Host.Outcome State Fault Refusal :=
  doneCore s (fun s => s.tgtOp t (opNegs rd ra))

def execAbs (t : Tgt) (rd : Fin 32) (ra : Fin 32) (s : State) : Host.Outcome State Fault Refusal :=
  doneCore s (fun s => s.tgtOp t (opAbs rd ra))

def execMin (t : Tgt) (rd : Fin 32) (ra : Fin 32) (rb : Fin 32) (s : State) : Host.Outcome State Fault Refusal :=
  doneCore s (fun s => s.tgtOp t (opMin rd ra rb))

def execMax (t : Tgt) (rd : Fin 32) (ra : Fin 32) (rb : Fin 32) (s : State) : Host.Outcome State Fault Refusal :=
  doneCore s (fun s => s.tgtOp t (opMax rd ra rb))

def execCmp (t : Tgt) (ra : Fin 32) (rb : Fin 32) (s : State) : Host.Outcome State Fault Refusal :=
  doneCore s (fun s => s.tgtOp t (opCmp ra rb))

def execTst (t : Tgt) (ra : Fin 32) (rb : Fin 32) (s : State) : Host.Outcome State Fault Refusal :=
  doneCore s (fun s => s.tgtOp t (opTst ra rb))

def execAddi (t : Tgt) (rd : Fin 32) (ra : Fin 32) (imm : BitVec 14) (s : State) : Host.Outcome State Fault Refusal :=
  doneCore s (fun s => s.tgtOp t (opAddi rd ra imm))

def execCmpi (t : Tgt) (ra : Fin 32) (imm : BitVec 14) (s : State) : Host.Outcome State Fault Refusal :=
  doneCore s (fun s => s.tgtOp t (opCmpi ra imm))

def execAndi (t : Tgt) (rd : Fin 32) (ra : Fin 32) (imm : BitVec 14) (s : State) : Host.Outcome State Fault Refusal :=
  doneCore s (fun s => s.tgtOp t (opAndi rd ra imm))

def execOri (t : Tgt) (rd : Fin 32) (ra : Fin 32) (imm : BitVec 14) (s : State) : Host.Outcome State Fault Refusal :=
  doneCore s (fun s => s.tgtOp t (opOri rd ra imm))

def execXori (t : Tgt) (rd : Fin 32) (ra : Fin 32) (imm : BitVec 14) (s : State) : Host.Outcome State Fault Refusal :=
  doneCore s (fun s => s.tgtOp t (opXori rd ra imm))

def execTsti (t : Tgt) (ra : Fin 32) (imm : BitVec 14) (s : State) : Host.Outcome State Fault Refusal :=
  doneCore s (fun s => s.tgtOp t (opTsti ra imm))

def execAnd (t : Tgt) (rd : Fin 32) (ra : Fin 32) (rb : Fin 32) (s : State) : Host.Outcome State Fault Refusal :=
  doneCore s (fun s => s.tgtOp t (opAnd rd ra rb))

def execOr (t : Tgt) (rd : Fin 32) (ra : Fin 32) (rb : Fin 32) (s : State) : Host.Outcome State Fault Refusal :=
  doneCore s (fun s => s.tgtOp t (opOr rd ra rb))

def execXor (t : Tgt) (rd : Fin 32) (ra : Fin 32) (rb : Fin 32) (s : State) : Host.Outcome State Fault Refusal :=
  doneCore s (fun s => s.tgtOp t (opXor rd ra rb))

def execAndn (t : Tgt) (rd : Fin 32) (ra : Fin 32) (rb : Fin 32) (s : State) : Host.Outcome State Fault Refusal :=
  doneCore s (fun s => s.tgtOp t (opAndn rd ra rb))

def execClz (t : Tgt) (rd : Fin 32) (ra : Fin 32) (s : State) : Host.Outcome State Fault Refusal :=
  doneCore s (fun s => s.tgtOp t (opClz rd ra))

def execMul (t : Tgt) (rd : Fin 32) (ra : Fin 32) (rb : Fin 32) (s : State) : Host.Outcome State Fault Refusal :=
  doneCore s (fun s => s.tgtOp t (opMul rd ra rb))

/-! ## Shifts (R301) -/

def execShl (t : Tgt) (rd : Fin 32) (ra : Fin 32) (rb : Fin 32) (x : BitVec 9) (s : State) : Host.Outcome State Fault Refusal :=
  doneCore s (fun s => s.tgtOp t (opShl rd ra rb x))

def execShr (t : Tgt) (rd : Fin 32) (ra : Fin 32) (rb : Fin 32) (x : BitVec 9) (s : State) : Host.Outcome State Fault Refusal :=
  doneCore s (fun s => s.tgtOp t (opShr rd ra rb x))

def execSar (t : Tgt) (rd : Fin 32) (ra : Fin 32) (rb : Fin 32) (x : BitVec 9) (s : State) : Host.Outcome State Fault Refusal :=
  doneCore s (fun s => s.tgtOp t (opSar rd ra rb x))

def execRsr (t : Tgt) (rd : Fin 32) (ra : Fin 32) (rb : Fin 32) (x : BitVec 9) (s : State) : Host.Outcome State Fault Refusal :=
  doneCore s (fun s => s.tgtOp t (opRsr rd ra rb x))

/-! ## Accumulators (R302) -/

def execMula (t : Tgt) (acd : Fin 4) (ra : Fin 32) (rb : Fin 32) (x : BitVec 8) (s : State) : Host.Outcome State Fault Refusal :=
  doneCore s (fun s => s.tgtAcc t acd (opMula acd ra rb x))

def execMac (t : Tgt) (acd : Fin 4) (ra : Fin 32) (rb : Fin 32) (x : BitVec 8) (s : State) : Host.Outcome State Fault Refusal :=
  doneCore s (fun s => s.tgtAcc t acd (opMac acd ra rb x))

def execMsu (t : Tgt) (acd : Fin 4) (ra : Fin 32) (rb : Fin 32) (x : BitVec 8) (s : State) : Host.Outcome State Fault Refusal :=
  doneCore s (fun s => s.tgtAcc t acd (opMsu acd ra rb x))

def execAcmov (t : Tgt) (acd : Fin 4) (ra : Fin 32) (x : BitVec 8) (s : State) : Host.Outcome State Fault Refusal :=
  doneCore s (fun s => s.tgtOp t (opAcmov acd ra x))

def execAcset (t : Tgt) (acd : Fin 4) (ra : Fin 32) (rb : Fin 32) (s : State) : Host.Outcome State Fault Refusal :=
  doneCore s (fun s => s.tgtOp t (opAcset acd ra rb))

def execAchi (t : Tgt) (rd : Fin 32) (aca : Fin 4) (s : State) : Host.Outcome State Fault Refusal :=
  doneCore s (fun s => s.tgtOp t (opAchi rd aca))

def execAclo (t : Tgt) (rd : Fin 32) (aca : Fin 4) (s : State) : Host.Outcome State Fault Refusal :=
  doneCore s (fun s => s.tgtOp t (opAclo rd aca))

def execAcadd (t : Tgt) (acd : Fin 4) (aca : Fin 4) (acb : Fin 4) (s : State) : Host.Outcome State Fault Refusal :=
  doneCore s (fun s => s.tgtAcc t acd (opAcadd acd aca acb))

def execAcsub (t : Tgt) (acd : Fin 4) (aca : Fin 4) (acb : Fin 4) (s : State) : Host.Outcome State Fault Refusal :=
  doneCore s (fun s => s.tgtAcc t acd (opAcsub acd aca acb))

def execAcneg (t : Tgt) (acd : Fin 4) (aca : Fin 4) (s : State) : Host.Outcome State Fault Refusal :=
  doneCore s (fun s => s.tgtAcc t acd (opAcneg acd aca))

def execAcshl (t : Tgt) (acd : Fin 4) (aca : Fin 4) (x : BitVec 8) (s : State) : Host.Outcome State Fault Refusal :=
  doneCore s (fun s => s.tgtAcc t acd (opAcshl acd aca x))

def execAcshr (t : Tgt) (acd : Fin 4) (aca : Fin 4) (x : BitVec 8) (s : State) : Host.Outcome State Fault Refusal :=
  doneCore s (fun s => s.tgtOp t (opAcshr acd aca x))

def execAcn (t : Tgt) (rd : Fin 32) (aca : Fin 4) (x : BitVec 8) (s : State) : Host.Outcome State Fault Refusal :=
  doneCore s (fun s => s.tgtOp t (opAcn rd aca x))

def execAccmp (t : Tgt) (aca : Fin 4) (acb : Fin 4) (s : State) : Host.Outcome State Fault Refusal :=
  doneCore s (fun s => s.tgtOp t (opAccmp aca acb))

def execAcsqrt (t : Tgt) (rd : Fin 32) (aca : Fin 4) (s : State) : Host.Outcome State Fault Refusal :=
  doneCore s (fun s => s.tgtOp t (opAcsqrt rd aca))

/-! ## Divide (R303) -/

def execDiv (t : Tgt) (rd : Fin 32) (ra : Fin 32) (rb : Fin 32) (s : State) : Host.Outcome State Fault Refusal :=
  doneCore s (fun s => s.tgtOp t (opDiv rd ra rb))

def execDivu (t : Tgt) (rd : Fin 32) (ra : Fin 32) (rb : Fin 32) (s : State) : Host.Outcome State Fault Refusal :=
  doneCore s (fun s => s.tgtOp t (opDivu rd ra rb))

def execAcdiv (t : Tgt) (rd : Fin 32) (aca : Fin 4) (ra : Fin 32) (s : State) : Host.Outcome State Fault Refusal :=
  doneCore s (fun s => s.tgtOp t (opAcdiv rd aca ra))

/-! ## Control flow (R304) -/

def execB (t : Tgt) (cond : BitVec 4) (off : BitVec 20) (s : State) : Host.Outcome State Fault Refusal :=
  doneCore s (fun s => s.tgtOp t (opB (s.tgtCode t) cond off))

def execCall (t : Tgt) (cond : BitVec 4) (off : BitVec 20) (s : State) : Host.Outcome State Fault Refusal :=
  doneCore s (fun s => s.tgtOp t (opCall (s.tgtCode t) cond off))

def execRet (t : Tgt) (s : State) : Host.Outcome State Fault Refusal :=
  doneCore s (fun s => s.tgtOp t (opRet (s.tgtCode t)))

def execBr (e : Fin 8) (ra : Fin 32) (s : State) : Host.Outcome State Fault Refusal :=
  doneCore s (fun s => s.engOp e (opBr (s.engines[e]).codeW ra))

def execHalt (e : Fin 8) (s : State) : Host.Outcome State Fault Refusal :=
  doneCore s (fun s => s.engHalt e)

def execStop (n : Fin 16) (s : State) : Host.Outcome State Fault Refusal :=
  doneCore s (fun s => s.loopIssue n (fun (s : State) => s.loopStop n))

/-! ## Loads and stores (R305) -/

def execLdb (e : Fin 8) (rd : Fin 32) (ra : Fin 32) (imm : BitVec 14) (s : State) : Host.Outcome State Fault Refusal :=
  doneCore s (fun s => s.engLoad e 1 false rd ra imm)

def execLdh (e : Fin 8) (rd : Fin 32) (ra : Fin 32) (imm : BitVec 14) (s : State) : Host.Outcome State Fault Refusal :=
  doneCore s (fun s => s.engLoad e 2 false rd ra imm)

def execLdw (e : Fin 8) (rd : Fin 32) (ra : Fin 32) (imm : BitVec 14) (s : State) : Host.Outcome State Fault Refusal :=
  doneCore s (fun s => s.engLoad e 4 false rd ra imm)

def execLdd (e : Fin 8) (rd : Fin 32) (ra : Fin 32) (imm : BitVec 14) (s : State) : Host.Outcome State Fault Refusal :=
  doneCore s (fun s => s.engLoad e 8 false rd ra imm)

def execLdbs (e : Fin 8) (rd : Fin 32) (ra : Fin 32) (imm : BitVec 14) (s : State) : Host.Outcome State Fault Refusal :=
  doneCore s (fun s => s.engLoad e 1 true rd ra imm)

def execLdhs (e : Fin 8) (rd : Fin 32) (ra : Fin 32) (imm : BitVec 14) (s : State) : Host.Outcome State Fault Refusal :=
  doneCore s (fun s => s.engLoad e 2 true rd ra imm)

def execLdws (e : Fin 8) (rd : Fin 32) (ra : Fin 32) (imm : BitVec 14) (s : State) : Host.Outcome State Fault Refusal :=
  doneCore s (fun s => s.engLoad e 4 true rd ra imm)

def execStb (e : Fin 8) (rd : Fin 32) (ra : Fin 32) (imm : BitVec 14) (s : State) : Host.Outcome State Fault Refusal :=
  doneCore s (fun s => s.engStore e 1 rd ra imm)

def execSth (e : Fin 8) (rd : Fin 32) (ra : Fin 32) (imm : BitVec 14) (s : State) : Host.Outcome State Fault Refusal :=
  doneCore s (fun s => s.engStore e 2 rd ra imm)

def execStw (e : Fin 8) (rd : Fin 32) (ra : Fin 32) (imm : BitVec 14) (s : State) : Host.Outcome State Fault Refusal :=
  doneCore s (fun s => s.engStore e 4 rd ra imm)

def execStd (e : Fin 8) (rd : Fin 32) (ra : Fin 32) (imm : BitVec 14) (s : State) : Host.Outcome State Fault Refusal :=
  doneCore s (fun s => s.engStore e 8 rd ra imm)

/-! ## Time, waits, stamps, emission (R306 to R309) -/

def execTnow (e : Fin 8) (rd : Fin 32) (x : BitVec 9) (s : State) : Host.Outcome State Fault Refusal :=
  doneCore s (fun s => s.engOp e (opTnow s (engIsl e) rd x))

def execTick (e : Fin 8) (rd : Fin 32) (s : State) : Host.Outcome State Fault Refusal :=
  doneCore s (fun s => s.engOp e (opTick s e rd))

def execTadd (e : Fin 8) (rd : Fin 32) (ra : Fin 32) (rb : Fin 32) (s : State) : Host.Outcome State Fault Refusal :=
  doneCore s (fun s => s.engOp e (opTadd rd ra rb))

def execTdif (e : Fin 8) (rd : Fin 32) (ra : Fin 32) (rb : Fin 32) (s : State) : Host.Outcome State Fault Refusal :=
  doneCore s (fun s => s.engOp e (opTdif rd ra rb))

def execWaitt (e : Fin 8) (ra : Fin 32) (x : BitVec 9) (s : State) : Host.Outcome State Fault Refusal :=
  doneCore s (fun s => s.engWaitt e ra x)

def execWaitk (e : Fin 8) (ra : Fin 32) (s : State) : Host.Outcome State Fault Refusal :=
  doneCore s (fun s => s.engWaitk e ra)

def execWaite (e : Fin 8) (rd : Fin 32) (ra : Fin 32) (rb : Fin 32) (s : State) : Host.Outcome State Fault Refusal :=
  doneCore s (fun s => s.engWaite e rd ra rb)

def execStpop (e : Fin 8) (rd : Fin 32) (s : State) : Host.Outcome State Fault Refusal :=
  doneCore s (fun s => s.engStpop e rd)

def execEmit (e : Fin 8) (rd : Fin 32) (ra : Fin 32) (rb : Fin 32) (s : State) : Host.Outcome State Fault Refusal :=
  doneCore s (fun s => s.engEmit e rd ra rb)

/-! ## The loop sample (R310) -/

def execInx (n : Fin 16) (rd : Fin 32) (s : State) : Host.Outcome State Fault Refusal :=
  doneCore s (fun s => s.tgtOp (.loop n) (opInx (s.loops[n]).x rd))

def execInf (n : Fin 16) (rd : Fin 32) (s : State) : Host.Outcome State Fault Refusal :=
  doneCore s (fun s => s.tgtOp (.loop n) (opInf (s.loops[n]).flagsW rd))

def execOutf (n : Fin 16) (ra : Fin 32) (s : State) : Host.Outcome State Fault Refusal :=
  doneCore s (fun s => s.loopOutf n ra)

/-! ## Statistics, notices, mailboxes, semaphores (R311) -/

def execSpush (e : Fin 8) (ra : Fin 32) (s : State) : Host.Outcome State Fault Refusal :=
  doneCore s (fun s => s.engSpush e ra)

def execNote (e : Fin 8) (ra : Fin 32) (imm : BitVec 14) (s : State) : Host.Outcome State Fault Refusal :=
  doneCore s (fun s => s.engNote e ra imm)

def execMbpost (e : Fin 8) (rd : Fin 32) (ra : Fin 32) (imm : BitVec 14) (s : State) : Host.Outcome State Fault Refusal :=
  doneCore s (fun s => s.engMbpost e rd ra imm)

def execMbtake (e : Fin 8) (rd : Fin 32) (ra : Fin 32) (imm : BitVec 14) (s : State) : Host.Outcome State Fault Refusal :=
  doneCore s (fun s => s.engMbtake e rd ra imm)

def execDbell (e : Fin 8) (rd : Fin 32) (imm : BitVec 14) (s : State) : Host.Outcome State Fault Refusal :=
  doneCore s (fun s => s.engDbell e rd imm)

def execSema (e : Fin 8) (rd : Fin 32) (imm : BitVec 14) (s : State) : Host.Outcome State Fault Refusal :=
  doneCore s (fun s => s.engSema e rd imm)

def execSemr (e : Fin 8) (imm : BitVec 14) (s : State) : Host.Outcome State Fault Refusal :=
  doneCore s (fun s => s.engSemr e imm)

end Sys2Proof.Machine
end

