-- ==== Sys2Proof/Machine/Access.lean ====
section
/-! DEFINITION. The meanings of the access commands: registers, the alias, holdings, the indirect pair, BAR2, the side-band,
mailboxes, doorbells and the PCIe endpoint (R315 to R339). -/

namespace Sys2Proof.Machine

def execRegisterWrite (p : Path) (off v : Word) (s : State) : Host.Outcome State Fault Refusal :=
  access s p off.toNat (fun s => s.busWrite p off.toNat v)

def execAliasWrite (p : Path) (addr v : Word) (s : State) : Host.Outcome State Fault Refusal :=
  access s p addr.toNat (fun s => s.busWrite p addr.toNat v)

def execHoldingReadHigh (p : Path) (off : Word) (s : State) : Host.Outcome State Fault Refusal :=
  access s p off.toNat (fun s => s.readAnswer p off.toNat)

def execHoldingWriteLow (p : Path) (off v : Word) (s : State) : Host.Outcome State Fault Refusal :=
  access s p off.toNat (fun s => s.busWrite p off.toNat v)

def execHoldingWriteCommit (p : Path) (off v : Word) (s : State) : Host.Outcome State Fault Refusal :=
  access s p off.toNat (fun s => s.busWrite p off.toNat v)

def execTake (p : Path) (s : State) : Host.Outcome State Fault Refusal :=
  regAccess s p .access 0 0x10 0x80000000

def execIndDataWrite (p : Path) (v : Word) (s : State) : Host.Outcome State Fault Refusal :=
  regAccess s p .access 0 0x04 v

def execIndWriteDone (p : Path) (s : State) : Host.Outcome State Fault Refusal :=
  access s p (key .access 0 0x04) (fun s => s.indDone p)

def execIndDataRead (p : Path) (s : State) : Host.Outcome State Fault Refusal :=
  access s p (key .access 0 0x04) (fun s => s.readAnswer p (key .access 0 0x04))

/-- A request of the host reaches the device: the HOST island is in service (R377, R380). -/
def doneHost (s : State) (f : State → State) : Host.Outcome State Fault Refusal :=
  doneCore s (fun s => if s.hostUp then f s else s)

def execBar2Write (f : Fin 2) (off : BitVec 27) (bytes : List (Option Byte)) (s : State) : Host.Outcome State Fault Refusal :=
  doneHost s (fun s => s.bar2Put f off.toNat bytes)

def execBar2Read (f : Fin 2) (off : BitVec 27) (len : Nat) (s : State) : Host.Outcome State Fault Refusal :=
  doneHost s (fun s => s.bar2Get f off.toNat len)

/-- A request to the register space or the alias that is not one whole DW (R318). -/
def State.badTlp (s : State) (f : Fin 2) (write : Bool) : State :=
  if write then s.count .host 0 4 15 0 else s.answer (fnPath f) .ur

def execBadTlp (f : Fin 2) (write : Bool) (s : State) : Host.Outcome State Fault Refusal :=
  doneHost s (fun s => s.badTlp f write)

def execFunctionLevelReset (f : Fin 2) (s : State) : Host.Outcome State Fault Refusal :=
  doneCore s (fun s => s.flr f)

def execPerstN (s : State) : Host.Outcome State Fault Refusal :=
  doneCore s (fun s => s.perst)

def execSbSetPointer (count : Byte) (off : Word) (pec : Pec) (s : State) : Host.Outcome State Fault Refusal :=
  done s (s.sbSet count off pec)

/-- The device appends its PEC where the master acknowledges the last data byte (R331). -/
def execSbReadAtPointer (pec : Bool) (s : State) : Host.Outcome State Fault Refusal :=
  done s (s.sbGet pec)

def execSbWriteAtPointer (count : Byte) (v : Word) (pec : Pec) (s : State) : Host.Outcome State Fault Refusal :=
  done s (s.sbPut count v pec)

def execSbProcessCallRead (count : Byte) (off : Word) (pec : Bool) (s : State) : Host.Outcome State Fault Refusal :=
  done s (s.sbGetAt count off pec)

def execSbWriteAtOffset (count : Byte) (off v : Word) (pec : Pec) (s : State) : Host.Outcome State Fault Refusal :=
  done s (s.sbPutAt count off v pec)

def execSbStatus (s : State) : Host.Outcome State Fault Refusal :=
  done s s.sbStatus

/-- A command code of the table (R332). -/
def sbKnown (code : Byte) : Bool :=
  code == 0x01 || code == 0x02 || code == 0x03 || code == 0x04 || code == 0x05 || code == 0x10

def execBadCmd (code : Byte) (s : State) : Host.Outcome State Fault Refusal :=
  done s (if sbKnown code then s else s.sbRefuse errBadCmd)

def execAlertResponse (s : State) : Host.Outcome State Fault Refusal :=
  done s s.alertAnswer

/-- The transaction in progress is abandoned (R331): a transaction acts only when it is complete, so none of it is left. -/
def execSmbusTimeout (s : State) : Host.Outcome State Fault Refusal :=
  done s s

def execPost (p : Path) (m : Fin 16) (s : State) : Host.Outcome State Fault Refusal :=
  access s p (key .mailbox m 0x08) (fun s => s.readAnswer p (key .mailbox m 0x08))

def execAck (p : Path) (m : Fin 16) (s : State) : Host.Outcome State Fault Refusal :=
  regAccess s p .mailbox m 0x0C 1

def execMailboxCfgWrite (p : Path) (m : Fin 16) (v : Word) (s : State) : Host.Outcome State Fault Refusal :=
  regAccess s p .mailbox m 0x00 v

def execDbInSet (p : Path) (v : Word) (s : State) : Host.Outcome State Fault Refusal :=
  regAccess s p .access 0 0x30 v

def execDbInClr (p : Path) (v : Word) (s : State) : Host.Outcome State Fault Refusal :=
  regAccess s p .access 0 0x34 v

def execDbOutSet (p : Path) (v : Word) (s : State) : Host.Outcome State Fault Refusal :=
  regAccess s p .access 0 0x3C v

def execDbOutClr (p : Path) (v : Word) (s : State) : Host.Outcome State Fault Refusal :=
  regAccess s p .access 0 0x40 v

/-! ## The PCIe endpoint (R199, R317, R320) -/

def execPcieLinkDown (s : State) : Host.Outcome State Fault Refusal :=
  doneCore s (fun s => { s with linkUp := false })

/-- The link trains at x1 or x2 and one of four speeds (R317); other values are no result of training. -/
def pcieTrained (speed : BitVec 3) (width : BitVec 4) : Bool :=
  decide (1 ≤ speed.toNat) && decide (speed.toNat ≤ 4) && (width == 1 || width == 2)

def execPcieLinkUp (speed : BitVec 3) (width : BitVec 4) (s : State) : Host.Outcome State Fault Refusal :=
  doneCore s (fun s =>
    if pcieTrained speed width then { s with linkUp := true, linkSpeed := speed, linkWidth := width } else s)

/-- The write is one of the MSI-X table, in BAR0 (R318, R320). -/
def tableWrite (c : PcieCfg) : Bool :=
  match c with
  | .vectorMask _ _ => true
  | .vectorAddress _ _ => true
  | .vectorData _ _ => true
  | _ => false

/-- A host write of a function's configuration space or MSI-X table (R317, R320): a BAR takes the address bits above its
size; the table takes no write before the start sheet has been applied (R397). -/
def State.pcieConfig (s : State) (f : Fin 2) (c : PcieCfg) : State :=
  let fn := s.funcs[f]
  if tableWrite c ∧ s.tooEarly (fnPath f) then s.count .device 0 0x20 15 0
  else match c with
  | .busMaster on => ({ s with funcs := s.funcs.set f { fn with busMaster := on } }).msiReleaseAll f
  | .msixEnable on => ({ s with funcs := s.funcs.set f { fn with msixEn := on } }).msiReleaseAll f
  | .functionMask on => ({ s with funcs := s.funcs.set f { fn with funcMask := on } }).msiReleaseAll f
  | .vectorMask v masked => s.msiMask f v masked
  | .vectorAddress v a => { s with funcs := s.funcs.set f { fn with addr := fn.addr.set v (a &&& ~~~3#64) } }
  | .vectorData v d => { s with funcs := s.funcs.set f { fn with data := fn.data.set v d } }
  | .barAddress false a => { s with funcs := s.funcs.set f { fn with bar0 := a &&& ~~~0x3FFFFF#64 } }
  | .barAddress true a => { s with funcs := s.funcs.set f { fn with bar2 := a &&& ~~~0x7FFFFFF#64 } }

def execPcieConfigWrite (f : Fin 2) (c : PcieCfg) (s : State) : Host.Outcome State Fault Refusal :=
  doneCore s (fun s => s.pcieConfig f c)

end Sys2Proof.Machine
end

