-- ==== Sys2Proof/Machine/ModBus.lean ====
section
/-! DEFINITION. The meanings of the module-bus commands (R340 to R352). The bus runs from the standby island: it goes on while
the core is held in reset (R24). -/

namespace Sys2Proof.Machine

/-- TRAV_INT seconds have passed since the last traverse ended, or 1 s since one that R342 ended (R346, R347). -/
def State.mbInterval (s : State) (p : Fin 2) : State :=
  let int := s.rf .modbus 0 (0x20 * p.val) 15 0
  let q := s.mbs[p]
  if (int ≠ 0 ∧ s.since q.travEnd (int * secTicks)) ∨ (q.travOwed = true ∧ s.since q.travEnd secTicks) then s.mbTrigger p else s

/-- A traverse is triggered by what names itself in `c` (R346, R347). -/
def State.traverseBy (s : State) (p : Fin 2) (c : TravCause) : State :=
  match c with
  | .enable => s.mbTrigger p
  | .interval => s.mbInterval p
  | .attach => s.mbAttach p
  | .unreachable =>
    if s.gaz.any (fun g => g.valid && g.port == decide (p.val = 1) && g.state == 2) then s.mbTrigger p else s
  | .command q =>
    let o := 0x20 * p.val + 0x0C
    if s.reachable q (key .modbus 0 o) then s.regWrite q .modbus 0 o 0x80000000 else s

def execTraverse (mb : Fin 2) (cause : TravCause) (s : State) : Host.Outcome State Fault Refusal :=
  done s (s.traverseBy mb cause)

def execTraversePass (mb : Fin 2) (result : MbEnd) (answer : Bool) (ident : BitVec 64) (s : State) :
    Host.Outcome State Fault Refusal :=
  done s (s.mbPass mb result answer ident)

def execTravIntExpiry (mb : Fin 2) (s : State) : Host.Outcome State Fault Refusal :=
  done s (s.mbInterval mb)

def execAttach (mb : Fin 2) (s : State) : Host.Outcome State Fault Refusal :=
  done s (s.mbAttach mb)

def execRead (mb : Fin 2) (entry : Fin 64) (reg : Byte) (len : Nat) (result : MbEnd) (s : State) :
    Host.Outcome State Fault Refusal :=
  done s (s.mbRead mb entry reg len result)

def execWrite (mb : Fin 2) (entry : Fin 64) (reg : Byte) (data : List Byte) (result : MbEnd) (s : State) :
    Host.Outcome State Fault Refusal :=
  done s (s.mbWrite mb entry reg data result)

def execPeerTargetFrame (mb : Fin 2) (frame : BusFrame) (s : State) : Host.Outcome State Fault Refusal :=
  done s (s.peerFrame mb frame.bytes frame.dropOut)

def execOvenRead (temp status : MbEnd) (s : State) : Host.Outcome State Fault Refusal :=
  done s (s.ovenRead temp status)

def execGo (p : Path) (v : Word) (s : State) : Host.Outcome State Fault Refusal :=
  access s p (key .modbus 0 0x60) (fun s => s.regWrite p .modbus 0 0x60 v)

def execMbStuck (mb : Fin 2) (s : State) : Host.Outcome State Fault Refusal :=
  done s (s.mbStuck mb)

def execRecoveryPulse (mb : Fin 2) (s : State) : Host.Outcome State Fault Refusal :=
  done s (s.mbPulse mb)

def execMbIsolated (mb : Fin 2) (s : State) : Host.Outcome State Fault Refusal :=
  done s (s.mbIsolate mb)

def execLineRelease (mb : Fin 2) (s : State) : Host.Outcome State Fault Refusal :=
  done s (s.mbFree mb)

end Sys2Proof.Machine
end

