-- ==== Sys2Proof/Machine/Integrity.lean ====
section
/-! DEFINITION. The meanings of the memory and archive commands (R353 to R374). -/

namespace Sys2Proof.Machine

/-- The scrubber visits the page that holds physical word w, at logical address a (R358, R360, R362): a correctable page is
corrected and carries the present strength, an uncorrectable one is left as found and noticed at its first word in error. -/
def State.scrubPage (s : State) (a w : Nat) : State :=
  let page := w / 128
  let n := s.mem.pageFlaws page
  let code : BitVec 2 := BitVec.ofNat 2 (if a < graticuleBase then s.rf .memory 0 0 31 30 else s.rf .memory 0 0 29 28)
  let recode (s : State) : State := { s with mem := { s.mem with tags := mapSet s.mem.tags page code 1 } }
  if n = 0 then recode s
  else if n ≤ bchT (s.mem.tag page).toNat then
    recode (({ s with mem := { s.mem with flaws := s.mem.flaws.filter (fun e => decide (e.1 / 128 ≠ page)) } }).memCe a (8 * w))
  else if (s.mem.flaws.find? (fun e => decide (e.1 / 128 = page))).any (fun e => decide (e.1 = w)) then s.memUe a (8 * w)
  else s

/-- The scrubber visits a word under the word code (R355, R362); three or more errors are found or miscorrected. -/
def State.scrubWord (s : State) (a w : Nat) : State :=
  let fix (s : State) : State := { s with mem := s.mem.setFlaw w 0 }
  match s.checkAt a w with
  | (.ok, s) => s
  | (.corrected, s) => fix s
  | (.bad, s) => s
  | (.wrong, s) =>
    let (v, s) := s.free
    fix (if s.mem.phys a / 8 = w then { s with mem := s.mem.setBytes a (beBytes 8 v.toNat) } else s)

/-- The logical bank whose words the scrubber checks in a physical bank: the one it serves, or the one that a retired bank
served (R362, log 157); none for the free spare, in which it runs its pattern test instead (R363). -/
def Memory.scrubbed (m : Memory) (p : Fin 25) : Option (Fin 24) :=
  match m.logical p with
  | some l => some l
  | none => if m.spareUsed ∧ p = m.spareFor then m.logical 24 else none

/-- A visit of the scrubber to a word of a physical bank, in which `upset` further bits have come to be in error (R362). -/
def State.scrub (s : State) (p : Fin 25) (word : Nat) (upset : Nat) : State :=
  if s.rb .memory 0 0 27 = false then s
  else match s.mem.scrubbed p with
    | none => s
    | some l =>
      let w := p.val * 2 ^ 19 + word
      let a := l.val * 2 ^ 22 + 8 * word
      let s := { s with mem := s.mem.setFlaw w (s.mem.flaw w + upset) }
      if isPaged a then s.scrubPage a w else s.scrubWord a w

def execScrubVisit (bank : Fin 25) (word : BitVec 19) (upset : Nat) (s : State) : Host.Outcome State Fault Refusal :=
  doneCore s (fun s => s.scrub bank word.toNat upset)

def execCeThreshCheck (bank : Fin 25) (s : State) : Host.Outcome State Fault Refusal :=
  doneCore s (fun s => s.ceCheck bank)

/-- The pattern test of the spare bank, while it is a spare (R363). -/
def State.spareTest (s : State) (ok : Bool) : State :=
  if s.rb .memory 0 0 27 = false ∨ s.mem.spareUsed ∨ s.mem.mirror.isSome ∨ ok then s
  else ({ s with mem := { s.mem with spareBad := true } }).raise 0x0758 clsB 0x5C 0

def execSpareTest (ok : Bool) (s : State) : Host.Outcome State Fault Refusal :=
  doneCore s (fun s => s.spareTest ok)

def execMemRemap (s : State) : Host.Outcome State Fault Refusal :=
  doneCore s (fun s => match s.mem.mirror with
    | some p => if s.mem.retiring then s.completeRemap p else s
    | none => s)

def execArchiveRefresh (word : BitVec 18) (weak bad : Bool) (s : State) : Host.Outcome State Fault Refusal :=
  done s (s.refreshWord word weak bad)

def execProtectWrite (p : Path) (v : Word) (s : State) : Host.Outcome State Fault Refusal :=
  access s p (key .archive 0 0) (fun s => s.regWrite p .archive 0 0 v)

end Sys2Proof.Machine
end

