-- ==== Sys2Proof/Machine/Faults.lean ====
section
/-! DEFINITION. The meanings of the fault, benchmark and service commands (R364, R375 to R388). -/

namespace Sys2Proof.Machine

/-- The fault manager lies in the standby island and acts while the core is held as well (R24). -/
def execFaultReport (block : Fin 128) (cause : BitVec 4) (s : State) : Host.Outcome State Fault Refusal :=
  done s (s.faultReport block cause)

def execSelfTestDone (block : Fin 128) (pass : Bool) (s : State) : Host.Outcome State Fault Refusal :=
  done s (s.selfTestDone block pass)

/-- SYNB waits for its relock: it has lost lock, and the tick stands (R380). -/
def State.synbWaits (s : State) : Bool :=
  s.coreUp && !s.ticking && (s.syns[(8 : Fin 9)]).phase == .regain

/-- The relock moves the tick itself, which every other command leaves alone (R380). -/
def execSynbRelock (m : Nat) (s : State) : Host.Outcome State Fault Refusal :=
  .next (if s.synbWaits then { s.synbRelock m with pending := s.pending } else s)

def execDatumReload (isl : Fin 2) (s : State) : Host.Outcome State Fault Refusal :=
  doneCore s (fun s => s.datumReload isl)

def execUnretire (p : Path) (block : Fin 128) (s : State) : Host.Outcome State Fault Refusal :=
  access s p (key .fault 0 4) (fun s => s.regWrite p .fault 0 4 (mkBit 31 true ||| fld block.val 0))

def execRetireBank (p : Path) (bank : Byte) (s : State) : Host.Outcome State Fault Refusal :=
  access s p (key .fault 0 4) (fun s => s.regWrite p .fault 0 4 (mkBit 30 true ||| fld bank.toNat 0))

def execHoldoverCheckpoint (n : Fin 16) (s : State) : Host.Outcome State Fault Refusal :=
  doneCore s (fun s => if s.blkUp (0x11 + n.val % 2) then s.checkpoint n else s)

/-- Scans run from SYNB lock (R404). -/
def execBenchmarkScan (s : State) : Host.Outcome State Fault Refusal :=
  doneCore s (fun s => if s.ticking then s.benchScan else s)

def execStewardShed (load : Nat) (s : State) : Host.Outcome State Fault Refusal :=
  doneCore s (fun s => s.shedWindow load)

def execFwSwap (p : Path) (ok : Bool) (s : State) : Host.Outcome State Fault Refusal :=
  access s p (key .device 0 0x808) (fun s => s.hubWrite p (key .device 0 0x808) 0xFFFFFFFF 0x80000000 false (some ok))

end Sys2Proof.Machine
end

