-- ==== Sys2Proof/Machine/Startup.lean ====
section
/-! DEFINITION. The meanings of the power, reset, start-sheet, firmware and mode commands (R389 to R405). -/

namespace Sys2Proof.Machine

/-! ## Power domains (R389 to R391, R445) -/

/-- A keeper writes one bit of DOM_REQ (R390). -/
def domainRequest (s : State) (p : Path) (dom : Fin 108) (on : Bool) : Host.Outcome State Fault Refusal :=
  let o := 4 * (dom.val / 32)
  let b := mkBit (dom.val % 32) true
  access s p (key .power 0 o) (fun s => s.fieldWrite p .power 0 o b (if on then b else 0))

def execDomainPowerDown (p : Path) (dom : Fin 108) (s : State) : Host.Outcome State Fault Refusal :=
  domainRequest s p dom false

def execDomainPowerUp (p : Path) (dom : Fin 108) (s : State) : Host.Outcome State Fault Refusal :=
  domainRequest s p dom true

def execDomainRelease (dom : Fin 108) (s : State) : Host.Outcome State Fault Refusal :=
  doneCore s (fun s => s.domRelease dom)

def execSupply (dom : Fin 108) (s : State) : Host.Outcome State Fault Refusal :=
  doneCore s (fun s => s.supplyFault dom)

def execSvSupplyMismatch (g : Fin 12) (within : Bool) (s : State) : Host.Outcome State Fault Refusal :=
  if s.coreUp then done s (s.svMismatch g within) else done s (s.svRail g within)

/-! ## Resets (R393 to R395, R403) -/

/-- The brown-out detector completes an archive write in progress before the standby island resets (R367). -/
def execStandbyPowerOn (straps : Straps) (s : State) : Host.Outcome State Fault Refusal :=
  let paths := [Path.f0, .f1, .sb, .stw] ++ (List.finRange 8).map Path.eng
  done s ((paths.foldl (fun (s : State) p => if s.arcPosted p then s.indDone p else s) s).standbyReset straps)

def execRailOutOfRange (s : State) : Host.Outcome State Fault Refusal :=
  done s (s.resetCore 1)

def execResetN (s : State) : Host.Outcome State Fault Refusal :=
  done s (s.resetCore 2)

def execResetCore (p : Path) (s : State) : Host.Outcome State Fault Refusal :=
  access s p (key .device 0 4) (fun s => s.regWrite p .device 0 4 0x80000000)

def execResetRelease (straps : Straps) (s : State) : Host.Outcome State Fault Refusal :=
  done s (s.release straps)

/-- TRST_N resets the JTAG TAP, which holds no state of the model (R394). -/
def execTrstN (s : State) : Host.Outcome State Fault Refusal :=
  done s s

/-! ## The start sheet (R396, R397) -/

/-- Counters of refused writes that a write by the boot ROM can meet: register key, bits, read-clear (R397). -/
def rejectCells : List (Nat × Word × Bool) :=
  let each (n : Nat) (b : Block) (off : Nat) (m : Word) (rc : Bool) : List (Nat × Word × Bool) :=
    (List.range n).map (fun i => (key b i off, m, rc))
  each 1 .device 0x24 0xFFFF false ++ each 1 .access 0x28 0xFFFF false ++ each 1 .access 0x2C 0xFFFF false
    ++ each 1 .notice 0x10 0xFFFF false ++ each 16 .mailbox 0x10 0xFFFFFFFF false
    ++ each 1 .fault 0x08 0xFFFF false ++ each 1 .fault 0x10 0xFFFFFFFF false ++ each 1 .power 0x20 0xFFFF true
    ++ each 16 .refin 0x04 0xFFFF false ++ each 16 .loop 0x24 0xFFFF false ++ each 16 .loop 0x2C 0xFFFF false ++ each 16 .loop 0x18 0xFFFF false
    ++ each 1 .fieldbook 0x20 0xFFFF false ++ each 1 .fieldbook 0x24 0xFFFF false
    ++ each 1 .pte 0x14 0xFFFF false ++ each 16 .port 0x1C 0xFFFF0000 false ++ each 1 .archive 0x04 0xFFFF false
    ++ each 1 .pinmux 0x60 0xFFFF false
    ++ (List.range 12).flatMap (fun g => (List.range 16).map (fun c => (key .survey g (0x82C + 0x80 * c), (0xFF : Word), true)))
    ++ (List.range 12).flatMap (fun g => (List.finRange 4).map (fun j => (key .survey g (schedOff j 0x10), (0xFFFF : Word), true)))

/-- The bits of a counter cell, live. -/
def State.cellBits (s : State) (c : Nat × Word × Bool) : Word :=
  (if c.2.2 then s.rcWord c.1 3 else s.reg c.1) &&& c.2.1

/-- The state with those counters at 0. -/
def State.clearCell (s : State) (c : Nat × Word × Bool) : State :=
  if s.cellBits c = 0 then s
  else if c.2.2 then s.rcClear c.1 3 c.2.1
  else { s with regs := mapSet s.regs c.1 (s.reg c.1 &&& ~~~c.2.1) (resetWord c.1) }

/-- Program ports. -/
def progPorts : List ProgPort :=
  (List.finRange 8).map .eng ++ (List.finRange 16).map .loop ++ [.plan]

/-- A record's write is refused by its target: some counter of refusals moves. -/
def State.refuses (s : State) (f : State → State) : Bool :=
  let s := rejectCells.foldl (fun (s : State) c => s.clearCell c) s
  let s := progPorts.foldl (fun (s : State) pp => s.modProg pp (fun p => { p with rejects := 0 })) s
  let t := f s
  rejectCells.any (fun c => decide (t.cellBits c ≠ 0)) || progPorts.any (fun pp => decide ((t.prog pp).rejects ≠ 0))

/-- One more error of the start sheet. -/
def State.sheetErr (s : State) : State :=
  s.count .device 0 0x20 31 16

/-- A write of the start sheet: one that its target rejects counts in SHEET_ERRS too (R397). -/
def State.sheetPut (s : State) (f : State → State) : State :=
  if s.refuses f then (f s).sheetErr else f s

/-- The boot ROM applies records: the fabric runs, SHEET_DONE is 0, no port verifies an image, no WAIT is running (R396, R397,
R405). -/
def State.sheetLive (s : State) : Bool :=
  s.ticking && !s.boot.sheetDone && s.boot.sheet.valid && decide (s.boot.sheetFrom.toNat ≤ s.tick.toNat)
    && progPorts.all (fun pp => decide ((s.prog pp).phase ≠ .verifying))

/-- The next record of the copy in force has the given bytes, within the record area (R396). -/
def State.recordIs (s : State) (rec : List Byte) : Bool :=
  let c := s.boot.sheet.copyB
  decide (s.boot.sheetPos + rec.length ≤ 20 + beNat (s.copyBytes c 16 4)) && decide (s.copyBytes c s.boot.sheetPos rec.length = rec)

/-- The bytes of the records (R396). -/
def writeRec (off v : Word) : List Byte := [1, 0, 0, 0] ++ beBytes 4 off.toNat ++ beBytes 4 v.toNat
def indRec (addr v : Word) : List Byte := [2, 0, 0, 0] ++ beBytes 4 addr.toNat ++ beBytes 4 v.toNat
def waitRec (us : Word) : List Byte := [4, 0, 0, 0] ++ beBytes 4 us.toNat
def imageRec (kind index : Byte) (swapBit : Bool) (image : List Byte) : List Byte :=
  [3, kind, index, byte (b2n swapBit), 0] ++ beBytes 4 image.length ++ image ++ List.replicate ((4 - image.length % 4) % 4) 0

/-- The record behind this one is next. -/
def State.pastRecord (s : State) (rec : List Byte) : State :=
  s.modBoot (fun b => { b with sheetPos := b.sheetPos + rec.length })

/-- A record of the start sheet: it acts where it is the next one (R397). -/
def sheetRecord (s : State) (rec : List Byte) (f : State → State) : Host.Outcome State Fault Refusal :=
  doneCore s (fun s => if s.sheetLive && s.recordIs rec then f (s.pastRecord rec) else s)

def execSheetWrite (off v : Word) (s : State) : Host.Outcome State Fault Refusal :=
  sheetRecord s (writeRec off v) (fun s => s.sheetPut (fun s => s.hubWrite .stw off.toNat 0xFFFFFFFF v false none))

def execSheetInd (addr v : Word) (s : State) : Host.Outcome State Fault Refusal :=
  sheetRecord s (indRec addr v) (fun s => s.sheetPut (fun s => s.indDirect .stw addr.toNat v))

/-- The port an IMAGE record names (R396). -/
def imagePort (kind index : Byte) : Option ProgPort :=
  match kind.toNat with
  | 0 => (fin? 8 index.toNat).map .eng
  | 1 => (fin? 16 index.toNat).map .loop
  | 2 => some .plan
  | _ => none

/-- An IMAGE record (R397): the image goes to the steward shared region and is loaded from there. -/
def State.sheetImage (s : State) (kind index : Byte) (swapBit : Bool) (image : List Byte) : State :=
  match imagePort kind index with
  | none => s.sheetErr
  | some pp =>
    let pl := progPlace pp
    let s := s.memStore stewardBase (image.map some)
    let s := s.sheetPut (fun s => s.regWrite .stw pl.blk pl.inst pl.off (BitVec.ofNat 32 stewardBase))
    s.sheetPut (fun s => s.regWrite .stw pl.blk pl.inst (pl.off + 4) (mkBit 31 true ||| mkBit 30 swapBit))

def execSheetImage (kind index : Byte) (swapBit : Bool) (image : List Byte) (s : State) : Host.Outcome State Fault Refusal :=
  sheetRecord s (imageRec kind index swapBit image) (fun s => s.sheetImage kind index swapBit image)

/-- Ticks in so many µs, rounded up: 781.25 each. -/
def usTicks (us : Nat) : Nat :=
  (us * 3125 + 3) / 4

/-- A pause: the records go on when it is over (R396). -/
def execSheetWait (us : Word) (s : State) : Host.Outcome State Fault Refusal :=
  sheetRecord s (waitRec us) (fun s => s.modBoot (fun b => { b with sheetFrom := s.tick + BitVec.ofNat 64 (usTicks us.toNat) }))

/-- The KIND byte at the end of the records applied so far, END where the record area is over (R396). -/
def State.sheetKind (s : State) : Nat :=
  let c := s.boot.sheet.copyB
  if s.boot.sheetPos < 20 + beNat (s.copyBytes c 16 4) then beNat (s.copyBytes c s.boot.sheetPos 1) else 0

/-- An accepted plan waits to take effect, or a lock sequence of it runs (R205, R212, R405). -/
def State.planLocking (s : State) : Bool :=
  s.planDue.isSome || (List.finRange 8).any (fun y => let q := s.syns[(synIx y)]; decide (q.phase = .locking) || q.seqOn)

/-- Application stops at an END or a reserved record, or at once where no copy is valid (R396, R397); it has ended when the
plan's lock sequences are done (R405). -/
def State.sheetEnd (s : State) (kind : Nat) : State :=
  if s.ticking = false ∨ s.boot.sheetDone ∨ s.planLocking then s
  else if s.boot.sheet.valid = false then s.sheetEnds
  else if s.sheetLive = false ∨ s.sheetKind ≠ kind then s
  else if kind = 0 then s.sheetEnds
  else if kind ≥ 5 then s.sheetErr.sheetEnds
  else s

def execSheetEnd (kind : Byte) (s : State) : Host.Outcome State Fault Refusal :=
  doneCore s (fun s => s.sheetEnd kind.toNat)

/-! ## Firmware and modes (R398 to R403) -/

def execFirmwareBoot (ok0 ok1 : Bool) (s : State) : Host.Outcome State Fault Refusal :=
  doneCore s (fun s => s.firmwareBoot ok0 ok1)

/-- Function 1 rings doorbell 0 after it has written an image; the boot ROM verifies it where the doorbell is addressed to
the steward (R338, R399). -/
def State.hostFirmware (s : State) (ok : Bool) : State :=
  let rung := !(s.tooEarly .f1) && decide (bitsOf (s.dbInMap 0) 7 0 = 0x13)
  let s := s.regWrite .f1 .access 0 0x30 1
  if rung then s.hostImage ok else s

def execHostFirmwareDoorbell (ok : Bool) (s : State) : Host.Outcome State Fault Refusal :=
  doneCore s (fun s => s.hostFirmware ok)

def execHostFirmwareTimeout (s : State) : Host.Outcome State Fault Refusal :=
  doneCore s (fun s => s.hostTimeout)

def execBootComplete (s : State) : Host.Outcome State Fault Refusal :=
  doneCore s (fun s => s.bootComplete)

def execModeGo (p : Path) (toMode : BitVec 2) (s : State) : Host.Outcome State Fault Refusal :=
  access s p (key .device 0 4) (fun s => s.regWrite p .device 0 4 (mkBit 25 true ||| fld toMode.toNat 26))

def execDieSensorReading (t : BitVec 16) (s : State) : Host.Outcome State Fault Refusal :=
  doneCore s (fun s => s.dieReading t)

end Sys2Proof.Machine
end

