-- ==== Sys2Proof/Machine/Dispatch.lean ====
section
/-! DEFINITION. One arm for each command: the meaning it calls, or a refusal by the name of its row. -/

namespace Sys2Proof.Machine

def exec (i : Instr) (s : State) : Host.Outcome State Fault Refusal :=
  match i with
  | .oscLost => Sys2Proof.Machine.execOscLost s
  | .oscBack => Sys2Proof.Machine.execOscBack s
  | .synbPullInEnd locked => Sys2Proof.Machine.execSynbPullInEnd locked s
  | .tickIndexCompare => Sys2Proof.Machine.execTickIndexCompare s
  | .crossingWordArrival x => Sys2Proof.Machine.execCrossingWordArrival x s
  | .applyTick dst => Sys2Proof.Machine.execApplyTick dst s
  | .candWrite p n k v => Sys2Proof.Machine.execCandWrite p n k v s
  | .svinMapWrite p k v => Sys2Proof.Machine.execSvinMapWrite p k v s
  | .datumTick => Sys2Proof.Machine.execDatumTick s
  | .stepHoldRelease d => Sys2Proof.Machine.execStepHoldRelease d s
  | .surveyEdge ch fall code => Sys2Proof.Machine.execSurveyEdge ch fall code s
  | .burstFifoDrain g => Sys2Proof.Machine.execBurstFifoDrain g s
  | .stampArrival g isl => Sys2Proof.Machine.execStampArrival g isl s
  | .fieldBookWrite => Sys2Proof.Machine.execFieldBookWrite s
  | .refinEdge n fall d => Sys2Proof.Machine.execRefinEdge n fall d s
  | .monitorEvent src d => Sys2Proof.Machine.execMonitorEvent src d s
  | .clockLosTimeout n => Sys2Proof.Machine.execClockLosTimeout n s
  | .sourceLosReport src => Sys2Proof.Machine.execSourceLosReport src s
  | .actMissTimeout src => Sys2Proof.Machine.execActMissTimeout src s
  | .freqGateClose src => Sys2Proof.Machine.execFreqGateClose src s
  | .phaseSample src => Sys2Proof.Machine.execPhaseSample src s
  | .phaseHoldExpiry src => Sys2Proof.Machine.execPhaseHoldExpiry src s
  | .slotEnable p src => Sys2Proof.Machine.execSlotEnable p src s
  | .slotDisable p src => Sys2Proof.Machine.execSlotDisable p src s
  | .lockoutSet p src => Sys2Proof.Machine.execLockoutSet p src s
  | .lockoutClear p src => Sys2Proof.Machine.execLockoutClear p src s
  | .qualOwnerWrite p src v => Sys2Proof.Machine.execQualOwnerWrite p src v s
  | .refinCfgWrite p n v => Sys2Proof.Machine.execRefinCfgWrite p n v s
  | .delayCompWrite p src v => Sys2Proof.Machine.execDelayCompWrite p src v s
  | .delayCompApply src => Sys2Proof.Machine.execDelayCompApply src s
  | .wtrExpiry src => Sys2Proof.Machine.execWtrExpiry src s
  | .verdictWrite p src v => Sys2Proof.Machine.execVerdictWrite p src v s
  | .verdictStale src => Sys2Proof.Machine.execVerdictStale src s
  | .qlFailed n => Sys2Proof.Machine.execQlFailed n s
  | .ovenWarmPin level => Sys2Proof.Machine.execOvenWarmPin level s
  | .ovenWarmDebounced => Sys2Proof.Machine.execOvenWarmDebounced s
  | .settleGateClose src => Sys2Proof.Machine.execSettleGateClose src s
  | .settleTimeout => Sys2Proof.Machine.execSettleTimeout s
  | .settleWrite p slope v => Sys2Proof.Machine.execSettleWrite p slope v s
  | .rcRead p off => Sys2Proof.Machine.execRcRead p off s
  | .sampleClose n => Sys2Proof.Machine.execSampleClose n s
  | .acqTimeout n => Sys2Proof.Machine.execAcqTimeout n s
  | .loopEnable p n => Sys2Proof.Machine.execLoopEnable p n s
  | .loopDisable p n => Sys2Proof.Machine.execLoopDisable p n s
  | .loopConsumerSelect p n dsel ssel => Sys2Proof.Machine.execLoopConsumerSelect p n dsel ssel s
  | .free p n => Sys2Proof.Machine.execFree p n s
  | .hoClear p n => Sys2Proof.Machine.execHoClear p n s
  | .sampleRateWrite p n v => Sys2Proof.Machine.execSampleRateWrite p n v s
  | .candBarClear p n v => Sys2Proof.Machine.execCandBarClear p n v s
  | .selectionTick n => Sys2Proof.Machine.execSelectionTick n s
  | .selectorEvaluate n => Sys2Proof.Machine.execSelectorEvaluate n s
  | .selectWrite p n v => Sys2Proof.Machine.execSelectWrite p n v s
  | .holdoffExpiry n => Sys2Proof.Machine.execHoldoffExpiry n s
  | .switchCommit n => Sys2Proof.Machine.execSwitchCommit n s
  | .slewEnd d => Sys2Proof.Machine.execSlewEnd d s
  | .bslewWrite p d v => Sys2Proof.Machine.execBslewWrite p d v s
  | .qualifyingSecond n => Sys2Proof.Machine.execQualifyingSecond n s
  | .holdoverSecond n => Sys2Proof.Machine.execHoldoverSecond n s
  | .holdoverExpired n => Sys2Proof.Machine.execHoldoverExpired n s
  | .tempLostTimeout => Sys2Proof.Machine.execTempLostTimeout s
  | .ovenModelBlock => Sys2Proof.Machine.execOvenModelBlock s
  | .modelClear p => Sys2Proof.Machine.execModelClear p s
  | .twinEnable p n => Sys2Proof.Machine.execTwinEnable p n s
  | .twinDisable p n => Sys2Proof.Machine.execTwinDisable p n s
  | .swap p n => Sys2Proof.Machine.execSwap p n s
  | .timeLabel src => Sys2Proof.Machine.execTimeLabel src s
  | .utcWrite p d v => Sys2Proof.Machine.execUtcWrite p d v s
  | .leapSecond d => Sys2Proof.Machine.execLeapSecond d s
  | .ppsEdge ch => Sys2Proof.Machine.execPpsEdge ch s
  | .pulseTrail ch => Sys2Proof.Machine.execPulseTrail ch s
  | .todMessage ch => Sys2Proof.Machine.execTodMessage ch s
  | .nowLatchRead p d => Sys2Proof.Machine.execNowLatchRead p d s
  | .graticuleFetch g j => Sys2Proof.Machine.execGraticuleFetch g j s
  | .graticuleFire g j => Sys2Proof.Machine.execGraticuleFire g j s
  | .rotationStepStart g => Sys2Proof.Machine.execRotationStepStart g s
  | .calTableBuilt g hist => Sys2Proof.Machine.execCalTableBuilt g hist s
  | .relief g dr dx tap => Sys2Proof.Machine.execRelief g dr dx tap s
  | .reliefLostTimeout g => Sys2Proof.Machine.execReliefLostTimeout g s
  | .channelModeWrite p ch v => Sys2Proof.Machine.execChannelModeWrite p ch v s
  | .handoverEnd ch => Sys2Proof.Machine.execHandoverEnd ch s
  | .intervalOverflow ch => Sys2Proof.Machine.execIntervalOverflow ch s
  | .periodOverflow ch => Sys2Proof.Machine.execPeriodOverflow ch s
  | .uartRxByte ch b parityBit stop1 stop2 => Sys2Proof.Machine.execUartRxByte ch b parityBit stop1 stop2 s
  | .rxdataRead p ch => Sys2Proof.Machine.execRxdataRead p ch s
  | .txdataWrite p ch v => Sys2Proof.Machine.execTxdataWrite p ch v s
  | .gpioOutWrite p ch out => Sys2Proof.Machine.execGpioOutWrite p ch out s
  | .statsSample u => Sys2Proof.Machine.execStatsSample u s
  | .statsCfgWrite p u r v => Sys2Proof.Machine.execStatsCfgWrite p u r v s
  | .close p u => Sys2Proof.Machine.execClose p u s
  | .statsWindowClose u => Sys2Proof.Machine.execStatsWindowClose u s
  | .statsCommit u => Sys2Proof.Machine.execStatsCommit u s
  | .fieldbookCfgWrite p size v => Sys2Proof.Machine.execFieldbookCfgWrite p size v s
  | .fieldbookRdWrite p v => Sys2Proof.Machine.execFieldbookRdWrite p v s
  | .drainBatch groups result => Sys2Proof.Machine.execDrainBatch groups result s
  | .drainModTimeout => Sys2Proof.Machine.execDrainModTimeout s
  | .drainEnWrite p v => Sys2Proof.Machine.execDrainEnWrite p v s
  | .hostRdWrite p v => Sys2Proof.Machine.execHostRdWrite p v s
  | .noticeOccurrence src cls code args => Sys2Proof.Machine.execNoticeOccurrence src cls code args s
  | .noticeRdWrite p v => Sys2Proof.Machine.execNoticeRdWrite p v s
  | .lockSequenceStart y => Sys2Proof.Machine.execLockSequenceStart y s
  | .synLock y band => Sys2Proof.Machine.execSynLock y band s
  | .onGrid y => Sys2Proof.Machine.execOnGrid y s
  | .outputStart o => Sys2Proof.Machine.execOutputStart o s
  | .lockSequenceFail y => Sys2Proof.Machine.execLockSequenceFail y s
  | .lockRetry y => Sys2Proof.Machine.execLockRetry y s
  | .synLol y => Sys2Proof.Machine.execSynLol y s
  | .regainTimeout y => Sys2Proof.Machine.execRegainTimeout y s
  | .inBandRegain y => Sys2Proof.Machine.execInBandRegain y s
  | .shortLockSequenceEnd y ok band => Sys2Proof.Machine.execShortLockSequenceEnd y ok band s
  | .relock p y => Sys2Proof.Machine.execRelock p y s
  | .contourStep y => Sys2Proof.Machine.execContourStep y s
  | .outbankCtrlWrite p b v => Sys2Proof.Machine.execOutbankCtrlWrite p b v s
  | .alignUpdate a edges => Sys2Proof.Machine.execAlignUpdate a edges s
  | .bankSupplyMismatch m => Sys2Proof.Machine.execBankSupplyMismatch m s
  | .planApply => Sys2Proof.Machine.execPlanApply s
  | .portCfgWrite p n v => Sys2Proof.Machine.execPortCfgWrite p n v s
  | .linkUp n => Sys2Proof.Machine.execLinkUp n s
  | .linkDown n => Sys2Proof.Machine.execLinkDown n s
  | .syncRx n sess seq fl t1 rate tl tb var => Sys2Proof.Machine.execSyncRx n sess seq fl t1 rate tl tb var s
  | .followUpRx n sess seq t1 rate tl => Sys2Proof.Machine.execFollowUpRx n sess seq t1 rate tl s
  | .delayReqRx n sess seq tl tb var => Sys2Proof.Machine.execDelayReqRx n sess seq tl tb var s
  | .delayRespRx n sess seq t4 tl => Sys2Proof.Machine.execDelayRespRx n sess seq t4 tl s
  | .pdelayReqRx n seq tl rx tx => Sys2Proof.Machine.execPdelayReqRx n seq tl rx tx s
  | .pdelayRespRx n seq t2 t3 tl tb var => Sys2Proof.Machine.execPdelayRespRx n seq t2 t3 tl tb var s
  | .announceRx n sess clockClass bench others auth => Sys2Proof.Machine.execAnnounceRx n sess clockClass bench others auth s
  | .syncTx k n sess oneStep tb var => Sys2Proof.Machine.execSyncTx k n sess oneStep tb var s
  | .delayReqTx k n sess tb var => Sys2Proof.Machine.execDelayReqTx k n sess tb var s
  | .announceTx k n sess => Sys2Proof.Machine.execAnnounceTx k n sess s
  | .streamWindowClose k => Sys2Proof.Machine.execStreamWindowClose k s
  | .parentLost n sess => Sys2Proof.Machine.execParentLost n sess s
  | .grantLapse n sess l => Sys2Proof.Machine.execGrantLapse n sess l s
  | .esmcPduRx n ssm essm info => Sys2Proof.Machine.execEsmcPduRx n ssm essm info s
  | .esmcInfoTx n => Sys2Proof.Machine.execEsmcInfoTx n s
  | .txqStamp n id seq msgType domain tb var => Sys2Proof.Machine.execTxqStamp n id seq msgType domain tb var s
  | .txqPop p n v => Sys2Proof.Machine.execTxqPop p n v s
  | .trainRx n seq ack devId link => Sys2Proof.Machine.execTrainRx n seq ack devId link s
  | .legendRx n part seq ack payload => Sys2Proof.Machine.execLegendRx n part seq ack payload s
  | .legendTx n => Sys2Proof.Machine.execLegendTx n s
  | .phaseTx n tb var => Sys2Proof.Machine.execPhaseTx n tb var s
  | .phaseRx n seq ack f bounds var => Sys2Proof.Machine.execPhaseRx n seq ack f bounds var s
  | .surveyReqRx n f log2 => Sys2Proof.Machine.execSurveyReqRx n f log2 s
  | .surveyAckRx n f log2 => Sys2Proof.Machine.execSurveyAckRx n f log2 s
  | .surveyAbortRx n f => Sys2Proof.Machine.execSurveyAbortRx n f s
  | .surveyPhaseEnd n => Sys2Proof.Machine.execSurveyPhaseEnd n s
  | .surveyDone n => Sys2Proof.Machine.execSurveyDone n s
  | .survIntTimer n => Sys2Proof.Machine.execSurvIntTimer n s
  | .swapRelockTimeout n => Sys2Proof.Machine.execSwapRelockTimeout n s
  | .verifyFail n => Sys2Proof.Machine.execVerifyFail n s
  | .survey p n => Sys2Proof.Machine.execSurvey p n s
  | .retrain p n => Sys2Proof.Machine.execRetrain p n s
  | .load p pp => Sys2Proof.Machine.execLoad p pp s
  | .progSwapCmd p pp => Sys2Proof.Machine.execProgSwapCmd p pp s
  | .cancel p pp => Sys2Proof.Machine.execCancel p pp s
  | .restart p e => Sys2Proof.Machine.execRestart p e s
  | .verificationDone pp => Sys2Proof.Machine.execVerificationDone pp s
  | .programSwap pp => Sys2Proof.Machine.execProgramSwap pp s
  | .swapTmoExpiry e => Sys2Proof.Machine.execSwapTmoExpiry e s
  | .watchdog e => Sys2Proof.Machine.execWatchdog e s
  | .waitResume e => Sys2Proof.Machine.execWaitResume e s
  | .nop t => Sys2Proof.Machine.execNop t s
  | .mov t rd ra => Sys2Proof.Machine.execMov t rd ra s
  | .ldi t rd hw keep imm => Sys2Proof.Machine.execLdi t rd hw keep imm s
  | .ldc t rd idx => Sys2Proof.Machine.execLdc t rd idx s
  | .rdf t rd => Sys2Proof.Machine.execRdf t rd s
  | .wrf t ra => Sys2Proof.Machine.execWrf t ra s
  | .rdcw t rd => Sys2Proof.Machine.execRdcw t rd s
  | .wrcw t ra => Sys2Proof.Machine.execWrcw t ra s
  | .add t rd ra rb => Sys2Proof.Machine.execAdd t rd ra rb s
  | .adc t rd ra rb => Sys2Proof.Machine.execAdc t rd ra rb s
  | .sub t rd ra rb => Sys2Proof.Machine.execSub t rd ra rb s
  | .sbb t rd ra rb => Sys2Proof.Machine.execSbb t rd ra rb s
  | .adds t rd ra rb => Sys2Proof.Machine.execAdds t rd ra rb s
  | .subs t rd ra rb => Sys2Proof.Machine.execSubs t rd ra rb s
  | .neg t rd ra => Sys2Proof.Machine.execNeg t rd ra s
  | .negs t rd ra => Sys2Proof.Machine.execNegs t rd ra s
  | .abs t rd ra => Sys2Proof.Machine.execAbs t rd ra s
  | .min t rd ra rb => Sys2Proof.Machine.execMin t rd ra rb s
  | .max t rd ra rb => Sys2Proof.Machine.execMax t rd ra rb s
  | .cmp t ra rb => Sys2Proof.Machine.execCmp t ra rb s
  | .tst t ra rb => Sys2Proof.Machine.execTst t ra rb s
  | .addi t rd ra imm => Sys2Proof.Machine.execAddi t rd ra imm s
  | .cmpi t ra imm => Sys2Proof.Machine.execCmpi t ra imm s
  | .andi t rd ra imm => Sys2Proof.Machine.execAndi t rd ra imm s
  | .ori t rd ra imm => Sys2Proof.Machine.execOri t rd ra imm s
  | .xori t rd ra imm => Sys2Proof.Machine.execXori t rd ra imm s
  | .tsti t ra imm => Sys2Proof.Machine.execTsti t ra imm s
  | .and t rd ra rb => Sys2Proof.Machine.execAnd t rd ra rb s
  | .or t rd ra rb => Sys2Proof.Machine.execOr t rd ra rb s
  | .xor t rd ra rb => Sys2Proof.Machine.execXor t rd ra rb s
  | .andn t rd ra rb => Sys2Proof.Machine.execAndn t rd ra rb s
  | .clz t rd ra => Sys2Proof.Machine.execClz t rd ra s
  | .mul t rd ra rb => Sys2Proof.Machine.execMul t rd ra rb s
  | .shl t rd ra rb x => Sys2Proof.Machine.execShl t rd ra rb x s
  | .shr t rd ra rb x => Sys2Proof.Machine.execShr t rd ra rb x s
  | .sar t rd ra rb x => Sys2Proof.Machine.execSar t rd ra rb x s
  | .rsr t rd ra rb x => Sys2Proof.Machine.execRsr t rd ra rb x s
  | .mula t acd ra rb x => Sys2Proof.Machine.execMula t acd ra rb x s
  | .mac t acd ra rb x => Sys2Proof.Machine.execMac t acd ra rb x s
  | .msu t acd ra rb x => Sys2Proof.Machine.execMsu t acd ra rb x s
  | .acmov t acd ra x => Sys2Proof.Machine.execAcmov t acd ra x s
  | .acset t acd ra rb => Sys2Proof.Machine.execAcset t acd ra rb s
  | .achi t rd aca => Sys2Proof.Machine.execAchi t rd aca s
  | .aclo t rd aca => Sys2Proof.Machine.execAclo t rd aca s
  | .acadd t acd aca acb => Sys2Proof.Machine.execAcadd t acd aca acb s
  | .acsub t acd aca acb => Sys2Proof.Machine.execAcsub t acd aca acb s
  | .acneg t acd aca => Sys2Proof.Machine.execAcneg t acd aca s
  | .acshl t acd aca x => Sys2Proof.Machine.execAcshl t acd aca x s
  | .acshr t acd aca x => Sys2Proof.Machine.execAcshr t acd aca x s
  | .acn t rd aca x => Sys2Proof.Machine.execAcn t rd aca x s
  | .accmp t aca acb => Sys2Proof.Machine.execAccmp t aca acb s
  | .acsqrt t rd aca => Sys2Proof.Machine.execAcsqrt t rd aca s
  | .div t rd ra rb => Sys2Proof.Machine.execDiv t rd ra rb s
  | .divu t rd ra rb => Sys2Proof.Machine.execDivu t rd ra rb s
  | .acdiv t rd aca ra => Sys2Proof.Machine.execAcdiv t rd aca ra s
  | .b t cond off => Sys2Proof.Machine.execB t cond off s
  | .call t cond off => Sys2Proof.Machine.execCall t cond off s
  | .ret t => Sys2Proof.Machine.execRet t s
  | .br e ra => Sys2Proof.Machine.execBr e ra s
  | .halt e => Sys2Proof.Machine.execHalt e s
  | .stop n => Sys2Proof.Machine.execStop n s
  | .ldb e rd ra imm => Sys2Proof.Machine.execLdb e rd ra imm s
  | .ldh e rd ra imm => Sys2Proof.Machine.execLdh e rd ra imm s
  | .ldw e rd ra imm => Sys2Proof.Machine.execLdw e rd ra imm s
  | .ldd e rd ra imm => Sys2Proof.Machine.execLdd e rd ra imm s
  | .ldbs e rd ra imm => Sys2Proof.Machine.execLdbs e rd ra imm s
  | .ldhs e rd ra imm => Sys2Proof.Machine.execLdhs e rd ra imm s
  | .ldws e rd ra imm => Sys2Proof.Machine.execLdws e rd ra imm s
  | .stb e rd ra imm => Sys2Proof.Machine.execStb e rd ra imm s
  | .sth e rd ra imm => Sys2Proof.Machine.execSth e rd ra imm s
  | .stw e rd ra imm => Sys2Proof.Machine.execStw e rd ra imm s
  | .std e rd ra imm => Sys2Proof.Machine.execStd e rd ra imm s
  | .tnow e rd x => Sys2Proof.Machine.execTnow e rd x s
  | .tick e rd => Sys2Proof.Machine.execTick e rd s
  | .tadd e rd ra rb => Sys2Proof.Machine.execTadd e rd ra rb s
  | .tdif e rd ra rb => Sys2Proof.Machine.execTdif e rd ra rb s
  | .waitt e ra x => Sys2Proof.Machine.execWaitt e ra x s
  | .waitk e ra => Sys2Proof.Machine.execWaitk e ra s
  | .waite e rd ra rb => Sys2Proof.Machine.execWaite e rd ra rb s
  | .stpop e rd => Sys2Proof.Machine.execStpop e rd s
  | .emit e rd ra rb => Sys2Proof.Machine.execEmit e rd ra rb s
  | .inx n rd => Sys2Proof.Machine.execInx n rd s
  | .inf n rd => Sys2Proof.Machine.execInf n rd s
  | .outf n ra => Sys2Proof.Machine.execOutf n ra s
  | .spush e ra => Sys2Proof.Machine.execSpush e ra s
  | .note e ra imm => Sys2Proof.Machine.execNote e ra imm s
  | .mbpost e rd ra imm => Sys2Proof.Machine.execMbpost e rd ra imm s
  | .mbtake e rd ra imm => Sys2Proof.Machine.execMbtake e rd ra imm s
  | .dbell e rd imm => Sys2Proof.Machine.execDbell e rd imm s
  | .sema e rd imm => Sys2Proof.Machine.execSema e rd imm s
  | .semr e imm => Sys2Proof.Machine.execSemr e imm s
  | .registerWrite p off v => Sys2Proof.Machine.execRegisterWrite p off v s
  | .aliasWrite p addr v => Sys2Proof.Machine.execAliasWrite p addr v s
  | .holdingReadHigh p off => Sys2Proof.Machine.execHoldingReadHigh p off s
  | .holdingWriteLow p off v => Sys2Proof.Machine.execHoldingWriteLow p off v s
  | .holdingWriteCommit p off v => Sys2Proof.Machine.execHoldingWriteCommit p off v s
  | .take p => Sys2Proof.Machine.execTake p s
  | .indDataWrite p v => Sys2Proof.Machine.execIndDataWrite p v s
  | .indWriteDone p => Sys2Proof.Machine.execIndWriteDone p s
  | .indDataRead p => Sys2Proof.Machine.execIndDataRead p s
  | .bar2Write f off bytes => Sys2Proof.Machine.execBar2Write f off bytes s
  | .bar2Read f off len => Sys2Proof.Machine.execBar2Read f off len s
  | .badTlp f write => Sys2Proof.Machine.execBadTlp f write s
  | .functionLevelReset f => Sys2Proof.Machine.execFunctionLevelReset f s
  | .perstN => Sys2Proof.Machine.execPerstN s
  | .sbSetPointer count off pec => Sys2Proof.Machine.execSbSetPointer count off pec s
  | .sbReadAtPointer pec => Sys2Proof.Machine.execSbReadAtPointer pec s
  | .sbWriteAtPointer count v pec => Sys2Proof.Machine.execSbWriteAtPointer count v pec s
  | .sbProcessCallRead count off pec => Sys2Proof.Machine.execSbProcessCallRead count off pec s
  | .sbWriteAtOffset count off v pec => Sys2Proof.Machine.execSbWriteAtOffset count off v pec s
  | .sbStatus => Sys2Proof.Machine.execSbStatus s
  | .badCmd code => Sys2Proof.Machine.execBadCmd code s
  | .alertResponse => Sys2Proof.Machine.execAlertResponse s
  | .smbusTimeout => Sys2Proof.Machine.execSmbusTimeout s
  | .post p m => Sys2Proof.Machine.execPost p m s
  | .ack p m => Sys2Proof.Machine.execAck p m s
  | .mailboxCfgWrite p m v => Sys2Proof.Machine.execMailboxCfgWrite p m v s
  | .dbInSet p v => Sys2Proof.Machine.execDbInSet p v s
  | .dbInClr p v => Sys2Proof.Machine.execDbInClr p v s
  | .dbOutSet p v => Sys2Proof.Machine.execDbOutSet p v s
  | .dbOutClr p v => Sys2Proof.Machine.execDbOutClr p v s
  | .traverse mb cause => Sys2Proof.Machine.execTraverse mb cause s
  | .traversePass mb result answer ident => Sys2Proof.Machine.execTraversePass mb result answer ident s
  | .travIntExpiry mb => Sys2Proof.Machine.execTravIntExpiry mb s
  | .attach mb => Sys2Proof.Machine.execAttach mb s
  | .read mb entry reg len result => Sys2Proof.Machine.execRead mb entry reg len result s
  | .write mb entry reg data result => Sys2Proof.Machine.execWrite mb entry reg data result s
  | .peerTargetFrame mb frame => Sys2Proof.Machine.execPeerTargetFrame mb frame s
  | .ovenRead temp status => Sys2Proof.Machine.execOvenRead temp status s
  | .go p v => Sys2Proof.Machine.execGo p v s
  | .mbStuck mb => Sys2Proof.Machine.execMbStuck mb s
  | .recoveryPulse mb => Sys2Proof.Machine.execRecoveryPulse mb s
  | .mbIsolated mb => Sys2Proof.Machine.execMbIsolated mb s
  | .lineRelease mb => Sys2Proof.Machine.execLineRelease mb s
  | .scrubVisit bank word upset => Sys2Proof.Machine.execScrubVisit bank word upset s
  | .ceThreshCheck bank => Sys2Proof.Machine.execCeThreshCheck bank s
  | .spareTest ok => Sys2Proof.Machine.execSpareTest ok s
  | .memRemap => Sys2Proof.Machine.execMemRemap s
  | .archiveRefresh word weak bad => Sys2Proof.Machine.execArchiveRefresh word weak bad s
  | .protectWrite p v => Sys2Proof.Machine.execProtectWrite p v s
  | .faultReport block cause => Sys2Proof.Machine.execFaultReport block cause s
  | .selfTestDone block pass => Sys2Proof.Machine.execSelfTestDone block pass s
  | .synbRelock m => Sys2Proof.Machine.execSynbRelock m s
  | .datumReload isl => Sys2Proof.Machine.execDatumReload isl s
  | .unretire p block => Sys2Proof.Machine.execUnretire p block s
  | .retireBank p bank => Sys2Proof.Machine.execRetireBank p bank s
  | .holdoverCheckpoint n => Sys2Proof.Machine.execHoldoverCheckpoint n s
  | .benchmarkScan => Sys2Proof.Machine.execBenchmarkScan s
  | .stewardShed load => Sys2Proof.Machine.execStewardShed load s
  | .fwSwap p ok => Sys2Proof.Machine.execFwSwap p ok s
  | .domainPowerDown p dom => Sys2Proof.Machine.execDomainPowerDown p dom s
  | .domainPowerUp p dom => Sys2Proof.Machine.execDomainPowerUp p dom s
  | .domainRelease dom => Sys2Proof.Machine.execDomainRelease dom s
  | .supply dom => Sys2Proof.Machine.execSupply dom s
  | .svSupplyMismatch g within => Sys2Proof.Machine.execSvSupplyMismatch g within s
  | .standbyPowerOn straps => Sys2Proof.Machine.execStandbyPowerOn straps s
  | .railOutOfRange => Sys2Proof.Machine.execRailOutOfRange s
  | .resetN => Sys2Proof.Machine.execResetN s
  | .resetCore p => Sys2Proof.Machine.execResetCore p s
  | .resetRelease straps => Sys2Proof.Machine.execResetRelease straps s
  | .trstN => Sys2Proof.Machine.execTrstN s
  | .sheetWrite off v => Sys2Proof.Machine.execSheetWrite off v s
  | .sheetInd addr v => Sys2Proof.Machine.execSheetInd addr v s
  | .sheetImage kind index swapBit image => Sys2Proof.Machine.execSheetImage kind index swapBit image s
  | .sheetWait us => Sys2Proof.Machine.execSheetWait us s
  | .sheetEnd kind => Sys2Proof.Machine.execSheetEnd kind s
  | .firmwareBoot ok0 ok1 => Sys2Proof.Machine.execFirmwareBoot ok0 ok1 s
  | .hostFirmwareDoorbell ok => Sys2Proof.Machine.execHostFirmwareDoorbell ok s
  | .hostFirmwareTimeout => Sys2Proof.Machine.execHostFirmwareTimeout s
  | .bootComplete => Sys2Proof.Machine.execBootComplete s
  | .modeGo p toMode => Sys2Proof.Machine.execModeGo p toMode s
  | .frameDiscard n hdr => Sys2Proof.Machine.execFrameDiscard n hdr s
  | .trainTx n => Sys2Proof.Machine.execTrainTx n s
  | .switchConfirmTimeout n => Sys2Proof.Machine.execSwitchConfirmTimeout n s
  | .cdrUnlock n => Sys2Proof.Machine.execCdrUnlock n s
  | .cdrLock n => Sys2Proof.Machine.execCdrLock n s
  | .fecAlignLost n => Sys2Proof.Machine.execFecAlignLost n s
  | .fecAlignGained n => Sys2Proof.Machine.execFecAlignGained n s
  | .pcieLinkDown => Sys2Proof.Machine.execPcieLinkDown s
  | .pcieLinkUp speed width => Sys2Proof.Machine.execPcieLinkUp speed width s
  | .pcieConfigWrite f c => Sys2Proof.Machine.execPcieConfigWrite f c s
  | .dieSensorReading t => Sys2Proof.Machine.execDieSensorReading t s
  | .alignHandoverSwitch b edges => Sys2Proof.Machine.execAlignHandoverSwitch b edges s

end Sys2Proof.Machine
end

