-- ==== Sys2Proof/Safety.lean ====
section
/-! DEFINITION. The terms in which the statements are made: how a command completes, which registers a path may write, and
the invariant of the tick that every step keeps. -/

namespace Sys2Proof.Machine

/-- The command answers a next state, and that state has property P. -/
def Completes (c : Instr) (s : State) (P : State → Prop) : Prop :=
  ∃ t, exec c s = .next t ∧ P t

/-- Path p is served: the core runs, and for a host function the HOST island is in service (R377, R380). -/
def State.carries (s : State) (p : Path) : Bool :=
  s.coreUp && (s.hostUp || (pathFunc p).isNone)

/-- A write of a register by path p is let through to the register: the path is served, the start sheet has been applied
where it comes from outside (R397), the register's power domain is up (R330). -/
def State.reaches (s : State) (p : Path) (b : Block) (i o : Nat) : Bool :=
  s.carries p && !s.tooEarly p && !s.placeDown ⟨b, i, o⟩

/-- The same for a path that has keeper rights at the register (R290, R315). -/
def State.keeps (s : State) (p : Path) (b : Block) (i o : Nat) : Bool :=
  s.reaches p b i o && s.keeperAt p ⟨b, i, o⟩

/-- The registers of a Nimyor target. -/
def State.cpuOf (s : State) : Tgt → Cpu
  | .eng e => (s.engines[e]).cpu
  | .loop n => (s.loops[n]).cpu

/-- The target's registers after an instruction; an engine's STATE.PC takes the address it executed at (R293). -/
def State.setCpu (s : State) (t : Tgt) (c : Cpu) : State :=
  match t with
  | .eng e => s.modEng e (fun g => { g with cpu := c, pcReg := g.cpu.pc })
  | .loop n => s.modLoop n (fun l => { l with cpu := c })

/-- The target executes its next instruction: an engine that runs, whose watchdog is not due and whose fetch meets no
fault; an enabled loop's datapath that no program fault holds and whose fetch meets none (R97, R109, R291, R296, R313). -/
def State.runsOn (s : State) (t : Tgt) : Bool :=
  s.coreUp && match t with
    | .eng e => (s.engines[e]).run == .running && !s.wdogDue e && ((s.engines[e]).fetch e).isNone
    | .loop n => s.loopEn n && !(s.loops[n]).heldFault
        && (fetchFault (s.loops[n]).prog.cur (s.loops[n]).cpu.pc (fun _ => true)).isNone

/-- The flag word F (R277). -/
def fWord (z n c v q l : Bool) : BitVec 6 :=
  BitVec.ofNat 6 (b2n z + 2 * b2n n + 4 * b2n c + 8 * b2n v + 16 * b2n q + 32 * b2n l)

/-- Command i leaves target t with the registers d and nothing else changed. -/
def Runs (s : State) (t : Tgt) (i : Instr) (d : Cpu) : Prop :=
  exec i s = .next (s.setCpu t d)

/-- Engine e takes the fault (R292): it stops at its instruction, its registers stand. -/
def EngineFaults (s : State) (e : Fin 8) (i : Instr) (cause : Byte) : Prop :=
  Completes i s (fun t => (t.engines[e]).run = .fault ∧ (t.engines[e]).cause = cause
    ∧ (t.engines[e]).cpu = (s.engines[e]).cpu ∧ (t.engines[e]).pcReg = (s.engines[e]).cpu.pc ∧ (t.engines[e]).wait = none)

/-- The word that a read has answered. -/
def Resp.word : Resp → Word
  | .data w => w
  | _ => 0

/-- The windows of R279 through which engine e loads bytes of SRAM: first address, size, where it lies. -/
def readWindows (e : Fin 8) : List (Nat × Nat × Nat) :=
  [(0x100000, 0x40000, engineBase + e.val * sliceSize), (0x2000000, 0x400000, graticuleBase),
    (0x3000000, 0x200000, statsBase), (0x4000000, 0x100000, noticeBase)]
    ++ (List.range 8).map (fun m => (0x140000 + m * 0x20000, 0x20000, engineBase + m * sliceSize))

/-- Those it stores through: its slice and the graticule. -/
def writeWindows (e : Fin 8) : List (Nat × Nat × Nat) :=
  [(0x100000, 0x40000, engineBase + e.val * sliceSize), (0x2000000, 0x400000, graticuleBase)]

/-- An engine address that R279 gives no window. -/
def noWindow (a : Int) : Bool :=
  decide (a < 0x10000 ∨ (0x14000 ≤ a ∧ a < 0x100000) ∨ (0x240000 ≤ a ∧ a < 0x1000000) ∨ (0x1100000 ≤ a ∧ a < 0x2000000)
    ∨ (0x2400000 ≤ a ∧ a < 0x3000000) ∨ (0x3200000 ≤ a ∧ a < 0x4000000) ∨ 0x4100000 ≤ a)

/-- An engine address that is read and not written (R279): constants, the slices of all engines, statistics, notices. -/
def readOnlyWindow (a : Int) : Bool :=
  decide ((0x10000 ≤ a ∧ a < 0x14000) ∨ (0x140000 ≤ a ∧ a < 0x240000) ∨ (0x3000000 ≤ a ∧ a < 0x3200000)
    ∨ (0x4000000 ≤ a ∧ a < 0x4100000))

/-- A register whose write does nothing but store its writable bits: no command, no table entry, no configuration that
some unit follows at once (R8). -/
def Place.plain (pl : Place) : Bool :=
  match pl.blk with
  | .benchmark => true
  | .memory => true
  | .sideband => true
  | .align => true
  | .device => decide (pl.off ∉ [0x04, 0x08, 0x0C, 0x808])
  | .access => decide (0x100 ≤ pl.off)
  | .notice => decide (pl.off ≠ 8)
  | .loop => decide (pl.off ∉ [0x00, 0x0C, 0x18, 0x1C, 0x28, 0xD0, 0xD4] ∧ ¬(0x90 ≤ pl.off ∧ pl.off < 0xD0))
  | .datum => decide (pl.off ∉ [0x08, 0x10])
  | .survey => decide (pl.off < 0x40 ∨ (0x800 ≤ pl.off ∧ (pl.off - 0x800) % 0x80 ∉ [0x00, 0x10, 0x18, 0x1C, 0x28]))
  | .fieldbook => decide (pl.off ∉ [0x04, 0x08, 0x10, 0x80, 0xA0])
  | .port => decide (pl.off ∉ [0x00, 0x08, 0x0C, 0x18, 0x48])
  | .pte => decide (pl.off < 0x80 ∨ (0x100 ≤ pl.off ∧ pl.off < 0x200))
  | .engine => decide (pl.off ∉ [0x04, 0x08])
  | .modbus => decide (pl.off ∉ [0x00, 0x20, 0x0C, 0x2C, 0x60])
  | _ => false

/-- The writable bits of a register on path p (R8): RW, and RWK with keeper rights. -/
def State.writable (s : State) (p : Path) (pl : Place) : Word :=
  pl.reg.rw ||| (if s.keeperAt p pl then pl.reg.rwk else 0)

/-- The tick invariant (R14): every island's tick index is the device's; with the core held in reset the tick stands at 0. -/
def State.tickInv (s : State) : Prop :=
  (∀ i : Fin 16, s.islandTick[i] = s.tick) ∧ (s.coreUp = false → s.ticking = false ∧ s.tick = 0)

/-! Which commands may reach which parts of the state; the frame statements say that the others do not. -/

/-- A command that reads or writes a register of the block, whatever the register does (R315): its effect may reach every
part of the state. -/
def throughRegisters : Instr → Bool
  | .candWrite .. | .svinMapWrite .. | .slotEnable .. | .slotDisable .. | .lockoutSet .. | .lockoutClear ..
  | .qualOwnerWrite .. | .refinCfgWrite .. | .delayCompWrite .. | .verdictWrite .. | .settleWrite .. | .rcRead ..
  | .loopEnable .. | .loopDisable .. | .loopConsumerSelect .. | .free .. | .hoClear .. | .sampleRateWrite ..
  | .candBarClear .. | .selectWrite .. | .bslewWrite .. | .modelClear .. | .twinEnable .. | .twinDisable ..
  | .swap .. | .utcWrite .. | .nowLatchRead .. | .channelModeWrite .. | .rxdataRead .. | .txdataWrite ..
  | .gpioOutWrite .. | .statsCfgWrite .. | .close .. | .fieldbookCfgWrite .. | .fieldbookRdWrite ..
  | .drainEnWrite .. | .hostRdWrite .. | .noticeRdWrite .. | .relock .. | .outbankCtrlWrite .. | .portCfgWrite ..
  | .txqPop .. | .survey .. | .retrain .. | .load .. | .progSwapCmd .. | .cancel .. | .restart .. | .ldb .. | .ldh ..
  | .ldw .. | .ldd .. | .ldbs .. | .ldhs .. | .ldws .. | .stb .. | .sth .. | .stw .. | .std .. | .registerWrite ..
  | .aliasWrite .. | .holdingReadHigh .. | .holdingWriteLow .. | .holdingWriteCommit .. | .take .. | .indDataWrite ..
  | .indWriteDone .. | .indDataRead .. | .sbReadAtPointer .. | .sbWriteAtPointer .. | .sbProcessCallRead ..
  | .sbWriteAtOffset .. | .post .. | .ack .. | .mailboxCfgWrite .. | .dbInSet .. | .dbInClr .. | .dbOutSet ..
  | .dbOutClr .. | .traverse .. | .go .. | .protectWrite .. | .unretire .. | .retireBank .. | .fwSwap ..
  | .domainPowerDown .. | .domainPowerUp .. | .standbyPowerOn .. | .railOutOfRange .. | .resetN .. | .resetCore ..
  | .sheetWrite .. | .sheetInd .. | .sheetImage .. | .hostFirmwareDoorbell .. | .modeGo .. => true
  | _ => false

/-- A command that acts on a path's own registers, the PCIe link, a mailbox or the outbound doorbells; a fault of the
steward's core among them, whose holdings go with it (R326). -/
def touchesHostSide : Instr → Bool
  | .mbpost .. | .mbtake .. | .dbell .. | .bar2Read .. | .badTlp .. | .functionLevelReset .. | .perstN ..
  | .sbSetPointer .. | .sbStatus .. | .badCmd .. | .pcieLinkDown .. | .pcieLinkUp .. | .datumTick ..
  | .faultReport .. | .domainRelease .. => true
  | _ => false

/-- A command that acts on survey channels, statistics units, PTP sessions or instances; the faults, the reload, the
supply monitor and SYNB's loss that hold a datum's or a group's pulses among them (R163, R380, R445). -/
def touchesMeasurement : Instr → Bool
  | .datumTick .. | .surveyEdge .. | .burstFifoDrain .. | .stampArrival .. | .freqGateClose .. | .sampleClose ..
  | .ppsEdge .. | .pulseTrail .. | .todMessage .. | .graticuleFire .. | .handoverEnd .. | .intervalOverflow ..
  | .periodOverflow .. | .uartRxByte .. | .statsSample .. | .statsWindowClose .. | .statsCommit .. | .syncRx ..
  | .followUpRx .. | .delayRespRx .. | .announceRx .. | .syncTx .. | .delayReqTx .. | .announceTx ..
  | .parentLost .. | .grantLapse .. | .streamWindowClose .. | .domainRelease .. | .delayReqRx .. | .phaseRx ..
  | .faultReport .. | .datumReload .. | .svSupplyMismatch .. | .synLock .. | .synLol .. | .synbPullInEnd ..
  | .synbRelock .. => true
  | _ => false

/-- A command that acts on the source of an output bank, an alignment line or the plan sheet; the benchmark's scan, which
rewrites the plan from its shadow (R386). -/
def touchesOutputs : Instr → Bool
  | .sampleClose .. | .alignUpdate .. | .bankSupplyMismatch .. | .planApply .. | .verificationDone ..
  | .programSwap .. | .swapTmoExpiry .. | .waitResume .. | .waitt .. | .waitk .. | .waite ..
  | .alignHandoverSwitch .. | .benchmarkScan .. => true
  | _ => false

/-- A command that acts on the module bus, its gazetteer, the start-up state, the archive or the steward's load. -/
def touchesService : Instr → Bool
  | .sampleClose .. | .ovenModelBlock .. | .verificationDone .. | .programSwap .. | .swapTmoExpiry ..
  | .waitResume .. | .waitt .. | .waitk .. | .waite .. | .traversePass .. | .travIntExpiry .. | .attach ..
  | .read .. | .write .. | .ovenRead .. | .mbStuck .. | .recoveryPulse .. | .mbIsolated .. | .lineRelease ..
  | .faultReport .. | .selfTestDone .. | .benchmarkScan .. | .stewardShed .. | .domainRelease .. | .resetRelease ..
  | .sheetEnd .. | .firmwareBoot .. | .hostFirmwareTimeout .. | .bootComplete .. | .archiveRefresh ..
  | .datumTick .. | .synLock .. | .sheetWait .. => true
  | _ => false

/-- A command that raises no notice, writes no record and reports nothing to the fault manager. -/
def isQuiet : Instr → Bool
  | .stepHoldRelease .. | .burstFifoDrain .. | .ovenWarmPin .. | .settleGateClose .. | .settleTimeout ..
  | .slewEnd .. | .qualifyingSecond .. | .holdoverSecond .. | .tempLostTimeout .. | .todMessage ..
  | .rotationStepStart .. | .reliefLostTimeout .. | .statsWindowClose .. | .outputStart .. | .contourStep ..
  | .alignUpdate .. | .trainRx .. | .phaseTx .. | .surveyReqRx .. | .surveyAckRx ..
  | .survIntTimer .. | .smbusTimeout .. | .travIntExpiry .. | .peerTargetFrame .. | .recoveryPulse ..
  | .lineRelease .. | .holdoverCheckpoint .. | .trstN .. | .sheetWait .. | .trainTx .. | .cdrLock ..
  | .fecAlignGained .. | .pcieLinkDown .. | .pcieLinkUp .. | .dieSensorReading .. => true
  | _ => false

end Sys2Proof.Machine
end

