-- ==== Sys2Proof/Certificates/Slice0/Obligations.lean ====
section
/-! DEFINITION. The statements for the provers: each names the rules of the specification it follows; every clause whose
command completes says what it does. A clause's premises are conditions on the state and the operands alone. -/

open Sys2Proof Sys2Proof.Machine

/-! ## Oven loss, the oven's pin and the settle detector -/

/-- OSC_LOST, OSC_BACK and the end of SYNB's pull-in (R12, R13, R70, R147, R216). The oven pin, its debounce, the
settle detector, the loss of the temperature reading, SETTLE writes (R70, R71, R132). The model's choices in its
clauses: log entries 3, 12 and 136. -/
def Obligations.OvenLossReturnAndWarm : Prop :=
  ((∀ s : State, Completes .oscLost s (fun t => t.oven.stbyRc = true
      ∧ (s.coreUp = true → t.oven.oscLost = true)
      ∧ (s.coreUp = true → s.oven.oscLost = false → t.oven.settled = false ∧ ∀ d : Fin 8, (t.datums[d]).traceable = false)))
    ∧ (∀ s : State, s.oven.stbyRc = true → Completes .oscBack s (fun t => t.oven.stbyRc = false
      ∧ (s.coreUp = true → t.oven.oscLost = false)))
    ∧ (∀ s : State, s.coreUp = true → s.oven.pullIn = true → (s.syns[(8 : Fin 9)]).phase = .holding →
      Completes (.synbPullInEnd true) s (fun t => t.oven.pullIn = false ∧ (t.syns[(8 : Fin 9)]).phase = .locked
        ∧ t.ticking = s.ticking)
      ∧ Completes (.synbPullInEnd false) s (fun t => t.oven.pullIn = false ∧ t.ticking = false)))
  ∧ ((∀ (s : State) (level : Bool), s.tickInv → exec (.ovenWarmPin level) s = .next (s.modOven (fun o =>
        { o with pin := level, pinAt := if level = o.pin then o.pinAt else if s.coreUp then some s.tick else none })))
    ∧ (∀ s : State, (s.pinSteady = true → Completes .ovenWarmDebounced s (fun t => t.oven.debounced = s.pinActive))
        ∧ (∀ k, s.tickInv → s.oven.pinAt = some k → s.passed k (10 * msTicks) = false →
          exec .ovenWarmDebounced s = .next s))
    ∧ (∀ (s : State) (w : Fin 96), s.coreUp = true → s.refUp = true → s.witness = some w → s.oven.settled = false →
        s.passed s.oven.gate.start (16 * secTicks) = true →
        (s.oven.spoiled = true ∨ (s.slots[w]).act = true ∨ (s.slots[w]).los = true →
          Completes (.settleGateClose w) s (fun t => t.oven.count = 0 ∧ t.oven.prev = none ∧ t.oven.settled = false
            ∧ t.oven.gate.start = s.oven.gate.start + BitVec.ofNat 64 (16 * secTicks)))
        ∧ (∀ (a b : Int × Int) (nom m : Nat) (v : Int), s.oven.spoiled = false → (s.slots[w]).act = false →
          (s.slots[w]).los = false → s.oven.gate.first = some (a.1, a.2, nom) → s.oven.gate.last = some (b.1, b.2, m) →
          v = freqOf (isPacket w) nom (s.srcDiv w) m a b →
          (s.oven.prev = none → Completes (.settleGateClose w) s (fun t => t.oven.prev = some v ∧ t.oven.count = s.oven.count
            ∧ t.oven.settled = false ∧ t.oven.gate.first = some (b.1, b.2, s.nomFreq w)))
          ∧ (∀ u, s.oven.prev = some u → Completes (.settleGateClose w) s (fun t =>
            let n := if (v - u).natAbs < (s.r .device 0 0x10).toNat * 2 ^ 32 then s.oven.count + 1 else 0
            t.oven.prev = some v ∧ t.oven.count = n
              ∧ (t.oven.settled = true ↔ Nat.max 1 (s.rf .device 0 0x0C 23 16) ≤ n)))))
    ∧ (∀ (s : State) (w : Fin 96), s.coreUp = true →
        s.witness ≠ some w ∨ s.oven.settled = true ∨ s.passed s.oven.gate.start (16 * secTicks) = false →
        exec (.settleGateClose w) s = .next s)
    ∧ (∀ s : State, s.coreUp = true → s.oven.debounced = true → s.oven.settled = false →
        s.passed s.oven.tmoFrom (s.rf .device 0 0x0C 15 0 * secTicks) = true →
        Completes .settleTimeout s (fun t => t.oven.settled = true))
    ∧ (∀ s : State, s.coreUp = true → s.ovenEntry.isSome = true → s.passed s.oven.tempAt (10 * secTicks) = true →
        exec .tempLostTimeout s = .next (s.modOven (fun o => { o with tempLost := true })))
    ∧ (∀ (s : State) (p : Path) (v : Word), s.keeps p .device 0 0x10 = true →
        exec (.settleWrite p true v) s = .next (s.wr .device 0 0x10 v))
    ∧ (∀ (s : State) (p : Path) (v : Word), s.keeps p .device 0 0x0C = true →
        Completes (.settleWrite p false v) s (fun t => t.r .device 0 0x0C = v)))

/-! ## The datum tick, crossings, steps -/

/-- The datum tick moves every tick index by one, and a clock by its increment, with what is due: a new increment,
STEPs by Δ, a running or ending slew, a write of BSLEW (R14, R35, R39, R127, R128). A time set at its apply tick (R145,
R146). Held steps are released after 1 ms, and a slew remainder of at most q ends in one step (R38, R128). The model's
choices in its clauses: log entries 3, 106 to 108 and 164. -/
def Obligations.DatumTickStepsAndSlews : Prop :=
  ((∀ s : State, s.coreUp = true → s.ticking = true → Completes .datumTick s (fun t =>
      t.tick = s.tick + 1 ∧ (∀ i : Fin 16, t.islandTick[i] = s.islandTick[i] + 1) ∧ t.coreUp = true ∧ t.ticking = true))
    ∧ (∀ (s : State) (d : Fin 8) (x : Datum) (n : Int) (inc : DWord) (q : Nat) (step : Int), s.coreUp = true →
        s.ticking = true → s.datUp (datIsl d) = true → s.datums[d] = x → x.setDue = none → n = x.incDue.getD x.clk.n →
        inc = (x.incDue.map incOf).getD x.clk.inc →
        q = (x.bslewDue.map slewAmount).getD x.q →
        step = (x.stepDue.map (fun p => p.2 * 2 ^ 24)).sum + x.slewStep →
        (q = 0 ∨ x.remDue.natAbs ≤ q → Completes .datumTick s (fun t =>
          (t.datums[d]).clk.now = Tm.ofInt56 (x.clk.now.toInt56 + step + x.remDue + inc.toNat) ∧ (t.datums[d]).rem = 0
          ∧ (t.datums[d]).clk.inc = inc ∧ (t.datums[d]).clk.n = n ∧ (t.datums[d]).incDue = none ∧ (t.datums[d]).stepDue = []
          ∧ (x.stepDue ≠ [] → (t.datums[d]).lastStep = some (s.tick + 1))))
        ∧ (∀ add : Int, q ≠ 0 → q < x.remDue.natAbs → add = (if x.remDue < 0 then -(q : Int) else q) → q ≤ inc.toNat →
          inc.toNat + q < 2 ^ 64 → Completes .datumTick s (fun t =>
            (t.datums[d]).clk.now = Tm.ofInt56 (x.clk.now.toInt56 + step + inc.toNat + add)
            ∧ (t.datums[d]).rem = x.remDue - add ∧ (t.datums[d]).clk.inc = inc ∧ (t.datums[d]).clk.n = n
            ∧ (t.datums[d]).slewDue = [] ∧ (t.datums[d]).stepDue = [])))
    ∧ (∀ (s : State) (d : Fin 8) (sd : SetDue) (c : Clock), s.coreUp = true → s.ticking = true → s.datUp (datIsl d) = true →
        (s.datums[d]).setDue = some sd → (∀ e : Fin 8, e ≠ d → (s.datums[e]).setDue = none) →
        c = (s.loops[sd.loop]).tally.advance (s.tick + 1) (s.loops[sd.loop]).incDue →
        Completes .datumTick s (fun t => (t.loops[sd.loop]).tally.now = Tm.ofInt56 (c.now.toInt56 + sd.dset)
          ∧ (t.datums[d]).clk.now = Tm.ofInt56 (c.now.toInt56 + sd.dset) ∧ (t.loops[sd.loop]).pbo = 0
          ∧ (t.datums[d]).rem = 0 ∧ (t.datums[d]).set = true ∧ (t.datums[d]).labelSrc = byte sd.src.val
          ∧ (t.datums[d]).setDue = none ∧ (t.datums[d]).lastStep = some (s.tick + 1)
          ∧ (s.fm.waiting = [] → (t.datums[d]).traceable = true))))
  ∧ ((∀ (s : State) (d : Fin 8), s.coreUp = true → s.ticking = true → s.spacingMet d = true →
        (s.datums[d]).heldSteps ≠ [] ∨ (s.datums[d]).heldSets ≠ [] →
        Completes (.stepHoldRelease d) s (fun t => (t.datums[d]).heldSteps = []
          ∧ (t.datums[d]).heldSets = (s.datums[d]).heldSets.tail ∧ (t.datums[d]).setDue = (s.datums[d]).heldSets.head?
          ∧ ((∀ p ∈ (s.datums[d]).heldSteps, s.deltaSteps d p.2 = true) →
              (t.datums[d]).stepDue = (s.datums[d]).heldSteps)))
    ∧ (∀ (s : State) (d : Fin 8), s.coreUp = true → s.spacingMet d = false → exec (.stepHoldRelease d) s = .next s)
    ∧ (∀ (s : State) (d : Fin 8), s.coreUp = true → (s.datums[d]).bslewDue = none → (s.datums[d]).remDue ≠ 0 →
        (s.datums[d]).remDue.natAbs ≤ (s.datums[d]).q →
        exec (.slewEnd d) s = .next (s.modDatum d (fun x =>
          { x with rem := 0, slewDue := [], slewStep := x.slewStep + x.remDue })))
    ∧ (∀ (s : State) (p : Path) (d : Fin 8) (v : Word), s.keeps p .datum d.val 0x08 = true →
        exec (.bslewWrite p d v) s = .next ((s.wr .datum d.val 0x08 v).modDatum d (fun x => { x with bslewDue := some v }))))

/-- Words and stamps arrive in order, and a word acts at its apply tick (R15, R16, R18, R20, R35, R86). A tick index that
differs is reported (R14, R376), and its report waits for the fault manager's turn (R377): that wait is the model's choice
(log entry 90). The model's other choices in its clauses: log entries 14 and 24. -/
def Obligations.CrossingsDeliver : Prop :=
  (∀ (s : State) (pre post : List XWord) (w : XWord), s.coreUp = true → s.xwords = pre ++ w :: post → w.arrived = false →
      (∀ x ∈ pre, ¬(x.src = w.src ∧ x.dst = w.dst ∧ x.arrived = false)) →
      Completes (.crossingWordArrival (.steer w.src w.dst)) s (fun t => t.xwords = pre ++ { w with arrived := true } :: post))
  ∧ (∀ (s : State) (g : Fin 12) (pre post : List (RawStamp × Bool)) (r : RawStamp), s.coreUp = true →
      (∀ x ∈ pre, x.2 = true) →
      ((s.groups[g]).xa = pre ++ (r, false) :: post → exec (.crossingWordArrival (.stamp g 0)) s
        = .next (s.modGroup g (fun q => { q with xa := pre ++ (r, true) :: post })))
      ∧ ((s.groups[g]).xb = pre ++ (r, false) :: post → exec (.crossingWordArrival (.stamp g 1)) s
        = .next (s.modGroup g (fun q => { q with xb := pre ++ (r, true) :: post }))))
  ∧ (∀ (s : State) (n : Fin 16) (d : Fin 8) (f : Int) (k : DWord), s.coreUp = true → s.ticking = true →
      s.xwords = [⟨n, .datum d, .inc f, k, true, false⟩] → k.toNat ≤ s.tick.toNat + 1 → (s.datums[d]).assigned = some n →
      (s.loops[n]).role ≠ .failed → (s.fm.blks[finMod 128 (0x11 + n.val % 2)]).st ≠ .testing →
      Completes (.applyTick (.datum d)) s (fun t => t.xwords = [] ∧ (t.datums[d]).incDue = some f))
  ∧ (∀ (s : State) (n : Fin 16) (f : Int) (k : DWord), s.coreUp = true → s.ticking = true →
      s.xwords = [⟨n, .tally n, .inc f, k, false, false⟩] → k.toNat ≤ s.tick.toNat + 1 →
      Completes (.applyTick (.tally n)) s (fun t => t.xwords = [] ∧ (t.loops[n]).incDue = some f))
  ∧ (∀ (s : State) (i : Fin 16), s.coreUp = true → s.islandTick[i] ≠ s.tick → s.fm.waiting.length ≤ 48 →
      (∀ b : Fin 128, b.val = tickBlock i.val → (s.fm.blks[b]).st ≠ .testing) →
      Completes .tickIndexCompare s (fun t => t.fm.waiting.any (fun e => decide (e.1.val = tickBlock i.val)) = true))
  ∧ (∀ s : State, s.coreUp = true → (∀ i : Fin 16, s.islandTick[i] = s.tick) → exec .tickIndexCompare s = .next s)

/-! ## Reference monitors and qualification -/

/-- Edges and events reach the slots (R56, R57, R59, R62, R65). The alarms of a slot (R59, R63, R64, R66, R68, R73).
The model's choices in its clauses: log entries 10, 11, 13, 118 and 119. -/
def Obligations.MonitorEventsAndAlarms : Prop :=
  ((∀ (s : State) (n : Fin 16) (fall : Bool) (d : BitVec 14), s.coreUp = true → s.ticking = true → s.refUp = true →
        s.rf .refin n.val 0 31 30 ≠ 3 → (s.slots[refinSrc n]).qstate ≠ .off → s.rb .refin n.val 0 29 = fall →
        (s.slots[refinSrc n]).preDiv ≠ 0 →
        exec (.refinEdge n fall d) s
          = .next (s.modSlot (refinSrc n) (fun y =>
            { y with losCause := false, lastTr := s.tick, preDiv := y.preDiv - 1 })))
    ∧ (∀ (s : State) (src : Fin 96) (d : BitVec 14), s.coreUp = true → s.ticking = true → s.refUp = true →
        (16 ≤ src.val ∧ src.val < 32) ∨ 88 ≤ src.val → (s.slots[src]).qstate ≠ .off → s.lossNow src = false →
        Completes (.monitorEvent src d) s (fun t => (t.slots[src]).last
          = some (ovenInstant (s.tick + 2) d
              - (if (s.slots[src]).dcPend then s.delayComp src else (s.slots[src]).dc) * (25 * 2 ^ 16))))
    ∧ (∀ (s : State) (src : Fin 96) (a b : Int × Int), s.coreUp = true → s.refUp = true → (s.slots[src]).gate = some a →
        (s.slots[src]).gateEnd = some b → Completes (.freqGateClose src) s (fun t => (t.slots[src]).freqVal
          = freqOf (isPacket src) (s.slots[src]).gateCfg.nom (s.srcDiv src) (2 ^ (s.slots[src]).gateCfg.len) a b
          ∧ (t.slots[src]).freqInvalid = false ∧ (t.slots[src]).gate = some b ∧ (t.slots[src]).gateEnd = none))
    ∧ (∀ (s : State) (src : Fin 96) (x : Int), s.coreUp = true → s.refUp = true → (s.slots[src]).phDone = some x →
        Completes (.phaseSample src) s (fun t => (t.slots[src]).phDone = none
          ∧ (t.slots[src]).phHist = (x :: (s.slots[src]).phHist).take 2))
    ∧ (∀ (s : State) (src : Fin 96), s.coreUp = true → s.refUp = true → (s.slots[src]).qstate ≠ .off → (s.slots[src]).dcPend = true →
        Completes (.delayCompApply src) s (fun t => (t.slots[src]).dc = s.delayComp src ∧ (t.slots[src]).dcPend = false
          ∧ (t.slots[src]).phHist = [] ∧ (t.slots[src]).gate = none)))
  ∧ ((∀ (s : State) (n : Fin 16), s.coreUp = true → s.refUp = true → s.rf .refin n.val 0 31 30 = 0 → (s.slots[refinSrc n]).qstate ≠ .off →
        s.passed (s.slots[refinSrc n]).lastTr 800 = true →
        Completes (.clockLosTimeout n) s (fun t => (t.slots[refinSrc n]).los = true ∧ (t.slots[refinSrc n]).losCause = true))
    ∧ (∀ (s : State) (src : Fin 96), s.coreUp = true → s.refUp = true → s.lossNow src = true → (s.slots[src]).qstate ≠ .off →
        (s.slots[src]).los = false → Completes (.sourceLosReport src) s (fun t =>
          (t.slots[src]).los = true ∧ (t.slots[src]).act = true ∧ (t.slots[src]).freq = true))
    ∧ (∀ (s : State) (src : Fin 96), s.coreUp = true → s.refUp = true → (s.slots[src]).qstate ≠ .off → s.missed src = true →
        Completes (.actMissTimeout src) s (fun t => (t.slots[src]).act = true))
    ∧ (∀ (s : State) (src : Fin 96) (k : DWord), s.coreUp = true → s.refUp = true → (s.slots[src]).phSetAt = some k → (s.slots[src]).phase = true →
        s.passed k ((s.slots[src]).phCfg.hold * msTicks) = true →
        Completes (.phaseHoldExpiry src) s (fun t => (t.slots[src]).phase = false)))

/-- Enabling, disabling, locking out, the restore time, the owner's verdict (R75 to R79). The model's choices in its
clauses: log entries 13, 120, 122 and 135. -/
def Obligations.Qualification : Prop :=
  (∀ (s : State) (p : Path) (src : Fin 96), s.keeps p .refin (src.val % 16) (slotOff src 0) = true → s.slotEn src = false →
      (s.slots[src]).qstate = .off →
      Completes (.slotEnable p src) s (fun t => (t.slots[src]).act = true ∧ (t.slots[src]).freq = true
        ∧ (t.slots[src]).phase = false ∧ t.slotEn src = true))
  ∧ (∀ (s : State) (p : Path) (src : Fin 96), s.keeps p .refin (src.val % 16) (slotOff src 0) = true → s.slotEn src = true →
      Completes (.slotDisable p src) s (fun t => (t.slots[src]).qstate = .off ∧ t.slotEn src = false))
  ∧ (∀ (s : State) (p : Path) (src : Fin 96), s.keeps p .refin (src.val % 16) (slotOff src 0) = true → s.slotEn src = true →
      Completes (.lockoutSet p src) s (fun t => (t.slots[src]).qstate = .lockout ∧ (t.slots[src]).cause = 7 ∨
        (s.slots[src]).qstate = .lockout ∧ (t.slots[src]).qstate = .lockout))
  ∧ (∀ (s : State) (p : Path) (src : Fin 96), s.keeps p .refin (src.val % 16) (slotOff src 0) = true → s.slotEn src = true →
      (s.slots[src]).qstate = .lockout →
      Completes (.lockoutClear p src) s (fun t => (t.slots[src]).qstate ≠ .lockout))
  ∧ (∀ (s : State) (p : Path) (src : Fin 96) (v : BitVec 4), s.keeps p .refin (src.val % 16) (slotOff src 0) = true →
      v.toNat < 8 → Completes (.qualOwnerWrite p src v) s (fun t => (t.slots[src]).vttlFrom = s.tick
        ∧ t.owner src = fin? 8 v.toNat))
  ∧ (∀ (s : State) (src : Fin 96) (k : DWord), s.coreUp = true → s.refUp = true → (s.slots[src]).qstate = .wait → s.hardAlarm src = none →
      s.grant src = true → (s.slots[src]).wtrAt = some k → s.passed k 0 = true →
      Completes (.wtrExpiry src) s (fun t => (t.slots[src]).qstate = .qualified ∧ (t.slots[src]).everQual = true))
  ∧ (∀ (s : State) (src : Fin 96) (e : Fin 8) (v : Word), s.reaches (.eng e) .refin (src.val % 16) (slotOff src 0x14) = true →
      s.owner src = some e → Completes (.verdictWrite (.eng e) src v) s (fun t =>
        (t.slots[src]).stale = false ∧ (t.slots[src]).vttlFrom = s.tick))
  ∧ (∀ (s : State) (p : Path) (src : Fin 96) (v : Word), s.reaches p .refin (src.val % 16) (slotOff src 0x14) = true →
      (∀ e, s.owner src = some e → p ≠ .eng e) →
      exec (.verdictWrite p src v) s = .next (s.count .fault 0 0x10 31 0))
  ∧ (∀ (s : State) (src : Fin 96), s.coreUp = true → s.refUp = true → (s.owner src).isSome = true → s.mn src 0x1C 15 0 ≠ 0 →
      (s.slots[src]).stale = false → s.passed (s.slots[src]).vttlFrom (s.mn src 0x1C 15 0 * msTicks) = true →
      Completes (.verdictStale src) s (fun t => (t.slots[src]).stale = true))

/-- Writes of REFIN CFG and DELAY_COMP, and a read that clears its own view (R56, R57, R62, R325). The model's
choice in its clauses: log entry 117. -/
def Obligations.ReferenceRegisters : Prop :=
  (∀ (s : State) (p : Path) (n : Fin 16) (v : Word), s.keeps p .refin n.val 0 = true → bitsOf v 31 30 ≠ 3 →
      tooFast (s.wide .mon n.val 0 2) (bitsOf v 15 0) = false →
      Completes (.refinCfgWrite p n v) s (fun t => t.r .refin n.val 0 = mix 0xF000FFFF 0 v
        ∧ (t.slots[refinSrc n]).preDiv = 0))
  ∧ (∀ (s : State) (p : Path) (n : Fin 16) (v : Word), s.keeps p .refin n.val 0 = true →
      tooFast (s.wide .mon n.val 0 2) (bitsOf v 15 0) = true →
      exec (.refinCfgWrite p n v) s = .next (s.count .refin n.val 4 15 0))
  ∧ (∀ (s : State) (p : Path) (src : Fin 96) (v : Word), s.keeps p .refin (src.val % 16) (slotOff src 0x10) = true →
      Completes (.delayCompWrite p src v) s (fun t => t.sl src 0x10 = v ∧ (t.slots[src]).dcPend = true))
  ∧ (∀ (s : State) (n : Fin 16), s.coreUp = true → s.hostUp = true → (s.path .f0).snapView = false → s.placeDown ⟨.loop, n.val, 8⟩ = false →
      Completes (.rcRead .f0 (BitVec.ofNat 32 (key .loop n.val 8))) s (fun t =>
        t.rcWord (key .loop n.val 8) 0 &&& 0xFFFF003F = 0
        ∧ (∀ v, v = 1 ∨ v = 2 ∨ v = 3 → t.rcWord (key .loop n.val 8) v = s.rcWord (key .loop n.val 8) v)))

/-! ## Loops -/

/-- A sample closes. In FREE_RUN f is 0; its words leave with apply tick = issue tick + 32 (R18, R103, R105). In every
state: the phase error and its flags (R92, R93), the runs of R106; from ACQUIRE and LOCKED the transitions on them (R105,
R106); the output stage, its PULL and SLOPE (R100, R101); the first sample of an acquisition with ACQ_PBO 0b01. The model's
choices in its clauses: log entries 17, 19 and 113. -/
def Obligations.SampleOfALoop : Prop :=
  (∀ (s : State) (n : Fin 16) (k : DWord), s.coreUp = true → (s.loops[n]).instTick = some k → s.loopEn n = true →
    s.passed k 256 = true → s.loopIsland n = true → (s.loops[n]).prog.due = false → (s.loops[n]).code = .freeRun →
    (s.loops[n]).role = .solo → (s.loops[n]).sw = none → (s.loops[n]).acqFirst = false →
    Completes (.sampleClose n) s (fun t => (t.loops[n]).f = 0 ∧ (t.loops[n]).instTick = none
      ∧ (t.loops[n]).par = t.loopPar n
      ∧ t.xwords = s.xwords
        ++ [⟨n, .tally n, .inc 0, s.tick + 32, false, (s.loops[n]).handNote⟩]
        ++ (match fin? 8 (s.rf .loop n.val 0 27 24) with
            | some d => [⟨n, .datum d, .inc 0, s.tick + 32, false, (s.loops[n]).takeD⟩]
            | none => [])
        ++ (match fin? 8 (s.rf .loop n.val 0 23 20) with
            | some y => [⟨n, .syn y, .nfb 0, s.tick + 32, false, (s.loops[n]).takeS⟩]
            | none => [])))
  ∧ (∀ (s : State) (n : Fin 16) (k : DWord) (l : Loop) (own : List LEv) (sum : Int) (q : Nat) (sat : Bool) (x : Int),
    s.coreUp = true → (s.loops[n]).instTick = some k → s.loopEn n = true → s.passed k 256 = true → s.loopIsland n = true →
    s.loops[n] = l → l.prog.due = false → l.role = .solo →
    own = l.evs.filter (fun e => e.upTo l.instHi && decide (l.instLo < e.r)) →
    (∀ y, l.sel = some y → errSum (s.nomFreq y) (s.srcDiv y) own = (sum, q, sat)) → (l.sel = none → (sum, q, sat) = (0, 0, false)) →
    (l.acqFirst = true → q ≠ 0 → Completes (.sampleClose n) s (fun t => (t.loops[n]).pbo = roundDiv sum q
      ∧ (t.loops[n]).x = 0 ∧ (t.loops[n]).acqFirst = false ∧ (t.loops[n]).flagsW.getLsbD 4 = true))
    ∧ (l.acqFirst = false → x = (if q = 0 then 0 else satS 64 (roundDiv sum q - l.pbo)) →
      ∀ sat' bad : Bool, sat' = (decide (q ≠ 0) && (sat || decide (x ≠ roundDiv sum q - l.pbo))) → bad = (l.clampPull || sat') →
      Completes (.sampleClose n) s (fun t => (t.loops[n]).x = x ∧ (t.loops[n]).pbo = l.pbo
        ∧ ((t.loops[n]).sel = l.sel → (t.loops[n]).code.follows = l.code.follows →
            (t.loops[n]).evs = l.evs.filter (fun e => !e.upTo l.instHi))
        ∧ (t.loops[n]).flagsW.toNat / 256 = l.code.num
        ∧ (∀ e ∈ [(0, decide (q = 0)), (1, sat'), (2, own.any (·.unw)), (3, own.any (·.hist)), (4, l.newSrc), (5, l.clampPull),
            (6, l.clampSlope), (7, l.hoValid)], (t.loops[n]).flagsW.getLsbD e.1 = e.2)
        ∧ ((t.loops[n]).code = l.code → l.heldFault = (t.loops[n]).heldFault →
            (t.loops[n]).lockRun = (if q = 0 then l.lockRun
              else if x.natAbs ≤ l.par.lockPh * 2 ^ 16 ∧ bad = false then l.lockRun + 1 else 0)
            ∧ (t.loops[n]).unlockRun = (if q = 0 then l.unlockRun
              else if Nat.max l.par.lockPh l.par.unlockPh * 2 ^ 16 < x.natAbs ∨ bad = true then l.unlockRun + 1 else 0))
        ∧ ((t.loops[n]).heldFault = false → l.heldFault = false → l.sw = none → l.sel.isSome = true →
          (l.code = .acquire → s.acqOver n = false →
            let run := if q = 0 then l.lockRun else if x.natAbs ≤ l.par.lockPh * 2 ^ 16 ∧ bad = false then l.lockRun + 1 else 0
            (t.loops[n]).code = if Nat.max 1 l.par.lockCnt ≤ run then .locked else .acquire)
          ∧ (l.code = .locked →
            let run := if q = 0 then l.unlockRun
              else if Nat.max l.par.lockPh l.par.unlockPh * 2 ^ 16 < x.natAbs ∨ bad = true then l.unlockRun + 1 else 0
            (t.loops[n]).code = (if Nat.max 1 l.par.unlockCnt ≤ run then .acquire else .locked)
            ∧ (Nat.max 1 l.par.unlockCnt ≤ run → (t.loops[n]).acqAt = s.tick
              ∧ ∀ v < 4, bitOf (t.rcWord (key .loop n.val 0x08) v) 0 = true)))
        ∧ ((t.loops[n]).heldFault = l.heldFault → (t.loops[n]).code.follows = l.code.follows → l.code ≠ .freeRun →
          ∃ f1 f2 : Int, (t.loops[n]).f = f2
            ∧ (∀ fp : Int, fp = (if l.code.holds then l.fho else (t.loops[n]).fp) →
              (∀ a : Int, l.par.slope ≠ 0 → (l.code = .locked ∧ l.hoValid = true ∧ a = l.est.fh)
                  ∨ (l.code.holds = true ∧ a = l.hoFh) ∨ (l.code = .acquire ∧ l.acqHold = true ∧ a = l.fa) →
                f1 = max (a - l.par.slope * 2 ^ 32) (min (a + l.par.slope * 2 ^ 32) fp))
              ∧ (l.par.slope = 0 ∨ (l.code = .locked ∧ l.hoValid = false) ∨ (l.code = .acquire ∧ l.acqHold = false) → f1 = fp)
              ∧ (t.loops[n]).clampSlope = decide (f1 ≠ fp))
            ∧ (∀ p : Int, p = (Nat.min l.par.pull 0x80000000 : Nat) →
              f2 = satS 64 (max (-p * 2 ^ 32) (min (p * 2 ^ 32) f1)))
            ∧ (t.loops[n]).clampPull = decide (f2 ≠ f1)
            ∧ t.wide .loop n.val 0x60 2 = (BitVec.ofInt 64 f2).toNat))))

/-- Writes of CFG.EN, of DSEL and SSEL, and the commands FREE and HO_CLEAR (R103, R105, R109, R121, R130). Writes of
SAMPLE, SELECT, CAND, CAND_BAR (R91, R95, R107, R112, R115); what EN 0, FREE and a write that removes its target do to a
transaction in progress (R121). The model's choices in its clauses: log entries 111 and 112. -/
def Obligations.LoopEnableFreeAndRegisters : Prop :=
  ((∀ (s : State) (p : Path) (n : Fin 16), s.keeps p .loop n.val 0 = true → s.loopEn n = false → s.rb .loop n.val 0 17 = false →
        Completes (.loopEnable p n) s (fun t => (t.loops[n]).instTick = none ∧ (t.loops[n]).closedEn = false ∧ t.loopEn n = true
          ∧ (t.loops[n]).enAfter = (s.loopEn (twinOf n) && (s.loops[twinOf n]).closedEn)))
    ∧ (∀ (s : State) (p : Path) (n : Fin 16), s.keeps p .loop n.val 0 = true → s.loopEn n = true → s.rb .loop n.val 0 17 = false →
        (s.loops[n]).role = .solo →
        Completes (.loopDisable p n) s (fun t => (t.loops[n]).sw = none ∧ (t.loops[n]).pbo = (s.loops[n]).pbo
          ∧ (t.loops[n]).code = .freeRun ∧ (t.loops[n]).sel = none ∧ (t.loops[n]).fp = 0
          ∧ (t.loops[n]).f = 0 ∧ t.wide .loop n.val 0x60 2 = 0 ∧ (t.loops[n]).est.cnt = 0 ∧ t.loopEn n = false))
    ∧ (∀ (s : State) (p : Path) (n : Fin 16) (d y : BitVec 4), s.keeps p .loop n.val 0 = true → s.rb .loop n.val 0 17 = false →
        (s.loops[n]).role = .solo →
        (∀ m : Fin 16, m ≠ n → (d.toNat < 8 → s.rf .loop m.val 0 27 24 ≠ d.toNat)
          ∧ (y.toNat < 8 → s.rf .loop m.val 0 23 20 ≠ y.toNat)) →
        Completes (.loopConsumerSelect p n d y) s (fun t => t.rf .loop n.val 0 27 24 = d.toNat ∧ t.rf .loop n.val 0 23 20 = y.toNat
          ∧ (s.rf .loop n.val 0 27 24 ≠ d.toNat → (t.loops[n]).takeD = decide (d.toNat < 8))
          ∧ (s.rf .loop n.val 0 23 20 ≠ y.toNat → (t.loops[n]).takeS = decide (y.toNat < 8))))
    ∧ (∀ (s : State) (p : Path) (n m : Fin 16) (d y : BitVec 4), s.keeps p .loop n.val 0 = true → s.rb .loop n.val 0 17 = false →
        m ≠ n →
        (d.toNat < 8 ∧ s.rf .loop n.val 0 27 24 ≠ d.toNat ∧ s.rf .loop m.val 0 27 24 = d.toNat
          ∨ y.toNat < 8 ∧ s.rf .loop n.val 0 23 20 ≠ y.toNat ∧ s.rf .loop m.val 0 23 20 = y.toNat) →
        exec (.loopConsumerSelect p n d y) s = .next (s.count .loop n.val 0x2C 15 0))
    ∧ (∀ (s : State) (p : Path) (n : Fin 16), s.keeps p .loop n.val 0x0C = true → (s.loops[n]).role = .solo →
        Completes (.free p n) s (fun t => (t.loops[n]).sw = none ∧ (t.loops[n]).pbo = (s.loops[n]).pbo ∧ (t.loops[n]).code = .freeRun ∧ (t.loops[n]).sel = none ∧ (t.loops[n]).fp = 0))
    ∧ (∀ (s : State) (p : Path) (n : Fin 16), s.keeps p .loop n.val 0x0C = true →
        exec (.hoClear p n) s = .next (s.modLoop n (fun l => { l with est := { l.est with cnt := 0 } }))))
  ∧ ((∀ (s : State) (p : Path) (n : Fin 16) (v : Word), s.keeps p .loop n.val 0x1C = true → (s.loops[n]).role = .solo →
        bitsOf v 19 0 ≠ 0 → bitsOf v 19 0 ≤ 1000000 → s.overBudget n (bitsOf v 19 0) = false →
        exec (.sampleRateWrite p n v) s = .next (s.wr .loop n.val 0x1C (mix 0x000FFFFF 0 v)))
    ∧ (∀ (s : State) (p : Path) (n : Fin 16) (v : Word), s.keeps p .loop n.val 0x1C = true →
        (bitsOf v 19 0 = 0 ∨ 1000000 < bitsOf v 19 0) →
        exec (.sampleRateWrite p n v) s = .next (s.count .loop n.val 0x2C 15 0))
    ∧ (∀ (s : State) (p : Path) (n : Fin 16) (v : Word), s.keeps p .loop n.val 0x10 = true →
        exec (.selectWrite p n v) s = .next (s.wr .loop n.val 0x10 v))
    ∧ (∀ (s : State) (p : Path) (n i : Fin 16) (v : Word), s.keeps p .loop n.val (0x90 + 4 * i.val) = true →
        bitsOf v 6 0 < 32 →
        ((s.loops[n]).role ≠ .standby → (s.loops[n]).sw = none → Completes (.candWrite p n i v) s (fun t =>
          t.r .loop n.val (0x90 + 4 * i.val) = mix 0xF07F 0 v
            ∧ ∀ m : Fin 16, (t.loops[m]).bars = if m = n ∨ s.govern m = n then 0 else (s.loops[m]).bars))
        ∧ ((s.loops[n]).role = .standby → Completes (.candWrite p n i v) s (fun t =>
          t.r .loop n.val (0x90 + 4 * i.val) = mix 0xF07F 0 v ∧ ∀ m : Fin 16, (t.loops[m]).bars = (s.loops[m]).bars)))
    ∧ (∀ (s : State) (p : Path) (n i : Fin 16) (v : Word) (w : Sw) (held : List (Fin 16 × Word)),
        s.keeps p .loop n.val (0x90 + 4 * i.val) = true → (s.loops[n]).sw = some w → (s.loops[n]).role = .solo → bitsOf v 6 0 < 32 →
        held = (s.loops[n]).candHeld ++ [(i, mix 0xF07F 0 v)] →
        ((s.listWith n held).any (fun x => decide (x = some w.tgt)) = true → Completes (.candWrite p n i v) s (fun t =>
          (t.loops[n]).sw = some w ∧ (t.loops[n]).candHeld = held
            ∧ t.r .loop n.val (0x90 + 4 * i.val) = s.r .loop n.val (0x90 + 4 * i.val)))
        ∧ ((s.listWith n held).any (fun x => decide (x = some w.tgt)) = false → Completes (.candWrite p n i v) s (fun t =>
          (t.loops[n]).sw = none ∧ (t.loops[n]).evalDue = some .abort ∧ (t.loops[n]).pbo = (s.loops[n]).pbo
            ∧ (t.loops[n]).candHeld = [] ∧ t.r .loop n.val (0x90 + 4 * i.val) = mix 0xF07F 0 v)))
    ∧ (∀ (s : State) (p : Path) (n : Fin 16) (v : Word), s.keeps p .loop n.val 0x28 = true →
        Completes (.candBarClear p n v) s (fun t => ∀ m : Fin 16, (t.loops[m]).bars
          = if m = n ∨ s.govern m = n then (s.loops[m]).bars &&& ~~~(s.entrySources n (v.setWidth 16)) else (s.loops[m]).bars)))

/-- Selection: the tick of the selector, evaluations and their decisions (R114 to R116, R120), hold-off (R119), the commit
of a transaction (R120, R124, R126) and its aborts (R121), the acquisition time-out (R105, R107). The model's choices in
its clauses: log entries 3, 23, 110, 112 and 138. -/
def Obligations.Selection : Prop :=
  (∀ (s : State) (n : Fin 16), s.coreUp = true → s.loopIsland n = true → s.ticking = true → s.tick.toNat % 781250 = 0 →
      (s.loops[n]).sw = none →
      Completes (.selectionTick n) s (fun t => (t.loops[n]).selWord = s.r .loop (s.govern n).val 0x10
        ∧ (t.loops[n]).evalDue = none))
  ∧ (∀ (s : State) (n : Fin 16) (x : Fin 96) (why : SelReason), s.coreUp = true → s.loopIsland n = true →
      (s.loops[n]).evalDue.isSome = true → s.loopEn n = true → (s.loops[n]).role = .solo → (s.loops[n]).heldFault = false → s.oven.oscLost = false →
      (s.loops[n]).sw = none → (s.loops[n]).holdoffAt = none → (s.loops[n]).code = .freeRun → s.choose n = some (x, why) →
      Completes (.selectorEvaluate n) s (fun t => (t.loops[n]).sel = some x ∧ (t.loops[n]).code = .acquire
        ∧ (t.loops[n]).acqAt = s.tick ∧ (t.loops[n]).newSrc = true))
  ∧ (∀ (s : State) (n : Fin 16) (p : Fin 96) (due : SelReason) (b pe : Nat × Fin 96 × Nat), s.coreUp = true → s.loopIsland n = true →
      (s.loops[n]).evalDue = some due → s.loopEn n = true → (s.loops[n]).role = .solo → (s.loops[n]).heldFault = false →
      s.oven.oscLost = false → (s.loops[n]).sw = none → (s.loops[n]).holdoffAt = none → (s.loops[n]).code.follows = true →
      (s.loops[n]).sel = some p → s.manual n = none → s.best n (s.eligible n) = some b →
      (s.best n ((s.eligible n).filter (fun e => decide (e.2.1 = p))) = none → Completes (.selectorEvaluate n) s (fun t =>
        (t.loops[n]).sw = some ⟨b.2.1, if due = .abort then .abort else .loss, (s.loops[n]).tally.now26, [], false⟩
          ∧ (t.loops[n]).sel = some p ∧ (t.loops[n]).pbo = (s.loops[n]).pbo ∧ (t.loops[n]).code = (s.loops[n]).code))
      ∧ (s.best n ((s.eligible n).filter (fun e => decide (e.2.1 = p))) = some pe → b.2.1 ≠ p →
        ((s.loops[n]).qlEn = true ∧ s.order b.2.1 < s.order p ∨ (s.loops[n]).revert = true ∧ s.rank n b < s.rank n pe →
          Completes (.selectorEvaluate n) s (fun t => ∃ w, (t.loops[n]).sw = some w ∧ w.tgt = b.2.1 ∧ w.win = [] ∧ w.full = false
            ∧ w.at_ = (s.loops[n]).tally.now26 ∧ (due = .abort → w.reason = .abort) ∧ (t.loops[n]).sel = some p
            ∧ (t.loops[n]).pbo = (s.loops[n]).pbo ∧ (t.loops[n]).code = (s.loops[n]).code))
        ∧ (¬((s.loops[n]).qlEn = true ∧ s.order b.2.1 < s.order p) → ¬((s.loops[n]).revert = true ∧ s.rank n b < s.rank n pe) →
          Completes (.selectorEvaluate n) s (fun t => (t.loops[n]).sw = none ∧ (t.loops[n]).sel = some p
            ∧ (t.loops[n]).evalDue = none ∧ (t.loops[n]).code = (s.loops[n]).code))))
  ∧ (∀ (s : State) (p : Path) (n : Fin 16) (x : Fin 96) (w : Sw), s.keeps p .refin (x.val % 16) (slotOff x 0) = true →
      s.slotEn x = true → (s.slots[x]).qstate = .qualified → (s.loops[n]).sw = some w → w.tgt = x → (s.loops[n]).sel ≠ some x →
      (s.loops[n]).role = .solo → Completes (.lockoutSet p x) s (fun t => (t.loops[n]).sw = none ∧ (t.loops[n]).pbo = (s.loops[n]).pbo
        ∧ (t.loops[n]).sel = (s.loops[n]).sel ∧ (t.loops[n]).evalDue = some .abort))
  ∧ (∀ (s : State) (n : Fin 16) (k : DWord), s.coreUp = true → s.loopIsland n = true → (s.loops[n]).holdoffAt = some k → (s.loops[n]).role ≠ .standby →
      s.passed k 0 = true → Completes (.holdoffExpiry n) s (fun t => (t.loops[n]).holdoffAt = none))
  ∧ (∀ (s : State) (n : Fin 16) (w : Sw), s.coreUp = true → s.loopIsland n = true → (s.loops[n]).sw = some w → w.full = true →
      (s.loops[n]).role = .solo → (s.loops[n]).swapDeferred = false →
      Completes (.switchCommit n) s (fun t => (t.loops[n]).sel = some w.tgt ∧ (t.loops[n]).sw = none
        ∧ (t.loops[n]).newSrc = true ∧ (t.loops[n]).evs = (s.loops[n]).shadow ∧ (t.loops[n]).candHeld = []
        ∧ (s.rb .loop (s.govern n).val 0x14 31 = false →
            (t.loops[n]).pbo = satS 64 (roundDiv (w.win.foldl (· + ·) 0) w.win.length))
        ∧ (s.rb .loop (s.govern n).val 0x14 31 = true → (t.loops[n]).pbo = (s.loops[n]).pbo)))
  ∧ (∀ (s : State) (n : Fin 16) (x : Fin 96), s.coreUp = true → s.loopIsland n = true → (s.loops[n]).code = .acquire → (s.loops[n]).par.acqTmo ≠ 0 →
      (s.loops[n]).role = .solo → (s.loops[n]).candHeld = [] → (s.loops[n]).sel = some x → (s.loops[n]).secReady = none →
      s.passed (s.loops[n]).acqAt ((s.loops[n]).par.acqTmo * secTicks) = true →
      Completes (.acqTimeout n) s (fun t => (t.loops[n]).sel = none ∧ (t.loops[n]).sw = none ∧ (t.loops[n]).pbo = (s.loops[n]).pbo ∧ (t.loops[n]).fp = (s.loops[n]).fp
        ∧ (t.loops[n]).code = (if (s.loops[n]).hoValid then .holdover else .freeRun)
        ∧ (t.loops[n]).bars.getLsbD x.val = true))

/-- Holdover: the estimator's second, τ, expiry, the oven model's block and its clearing (R129 to R133). Twins: a
pair forms with the loop enabled first as PRIMARY, dissolves, and swaps when READY (R134, R136, R137). The model's
choices in its clauses: log entries 20, 21, 101 and 111. -/
def Obligations.HoldoverAndTwins : Prop :=
  ((∀ (s : State) (n : Fin 16) (a : SecAcc), s.coreUp = true → s.loopIsland n = true → (s.loops[n]).secReady = some a →
        ((s.loops[n]).code.holds = true → exec (.qualifyingSecond n) s = .next s)
        ∧ ((s.loops[n]).code.holds = false → Completes (.qualifyingSecond n) s (fun t => (t.loops[n]).secReady = none
          ∧ (t.loops[n]).est.cnt = satAdd 32 (s.loops[n]).est.cnt 1
          ∧ ((s.loops[n]).est.cnt = 0 → (t.loops[n]).est.h = roundDiv a.sum a.n * 2 ^ 40)
          ∧ ((s.loops[n]).est.cnt ≠ 0 → (t.loops[n]).est.h
              = (s.loops[n]).est.h + roundDiv (roundDiv a.sum a.n * 2 ^ 40 - (s.loops[n]).est.h) (2 ^ (s.loops[n]).hoK))
          ∧ (t.loops[n]).est.fh = roundDiv (t.loops[n]).est.h (2 ^ 40))))
    ∧ (∀ (s : State) (n : Fin 16), s.coreUp = true → s.loopIsland n = true → (s.loops[n]).code.holds = true →
        (s.loops[n]).tally.now26 - (s.loops[n]).hoAt ≥ (((s.loops[n]).hoTau + 1) * secNs * 2 ^ 26 : Nat) →
        exec (.holdoverSecond n) s = .next (s.modLoop n (fun l =>
          { l with hoTau := l.hoTau + 1, fho := s.hoFreq n (l.hoTau + 1) })))
    ∧ (∀ (s : State) (n : Fin 16), s.coreUp = true → s.loopIsland n = true → (s.loops[n]).code = .holdover → (s.loops[n]).expired s.oven.modelA = true →
        Completes (.holdoverExpired n) s (fun t => (t.loops[n]).code = .extended
          ∧ ∀ d : Fin 8, (s.datums[d]).assigned = some n → (t.datums[d]).traceable = false))
    ∧ (∀ (s : State) (n : Fin 16) (a : SecAcc) (rest : List (Int × Int)), s.coreUp = true → s.loopIsland n = true →
        (s.loops[n]).secReady = some a → (s.loops[n]).code.holds = false → s.boot.sheet.modelLoop.toNat = n.val →
        s.oven.blockN = 1023 → s.oven.blockDone = rest → Completes (.qualifyingSecond n) s (fun t =>
          t.oven.blockN = 0 ∧ t.oven.blockF = 0 ∧ t.oven.blockT = 0 ∧ t.oven.blockDone = rest ++
            [(roundDiv (s.oven.blockF + roundDiv a.sum a.n) 1024, roundDiv (s.oven.blockT + s.oven.temp) 1024)]))
    ∧ (∀ (s : State) (b : Int × Int) (rest : List (Int × Int)), s.coreUp = true → s.oven.blockDone = b :: rest →
        (s.rf .archive 0 0 31 30 ≠ 3 → Completes .ovenModelBlock s (fun t => t.oven.blockDone = rest
          ∧ t.oven.newBlocks = s.oven.newBlocks + 1 ∧ t.oven.blocks = (b :: s.oven.blocks).take 256))
        ∧ (s.rf .archive 0 0 31 30 = 3 → Completes .ovenModelBlock s (fun t => t.oven.blockDone = rest
          ∧ t.oven.blocks = s.oven.blocks ∧ t.rf .archive 0 8 31 0 = satAdd 32 (s.rf .archive 0 8 31 0) 1)))
    ∧ (∀ (s : State) (p : Path), s.keeps p .device 0 8 = true →
        Completes (.modelClear p) s (fun t => t.oven.modelA = 0 ∧ t.oven.modelKt = 0 ∧ t.oven.modelValid = false)))
  ∧ ((∀ (s : State) (p : Path) (n : Fin 16), s.keeps p .loop n.val 0 = true → s.loopEn n = true → s.loopEn (twinOf n) = true →
        s.rb .loop n.val 0 17 = false → s.rb .loop (twinOf n).val 0 17 = true → (s.loops[n]).role = .solo →
        (s.loops[twinOf n]).role = .solo →
        let a : Fin 16 := if n.val % 2 = 0 then n else twinOf n
        let pr : Fin 16 := if (s.loops[a]).enAfter then twinOf a else a
        s.overBudget (twinOf pr) (s.rf .loop pr.val 0x1C 19 0) = false →
        Completes (.twinEnable p n) s (fun t => (t.loops[pr]).role = .primary ∧ (t.loops[twinOf pr]).role = .standby
          ∧ (t.loops[twinOf pr]).mirrorDue = true))
    ∧ (∀ (s : State) (p : Path) (n : Fin 16), s.keeps p .loop n.val 0 = true → s.rb .loop n.val 0 17 = true →
        (s.loops[n]).role ≠ .solo → Completes (.twinDisable p n) s (fun t =>
          (t.loops[n]).role = s.aloneRole n ∧ (t.loops[twinOf n]).role = s.aloneRole (twinOf n)))
    ∧ (∀ (s : State) (p : Path) (n : Fin 16), s.keeps p .loop n.val 0x18 = true → (s.loops[n]).role = .primary →
        (s.loops[n]).sw = none → s.twinReady n = true →
        Completes (.swap p n) s (fun t => (t.loops[n]).role = .standby ∧ (t.loops[twinOf n]).role = .primary
          ∧ (t.loops[n]).mirrorDue = true)))

/-! ## Datum clocks and time outputs -/

/-- Time labels and the time sets they issue (R144 to R146), UTC and LEAP, the latched reading of a clock (R149, R150, R156).
Pulses, ToD messages and graticule actions drive their balls (R151, R152, R177, R178, R180). The model's choices in its clauses:
log entries 27, 28, 36, 41, 43, 139 and 142 to 144. -/
def Obligations.TimeOfDayAndDrivenChannels : Prop :=
  ((∀ (s : State) (src : Fin 96) (b : Lbl) (q : List Lbl), s.coreUp = true →
        (s.slots[src]).labelQ = b :: q →
        (b.ready = true → Completes (.timeLabel src) s (fun t => (t.slots[src]).labelQ = q))
        ∧ (b.ready = false → Completes (.timeLabel src) s (fun t => (t.slots[src]).labelQ = b :: q ∧ t.loops = s.loops
            ∧ t.datums = s.datums)))
    ∧ (∀ (s : State) (src : Fin 96) (b : Lbl) (q : List Lbl) (n : Fin 16) (d : Fin 8) (r tr x : Int) (l : Loop)
        (p1 p2 : Int × Bool) (older : List (Int × Bool)) (bad : Bool), s.coreUp = true → (s.slots[src]).labelQ = b :: q →
        b.ready = true → s.labelStamps src n b = some (r, tr) → fin? 8 (s.rf .loop n.val 0 27 24) = some d → s.loops[n] = l →
        x = (if l.flagsW.getLsbD 0 = true ∨ l.flagsW.getLsbD 1 = true then 0 else l.x) →
        (s.slots[src]).labelHist[n] = p1 :: p2 :: older →
        bad = decide (secNs / 2 * 2 ^ 32 ≤ (b.l * 2 ^ 6 + x - tr * 2 ^ 6).natAbs) →
        Completes (.timeLabel src) s (fun t => (t.slots[src]).labelHist[n] = [(b.l - r, bad), p1, p2]
          ∧ (s.loopEn n = true ∧ (s.datums[d]).assigned = some n ∧ l.role ≠ .standby ∧ l.code.follows = true ∧ l.sel = some src
              ∧ l.sw = none ∧ (b.l - r - p1.1).natAbs < 1000 * 2 ^ 26 ∧ (b.l - r - p2.1).natAbs < 1000 * 2 ^ 26
              ∧ (p1.1 - p2.1).natAbs < 1000 * 2 ^ 26 ∧ ((s.datums[d]).set = false ∨ (bad = true ∧ p1.2 = true ∧ p2.2 = true)) →
            ⟨n, .datum d, .tset (b.l * 2 ^ 30 + x * 2 ^ 24 - r * 2 ^ 30) src, s.tick + 32, false, false⟩ ∈ t.xwords)
          ∧ (¬(s.loopEn n = true ∧ (s.datums[d]).assigned = some n ∧ l.role ≠ .standby ∧ l.code.follows = true ∧ l.sel = some src
              ∧ l.sw = none ∧ (b.l - r - p1.1).natAbs < 1000 * 2 ^ 26 ∧ (b.l - r - p2.1).natAbs < 1000 * 2 ^ 26
              ∧ (p1.1 - p2.1).natAbs < 1000 * 2 ^ 26 ∧ ((s.datums[d]).set = false ∨ (bad = true ∧ p1.2 = true ∧ p2.2 = true))) →
            ∀ w ∈ t.xwords, w.src = n → w ∈ s.xwords)))
    ∧ (∀ (s : State) (n : Fin 16) (d : Fin 8) (v : Int) (src : Fin 96) (k : DWord), s.coreUp = true → s.ticking = true →
        s.xwords = [⟨n, .datum d, .tset v src, k, true, false⟩] → k.toNat ≤ s.tick.toNat + 1 → (s.datums[d]).assigned = some n →
        (s.loops[n]).role ≠ .failed → (s.fm.blks[finMod 128 (0x11 + n.val % 2)]).st ≠ .testing →
        (s.actsNow d = true → Completes (.applyTick (.datum d)) s (fun t => (t.datums[d]).setDue = some ⟨n, v, src⟩))
        ∧ (s.actsNow d = false → Completes (.applyTick (.datum d)) s (fun t =>
          (t.datums[d]).heldSets = (s.datums[d]).heldSets ++ [⟨n, v, src⟩] ∧ (t.datums[d]).setDue = (s.datums[d]).setDue)))
    ∧ (∀ (s : State) (p : Path) (d : Fin 8) (v : Word), s.reaches p .datum d.val 0x10 = true →
        Completes (.utcWrite p d v) s (fun t => t.r .datum d.val 0x10 &&& 0xC000FFFF = v &&& 0xC000FFFF
          ∧ ∃ inserted, (t.datums[d]).leapAt = t.leapTime d inserted
            ∧ (inserted = true → s.leapCode d = 1 ∧ (s.datums[d]).leapAt = some (s.datums[d]).clk.now.sec.toNat)))
    ∧ (∀ (s : State) (d : Fin 8) (sec : Nat), s.coreUp = true → (s.datums[d]).leapAt = some sec →
        sec < (s.datums[d]).clk.now.sec.toNat →
        Completes (.leapSecond d) s (fun t => (t.datums[d]).leapAt = none ∧ t.leapCode d = 0
          ∧ t.rf .datum d.val 0x10 15 0
            = (BitVec.ofInt 16 (if s.leapCode d = 1 then s.taiUtc d + 1 else s.taiUtc d - 1)).toNat))
    ∧ (∀ (s : State) (p : Path) (d : Fin 8), s.carries p = true → s.placeDown ⟨.datum, d.val, 0x20⟩ = false →
        Completes (.nowLatchRead p d) s (fun t => let w := s.nowStamp d
          (t.path p).resp = .data (BitVec.ofNat 32 (w.sec.toNat / 2 ^ 32))
          ∧ mapGet (t.path p).readHold (key .datum d.val 0x24) = some (BitVec.ofNat 32 (w.sec.toNat % 2 ^ 32))
          ∧ mapGet (t.path p).readHold (key .datum d.val 0x28) = some w.ns)))
  ∧ ((∀ (s : State) (ch : Fin 192) (w : Word), s.coreUp = true → s.ticking = true → s.chanUp ch = true →
        s.cfgNow ch = some w → modeOf w = 5 → (∃ x, (s.chans[ch]).sLast = some x ∧ x < s.ppsSecond ch) →
        Completes (.ppsEdge ch) s (fun t => (t.chans[ch]).drv = invDrive w true ∧ (t.chans[ch]).sLast = some (s.ppsSecond ch)
          ∧ (t.chans[ch]).trails ≠ []))
    ∧ (∀ (s : State) (ch : Fin 192) (w : Word) (k : DWord) (f : Nat) (v : Bool) (rest : List (DWord × Nat × Bool)), s.coreUp = true →
        s.ticking = true → s.chanUp ch = true → s.cfgNow ch = some w → modeOf w = 5 ∨ modeOf w = 4 →
        (s.chans[ch]).trails = (k, f, v) :: rest → s.passed k 0 = true →
        Completes (.pulseTrail ch) s (fun t => (t.chans[ch]).drv = invDrive w v ∧ (t.chans[ch]).trails = rest))
    ∧ (∀ (s : State) (ch : Fin 192) (e : TodDue) (rest : List TodDue), s.coreUp = true → s.ticking = true →
        s.chanUp ch = true → modeOf (s.cfgAct ch) = 7 → (s.chans[ch]).hand = none → (s.chans[ch]).todDue = e :: rest →
        s.passed e.k 0 = true → s.chf ch 0x1C 26 25 = 0 → (s.chans[ch]).txCur = none → (s.chans[ch]).tx = [] →
        Completes (.todMessage ch) s (fun t => (t.chans[ch]).todDue = rest ∧ (t.chans[ch]).todSeq = (s.chans[ch]).todSeq + 1
          ∧ ∃ i : TodInfo, i.t = e.t ∧ i.seq = (s.chans[ch]).todSeq
            ∧ (t.chans[ch]).txCur = some (s.txFrame ch ((todBinary i).headD 0) e.k.toNat)
            ∧ (t.chans[ch]).tx = (todBinary i).tail))
    ∧ (∀ (s : State) (g : Fin 12) (j : Fin 4), s.coreUp = true → s.groupOn g = true →
        2 ≤ s.rf .survey g.val (schedOff j 4) 18 0 → s.rf .survey g.val (schedOff j 4) 18 0 ≤ 262144 →
        s.rf .survey g.val (schedOff j 8) 17 0 ≠ s.rf .survey g.val (schedOff j 0xC) 17 0 →
        Completes (.graticuleFetch g j) s (fun t => t.rf .survey g.val (schedOff j 0xC) 17 0
          = (s.rf .survey g.val (schedOff j 0xC) 17 0 + 1) % s.rf .survey g.val (schedOff j 4) 18 0))
    ∧ (∀ (s : State) (g : Fin 12) (j : Fin 4) (a : Act) (rest : List Act), s.coreUp = true → s.ticking = true →
        s.groupOn g = true → (s.groups[g]).acts[j] = a :: rest → (s.chans[chIx g a.ch]).hand = none →
        let w := s.cfgAct (chIx g a.ch)
        s.datUp (datIsl (cfgDatum w)) = true →
        stamp16 a.target * 2 ^ 40 < (s.datums[cfgDatum w]).clk.now.toInt56 + (s.datums[cfgDatum w]).clk.inc.toNat →
        Completes (.graticuleFire g j) s (fun t => (t.groups[g]).acts[j] = rest
          ∧ (modeOf w = 4 → bitsOf w 17 16 = j.val →
              (a.act = 0 → (t.chans[chIx g a.ch]).drv = invDrive w false)
              ∧ (a.act = 1 → (t.chans[chIx g a.ch]).drv = invDrive w true)
              ∧ (a.act = 3 → (t.chans[chIx g a.ch]).drv = invDrive w true ∧ (t.chans[chIx g a.ch]).trails ≠ [])
              ∧ (a.act = 5 → (t.chans[chIx g a.ch]).drv = .off)))))

/-! ## Survey channels -/

/-- A stamp's way: the edge, its FIFO, its crossing, its conversion and record (R42, R158, R170 to R172, R190). The
model's choices in its clauses: log entries 10 and 147. -/
def Obligations.StampPath : Prop :=
  (∀ (s : State) (ch : Fin 192) (fall : Bool) (code : BitVec 12) (w : Word), s.coreUp = true → s.ticking = true →
      s.groupOn (grpOf ch) = true → s.cfgNow ch = some w → modeOf w = 1 → selects w fall = true → s.coreless ch = false →
      let f := s.fraction ch (s.coreAt ch) code.toNat
      ((s.chans[ch]).dead (ovenInstant (s.tick + 2) f.1) = false → (s.chans[ch]).fifo.length < 32 →
        Completes (.surveyEdge ch fall code) s (fun t => (t.chans[ch]).level = !fall
          ∧ (t.chans[ch]).lastFire = some (ovenInstant (s.tick + 2) f.1)
          ∧ (t.chans[ch]).fifo = (s.chans[ch]).fifo ++ [⟨s.tick + 2, f.1, ch, s.coreAt ch, fall,
              s.calFlags (grpOf ch) (s.coreAt ch) f.2
                ||| flagByte false false false (s.chans[ch]).crowd (s.chans[ch]).gap false false false, w, .edge⟩]))
      ∧ ((s.chans[ch]).dead (ovenInstant (s.tick + 2) f.1) = true →
        Completes (.surveyEdge ch fall code) s (fun t => (t.chans[ch]).crowd = true
          ∧ (t.chans[ch]).fifo = (s.chans[ch]).fifo)))
  ∧ (∀ (s : State) (g : Fin 12) (r : RawStamp) (rest : List RawStamp), s.coreUp = true →
      (s.chans[chIx g (s.groups[g]).rr]).fifo = r :: rest →
      (r.islB = false → (s.groups[g]).xa.length < 64 → (∀ x ∈ (s.groups[g]).xb, x.1.ch ≠ r.ch) → Completes (.burstFifoDrain g) s (fun t =>
        (t.chans[chIx g (s.groups[g]).rr]).fifo = rest ∧ (t.groups[g]).xa = (s.groups[g]).xa ++ [(r, false)]
          ∧ (t.groups[g]).rr = (s.groups[g]).rr + 1))
      ∧ (r.islB = true → (s.groups[g]).xb.length < 64 → (∀ x ∈ (s.groups[g]).xa, x.1.ch ≠ r.ch) → Completes (.burstFifoDrain g) s (fun t =>
        (t.chans[chIx g (s.groups[g]).rr]).fifo = rest ∧ (t.groups[g]).xb = (s.groups[g]).xb ++ [(r, false)])))
  ∧ (∀ (s : State) (g : Fin 12) (r : RawStamp) (rest : List (RawStamp × Bool)), s.coreUp = true →
      (s.groups[g]).xa = (r, true) :: rest → r.k.toNat ≤ s.tick.toNat → s.islandRoom 0 = true → s.datUp 0 = true → r.kind = .edge →
      bitOf r.cfg 21 = true →
      Completes (.stampArrival g 0) s (fun t => let x := (s.datums[cfgDatum r.cfg]).clk.stamp26 r.k r.d
        (t.groups[g]).xa = rest
        ∧ t.book.q = s.book.q ++ [[stampRec 0x01 (cfgDatum r.cfg) (s.preOf (cfgDatum r.cfg) r.k) 0
            (r.flags ||| flagByte (!s.warm) x.2.1 x.2.2 false false false false false) (exportStamp x.1)
            [byte r.ch.val, byte (b2n r.fall * 128 + r.core.val)]]]))
  ∧ (∀ (s : State) (ch : Fin 192) (w : Word) (k : DWord) (d : BitVec 14), s.coreUp = true → s.cfgNow ch = some w →
      (modeOf w = 2 → (s.chans[ch]).ivStart = some (k, d) → s.passed k (2 ^ 40) = true →
        Completes (.intervalOverflow ch) s (fun t => (t.chans[ch]).ivStart = none))
      ∧ (modeOf w = 3 → (s.chans[ch]).perOpen = some (k, d) → s.passed k (2 ^ 40) = true →
        Completes (.periodOverflow ch) s (fun t => (t.chans[ch]).perOpen = none ∧ (t.chans[ch]).perN = 0)))

/-- The relief rotation (R160 to R163). Channel functions: mode writes and hand-over, UART bytes, GPIO (R167, R168,
R180 to R182). The model's choices in its clauses: log entries 29, 33, 37 to 40 and 141. -/
def Obligations.ReliefAndChannelFunctions : Prop :=
  ((∀ (s : State) (g : Fin 12), s.coreUp = true → s.ticking = true → s.groupOn g = true → (s.groups[g]).noRelief = false →
        (s.groups[g]).rot = .idle → (s.groups[g]).rotAt = none →
        exec (.rotationStepStart g) s = .next (s.modGroup g (fun q => { q with
          rot := .collecting, rotAt := some s.tick, invalids := 0
          rotParams := (s.r .survey g.val 4, s.r .survey g.val 8, s.r .survey g.val 0xC) })))
    ∧ (∀ (s : State) (g : Fin 12) (hist : List Nat), s.coreUp = true → s.groupOn g = true → (s.groups[g]).rot = .collecting →
        prefixSum (fun c => hist.getD c 0) 4096 = calHits (s.groups[g]).rotParams.1 →
        (tableValid (fun c => hist.getD c 0) (calHits (s.groups[g]).rotParams.1) = true →
          Completes (.calTableBuilt g hist) s (fun t => (t.groups[g]).rot = .overlap ∧ (t.groups[g]).newTab.1
            = (List.range 4096).map (tabEntry (fun c => hist.getD c 0) (calHits (s.groups[g]).rotParams.1))))
        ∧ (tableValid (fun c => hist.getD c 0) (calHits (s.groups[g]).rotParams.1) = false → (s.groups[g]).invalids < 2 →
          Completes (.calTableBuilt g hist) s (fun t => (t.groups[g]).rot = .collecting
            ∧ (t.groups[g]).invalids = (s.groups[g]).invalids + 1)))
    ∧ (∀ (s : State) (g : Fin 12) (dr dx : List (BitVec 12)) (tap : Bool), s.coreUp = true → s.groupOn g = true →
        (s.groups[g]).recover = none → (s.groups[g]).rot = .overlap →
        dr.length = Nat.max 1 (bitsOf (s.groups[g]).rotParams.2.1 31 16) → dx.length = dr.length →
        (tap = true → (s.groups[g]).ovlEdges < dr.length ∧ s.passed (s.groups[g]).ovlAt (s.groups[g]).ovlWin = true) →
        (tap = false → dr.length ≤ (s.groups[g]).ovlEdges) →
        let c := (s.groups[g]).oldest.1
        let r := (s.groups[g]).relief
        let x := (s.groups[g]).oldest.2
        let sum (f : BitVec 12 → Int) (l : List (BitVec 12)) : Int := l.foldl (fun a y => a + max 0x0C00 (min 0x3100 (f y))) 0
        let fresh (y : BitVec 12) : Int := ((s.groups[g]).newTab.1.getD
          (Nat.max (s.groups[g]).newTab.2.1 (Nat.min (s.groups[g]).newTab.2.2 y.toNat)) 0 : Nat) + s.skew g c r
        let m := roundDiv (sum fresh dr - sum (fun y => ((s.lookup g x y.toNat).1 : Int) + s.skew g c x) dx) dr.length
        m.natAbs ≤ bitsOf (s.groups[g]).rotParams.2.2 15 0 → (s.skew g c r - m).natAbs ≤ 0x0800 →
        Completes (.relief g dr dx tap) s (fun t => (t.groups[g]).relief = (s.groups[g]).oldest.2 ∧ (t.groups[g]).coreOf[c] = r
          ∧ ((t.groups[g]).cores[r]).age = s.tick ∧ (t.groups[g]).rot = .idle ∧ t.skew g c r = s.skew g c r - m))
    ∧ (∀ (s : State) (g : Fin 12), s.coreUp = true → (s.groups[g]).noRelief = true →
        s.passed (s.groups[g]).reliefLostAt (60 * secTicks) = true →
        exec (.reliefLostTimeout g) s = .next (s.modGroup g (fun q => { q with frozen := true }))))
  ∧ ((∀ (s : State) (p : Path) (ch : Fin 192) (v : Word), s.keeps p .survey (ch.val / 16) (chOff ch 0) = true →
        ((s.chans[ch]).hand = none → bitsOf (s.chCfg ch) 31 28 ≠ bitsOf v 31 28 →
          Completes (.channelModeWrite p ch v) s (fun t => (t.chans[ch]).hand = some ⟨s.tick + 1, s.cfgAct ch, [], []⟩
            ∧ t.chCfg ch = mix 0xF7FFF000 0 v))
        ∧ ((s.chans[ch]).hand = none → bitsOf (s.chCfg ch) 31 28 = bitsOf v 31 28 →
          Completes (.channelModeWrite p ch v) s (fun t => (t.chans[ch]).hand = none
            ∧ (t.chans[ch]).cfgWait = some (s.tick + 1, s.cfgAct ch) ∧ t.chCfg ch = mix 0xF7FFF000 0 v))
        ∧ (∀ h, (s.chans[ch]).hand = some h → Completes (.channelModeWrite p ch v) s (fun t =>
            (t.chans[ch]).hand = some { h with held := h.held ++ [mix 0xF7FFF000 0 v] } ∧ t.chCfg ch = s.chCfg ch)))
    ∧ (∀ (s : State) (ch : Fin 192) (h : Hand), s.coreUp = true → (s.chans[ch]).hand = some h → h.held = [] →
        s.passed h.h 8 = true → Completes (.handoverEnd ch) s (fun t => (t.chans[ch]).hand = none))
    ∧ (∀ (s : State) (ch : Fin 192) (code : BitVec 12) (w : Word), s.coreUp = true → s.ticking = true →
        s.groupOn (grpOf ch) = true → s.cfgNow ch = some w → modeOf w = 6 → s.rxBusy ch = false →
        Completes (.surveyEdge ch true code) s (fun t => (t.chans[ch]).rxCur.map (·.start) = some s.tick))
    ∧ (∀ (s : State) (ch : Fin 192) (b : Byte) (pb st1 st2 : Bool) (f : RxFrame) (w : Word), s.coreUp = true → s.ticking = true →
        s.groupOn (grpOf ch) = true → s.cfgNow ch = some w → modeOf w = 6 → (s.chans[ch]).rxCur = some f →
        s.passed f.start f.len = true → (s.chans[ch]).rx.length < 256 →
        Completes (.uartRxByte ch b pb st1 st2) s (fun t => (t.chans[ch]).rx = (s.chans[ch]).rx ++ [b] ∧ (t.chans[ch]).rxCur = none
          ∧ ((st1 = true ∧ (f.two = true → st2 = true)) ∧ parityBit f.parity b = none →
            ∀ v, t.rcWord (key .survey (ch.val / 16) (chOff ch 0x2C)) v = s.rcWord (key .survey (ch.val / 16) (chOff ch 0x2C)) v)))
    ∧ (∀ (s : State) (p : Path) (ch : Fin 192), s.carries p = true → s.placeDown ⟨.survey, ch.val / 16, chOff ch 0x24⟩ = false →
        Completes (.rxdataRead p ch) s (fun t => (t.chans[ch]).rx = (s.chans[ch]).rx.drop 1))
    ∧ (∀ (s : State) (p : Path) (ch : Fin 192) (v : Word), s.reaches p .survey (ch.val / 16) (chOff ch 0x28) = true →
        modeOf (s.chCfg ch) = 7 → (s.chans[ch]).hand = none → s.todActive ch = false →
        ((s.chans[ch]).txCur = none → (s.chans[ch]).tx = [] → Completes (.txdataWrite p ch v) s (fun t =>
          (t.chans[ch]).txCur = some (s.txFrame ch (v.setWidth 8) s.tick.toNat) ∧ (t.chans[ch]).tx = []))
        ∧ (∀ f, (s.chans[ch]).txCur = some f → (s.chans[ch]).tx.length < 256 →
          (s.txHeld ch = true ∧ (s.chans[ch]).txStalled = true)
            ∨ (s.txHeld ch = false ∧ (s.chans[ch]).txStalled = false ∧ s.tick.toNat < f.stop) →
          Completes (.txdataWrite p ch v) s (fun t =>
            (t.chans[ch]).txCur = some f ∧ (t.chans[ch]).tx = (s.chans[ch]).tx ++ [v.setWidth 8])))
    ∧ (∀ (s : State) (p : Path) (ch : Fin 192) (out : Bool), s.keeps p .survey (ch.val / 16) (chOff ch 0x1C) = true →
        modeOf (s.chCfg ch) = 9 → (s.chans[ch]).hand = none →
        Completes (.gpioOutWrite p ch out) s (fun t => bitOf (t.chw ch 0x1C) 27 = out
          ∧ (s.outHeld ch = false → (t.chans[ch]).drv = invDrive (s.chCfg ch) out)
          ∧ (s.outHeld ch = true → (t.chans[ch]).drv = (s.chans[ch]).drv))))

/-! ## Statistics, field book, notices -/

/-- A unit takes samples, closes its windows and commits their results (R49, R50, R183 to R187, R377, R378). The
model's choices in its clauses: log entries 44, 45 and 145. -/
def Obligations.Statistics : Prop :=
  (∀ (s : State) (u : Fin 32) (q : Smp) (rest : List Smp), s.coreUp = true → s.blkUp 0x51 = true → s.rb .stats u.val 0 31 = true →
      s.winMode u ≠ 0 ∨ (s.units[u]).acc.n + 1 < (if s.r .stats u.val 4 = 0 then 2 ^ 32 else (s.r .stats u.val 4).toNat) →
      (s.units[u]).inq = q :: rest → (s.units[u]).acc.n < 2 ^ 32 →
      Completes (.statsSample u) s (fun t => (t.units[u]).inq = rest ∧ (t.units[u]).acc.n = (s.units[u]).acc.n + 1
        ∧ (t.units[u]).acc.s1 = (s.units[u]).acc.s1 + satS 56 q.x
        ∧ (t.units[u]).acc.s2 = (s.units[u]).acc.s2 + (satS 56 q.x * satS 56 q.x).toNat
        ∧ (t.units[u]).stage = (s.units[u]).stage
        ∧ ((s.units[u]).acc.n + 1 = 2 ^ 32 → (t.units[u]).acc.full = true)))
  ∧ (∀ (s : State) (u : Fin 32) (q : Smp) (rest : List Smp), s.coreUp = true → s.blkUp 0x51 = true → s.rb .stats u.val 0 31 = true →
      (s.units[u]).inq = q :: rest →
      (s.winMode u = 0 → (s.units[u]).acc.n + 1 = (if s.r .stats u.val 4 = 0 then 2 ^ 32 else (s.r .stats u.val 4).toNat) →
        Completes (.statsSample u) s (fun t => (t.units[u]).inq = rest ∧ (t.units[u]).acc = Acc.reset
          ∧ ∃ a : Acc, (t.units[u]).stage = (s.units[u]).stage ++ [(a, s.tick, false, false)] ∧ a.n = (s.units[u]).acc.n + 1
            ∧ a.s1 = (s.units[u]).acc.s1 + satS 56 q.x ∧ a.full = (s.units[u]).acc.full))
      ∧ (2 ^ 32 ≤ (s.units[u]).acc.n → Completes (.statsSample u) s (fun t => (t.units[u]).inq = rest
          ∧ (t.units[u]).acc = { (s.units[u]).acc with full := true } ∧ (t.units[u]).stage = (s.units[u]).stage
          ∧ t.rf .stats u.val 0x1C 31 0 = satAdd 32 (s.rf .stats u.val 0x1C 31 0) 1)))
  ∧ (∀ (s : State) (p : Path) (u : Fin 32) (r : StatsReg) (v : Word), r ≠ .nomLo →
      s.reaches p .stats u.val (statsOff r) = true →
      Completes (.statsCfgWrite p u r v) s (fun t => (t.units[u]).acc = Acc.reset ∧ (t.units[u]).inq = []
        ∧ t.rf .stats u.val 0x18 15 0 = satAdd 16 (s.rf .stats u.val 0x18 15 0) 1))
  ∧ (∀ (s : State) (p : Path) (u : Fin 32) (v : Word), s.reaches p .stats u.val 0x14 = true →
      Completes (.statsCfgWrite p u .nomLo v) s (fun t => ((mapGet (t.path p).writeHold (key .stats u.val 0x14)).getD 0) = v
        ∧ t.units = s.units))
  ∧ (∀ (s : State) (p : Path) (u : Fin 32), s.reaches p .stats u.val 0x0C = true → s.rb .stats u.val 0 31 = true →
      exec (.close p u) s = .next (s.modUnit u (fun q =>
        { q with acc := Acc.reset, stage := q.stage ++ [(q.acc, s.tick, true, false)] })))
  ∧ (∀ (s : State) (u : Fin 32), s.coreUp = true → s.blkUp 0x51 = true → s.rb .stats u.val 0 31 = true → s.winMode u = 1 → s.tick ≠ 0 →
      s.tick.toNat % (Nat.max 1 (s.r .stats u.val 8).toNat * msTicks) = 0 → (s.units[u]).timeAt ≠ s.tick →
      exec (.statsWindowClose u) s = .next (s.modUnit u (fun q =>
        { q with acc := Acc.reset, stage := q.stage ++ [(q.acc, s.tick, false, false)], timeAt := s.tick })))
  ∧ (∀ (s : State) (u : Fin 32) (a : Acc) (k : DWord) (cmd defer : Bool) (rest : List (Acc × DWord × Bool × Bool)), s.coreUp = true → s.blkUp 0x51 = true →
      (s.units[u]).stage = (a, k, cmd, defer) :: rest →
      (s.snapBusy = true → exec (.statsCommit u) s = .next (s.modUnit u (fun q =>
        { q with stage := (a, k, cmd, true) :: rest })))
      ∧ (s.snapBusy = false → Completes (.statsCommit u) s (fun t => (t.units[u]).stage = rest ∧ (t.units[u]).res = a ∧ (t.units[u]).closeTick = k
        ∧ (t.units[u]).seq = (s.units[u]).seq + 1 ∧ (t.units[u]).rflags.getLsbD 5 = defer ∧ (t.units[u]).rflags.getLsbD 3 = a.full
        ∧ (a.n ≠ 0 → (t.units[u]).mean = satS 64 (roundDiv (a.s1 * 2 ^ 8) a.n)))))
  ∧ (∀ (s : State) (u : Fin 32), s.tickInv → s.blkUp 0x51 = false →
      exec (.statsSample u) s = .next s ∧ exec (.statsWindowClose u) s = .next s ∧ exec (.statsCommit u) s = .next s)

/-- Record groups enter the field book; its registers; the drain (R188, R194, R195, R197 to R199). The model's
choices in its clauses: log entries 47 to 49. -/
def Obligations.FieldBook : Prop :=
  (∀ (s : State) (g : List Rec) (rest : List (List Rec)), s.coreUp = true → s.book.q = g :: rest →
      s.datUp (finMod 2 ((g.headD 0).datum / 4)) = true →
      (s.rb .fieldbook 0 0 31 = true → s.book.lost = 0 → s.bookFits g.length = true →
        Completes .fieldBookWrite s (fun t => t.book.q = rest ∧ t.book.groups = s.book.groups ++ [g.length]
          ∧ t.bookWr = (s.bookWr + g.length) % s.bookSize ∧ t.bookRd = s.bookRd))
      ∧ (s.rb .fieldbook 0 0 31 = false →
        Completes .fieldBookWrite s (fun t => t.book.q = rest ∧ t.book.groups = s.book.groups
          ∧ t.book.lost = s.book.lost + g.length))
      ∧ (∀ (pre post : List Nat) (m k : Nat), s.rb .fieldbook 0 0 31 = true → s.rb .fieldbook 0 0 30 = false → s.book.lost = 0 →
        s.book.groups = pre ++ m :: post → k = pre.sum → s.bookSize ≤ s.bookFill - k + g.length →
        s.bookFill - k - m + g.length < s.bookSize → Completes .fieldBookWrite s (fun t =>
          t.book.q = rest ∧ t.book.groups = post ++ [g.length] ∧ t.bookRd = (s.bookRd + k + m) % s.bookSize
          ∧ t.bookWr = (s.bookWr + g.length) % s.bookSize
          ∧ t.rf .fieldbook 0 0x14 31 0 = satAdd 32 (s.rf .fieldbook 0 0x14 31 0) (k + m)
          ∧ t.r .fieldbook 0 0x18 = s.r .fieldbook 0 0x18 + 1))
      ∧ (s.rb .fieldbook 0 0 31 = true → s.rb .fieldbook 0 0 30 = true →
        (s.bookFits (g.length + if 0 < s.book.lost then 1 else 0) = false → Completes .fieldBookWrite s (fun t =>
          t.book.q = rest ∧ t.book.groups = s.book.groups ∧ t.bookWr = s.bookWr ∧ t.bookRd = s.bookRd
          ∧ t.book.lost = s.book.lost + g.length
          ∧ t.rf .fieldbook 0 0x1C 31 0 = satAdd 32 (s.rf .fieldbook 0 0x1C 31 0) g.length))
        ∧ (0 < s.book.lost → s.bookFits (g.length + 1) = true → Completes .fieldBookWrite s (fun t =>
          t.book.q = rest ∧ t.book.groups = s.book.groups ++ [1, g.length] ∧ t.book.lost = 0 ∧ t.bookRd = s.bookRd
          ∧ t.bookWr = (s.bookWr + 1 + g.length) % s.bookSize
          ∧ ((s.r .fieldbook 0 4).toNat % 8 = 0 → (s.r .fieldbook 0 4).toNat + 16 * s.bookSize ≤ noticeBase → s.bookWr < s.bookSize →
              s.mem.remap = Memory.reset.remap → t.mem.bytes ((s.r .fieldbook 0 4).toNat + 16 * s.bookWr) 16
                = beBytes 16 s.book.summary.toNat)))))
  ∧ (∀ b : Book, 0 < b.lost → b.lost < 2 ^ 32 → b.summary.toNat / 2 ^ 120 = 0x19 ∧ b.summary.toNat / 2 ^ 24 % 2 ^ 32 = b.lost
      ∧ b.summary.toNat / 2 ^ 56 % 2 ^ 48 = b.lostHdr.toNat / 2 ^ 56 % 2 ^ 48)
  ∧ (∀ (s : State) (p : Path) (v : Word), s.keeps p .fieldbook 0 4 = true → s.rb .fieldbook 0 0 31 = false →
      v.toNat % 65536 = 0 → s.bookSize % 4096 = 0 → 4096 ≤ s.bookSize → s.bookSize ≤ 5242880 →
      v.toNat + 16 * s.bookSize ≤ 80 * 2 ^ 20 →
      Completes (.fieldbookCfgWrite p false v) s (fun t => t.r .fieldbook 0 4 = v ∧ t.bookWr = 0 ∧ t.bookRd = 0
        ∧ t.book.groups = []))
  ∧ (∀ (s : State) (p : Path) (v : Word), s.keeps p .fieldbook 0 8 = true → s.rb .fieldbook 0 0 31 = true →
      exec (.fieldbookCfgWrite p true v) s = .next (s.count .fieldbook 0 0x20 15 0))
  ∧ (∀ (s : State) (p : Path) (v : Word), s.reaches p .fieldbook 0 0x10 = true → p = ownerPath (s.rf .fieldbook 0 0 29 28) →
      s.rb .fieldbook 0 0x80 31 = false → v.toNat < s.bookSize →
      (v.toNat + s.bookSize - s.bookRd) % s.bookSize ≤ s.bookFill →
      exec (.fieldbookRdWrite p v) s = .next ((s.wr .fieldbook 0 0x10 v).modBook (fun b =>
        { b with groups := dropRecords ((v.toNat + s.bookSize - s.bookRd) % s.bookSize) b.groups })))
  ∧ (∀ (s : State) (n : Nat), s.coreUp = true → s.drainPaused = false → s.book.drainErr = false → n ≠ 0 →
      s.book.groups ≠ [] →
      (∀ b, b = State.takeBatch n s s.bookRd s.book.groups s.hostRoom →
        b.groups ≠ 0 → Completes (.drainBatch n .ok) s (fun t =>
          t.r .fieldbook 0 0x9C = BitVec.ofNat 32 ((s.r .fieldbook 0 0x9C).toNat + b.out.length)))
      ∧ Completes (.drainBatch n .completionError) s (fun t => t.book.drainErr = true)
      ∧ Completes (.drainBatch n .unsupported) s (fun t => t.book.drainErr = true))
  ∧ (∀ s : State, s.coreUp = true → s.book.unsig ≠ 0 →
      s.rf .fieldbook 0 0x84 15 0 ≤ usOfTicks (s.tick.toNat - s.book.unsigAt.toNat) →
      Completes .drainModTimeout s (fun t => t.book.unsig = 0))
  ∧ (∀ (s : State) (p : Path) (v : Word), s.keeps p .fieldbook 0 0x80 = true →
      Completes (.drainEnWrite p v) s (fun t => t.r .fieldbook 0 0x80 &&& 0xDF1F0000 = v &&& 0xDF1F0000
        ∧ (bitOf v 31 = true → t.book.drainErr = false)))
  ∧ (∀ (s : State) (p : Path) (v : Word), s.reaches p .fieldbook 0 0xA0 = true →
      (p = fnPath s.drainFunc → exec (.hostRdWrite p v) s = .next (s.wr .fieldbook 0 0xA0 v))
      ∧ (p ≠ fnPath s.drainFunc → exec (.hostRdWrite p v) s = .next (s.count .fieldbook 0 0x24 15 0)))

/-- Notices enter the queue, wait at their source, are dropped, are consumed (R200, R202, R203). The model's choice
in its clauses: log entry 146. -/
def Obligations.NoticeQueue : Prop :=
  (∀ (s : State) (src : BitVec 16) (cls : BitVec 2) (code : Byte) (args : BitVec 64), s.coreUp = true →
      noticeOk src.toNat cls code = true → s.notices.srcs.find? (fun e => decide (e.id = src.toNat)) = none →
      (s.admits cls = true → Completes (.noticeOccurrence src cls code args) s (fun t =>
        t.rf .notice 0 4 10 0 = (s.rf .notice 0 4 10 0 + 1) % 2048 ∧ t.notices.seq = s.notices.seq + 1
          ∧ t.notices.srcs.any (fun e => decide (e.id = src.toNat)) = true))
      ∧ (s.admits cls = false → Completes (.noticeOccurrence src cls code args) s (fun t =>
        t.rf .notice 0 (0x14 + 4 * cls.toNat) 31 0 = satAdd 32 (s.rf .notice 0 (0x14 + 4 * cls.toNat) 31 0) 1
          ∧ t.rf .notice 0 4 10 0 = s.rf .notice 0 4 10 0)))
  ∧ (∀ (s : State) (src : BitVec 16) (cls : BitVec 2) (code : Byte) (args : BitVec 64) (e : NSrc), s.coreUp = true →
      noticeOk src.toNat cls code = true → s.notices.srcs = [e] → e.id = src.toNat →
      Completes (.noticeOccurrence src cls code args) s (fun t => ∃ x, t.notices.srcs = [x] ∧ x.id = e.id
        ∧ x.outPos = e.outPos ∧ x.pend = (if e.pend = 0 then 1 else satAdd 16 e.pend 1)
        ∧ (e.pend = 0 → x.code = code ∧ x.args = args &&& argMask src code) ∧ x.lastAt = s.tick))
  ∧ (∀ (s : State) (p : Path) (v : Word), s.reaches p .notice 0 8 = true →
      (p = ownerPath (s.rf .notice 0 0 31 30) → (v.toNat % 2048 + 2048 - s.rf .notice 0 8 10 0) % 2048 ≤ s.noteFill →
        Completes (.noticeRdWrite p v) s (fun t => t.rf .notice 0 8 10 0 = v.toNat % 2048))
      ∧ (p ≠ ownerPath (s.rf .notice 0 0 31 30) →
        exec (.noticeRdWrite p v) s = .next (s.count .notice 0 0x10 15 0)))

/-! ## Synthesizers, banks, lines -/

/-- Lock sequences: start, lock, grid, failure, retry, RELOCK (R204, R208, R210, R211 to R214, R217). The model's
choices in its clauses: log entries 53 and 148. -/
def Obligations.LockSequences : Prop :=
  (∀ (s : State) (y : Fin 9), s.coreUp = true → y.val < 8 → (s.syns[y]).phase ≠ .locking → (s.syns[y]).phase ≠ .short →
      (s.syns[y]).phase ≠ .holding → s.canLock y = true → s.synRetired y = false →
      Completes (.lockSequenceStart y) s (fun t => (t.syns[y]).phase = .locking ∧ (t.syns[y]).seqOn = true
        ∧ (t.syns[y]).onGrid = false ∧ (t.syns[y]).n0 = BitVec.ofNat 64 (s.lockPath y).2 ∧ (t.syns[y]).c = 0))
  ∧ (∀ (s : State) (y : Fin 9) (band : BitVec 6), s.coreUp = true → y.val < 8 → (s.syns[y]).phase = .locking →
      s.oven.oscLost = false →
      Completes (.synLock y band) s (fun t => (t.syns[y]).phase = .locked ∧ (t.syns[y]).band = band
        ∧ (t.syns[y]).n = (s.syns[y]).heldN.getD (s.syns[y]).n ∧ (t.syns[y]).heldN = none ∧ (t.syns[y]).failRow = 0))
  ∧ (∀ (s : State) (y : Fin 9), s.coreUp = true → (s.syns[y]).phase = .locked → (s.syns[y]).seqOn = true →
      Completes (.onGrid y) s (fun t => (t.syns[y]).onGrid = true ∧ (t.syns[y]).seqOn = false))
  ∧ (∀ (s : State) (y : Fin 9), s.coreUp = true → (s.syns[y]).phase = .locking →
      Completes (.lockSequenceFail y) s (fun t => (t.syns[y]).phase = .failed ∧ (t.syns[y]).lolAt = s.tick
        ∧ (t.syns[y]).failRow = (s.syns[y]).failRow + 1
        ∧ (t.syns[y]).searchFail = Nat.min 255 ((s.syns[y]).searchFail + 1)))
  ∧ (∀ (s : State) (y : Fin 9), s.coreUp = true → (s.syns[y]).phase = .failed → s.canLock y = true →
      s.synRetired y = false → (y.val = 8 ∨ s.passed (s.syns[y]).lolAt msTicks = true) →
      Completes (.lockRetry y) s (fun t => (t.syns[y]).phase = .locking ∧ (t.syns[y]).seqOn = true))
  ∧ (∀ (s : State) (p : Path) (y : Fin 9), s.keeps p .synth y.val 8 = true → y.val < 8 → s.insvc y = true →
      (s.syns[y]).phase ≠ .holding → s.synRetired y = false → s.oven.oscLost = false →
      Completes (.relock p y) s (fun t => (t.syns[y]).phase = .locking ∧ (t.syns[y]).seqOn = true))
  ∧ (∀ (s : State) (p : Path), s.keeps p .synth 8 8 = true → (s.syns[(8 : Fin 9)]).phase = .locked →
      Completes (.relock p 8) s (fun t => (t.syns[(8 : Fin 9)]).phase = .regain ∧ (t.syns[(8 : Fin 9)]).seqOn = true
        ∧ t.ticking = false ∧ t.tick = s.tick ∧ t.datums = s.datums))

/-- The first lock of SYNB starts the datum tick at 0; its loss stops it (R14, R140, R216, R380). The model's choice
in its clauses: log entry 53. -/
def Obligations.TickStartsAndStops : Prop :=
  (∀ (s : State) (band : BitVec 6), s.coreUp = true → (s.syns[(8 : Fin 9)]).phase = .locking → s.oven.oscLost = false →
      Completes (.synLock 8 band) s (fun t => t.tick = 0 ∧ t.ticking = true ∧ (∀ i : Fin 16, t.islandTick[i] = 0)
        ∧ (t.syns[(8 : Fin 9)]).phase = .locked ∧ (∀ d : Fin 8, (t.datums[d]).clk = Clock.reset)
        ∧ ∀ n : Fin 16, (t.loops[n]).tally = Clock.reset))
  ∧ (∀ s : State, s.coreUp = true → (s.syns[(8 : Fin 9)]).phase = .locked →
      Completes (.synLol 8) s (fun t => t.ticking = false ∧ t.tick = s.tick ∧ (t.syns[(8 : Fin 9)]).phase = .regain))
  ∧ (∀ (s : State) (m : Nat), s.coreUp = true → s.ticking = false → (s.syns[(8 : Fin 9)]).phase = .regain →
      Completes (.synbRelock m) s (fun t => t.ticking = true ∧ t.tick = s.tick + BitVec.ofNat 64 (625 * m)
        ∧ (∀ i : Fin 16, t.islandTick[i] = s.tick + BitVec.ofNat 64 (625 * m))
        ∧ (t.syns[(8 : Fin 9)]).phase = .locked
        ∧ ∀ d : Fin 8, (t.datums[d]).clk.now
            = Tm.ofInt56 ((s.datums[d]).clk.now.toInt56 + ((625 * m * (s.datums[d]).clk.inc.toNat : Nat) : Int))))

/-- Loss of lock and the way back; contour steps; outputs start (R212, R214, R216, R217, R219, R225). The model's
choices in its clauses: log entries 50, 51 and 53. -/
def Obligations.LossOfLockAndOutputs : Prop :=
  (∀ (s : State) (y : Fin 9), s.coreUp = true → y.val < 8 →
      ((s.syns[y]).phase = .locked → Completes (.synLol y) s (fun t =>
        (t.syns[y]).phase = .regain ∧ (t.syns[y]).lolAt = s.tick ∧ t.ticking = s.ticking))
      ∧ ((s.syns[y]).phase = .regain → s.passed (s.syns[y]).lolAt 15625 = true →
        Completes (.regainTimeout y) s (fun t => (t.syns[y]).phase = .short ∧ (t.syns[y]).onGrid = false))
      ∧ ((s.syns[y]).phase = .regain → Completes (.inBandRegain y) s (fun t =>
        (t.syns[y]).phase = .locked ∧ (t.syns[y]).onGrid = false)))
  ∧ (∀ (s : State) (y : Fin 9) (band : BitVec 6), s.coreUp = true → (s.syns[y]).phase = .short →
      (((s.syns[y]).band.toNat : Int) - band.toNat).natAbs ≤ 1 →
      Completes (.shortLockSequenceEnd y true band) s (fun t => (t.syns[y]).phase = .locked ∧ (t.syns[y]).onGrid = true
        ∧ (t.syns[y]).band = band)
      ∧ (s.synRetired y = false → s.oven.oscLost = false → Completes (.shortLockSequenceEnd y false band) s (fun t =>
        (t.syns[y]).phase = .locking ∧ (t.syns[y]).failRow = (s.syns[y]).failRow + 1)))
  ∧ (∀ (s : State) (o : Fin 48) (y : Fin 8) (f g : Nat) (base : Int), s.coreUp = true → s.outs[o] = .waiting →
      s.bankSrc[bankOf o] = some y → s.outFreq (synIx y) (s.outDiv (bankOf o).val (o.val % 4)) = (f, g) → f ≠ 0 → g ≠ 0 →
      base = s.gridBase y (bankOf o).val (o.val % 4) f g →
      let runs (e : Option (Int × Int × Nat × Nat)) : State := { s with outs := s.outs.set o .running }.emit (.output o e)
      ((s.syns[synIx y]).onGrid = false → exec (.outputStart o) s = .next (runs none))
      ∧ (∀ m : Int, (s.syns[synIx y]).onGrid = true →
          (m - 1) * (secNs * 2 ^ 26 * g : Nat) ≤ (s.gridTime y s.outFrom[o] - base) * f →
          (s.gridTime y s.outFrom[o] - base) * f < m * (secNs * 2 ^ 26 * g : Nat) →
          (m * (secNs * 2 ^ 26 * g : Nat) ≤ (s.gridTime y s.tick - base) * f →
            exec (.outputStart o) s = .next (runs (some (base, m, f, g))))
          ∧ ((s.gridTime y s.tick - base) * f < m * (secNs * 2 ^ 26 * g : Nat) → exec (.outputStart o) s = .next s)))
  ∧ (∀ (s : State) (y : Fin 9) (slope : Int) (len : Nat), s.coreUp = true → s.ticking = true → y.val < 8 →
      s.tick.toNat % 256 = 0 → (s.syns[y]).cAt ≠ s.tick → (s.syns[y]).phase = .locked → (s.syns[y]).seqOn = false →
      (s.syns[y]).contour = true → (s.syns[y]).prof[(s.syns[y]).cseg]? = some (slope, len) →
      (s.syns[y]).cstep + 1 < len →
      Completes (.contourStep y) s (fun t => (t.syns[y]).c = (s.syns[y]).c + slope * 2 ^ 32
        ∧ (t.syns[y]).cstep = (s.syns[y]).cstep + 1 ∧ (t.syns[y]).cseg = (s.syns[y]).cseg
        ∧ (t.syns[y]).nfb = nfbOf (s.syns[y]).n0 (s.syns[y]).n ((s.syns[y]).c + slope * 2 ^ 32)))

/-- Output banks, alignment lines, plan sheets (R205, R224, R225, R227 to R229). The model's choices in its clauses:
log entries 53, 54 and 67. -/
def Obligations.BanksAndPlans : Prop :=
  (∀ (s : State) (p : Path) (b : Fin 12) (v : Word), s.keeps p .outbank b.val 0 = true →
      Completes (.outbankCtrlWrite p b v) s (fun t => t.r .outbank b.val 0 &&& 0xF0F80000 = v &&& 0xF0F80000
        ∧ ∀ o : Fin 48, bankOf o = b → bitOf v (28 + o.val % 4) = false → t.outs[o] = .off))
  ∧ (∀ (s : State) (b : Fin 12) (mv : Nat), s.coreUp = true →
      (s.bankDeparts b mv = true → s.bankHeld[b] = false → Completes (.bankSupplyMismatch ⟨b, mv⟩) s (fun t =>
        t.bankHeld[b] = true ∧ ∀ o : Fin 48, bankOf o = b → t.outs[o] = .off))
      ∧ (s.bankDeparts b mv = false → s.bankHeld[b] = true →
        (∀ n : Fin 16, s.esmcOn n = true → (s.ports[n]).qlTx = BitVec.ofNat 4 (s.qlCode n).1
          ∧ (s.ports[n]).essmTx = byte (s.qlCode n).2) → Completes (.bankSupplyMismatch ⟨b, mv⟩) s (fun t =>
        t.bankHeld[b] = false ∧ t.regs = s.regs))
      ∧ (s.bankDeparts b mv = s.bankHeld[b] → exec (.bankSupplyMismatch ⟨b, mv⟩) s = .next s))
  ∧ (∀ (s : State) (a : Fin 4) (b : Fin 12) (y : Fin 8) (edges : List LineEdge), s.coreUp = true →
      s.lineBusy a = false → fin? 12 (s.alPlan a 31 28) = some b → s.alPlan a 27 26 = 1 → s.bankSrc[b] = some y →
      edges.length = 2 ^ s.alPlan a 19 16 → (s.outFreq (synIx y) (s.outDiv b.val (s.alPlan a 25 24))).1 ≠ 0 →
      (s.outFreq (synIx y) (s.outDiv b.val (s.alPlan a 25 24))).2 ≠ 0 →
      Completes (.alignUpdate a edges) s (fun t => (t.lines[a]).lastAt = s.tick
        ∧ ((s.lines[a]).d ≤ 81920 → (t.lines[a]).d ≤ 81920) ∧ t.syns = s.syns ∧ t.outs = s.outs))
  ∧ (∀ (s : State) (ws : List Word), s.coreUp = true → s.planDue = some ws →
      Completes .planApply s (fun t => t.planDue = none
        ∧ ∀ y : Fin 8, t.r .synth y.val 0x20 = planWord ws (35 * y.val) &&& 0xB0FFFFFF))
  ∧ (∀ (s : State) (b : Fin 12) (h : BankHand) (edges : List (LineEdge × LineEdge)), s.coreUp = true → s.bankHand[b] = some h →
      edges.length = 64 → (s.outFreq (synIx h.next) (s.outDiv b.val (s.alPlan h.line 25 24))).1 ≠ 0 →
      (s.outFreq (synIx h.next) (s.outDiv b.val (s.alPlan h.line 25 24))).2 ≠ 0 →
      Completes (.alignHandoverSwitch b edges) s (fun t => t.bankSrc[b] = some h.next ∧ t.bankHand[b] = none
        ∧ (t.lines[h.line]).lastAt = s.tick))

/-! ## Timing ports, PTP, ESMC -/

/-- Port configuration, the link, its CDR and FEC, discarded frames, the survey input map (R23, R59, R232, R233,
R237, R248, R435). -/
def Obligations.PortsAndLinks : Prop :=
  (∀ (s : State) (p : Path) (n : Fin 16) (v : Word), s.keeps p .port n.val 0 = true →
      Completes (.portCfgWrite p n v) s (fun t => t.r .port n.val 0 &&& 0xFFFF8000 = v &&& 0xFFFF8000
        ∧ (s.blkUp (0x40 + n.val) = true → s.boot.sheet.lanes = true →
            bitsOf (s.r .port n.val 0) 31 27 ≠ bitsOf v 31 27 →
            (t.ports[n]).link = false ∧ (t.ports[n]).cdr = false ∧ (t.ports[n]).fec = false)))
  ∧ (∀ (s : State) (n : Fin 16), s.coreUp = true → s.portRuns n = true → (s.ports[n]).link = false →
      (s.isReist n = true → (s.ports[n]).r.lstate ≠ .swap) →
      Completes (.linkUp n) s (fun t => (t.ports[n]).link = true ∧ (t.ports[n]).cdr = true
        ∧ (t.ports[n]).fec = s.rsFec n ∧ (s.isReist n = true → (t.ports[n]).r.lstate = .train)))
  ∧ (∀ (s : State) (n : Fin 16), s.coreUp = true → Completes (.linkDown n) s (fun t => (t.ports[n]).link = false))
  ∧ (∀ (s : State) (n : Fin 16), s.coreUp = true → (s.ports[n]).cdr = true →
      Completes (.cdrUnlock n) s (fun t => (t.ports[n]).cdr = false
        ∧ ((s.slots[portSrc n]).qstate ≠ .off → (t.slots[portSrc n]).los = true)))
  ∧ (∀ (s : State) (n : Fin 16), s.coreUp = true → s.portRuns n = true →
      exec (.cdrLock n) s = .next (s.modPort n (fun p => { p with cdr := true })))
  ∧ (∀ (s : State) (n : Fin 16), s.coreUp = true →
      Completes (.fecAlignLost n) s (fun t => (t.ports[n]).fec = false))
  ∧ (∀ (s : State) (n : Fin 16), s.coreUp = true → s.portRuns n = true → s.rsFec n = true →
      exec (.fecAlignGained n) s = .next (s.modPort n (fun p => { p with fec := true })))
  ∧ (∀ (s : State) (n : Fin 16) (hdr : Option (Byte × Byte)), s.coreUp = true → s.portRuns n = true → s.reistUp n = false →
      exec (.frameDiscard n hdr) s = .next (s.count .port n.val 0x10 31 0))
  ∧ (∀ (s : State) (n : Fin 16), s.coreUp = true → s.reistUp n = true →
      (∀ seq ack : Byte, (s.ports[n]).r.lstate = .up → (s.ports[n]).r.legSeq = none →
        Completes (.frameDiscard n (some (seq, ack))) s (fun t =>
          t.r .port n.val 0x10 = (s.count .port n.val 0x10 31 0).r .port n.val 0x10
          ∧ (t.ports[n]).r.rxSeq = seq ∧ (t.ports[n]).r.crcRun = 0
          ∧ (t.ports[n]).r.trainN = Nat.min 256 ((s.ports[n]).r.trainN + 1)))
      ∧ ((s.ports[n]).r.crcRun + 1 < 64 → exec (.frameDiscard n none) s
          = .next ((s.count .port n.val 0x10 31 0).modReist n (fun r => { r with crcRun := r.crcRun + 1, trainN := 0 }))))
  ∧ (∀ (s : State) (p : Path) (i : Fin 24) (v : Word), s.keeps p .pinmux 0 (4 * i.val) = true →
      (bitOf v 31 = false → Completes (.svinMapWrite p i v) s (fun t => t.r .pinmux 0 (4 * i.val) = v &&& 0x800000FF))
      ∧ (bitOf v 31 = true → bitsOf v 7 0 < 192 → (∀ j < 24, j ≠ i.val → (s.mapped j).map (·.val) ≠ some (bitsOf v 7 0)) →
          Completes (.svinMapWrite p i v) s (fun t => t.r .pinmux 0 (4 * i.val) = v &&& 0x800000FF))
      ∧ (bitOf v 31 = true → bitsOf v 7 0 < 192 → (∃ j < 24, j ≠ i.val ∧ (s.mapped j).map (·.val) = some (bitsOf v 7 0)) →
          exec (.svinMapWrite p i v) s = .next (s.count .pinmux 0 0x60 15 0)))

/-- PTP messages received (R44, R232, R234, R238, R240, R242 to R244, R365). PTP messages sent (R26, R27, R44, R234,
R238, R239, R244, R245, R247). The one-step relay's Sync (its own predicted time, its sub-nanosecond correction, r.rho) and
the carrier with which a message leaves are the model's choice (log entry 128), and so is a relay's delay of 0 before the
port has one (log entry 171). The model's other choices in its clauses: log entries 56 to 60, 126, 127, 129 and 149. -/
def Obligations.PtpMessages : Prop :=
  ((∀ (s : State) (n : Fin 16) (id : BitVec 9) (seq : BitVec 16) (ptp two : Bool) (t1 t2 t3 : Stamp) (rate : BitVec 32) (tl : PtpTail) (tb tx : Edge) (var tv : Nat) (cls : Byte) (bench : Option (BitVec 256 × Word)),
        s.coreUp = true → s.pteOn = true → s.ptpUp n = true → tl.auth = true →
        ∀ c ∈ [Instr.syncRx n id seq ⟨two, ptp⟩ t1 rate tl tb var, .followUpRx n id seq t1 rate tl,
            .delayReqRx n id seq tl tb var, .delayRespRx n id seq t1 tl, .pdelayReqRx n seq tl ⟨tb, var⟩ ⟨tx, tv⟩,
            .pdelayRespRx n seq t2 t3 tl tb var, .announceRx n id cls bench tl.others tl.auth],
          exec c s = .next (s.count .pte 0 8 31 0))
    ∧ (∀ (s : State) (n : Fin 16) (id : BitVec 9) (seq : BitVec 16) (ptp : Bool) (t1 : Stamp) (rate : BitVec 32) (tl : PtpTail) (tb : Edge) (var : Nat), s.coreUp = true → s.pteOn = true → s.ptpUp n = true → tl.auth = false →
        s.sessClean n id = true →
        let g := (s.sessOr n id).granted || s.boot.stewardUp
        Completes (.syncRx n id seq ⟨true, ptp⟩ t1 rate tl tb var) s (fun t => t.sessOr n id
          = { s.sessOr n id with granted := g, pendSync := some (seq, s.frameStamp n false tb var, tl.cf.toInt, ptp) }
          ∧ t.r .pte 0 4 = BitVec.ofNat 32 (satAdd 32 (s.r .pte 0 4).toNat tl.others))
        ∧ Completes (.syncRx n id seq ⟨false, ptp⟩ t1 rate tl tb var) s (fun t =>
          t.sessOr n id = { s.sessOr n id with granted := g, pendSync := none }
          ∧ (tl.cf.toInt ≠ 2 ^ 63 - 1 → ∀ i ∈ s.asInstances n, (t.insts[i]).relay = some
              ⟨n, s.frameStamp n false tb var, tl.cf.toInt, ptpTime t1,
               satS 32 (roundDiv ((2 ^ 41 + rate.toInt) * (2 ^ 48 + (s.ports[n]).nrr) - 2 ^ 89) (2 ^ 48))⟩)))
    ∧ (∀ (s : State) (n : Fin 16) (id : BitVec 9) (seq : BitVec 16) (t1 : Stamp) (rate : BitVec 32) (tl : PtpTail)
        (t2 cf1 : Int) (ptp : Bool) (q : BitVec 16), s.coreUp = true → s.pteOn = true → s.ptpUp n = true → tl.auth = false →
        s.sessClean n id = true → (s.sessOr n id).pendSync = some (q, t2, cf1, ptp) →
        (q = seq → Completes (.followUpRx n id seq t1 rate tl) s (fun t =>
          t.sessOr n id = { s.sessOr n id with pendSync := none }))
        ∧ (q ≠ seq → exec (.followUpRx n id seq t1 rate tl) s = .next (s.count .pte 0 4 31 0 tl.others)))
    ∧ (∀ (s : State) (n : Fin 16) (id : BitVec 9) (seq : BitVec 16) (tl : PtpTail) (tb : Edge) (var : Nat),
        s.coreUp = true → s.pteOn = true → s.ptpUp n = true → tl.auth = false → s.sessClean n id = true →
        let u := s.count .pte 0 4 31 0 tl.others
        let t4 := stampOf16 (u.frameStamp n false tb var)
        (∀ i, s.masterInst n = some i →
          ((s.sessOr n id).srvDelayResp = true → exec (.delayReqRx n id seq tl tb var) s
            = .next (u.sendPtp n (some i) (.delayResp seq (ptpTime t4) (tiLimit (tl.cf.toInt - ((t4.sub.toNat : Nat) : Int))))))
          ∧ ((s.sessOr n id).srvDelayResp = false → s.boot.stewardUp = false →
            exec (.delayReqRx n id seq tl tb var) s = .next u)
          ∧ ((s.sessOr n id).srvDelayResp = false → s.boot.stewardUp = true →
            Completes (.delayReqRx n id seq tl tb var) s (fun t => t.freeCtr = s.freeCtr + 1)))
        ∧ (s.masterInst n = none → s.boot.stewardUp = false → exec (.delayReqRx n id seq tl tb var) s = .next u))
    ∧ (∀ (s : State) (n : Fin 16) (id : BitVec 9) (seq : BitVec 16) (t4 : Stamp) (tl : PtpTail) (t3 : Int),
        s.coreUp = true → s.pteOn = true → s.ptpUp n = true → tl.auth = false → s.sessClean n id = true →
        (s.sessOr n id).pendReq = some (seq, t3) →
        Completes (.delayRespRx n id seq t4 tl) s (fun t => t.sessOr n id = { s.sessOr n id with pendReq := none }))
    ∧ (∀ (s : State) (n : Fin 16) (seq : BitVec 16) (tl : PtpTail) (tb tx : Edge) (var tv : Nat),
        s.coreUp = true → s.pteOn = true → s.ptpUp n = true → tl.auth = false →
        let u := s.count .pte 0 4 31 0 tl.others
        let t2 := stampOf16 (u.frameStamp n false tb var)
        let t3 := stampOf16 (u.frameStamp n true tx tv)
        exec (.pdelayReqRx n seq tl ⟨tb, var⟩ ⟨tx, tv⟩) s
          = .next ((u.sendPtp n (u.portInst n) (.pdelayResp seq (ptpTime t2)
              (tiLimit (tl.cf.toInt - ((t2.sub.toNat : Nat) : Int))))).sendPtp n (u.portInst n)
                (.pdelayRespFollowUp seq (ptpTime t3) ((t3.sub.toNat : Nat) : Int))))
    ∧ (∀ (s : State) (n : Fin 16) (seq : BitVec 16) (t2 t3 : Stamp) (tl : PtpTail) (tb : Edge) (var : Nat) (t1 : Int),
        s.coreUp = true → s.pteOn = true → s.ptpUp n = true → tl.auth = false → (s.ports[n]).pdT1 = some t1 →
        (s.ports[n]).pdSeq = seq → tl.cf.toInt ≠ 2 ^ 63 - 1 →
        Completes (.pdelayRespRx n seq t2 t3 tl tb var) s (fun t => (t.ports[n]).pdT1 = none
          ∧ (t.ports[n]).mld = some (roundDiv (s.frameStamp n false tb var - t1
              - (stamp16 (ptpTime t3) - stamp16 (ptpTime t2)) - tl.cf.toInt) 2)
          ∧ t.sessions = s.sessions ∧ t.streams = s.streams))
    ∧ (∀ (s : State) (n : Fin 16) (id : BitVec 9) (cls : Byte) (bench : Option (BitVec 256 × Word)) (tl : PtpTail),
        s.coreUp = true → s.pteOn = true → s.ptpUp n = true → tl.auth = false → s.sessClean n id = true →
        Completes (.announceRx n id cls bench tl.others tl.auth) s (fun t => (t.sessOr n id).cls = cls
          ∧ t.r .pte 0 4 = BitVec.ofNat 32 (satAdd 32 (s.r .pte 0 4).toNat tl.others)
          ∧ ((s.sessOr n id).active = true → (t.sessOr n id).active = true)
          ∧ ((s.sessOr n id).active = false → s.boot.stewardUp = false → (t.sessOr n id).active = false ∧ t.insts = s.insts)
          ∧ ((s.sessOr n id).active = false → s.boot.stewardUp = true → s.rivals n id = [] → (t.sessOr n id).active = true
            ∧ ∀ i : Fin 8, s.instHas i n = true → (t.insts[i]).states[n] = .slave))))
  ∧ ((∀ (s : State) (i : Fin 8) (n : Fin 16) (id : BitVec 9) (tb : Edge) (var : Nat), s.coreUp = true → s.pteOn = true →
        s.sessClean n id = true → s.instOn i n = true → s.inState i n .master = true → (s.sessOr n id).srvSync = true →
        s.profile i ≠ 2 →
        let own := stampOf16 (s.frameStamp n true tb var)
        let u := (s.setPtp i n .master).modInst i (fun q => { q with syncSeq := q.syncSeq + 1 })
        exec (.syncTx i n id true tb var) s
          = .next (u.sendPtp n (some i) (.sync (s.insts[i]).syncSeq true (ptpTime own) ((own.sub.toNat : Nat) : Int) 0))
        ∧ exec (.syncTx i n id false tb var) s = .next ((u.sendPtp n (some i) (.sync (s.insts[i]).syncSeq false stampZero 0 0)).sendPtp
            n (some i) (.followUp (s.insts[i]).syncSeq (ptpTime own) ((own.sub.toNat : Nat) : Int) 0)))
    ∧ (∀ (s : State) (i : Fin 8) (n : Fin 16) (id : BitVec 9) (one : Bool) (tb : Edge) (var : Nat) (r : Relay), s.coreUp = true →
        s.pteOn = true → s.sessClean n id = true → s.instOn i n = true → s.inState i n .master = true →
        (s.sessOr n id).srvSync = true → s.profile i = 2 → (s.insts[i]).relay = some r → r.port ≠ n →
        let own := stampOf16 (s.frameStamp n true tb var)
        let v := if s.boot.stewardUp then (s.setPtp i n .master).modPort n (fun p => { p with oneStepRx := one })
          else s.setPtp i n .master
        let u := v.modInst i (fun q => { q with syncSeq := q.syncSeq + 1 })
        (s.portDatum r.port ≠ s.portDatum n → exec (.syncTx i n id one tb var) s = .next (v.count .pte 0 0x0C 31 0))
        ∧ (s.portDatum r.port = s.portDatum n → exec (.syncTx i n id one tb var) s = .next (
            if one && (s.boot.stewardUp || (s.ports[n]).oneStepRx) then
              u.sendPtp n (some i) (.sync (s.insts[i]).syncSeq true (ptpTime own) ((own.sub.toNat : Nat) : Int) r.rho)
            else (u.sendPtp n (some i) (.sync (s.insts[i]).syncSeq false stampZero 0 0)).sendPtp n (some i)
              (.followUp (s.insts[i]).syncSeq r.origin
                (relayCf r (s.frameStamp n true tb var) ((s.ports[r.port]).mld.getD 0)) r.rho))))
    ∧ (∀ (s : State) (i : Fin 8) (n : Fin 16) (id : BitVec 9) (tb : Edge) (var : Nat), s.coreUp = true → s.pteOn = true →
        s.sessClean n id = true → s.instOn i n = true →
        (s.profile i ∈ [2, 3, 5] → exec (.delayReqTx i n id tb var) s
          = .next ((s.modPort n (fun p => { p with pdSeq := (s.ports[n]).pdSeq + 1, pdT1 := some (s.frameStamp n true tb var) })).sendPtp
              n (some i) (.pdelayReq ((s.ports[n]).pdSeq + 1))))
        ∧ (s.profile i ∉ [2, 3, 5] → s.inState i n .slave = true → Completes (.delayReqTx i n id tb var) s (fun t =>
            t.emitted = .ptp n (s.carrier (some i) false) (.delayReq (s.sessOr n id).reqSeq) :: s.emitted
            ∧ (t.insts[i]).states[n] = .slave
            ∧ t.sessOr n id = { s.sessOr n id with
                reqSeq := (s.sessOr n id).reqSeq + 1, pendReq := some ((s.sessOr n id).reqSeq, s.frameStamp n true tb var) })))
    ∧ (∀ (s : State) (i : Fin 8) (n : Fin 16) (id : BitVec 9), s.coreUp = true → s.pteOn = true → s.sessClean n id = true →
        s.instOn i n = true → s.inState i n .master = true → (s.sessOr n id).srvAnnounce = true →
        let d := finMod 8 (s.rf .pte 0 (0x200 + 0x20 * i.val) 27 25)
        Completes (.announceTx i n id) s (fun t => (t.insts[i]).annSeq = (s.insts[i]).annSeq + 1
          ∧ (t.insts[i]).syncSeq = (s.insts[i]).syncSeq ∧ (t.insts[i]).states[n] = .master
          ∧ ∃ cls tt ft data, t.emitted = .ptp n (s.carrier (some i) false) (.announce (s.insts[i]).annSeq cls tt ft data
              (if s.rb .pte 0 0 31 then some s.benchTlv else none)) :: s.emitted
            ∧ (s.boot.stewardUp = false → data = (s.insts[i]).data) ∧ (t.insts[i]).data = data
            ∧ ((s.datums[d]).assigned = none → cls = byte (s.rf .pte 0 (0x100 + 0x10 * i.val) 7 0) ∧ tt = false ∧ ft = false)
            ∧ (∀ m, (s.datums[d]).assigned = some m → (s.loops[m]).code = .holdover →
                cls = byte (s.rf .pte 0 (0x100 + 0x10 * i.val) 23 16) ∧ tt = (s.datums[d]).traceable ∧ ft = true))))

/-- Sessions end, windows close, ESMC, the transmit timestamp queue (R82, R237, R242, R243, R246, R263). The model's
choices in its clauses: log entries 3 and 55. -/
def Obligations.SessionsStreamsAndQueues : Prop :=
  (∀ (s : State) (i : Fin 32), s.coreUp = true → s.pteOn = true → (s.streams[i]).open_ = true →
      (s.streams[i]).winLen ≤ (s.streams[i]).cnt →
      Completes (.streamWindowClose i) s (fun t => (t.streams[i]).cnt = 0 ∧ (t.streams[i]).dfs = [] ∧ (t.streams[i]).drs = []
        ∧ (t.streams[i]).xs = [] ∧ (t.streams[i]).word = s.r .pte 0 (0x80 + 4 * i.val)
        ∧ ((s.binding i).1 = true → (s.ports[(s.binding i).2.1]).r.lstate = .up → (s.streams[i]).selMode ≠ 0 →
            (s.streams[i]).xs ≠ [] → (s.slots[streamSrc i]).qstate ≠ .off →
            (t.slots[streamSrc i]).inbox = (s.slots[streamSrc i]).inbox ++
              [⟨s.tick, 0, satS 64 (roundDiv (((s.streams[i]).xs.map (·.1)).foldl (· + ·) 0) (s.streams[i]).xs.length),
                flagByte (!s.warm) false false false false false false false, (s.streams[i]).label,
                (s.streams[i]).xs.any (·.2) || decide
                  (satS 64 (roundDiv (((s.streams[i]).xs.map (·.1)).foldl (· + ·) 0) (s.streams[i]).xs.length)
                    ≠ roundDiv (((s.streams[i]).xs.map (·.1)).foldl (· + ·) 0) (s.streams[i]).xs.length)⟩])
        ∧ ((s.r .pte 0 (0x80 + 4 * i.val)).getLsbD 31 = false → (t.streams[i]).open_ = false
          ∧ ((s.slots[streamSrc i]).qstate ≠ .off → (t.slots[streamSrc i]).los = true))))
  ∧ (∀ (s : State) (i : Fin 32) (lf lr : List Int) (k nf nr : Nat) (sf sr : Int), s.coreUp = true → s.pteOn = true →
      (s.streams[i]).open_ = true → (s.streams[i]).winLen ≤ (s.streams[i]).cnt → (s.binding i).1 = false →
      (s.streams[i]).selMode ≠ 0 → lf.Perm (s.streams[i]).dfs → lf.Pairwise (· ≤ ·) → lr.Perm (s.streams[i]).drs →
      lr.Pairwise (· ≤ ·) →
      k = (if (s.streams[i]).selMode = 2 then 2 ^ Nat.min (bitsOf (s.streams[i]).word 9 6) (Nat.min 16 (bitsOf (s.streams[i]).word 14 10))
        else 1) →
      sf = (lf.take k).sum → nf = (lf.take k).length → sr = (lr.take k).sum → nr = (lr.take k).length →
      (s.slots[streamSrc i]).qstate ≠ .off →
      (nf ≠ 0 → s.isP2p (s.binding i).2.1 = false → nr ≠ 0 → Completes (.streamWindowClose i) s (fun t =>
        (t.slots[streamSrc i]).inbox = (s.slots[streamSrc i]).inbox ++
          [⟨s.tick, 0, satS 64 (roundDiv ((sr * nf - sf * nr) * 2 ^ 15) (nf * nr)),
            flagByte (!s.warm) false false false false false false false, none,
            decide (satS 64 (roundDiv ((sr * nf - sf * nr) * 2 ^ 15) (nf * nr)) ≠ roundDiv ((sr * nf - sf * nr) * 2 ^ 15) (nf * nr))⟩]))
      ∧ (∀ m, nf ≠ 0 → s.isP2p (s.binding i).2.1 = true → (s.ports[(s.binding i).2.1]).mld = some m →
        Completes (.streamWindowClose i) s (fun t => (t.slots[streamSrc i]).inbox = (s.slots[streamSrc i]).inbox ++
          [⟨s.tick, 0, satS 64 (roundDiv ((m * nf - sf) * 2 ^ 16) nf), flagByte (!s.warm) false false false false false false false, none,
            decide (satS 64 (roundDiv ((m * nf - sf) * 2 ^ 16) nf) ≠ roundDiv ((m * nf - sf) * 2 ^ 16) nf)⟩]))
      ∧ (nf = 0 ∨ (s.isP2p (s.binding i).2.1 = false ∧ nr = 0)
          ∨ (s.isP2p (s.binding i).2.1 = true ∧ (s.ports[(s.binding i).2.1]).mld = none) →
        Completes (.streamWindowClose i) s (fun t => (t.slots[streamSrc i]).inbox = (s.slots[streamSrc i]).inbox))
      ∧ (∀ a b, lf.head? = some a → lr.head? = some b → (s.streams[i]).word = s.r .pte 0 (0x80 + 4 * i.val) →
        s.streamWanted i = true → Completes (.streamWindowClose i) s (fun t =>
        (t.streams[i]).lastD = some (a, b))))
  ∧ (∀ (s : State) (n : Fin 16) (id : BitVec 9) (seq : BitVec 16) (t1 : Stamp) (rate : BitVec 32) (tl : PtpTail) (t2 cf1 : Int)
      (ptp : Bool) (i : Fin 32), s.coreUp = true → s.pteOn = true → s.ptpUp n = true → tl.auth = false → s.sessClean n id = true →
      (s.sessOr n id).pendSync = some (seq, t2, cf1, ptp) → cf1 ≠ 2 ^ 63 - 1 → tl.cf.toInt ≠ 2 ^ 63 - 1 →
      (s.streams[i]).open_ = true → s.binding i = (false, n, id.toNat) → (s.streams[i]).cnt < (s.streams[i]).winLen →
      Completes (.followUpRx n id seq t1 rate tl) s (fun t => (t.streams[i]).cnt = (s.streams[i]).cnt + 1
        ∧ (t.streams[i]).dfs = (s.streams[i]).dfs ++ [t2 - stamp16 (ptpTime t1) - (cf1 + tl.cf.toInt)]
        ∧ (t.streams[i]).drs = (s.streams[i]).drs))
  ∧ (∀ (s : State) (n : Fin 16) (id : BitVec 9), s.coreUp = true → s.pteOn = true →
      ((s.sessOr n id).active = true → Completes (.parentLost n id) s (fun t =>
        t.sessOr n id = { s.sessOr n id with active := false, pendSync := none, pendReq := none }))
      ∧ ((s.sessOr n id).active = false → exec (.parentLost n id) s = .next s)
      ∧ (∀ k : Grant, (s.sessOr n id).serves k = true → Completes (.grantLapse n id (.master k)) s (fun t =>
          t.sessOr n id = (s.sessOr n id).setServes k false ∧ (t.sessOr n id).serves k = false))
      ∧ ((s.sessOr n id).granted = true → Completes (.grantLapse n id .slave) s (fun t =>
          t.sessOr n id = { s.sessOr n id with granted := false })))
  ∧ (∀ (s : State) (n : Fin 16) (ssm : BitVec 4) (essm : Option Essm) (info : Bool), s.coreUp = true → s.pteOn = true →
      s.esmcOn n = true → (s.ports[n]).link = true →
      Completes (.esmcPduRx n ssm essm info) s (fun t => (t.ports[n]).qlRx = ssm ∧ (t.ports[n]).qlFailed = false
        ∧ (info = true → (t.ports[n]).esmcValid = true ∧ (t.ports[n]).esmcAt = s.tick)
        ∧ (info = false → (t.ports[n]).esmcValid = (s.ports[n]).esmcValid ∧ (t.ports[n]).esmcAt = (s.ports[n]).esmcAt)))
  ∧ (∀ (s : State) (n : Fin 16), s.coreUp = true → s.pteOn = true → s.esmcOn n = true → (s.ports[n]).link = true →
      Completes (.esmcInfoTx n) s (fun t => t.emitted.head?
        = some (.port n (.esmc false (t.ports[n]).qlTx (t.essmTlv n (t.ports[n]).essmTx.toNat)))))
  ∧ (∀ (s : State) (n : Fin 16), s.coreUp = true → (s.ports[n]).qlFailed = false →
      s.passed (s.ports[n]).esmcAt (5 * secTicks) = true →
      Completes (.qlFailed n) s (fun t => (t.ports[n]).qlFailed = true ∧ (t.ports[n]).esmcValid = false))
  ∧ (∀ (s : State) (n : Fin 16) (id seq : BitVec 16) (mt : BitVec 4) (dom : Byte) (tb : Edge) (var : Nat),
      s.coreUp = true → s.pteOn = true → s.ptpUp n = true →
      ((s.ports[n]).txq.length < 16 → exec (.txqStamp n id seq mt dom tb var) s = .next (s.modPort n (fun p => { p with
        txq := p.txq ++ [⟨id, seq, mt, dom, p.txqLoss, !s.warm, stampOf16 (s.frameStamp n true tb var)⟩], txqLoss := false })))
      ∧ (16 ≤ (s.ports[n]).txq.length → Completes (.txqStamp n id seq mt dom tb var) s (fun t =>
        (t.ports[n]).txq = (s.ports[n]).txq ∧ (t.ports[n]).txqLoss = true
          ∧ t.rf .port n.val 0x1C 15 0 = satAdd 16 (s.rf .port n.val 0x1C 15 0) 1)))
  ∧ (∀ (s : State) (p : Path) (n : Fin 16) (v : Word), s.reaches p .port n.val 0x18 = true →
      (∀ e rest, (s.ports[n]).txq = e :: rest → p = ownerPath (s.rf .port n.val 0x14 1 0) → e.id = v.setWidth 16 →
        exec (.txqPop p n v) s = .next (s.modPort n (fun q => { q with txq := rest })))
      ∧ (∀ e rest, (s.ports[n]).txq = e :: rest → ¬(p = ownerPath (s.rf .port n.val 0x14 1 0) ∧ e.id = v.setWidth 16) →
        exec (.txqPop p n v) s = .next (s.count .port n.val 0x1C 31 16))
      ∧ ((s.ports[n]).txq = [] → exec (.txqPop p n v) s = .next (s.count .port n.val 0x1C 31 16)))

/-! ## The Reistica link -/

/-- Training, legends, phase frames (R250 to R256, R259 to R261). A phase frame received: the echo, the pair, the
delay, the sample of an unselective stream (R258, R260 to R263). The model's choices in its clauses: log entries 60
to 62. -/
def Obligations.ReisticaFramesAndPhaseExchange : Prop :=
  ((∀ (s : State) (n : Fin 16) (seq ack link : Byte) (dev : BitVec 64), s.coreUp = true → s.pteOn = true → s.reistUp n = true →
        Completes (.trainRx n seq ack dev link) s (fun t => (t.ports[n]).r.rxSeq = seq ∧ (t.ports[n]).r.crcRun = 0
          ∧ (t.ports[n]).r.linkSame = decide (link = s.linkByte n)
          ∧ (t.ports[n]).r.trainN = Nat.min 256 ((s.ports[n]).r.trainN + 1)
          ∧ ((s.ports[n]).r.lstate = .train → (s.ports[n]).r.partner = none →
              (link ≠ s.linkByte n → (t.ports[n]).r.lstate = .train)
              ∧ (link = s.linkByte n → 255 ≤ (s.ports[n]).r.trainN → (s.ports[n]).r.ackSeen = true →
                  (t.ports[n]).r.lstate = .legend))))
    ∧ (∀ (s : State) (n : Fin 16), s.coreUp = true → s.pteOn = true → s.reistUp n = true → (s.ports[n]).r.lstate = .train →
        exec (.trainTx n) s = .next ((s.emit (.port n (.reist (reistFrame 1 (s.ports[n]).r.seq (s.ports[n]).r.rxSeq
            (beBytes 8 Config.devId.toNat ++ [s.linkByte n]))))).modReist n (fun r =>
              { r with seq := r.seq + 1, txN := Nat.min 256 (r.txN + 1) })))
    ∧ (∀ (s : State) (n : Fin 16) (seq ack : Byte) (pl : List Byte), s.coreUp = true → s.pteOn = true → s.reistUp n = true →
        Completes (.legendRx n false seq ack pl) s (fun t => (t.ports[n]).r.part0 = some pl ∧ (t.ports[n]).r.rxSeq = seq)
        ∧ Completes (.legendRx n true seq ack pl) s (fun t => (t.ports[n]).r.part1 = some pl ∧ (t.ports[n]).r.rxSeq = seq
          ∧ ∀ a, (s.ports[n]).r.part0 = some a → legField a 15 2 = legField pl 36 2 → (s.ports[n]).r.lstate ≠ .train →
              (t.ports[n]).r.partner = some a ∧ (t.ports[n]).r.peerBench
                = (BitVec.ofNat 256 (legField pl 0 32), BitVec.ofNat 32 (legField pl 32 4))))
    ∧ (∀ (s : State) (n : Fin 16) (a b : List Byte), s.coreUp = true → s.pteOn = true → s.reistUp n = true →
        (s.ports[n]).r.lstate ∈ [.legend, .verify, .up] → s.legendParts n 0 = (a, b) →
        Completes (.legendTx n) s (fun t => (t.ports[n]).r.seq = (s.ports[n]).r.seq + 2 ∧ (t.ports[n]).r.legSent = a ++ b
          ∧ ((s.ports[n]).r.legSent = a ++ b → (t.ports[n]).r.lseq = (s.ports[n]).r.lseq)
          ∧ ((s.ports[n]).r.legSent ≠ a ++ b → (t.ports[n]).r.lseq = (s.ports[n]).r.lseq + 1)
          ∧ (t.ports[n]).r.lastOrder = BitVec.ofNat 4 (s.legendOrder n)
          ∧ ((s.ports[n]).r.lastOrder = BitVec.ofNat 4 (s.legendOrder n) → t.emitted
              = .port n (.reist (reistFrame 3 ((s.ports[n]).r.seq + 1) (s.ports[n]).r.rxSeq (s.legendParts n (t.ports[n]).r.lseq).2))
                :: .port n (.reist (reistFrame 2 (s.ports[n]).r.seq (s.ports[n]).r.rxSeq (s.legendParts n (t.ports[n]).r.lseq).1))
                :: s.emitted)))
    ∧ (∀ (s : State) (n : Fin 16) (tb : Edge) (var : Nat), s.coreUp = true → s.pteOn = true → s.sendsPhase n = true →
        (s.ports[n]).r.pxSent ≠ (s.ports[n]).r.pxInst →
        Completes (.phaseTx n tb var) s (fun t => (t.ports[n]).r.pxSeq = (s.ports[n]).r.pxSeq + 1
          ∧ (t.ports[n]).r.pxSent = (s.ports[n]).r.pxInst ∧ (t.ports[n]).r.pxInst = (s.ports[n]).r.pxInst
          ∧ (t.ports[n]).r.seq = (s.ports[n]).r.seq + 1
          ∧ (t.ports[n]).r.sent.head? = some ((s.ports[n]).r.pxSeq, s.frameStamp n true tb var + s.switchDelay n true)
          ∧ ∃ e fl, t.emitted = .port n (.reist (reistFrame 4 (s.ports[n]).r.seq (s.ports[n]).r.rxSeq
              (beBytes 2 (s.ports[n]).r.pxSeq.toNat
                ++ stampBytes (stampOf16 (s.frameStamp n true tb var + s.switchDelay n true)) ++ e ++ [fl]))) :: s.emitted)))
  ∧ ((∀ (s : State) (n : Fin 16) (seq ack : Byte) (f : PhaseFrame) (bounds : List Edge) (var : Nat), s.coreUp = true →
        s.pteOn = true → s.reistUp n = true → bounds.length = 64 →
        (∀ e ∈ (s.ports[n]).r.sent, e.1 ≠ f.echoSeq) →
        Completes (.phaseRx n seq ack f bounds var) s (fun t => (t.ports[n]).r.rxSeq = seq ∧ (t.ports[n]).r.ver = []
          ∧ (t.ports[n]).r.pairs = (s.ports[n]).r.pairs
          ∧ (t.ports[n]).r.echo = some (f.pxSeq, stampOf16 (s.phaseStamp n bounds var))))
    ∧ (∀ (s : State) (n : Fin 16) (seq ack : Byte) (f : PhaseFrame) (bounds : List Edge) (var : Nat) (t1 t4 rt x : Int),
        s.coreUp = true → s.pteOn = true → s.reistUp n = true → bounds.length = 64 → (s.ports[n]).r.sent = [(f.echoSeq, t1)] →
        f.echoValid = true → f.reversed = (s.ports[n]).r.reversed → (s.ports[n]).r.lstate = .up → (s.ports[n]).r.pairs = [] →
        t4 = s.phaseStamp n bounds var →
        rt = (t4 - t1) - (stamp16 f.t3 - stamp16 f.t2) →
        x = (stamp16 f.t3 - t4) * 2 ^ 16 + rt * 2 ^ 15 - s.asym n * 2 ^ 15 →
        Completes (.phaseRx n seq ack f bounds var) s (fun t => (t.ports[n]).r.pairs = [⟨stamp16 f.t3, t4⟩]
          ∧ (t.ports[n]).r.rho = 0 ∧ (t.ports[n]).r.rdelay = satS 64 (rt * 2 ^ 15)
          ∧ (t.ports[n]).r.echo = some (f.pxSeq, stampOf16 t4)
          ∧ ∀ i : Fin 32, (s.streams[i]).open_ = true → s.binding i = (true, n, 0) → (s.streams[i]).selMode = 0 →
              (s.slots[streamSrc i]).qstate ≠ .off → ∃ l, (t.slots[streamSrc i]).inbox = (s.slots[streamSrc i]).inbox
                ++ [⟨s.tick, 0, satS 64 x, flagByte (!s.warm) false false false false false false false, l,
                  decide (satS 64 x ≠ x)⟩])))

/-- The reversal survey: request, acknowledgement, refusal, phases, result, timers (R252, R265 to R267). The model's
choices in its clauses: log entries 3 and 63. -/
def Obligations.ReisticaSurvey : Prop :=
  (∀ (s : State) (n : Fin 16) (seq ack id log2 : Byte), s.coreUp = true → s.pteOn = true → s.reistUp n = true →
      (s.canSurvey n = false →
          exec (.surveyReqRx n ⟨seq, ack, id⟩ log2) s = .next ((s.rxHeader n seq ack).sendFrame n 5 [3#8, id, log2]))
      ∧ (s.canSurvey n = true → (s.ports[n]).r.reqOut = none →
          Completes (.surveyReqRx n ⟨seq, ack, id⟩ log2) s (fun t => (t.ports[n]).r.surveying = true ∧ (t.ports[n]).r.svId = id
            ∧ (t.ports[n]).r.svLog2 = Nat.min 15 log2.toNat ∧ (t.ports[n]).r.svPhase = 0 ∧ (t.ports[n]).r.svInst = 0
            ∧ t.emitted = .port n (.reist (reistFrame 5 (s.ports[n]).r.seq seq [2#8, id, log2])) :: s.emitted)))
  ∧ (∀ (s : State) (n : Fin 16) (seq ack id log2 : Byte), s.coreUp = true → s.pteOn = true → s.reistUp n = true →
      (s.ports[n]).r.reqOut = some id → (s.ports[n]).r.lstate = .up →
      exec (.surveyAckRx n ⟨seq, ack, id⟩ log2) s = .next ((s.rxHeader n seq ack).startSurvey n id log2.toNat))
  ∧ (∀ (s : State) (n : Fin 16) (seq ack id : Byte), s.coreUp = true → s.pteOn = true → s.reistUp n = true →
      (s.ports[n]).r.surveying = true ∨ (s.ports[n]).r.reqOut.isSome = true →
      Completes (.surveyAbortRx n ⟨seq, ack, id⟩) s (fun t => (t.ports[n]).r.surveying = false ∧ (t.ports[n]).r.reqOut = none
        ∧ (t.ports[n]).r.asymSurv = (s.ports[n]).r.asymSurv ∧ (t.ports[n]).r.asymSurvOk = (s.ports[n]).r.asymSurvOk
        ∧ ((s.ports[n]).r.surveying = true → (s.ports[n]).r.reversed = true → (s.ports[n]).r.lstate = .up →
            (t.ports[n]).r.lstate = .swap
            ∧ (t.ports[n]).r.swapAt = s.tick ∧ (t.ports[n]).r.cmdWait = true)))
  ∧ (∀ (s : State) (n : Fin 16), s.coreUp = true → s.pteOn = true → (s.ports[n]).r.surveying = true → (s.ports[n]).r.lstate = .up →
      2 ^ (s.ports[n]).r.svLog2 ≤ (s.ports[n]).r.svInst → (s.ports[n]).r.svPhase ≤ 3 →
      (2 ^ (s.ports[n]).r.svLog2 ≤ 2 * (s.ports[n]).r.svN[finMod 4 (s.ports[n]).r.svPhase] →
        Completes (.surveyPhaseEnd n) s (fun t => (t.ports[n]).r.svPhase = (s.ports[n]).r.svPhase + 1
          ∧ (t.ports[n]).r.svInst = 0 ∧ (t.ports[n]).r.surveying = true
          ∧ (t.ports[n]).r.lstate = (if (s.ports[n]).r.svPhase = 0 ∨ (s.ports[n]).r.svPhase = 2 then .swap else .up)))
      ∧ (2 * (s.ports[n]).r.svN[finMod 4 (s.ports[n]).r.svPhase] < 2 ^ (s.ports[n]).r.svLog2 →
        Completes (.surveyPhaseEnd n) s (fun t => (t.ports[n]).r.surveying = false ∧ (t.ports[n]).r.svPhase = 0)))
  ∧ (∀ (s : State) (n : Fin 16) (r : Reist), s.coreUp = true → s.pteOn = true → s.ports[n].r = r → r.surveying = true → r.svPhase = 4 →
      Completes (.surveyDone n) s (fun t => (t.ports[n]).r.surveying = false ∧ (t.ports[n]).r.asymSurvOk = true
        ∧ (t.ports[n]).r.streamsWait = false ∧ (t.ports[n]).r.survAt = s.tick
        ∧ (t.ports[n]).r.asymSurv = satS 32 (roundDiv
            ((r.svSum[0] * (r.svN[3] : Int) + r.svSum[3] * (r.svN[0] : Int)) * ((r.svN[1] : Int) * (r.svN[2] : Int))
              - (r.svSum[1] * (r.svN[2] : Int) + r.svSum[2] * (r.svN[1] : Int)) * ((r.svN[0] : Int) * (r.svN[3] : Int)))
            (2 * r.svN[0] * r.svN[1] * r.svN[2] * r.svN[3] * 2 ^ 16))))
  ∧ (∀ (s : State) (n : Fin 16), s.coreUp = true → s.pteOn = true → 0 < bitsOf (s.rlink n) 15 8 →
      s.passed (s.ports[n]).r.survAt (bitsOf (s.rlink n) 15 8 * 3600 * secTicks) = true → s.canSurvey n = true →
      Completes (.survIntTimer n) s (fun t => if Config.devId.toNat < (s.ports[n]).r.peerId.toNat then
          (t.ports[n]).r.svId = (s.ports[n]).r.svId + 1 ∧ (t.ports[n]).r.reqOut = some ((s.ports[n]).r.svId + 1)
            ∧ (t.ports[n]).r.survAt = s.tick
        else t = s))
  ∧ (∀ (s : State) (n : Fin 16), s.coreUp = true → s.pteOn = true → (s.ports[n]).r.lstate = .swap →
      s.passed (s.ports[n]).r.swapAt (50 * msTicks) = true →
      Completes (.swapRelockTimeout n) s (fun t => (t.ports[n]).link = false ∧ (t.ports[n]).r.lstate = .down
        ∧ (t.ports[n]).r.surveying = false ∧ ((s.ports[n]).r.surveying = true → (t.ports[n]).r.cmdWait = true)))
  ∧ (∀ (s : State) (n : Fin 16), s.coreUp = true → s.pteOn = true → (s.ports[n]).r.cmdWait = true → (s.ports[n]).r.surveying = true →
      s.passed (s.ports[n]).r.swapAt (10 * msTicks) = true →
      Completes (.switchConfirmTimeout n) s (fun t => (t.ports[n]).r.surveying = false))
  ∧ (∀ (s : State) (n : Fin 16), s.coreUp = true → s.pteOn = true → (s.ports[n]).r.lstate = .verify → (s.ports[n]).r.retrainAt = none →
      s.verifyOk n (s.ports[n]).r.ver = false →
      Completes (.verifyFail n) s (fun t => (t.ports[n]).r.verifyFails = satAdd 16 (s.ports[n]).r.verifyFails 1
        ∧ (t.ports[n]).r.retrainAt = some (s.tick + BitVec.ofNat 64 secTicks) ∧ (t.ports[n]).r.lstate = .verify))
  ∧ (∀ (s : State) (p : Path) (n : Fin 16), s.keeps p .port n.val 0x48 = true →
      (s.canSurvey n = true → Completes (.survey p n) s (fun t =>
        (t.ports[n]).r.svId = (s.ports[n]).r.svId + 1 ∧ (t.ports[n]).r.reqOut = some ((s.ports[n]).r.svId + 1)))
      ∧ ((s.ports[n]).r.lstate ∈ [.legend, .verify, .up] → Completes (.retrain p n) s (fun t =>
        (t.ports[n]).r.lstate = .train ∧ (t.ports[n]).r.surveying = false))
      ∧ ((s.ports[n]).r.lstate ∉ [.legend, .verify, .up] → exec (.retrain p n) s = .next s))

/-! ## Program ports and engines -/

/-- PROG_CMD and verification (R287, R288, R290, R293). The model's choices in its clauses: log entries 64, 65 and
71. -/
def Obligations.ProgramPorts : Prop :=
  (∀ (s : State) (p : Path) (pp : ProgPort), s.keeps p (progPlace pp).blk (progPlace pp).inst ((progPlace pp).off + 4) = true →
      ((s.prog pp).phase = .idle → Completes (.load p pp) s (fun t => (t.prog pp).phase = .verifying
        ∧ (t.prog pp).spare = none ∧ (t.prog pp).byKeeper = s.loadKeeper p ∧ (t.prog pp).cur = (s.prog pp).cur))
      ∧ ((s.prog pp).phase ≠ .idle → Completes (.load p pp) s (fun t => t.prog pp
        = { s.prog pp with cause := 9, rejects := Nat.min 255 ((s.prog pp).rejects + 1) }))
      ∧ ((s.prog pp).phase = .idle → Completes (.progSwapCmd p pp) s (fun t => t.prog pp = s.prog pp))
      ∧ ((s.prog pp).phase = .verifying → Completes (.progSwapCmd p pp) s (fun t =>
        t.prog pp = { s.prog pp with swapReq := true }))
      ∧ (∀ x, (s.prog pp).phase = .armed → s.swapsAtOnce pp = true → (s.prog pp).spare = some x →
        Completes (.progSwapCmd p pp) s (fun t => (t.prog pp).cur = some x ∧ (t.prog pp).bank = !(s.prog pp).bank
          ∧ (t.prog pp).phase = .idle ∧ (t.prog pp).active = true))
      ∧ ((s.prog pp).phase = .verifying → Completes (.cancel p pp) s (fun t => (t.prog pp).phase = .idle
        ∧ (t.prog pp).spare = none ∧ (t.prog pp).cur = (s.prog pp).cur))
      ∧ ((s.prog pp).phase = .armed → Completes (.cancel p pp) s (fun t =>
        t.prog pp = { s.prog pp with phase := .idle, swapReq := false })))
  ∧ (∀ (s : State) (p : Path) (e : Fin 8), s.keeps p .engine e.val 8 = true →
      (∀ x, (s.engines[e]).prog.cur = some x → s.engHeld e = false → Completes (.restart p e) s (fun t => (t.engines[e]).run = .running
        ∧ (t.engines[e]).cpu = { Cpu.reset with pc := x.entry } ∧ (t.engines[e]).cause = 0 ∧ (t.engines[e]).wait = none
        ∧ ∀ i : Fin 64, s.sems[i] = some e → t.sems[i] = none))
      ∧ ((s.engines[e]).prog.cur = none ∨ s.engHeld e = true → Completes (.restart p e) s (fun t => t.engines = s.engines)))
  ∧ (∀ (s : State) (pp : ProgPort), s.coreUp = true → (s.prog pp).phase = .verifying →
      (∀ c, (s.verifyImage pp).1 = .error c → c ≠ .busy → Completes (.verificationDone pp) s (fun t =>
        (t.prog pp).phase = .idle ∧ (t.prog pp).spare = none ∧ (t.prog pp).cause = c.num
          ∧ (t.prog pp).rejects = Nat.min 255 ((s.prog pp).rejects + 1) ∧ (t.prog pp).cur = (s.prog pp).cur))
      ∧ (∀ x, (s.verifyImage pp).1 = .ok x → (s.prog pp).swapReq = false → Completes (.verificationDone pp) s (fun t =>
        (t.prog pp).phase = .armed ∧ (t.prog pp).spare = some x ∧ (t.prog pp).cause = 0
          ∧ (t.prog pp).cur = (s.prog pp).cur)))

/-- Swaps at a boundary, forced swaps, the watchdog, the end of a wait (R281, R289, R291). Before an instruction
come the watchdog and the fetch; reserved operands and immediates then fault (R291, R296, R313). The model's choices
in its clauses: log entries 64 and 69. -/
def Obligations.EngineSwapsWaitsAndFaultOrder : Prop :=
  ((∀ (s : State) (pp : ProgPort), s.coreUp = true →
        (∀ x, (s.prog pp).due = true → s.atBoundary pp = true → (s.prog pp).spare = some x →
          Completes (.programSwap pp) s (fun t => (t.prog pp).cur = some x ∧ (t.prog pp).bank = !(s.prog pp).bank
            ∧ (t.prog pp).phase = .idle ∧ (t.prog pp).swapReq = false))
        ∧ ((s.prog pp).due = false → exec (.programSwap pp) s = .next s))
    ∧ (∀ (s : State) (e : Fin 8), s.coreUp = true →
        (∀ x, s.swapTmoDue e = true → s.engHeld e = false → (s.engines[e]).run = .running → (s.engines[e]).prog.spare = some x →
          Completes (.swapTmoExpiry e) s (fun t => (t.engines[e]).forced = true ∧ (t.engines[e]).prog.cur = some x
            ∧ (t.engines[e]).cpu.pc = x.entry ∧ (t.engines[e]).cpu.stack = [] ∧ (t.engines[e]).run = .running))
        ∧ (s.swapTmoDue e = false → exec (.swapTmoExpiry e) s = .next s))
    ∧ (∀ (s : State) (e : Fin 8), s.coreUp = true →
        (s.wdogDue e = true → Completes (.watchdog e) s (fun t => (t.engines[e]).run = .fault
          ∧ (t.engines[e]).cause = causeWatchdog ∧ (t.engines[e]).cpu = (s.engines[e]).cpu
          ∧ (t.engines[e]).pcReg = (s.engines[e]).cpu.pc))
        ∧ (s.wdogDue e = false → exec (.watchdog e) s = .next s))
    ∧ (∀ (s : State) (e : Fin 8) (w : Wait), s.coreUp = true → (s.engines[e]).run = .waiting → (s.engines[e]).wait = some w →
        (∀ c, s.waitEnd e w (s.engines[e]).cpu = some c → s.swapTmoDue e = false →
          exec (.waitResume e) s = .next (s.modEng e (fun g =>
            { g with run := .running, wait := none, cpu := c, wdogFrom := s.tick })))
        ∧ (s.waitEnd e w (s.engines[e]).cpu = none → exec (.waitResume e) s = .next s)))
  ∧ ((∀ (s : State) (e : Fin 8) (i : Instr), s.coreUp = true → (s.engines[e]).run = .running →
      i ∈ [.nop (.eng e), .mov (.eng e) 0 0, .halt e, .ret (.eng e), .ldd e 0 0 0, .std e 0 0 0, .waitk e 0, .stpop e 0, .sema e 0 0] →
      (s.wdogDue e = true → EngineFaults s e i causeWatchdog)
      ∧ (s.wdogDue e = false → (s.engines[e]).codeW ≤ (s.engines[e]).cpu.pc → EngineFaults s e i causeFetch)
      ∧ (∀ (sh : Sheet) (w : Word), s.wdogDue e = false → (s.engines[e]).prog.cur = some sh →
        sh.code[(s.engines[e]).cpu.pc]? = some w →
        ((s.engines[e]).cpu.pc ∈ sh.badCode → EngineFaults s e i causeEcc)
        ∧ ((s.engines[e]).cpu.pc ∉ sh.badCode → decodeEngine e w = none → EngineFaults s e i causeIllegal)))
    ∧ (∀ (s : State) (e : Fin 8) (i : Instr), (s.engines[e]).run ≠ .running →
      i ∈ [.nop (.eng e), .mov (.eng e) 0 0, .halt e, .ret (.eng e), .ldd e 0 0 0, .std e 0 0 0, .waitk e 0, .stpop e 0, .sema e 0 0] →
      s.coreUp = true → exec i s = .next s)
    ∧ (∀ (s : State) (e : Fin 8) (rd ra rb : Fin 32) (d a : Fin 4) (x : BitVec 8) (y : BitVec 9) (m off : BitVec 14) (o : BitVec 20),
      s.runsOn (.eng e) = true → 128 ≤ x.toNat → ¬(y = 0 ∨ (256 ≤ y.toNat ∧ y.toNat < 320 ∧ rb = 0)) → 64 ≤ m.toNat →
      off.toNat % 16 ≠ 0 →
      ∀ i ∈ [((.mula (.eng e) d ra rb x : Instr)), .mac (.eng e) d ra rb x, .msu (.eng e) d ra rb x, .acmov (.eng e) d ra x,
        .acshl (.eng e) d a x, .acshr (.eng e) d a x, .acn (.eng e) rd a x, .shl (.eng e) rd ra rb y, .shr (.eng e) rd ra rb y,
        .sar (.eng e) rd ra rb y, .rsr (.eng e) rd ra rb y, .b (.eng e) 15 o, .call (.eng e) 15 o, .sema e rd m, .semr e m,
        .dbell e 0 m, .mbpost e rd ra m, .mbtake e rd ra m, .note e ra off],
        EngineFaults s e i causeIllegal))

/-! ## The Nimyor instructions -/

/-- Moves and control registers (R277, R278, R296, R299). -/
def Obligations.NimyorMoves : Prop :=
  ∀ (s : State) (t : Tgt) (c : Cpu) (rd ra : Fin 32), s.runsOn t = true → s.cpuOf t = c →
    Runs s t (.nop t) { c with pc := c.pc + 1 }
    ∧ Runs s t (.mov t rd ra) { c with g := c.g.set rd c.g[ra], pc := c.pc + 1 }
    ∧ (∀ (hw : Fin 4) (imm : BitVec 16),
        Runs s t (.ldi t rd hw false imm) { c with g := c.g.set rd (imm.zeroExtend 64 <<< (16 * hw.val)), pc := c.pc + 1 }
        ∧ ∃ v : DWord, (∀ i < 64, v.getLsbD i
            = if 16 * hw.val ≤ i ∧ i < 16 * hw.val + 16 then imm.getLsbD (i - 16 * hw.val) else c.g[rd].getLsbD i)
          ∧ Runs s t (.ldi t rd hw true imm) { c with g := c.g.set rd v, pc := c.pc + 1 })
    ∧ (∀ (idx : BitVec 14) (v : DWord), (s.tgtConsts t)[idx.toNat]? = some v →
        (idx.toNat ∉ s.tgtBad t → Runs s t (.ldc t rd idx) { c with g := c.g.set rd v, pc := c.pc + 1 })
        ∧ (∀ e, t = .eng e → idx.toNat ∈ s.tgtBad t → EngineFaults s e (.ldc t rd idx) causeEcc))
    ∧ (∀ (idx : BitVec 14) (e : Fin 8), t = .eng e → (s.tgtConsts t)[idx.toNat]? = none →
        EngineFaults s e (.ldc t rd idx) causeWindow)
    ∧ Runs s t (.rdf t rd) { c with g := c.g.set rd (c.f.zeroExtend 64), pc := c.pc + 1 }
    ∧ Runs s t (.wrf t ra) { c with f := c.g[ra].setWidth 6, pc := c.pc + 1 }
    ∧ Runs s t (.rdcw t rd) { c with g := c.g.set rd (c.cw.zeroExtend 64), pc := c.pc + 1 }
    ∧ Runs s t (.wrcw t ra) { c with
        cw := (c.g[ra].setWidth 32 &&& 0xFE000000) ||| (if Tgt.isLoop t then 0x20000000 else 0), pc := c.pc + 1 }

/-- Integer arithmetic, comparison, logic (R297, R300). -/
def Obligations.NimyorArithmetic : Prop :=
  ∀ (s : State) (t : Tgt) (c : Cpu) (rd ra rb : Fin 32) (imm : BitVec 14) (a b : DWord), s.runsOn t = true → s.cpuOf t = c →
    c.g[ra] = a → c.g[rb] = b →
    (∀ e ∈ [((.add t rd ra rb : Instr), b, 0), (.adc t rd ra rb, b, b2n (c.flag 2)), (.addi t rd ra imm, imm.signExtend 64, 0)],
      Runs s t e.1 { c with
        g := c.g.set rd (a + e.2.1 + BitVec.ofNat 64 e.2.2)
        f := fWord (a + e.2.1 + BitVec.ofNat 64 e.2.2 == 0) (a + e.2.1 + BitVec.ofNat 64 e.2.2).msb
          (decide (2 ^ 64 ≤ a.toNat + e.2.1.toNat + e.2.2)) (!fits64 (a.toInt + e.2.1.toInt + (e.2.2 : Int))) (c.flag 4) (c.flag 5)
        pc := c.pc + 1 })
    ∧ (∀ e ∈ [((.sub t rd ra rb : Instr), some rd, a, b, 0), (.sbb t rd ra rb, some rd, a, b, b2n (c.flag 2)),
        (.neg t rd ra, some rd, 0, a, 0), (.cmp t ra rb, none, a, b, 0), (.cmpi t ra imm, none, a, imm.signExtend 64, 0)],
      Runs s t e.1 { c with
        g := match e.2.1 with
          | some r => c.g.set r (e.2.2.1 - e.2.2.2.1 - BitVec.ofNat 64 e.2.2.2.2)
          | none => c.g
        f := fWord (e.2.2.1 - e.2.2.2.1 - BitVec.ofNat 64 e.2.2.2.2 == 0) (e.2.2.1 - e.2.2.2.1 - BitVec.ofNat 64 e.2.2.2.2).msb
          (decide (e.2.2.1.toNat < e.2.2.2.1.toNat + e.2.2.2.2))
          (!fits64 (e.2.2.1.toInt - e.2.2.2.1.toInt - (e.2.2.2.2 : Int))) (c.flag 4) (c.flag 5)
        pc := c.pc + 1 })
    ∧ (∀ e ∈ [((.adds t rd ra rb : Instr), a.toInt + b.toInt), (.subs t rd ra rb, a.toInt - b.toInt), (.negs t rd ra, -a.toInt),
        (.abs t rd ra, (a.toInt.natAbs : Int))],
      Runs s t e.1 { c with
        g := c.g.set rd (BitVec.ofInt 64 (satS 64 e.2))
        f := fWord (BitVec.ofInt 64 (satS 64 e.2) == 0) (BitVec.ofInt 64 (satS 64 e.2)).msb (c.flag 2) (!fits64 e.2)
          (c.flag 4 || !fits64 e.2) (c.flag 5)
        pc := c.pc + 1 })
    ∧ (∀ e ∈ [((.min t rd ra rb : Instr), if a.toInt ≤ b.toInt then a else b), (.max t rd ra rb, if b.toInt ≤ a.toInt then a else b),
        (.and t rd ra rb, a &&& b), (.or t rd ra rb, a ||| b), (.xor t rd ra rb, a ^^^ b), (.andn t rd ra rb, a &&& ~~~b),
        (.andi t rd ra imm, a &&& imm.zeroExtend 64), (.ori t rd ra imm, a ||| imm.zeroExtend 64),
        (.xori t rd ra imm, a ^^^ imm.zeroExtend 64)],
      Runs s t e.1 { c with
        g := c.g.set rd e.2, f := fWord (e.2 == 0) e.2.msb (c.flag 2) (c.flag 3) (c.flag 4) (c.flag 5), pc := c.pc + 1 })
    ∧ (∀ e ∈ [((.tst t ra rb : Instr), a &&& b), (.tsti t ra imm, a &&& imm.zeroExtend 64)],
      Runs s t e.1 { c with f := fWord (e.2 == 0) e.2.msb (c.flag 2) false (c.flag 4) (c.flag 5), pc := c.pc + 1 })
    ∧ (∃ k : Nat, k ≤ 64 ∧ (∀ i, 64 - k ≤ i → a.getLsbD i = false) ∧ (k < 64 → a.getLsbD (63 - k) = true)
        ∧ Runs s t (.clz t rd ra) { c with
          g := c.g.set rd (BitVec.ofNat 64 k)
          f := fWord (k == 0) (c.flag 1) (c.flag 2) (c.flag 3) (c.flag 4) (c.flag 5)
          pc := c.pc + 1 })
    ∧ Runs s t (.mul t rd ra rb) { c with
        g := c.g.set rd (a * b)
        f := fWord (a * b == 0) (a * b).msb (c.flag 2) (!fits64 (a.toInt * b.toInt)) (c.flag 4) (c.flag 5)
        pc := c.pc + 1 }

/-- Rounding by CW.RND (R10, R278). Shifts by RB[6:0] or by an immediate of 0 to 63 (R301). -/
def Obligations.NimyorShifts : Prop :=
  (∀ (c : Cpu) (a y : Int) (d : Nat), 0 < d → y = c.rnd a d →
    (c.cw.toNat / 2 ^ 30 = 1 → (0 ≤ a → y * d ≤ a ∧ a < (y + 1) * d) ∧ (a < 0 → (y - 1) * d < a ∧ a ≤ y * d))
    ∧ (c.cw.toNat / 2 ^ 30 = 2 → y * d ≤ a ∧ a < (y + 1) * d)
    ∧ (c.cw.toNat / 2 ^ 30 = 0 ∨ c.cw.toNat / 2 ^ 30 = 3 →
        2 * (a - y * d).natAbs ≤ d ∧ (2 * (a - y * d).natAbs = d → y % 2 = 0)))
  ∧ ∀ (s : State) (t : Tgt) (c : Cpu) (rd ra rb : Fin 32) (x : BitVec 9) (k : Nat) (a : DWord), s.runsOn t = true →
    s.cpuOf t = c → c.g[ra] = a → (x = 0 ∧ k = c.g[rb].toNat % 128) ∨ (x.toNat = 256 + k ∧ k < 64 ∧ rb = 0) →
    Runs s t (.shl t rd ra rb x) { c with
      g := c.g.set rd (a <<< k)
      f := fWord (a <<< k == 0) (a <<< k).msb (decide (0 < k) && decide (k < 64) && a.getLsbD (64 - k) || decide (k = 64) && a.getLsbD 63)
        (c.flag 3) (c.flag 4) (c.flag 5)
      pc := c.pc + 1 }
    ∧ Runs s t (.shr t rd ra rb x) { c with
      g := c.g.set rd (a >>> k)
      f := fWord (a >>> k == 0) (a >>> k).msb (decide (0 < k) && decide (k < 64) && a.getLsbD (k - 1) || decide (k = 64) && a.getLsbD 0)
        (c.flag 3) (c.flag 4) (c.flag 5)
      pc := c.pc + 1 }
    ∧ Runs s t (.sar t rd ra rb x) { c with
      g := c.g.set rd (a.sshiftRight k)
      f := fWord (a.sshiftRight k == 0) (a.sshiftRight k).msb
        (decide (0 < k) && decide (k < 64) && a.getLsbD (k - 1) || decide (k = 64) && a.getLsbD 0) (c.flag 3) (c.flag 4) (c.flag 5)
      pc := c.pc + 1 }
    ∧ Runs s t (.rsr t rd ra rb x) { c with
      g := c.g.set rd (BitVec.ofInt 64 (c.rnd a.toInt (2 ^ k)))
      f := fWord (BitVec.ofInt 64 (c.rnd a.toInt (2 ^ k)) == 0) (BitVec.ofInt 64 (c.rnd a.toInt (2 ^ k))).msb (c.flag 2) (c.flag 3)
        (c.flag 4) (c.flag 5)
      pc := c.pc + 1 }

/-- The square root by CW.RND (R278, R302). Accumulators (R96, R278, R302). -/
def Obligations.NimyorAccumulators : Prop :=
  (∀ (c : Cpu) (v y : Nat), y = c.rootOf v →
    (c.cw.toNat / 2 ^ 30 = 1 ∨ c.cw.toNat / 2 ^ 30 = 2 → y * y ≤ v ∧ v < (y + 1) * (y + 1))
    ∧ (c.cw.toNat / 2 ^ 30 = 0 ∨ c.cw.toNat / 2 ^ 30 = 3 →
        4 * v < (2 * y + 1) * (2 * y + 1) ∧ (0 < y → (2 * y - 1) * (2 * y - 1) < 4 * v)))
  ∧ ∀ (s : State) (t : Tgt) (c : Cpu) (rd ra rb : Fin 32) (d a b : Fin 4) (x : BitVec 8) (va vb : Int), s.runsOn t = true →
    s.cpuOf t = c → (x.toNat < 4 → va = if x.getLsbD 1 then (c.g[ra].toNat : Int) else c.g[ra].toInt) →
    (x.toNat < 4 → vb = if x.getLsbD 0 then (c.g[rb].toNat : Int) else c.g[rb].toInt) →
    (∀ e ∈ (if x.toNat < 4 then [((.mula t d ra rb x : Instr), va * vb), (.mac t d ra rb x, c.acc[d].toInt + va * vb),
          (.msu t d ra rb x, c.acc[d].toInt - va * vb)] else [])
        ++ (if x.toNat < 128 then [(.acshl t d a x, c.acc[a].toInt * 2 ^ x.toNat)] else [])
        ++ [(.acadd t d a b, c.acc[a].toInt + c.acc[b].toInt), (.acsub t d a b, c.acc[a].toInt - c.acc[b].toInt),
          (.acneg t d a, -c.acc[a].toInt)],
      ∀ r : BitVec 128, r = BitVec.ofInt 128 (if c.cw.getLsbD 29 then satS 128 e.2 else e.2) →
        Completes e.1 s (fun u => u.cpuOf t = { c with
            acc := c.acc.set d r
            f := fWord (r == 0) r.msb (c.flag 2) (!fits128 e.2) (c.flag 4 || (c.cw.getLsbD 29 && !fits128 e.2)) (c.flag 5)
            pc := c.pc + 1 }
          ∧ (fits128 e.2 = true ∨ Tgt.isLoop t = false → u = s.setCpu t (u.cpuOf t))
          ∧ (∀ n, fits128 e.2 = false → t = .loop n → ∀ v < 4, bitOf (u.rcWord (key .loop n.val 0x08) v) 3 = true)))
    ∧ (x.toNat ≤ 64 → ∀ r : BitVec 128, r = BitVec.ofInt 128 (c.g[ra].toInt * 2 ^ x.toNat) →
        Runs s t (.acmov t d ra x) { c with
          acc := c.acc.set d r, f := fWord (r == 0) r.msb (c.flag 2) (c.flag 3) (c.flag 4) (c.flag 5), pc := c.pc + 1 })
    ∧ Runs s t (.acset t d ra rb) { c with acc := c.acc.set d (c.g[ra] ++ c.g[rb]), pc := c.pc + 1 }
    ∧ Runs s t (.achi t rd a) { c with g := c.g.set rd (c.acc[a].extractLsb' 64 64), pc := c.pc + 1 }
    ∧ Runs s t (.aclo t rd a) { c with g := c.g.set rd (c.acc[a].extractLsb' 0 64), pc := c.pc + 1 }
    ∧ (x.toNat < 128 → ∀ r : BitVec 128, r = BitVec.ofInt 128 (c.rnd c.acc[a].toInt (2 ^ x.toNat)) →
        Runs s t (.acshr t d a x) { c with
          acc := c.acc.set d r, f := fWord (r == 0) r.msb (c.flag 2) (c.flag 3) (c.flag 4) (c.flag 5), pc := c.pc + 1 })
    ∧ (x.toNat < 128 → ∀ (y : Int) (r : DWord), y = c.rnd c.acc[a].toInt (2 ^ x.toNat) → r = BitVec.ofInt 64 (satS 64 y) →
        Runs s t (.acn t rd a x) { c with
          g := c.g.set rd r
          f := fWord (r == 0) r.msb (c.flag 2) (!fits64 y) (c.flag 4 || !fits64 y) (c.flag 5)
          pc := c.pc + 1 })
    ∧ Runs s t (.accmp t a b) { c with
        f := fWord (decide (c.acc[a].toInt = c.acc[b].toInt)) (decide (c.acc[a].toInt < c.acc[b].toInt)) (c.flag 2) (c.flag 3)
          (c.flag 4) (c.flag 5)
        pc := c.pc + 1 }
    ∧ (c.acc[a].toInt < 0 → Runs s t (.acsqrt t rd a) { c with
        g := c.g.set rd 0, f := fWord true false (c.flag 2) true (c.flag 4) (c.flag 5), pc := c.pc + 1 })
    ∧ (0 ≤ c.acc[a].toInt → ∀ r : DWord, r = BitVec.ofNat 64 (c.rootOf c.acc[a].toInt.toNat) →
        Runs s t (.acsqrt t rd a) { c with
          g := c.g.set rd r, f := fWord (r == 0) r.msb (c.flag 2) false (c.flag 4) (c.flag 5), pc := c.pc + 1 })

/-- The signed quotient by CW.RND (R278, R303). Division, and division by zero (R278, R303). -/
def Obligations.NimyorDivide : Prop :=
  (∀ (c : Cpu) (a b y r : Int), b ≠ 0 → y = c.divInt a b → r = a - y * b →
    (c.cw.toNat / 2 ^ 30 = 1 → r.natAbs < b.natAbs ∧ 0 ≤ r * a)
    ∧ (c.cw.toNat / 2 ^ 30 = 2 → r.natAbs < b.natAbs ∧ 0 ≤ r * b)
    ∧ (c.cw.toNat / 2 ^ 30 = 0 ∨ c.cw.toNat / 2 ^ 30 = 3 →
        2 * r.natAbs ≤ b.natAbs ∧ (2 * r.natAbs = b.natAbs → y % 2 = 0)))
  ∧ ∀ (s : State) (t : Tgt) (c : Cpu) (rd ra rb : Fin 32) (a : Fin 4), s.runsOn t = true → s.cpuOf t = c →
    (c.g[rb] ≠ 0 →
      (∀ e ∈ [((.div t rd ra rb : Instr), c.divInt c.g[ra].toInt c.g[rb].toInt), (.acdiv t rd a rb, c.divInt c.acc[a].toInt c.g[rb].toInt)],
        Runs s t e.1 { c with
          g := c.g.set rd (BitVec.ofInt 64 (satS 64 e.2))
          f := fWord (BitVec.ofInt 64 (satS 64 e.2) == 0) (BitVec.ofInt 64 (satS 64 e.2)).msb (c.flag 2) (!fits64 e.2)
            (c.flag 4 || !fits64 e.2) (c.flag 5)
          pc := c.pc + 1 })
      ∧ (∀ r : DWord, r = BitVec.ofInt 64 (c.rnd (c.g[ra].toNat : Int) c.g[rb].toNat) →
        Runs s t (.divu t rd ra rb) { c with
          g := c.g.set rd r, f := fWord (r == 0) r.msb (c.flag 2) (c.flag 3) (c.flag 4) (c.flag 5), pc := c.pc + 1 }))
    ∧ (c.g[rb] = 0 → c.cw.getLsbD 28 = true →
      ∀ e ∈ [((.div t rd ra rb : Instr), signSat c.g[ra].toInt), (.acdiv t rd a rb, signSat c.acc[a].toInt),
          (.divu t rd ra rb, if c.g[ra] = 0 then 0 else BitVec.allOnes 64)],
        Runs s t e.1 { c with
          g := c.g.set rd e.2, f := fWord (e.2 == 0) e.2.msb (c.flag 2) true true (c.flag 5), pc := c.pc + 1 })
    ∧ (∀ e, t = .eng e → c.g[rb] = 0 → c.cw.getLsbD 28 = false →
      EngineFaults s e (.div t rd ra rb) causeDivZero ∧ EngineFaults s e (.divu t rd ra rb) causeDivZero
        ∧ EngineFaults s e (.acdiv t rd a rb) causeDivZero)

/-- Branches, calls, returns, HALT and STOP; a target outside the code, a full and an empty return stack (R94, R298,
R304). -/
def Obligations.NimyorControlFlow : Prop :=
  (∀ (s : State) (t : Tgt) (c : Cpu) (off : BitVec 20) (z n cy v q l : Bool), s.runsOn t = true → s.cpuOf t = c →
    c.f = fWord z n cy v q l →
    (∀ e ∈ [((0 : BitVec 4), true), (1, z), (2, !z), (3, n != v), (4, n == v), (5, z || n != v), (6, !z && n == v), (7, cy),
        (8, !cy), (9, n), (10, !n), (11, v), (12, !v), (13, q), (14, l)],
      (e.2 = false → Runs s t (.b t e.1 off) { c with pc := c.pc + 1 } ∧ Runs s t (.call t e.1 off) { c with pc := c.pc + 1 })
      ∧ (∀ k : Nat, e.2 = true → (k : Int) = (c.pc : Int) + off.toInt → k < s.tgtCode t →
          Runs s t (.b t e.1 off) { c with pc := k }
          ∧ (c.stack.length < 16 → Runs s t (.call t e.1 off) { c with pc := k, stack := (c.pc + 1) :: c.stack })
          ∧ (∀ g, t = .eng g → 16 ≤ c.stack.length → EngineFaults s g (.call t e.1 off) causeStack))
      ∧ (∀ g, t = .eng g → e.2 = true → (c.pc : Int) + off.toInt < 0 ∨ (s.tgtCode t : Int) ≤ (c.pc : Int) + off.toInt →
          EngineFaults s g (.b t e.1 off) causeFetch ∧ EngineFaults s g (.call t e.1 off) causeFetch)))
  ∧ (∀ (s : State) (t : Tgt) (c : Cpu), s.runsOn t = true → s.cpuOf t = c →
      (∀ k r, c.stack = k :: r → k < s.tgtCode t → Runs s t (.ret t) { c with pc := k, stack := r })
      ∧ (∀ g, t = .eng g → c.stack = [] → EngineFaults s g (.ret t) causeStack))
  ∧ (∀ (s : State) (e : Fin 8) (ra : Fin 32) (k : Nat), s.runsOn (.eng e) = true → (s.engines[e]).cpu.g[ra].toNat = k →
      (k < 2 ^ 14 → k < (s.engines[e]).codeW → Runs s (.eng e) (.br e ra) { (s.engines[e]).cpu with pc := k })
      ∧ ((s.engines[e]).codeW ≤ k → EngineFaults s e (.br e ra) causeFetch))
  ∧ (∀ (s : State) (e : Fin 8), s.runsOn (.eng e) = true → exec (.halt e) s = .next (s.modEng e (fun g =>
      { g with run := .halted, pcReg := g.cpu.pc, cpu := { g.cpu with pc := g.cpu.pc + 1 } })))
  ∧ (∀ (s : State) (n : Fin 16), s.runsOn (.loop n) = true →
      (∀ f, (s.loops[n]).out = some f → exec (.stop n) s = .next (s.modLoop n (fun y =>
        { y with out := none, fp := if (s.loops[n]).code.holds then y.fp else f, cpu := { y.cpu with pc := 0, stack := [] } })))
      ∧ ((s.loops[n]).out = none → Completes (.stop n) s (fun t => (t.loops[n]).fp = (s.loops[n]).fp
        ∧ (t.loops[n]).cpu.pc = 0 ∧ (t.loops[n]).cpu.stack = []
        ∧ ∀ v < 4, bitOf (t.rcWord (key .loop n.val 0x08) v) 5 = true)))

/-- An engine's loads and stores in every window of R279, and the faults in their order (R279, R290, R305, R313,
R330). The model's choices in its clauses: log entries 66 and 69. -/
def Obligations.NimyorLoadsAndStores : Prop :=
  (∀ (s : State) (e : Fin 8) (c : Cpu) (rd ra : Fin 32) (imm : BitVec 14) (w : Nat × Nat × Nat) (a x : Nat),
    s.runsOn (.eng e) = true → (s.engines[e]).cpu = c → (a : Int) = (c.g[ra].toNat : Int) + imm.toInt →
    w ∈ readWindows e → w.1 ≤ a → a < w.1 + w.2.1 → x = w.2.2 + (a - w.1) →
    (∀ i ∈ [((.ldb e rd ra imm : Instr), 1, false), (.ldh e rd ra imm, 2, false), (.ldw e rd ra imm, 4, false),
        (.ldd e rd ra imm, 8, false), (.ldbs e rd ra imm, 1, true), (.ldhs e rd ra imm, 2, true), (.ldws e rd ra imm, 4, true)],
      a % i.2.1 = 0 →
        (s.mem.flaw (s.mem.phys x / 8) = 0 → Runs s (.eng e) i.1 { c with
          g := c.g.set rd (if i.2.2 then BitVec.ofInt 64 (signed (8 * i.2.1) (beNat (s.mem.bytes x i.2.1)))
            else BitVec.ofNat 64 (beNat (s.mem.bytes x i.2.1)))
          pc := c.pc + 1 })
        ∧ (s.mem.flaw (s.mem.phys x / 8) = 2 → isPaged x = false → EngineFaults s e i.1 causeEcc)))
  ∧ (∀ (s : State) (e : Fin 8) (c : Cpu) (rd ra : Fin 32) (imm : BitVec 14) (w : Nat × Nat × Nat) (a x : Nat),
    s.runsOn (.eng e) = true → (s.engines[e]).cpu = c → (a : Int) = (c.g[ra].toNat : Int) + imm.toInt →
    w ∈ writeWindows e → w.1 ≤ a → a < w.1 + w.2.1 → x = w.2.2 + (a - w.1) → s.mem.flaw (s.mem.phys x / 8) = 0 →
    (∀ i ∈ [((.stb e rd ra imm : Instr), 1), (.sth e rd ra imm, 2), (.stw e rd ra imm, 4), (.std e rd ra imm, 8)],
      a % i.2 = 0 →
        Completes i.1 s (fun t => (t.engines[e]).cpu = { c with pc := c.pc + 1 }
          ∧ (∀ j < i.2, t.mem.byte (x + j) = (beBytes i.2 c.g[rd].toNat).getD j 0)
          ∧ (∀ b, (∀ j < i.2, s.mem.phys b ≠ s.mem.phys (x + j)) → t.mem.byte b = s.mem.byte b)
          ∧ t.regs = s.regs ∧ t.mem.remap = s.mem.remap)))
  ∧ (∀ (s : State) (e : Fin 8) (c : Cpu) (rd ra : Fin 32) (imm : BitVec 14) (a k : Nat),
    s.runsOn (.eng e) = true → (s.engines[e]).cpu = c → (a : Int) = (c.g[ra].toNat : Int) + imm.toInt →
    0x10000 ≤ a → a < 0x14000 → k = (a - 0x10000) / 8 →
    (∀ i ∈ [((.ldb e rd ra imm : Instr), 1, false), (.ldh e rd ra imm, 2, false), (.ldw e rd ra imm, 4, false),
        (.ldd e rd ra imm, 8, false), (.ldbs e rd ra imm, 1, true), (.ldhs e rd ra imm, 2, true), (.ldws e rd ra imm, 4, true)],
      a % i.2.1 = 0 →
        ((s.tgtBad (.eng e)).contains k = true → EngineFaults s e i.1 causeEcc)
        ∧ ((s.tgtBad (.eng e)).contains k = false → k < (s.engines[e]).consts.length →
          let v := ((s.engines[e]).consts.getD k 0).toNat / 2 ^ (8 * (8 - a % 8 - i.2.1)) % 2 ^ (8 * i.2.1)
          Runs s (.eng e) i.1 { c with
            g := c.g.set rd (if i.2.2 then BitVec.ofInt 64 (signed (8 * i.2.1) v) else BitVec.ofNat 64 v)
            pc := c.pc + 1 })
        ∧ ((s.tgtBad (.eng e)).contains k = false → (s.engines[e]).consts.length ≤ k →
          Completes i.1 s (fun t => (t.engines[e]).cpu.pc = c.pc + 1
            ∧ ∀ r : Fin 32, r ≠ rd → (t.engines[e]).cpu.g[r] = c.g[r]))))
  ∧ (∀ (s : State) (e : Fin 8) (c : Cpu) (rd ra : Fin 32) (imm : BitVec 14) (o : Nat), s.runsOn (.eng e) = true →
    (s.engines[e]).cpu = c → 0x1000000 + (o : Int) = (c.g[ra].toNat : Int) + imm.toInt → o < 0x100000 → o % 4 = 0 →
    (placeOf o = none → ∀ i ∈ [(.ldw e rd ra imm : Instr), .ldws e rd ra imm],
      Runs s (.eng e) i { c with g := c.g.set rd 0, pc := c.pc + 1 })
    ∧ (∀ pl, placeOf o = some pl → pl.blk ≠ .access → s.placeDown pl = true →
      ∀ i ∈ [(.ldw e rd ra imm : Instr), .ldws e rd ra imm],
        Completes i s (fun t => t = (s.count .access 0 0x28 15 0).setCpu (.eng e) { c with g := c.g.set rd 0, pc := c.pc + 1 }))
    ∧ (∀ pl, placeOf o = some pl → ¬(pl.blk = .mailbox ∧ pl.off = 8) →
      Completes (.rcRead (.eng e) (BitVec.ofNat 32 o)) s (fun u =>
        let v := (u.path (.eng e)).resp.word
        (u.path (.eng e)).resp = .data v
        ∧ Completes (.ldw e rd ra imm) s (fun t => t.regs = u.regs ∧ t.rc = u.rc
          ∧ (t.engines[e]).cpu = { c with g := c.g.set rd (v.setWidth 64), pc := c.pc + 1 })
        ∧ Completes (.ldws e rd ra imm) s (fun t => t.regs = u.regs ∧ t.rc = u.rc
          ∧ (t.engines[e]).cpu = { c with g := c.g.set rd (v.signExtend 64), pc := c.pc + 1 })))
    ∧ Completes (.registerWrite (.eng e) (BitVec.ofNat 32 o) (c.g[rd].setWidth 32)) s (fun u =>
        Completes (.stw e rd ra imm) s (fun t => t.regs = u.regs ∧ t.rc = u.rc ∧ t.loops = u.loops ∧ t.chans = u.chans
          ∧ t.mem = u.mem ∧ (t.engines[e]).cpu.g = c.g)))
  ∧ (∀ (s : State) (e : Fin 8) (c : Cpu) (rd ra : Fin 32) (imm : BitVec 14) (a : Int), s.runsOn (.eng e) = true →
    (s.engines[e]).cpu = c → a = (c.g[ra].toNat : Int) + imm.toInt →
    (∀ i ∈ [((.ldh e rd ra imm : Instr), 2), (.ldw e rd ra imm, 4), (.ldd e rd ra imm, 8), (.ldhs e rd ra imm, 2),
        (.ldws e rd ra imm, 4), (.sth e rd ra imm, 2), (.stw e rd ra imm, 4), (.std e rd ra imm, 8)],
      a % (i.2 : Int) ≠ 0 → EngineFaults s e i.1 causeAlign)
    ∧ (∀ i ∈ [(.ldb e rd ra imm : Instr), .ldh e rd ra imm, .ldd e rd ra imm, .ldbs e rd ra imm, .ldhs e rd ra imm,
        .stb e rd ra imm, .sth e rd ra imm, .std e rd ra imm],
      0x1000000 ≤ a → a < 0x1100000 → EngineFaults s e i causeAlign)
    ∧ (∀ i ∈ [((.ldb e rd ra imm : Instr), 1), (.ldh e rd ra imm, 2), (.ldw e rd ra imm, 4), (.ldd e rd ra imm, 8),
        (.ldbs e rd ra imm, 1), (.ldhs e rd ra imm, 2), (.ldws e rd ra imm, 4), (.stb e rd ra imm, 1), (.sth e rd ra imm, 2),
        (.stw e rd ra imm, 4), (.std e rd ra imm, 8)],
      a % (i.2 : Int) = 0 → noWindow a = true → EngineFaults s e i.1 causeWindow)
    ∧ (∀ i ∈ [((.stb e rd ra imm : Instr), 1), (.sth e rd ra imm, 2), (.stw e rd ra imm, 4), (.std e rd ra imm, 8)],
      a % (i.2 : Int) = 0 → readOnlyWindow a = true → EngineFaults s e i.1 causeWriteRo))

/-- Time on the engine's mirror, waits (R14, R43, R278, R281, R289, R306, R307). The model's choice in its clauses:
log entry 64. -/
def Obligations.NimyorTimeAndWaits : Prop :=
  (∀ (s : State) (e : Fin 8) (c : Cpu) (rd r1 ra a1 rb b1 : Fin 32) (x : BitVec 9) (d : Fin 8), s.runsOn (.eng e) = true →
    (s.engines[e]).cpu = c → rd.val % 2 = 0 → ra.val % 2 = 0 → rb.val % 2 = 0 → r1.val = rd.val + 1 → a1.val = ra.val + 1 →
    b1.val = rb.val + 1 → x.toNat = d.val ∨ (x.toNat = 15 ∧ d.val = bitsOf c.cw 27 25) →
    (∀ t, t = ((s.datums[d]).mirs[engIsl e]).now.export → Runs s (.eng e) (.tnow e rd x) { c with
        g := (c.g.set rd (t.sec.zeroExtend 64)).set r1 (BitVec.ofNat 64 (t.ns.toNat * 2 ^ 16 + t.sub.toNat))
        f := fWord (c.flag 0) (c.flag 1) (!(s.datums[d]).set) (c.flag 3) (c.flag 4) (c.flag 5)
        pc := c.pc + 1 })
    ∧ Runs s (.eng e) (.tick e rd) { c with
        g := c.g.set rd (if e.val < 4 then s.islandTick[14] else s.islandTick[15]), pc := c.pc + 1 }
    ∧ (∀ (t q v : Int) (sec : BitVec 48), t = (c.g[a1].toNat % 2 ^ 48 : Nat) + c.g[rb].toInt →
        t = q * (1000000000 * 2 ^ 16) + v → 0 ≤ v → v < 1000000000 * 2 ^ 16 →
        sec = BitVec.ofInt 48 ((c.g[ra].toNat % 2 ^ 48 : Nat) + q) →
        Runs s (.eng e) (.tadd e rd ra rb) { c with
          g := (c.g.set rd (sec.zeroExtend 64)).set r1 (BitVec.ofNat 64 v.toNat)
          f := fWord (sec == 0 && decide (v = 0)) (c.flag 1) (c.flag 2) (c.flag 3) (c.flag 4) (c.flag 5)
          pc := c.pc + 1 })
    ∧ (∀ y : Int, y = pairVal c.g[ra] c.g[a1] - pairVal c.g[rb] c.g[b1] →
        Runs s (.eng e) (.tdif e rd ra rb) { c with
          g := c.g.set rd (BitVec.ofInt 64 (satS 64 y))
          f := fWord (BitVec.ofInt 64 (satS 64 y) == 0) (BitVec.ofInt 64 (satS 64 y)).msb (c.flag 2) (!fits64 y)
            (c.flag 4 || !fits64 y) (c.flag 5)
          pc := c.pc + 1 })
    ∧ ((s.engines[e]).prog.due = false →
        (((s.datums[d]).mirs[engIsl e]).now.toInt56 < waitTime (c.g[ra].toNat % 2 ^ 48) (c.g[a1].toNat % 2 ^ 48) →
          exec (.waitt e ra x) s = .next (s.modEng e (fun g => { g with
            pcReg := c.pc, cpu := { c with pc := c.pc + 1 }, wdogFrom := s.tick, run := .waiting
            wait := some (.time d (c.g[ra].toNat % 2 ^ 48) (c.g[a1].toNat % 2 ^ 48) none) })))
        ∧ (waitTime (c.g[ra].toNat % 2 ^ 48) (c.g[a1].toNat % 2 ^ 48) < ((s.datums[d]).mirs[engIsl e]).now.toInt56 →
          Completes (.waitt e ra x) s (fun t => (t.engines[e]).run = .running ∧ (t.engines[e]).wdogFrom = s.tick
            ∧ (t.engines[e]).cpu = { c with
              f := fWord (c.flag 0) (c.flag 1) (c.flag 2) (c.flag 3) (c.flag 4) true, pc := c.pc + 1 }))))
  ∧ (∀ (s : State) (e : Fin 8) (c : Cpu) (rd ra rb : Fin 32) (x : BitVec 9), s.runsOn (.eng e) = true →
    (s.engines[e]).cpu = c →
    (rd.val % 2 = 1 ∨ (8 ≤ x.toNat ∧ x.toNat ≠ 15) → EngineFaults s e (.tnow e rd x) causeIllegal)
    ∧ (ra.val % 2 = 1 ∨ (8 ≤ x.toNat ∧ x.toNat ≠ 15) → EngineFaults s e (.waitt e ra x) causeIllegal)
    ∧ (rd.val % 2 = 1 ∨ ra.val % 2 = 1 → EngineFaults s e (.tadd e rd ra rb) causeIllegal)
    ∧ ((s.engines[e]).prog.due = false →
        (s.tick.toNat < c.g[ra].toNat → exec (.waitk e ra) s = .next (s.modEng e (fun g => { g with
            pcReg := c.pc, cpu := { c with pc := c.pc + 1 }, wdogFrom := s.tick, run := .waiting, wait := some (.tick c.g[ra]) })))
        ∧ (c.g[ra].toNat ≤ s.tick.toNat → Completes (.waitk e ra) s (fun t => (t.engines[e]).run = .running
            ∧ (t.engines[e]).cpu = { c with
              f := fWord (c.flag 0) (c.flag 1) (c.flag 2) (c.flag 3) (c.flag 4) (decide (c.g[ra].toNat < s.tick.toNat)), pc := c.pc + 1 }))
        ∧ (c.g[ra].setWidth 5 = (0 : BitVec 5) → Completes (.waite e rd ra rb) s (fun t => (t.engines[e]).run = .running
            ∧ (t.engines[e]).cpu = { c with
              g := c.g.set rd 0, f := fWord true (c.flag 1) (c.flag 2) (c.flag 3) (c.flag 4) (c.flag 5), pc := c.pc + 1 }))
        ∧ (∀ on : BitVec 5, on = s.waitEvents e c.g[ra] c.g[rb] s.tick 0 &&& c.g[ra].setWidth 5 →
          (on ≠ 0 → Completes (.waite e rd ra rb) s (fun t => (t.engines[e]).run = .running
            ∧ (t.engines[e]).cpu = { c with
              g := c.g.set rd (on.zeroExtend 64), f := fWord false (c.flag 1) (c.flag 2) (c.flag 3) (c.flag 4) (c.flag 5)
              pc := c.pc + 1 }))
          ∧ (on = 0 → c.g[ra].setWidth 5 ≠ (0 : BitVec 5) → Completes (.waite e rd ra rb) s (fun t =>
            (t.engines[e]).run = .waiting ∧ (t.engines[e]).wait = some (.event rd c.g[ra] c.g[rb] s.tick 0 0)
            ∧ (t.engines[e]).cpu = { c with pc := c.pc + 1 }))))
    ∧ (∀ sh, (s.engines[e]).prog.due = true → (s.engines[e]).prog.spare = some sh →
        Completes (.waitk e ra) s (fun t => (t.engines[e]).prog.cur = some sh ∧ (t.engines[e]).cpu.pc = sh.entry)
        ∧ Completes (.waite e rd ra rb) s (fun t => (t.engines[e]).prog.cur = some sh ∧ (t.engines[e]).cpu.pc = sh.entry)))
  ∧ (∀ (s : State) (e : Fin 8) (rd : Fin 32) (mask timeout issue : DWord) (commits : Word) (met : BitVec 5), s.coreUp = true →
    s.ticking = true → s.fm.waiting = [] → (s.engines[e]).wait = some (.event rd mask timeout issue commits met) →
    (met ≠ 0 → Completes .datumTick s (fun t => (t.engines[e]).wait = some (.event rd mask timeout issue commits met)))
    ∧ (met = 0 → mask.getLsbD 0 = true → (s.engines[e]).fifo ≠ [] → Completes .datumTick s (fun t =>
        ∃ on : BitVec 5, (t.engines[e]).wait = some (.event rd mask timeout issue commits on) ∧ on.getLsbD 0 = true)))

/-- Stamps, emission, the loop's sample (R177, R308 to R310). -/
def Obligations.NimyorStampsEmissionAndSample : Prop :=
  (∀ (s : State) (e : Fin 8) (c : Cpu) (rd r1 r2 : Fin 32), s.runsOn (.eng e) = true → (s.engines[e]).cpu = c →
    (rd.val % 2 = 0 → r1.val = rd.val + 1 → r2.val = rd.val + 2 →
      ((s.engines[e]).fifo = [] → Runs s (.eng e) (.stpop e rd) { c with
          f := fWord (c.flag 0) (c.flag 1) true (c.flag 3) (c.flag 4) (c.flag 5), pc := c.pc + 1 })
      ∧ (∀ q rest, (s.engines[e]).fifo = q :: rest → exec (.stpop e rd) s = .next ((s.setCpu (.eng e) { c with
          g := ((c.g.set rd (q.t.sec.zeroExtend 64)).set r1 (BitVec.ofNat 64 (q.t.ns.toNat * 2 ^ 16 + q.t.sub.toNat))).set r2
            (q.desc.zeroExtend 64)
          f := fWord (c.flag 0) (c.flag 1) false (c.flag 3) (c.flag 4) (c.flag 5)
          pc := c.pc + 1 }).modEng e (fun g => { g with fifo := rest }))))
    ∧ (rd.val % 2 = 1 ∨ rd.val = 30 → EngineFaults s e (.stpop e rd) causeIllegal))
  ∧ (∀ (s : State) (e : Fin 8) (c : Cpu) (rd ra a1 rb : Fin 32) (b : DWord), s.runsOn (.eng e) = true →
    (s.engines[e]).cpu = c → ra.val % 2 = 0 → a1.val = ra.val + 1 → c.g[rb] = b →
    ((12 ≤ bitsOf (b.extractLsb' 32 32) 31 28 ∨ bitsOf (b.extractLsb' 32 32) 25 0 ≠ 0) → Runs s (.eng e) (.emit e rd ra rb) { c with
        g := c.g.set rd 2, f := fWord (c.flag 0) (c.flag 1) true (c.flag 3) (c.flag 4) false, pc := c.pc + 1 })
    ∧ (∀ (g : Fin 12) (j : Fin 4) (size head tail base : Nat), b.toNat / 2 ^ 60 = g.val → b.toNat / 2 ^ 58 % 4 = j.val →
        b.toNat / 2 ^ 32 % 2 ^ 26 = 0 → s.domUp (30 + g.val) = true → size = s.rf .survey g.val (schedOff j 4) 18 0 →
        head = s.rf .survey g.val (schedOff j 8) 17 0 → tail = s.rf .survey g.val (schedOff j 0xC) 17 0 →
        base = s.rf .survey g.val (schedOff j 0) 17 0 →
        (2 ≤ size → (head + size - tail) % size = size - 1 → Runs s (.eng e) (.emit e rd ra rb) { c with
          g := c.g.set rd 1, f := fWord (c.flag 0) (c.flag 1) true (c.flag 3) (c.flag 4) false, pc := c.pc + 1 })
        ∧ (2 ≤ size → size ≤ 2 ^ 18 → (head + size - tail) % size < size - 1 → ∀ a, a = graticuleBase + 16 * ((base + head) % 262144) →
          Completes (.emit e rd ra rb) s (fun t => (t.engines[e]).cpu.g = c.g.set rd 0 ∧ (t.engines[e]).cpu.pc = c.pc + 1
            ∧ (t.engines[e]).cpu.flag 2 = false ∧ t.rf .survey g.val (schedOff j 8) 17 0 = (head + 1) % size
            ∧ t.mem.bytes a 6 = beBytes 6 (c.g[ra].toNat % 2 ^ 48)
            ∧ t.mem.bytes (a + 6) 4 = beBytes 4 (c.g[a1].toNat % 2 ^ 48 / 2 ^ 16)
            ∧ t.mem.bytes (a + 10) 2 = beBytes 2 (c.g[a1].toNat % 2 ^ 16)
            ∧ t.mem.bytes (a + 12) 4 = beBytes 4 (b.toNat % 2 ^ 32)
            ∧ ∀ x, (∀ i < 16, s.mem.phys x ≠ s.mem.phys (a + i)) → t.mem.byte x = s.mem.byte x))))
  ∧ (∀ (s : State) (n : Fin 16) (c : Cpu) (rd ra : Fin 32), s.runsOn (.loop n) = true → (s.loops[n]).cpu = c →
    (∀ r : DWord, r = BitVec.ofInt 64 (s.loops[n]).x → Runs s (.loop n) (.inx n rd) { c with
        g := c.g.set rd r, f := fWord (r == 0) r.msb (c.flag 2) (c.flag 3) (c.flag 4) (c.flag 5), pc := c.pc + 1 })
    ∧ Runs s (.loop n) (.inf n rd) { c with
        g := c.g.set rd ((s.loops[n]).flagsW.zeroExtend 64)
        f := fWord ((s.loops[n]).flagsW == 0) (c.flag 1) (c.flag 2) (c.flag 3) (c.flag 4) (c.flag 5), pc := c.pc + 1 }
    ∧ exec (.outf n ra) s = .next (s.modLoop n (fun l => { l with out := some c.g[ra].toInt, cpu := { c with pc := c.pc + 1 } })))

/-- Statistics pushes, notices, mailboxes, doorbells, semaphores from an engine (R282, R284, R311, R336 to R339). -/
def Obligations.NimyorMessages : Prop :=
  (∀ (s : State) (e : Fin 8) (c : Cpu) (ra : Fin 32), s.runsOn (.eng e) = true → (s.engines[e]).cpu = c →
    ((s.engines[e]).pushq.length < 16 → exec (.spush e ra) s = .next ((s.setCpu (.eng e) { c with
        f := fWord (c.flag 0) (c.flag 1) false (c.flag 3) (c.flag 4) (c.flag 5), pc := c.pc + 1 }).modEng e
          (fun q => { q with pushq := q.pushq ++ [c.g[ra].toInt] })))
    ∧ (16 ≤ (s.engines[e]).pushq.length → Completes (.spush e ra) s (fun t => (t.engines[e]).pushq = (s.engines[e]).pushq
        ∧ (t.engines[e]).cpu = { c with
          f := fWord (c.flag 0) (c.flag 1) true (c.flag 3) (c.flag 4) (c.flag 5), pc := c.pc + 1 }
        ∧ ∀ v < 4, bitsOf (t.rcWord (key .engine e.val 0x18) v) 15 0
          = Nat.min 65535 (bitsOf (s.rcWord (key .engine e.val 0x18) v) 15 0 + 1))))
  ∧ (∀ (s : State) (e : Fin 8) (c : Cpu) (ra : Fin 32) (cls : BitVec 2) (code : Byte), s.runsOn (.eng e) = true →
    (s.engines[e]).cpu = c →
    (2 ≤ cls.toNat ∨ (s.engines[e]).keeper = true → exec (.note e ra (cls ++ code ++ 0#4)) s
      = .next ((s.setCpu (.eng e) { c with pc := c.pc + 1 }).raise (0x0600 + e.val) cls (if code = 0xFF then 0xFE else code) c.g[ra]))
    ∧ (cls.toNat < 2 → (s.engines[e]).keeper = false → exec (.note e ra (cls ++ code ++ 0#4)) s
      = .next (((s.setCpu (.eng e) { c with pc := c.pc + 1 }).rcCount .engine e.val 0x1C 31 16).raise (0x0600 + e.val) 2
          (if code = 0xFF then 0xFE else code) c.g[ra])))
  ∧ (∀ (s : State) (e : Fin 8) (c : Cpu) (rd ra : Fin 32) (m : Fin 16) (a x : Nat), s.runsOn (.eng e) = true →
    (s.engines[e]).cpu = c → c.g[ra].toNat = a → a % 64 = 0 → 0x100000 ≤ a → a < 0x140000 →
    x = engineBase + e.val * sliceSize + (a - 0x100000) →
    ((∀ i < 8, s.mem.flaw (s.mem.phys (x + 8 * i) / 8) = 0) → ∀ st, st = s.postStatus (.eng e) m →
      Completes (.mbpost e rd ra (BitVec.ofNat 14 m.val)) s (fun t =>
        (t.engines[e]).cpu = { c with
          g := c.g.set rd (BitVec.ofNat 64 st.num)
          f := fWord (c.flag 0) (c.flag 1) (decide (st.num ≠ 0)) (c.flag 3) (c.flag 4) (c.flag 5)
          pc := c.pc + 1 }
        ∧ (st = .done → (t.mboxes[m]).slots = (s.mboxes[m]).slots ++ [s.mem.bytes x 64] ∧ (t.mboxes[m]).seq = (s.mboxes[m]).seq + 1)
        ∧ (st ≠ .done → t.mboxes = s.mboxes)))
    ∧ (∀ (b : List Byte) (rest : List (List Byte)), s.mbReceiver m = 8 + e.val → (s.mboxes[m]).slots = b :: rest →
      (∃ j < 8, s.mem.flaw (s.mem.phys (mailAddr m (s.mboxes[m]).oldest) / 8 + j) = 2) → EngineFaults s e (.mbtake e rd ra (BitVec.ofNat 14 m.val)) causeEcc)
    ∧ (∀ (b : List Byte) (rest : List (List Byte)), s.mbReceiver m = 8 + e.val → (s.mboxes[m]).slots = b :: rest →
      (∀ j < 8, s.mem.flaw (s.mem.phys (mailAddr m (s.mboxes[m]).oldest) / 8 + j) = 0) → b.length = 64 →
      Completes (.mbtake e rd ra (BitVec.ofNat 14 m.val)) s (fun t => (t.engines[e]).cpu = { c with
          g := c.g.set rd 0, f := fWord (c.flag 0) (c.flag 1) false (c.flag 3) (c.flag 4) (c.flag 5), pc := c.pc + 1 }
        ∧ (t.mboxes[m]).slots = rest ∧ t.mem.bytes x 64 = b))
    ∧ (s.mbReceiver m = 8 + e.val → (s.mboxes[m]).slots = [] → Runs s (.eng e) (.mbtake e rd ra (BitVec.ofNat 14 m.val)) { c with
          g := c.g.set rd 4, f := fWord (c.flag 0) (c.flag 1) true (c.flag 3) (c.flag 4) (c.flag 5), pc := c.pc + 1 }))
  ∧ (∀ (s : State) (e : Fin 8) (c : Cpu) (i : Fin 32) (w : Word), s.runsOn (.eng e) = true → (s.engines[e]).cpu = c →
    w = s.r .access 0 (0x200 + 4 * i.val) →
    (bitsOf w 15 12 = 8 + e.val → Completes (.dbell e 0 (BitVec.ofNat 14 i.val)) s (fun t => bitOf t.dbOut i.val = true
        ∧ (∀ k < 32, k ≠ i.val → bitOf t.dbOut k = bitOf s.dbOut k)
        ∧ (t.engines[e]).cpu = { c with f := fWord (c.flag 0) (c.flag 1) false (c.flag 3) (c.flag 4) (c.flag 5), pc := c.pc + 1 }))
    ∧ (bitsOf w 15 12 ≠ 8 + e.val → Runs s (.eng e) (.dbell e 0 (BitVec.ofNat 14 i.val)) { c with
        f := fWord (c.flag 0) (c.flag 1) true (c.flag 3) (c.flag 4) (c.flag 5), pc := c.pc + 1 }))
  ∧ (∀ (s : State) (e : Fin 8) (c : Cpu) (rd : Fin 32) (i : Fin 64), s.runsOn (.eng e) = true → (s.engines[e]).cpu = c →
    (s.sems[i] = none ∨ s.sems[i] = some e → Completes (.sema e rd (BitVec.ofNat 14 i.val)) s (fun t =>
        t.sems = s.sems.set i (some e) ∧ (t.engines[e]).cpu = { c with
          g := c.g.set rd 0, f := fWord true (c.flag 1) false (c.flag 3) (c.flag 4) (c.flag 5), pc := c.pc + 1 }))
    ∧ (∀ h, s.sems[i] = some h → h ≠ e → Runs s (.eng e) (.sema e rd (BitVec.ofNat 14 i.val)) { c with
        g := c.g.set rd 1, f := fWord false (c.flag 1) true (c.flag 3) (c.flag 4) (c.flag 5), pc := c.pc + 1 })
    ∧ (s.sems[i] = some e → Completes (.semr e (BitVec.ofNat 14 i.val)) s (fun t =>
        t.sems = s.sems.set i none ∧ (t.engines[e]).cpu = { c with
          f := fWord (c.flag 0) (c.flag 1) false (c.flag 3) (c.flag 4) (c.flag 5), pc := c.pc + 1 }))
    ∧ (s.sems[i] ≠ some e → Completes (.semr e (BitVec.ofNat 14 i.val)) s (fun t => t.sems = s.sems
        ∧ t.rf .engine 0 0x300 15 0 = satAdd 16 (s.rf .engine 0 0x300 15 0) 1 ∧ (t.engines[e]).cpu = { c with
          f := fWord (c.flag 0) (c.flag 1) true (c.flag 3) (c.flag 4) (c.flag 5), pc := c.pc + 1 })))

/-! ## Host access, the side-band, mailboxes, doorbells, PCIe -/

/-- A register write: early, to a register that does not exist, to a powered-down domain, guarded; let through to a
register that no unit follows at once (Place.plain), it writes the register's writable bits and nothing else; a named
write is the write of its register; one bit through the alias (R8, R316, R318, R322, R330, R397). -/
def Obligations.RegisterWrites : Prop :=
  (∀ (s : State) (p : Path) (off v : Word), s.carries p = true → off.toNat < 0x100000 →
      (s.tooEarly p = true → exec (.registerWrite p off v) s = .next (s.count .device 0 0x20 15 0))
      ∧ (s.tooEarly p = false → placeOf off.toNat = none → exec (.registerWrite p off v) s = .next s)
      ∧ (∀ pl, s.tooEarly p = false → placeOf off.toNat = some pl → pl.blk ≠ .access → s.placeDown pl = true →
          exec (.registerWrite p off v) s = .next (s.count .access 0 0x28 15 0))
      ∧ (∀ pl, s.tooEarly p = false → placeOf off.toNat = some pl → pl.blk ≠ .access → s.placeDown pl = false →
          s.keeper p = false → pl.reg.rw = 0 → pl.reg.cmd = 0 → pl.reg.rwk ≠ 0 → pl.reg.mw = false →
          (p = .f0 → exec (.registerWrite p off v) s = .next (s.count .access 0 0x0C 31 16))
          ∧ (p = .sb → exec (.registerWrite p off v) s = .next (s.count .access 0 0x0C 15 0))
          ∧ (∀ e, p = .eng e → exec (.registerWrite p off v) s = .next (s.rcCount .engine e.val 0x1C 15 0)))
      ∧ (∀ pl, s.tooEarly p = false → placeOf off.toNat = some pl → s.placeDown pl = false → s.keeperAt p pl = true →
          pl.blk ∈ [.benchmark, .memory, .sideband] ∨ (pl.blk = .access ∧ 0x100 ≤ pl.off) → pl.reg.rwk ≠ 0 →
          s.r pl.blk pl.inst pl.off &&& ~~~(pl.reg.rw ||| pl.reg.rwk) = 0 →
          exec (.registerWrite p off v) s = .next (s.wr pl.blk pl.inst pl.off (v &&& pl.reg.rwk)))
      ∧ (∀ pl, s.tooEarly p = false → placeOf off.toNat = some pl → s.placeDown pl = false → pl.plain = true →
          pl.reg.mw = false → s.writable p pl ≠ 0 →
          exec (.registerWrite p off v) s = .next
            ((if !(s.keeperAt p pl) && pl.trips 0xFFFFFFFF v then s.guardCount p else s).wr pl.blk pl.inst pl.off
              (mix (s.writable p pl) (s.r pl.blk pl.inst pl.off) v))))
  ∧ (∀ (s : State) (p : Path) (v : Word) (d : Fin 8) (n : Fin 16) (m : Fin 16), s.carries p = true →
      exec (.registerWrite p (BitVec.ofNat 32 (key .datum d.val 0x08)) v) s = exec (.bslewWrite p d v) s
      ∧ exec (.registerWrite p (BitVec.ofNat 32 (key .port n.val 0)) v) s = exec (.portCfgWrite p n v) s
      ∧ exec (.registerWrite p (BitVec.ofNat 32 (key .mailbox m.val 0)) v) s = exec (.mailboxCfgWrite p m v) s
      ∧ exec (.registerWrite p (BitVec.ofNat 32 (key .notice 0 8)) v) s = exec (.noticeRdWrite p v) s)
  ∧ (∀ (s : State) (p : Path) (v : Word) (i b : Nat), i < 32 → b < 8 → s.keeps p .access 0 (0x100 + 4 * i) = true →
      pathAliases p = true → Completes (.aliasWrite p (BitVec.ofNat 32 (0x200000 + 32 * key .access 0 (0x100 + 4 * i) + 4 * b)) v) s (fun t =>
        ∀ k < 8, bitOf (t.r .access 0 (0x100 + 4 * i)) k
          = if k = b then bitOf v 0 else bitOf (s.r .access 0 (0x100 + 4 * i)) k))

/-- Multi-word registers through a path's holdings, the snapshot, the indirect pair (R24, R326 to R329, R367). The
model's choices in its clauses: log entries 72 and 75. -/
def Obligations.HoldingsSnapshotAndIndirect : Prop :=
  (∀ (s : State) (p : Path), s.carries p = true →
      Completes (.holdingReadHigh p (BitVec.ofNat 32 (key .legend 0 0))) s (fun t =>
        (t.path p).resp = .data (Config.devId.extractLsb' 32 32)
        ∧ (mapGet (t.path p).readHold (key .legend 0 4)).getD 0 = Config.devId.extractLsb' 0 32)
      ∧ Completes (.holdingReadHigh p (BitVec.ofNat 32 (key .legend 0 4))) s (fun t =>
        (t.path p).resp = .data ((mapGet (s.path p).readHold (key .legend 0 4)).getD 0)))
  ∧ (∀ (s : State) (p : Path) (u : Fin 32) (v : Word), s.reaches p .stats u.val 0x10 = true →
      exec (.holdingWriteLow p (BitVec.ofNat 32 (key .stats u.val 0x14)) v) s
        = .next (s.modPath p (fun q => { q with writeHold := mapSet q.writeHold (key .stats u.val 0x14) v 0 }))
      ∧ Completes (.holdingWriteCommit p (BitVec.ofNat 32 (key .stats u.val 0x10)) v) s (fun t =>
        t.r .stats u.val 0x10 = v ∧ t.r .stats u.val 0x14 = (mapGet (s.path p).writeHold (key .stats u.val 0x14)).getD 0))
  ∧ (∀ (s : State) (p : Path), s.keeps p .access 0 0x10 = true →
      (s.boot.mode = .service → exec (.take p) s = .next { s with snap :=
        { s.snap with modeRej := true, rejects := satAdd 16 s.snap.rejects 1 } })
      ∧ (s.boot.mode ≠ .service → Completes (.take p) s (fun t => t.snap.done = true ∧ t.snap.modeRej = false
        ∧ t.snap.tick = s.tick ∧ t.snap.rc = s.rc ∧ t.snap.units = s.units ∧ t.regs = s.regs)))
  ∧ (∀ (s : State) (p : Path) (v : Word), s.reaches p .access 0 4 = true →
      ((s.path p).indBusy = none → exec (.indDataWrite p v) s = .next (s.modPath p (fun q =>
        { q with indBusy := some (q.indAddr, v), indAddr := q.indAddr + 4 })))
      ∧ ((s.path p).indBusy.isSome = true → exec (.indDataWrite p v) s = .next (s.modPath p (fun q => { q with overrun := true }))))
  ∧ (∀ (s : State) (p : Path), s.carries p = true →
      ((s.path p).indBusy = none → exec (.indWriteDone p) s = .next s)
      ∧ (∀ (a v : Word), (s.path p).indBusy = some (a, v) → a.toNat < 0x10000 → Completes (.indWriteDone p) s (fun t =>
        t.path p = { s.path p with indBusy := none, noreg := true }))
      ∧ (∀ (a v : Word) (x : Nat), (s.path p).indBusy = some (a, v) → a.toNat = 0x02080000 + x → x < 0x80000 → x % 4 = 0 →
        s.keeper p = true → s.protection = 2 →
        (s.arch.badIn (0x80000 + x) 4 = false → Completes (.indWriteDone p) s (fun t => (t.path p).indBusy = none
          ∧ ∀ i < 4, (mapGet t.arch.cells (0x80000 + x + i)).getD 0 = (beBytes 4 v.toNat).getD i 0))
        ∧ (s.arch.badIn (0x80000 + x) 4 = true → Completes (.indWriteDone p) s (fun t => (t.path p).indBusy = none
          ∧ t.arch = s.arch ∧ t.r .archive 0 0x10 = BitVec.ofNat 32 (satAdd 32 (s.r .archive 0 0x10).toNat 1))))
      ∧ ((s.path p).indBusy = none →
        ((s.path p).indAddr.toNat < 0x10000 → Completes (.indDataRead p) s (fun t =>
          (t.path p).resp = .data 0 ∧ (t.path p).noreg = true ∧ (t.path p).indAddr = (s.path p).indAddr + 4))
        ∧ (∀ x : Nat, (s.path p).indAddr.toNat = 0x02080000 + x → x < 0x180000 → x % 4 = 0 → s.arch.badIn (0x80000 + x) 4 = false →
          Completes (.indDataRead p) s (fun t => (t.path p).indAddr = (s.path p).indAddr + 4 ∧ t.arch = s.arch
            ∧ (t.path p).resp = .data (BitVec.ofNat 32 (beNat ((List.range 4).map (fun i => s.arcByte (0x80000 + x + i)))))))
        ∧ (∀ (src : Fin 96) (off : Nat), off ∈ [0x08, 0x0C, 0x10, 0x14, 0x18, 0x1C, 0x20, 0x24, 0x28] →
          (s.path p).indAddr.toNat = 0x10000 + 0x40 * src.val + off → s.placeDown ⟨.mon, src.val, off⟩ = false → s.keeper p = true →
          (s.path p).snapView = false → Completes (.indDataRead p) s (fun t =>
            (t.path p).resp = .data (s.r .mon src.val off) ∧ (t.path p).indAddr = (s.path p).indAddr + 4 ∧ t.regs = s.regs))))

/-- The host's memory window, refused requests, the resets of the host's side, its configuration writes (R317 to
R320, R394, R397). The model's choices in its clauses: log entries 74 and 78. -/
def Obligations.HostMemoryAndPcie : Prop :=
  (∀ (s : State) (f : Fin 2) (off : BitVec 27) (bs : List (Option Byte)), s.carries (fnPath f) = true →
      (s.tooEarly (fnPath f) = true → exec (.bar2Write f off bs) s = .next (s.count .device 0 0x20 15 0))
      ∧ (s.tooEarly (fnPath f) = false → (∃ i < bs.length, bar2Writable f (off.toNat + i) = false) →
          exec (.bar2Write f off bs) s = .next (s.count .host 0 8 31 0))
      ∧ (∀ l : List Byte, s.tooEarly (fnPath f) = false → bs = l.map some → l.length = 8 → off.toNat % 8 = 0 →
          (∀ i < 8, bar2Writable f (off.toNat + i) = true) →
          Completes (.bar2Write f off bs) s (fun t => t.mem.bytes off.toNat 8 = l
            ∧ (∀ a, (∀ i < 8, s.mem.phys a ≠ s.mem.phys (off.toNat + i)) → t.mem.byte a = s.mem.byte a)
            ∧ t.mem.flaw (s.mem.phys off.toNat / 8) = 0 ∧ t.regs = s.regs)))
  ∧ (∀ (s : State) (f : Fin 2) (off : BitVec 27), s.carries (fnPath f) = true → off.toNat % 8 = 0 →
      (off.toNat + 8 ≤ 0x6000000 → s.mem.flaw (s.mem.phys off.toNat / 8) = 0 →
        exec (.bar2Read f off 8) s = .next (s.answer (fnPath f) (.bytes (s.mem.bytes off.toNat 8) false)))
      ∧ (∀ len, 0x6000000 ≤ off.toNat →
        exec (.bar2Read f off len) s = .next (s.answer (fnPath f) (.bytes (List.replicate len 0) false))))
  ∧ (∀ (s : State) (f : Fin 2), s.carries (fnPath f) = true →
      exec (.badTlp f true) s = .next (s.count .host 0 4 15 0)
      ∧ exec (.badTlp f false) s = .next (s.answer (fnPath f) .ur)
      ∧ Completes (.functionLevelReset f) s (fun t => t.funcs[f] = Func.reset ∧ (∀ g : Fin 2, g ≠ f → t.funcs[g] = s.funcs[g])
        ∧ t.path (fnPath f) = { PathSt.reset with snapView := (s.path (fnPath f)).snapView } ∧ t.regs = s.regs ∧ t.mem = s.mem)
      ∧ Completes .perstN s (fun t => t.linkUp = false ∧ (∀ g : Fin 2, t.funcs[g] = Func.reset) ∧ t.path .f0 = { PathSt.reset with snapView := (s.path .f0).snapView }
        ∧ t.path .f1 = { PathSt.reset with snapView := (s.path .f1).snapView } ∧ t.path .sb = s.path .sb ∧ t.regs = s.regs ∧ t.mem = s.mem)
      ∧ exec .pcieLinkDown s = .next { s with linkUp := false }
      ∧ (∀ (sp : BitVec 3) (w : BitVec 4), 1 ≤ sp.toNat → sp.toNat ≤ 4 → w = 1 ∨ w = 2 →
        exec (.pcieLinkUp sp w) s = .next { s with linkUp := true, linkSpeed := sp, linkWidth := w })
      ∧ (∀ on : Bool, exec (.pcieConfigWrite f (.busMaster on)) s
          = .next (({ s with funcs := s.funcs.set f { s.funcs[f] with busMaster := on } }).msiReleaseAll f)
        ∧ exec (.pcieConfigWrite f (.functionMask on)) s
          = .next (({ s with funcs := s.funcs.set f { s.funcs[f] with funcMask := on } }).msiReleaseAll f))
      ∧ exec (.pcieConfigWrite f (.msixEnable false)) s = .next { s with funcs := s.funcs.set f { s.funcs[f] with msixEn := false } }
      ∧ (∀ a : BitVec 64, exec (.pcieConfigWrite f (.barAddress true a)) s
        = .next { s with funcs := s.funcs.set f { s.funcs[f] with bar2 := a &&& ~~~0x7FFFFFF#64 } })
      ∧ (∀ (v : Fin 32) (on : Bool), s.tooEarly (fnPath f) = true →
        exec (.pcieConfigWrite f (.vectorMask v on)) s = .next (s.count .device 0 0x20 15 0))
      ∧ (∀ v : Fin 32, s.tooEarly (fnPath f) = false →
        ((s.funcs[f]).msixEn = true → (s.funcs[f]).funcMask = false → (s.funcs[f]).busMaster = true →
          bitOf (s.funcs[f]).pba v.val = true → exec (.pcieConfigWrite f (.vectorMask v false)) s
            = .next ({ s with funcs := s.funcs.set f { s.funcs[f] with
                mask := (s.funcs[f]).mask &&& ~~~(mkBit v.val true), pba := (s.funcs[f]).pba &&& ~~~(mkBit v.val true) } }.emit
              (.msi f v (s.funcs[f]).addr[v] (s.funcs[f]).data[v])))
        ∧ ((s.funcs[f]).msixEn = false ∨ (s.funcs[f]).funcMask = true ∨ (s.funcs[f]).busMaster = false →
          exec (.pcieConfigWrite f (.vectorMask v false)) s = .next { s with funcs := s.funcs.set f { s.funcs[f] with
            mask := (s.funcs[f]).mask &&& ~~~(mkBit v.val true) } })))

/-- The side-band target (R24, R331 to R334). The model's choices in its clauses: log entries 77 and 79. -/
def Obligations.SideBand : Prop :=
  (∀ (s : State) (count : Byte) (off v : Word) (pec : Pec) (take : Bool),
      let good (code : Byte) (data : List Byte) : Prop :=
        pec = .given (s.sbPec code count data) ∨ (pec = .absent ∧ s.rb .sideband 0 0 31 = false)
      let bad (code : Byte) (data : List Byte) : Prop :=
        (∃ b, pec = .given b ∧ b ≠ s.sbPec code count data) ∨ (pec = .absent ∧ s.rb .sideband 0 0 31 = true)
      (count = 4 → good 0x01 (beBytes 4 off.toNat) → s.tickInv → exec (.sbSetPointer count off pec) s
        = .next (({ s with sideband := { s.sideband with pointer := off } }).answer .sb .ok))
      ∧ (count ≠ 4 → Completes (.sbSetPointer count off pec) s (fun t => t.sideband = { s.sideband with lastErr := 8 }
          ∧ (t.path .sb).resp = .nack)
        ∧ Completes (.sbWriteAtPointer count v pec) s (fun t => t.sideband = { s.sideband with lastErr := 8 } ∧ (t.path .sb).resp = .nack)
        ∧ Completes (.sbProcessCallRead count off take) s (fun t => t.sideband = { s.sideband with lastErr := 8 } ∧ (t.path .sb).resp = .nack))
      ∧ (count = 4 → bad 0x03 (beBytes 4 v.toNat) → Completes (.sbWriteAtPointer count v pec) s (fun t =>
          t.sideband = { s.sideband with lastErr := 5 } ∧ (t.path .sb).resp = .nack))
      ∧ (count = 8 → bad 0x05 (beBytes 4 off.toNat ++ beBytes 4 v.toNat) → Completes (.sbWriteAtOffset count off v pec) s (fun t =>
          t.sideband = { s.sideband with lastErr := 5 } ∧ (t.path .sb).resp = .nack))
      ∧ (s.coreUp = true → s.boot.sheetDone = true →
          (count = 4 → good 0x03 (beBytes 4 v.toNat) → s.sideband.pointer.toNat = key .access 0 0 →
            Completes (.sbWriteAtPointer count v pec) s (fun t =>
              (t.path .sb).indAddr = v ∧ (t.path .sb).resp = .ok ∧ t.sideband.pointer = s.sideband.pointer + 4))
          ∧ (count = 8 → good 0x05 (beBytes 4 off.toNat ++ beBytes 4 v.toNat) → off.toNat = key .access 0 0 →
            Completes (.sbWriteAtOffset count off v pec) s (fun t =>
              (t.path .sb).indAddr = v ∧ (t.path .sb).resp = .ok ∧ t.sideband.pointer = off + 4)))
      ∧ (s.coreUp = true → s.sideband.pointer.toNat = key .access 0 0 → Completes (.sbReadAtPointer take) s (fun t =>
          (t.path .sb).resp = .data (s.path .sb).indAddr ∧ t.sideband.pointer = s.sideband.pointer + 4
          ∧ t.sideband.pecOut = if take then some (byte (crc8 ([s.sbAddrByte false, 0x02, s.sbAddrByte true, 4]
              ++ beBytes 4 (s.path .sb).indAddr.toNat))) else none))
      ∧ (s.coreUp = true → count = 4 → off.toNat = key .access 0 0 → Completes (.sbProcessCallRead count off take) s (fun t =>
          (t.path .sb).resp = .data (s.path .sb).indAddr ∧ t.sideband.pointer = off + 4))
      ∧ (s.coreUp = false → s.sideband.pointer.toNat = key .datum 0 0 → Completes (.sbReadAtPointer take) s (fun t =>
          (t.path .sb).resp = .nack ∧ t.sideband = { s.sideband with lastErr := 6 })))
  ∧ (∀ s : State,
      Completes .sbStatus s (fun t => t.sideband.lastErr = 0 ∧ t.sideband.pointer = s.sideband.pointer
        ∧ (t.path .sb).resp
          = .bytes [(fld s.sideband.lastErr.toNat 4 ||| mkBit 3 s.alertOn ||| mkBit 2 s.coreUp).setWidth 8] false)
      ∧ (∀ code : Byte, code ∉ [(0x01 : Byte), 0x02, 0x03, 0x04, 0x05, 0x10] → Completes (.badCmd code) s (fun t =>
          t.sideband = { s.sideband with lastErr := 7 } ∧ (t.path .sb).resp = .nack))
      ∧ (s.alertOn = true → s.tickInv → exec .alertResponse s = .next (({ s with sideband := { s.sideband with answered := true } }).emit
          (.alertResponse (0x5C + s.boot.straps.sbAddr.setWidth 7))))
      ∧ (s.alertOn = false → s.tickInv → exec .alertResponse s = .next s)
      ∧ (s.tickInv → exec .smbusTimeout s = .next s))

/-- Mailboxes and doorbells (R28, R335 to R339). -/
def Obligations.MailboxesAndDoorbells : Prop :=
  (∀ (s : State) (p : Path) (m : Fin 16), s.carries p = true →
      (s.postStatus p m = .done → Completes (.post p m) s (fun t =>
        (t.mboxes[m]).slots = (s.mboxes[m]).slots ++ [(s.mboxes[m]).stageBytes] ∧ (t.mboxes[m]).seq = (s.mboxes[m]).seq + 1
          ∧ (t.path p).resp = .data (mkBit 31 true ||| fld ((s.mboxes[m]).seq + 1).toNat 0)))
      ∧ (s.postStatus p m ≠ .done → p ≠ .sb → Completes (.post p m) s (fun t => t.mboxes = s.mboxes
        ∧ (t.path p).resp = (if s.postStatus p m = .off then .ur else .ca)))
      ∧ (s.reaches p .mailbox m.val 0x0C = true →
        (s.mbReceiver m = pathCode p → (s.mboxes[m]).slots ≠ [] →
          exec (.ack p m) s = .next (s.modMbox m (fun q => { q with slots := q.slots.drop 1 })))
        ∧ (s.mbReceiver m ≠ pathCode p ∨ (s.mboxes[m]).slots = [] → exec (.ack p m) s = .next (s.count .mailbox m.val 0x10 7 0)))
      ∧ (∀ v : Word, s.keeps p .mailbox m.val 0 = true →
        ((s.mboxes[m]).slots = [] → exec (.mailboxCfgWrite p m v) s = .next (s.wr .mailbox m.val 0 (v &&& 0xFF1F0000)))
        ∧ ((s.mboxes[m]).slots ≠ [] → exec (.mailboxCfgWrite p m v) s = .next (s.count .mailbox m.val 0x10 7 0))))
  ∧ (∀ (s : State) (p : Path) (i : Fin 32), s.carries p = true → s.tooEarly p = false →
      (bitsOf (s.r .access 0 (0x100 + 4 * i.val)) 7 4 = pathCode p →
        exec (.dbInSet p (mkBit i.val true)) s = .next { s with dbIn := s.dbIn ||| mkBit i.val true })
      ∧ (bitsOf (s.r .access 0 (0x100 + 4 * i.val)) 7 4 ≠ pathCode p →
        exec (.dbInSet p (mkBit i.val true)) s = .next (s.count .access 0 0x2C 15 0))
      ∧ (bitsOf (s.r .access 0 (0x100 + 4 * i.val)) 3 0 = pathCode p → p = .stw ∨ (∃ e, p = .eng e) →
        exec (.dbInClr p (mkBit i.val true)) s = .next { s with dbIn := s.dbIn &&& ~~~(mkBit i.val true) })
      ∧ (bitsOf (s.r .access 0 (0x200 + 4 * i.val)) 15 12 = pathCode p → p = .stw ∨ (∃ e, p = .eng e) →
        Completes (.dbOutSet p (mkBit i.val true)) s (fun t => t.dbOut = s.dbOut ||| mkBit i.val true))
      ∧ (bitsOf (s.r .access 0 (0x200 + 4 * i.val)) 15 12 ≠ pathCode p →
        exec (.dbOutSet p (mkBit i.val true)) s = .next (s.count .access 0 0x2C 15 0))
      ∧ (bitsOf (s.r .access 0 (0x200 + 4 * i.val)) 9 8 = pathCode p → p ∈ [.f0, .f1, .sb] →
        exec (.dbOutClr p (mkBit i.val true)) s = .next { s with dbOut := s.dbOut &&& ~~~(mkBit i.val true) })
      ∧ (bitsOf (s.r .access 0 (0x200 + 4 * i.val)) 9 8 ≠ pathCode p →
        exec (.dbOutClr p (mkBit i.val true)) s = .next (s.count .access 0 0x2C 15 0)))

/-! ## The module bus, memory, archive -/

/-- Traverses of the module bus, its stuck line and recovery (R346 to R349, R351). Transactions: XFER, the oven
module, the die sensor, the device as a peer target (R131, R342, R343, R350, R352). The model's choices in its
clauses: log entries 3, 80 to 83, 130, 150 and 151. -/
def Obligations.ModuleBus : Prop :=
  ((∀ (s : State) (p : Fin 2), s.mbRuns p = true → (s.mbs[p]).trav = none →
        (∀ start : State, start = s.modMb p (fun q => { q with
            pstate := .traverse, trav := some ⟨0, false, false, [], []⟩, travAgain := false, travOwed := false }) →
          Completes (.traverse p .enable) s (fun t => t.mbs = start.mbs)
          ∧ (∀ q, s.keeps q .modbus 0 (0x20 * p.val + 0x0C) = true → Completes (.traverse p (.command q)) s (fun t => t.mbs = start.mbs))
          ∧ (s.rf .modbus 0 (0x20 * p.val) 15 0 ≠ 0 →
              s.since (s.mbs[p]).travEnd (s.rf .modbus 0 (0x20 * p.val) 15 0 * secTicks) = true →
              Completes (.travIntExpiry p) s (fun t => t.mbs = start.mbs)
              ∧ Completes (.traverse p .interval) s (fun t => t.mbs = start.mbs))
          ∧ ((s.mbs[p]).travOwed = true → s.since (s.mbs[p]).travEnd secTicks = true →
              Completes (.travIntExpiry p) s (fun t => t.mbs = start.mbs))
          ∧ Completes (.attach p) s (fun t => t.mbs = start.mbs
            ∧ ∀ v < 4, bitOf (t.rcWord (key .modbus 0 (0x20 * p.val + 8)) v) 30 = true)))
    ∧ (∀ (s : State) (p : Fin 2) (t0 : Trav) (id : BitVec 64) (bs : List Byte), s.mbRuns p = true → (s.mbs[p]).trav = some t0 →
        s.mbBefore p = false →
        (∀ a, (s.mbs[p]).travAgain = false → Completes (.traversePass p .noTarget a id) s (fun t =>
          (t.mbs[p]).trav = none ∧ (t.mbs[p]).pstate = .idle
          ∧ ∀ i : Fin 64, (s.gaz[i]).valid = true → (s.gaz[i]).port = decide (p.val = 1) →
              ((s.gaz[i]).ident ∉ t0.found → (t.gaz[i]).valid = false)
              ∧ ((s.gaz[i]).ident ∈ t0.found → (t.gaz[i]).valid = true)))
        ∧ (identOk id = true → (∀ i : Fin 64, (s.gaz[i]).ident ≠ id) → ∀ i, s.gazIndex id = some i →
          Completes (.traversePass p (.answered bs) true id) s (fun t => (t.gaz[i]).valid = true ∧ (t.gaz[i]).ident = id
            ∧ (t.gaz[i]).port = decide (p.val = 1) ∧ (t.gaz[i]).misses = 0
            ∧ (t.gaz[i]).state = (if t0.attachSeen then 1 else 0)
            ∧ t.emitted = .mb p ([0xC3#8] ++ beBytes 8 t0.floor.toNat) :: s.emitted)))
    ∧ (∀ (s : State) (p : Fin 2),
        (s.mbRuns p = true → Completes (.mbStuck p) s (fun t => (t.mbs[p]).pstate = .recovering ∧ (t.mbs[p]).trav = none
          ∧ (t.mbs[p]).line = false ∧ (t.mbs[p]).pulses = 0))
        ∧ ((s.mbs[p]).pstate = .recovering → bitOf (s.mbCfgWord p) 28 = true →
          ((s.mbs[p]).pwren = true → (s.mbs[p]).line = false → (s.mbs[p]).pulses < 3 → s.since (s.mbs[p]).recAt (10 * msTicks) = true → Completes (.recoveryPulse p) s (fun t =>
            (t.mbs[p]).pwren = false ∧ (t.mbs[p]).pulses = (s.mbs[p]).pulses + 1))
          ∧ ((s.mbs[p]).pwren = false → s.since (s.mbs[p]).recAt (100 * msTicks) = true → Completes (.recoveryPulse p) s (fun t =>
            (t.mbs[p]).pwren = true ∧ (t.mbs[p]).pulses = (s.mbs[p]).pulses))
          ∧ ((s.mbs[p]).pulses = 3 → (s.mbs[p]).pwren = true → (s.mbs[p]).line = false → s.since (s.mbs[p]).recAt (10 * msTicks) = true → Completes (.mbIsolated p) s (fun t => (t.mbs[p]).pstate = .isolated
            ∧ ∀ i : Fin 64, (s.gaz[i]).valid = true → (s.gaz[i]).port = decide (p.val = 1) → (t.gaz[i]).state = 2)))
        ∧ (s.tickInv → (s.mbs[p]).line = false → exec (.lineRelease p) s = .next (s.modMb p (fun q => { q with line := true, riseAt := s.mark })))
        ∧ ((s.mbs[p]).line = true → (s.mbs[p]).pstate = .recovering ∧ s.since (s.mbs[p]).riseAt (s.mbStop p) = true
            ∨ (s.mbs[p]).pstate = .isolated ∧ s.since (s.mbs[p]).riseAt secTicks = true →
          bitOf (s.mbCfgWord p) 31 = true → (s.mbs[p]).trav = none → Completes (.lineRelease p) s (fun t =>
            (t.mbs[p]).line = true ∧ (t.mbs[p]).pstate = .traverse ∧ (t.mbs[p]).pulses = 0 ∧ (t.mbs[p]).pwren = true))))
  ∧ ((∀ (s : State) (p : Fin 2) (i : Fin 64) (reg : Byte) (d : List Byte), s.mbRuns p = true → (s.gaz[i]).valid = true →
        (s.gaz[i]).port = decide (p.val = 1) → s.switchWaits p = false → s.xfer.done = false → s.xfer.entry = i →
        s.xfer.reg = reg → s.xfer.len = d.length → 1 ≤ d.length → d.length ≤ 32 →
        (s.xfer.write = false →
          Completes (.read p i reg d.length (.answered (d ++ mbCrc d))) s (fun t => t.xfer = { s.xfer with done := true, result := 0 }
            ∧ (t.gaz[i]).misses = 0
            ∧ t.emitted = .mb p ([0xA5#8] ++ beBytes 8 (s.gaz[i]).ident.toNat ++ [reg, byte d.length]) :: s.emitted)
          ∧ Completes (.read p i reg d.length .noTarget) s (fun t => t.xfer = { s.xfer with done := true, result := 1 }
            ∧ (t.gaz[i]).misses = Nat.min 15 ((s.gaz[i]).misses + 1)
            ∧ (2 ≤ (s.gaz[i]).misses → (t.gaz[i]).state = 2)))
        ∧ (s.xfer.write = true → d = s.xferBytes d.length →
          Completes (.write p i reg d (.answered [0x3C])) s (fun t => t.xfer = { s.xfer with done := true, result := 0 }
            ∧ ∀ f, f = [0x5A#8] ++ beBytes 8 (s.gaz[i]).ident.toNat ++ [reg, byte d.length] ++ d →
                t.emitted = .mb p (f ++ mbCrc f) :: s.emitted)
          ∧ (∀ a : Byte, a ≠ 0x3C → a ≠ 0xFF → Completes (.write p i reg d (.answered [a])) s (fun t =>
            t.xfer = { s.xfer with done := true, result := 3 }))))
    ∧ (∀ (s : State) (p : Path) (v : Word) (i : Fin 64) (m : Fin 2), s.keeps p .modbus 0 0x60 = true → bitOf v 31 = true →
        i.val = bitsOf v 29 24 → m = (s.gaz[i]).mb →
        (s.xfer.done = false → exec (.go p v) s = .next { s with xfer := { s.xfer with result := 7 } })
        ∧ (s.xfer.done = true → (s.gaz[i]).valid = true → s.mbRuns m = true →
          exec (.go p v) s = .next { s with xfer := ⟨false, 0, v &&& 0xFFFF003F⟩ })
        ∧ (s.xfer.done = true → (s.gaz[i]).valid = false →
          exec (.go p v) s = .next { s with xfer := ⟨true, 1, v &&& 0xFFFF003F⟩ }))
    ∧ (∀ (s : State) (i : Fin 64) (hi lo : Byte) (st : MbEnd), s.ovenEntry = some i → s.mbRuns (s.gaz[i]).mb = true →
        s.switchWaits (s.gaz[i]).mb = false → s.xferOn (s.gaz[i]).mb = false → s.since s.oven.readAt secTicks = true →
        s.oven.statusOwed = false →
        Completes (.ovenRead (.answered ([hi, lo] ++ mbCrc [hi, lo])) st) s (fun t => t.oven.temp = (hi ++ lo).toInt
          ∧ t.oven.tempModule = true ∧ t.oven.tempAt = s.tick ∧ t.oven.tempLost = false))
    ∧ (∀ (s : State) (x : BitVec 16), s.coreUp = true →
        (s.ovenEntry = none → exec (.dieSensorReading x) s = .next (s.modOven (fun o =>
          { o with temp := x.toInt, tempModule := false, tempAt := s.tick, tempLost := false })))
        ∧ (s.ovenEntry.isSome = true → exec (.dieSensorReading x) s = .next s))
    ∧ (∀ (s : State) (p : Fin 2), bitOf (s.mbCfgWord p) 31 = true → bitOf (s.mbCfgWord p) 29 = true →
        (∀ floor : BitVec 64, Completes (.peerTargetFrame p ⟨[0xC3#8] ++ beBytes 8 floor.toNat, none⟩) s
          (fun t => t.emitted = (if floor.toNat < peerIdent.toNat then
                .mbTarget p ((List.range 64).map (fun i => !(peerIdent.getLsbD (63 - i)))) false :: s.emitted else s.emitted)
            ∧ t.regs = s.regs ∧ t.gaz = s.gaz))
        ∧ (∀ (floor : BitVec 64) (k : Nat), floor.toNat < peerIdent.toNat → k < 64 → peerIdent.getLsbD (63 - k) = true →
          Completes (.peerTargetFrame p ⟨[0xC3#8] ++ beBytes 8 floor.toNat, some k⟩) s (fun t => t.emitted
            = .mbTarget p ((List.range 64).map (fun i => decide (i < k) && !(peerIdent.getLsbD (63 - i)))) true :: s.emitted))
        ∧ Completes (.peerTargetFrame p ⟨[0xA5#8] ++ beBytes 8 peerIdent.toNat ++ [0#8, 8#8], none⟩) s (fun t =>
            t.emitted = .mb p (beBytes 8 Config.devId.toNat ++ mbCrc (beBytes 8 Config.devId.toNat)) :: s.emitted
              ∧ t.regs = s.regs ∧ t.gaz = s.gaz)))

/-- The scrubber, error thresholds, the spare bank, the archive's refresh and protection (R355, R362 to R366, R372,
R374). The model's choices in its clauses: log entries 84 to 86, 88, 134, 157 and 159. -/
def Obligations.MemoryIntegrity : Prop :=
  (∀ (s : State) (p : Fin 25) (l : Fin 24) (word : BitVec 19) (w : Nat), s.coreUp = true → w = p.val * 2 ^ 19 + word.toNat →
      s.mem.logical p = some l → packetBase ≤ l.val * 2 ^ 22 → s.mem.flaw w = 0 →
      (s.rb .memory 0 0 27 = true →
        Completes (.scrubVisit p word 1) s (fun t => t.mem.flaw w = 0 ∧ t.mem.remap = s.mem.remap
          ∧ ∀ v < 4, bitsOf (t.rcWord (key .memory 0 (0x80 + 4 * p.val)) v) 31 16
            = satAdd 16 (bitsOf (s.rcWord (key .memory 0 (0x80 + 4 * p.val)) v) 31 16) 1)
        ∧ Completes (.scrubVisit p word 2) s (fun t => t.mem.remap = s.mem.remap
          ∧ ∀ v < 4, bitsOf (t.rcWord (key .memory 0 (0x80 + 4 * p.val)) v) 15 8
            = satAdd 8 (bitsOf (s.rcWord (key .memory 0 (0x80 + 4 * p.val)) v) 15 8) 1))
      ∧ (s.rb .memory 0 0 27 = false → ∀ u, exec (.scrubVisit p word u) s = .next s))
  ∧ (∀ (s : State) (p : Fin 25), s.coreUp = true →
      (s.mem.ceAt[p] < s.rf .memory 0 8 15 0 → exec (.ceThreshCheck p) s
        = .next { s with mem := { s.mem with ceAt := s.mem.ceAt.set p 0 } })
      ∧ (s.rf .memory 0 8 15 0 ≤ s.mem.ceAt[p] → s.mem.testBank = none ∨ s.mem.testBank = some p →
        (s.fm.blks[(0x58 : Fin 128)]).st ≠ .testing → s.fm.waiting.length < 64 →
        Completes (.ceThreshCheck p) s (fun t => t.mem.ceAt[p] = 0 ∧ t.fm.waiting.any (fun e => decide (e.1 = 0x58)) = true
          ∧ t.mem.testBank = some p))
      ∧ (∀ q, s.rf .memory 0 8 15 0 ≤ s.mem.ceAt[p] → s.mem.testBank = some q → q ≠ p → p ∉ s.mem.bankWait →
        Completes (.ceThreshCheck p) s (fun t => t.mem.ceAt[p] = 0 ∧ t.mem.bankWait = s.mem.bankWait ++ [p]
          ∧ t.fm.waiting = s.fm.waiting)))
  ∧ (∀ s : State, s.coreUp = true →
      exec (.spareTest true) s = .next s
      ∧ (s.rb .memory 0 0 27 = true → s.mem.spareUsed = false → s.mem.mirror = none →
        Completes (.spareTest false) s (fun t => t.mem.spareBad = true)))
  ∧ (∀ (s : State) (p : Fin 25) (l : Fin 24), s.coreUp = true → s.mem.mirror = some p → s.mem.retiring = true → s.mem.logical p = some l →
      s.mem.wf = true → Completes .memRemap s (fun t => t.mem.remap = s.mem.remap.set l 24 ∧ t.mem.mirror = none
        ∧ t.mem.spareUsed = true
        ∧ (l.val ≠ 23 → s.mem.remap[23] ≠ 24 → ∀ o < 2 ^ 22, t.mem.byte (l.val * 2 ^ 22 + o) = s.mem.byte (l.val * 2 ^ 22 + o))))
  ∧ (∀ (s : State) (word : BitVec 18), s.rb .archive 0 0 29 = true →
      (∀ weak, Completes (.archiveRefresh word weak true) s (fun t => t.r .archive 0 0x10
          = BitVec.ofNat 32 (satAdd 32 (s.r .archive 0 0x10).toNat 1) ∧ t.r .archive 0 0x0C = s.r .archive 0 0x0C
          ∧ t.arch.badIn (8 * word.toNat) 8 = true))
      ∧ (s.arch.badIn (8 * word.toNat) 8 = true → ∀ weak bad, Completes (.archiveRefresh word weak bad) s (fun t =>
          t.arch = s.arch ∧ t.r .archive 0 0x10 = BitVec.ofNat 32 (satAdd 32 (s.r .archive 0 0x10).toNat 1)))
      ∧ (s.arch.badIn (8 * word.toNat) 8 = false → Completes (.archiveRefresh word true false) s (fun t => t.r .archive 0 0x0C
          = BitVec.ofNat 32 (satAdd 32 (s.r .archive 0 0x0C).toNat 1) ∧ t.r .archive 0 0x10 = s.r .archive 0 0x10)))
  ∧ (∀ (s : State) (p : Path) (v : Word), s.keeps p .archive 0 0 = true →
      Completes (.protectWrite p v) s (fun t => t.r .archive 0 0 &&& 0x2000FFFF = v &&& 0x2000FFFF
        ∧ (s.rf .archive 0 0 31 30 ≤ bitsOf v 31 30 ∨ s.boot.mode = .recovery → t.rf .archive 0 0 31 30 = bitsOf v 31 30)
        ∧ (bitsOf v 31 30 < s.rf .archive 0 0 31 30 → s.boot.mode ≠ .recovery → t.rf .archive 0 0 31 30 = s.rf .archive 0 0 31 30)))

/-! ## Faults, the benchmark, power, resets, start-up -/

/-- Reports, self-tests, UNRETIRE, RETIRE_BANK, the datum reload, the checkpoint, the benchmark scan, shedding,
FW_SWAP (R364, R366, R377 to R383, R385, R386, R388). The model's choices in its clauses: log entries 89 to 91, 94,
95, 153, 158 and 159. -/
def Obligations.FaultsAndLiveService : Prop :=
  (∀ (s : State) (i : Fin 128) (cause : BitVec 4), s.coreUp = true →
      (blockListed i.val = true → s.fm.waiting = [] → (s.fm.blks[i]).st = .inService → s.lolOnly i.val cause.toNat = false →
        Completes (.faultReport i cause) s (fun t => (t.fm.blks[i]).st = .testing ∧ (t.fm.blks[i]).cause = cause))
      ∧ (blockListed i.val = false → exec (.faultReport i cause) s = .next s))
  ∧ (∀ (s : State) (i : Fin 128), s.coreUp = true →
      ((s.fm.blks[i]).st = .testing → ((s.fm.blks[i]).lastDay s.tick).length ≤ 1 →
        Completes (.selfTestDone i true) s (fun t => (t.fm.blks[i]).outcome = 1
          ∧ ((s.fm.blks[i]).shared = false ∨ ((s.fm.blks[i]).unret = true ∧ i.val < 12) → (t.fm.blks[i]).st = .inService)))
      ∧ ((s.fm.blks[i]).st = .testing → Completes (.selfTestDone i false) s (fun t => (t.fm.blks[i]).outcome = 2
        ∧ ((s.fm.blks[i]).unret = true ∧ (i.val < 12 ∨ i.val = 0x58) →
          (t.fm.blks[i]).st = (if (s.fm.blks[i]).shared then .retired else .inService))
        ∧ (¬((s.fm.blks[i]).unret = true ∧ (i.val < 12 ∨ i.val = 0x58)) →
          (t.fm.blks[i]).st = (if s.partOf i.val ∧ (s.fm.blks[i]).shared = false then .inService else .retired))
        ∧ ∀ e : Fin 8, i.val = 0x52 + e.val / 4 → (t.engines[e]).run = .fault))
      ∧ (∀ d : Fin 108, (i.val, d.val) ∈ [(0x50, 7), (0x51, 2), (0x11, 3), (0x12, 4), (0x52, 8), (0x53, 9)] →
        (s.fm.blks[i]).st = .testing → (s.fm.blks[i]).cause = 0xA → (s.fm.blks[i]).shared = false →
        ((s.fm.blks[i]).lastDay s.tick).length ≤ 1 → s.domOn[d] = true →
        Completes (.selfTestDone i true) s (fun t => t.domOn[d] = false ∧ t.domRising[d] = true))
      ∧ (∀ pass, (s.fm.blks[i]).st ≠ .testing → exec (.selfTestDone i pass) s = .next s))
  ∧ (∀ (s : State) (isl : Fin 2), s.coreUp = true →
      (s.reloadDue[isl] = true → s.blkUp (0x13 + isl.val) = true → ∀ m : Fin 2,
        (s.blkUp 0x52 = true ∧ m = 0 ∨ s.blkUp 0x52 = false ∧ s.blkUp 0x53 = true ∧ m = 1) →
        Completes (.datumReload isl) s (fun t => s.datUp isl = false ∧ t.datUp isl = true
          ∧ ∀ d : Fin 8, (d.val / 4 = isl.val → (t.datums[d]).clk = (s.datums[d]).mirs[m]) ∧ (t.datums[d]).mirs = (s.datums[d]).mirs
            ∧ (t.datums[d]).lastStep = (s.datums[d]).lastStep))
      ∧ (s.reloadDue[isl] = false ∨ s.blkUp (0x13 + isl.val) = false → exec (.datumReload isl) s = .next s))
  ∧ (∀ (s : State) (p : Path), s.keeps p .fault 0 4 = true →
      (∀ i : Fin 128, s.boot.mode = .test → (s.fm.blks[i]).st = .retired → Completes (.unretire p i) s (fun t =>
        (t.fm.blks[i]).st = .testing))
      ∧ (∀ i : Fin 128, s.boot.mode = .test → (s.fm.blks[i]).st = .inService → s.partRetired i.val = true →
        Completes (.unretire p i) s (fun t => (t.fm.blks[i]).st = .testing))
      ∧ (∀ i : Fin 128, s.boot.mode ≠ .test ∨ (s.fm.blks[i]).st = .testing
          ∨ ((s.fm.blks[i]).st = .inService ∧ s.partRetired i.val = false) → Completes (.unretire p i) s (fun t =>
        t.fm = s.fm ∧ t.rf .fault 0 8 15 0 = satAdd 16 (s.rf .fault 0 8 15 0) 1))
      ∧ (∀ b : Fin 24, s.mem.spareUsed = false → s.mem.spareBad = false → s.mem.mirror = none →
        Completes (.retireBank p (byte b.val)) s (fun t => t.mem.retiring = true ∧ t.mem.mirror = some (Fin.castLE (by decide) b)))
      ∧ (∀ b : Byte, s.mem.spareUsed = true ∨ 24 ≤ b.toNat → Completes (.retireBank p b) s (fun t =>
        t.mem = s.mem ∧ t.rf .fault 0 8 15 0 = satAdd 16 (s.rf .fault 0 8 15 0) 1)))
  ∧ (∀ (s : State) (n : Fin 16), s.coreUp = true →
      (s.blkUp (0x11 + n.val % 2) = false → exec (.holdoverCheckpoint n) s = .next s)
      ∧ (s.blkUp (0x11 + n.val % 2) = true → (s.loops[n]).ckptAt ≠ some (s.loops[n]).tally.now.sec.toNat → exec (.holdoverCheckpoint n) s
        = .next (s.modLoop n (fun l => { l with ckpt := l.est, ckptAt := some l.tally.now.sec.toNat })))
      ∧ ((s.loops[n]).ckptAt = some (s.loops[n]).tally.now.sec.toNat → exec (.holdoverCheckpoint n) s = .next s))
  ∧ (∀ s : State, s.coreUp = true →
      (s.ticking = false → exec .benchmarkScan s = .next s)
      ∧ (∀ dg : BitVec 256, s.ticking = true →
        (∀ k ∈ coveredKeys, ∀ pl, placeOfKey k = some pl → s.reg k &&& pl.cover = (mapGet s.shadow k).getD (resetWord k) &&& pl.cover) →
        (∀ n < 16, s.namedWords n = s.namedShadow n) →
        dg = sha256 (beBytes 2 (s.rf .benchmark 0 8 15 0) ++ (List.range 16).flatMap (fun n =>
          beBytes 32 (if (s.rf .benchmark 0 8 15 0).testBit n then (s.sheetDigest n).toNat else 0))) →
        Completes .benchmarkScan s (fun t => t.wide .benchmark 0 0x20 8 = dg.toNat
          ∧ t.r .benchmark 0 0x0C = (if dg.toNat = s.wide .benchmark 0 0x20 8 then s.r .benchmark 0 0x0C else s.r .benchmark 0 0x0C + 1)
          ∧ t.r .benchmark 0 0x10 = s.r .benchmark 0 0x10))
      ∧ (s.ticking = true → Completes .benchmarkScan s (fun t => ∀ n ∈ [5, 6, 8, 14, 15], t.namedWords n = s.namedShadow n)))
  ∧ (∀ (s : State) (load : Nat), s.coreUp = true → s.boot.stewardUp = true →
      (s.rf .device 0 0x804 15 8 < Nat.min 100 load →
        Completes (.stewardShed load) s (fun t => t.stewLoad = Nat.min 100 load ∧ t.shedHot = true
          ∧ (s.shedLevel = 0 → t.shedLevel = 1) ∧ (s.shedLevel = 1 → s.shedHot = true → t.shedLevel = 2)
          ∧ (s.shedLevel = 1 → s.shedHot = false → t.shedLevel = 1)))
      ∧ (Nat.min 100 load ≤ s.rf .device 0 0x804 7 0 → s.rf .device 0 0x804 7 0 < s.rf .device 0 0x804 15 8 →
        Completes (.stewardShed load) s (fun t => t.stewLoad = Nat.min 100 load ∧ t.shedHot = false
          ∧ (s.shedRun < 9 → t.shedLevel = s.shedLevel)
          ∧ (9 ≤ s.shedRun → s.shedLevel ≠ 0 → t.shedLevel = s.shedLevel - 1))))
  ∧ (∀ (s : State) (p : Path), s.keeps p .device 0 0x808 = true →
      Completes (.fwSwap p true) s (fun t => t.boot.stewardUp = false ∧ t.boot.fwOk = true ∧ t.boot.fwHost = false
        ∧ t.boot.awaitHost = false ∧ t.boot.recovWhy = s.boot.recovWhy &&& 7
        ∧ (∃ k, t.boot.fwRestart = some (s.tick + BitVec.ofNat 64 k) ∧ k ≤ 250 * msTicks)
        ∧ t.boot.fwSlot = if s.boot.fwHost then s.boot.fwSlot else !s.boot.fwSlot)
      ∧ Completes (.fwSwap p false) s (fun t => t.boot.stewardUp = false ∧ t.boot.fwOk = s.boot.fwOk
        ∧ t.boot.fwHost = s.boot.fwHost ∧ t.boot.fwSlot = s.boot.fwSlot ∧ t.boot.recovWhy = s.boot.recovWhy
        ∧ ∃ k, t.boot.fwRestart = some (s.tick + BitVec.ofNat 64 k) ∧ k ≤ 250 * msTicks))
  ∧ (∀ (s : State) (k : DWord), s.coreUp = true → s.ticking = true → s.boot.fwRestart = some k → s.boot.fwOk = true →
      s.blkUp 0x5C = true → (∀ e ∈ s.fm.waiting, e.1.val ≠ 0x5C) → k.toNat ≤ s.tick.toNat → Completes .datumTick s (fun t =>
        t.boot.fwRestart = none ∧ t.boot.stewardUp = true))

/-- Power domains, supplies, resets and reset release (R24, R376, R382, R389 to R395, R403, R445). The model's
choices in its clauses: log entries 5, 97, 98, 102, 103, 150, 155 and 161. -/
def Obligations.PowerAndResets : Prop :=
  (∀ (s : State) (p : Path) (d : Fin 108), s.keeps p .power 0 (4 * (d.val / 32)) = true → domCtl d.val = .keeper →
      (s.domReq d = true → s.domIdle d.val = true → Completes (.domainPowerDown p d) s (fun t => t.domOn[d] = false
        ∧ t.domReq d = false ∧ ∀ e : Fin 108, e ≠ d → t.domOn[e] = s.domOn[e]))
      ∧ (s.domReq d = true → s.domIdle d.val = false → exec (.domainPowerDown p d) s = .next (s.rcCount .power 0 0x20 15 0))
      ∧ (s.domReq d = false → s.railOff d.val = false → Completes (.domainPowerUp p d) s (fun t => t.domRising[d] = true
        ∧ t.domReq d = true ∧ t.domOn = s.domOn))
      ∧ (s.domReq d = false → s.railOff d.val = true → exec (.domainPowerUp p d) s = .next (s.rcCount .power 0 0x20 15 0)))
  ∧ (∀ (s : State) (d : Fin 108), s.coreUp = true →
      (s.domRising[d] = true → Completes (.domainRelease d) s (fun t => t.domOn[d] = true ∧ t.domRising[d] = false))
      ∧ (s.domRising[d] = false → exec (.domainRelease d) s = .next s)
      ∧ (∀ b, domBlock d.val = some b → ∀ i : Fin 128, i.val = b → (s.fm.blks[i]).st ≠ .testing → s.fm.waiting.length < 64 →
        (83 ≤ d.val → ∀ q, s.mem.testBank = some q → q.val = d.val - 83) →
        Completes (.supply d) s (fun t => t.fm.waiting.any (fun e => decide (e.1 = i)) = true ∧ t.domOn = s.domOn))
      ∧ (∀ q p : Fin 25, p.val = d.val - 83 → 83 ≤ d.val → s.mem.testBank = some q → q ≠ p →
        Completes (.supply d) s (fun t => p ∈ t.mem.bankWait ∧ t.mem.testBank = some q ∧ t.fm.waiting = s.fm.waiting
          ∧ t.domOn = s.domOn)))
  ∧ (∀ (s : State) (g : Fin 12), s.coreUp = true →
      ((s.groups[g]).supplyHeld = true → ∀ within, exec (.svSupplyMismatch g within) s
        = .next (s.modGroup g (fun q => { q with supplyBack := within })))
      ∧ ((s.groups[g]).supplyHeld = false → exec (.svSupplyMismatch g true) s = .next s
        ∧ Completes (.svSupplyMismatch g false) s (fun t => (t.groups[g]).supplyHeld = true
          ∧ ∀ ch : Fin 192, (t.chans[ch]).drv = (s.chans[ch]).drv ∧ (t.chans[ch]).level = (s.chans[ch]).level)))
  ∧ (∀ (s : State) (st : Straps),
      Completes (.standbyPowerOn st) s (fun t => t.coreUp = false ∧ t.tick = 0 ∧ t.ticking = false
        ∧ (s.boot.mode = .boot → t.regs = [] ∧ t.mem = Memory.reset ∧ t.notices.srcs = [])
        ∧ (s.boot.mode ≠ .boot → t.notices.srcs.map (fun e => (e.id, e.outPos)) = [(0x0802, some 0)]
          ∧ t.r .notice 0 4 = 1)
        ∧ ((∀ p, (s.path p).indBusy = none) → t.arch.cells = s.arch.cells)
        ∧ t.boot.straps.sbKeeper = st.sbKeeper ∧ t.boot.straps.sbAddr = st.sbAddr
        ∧ t.pending = s.pending ∧ t.boot.rcause = 0)
      ∧ (s.coreUp = true → Completes .railOutOfRange s (fun t => t.coreUp = false ∧ t.boot.rcause = 1 ∧ t.tick = 0
          ∧ t.arch.cells = s.arch.cells ∧ t.mbs = s.mbs.map MbPort.unclocked ∧ t.gaz = s.gaz)
        ∧ Completes .resetN s (fun t => t.coreUp = false ∧ t.boot.rcause = 2 ∧ t.tick = 0
          ∧ t.arch.cells = s.arch.cells ∧ t.mbs = s.mbs.map MbPort.unclocked ∧ t.gaz = s.gaz))
      ∧ (s.coreUp = false → s.oven.oscLost = false → Completes (.resetRelease st) s (fun t => t.coreUp = true ∧ t.boot.straps.bootHost = st.bootHost
          ∧ t.boot.straps.recovN = st.recovN ∧ t.boot.straps.oscSel = st.oscSel ∧ t.boot.straps.sbAddr = s.boot.straps.sbAddr
          ∧ (s.synRetired 8 = false → (t.syns[(8 : Fin 9)]).phase = .locking ∧ (t.syns[(8 : Fin 9)]).seqOn = true)))
      ∧ (s.coreUp = true → exec (.resetRelease st) s = .next s)
      ∧ (s.coreUp = false → s.tickInv → s.oven.oscLost = true → exec (.resetRelease st) s = .next s)
      ∧ (s.coreUp = true → exec .trstN s = .next s))
  ∧ (∀ (s : State) (p : Path), s.keeps p .device 0 4 = true →
      (s.boot.resetArm = none → exec (.resetCore p) s = .next (s.modBoot (fun b => { b with resetArm := some s.tick })))
      ∧ (∀ k, s.boot.resetArm = some k → s.passed k (msTicks + 1) = true →
        exec (.resetCore p) s = .next (s.modBoot (fun b => { b with resetArm := some s.tick })))
      ∧ (∀ k, s.boot.resetArm = some k → s.passed k (msTicks + 1) = false →
        Completes (.resetCore p) s (fun t => t.coreUp = false ∧ t.boot.rcause = 3 ∧ t.tick = 0)))

/-- The start sheet, the firmware, the modes (R396 to R402, R405, R455). The model's choices in its clauses: log
entries 71, 95, 99, 100, 132 and 152. -/
def Obligations.StartSheetFirmwareAndModes : Prop :=
  (∀ (s : State) (a v us : Word), s.coreUp = true →
      (s.sheetLive = true →
        (∀ w t, s.recordIs (writeRec a v) = true → w = s.pastRecord (writeRec a v) →
          t = w.hubWrite .stw a.toNat 0xFFFFFFFF v false none → Completes (.sheetWrite a v) s (fun u =>
          u.loops = t.loops ∧ u.datums = t.datums ∧ u.chans = t.chans ∧ u.ports = t.ports ∧ u.boot = t.boot
          ∧ u.rf .device 0 0x20 31 16 = (if w.refuses (fun s => s.hubWrite .stw a.toNat 0xFFFFFFFF v false none)
              then satAdd 16 (t.rf .device 0 0x20 31 16) 1 else t.rf .device 0 0x20 31 16)))
        ∧ (s.recordIs (indRec a v) = true →
          (a.toNat < 0x10000 → Completes (.sheetInd a v) s (fun t => (t.path .stw).noreg = true
            ∧ (t.path .stw).indAddr = BitVec.ofNat 32 (a.toNat + 4) ∧ t.boot.sheetPos = s.boot.sheetPos + 12))
          ∧ (∀ (src : Fin 96) (off : Nat), off ∈ [0x08, 0x0C, 0x10, 0x14, 0x18, 0x20, 0x24] →
            a.toNat = 0x10000 + 0x40 * src.val + off → s.placeDown ⟨.mon, src.val, off⟩ = false →
            s.r .mon src.val off &&& ~~~((Place.mk .mon src.val off).reg.rw ||| (Place.mk .mon src.val off).reg.rwk) = 0 →
            Completes (.sheetInd a v) s (fun t => t.r .mon src.val off = v &&& (Place.mk .mon src.val off).reg.rwk
              ∧ (t.path .stw).indAddr = a + 4 ∧ t.boot.sheetPos = s.boot.sheetPos + 12 ∧ t.mem = s.mem))
          ∧ (∀ x : Nat, a.toNat = 0x02080000 + x → x < 0x80000 → x % 4 = 0 → s.protection = 2 →
            s.arch.badIn (0x80000 + x) 4 = false → Completes (.sheetInd a v) s (fun t => (t.path .stw).indAddr = a + 4
              ∧ ∀ i < 4, (mapGet t.arch.cells (0x80000 + x + i)).getD 0 = (beBytes 4 v.toNat).getD i 0)))
        ∧ (∀ (k x : Byte) (sw : Bool) (im : List Byte), s.recordIs (imageRec k x sw im) = true → 3 ≤ k.toNat →
          exec (.sheetImage k x sw im) s = .next ((s.pastRecord (imageRec k x sw im)).count .device 0 0x20 31 16))
        ∧ (∀ (e : Fin 8) (im : List Byte), s.recordIs (imageRec 0 (byte e.val) false im) = true → s.domUp (8 + e.val / 4) = true →
          (s.engines[e]).prog.phase = .idle → im.length < 0x20000 →
          Completes (.sheetImage 0 (byte e.val) false im) s (fun t => (t.engines[e]).prog.phase = .verifying
            ∧ t.r .engine e.val 4 = BitVec.ofNat 32 stewardBase))
        ∧ (s.recordIs (waitRec us) = true → exec (.sheetWait us) s = .next (s.modBoot (fun b => { b with
          sheetPos := b.sheetPos + 8, sheetFrom := s.tick + BitVec.ofNat 64 ((us.toNat * 3125 + 3) / 4) }))))
      ∧ (s.sheetLive = false ∨ s.recordIs (writeRec a v) = false → exec (.sheetWrite a v) s = .next s)
      ∧ (s.sheetLive = false ∨ s.recordIs (indRec a v) = false → exec (.sheetInd a v) s = .next s)
      ∧ (s.sheetLive = false ∨ s.recordIs (waitRec us) = false → exec (.sheetWait us) s = .next s)
      ∧ (∀ k x sw im, s.sheetLive = false ∨ s.recordIs (imageRec k x sw im) = false → exec (.sheetImage k x sw im) s = .next s))
  ∧ (∀ s : State, s.coreUp = true → s.ticking = true → s.boot.sheetDone = false →
      s.planLocking = false →
      (s.boot.sheet.valid = false → ∀ k, exec (.sheetEnd k) s = .next (s.modBoot (fun b => { b with sheetDone := true })))
      ∧ (s.sheetLive = true → (s.sheetKind = 0 → exec (.sheetEnd 0) s = .next (s.modBoot (fun b => { b with sheetDone := true })))
        ∧ ∀ k : Byte, 5 ≤ k.toNat → s.sheetKind = k.toNat → Completes (.sheetEnd k) s (fun t => t.boot.sheetDone = true
          ∧ t.rf .device 0 0x20 31 16 = satAdd 16 (s.rf .device 0 0x20 31 16) 1)))
  ∧ (∀ (s : State) (ok0 ok1 : Bool), s.coreUp = true →
      (s.boot.sheetDone = false ∨ s.boot.fwOk = true ∨ s.boot.awaitHost = true ∨ s.blkUp 0x5C = false →
        exec (.firmwareBoot ok0 ok1) s = .next s)
      ∧ (s.boot.sheetDone = true → s.boot.fwOk = false → s.boot.awaitHost = false → s.blkUp 0x5C = true →
        (s.boot.straps.bootHost = true → exec (.firmwareBoot ok0 ok1) s
          = .next (s.modBoot (fun b => { b with awaitHost := true, awaitAt := s.tick })))
        ∧ (s.boot.straps.bootHost = false → ∀ first : Bool, s.arch.activeSlot = first →
          ((if first then ok1 else ok0) = true → Completes (.firmwareBoot ok0 ok1) s (fun t =>
            t.boot = s.boot.fromSlot first ∧ t.emitted = .qspi 0xEC (if first then 0x400000 else 0) :: s.emitted))
          ∧ ((if first then ok1 else ok0) = false → Completes (.firmwareBoot ok0 ok1) s (fun t =>
            t.boot = (if (if first then ok0 else ok1) then s.boot.fromSlot (!first)
              else { s.boot with awaitHost := true, awaitAt := s.tick })
            ∧ t.emitted = .qspi 0xEC (if first then 0 else 0x400000) :: .qspi 0xEC (if first then 0x400000 else 0) :: s.emitted)))))
  ∧ (∀ s : State, s.coreUp = true → s.boot.awaitHost = true →
      (s.boot.sheetDone = true → bitsOf (s.r .access 0 0x100) 7 0 = 0x13 → s.blkUp 0x5C = true →
        Completes (.hostFirmwareDoorbell true) s (fun t =>
          t.boot.stewardUp = true ∧ t.boot.fwHost = true ∧ t.boot.awaitHost = false ∧ bitOf t.dbIn 0 = true)
        ∧ Completes (.hostFirmwareDoorbell false) s (fun t => t.boot = s.boot ∧ bitOf t.dbIn 0 = true))
      ∧ (s.passed s.boot.awaitAt (10 * secTicks) = true → Completes .hostFirmwareTimeout s (fun t =>
        t.boot.recovWhy = s.boot.recovWhy ||| 8
          ∧ t.boot.mode = (if s.boot.mode = .boot ∧ s.boot.sheetDone = true then .recovery else s.boot.mode)))
      ∧ (s.passed s.boot.awaitAt (10 * secTicks) = false → exec .hostFirmwareTimeout s = .next s))
  ∧ (∀ s : State, s.coreUp = true → s.boot.mode = .boot → s.boot.sheetDone = true →
      (s.recovNow ≠ 0 ∨ s.boot.sheet.valid = false → Completes .bootComplete s (fun t => t.boot.mode = .recovery))
      ∧ (s.recovNow = 0 → s.boot.sheet.valid = true → s.boot.stewardUp = true → s.snapBusy = false →
        Completes .bootComplete s (fun t => t.boot.mode = .service))
      ∧ (s.recovNow = 0 → s.boot.sheet.valid = true → s.boot.stewardUp = true → s.snapBusy = true →
        exec .bootComplete s = .next (s.modBoot (fun b => { b with serviceWait := true })))
      ∧ (s.recovNow = 0 → s.boot.sheet.valid = true → s.boot.stewardUp = false → exec .bootComplete s = .next s))
  ∧ (∀ (s : State) (p : Path), s.keeps p .device 0 4 = true →
      (s.boot.mode = .service → Completes (.modeGo p 1) s (fun t => t.boot.mode = .test)
        ∧ Completes (.modeGo p 3) s (fun t => t.boot.mode = .recovery))
      ∧ (s.boot.mode = .test → s.snapBusy = false → Completes (.modeGo p 2) s (fun t => t.boot.mode = .service))
      ∧ (s.boot.mode = .recovery → s.recovNow = 0 → s.boot.stewardUp = true → s.snapBusy = false →
        Completes (.modeGo p 2) s (fun t => t.boot.mode = .service))
      ∧ (∀ x : BitVec 2, s.boot.mode = .boot ∨ x = 0 → exec (.modeGo p x) s = .next (s.count .device 0 0x24 15 0)))
  ∧ (∀ s : State, s.tapPermits .idcode = true ∧ s.tapPermits .bypass = true
      ∧ (s.tapPermits .extest = true ↔ s.boot.mode = .test) ∧ (s.tapPermits .other = true ↔ s.boot.mode = .test))

/-! ## The whole block -/

/-- A step runs the command at the front of the queue on the rest of it; with none waiting the block idles. The
model's choice in its clauses: log entry 2. -/
def Obligations.StepRunsTheFrontCommand : Prop :=
  (∀ (s : State) (c : Instr) (rest : List Instr), s.pending = c :: rest → step s = exec c { s with pending := rest })
  ∧ (∀ s : State, s.pending = [] → step s = .next s)

/-- Every command completes in every state, and leaves the commands behind it waiting (R29, R292, R316, R330: what
cannot act is ignored, counted or reported; nothing stops the block). The model's choices in its clauses: log
entries 2, 4 and 5. -/
def Obligations.EveryCommandAnswersAndKeepsTheQueue : Prop :=
  ∀ (c : Instr) (s : State), ∃ t, exec c s = .next t ∧ t.pending = s.pending

/-- What reset leaves: the tick not started and at 0, SYNB in its lock sequence, BOOT, an empty queue, every
register at its reset value, the memory in canonical form, the tick invariant (R14, R105, R140, R354, R393, R395,
R402, R404). The model's choices in its clauses: log entries 1, 2, 8 and 98. -/
def Obligations.ResetState : Prop :=
  State.reset.pending = [] ∧ State.reset.ticking = false ∧ State.reset.tick = 0 ∧ State.reset.tickInv
  ∧ (State.reset.syns[(8 : Fin 9)]).phase = .locking ∧ (∀ y : Fin 8, (State.reset.syns[y.castSucc]).phase = .off)
  ∧ State.reset.boot.mode = .boot ∧ (∀ (b : Block) (i o : Nat), State.reset.r b i o = resetWord (key b i o))
  ∧ (∀ (k v : Nat), State.reset.rcWord k v = 0)
  ∧ (∀ d : Fin 8, (State.reset.datums[d]).clk = Clock.reset ∧ (State.reset.datums[d]).set = false)
  ∧ (∀ n : Fin 16, (State.reset.loops[n]).code = .freeRun) ∧ State.reset.mem.wf = true ∧ State.reset.arch.wf = true
  ∧ (∀ a : Nat, State.reset.mem.byte a = 0)

/-- Every step keeps every island's tick index equal to the device's, and a held core at tick 0 (R14, R380). The
model's choice in its clauses: log entry 2. -/
def Obligations.EveryStepKeepsTheTickIndices : Prop :=
  ∀ s t : State, s.tickInv → step s = .next t → t.tickInv

/-- Every step keeps the memory and the archive in their canonical form (R353, R367). -/
def Obligations.EveryStepKeepsMemoryCanonical : Prop :=
  ∀ s t : State, s.mem.wf = true → s.arch.wf = true → step s = .next t → t.mem.wf = true ∧ t.arch.wf = true

/-- While the core runs, only the datum tick, SYNB's first lock and its relock move the tick index (R14, R140,
R380). The model's choice in its clauses: log entry 3. -/
def Obligations.OnlyTheClockMovesTheTick : Prop :=
  ∀ (c : Instr) (s t : State), exec c s = .next t → t.coreUp = true → c ≠ .datumTick → (∀ band, c ≠ .synLock 8 band) →
    (∀ m, c ≠ .synbRelock m) → t.tick = s.tick ∧ t.islandTick = s.islandTick ∧ (t.ticking = true → s.ticking = true)

/-- A core held in reset stands still: only reset release brings it up, and until then no command moves the tick, a
datum clock, a loop, an engine, a survey channel or a byte of SRAM (R24, R393). The model's choices in its clauses:
log entries 5 and 97. -/
def Obligations.HeldCoreStandsStill : Prop :=
  ∀ (c : Instr) (s t : State), s.coreUp = false → s.tickInv → exec c s = .next t → (∀ st, c ≠ .resetRelease st) →
    t.coreUp = false ∧ t.tick = 0 ∧ t.ticking = false
    ∧ ((∀ st, c ≠ .standbyPowerOn st) → t.datums = s.datums ∧ t.loops = s.loops ∧ t.engines = s.engines ∧ t.chans = s.chans
      ∧ t.mem.cells = s.mem.cells)

/-- Frame: a command that is no register access and does not act on a path, the PCIe link, a mailbox, a doorbell,
the module bus or the start-up state leaves these as they are (R315, R317, R335, R338, R350, R393). -/
def Obligations.FrameOfHostSideAndService : Prop :=
  ∀ (c : Instr) (s t : State), throughRegisters c = false → exec c s = .next t →
    (touchesHostSide c = false → t.paths = s.paths ∧ t.linkUp = s.linkUp ∧ t.linkSpeed = s.linkSpeed ∧ t.linkWidth = s.linkWidth
      ∧ t.mboxes = s.mboxes ∧ t.dbOut = s.dbOut)
    ∧ (touchesService c = false → t.mbs = s.mbs ∧ t.gaz = s.gaz ∧ t.xfer = s.xfer ∧ t.boot = s.boot ∧ t.arch = s.arch
      ∧ t.shedLevel = s.shedLevel ∧ t.domRising = s.domRising)
    ∧ t.dbIn = s.dbIn ∧ t.snap = s.snap ∧ ((∀ band, c ≠ .synLock 8 band) → t.cartOk = s.cartOk)

/-- Frame: likewise for survey channels, statistics units, PTP sessions and instances, output banks, alignment lines
and the plan sheet (R158, R183, R205, R228, R243). -/
def Obligations.FrameOfMeasurementAndOutputs : Prop :=
  ∀ (c : Instr) (s t : State), throughRegisters c = false → exec c s = .next t →
    (touchesMeasurement c = false → t.chans = s.chans ∧ t.units = s.units ∧ t.sessions = s.sessions ∧ t.insts = s.insts)
    ∧ (touchesOutputs c = false → t.bankSrc = s.bankSrc ∧ t.bankHand = s.bankHand ∧ t.bankHeld = s.bankHeld
      ∧ t.lines = s.lines ∧ t.plan = s.plan)

/-- Frame: a command that raises nothing leaves every register, every counter, every byte of SRAM, the field book,
the notices and the fault manager as they are (R190, R200, R315, R377). -/
def Obligations.QuietCommandsLeaveRegistersAndMemory : Prop :=
  ∀ (c : Instr) (s t : State), isQuiet c = true → exec c s = .next t →
    t.regs = s.regs ∧ t.rc = s.rc ∧ (∀ a : Nat, t.mem.byte a = s.mem.byte a) ∧ t.mem = s.mem ∧ t.book = s.book
      ∧ t.notices = s.notices ∧ t.fm = s.fm ∧ t.funcs = s.funcs

/-! ## Small rules, whole -/

/-- R354: REMAP names the bank that serves, resets to the identity, is written by nothing but a retirement, and
survives every reset short of the standby power-on reset. -/
def Obligations.RemapBelongsToTheFaultManager : Prop :=
  (∀ (m : Memory) (l : Fin 24) (o : Nat), o < 2 ^ 22 → m.phys (l.val * 2 ^ 22 + o) = (m.remap[l]).val * 2 ^ 22 + o)
  ∧ (∀ l : Fin 24, (State.reset.mem.remap[l]).val = l.val)
  ∧ (∀ (c : Instr) (s t : State), exec c s = .next t → c ≠ .memRemap → (∀ st, c ≠ .standbyPowerOn st) →
      (∀ st, c ≠ .resetRelease st) → t.mem.remap = s.mem.remap)
  ∧ (∀ (s : State) (st : Straps), Completes (.standbyPowerOn st) s (fun t => t.mem.remap = State.reset.mem.remap)
      ∧ Completes (.resetRelease st) s (fun t => t.mem.remap = s.mem.remap
        ∨ (s.mem.spareUsed = false ∧ ∃ (p : Fin 25) (l : Fin 24), LogEntry.retireBank p ∈ s.arch.log
            ∧ s.mem.remap[l] = p ∧ t.mem.remap = s.mem.remap.set l 24)))
  ∧ (∀ s : State, s.coreUp = true → s.mem.mirror = none ∨ s.mem.retiring = false → exec .memRemap s = .next s)
  ∧ (∀ (s : State) (p : Path) (l : Fin 24), s.carries p = true → (s.path p).snapView = false →
      Completes (.rcRead p (BitVec.ofNat 32 (key .memory 0 (0x20 + 4 * l.val)))) s (fun t =>
        (t.path p).resp = .data (BitVec.ofNat 32 (s.mem.remap[l]).val)))

/-- A narrow write merges into its word, a corrected one too; into a word that cannot be corrected it is dropped, counted
and reported, and the word keeps its wrong check bits (R355 to R358, R364). That every page with more than t errors is
uncorrectable is the model's choice (log entry 85): R358 guarantees it up to 2t. First of the bank arbiter's write, then of
one byte through BAR2. -/
def Obligations.NarrowWriteToABadWordIsDropped : Prop :=
  (∀ (s : State) (a : Nat) (bs : List (Option Byte)), a % 8 = 0 → a < sramSize → bs.length = 8 → bs.any (·.isSome) = true →
    bs.any (·.isNone) = true →
    (s.mem.flaw (s.mem.phys a / 8) = 0 → (∀ i < 8, (s.writeWord a bs).mem.byte (a + i) = (bs.getD i none).getD (s.mem.byte (a + i)))
      ∧ (s.writeWord a bs).rc = s.rc)
    ∧ (s.mem.remap = Memory.reset.remap → a < noticeBase ∨ stewardBase ≤ a →
      (if isPaged a then s.mem.flaw (a / 8) ≠ 0 ∧ s.mem.pageFlaws (a / 1024) ≤ bchT (s.mem.tag (a / 1024)).toNat
        else s.mem.flaw (a / 8) = 1) →
      (∀ i < 8, (s.writeWord a bs).mem.byte (a + i) = (bs.getD i none).getD (s.mem.byte (a + i)))
      ∧ (s.writeWord a bs).mem.flaw (a / 8) = 0
      ∧ ∀ v < 4, bitsOf ((s.writeWord a bs).rcWord (key .memory 0 (0x80 + 4 * (a / 2 ^ 22))) v) 31 16
          = satAdd 16 (bitsOf (s.rcWord (key .memory 0 (0x80 + 4 * (a / 2 ^ 22))) v) 31 16) 1)
    ∧ ((if isPaged a then s.mem.flaw (s.mem.phys a / 8) ≠ 0
          ∧ bchT (s.mem.tag (s.mem.phys a / 8 / 128)).toNat < s.mem.pageFlaws (s.mem.phys a / 8 / 128)
        else s.mem.flaw (s.mem.phys a / 8) = 2) → s.writeWord a bs = s.memUe a (8 * (s.mem.phys a / 8))))
  ∧ (∀ (s : State) (f : Fin 2) (off : BitVec 27) (b : Byte) (w : Nat), s.carries (fnPath f) = true → s.tooEarly (fnPath f) = false →
      bar2Writable f off.toNat = true → w = s.mem.phys off.toNat / 8 → s.mem.remap = Memory.reset.remap →
      (s.mem.flaw w = 0 → Completes (.bar2Write f off [some b]) s (fun t => t.mem.byte off.toNat = b
        ∧ (∀ a, a ≠ off.toNat → t.mem.byte a = s.mem.byte a) ∧ t.mem.flaw w = 0 ∧ t.rc = s.rc))
      ∧ (s.mem.flaw w = 2 → (isPaged off.toNat = true → bchT (s.mem.tag (w / 128)).toNat < s.mem.pageFlaws (w / 128)) →
        Completes (.bar2Write f off [some b]) s (fun t =>
        (∀ i < 8, t.mem.byte (8 * w + i) = s.mem.byte (8 * w + i)) ∧ t.mem.flaw w = 2
        ∧ (∀ v < 4, bitsOf (t.rcWord (key .memory 0 (0x80 + 4 * (off.toNat / 2 ^ 22))) v) 15 8
            = satAdd 8 (bitsOf (s.rcWord (key .memory 0 (0x80 + 4 * (off.toNat / 2 ^ 22))) v) 15 8) 1)
        ∧ (s.notices.srcs.find? (fun e => decide (e.id = 0x0758)) = none → s.admits 1 = true →
            t.notices.srcs.any (fun e => decide (e.id = 0x0758) && decide (e.cls = 1) && decide (e.code = 0x5A)) = true))))

/-- R330: a register whose power domain is down reads 0 and ignores writes, and each access is counted. -/
def Obligations.PoweredDownRegisters : Prop :=
  ∀ (s : State) (p : Path) (off v : Word) (pl : Place), s.carries p = true → off.toNat < 0x100000 → placeOf off.toNat = some pl →
    pl.listed = true → pl.blk ≠ .access → s.placeDown pl = true →
    exec (.rcRead p off) s = .next ((s.count .access 0 0x28 15 0).answer p (.data 0))
    ∧ (s.tooEarly p = false → exec (.registerWrite p off v) s = .next (s.count .access 0 0x28 15 0))
    ∧ (s.count .access 0 0x28 15 0).rf .access 0 0x28 15 0 = satAdd 16 (s.rf .access 0 0x28 15 0) 1
end

