-- ==== Sys2Proof/Laws/Maps.lean ====
section
/-! SUPPORT. The sparse maps: a read after a write, a write elsewhere, the canonical form; and with them what each register
and memory operation does to the words and bytes it does not name. -/

namespace Sys2Proof.Machine

/-! ## Reading a map after writing it -/

theorem mapGet_mapPut {α : Type} (l : List (Nat × α)) (i j : Nat) (v : α) :
    mapGet (mapPut l i v) j = if i = j then some v else mapGet l j := by
  induction l with
  | nil => simp [mapPut, mapGet]
  | cons e l ih =>
    obtain ⟨k, w⟩ := e
    simp only [mapPut]
    split
    · simp [mapGet]
    · split
      · subst_vars
        simp only [mapGet]
        split <;> rfl
      · simp only [mapGet, ih]
        split <;> split <;> first | rfl | omega

theorem mapGet_mapDel_same {α : Type} (l : List (Nat × α)) (i : Nat) : mapGet (mapDel l i) i = none := by
  induction l with
  | nil => rfl
  | cons e l ih =>
    obtain ⟨k, w⟩ := e
    unfold mapDel at ih ⊢
    by_cases h : k = i
    · simpa [h] using ih
    · simpa [h, mapGet] using ih

theorem mapGet_mapDel_other {α : Type} (l : List (Nat × α)) (i j : Nat) (h : j ≠ i) :
    mapGet (mapDel l i) j = mapGet l j := by
  induction l with
  | nil => rfl
  | cons e l ih =>
    obtain ⟨k, w⟩ := e
    unfold mapDel at ih ⊢
    by_cases hk : k = i
    · subst hk
      simpa [mapGet, h.symm] using ih
    · simp only [ne_eq, hk, not_false_eq_true, decide_true, List.filter_cons_of_pos, mapGet]
      split
      · rfl
      · simpa using ih

/-- A read of the key written gives the value written. -/
theorem mapGet_mapSet_same {α : Type} [DecidableEq α] (l : List (Nat × α)) (i : Nat) (v d : α) :
    (mapGet (mapSet l i v d) i).getD d = v := by
  unfold mapSet
  split
  · simp [mapGet_mapDel_same, *]
  · simp [mapGet_mapPut]

/-- A write leaves every other key as it was. -/
theorem mapGet_mapSet_other {α : Type} [DecidableEq α] (l : List (Nat × α)) (i j : Nat) (v d : α) (h : j ≠ i) :
    mapGet (mapSet l i v d) j = mapGet l j := by
  unfold mapSet
  split
  · exact mapGet_mapDel_other l i j h
  · simp [mapGet_mapPut, h.symm]

/-! ## The canonical form -/

theorem mapPut_mem {α : Type} (l : List (Nat × α)) (i : Nat) (v : α) (e : Nat × α) (h : e ∈ mapPut l i v) :
    e = (i, v) ∨ e ∈ l := by
  induction l with
  | nil => simpa [mapPut] using h
  | cons x l ih =>
    obtain ⟨k, w⟩ := x
    simp only [mapPut] at h
    split at h
    · simpa using h
    · split at h
      · rcases List.mem_cons.1 h with h | h
        · exact .inl h
        · exact .inr (List.mem_cons_of_mem _ h)
      · rcases List.mem_cons.1 h with h | h
        · exact .inr (h ▸ List.mem_cons_self ..)
        · exact (ih h).imp id (List.mem_cons_of_mem _)

theorem mapWf_cons {α : Type} [DecidableEq α] (d : Nat → α) (k : Nat) (v : α) (l : List (Nat × α)) :
    mapWf d ((k, v) :: l) = true ↔ v ≠ d k ∧ (∀ e ∈ l, k < e.1) ∧ mapWf d l = true := by
  simp [mapWf, and_assoc]

theorem mapWf_filter {α : Type} [DecidableEq α] (d : Nat → α) (p : Nat × α → Bool) (l : List (Nat × α))
    (h : mapWf d l = true) : mapWf d (l.filter p) = true := by
  induction l with
  | nil => rfl
  | cons e l ih =>
    obtain ⟨k, v⟩ := e
    obtain ⟨hv, hk, hl⟩ := (mapWf_cons d k v l).1 h
    by_cases hp : p (k, v) = true
    · rw [List.filter_cons_of_pos hp, mapWf_cons]
      exact ⟨hv, fun e he => hk e (List.mem_filter.1 he).1, ih hl⟩
    · rw [List.filter_cons_of_neg hp]
      exact ih hl

theorem mapWf_mapPut {α : Type} [DecidableEq α] (d : Nat → α) (l : List (Nat × α)) (i : Nat) (v : α) (hv : v ≠ d i)
    (h : mapWf d l = true) : mapWf d (mapPut l i v) = true := by
  induction l with
  | nil => simp [mapPut, mapWf, hv]
  | cons e l ih =>
    obtain ⟨k, w⟩ := e
    obtain ⟨hw, hk, hl⟩ := (mapWf_cons d k w l).1 h
    simp only [mapPut]
    split
    · rename_i hik
      refine (mapWf_cons d i v _).2 ⟨hv, fun e he => ?_, h⟩
      rcases List.mem_cons.1 he with rfl | he
      · exact hik
      · exact lt_trans hik (hk e he)
    · split
      · rename_i _ hik
        subst hik
        exact (mapWf_cons d i v l).2 ⟨hv, hk, hl⟩
      · refine (mapWf_cons d k w _).2 ⟨hw, fun e he => ?_, ih hl⟩
        rcases mapPut_mem l i v e he with rfl | he
        · show k < i
          omega
        · exact hk e he

/-- A write keeps the canonical form. -/
theorem mapWf_mapSet {α : Type} [DecidableEq α] (d : Nat → α) (l : List (Nat × α)) (i : Nat) (v : α)
    (h : mapWf d l = true) : mapWf d (mapSet l i v (d i)) = true := by
  unfold mapSet
  split
  · exact mapWf_filter d _ l h
  · rename_i hv
    exact mapWf_mapPut d l i v hv h

/-! ## Registers -/

/-- A register reads what was stored in it. -/
theorem State.setReg_same (s : State) (k : Nat) (v : Word) : (s.setReg k v).reg k = v :=
  mapGet_mapSet_same s.regs k v (resetWord k)

/-- A store leaves every other register as it was. -/
theorem State.setReg_other (s : State) (k j : Nat) (v : Word) (h : j ≠ k) : (s.setReg k v).reg j = s.reg j := by
  simp [State.reg, State.setReg, mapGet_mapSet_other s.regs k j v (resetWord k) h]

/-- A read that clears one copy of an RC word leaves the other copies as they were (R325). -/
theorem State.rcClear_other (s : State) (k j view v : Nat) (m : Word) (h : rcKey j v ≠ rcKey k view) :
    (s.rcClear k view m).rcWord j v = s.rcWord j v := by
  simp only [State.rcWord, State.rcClear]
  rw [mapGet_mapSet_other _ _ _ _ _ h]

/-- A read that clears one copy of an RC word clears the bits it names in that copy (R325). -/
theorem State.rcClear_same (s : State) (k view : Nat) (m : Word) :
    (s.rcClear k view m).rcWord k view = s.rcWord k view &&& ~~~m :=
  mapGet_mapSet_same s.rc (rcKey k view) _ 0

/-! ## Memory (R353, R354) -/

/-- A byte reads what was written to it. -/
theorem Memory.byte_setByte_same (m : Memory) (a : Nat) (b : Byte) : (m.setByte a b).byte a = b :=
  mapGet_mapSet_same m.cells (m.phys a) b 0

/-- A write leaves every byte at another physical address as it was. -/
theorem Memory.byte_setByte_other (m : Memory) (a j : Nat) (b : Byte) (h : m.phys j ≠ m.phys a) :
    (m.setByte a b).byte j = m.byte j := by
  show (mapGet (mapSet m.cells (m.phys a) b 0) (m.phys j)).getD 0 = _
  rw [mapGet_mapSet_other _ _ _ _ _ h]
  rfl

/-- Writes do not move banks. -/
theorem Memory.phys_setByte (m : Memory) (a j : Nat) (b : Byte) : (m.setByte a b).phys j = m.phys j :=
  rfl

theorem Memory.wf_reset : Memory.reset.wf = true :=
  rfl

theorem Memory.wf_setByte (m : Memory) (a : Nat) (b : Byte) (h : m.wf = true) : (m.setByte a b).wf = true :=
  mapWf_mapSet (fun _ => 0) m.cells (m.phys a) b h

theorem Memory.wf_setBytes (m : Memory) (a : Nat) (bs : List Byte) (h : m.wf = true) : (m.setBytes a bs).wf = true := by
  induction bs generalizing m a with
  | nil => exact h
  | cons b bs ih => exact ih _ _ (Memory.wf_setByte m a b h)

theorem Memory.wf_setFlaw (m : Memory) (w n : Nat) (h : m.wf = true) : (m.setFlaw w n).wf = true :=
  h

theorem State.wf_memWrite (s : State) (a : Nat) (bs : List Byte) (h : s.mem.wf = true) : (s.memWrite a bs).mem.wf = true :=
  Memory.wf_setBytes s.mem a bs h

/-- A list of writes at keys chosen by a function keeps the canonical form. -/
theorem mapWf_foldl_mapSet {α β : Type} [DecidableEq α] (d : α) (f : β → Nat) (g : β → α) (es : List β)
    (l : List (Nat × α)) (h : mapWf (fun _ => d) l = true) :
    mapWf (fun _ => d) (es.foldl (fun c e => mapSet c (f e) (g e) d) l) = true := by
  induction es generalizing l with
  | nil => exact h
  | cons e es ih => exact ih _ (mapWf_mapSet (fun _ => d) l (f e) (g e) h)

/-! Notices, reports and error counts: the queue writes its entry to memory, nothing else does. -/

theorem State.wf_msi (s : State) (f : Fin 2) (v : Fin 32) : (s.msi f v).mem = s.mem := by
  unfold State.msi
  dsimp only
  split
  · rfl
  · split <;> rfl

theorem State.mem_noteSignal (s : State) : s.noteSignal.mem = s.mem := by
  unfold State.noteSignal
  split
  · exact State.wf_msi ..
  · exact State.wf_msi ..
  · rfl
  · rfl

theorem State.wf_offer (s : State) (o : Offer) (h : s.mem.wf = true) : (s.offer o).mem.wf = true := by
  unfold State.offer
  split
  · unfold State.enter
    dsimp only
    rw [State.mem_noteSignal]
    exact State.wf_memWrite s _ _ h
  · exact h

theorem State.wf_raise (s : State) (id : Nat) (cls : BitVec 2) (code : Byte) (args : BitVec 64) (h : s.mem.wf = true) :
    (s.raise id cls code args).mem.wf = true := by
  unfold State.raise State.raiseAt
  dsimp only
  split
  · exact h
  · split
    · exact State.wf_offer s _ h
    · exact h

theorem State.wf_report (s : State) (b cause : Nat) (h : s.mem.wf = true) : (s.report b cause).mem.wf = true := by
  unfold State.report
  split
  · exact h
  · split
    · exact h
    · split
      · exact State.wf_raise _ _ _ _ _ h
      · exact h

theorem State.wf_bankReport (s : State) (p : Fin 25) (cause : Nat) (h : s.mem.wf = true) :
    (s.bankReport p cause).mem.wf = true := by
  unfold State.bankReport
  split
  · exact State.wf_report _ _ _ h
  · split <;> exact h

theorem State.wf_memCe (s : State) (a ph : Nat) (h : s.mem.wf = true) : (s.memCe a ph).mem.wf = true := by
  unfold State.memCe
  exact State.wf_raise _ _ _ _ _ h

theorem State.wf_memUe (s : State) (a ph : Nat) (h : s.mem.wf = true) : (s.memUe a ph).mem.wf = true := by
  exact State.wf_bankReport _ _ _ (State.wf_raise _ _ _ _ _ h)

/-! Checked accesses (R355 to R358). -/

theorem State.wf_checkAt (s : State) (a w : Nat) (h : s.mem.wf = true) : (s.checkAt a w).2.mem.wf = true := by
  unfold State.checkAt
  dsimp only
  repeat' split
  all_goals first
    | exact h
    | exact State.wf_memUe _ _ _ h
    | exact State.wf_memCe _ _ _ h

theorem State.wf_checkWord (s : State) (a : Nat) (h : s.mem.wf = true) : (s.checkWord a).2.mem.wf = true :=
  State.wf_checkAt _ _ _ h

theorem State.wf_wordBytes (s : State) (a : Nat) (h : s.mem.wf = true) : (s.wordBytes a).2.mem.wf = true := by
  have w := State.wf_checkWord s (a - a % 8) h
  unfold State.wordBytes
  dsimp only
  split <;> rename_i e <;> rw [e] at w <;> exact w

theorem State.wf_readWords (k : Nat) (s : State) (a : Nat) (h : s.mem.wf = true) :
    (State.readWords k s a).2.mem.wf = true := by
  induction k generalizing s a with
  | zero => exact h
  | succ k ih => exact ih _ _ (State.wf_wordBytes s a h)

/-- A checked read keeps the canonical form. -/
theorem State.wf_memRead (s : State) (a n : Nat) (h : s.mem.wf = true) : (s.memRead a n).2.mem.wf = true :=
  State.wf_readWords _ s _ h

/-- Writing the bytes of one word that are present keeps the canonical form. -/
theorem Memory.wf_putWord (m : Memory) (a : Nat) (l : List (Nat × Option Byte)) (h : m.wf = true) :
    (l.foldl (fun (m : Memory) p => match p.2 with
      | some b => m.setByte (a + p.1) b
      | none => m) m).wf = true := by
  induction l generalizing m with
  | nil => exact h
  | cons p l ih =>
    obtain ⟨i, _ | b⟩ := p
    · exact ih _ h
    · exact ih _ (Memory.wf_setByte _ _ _ h)

theorem State.wf_writeWord (s : State) (a : Nat) (bs : List (Option Byte)) (h : s.mem.wf = true) :
    (s.writeWord a bs).mem.wf = true := by
  have w := State.wf_checkWord s a h
  unfold State.writeWord
  dsimp only
  split
  · exact h
  · split
    · exact Memory.wf_putWord _ _ _ h
    · split <;> rename_i e <;> rw [e] at w
      · exact Memory.wf_putWord _ _ _ w
      · exact Memory.wf_putWord _ _ _ w
      · exact w
      · exact Memory.wf_putWord _ _ _ (Memory.wf_setBytes _ _ _ w)

/-- A checked store keeps the canonical form. -/
theorem State.wf_memStore (s : State) (a : Nat) (bs : List (Option Byte)) (h : s.mem.wf = true) :
    (s.memStore a bs).mem.wf = true := by
  unfold State.memStore
  dsimp only
  generalize List.range _ = l
  generalize List.replicate (a % 8) none ++ bs ++ _ = q
  induction l generalizing s with
  | nil => exact h
  | cons i l ih => exact ih _ (State.wf_writeWord _ _ _ h)

/-- Remapping a bank to the spare keeps the canonical form (R366). -/
theorem State.wf_completeRemap (s : State) (p : Fin 25) (h : s.mem.wf = true) : (s.completeRemap p).mem.wf = true := by
  unfold State.completeRemap
  dsimp only
  split
  · exact h
  · refine State.wf_raise _ _ _ _ _ ?_
    exact mapWf_foldl_mapSet _ _ _ _ _ (mapWf_filter _ _ _ h)

/-! ## The outcome of a command -/

/-- What `done` answers: the effect, with the queue as it was and the tick where it stood (R14). -/
theorem done_next (s t u : State) (h : done s t = .next u) :
    u.pending = s.pending ∧ u.coreUp = t.coreUp ∧ (t.coreUp = true → u.tick = s.tick ∧ u.islandTick = s.islandTick)
      ∧ u.regs = t.regs ∧ u.rc = t.rc ∧ u.mem = t.mem ∧ u.arch = t.arch := by
  unfold done at h
  obtain rfl := Host.Outcome.next.inj h
  exact ⟨rfl, rfl, fun c => by simp [c], rfl, rfl, rfl, rfl⟩

/-- `done` always answers a next state. -/
theorem done_completes (s t : State) : ∃ u, done s t = .next u :=
  ⟨_, rfl⟩

/-- With the core running a core command is its effect; with the core held nothing happens but that a tick out of step
is put to 0 (R24, R393). -/
theorem doneCore_up (s : State) (f : State → State) (h : s.coreUp = true) : doneCore s f = done s (f s) := by
  simp [doneCore, h]

theorem doneCore_down (s : State) (f : State → State) (h : s.coreUp = false) : doneCore s f = done s s := by
  simp [doneCore, h]

end Sys2Proof.Machine
end

