-- ==== Sys2Proof/Laws/Ops.lean ====
section
/-! SUPPORT. What the shared operations can do, said once: a notice, a fault report, an interrupt, a checked access of the
SRAM change the service part of the state (registers, counters, memory, notices, fault manager, outputs) and no other. -/

namespace Sys2Proof.Machine

/-- t is s but for registers and counters, memory, notices, the fault manager's queue, the interrupt state of the
functions, the side-band alert, the output history and the counter of free values. -/
def State.ServiceOf (s t : State) : Prop :=
  t = { s with
    regs := t.regs, shadow := t.shadow, rc := t.rc, mem := t.mem, notices := t.notices, fm := t.fm, funcs := t.funcs,
    sideband := t.sideband, emitted := t.emitted, freeCtr := t.freeCtr }

theorem State.ServiceOf.refl (s : State) : s.ServiceOf s :=
  rfl

theorem State.ServiceOf.trans {s t u : State} (h : s.ServiceOf t) (k : t.ServiceOf u) : s.ServiceOf u := by
  unfold State.ServiceOf at *
  rw [h] at k
  exact k

theorem State.ServiceOf.after {s t u : State} (k : t.ServiceOf u) (h : s.ServiceOf t) : s.ServiceOf u :=
  h.trans k

/-! What a service operation leaves, field by field. -/

theorem State.ServiceOf.pending {s t : State} (h : s.ServiceOf t) : t.pending = s.pending := by rw [h]
theorem State.ServiceOf.coreUp {s t : State} (h : s.ServiceOf t) : t.coreUp = s.coreUp := by rw [h]
theorem State.ServiceOf.ticking {s t : State} (h : s.ServiceOf t) : t.ticking = s.ticking := by rw [h]
theorem State.ServiceOf.tick {s t : State} (h : s.ServiceOf t) : t.tick = s.tick := by rw [h]
theorem State.ServiceOf.islandTick {s t : State} (h : s.ServiceOf t) : t.islandTick = s.islandTick := by rw [h]
theorem State.ServiceOf.paths {s t : State} (h : s.ServiceOf t) : t.paths = s.paths := by rw [h]
theorem State.ServiceOf.snap {s t : State} (h : s.ServiceOf t) : t.snap = s.snap := by rw [h]
theorem State.ServiceOf.xwords {s t : State} (h : s.ServiceOf t) : t.xwords = s.xwords := by rw [h]
theorem State.ServiceOf.datums {s t : State} (h : s.ServiceOf t) : t.datums = s.datums := by rw [h]
theorem State.ServiceOf.loops {s t : State} (h : s.ServiceOf t) : t.loops = s.loops := by rw [h]
theorem State.ServiceOf.slots {s t : State} (h : s.ServiceOf t) : t.slots = s.slots := by rw [h]
theorem State.ServiceOf.chans {s t : State} (h : s.ServiceOf t) : t.chans = s.chans := by rw [h]
theorem State.ServiceOf.groups {s t : State} (h : s.ServiceOf t) : t.groups = s.groups := by rw [h]
theorem State.ServiceOf.units {s t : State} (h : s.ServiceOf t) : t.units = s.units := by rw [h]
theorem State.ServiceOf.book {s t : State} (h : s.ServiceOf t) : t.book = s.book := by rw [h]
theorem State.ServiceOf.syns {s t : State} (h : s.ServiceOf t) : t.syns = s.syns := by rw [h]
theorem State.ServiceOf.bankSrc {s t : State} (h : s.ServiceOf t) : t.bankSrc = s.bankSrc := by rw [h]
theorem State.ServiceOf.bankHand {s t : State} (h : s.ServiceOf t) : t.bankHand = s.bankHand := by rw [h]
theorem State.ServiceOf.bankHeld {s t : State} (h : s.ServiceOf t) : t.bankHeld = s.bankHeld := by rw [h]
theorem State.ServiceOf.outs {s t : State} (h : s.ServiceOf t) : t.outs = s.outs := by rw [h]
theorem State.ServiceOf.outFrom {s t : State} (h : s.ServiceOf t) : t.outFrom = s.outFrom := by rw [h]
theorem State.ServiceOf.lines {s t : State} (h : s.ServiceOf t) : t.lines = s.lines := by rw [h]
theorem State.ServiceOf.plan {s t : State} (h : s.ServiceOf t) : t.plan = s.plan := by rw [h]
theorem State.ServiceOf.planDue {s t : State} (h : s.ServiceOf t) : t.planDue = s.planDue := by rw [h]
theorem State.ServiceOf.ports {s t : State} (h : s.ServiceOf t) : t.ports = s.ports := by rw [h]
theorem State.ServiceOf.sessions {s t : State} (h : s.ServiceOf t) : t.sessions = s.sessions := by rw [h]
theorem State.ServiceOf.streams {s t : State} (h : s.ServiceOf t) : t.streams = s.streams := by rw [h]
theorem State.ServiceOf.insts {s t : State} (h : s.ServiceOf t) : t.insts = s.insts := by rw [h]
theorem State.ServiceOf.engines {s t : State} (h : s.ServiceOf t) : t.engines = s.engines := by rw [h]
theorem State.ServiceOf.sems {s t : State} (h : s.ServiceOf t) : t.sems = s.sems := by rw [h]
theorem State.ServiceOf.linkUp {s t : State} (h : s.ServiceOf t) : t.linkUp = s.linkUp := by rw [h]
theorem State.ServiceOf.linkSpeed {s t : State} (h : s.ServiceOf t) : t.linkSpeed = s.linkSpeed := by rw [h]
theorem State.ServiceOf.linkWidth {s t : State} (h : s.ServiceOf t) : t.linkWidth = s.linkWidth := by rw [h]
theorem State.ServiceOf.mboxes {s t : State} (h : s.ServiceOf t) : t.mboxes = s.mboxes := by rw [h]
theorem State.ServiceOf.dbIn {s t : State} (h : s.ServiceOf t) : t.dbIn = s.dbIn := by rw [h]
theorem State.ServiceOf.dbOut {s t : State} (h : s.ServiceOf t) : t.dbOut = s.dbOut := by rw [h]
theorem State.ServiceOf.mbs {s t : State} (h : s.ServiceOf t) : t.mbs = s.mbs := by rw [h]
theorem State.ServiceOf.gaz {s t : State} (h : s.ServiceOf t) : t.gaz = s.gaz := by rw [h]
theorem State.ServiceOf.xfer {s t : State} (h : s.ServiceOf t) : t.xfer = s.xfer := by rw [h]
theorem State.ServiceOf.arch {s t : State} (h : s.ServiceOf t) : t.arch = s.arch := by rw [h]
theorem State.ServiceOf.benchMatch {s t : State} (h : s.ServiceOf t) : t.benchMatch = s.benchMatch := by rw [h]
theorem State.ServiceOf.stewLoad {s t : State} (h : s.ServiceOf t) : t.stewLoad = s.stewLoad := by rw [h]
theorem State.ServiceOf.shedLevel {s t : State} (h : s.ServiceOf t) : t.shedLevel = s.shedLevel := by rw [h]
theorem State.ServiceOf.shedHot {s t : State} (h : s.ServiceOf t) : t.shedHot = s.shedHot := by rw [h]
theorem State.ServiceOf.shedRun {s t : State} (h : s.ServiceOf t) : t.shedRun = s.shedRun := by rw [h]
theorem State.ServiceOf.oven {s t : State} (h : s.ServiceOf t) : t.oven = s.oven := by rw [h]
theorem State.ServiceOf.boot {s t : State} (h : s.ServiceOf t) : t.boot = s.boot := by rw [h]
theorem State.ServiceOf.domOn {s t : State} (h : s.ServiceOf t) : t.domOn = s.domOn := by rw [h]
theorem State.ServiceOf.domRising {s t : State} (h : s.ServiceOf t) : t.domRising = s.domRising := by rw [h]
theorem State.ServiceOf.peerMir {s t : State} (h : s.ServiceOf t) : t.peerMir = s.peerMir := by rw [h]
theorem State.ServiceOf.reloadDue {s t : State} (h : s.ServiceOf t) : t.reloadDue = s.reloadDue := by rw [h]
theorem State.ServiceOf.scanning {s t : State} (h : s.ServiceOf t) : t.scanning = s.scanning := by rw [h]
theorem State.ServiceOf.cartOk {s t : State} (h : s.ServiceOf t) : t.cartOk = s.cartOk := by rw [h]

/-! The operations. -/

theorem State.setReg_service (s : State) (k : Nat) (v : Word) : s.ServiceOf (s.setReg k v) :=
  rfl

theorem State.wr_service (s : State) (b : Block) (i o : Nat) (v : Word) : s.ServiceOf (s.wr b i o v) :=
  State.setReg_service ..

theorem State.count_service (s : State) (b : Block) (i o hi lo n : Nat) : s.ServiceOf (s.count b i o hi lo n) :=
  State.setReg_service ..

theorem State.rcAll_service (s : State) (k : Nat) (f : Word → Word) : s.ServiceOf (s.rcAll k f) :=
  rfl

theorem State.rcCount_service (s : State) (b : Block) (i o hi lo n : Nat) : s.ServiceOf (s.rcCount b i o hi lo n) :=
  State.rcAll_service ..

theorem State.modNote_service (s : State) (f : Notices → Notices) : s.ServiceOf (s.modNote f) :=
  rfl

theorem State.memWrite_service (s : State) (a : Nat) (bs : List Byte) : s.ServiceOf (s.memWrite a bs) :=
  rfl

theorem State.msi_service (s : State) (f : Fin 2) (v : Fin 32) : s.ServiceOf (s.msi f v) := by
  unfold State.msi
  dsimp only
  split
  · rfl
  · split <;> rfl

theorem State.noteSignal_service (s : State) : s.ServiceOf s.noteSignal := by
  unfold State.noteSignal
  split
  · exact State.msi_service ..
  · exact State.msi_service ..
  · rfl
  · rfl

theorem State.offer_service (s : State) (o : Offer) : s.ServiceOf (s.offer o) := by
  unfold State.offer
  split
  · unfold State.enter
    exact .after (State.noteSignal_service _) (.after (State.modNote_service ..) (.after (State.wr_service ..)
      (State.memWrite_service ..)))
  · unfold State.lose
    exact .after (State.modNote_service ..) (State.count_service ..)

theorem State.raiseAt_service (s : State) (time : Stamp) (id : Nat) (cls : BitVec 2) (code : Byte) (args : BitVec 64) :
    s.ServiceOf (s.raiseAt time id cls code args) := by
  unfold State.raiseAt
  dsimp only
  split
  · rfl
  · split
    · exact State.offer_service ..
    · rfl

theorem State.raise_service (s : State) (id : Nat) (cls : BitVec 2) (code : Byte) (args : BitVec 64) :
    s.ServiceOf (s.raise id cls code args) :=
  State.raiseAt_service ..

theorem State.report_service (s : State) (b cause : Nat) : s.ServiceOf (s.report b cause) := by
  unfold State.report
  split
  · rfl
  · split
    · rfl
    · split
      · exact State.ServiceOf.after (State.raise_service ..) rfl
      · rfl

theorem State.queueSummary_service (s : State) : s.ServiceOf s.queueSummary := by
  unfold State.queueSummary
  dsimp only
  split
  · rfl
  · exact State.ServiceOf.after (State.offer_service ..) rfl

theorem State.bankReport_service (s : State) (p : Fin 25) (cause : Nat) : s.ServiceOf (s.bankReport p cause) := by
  unfold State.bankReport
  split
  · exact State.ServiceOf.after (State.report_service ..) rfl
  · split <;> rfl

theorem State.memCe_service (s : State) (a ph : Nat) : s.ServiceOf (s.memCe a ph) := by
  unfold State.memCe
  exact State.ServiceOf.after (State.raise_service ..) rfl

theorem State.memUe_service (s : State) (a ph : Nat) : s.ServiceOf (s.memUe a ph) := by
  unfold State.memUe
  exact .after (State.bankReport_service ..) (.after (State.raise_service ..) (State.rcCount_service ..))

theorem State.checkAt_service (s : State) (a w : Nat) : s.ServiceOf (s.checkAt a w).2 := by
  unfold State.checkAt
  dsimp only
  repeat' split
  all_goals first
    | rfl
    | exact State.ServiceOf.after (State.memUe_service ..) rfl
    | exact State.ServiceOf.after (State.memCe_service ..) rfl

theorem State.checkWord_service (s : State) (a : Nat) : s.ServiceOf (s.checkWord a).2 :=
  State.checkAt_service ..

theorem State.wordBytes_service (s : State) (a : Nat) : s.ServiceOf (s.wordBytes a).2 := by
  have w := State.checkWord_service s (a - a % 8)
  unfold State.wordBytes
  dsimp only
  split <;> rename_i e <;> rw [e] at w
  · exact w
  · exact w
  · exact State.ServiceOf.trans w rfl
  · exact State.ServiceOf.trans w rfl

theorem State.readWords_service (k : Nat) (s : State) (a : Nat) : s.ServiceOf (State.readWords k s a).2 := by
  induction k generalizing s a with
  | zero => rfl
  | succ k ih => exact State.ServiceOf.trans (State.wordBytes_service s a) (ih _ _)

/-- A checked read (R355) changes the service part only. -/
theorem State.memRead_service (s : State) (a n : Nat) : s.ServiceOf (s.memRead a n).2 :=
  State.readWords_service ..

theorem State.writeWord_service (s : State) (a : Nat) (bs : List (Option Byte)) : s.ServiceOf (s.writeWord a bs) := by
  have w := State.checkWord_service s a
  unfold State.writeWord
  dsimp only
  split
  · rfl
  · split
    · rfl
    · split <;> rename_i e <;> rw [e] at w
      · exact State.ServiceOf.trans w rfl
      · exact State.ServiceOf.trans w rfl
      · exact w
      · exact State.ServiceOf.trans w rfl

/-- A checked store (R356) changes the service part only. -/
theorem State.memStore_service (s : State) (a : Nat) (bs : List (Option Byte)) : s.ServiceOf (s.memStore a bs) := by
  unfold State.memStore
  dsimp only
  generalize List.range _ = l
  generalize List.replicate (a % 8) none ++ bs ++ _ = q
  induction l generalizing s with
  | nil => rfl
  | cons i l ih => exact State.ServiceOf.trans (State.writeWord_service ..) (ih _)

/-- A counter of the archive moves, or a record is counted lost (R368, R373); nothing else changes. -/
theorem State.arcCount_eq (s : State) (f : ArcCounters → ArcCounters) :
    s.arcCount f = { s with regs := (s.arcCount f).regs, shadow := (s.arcCount f).shadow, arch := (s.arcCount f).arch } := by
  unfold State.arcCount
  split <;> rfl

/-- A datum island's words at its clocks' ticks: a working island's clock advances, another's stands while its mirrors go on
(R377, R380). -/
theorem State.tickDatum_clk (s : State) (d : Fin 8) (k : DWord) (h : s.datUp (datIsl d) = false) :
    (s.tickDatum d k).d.clk = (s.datums[d]).clk := by
  simp [State.tickDatum, h, Datum.coast]

/-- The archive log takes an entry, or counts one lost (R368, R372); nothing else changes. -/
theorem State.log_eq (s : State) (e : LogEntry) :
    s.log e = { s with regs := (s.log e).regs, shadow := (s.log e).shadow, arch := (s.log e).arch } := by
  unfold State.log
  split <;> rfl

/-- An output that waits stays as it is, or drives its first rising edge and runs (R212, R214, R225). -/
theorem State.outStarts_cases (s : State) (o : Fin 48) :
    s.outStarts o = s ∨ ∃ e, s.outStarts o = { s with outs := s.outs.set o .running }.emit (.output o e) := by
  unfold State.outStarts
  split
  · exact .inl rfl
  · dsimp only
    split
    · exact .inl rfl
    · split
      · exact .inr ⟨_, rfl⟩
      · split
        · exact .inr ⟨_, rfl⟩
        · exact .inl rfl

/-- A bar, and the clearing of bars, touch the loops alone (R107). -/
theorem State.bar_eq (s : State) (n : Fin 16) (src : Fin 96) : s.bar n src = { s with loops := (s.bar n src).loops } := by
  unfold State.bar
  dsimp only
  split <;> rfl

theorem State.clearBars_eq (s : State) (n : Fin 16) (m : BitVec 96) :
    s.clearBars n m = { s with loops := (s.clearBars n m).loops } := by
  unfold State.clearBars
  dsimp only
  split <;> split <;> rfl

/-- The test of the engines' waits at a tick touches the engines alone (R307). -/
theorem State.meetEvents_eq (s : State) : s.meetEvents = { s with engines := s.meetEvents.engines } :=
  rfl

end Sys2Proof.Machine
end

