-- ==== Sys2Proof/Laws/PerInstr.lean ====
section
/-! SUPPORT. One lemma for each command: the classes of commands by which the frame statements are made (Safety.lean) do
not overlap where they must not, so a quiet command is no register access and a command is never framed twice. -/

namespace Sys2Proof.Laws.Family

/-- A command that the frame of registers and memory covers is not among those that go through a register. -/
def Statement (i : Instr) : Prop :=
  Machine.isQuiet i = true → Machine.throughRegisters i = false

theorem oscLost : Statement .oscLost :=
  fun _ => rfl

theorem oscBack : Statement .oscBack :=
  fun _ => rfl

theorem synbPullInEnd (locked : Bool) : Statement (.synbPullInEnd locked) :=
  fun _ => rfl

theorem tickIndexCompare : Statement .tickIndexCompare :=
  fun _ => rfl

theorem crossingWordArrival (x : Xing) : Statement (.crossingWordArrival x) :=
  fun _ => rfl

theorem applyTick (dst : Dest) : Statement (.applyTick dst) :=
  fun _ => rfl

theorem candWrite (p : Path) (n : Fin 16) (i : Fin 16) (v : Word) : Statement (.candWrite p n i v) :=
  fun h => Bool.noConfusion h

theorem svinMapWrite (p : Path) (i : Fin 24) (v : Word) : Statement (.svinMapWrite p i v) :=
  fun h => Bool.noConfusion h

theorem datumTick : Statement .datumTick :=
  fun _ => rfl

theorem stepHoldRelease (d : Fin 8) : Statement (.stepHoldRelease d) :=
  fun _ => rfl

theorem surveyEdge (ch : Fin 192) (fall : Bool) (code : BitVec 12) : Statement (.surveyEdge ch fall code) :=
  fun _ => rfl

theorem burstFifoDrain (g : Fin 12) : Statement (.burstFifoDrain g) :=
  fun _ => rfl

theorem stampArrival (g : Fin 12) (isl : Fin 2) : Statement (.stampArrival g isl) :=
  fun _ => rfl

theorem fieldBookWrite : Statement .fieldBookWrite :=
  fun _ => rfl

theorem refinEdge (n : Fin 16) (fall : Bool) (d : BitVec 14) : Statement (.refinEdge n fall d) :=
  fun _ => rfl

theorem monitorEvent (src : Fin 96) (d : BitVec 14) : Statement (.monitorEvent src d) :=
  fun _ => rfl

theorem clockLosTimeout (n : Fin 16) : Statement (.clockLosTimeout n) :=
  fun _ => rfl

theorem sourceLosReport (src : Fin 96) : Statement (.sourceLosReport src) :=
  fun _ => rfl

theorem actMissTimeout (src : Fin 96) : Statement (.actMissTimeout src) :=
  fun _ => rfl

theorem freqGateClose (src : Fin 96) : Statement (.freqGateClose src) :=
  fun _ => rfl

theorem phaseSample (src : Fin 96) : Statement (.phaseSample src) :=
  fun _ => rfl

theorem phaseHoldExpiry (src : Fin 96) : Statement (.phaseHoldExpiry src) :=
  fun _ => rfl

theorem slotEnable (p : Path) (src : Fin 96) : Statement (.slotEnable p src) :=
  fun h => Bool.noConfusion h

theorem slotDisable (p : Path) (src : Fin 96) : Statement (.slotDisable p src) :=
  fun h => Bool.noConfusion h

theorem lockoutSet (p : Path) (src : Fin 96) : Statement (.lockoutSet p src) :=
  fun h => Bool.noConfusion h

theorem lockoutClear (p : Path) (src : Fin 96) : Statement (.lockoutClear p src) :=
  fun h => Bool.noConfusion h

theorem qualOwnerWrite (p : Path) (src : Fin 96) (v : BitVec 4) : Statement (.qualOwnerWrite p src v) :=
  fun h => Bool.noConfusion h

theorem refinCfgWrite (p : Path) (n : Fin 16) (v : Word) : Statement (.refinCfgWrite p n v) :=
  fun h => Bool.noConfusion h

theorem delayCompWrite (p : Path) (src : Fin 96) (v : Word) : Statement (.delayCompWrite p src v) :=
  fun h => Bool.noConfusion h

theorem delayCompApply (src : Fin 96) : Statement (.delayCompApply src) :=
  fun _ => rfl

theorem wtrExpiry (src : Fin 96) : Statement (.wtrExpiry src) :=
  fun _ => rfl

theorem verdictWrite (p : Path) (src : Fin 96) (v : Word) : Statement (.verdictWrite p src v) :=
  fun h => Bool.noConfusion h

theorem verdictStale (src : Fin 96) : Statement (.verdictStale src) :=
  fun _ => rfl

theorem qlFailed (n : Fin 16) : Statement (.qlFailed n) :=
  fun _ => rfl

theorem ovenWarmPin (level : Bool) : Statement (.ovenWarmPin level) :=
  fun _ => rfl

theorem ovenWarmDebounced : Statement .ovenWarmDebounced :=
  fun _ => rfl

theorem settleGateClose (src : Fin 96) : Statement (.settleGateClose src) :=
  fun _ => rfl

theorem settleTimeout : Statement .settleTimeout :=
  fun _ => rfl

theorem settleWrite (p : Path) (slope : Bool) (v : Word) : Statement (.settleWrite p slope v) :=
  fun h => Bool.noConfusion h

theorem rcRead (p : Path) (off : Word) : Statement (.rcRead p off) :=
  fun h => Bool.noConfusion h

theorem sampleClose (n : Fin 16) : Statement (.sampleClose n) :=
  fun _ => rfl

theorem acqTimeout (n : Fin 16) : Statement (.acqTimeout n) :=
  fun _ => rfl

theorem loopEnable (p : Path) (n : Fin 16) : Statement (.loopEnable p n) :=
  fun h => Bool.noConfusion h

theorem loopDisable (p : Path) (n : Fin 16) : Statement (.loopDisable p n) :=
  fun h => Bool.noConfusion h

theorem loopConsumerSelect (p : Path) (n : Fin 16) (dsel : BitVec 4) (ssel : BitVec 4) : Statement (.loopConsumerSelect p n dsel ssel) :=
  fun h => Bool.noConfusion h

theorem free (p : Path) (n : Fin 16) : Statement (.free p n) :=
  fun h => Bool.noConfusion h

theorem hoClear (p : Path) (n : Fin 16) : Statement (.hoClear p n) :=
  fun h => Bool.noConfusion h

theorem sampleRateWrite (p : Path) (n : Fin 16) (v : Word) : Statement (.sampleRateWrite p n v) :=
  fun h => Bool.noConfusion h

theorem candBarClear (p : Path) (n : Fin 16) (v : Word) : Statement (.candBarClear p n v) :=
  fun h => Bool.noConfusion h

theorem selectionTick (n : Fin 16) : Statement (.selectionTick n) :=
  fun _ => rfl

theorem selectorEvaluate (n : Fin 16) : Statement (.selectorEvaluate n) :=
  fun _ => rfl

theorem selectWrite (p : Path) (n : Fin 16) (v : Word) : Statement (.selectWrite p n v) :=
  fun h => Bool.noConfusion h

theorem holdoffExpiry (n : Fin 16) : Statement (.holdoffExpiry n) :=
  fun _ => rfl

theorem switchCommit (n : Fin 16) : Statement (.switchCommit n) :=
  fun _ => rfl

theorem slewEnd (d : Fin 8) : Statement (.slewEnd d) :=
  fun _ => rfl

theorem bslewWrite (p : Path) (d : Fin 8) (v : Word) : Statement (.bslewWrite p d v) :=
  fun h => Bool.noConfusion h

theorem qualifyingSecond (n : Fin 16) : Statement (.qualifyingSecond n) :=
  fun _ => rfl

theorem holdoverSecond (n : Fin 16) : Statement (.holdoverSecond n) :=
  fun _ => rfl

theorem holdoverExpired (n : Fin 16) : Statement (.holdoverExpired n) :=
  fun _ => rfl

theorem tempLostTimeout : Statement .tempLostTimeout :=
  fun _ => rfl

theorem ovenModelBlock : Statement .ovenModelBlock :=
  fun _ => rfl

theorem modelClear (p : Path) : Statement (.modelClear p) :=
  fun h => Bool.noConfusion h

theorem twinEnable (p : Path) (n : Fin 16) : Statement (.twinEnable p n) :=
  fun h => Bool.noConfusion h

theorem twinDisable (p : Path) (n : Fin 16) : Statement (.twinDisable p n) :=
  fun h => Bool.noConfusion h

theorem swap (p : Path) (n : Fin 16) : Statement (.swap p n) :=
  fun h => Bool.noConfusion h

theorem timeLabel (src : Fin 96) : Statement (.timeLabel src) :=
  fun _ => rfl

theorem utcWrite (p : Path) (d : Fin 8) (v : Word) : Statement (.utcWrite p d v) :=
  fun h => Bool.noConfusion h

theorem leapSecond (d : Fin 8) : Statement (.leapSecond d) :=
  fun _ => rfl

theorem ppsEdge (ch : Fin 192) : Statement (.ppsEdge ch) :=
  fun _ => rfl

theorem pulseTrail (ch : Fin 192) : Statement (.pulseTrail ch) :=
  fun _ => rfl

theorem todMessage (ch : Fin 192) : Statement (.todMessage ch) :=
  fun _ => rfl

theorem nowLatchRead (p : Path) (d : Fin 8) : Statement (.nowLatchRead p d) :=
  fun h => Bool.noConfusion h

theorem graticuleFetch (g : Fin 12) (j : Fin 4) : Statement (.graticuleFetch g j) :=
  fun _ => rfl

theorem graticuleFire (g : Fin 12) (j : Fin 4) : Statement (.graticuleFire g j) :=
  fun _ => rfl

theorem rotationStepStart (g : Fin 12) : Statement (.rotationStepStart g) :=
  fun _ => rfl

theorem calTableBuilt (g : Fin 12) (hist : List Nat) : Statement (.calTableBuilt g hist) :=
  fun _ => rfl

theorem relief (g : Fin 12) (dr : List (BitVec 12)) (dx : List (BitVec 12)) (tap : Bool) : Statement (.relief g dr dx tap) :=
  fun _ => rfl

theorem reliefLostTimeout (g : Fin 12) : Statement (.reliefLostTimeout g) :=
  fun _ => rfl

theorem channelModeWrite (p : Path) (ch : Fin 192) (v : Word) : Statement (.channelModeWrite p ch v) :=
  fun h => Bool.noConfusion h

theorem handoverEnd (ch : Fin 192) : Statement (.handoverEnd ch) :=
  fun _ => rfl

theorem intervalOverflow (ch : Fin 192) : Statement (.intervalOverflow ch) :=
  fun _ => rfl

theorem periodOverflow (ch : Fin 192) : Statement (.periodOverflow ch) :=
  fun _ => rfl

theorem uartRxByte (ch : Fin 192) (b : Byte) (parityBit : Bool) (stop1 : Bool) (stop2 : Bool) : Statement (.uartRxByte ch b parityBit stop1 stop2) :=
  fun _ => rfl

theorem rxdataRead (p : Path) (ch : Fin 192) : Statement (.rxdataRead p ch) :=
  fun h => Bool.noConfusion h

theorem txdataWrite (p : Path) (ch : Fin 192) (v : Word) : Statement (.txdataWrite p ch v) :=
  fun h => Bool.noConfusion h

theorem gpioOutWrite (p : Path) (ch : Fin 192) (out : Bool) : Statement (.gpioOutWrite p ch out) :=
  fun h => Bool.noConfusion h

theorem statsSample (u : Fin 32) : Statement (.statsSample u) :=
  fun _ => rfl

theorem statsCfgWrite (p : Path) (u : Fin 32) (r : StatsReg) (v : Word) : Statement (.statsCfgWrite p u r v) :=
  fun h => Bool.noConfusion h

theorem close (p : Path) (u : Fin 32) : Statement (.close p u) :=
  fun h => Bool.noConfusion h

theorem statsWindowClose (u : Fin 32) : Statement (.statsWindowClose u) :=
  fun _ => rfl

theorem statsCommit (u : Fin 32) : Statement (.statsCommit u) :=
  fun _ => rfl

theorem fieldbookCfgWrite (p : Path) (size : Bool) (v : Word) : Statement (.fieldbookCfgWrite p size v) :=
  fun h => Bool.noConfusion h

theorem fieldbookRdWrite (p : Path) (v : Word) : Statement (.fieldbookRdWrite p v) :=
  fun h => Bool.noConfusion h

theorem drainBatch (groups : Nat) (result : DrainEnd) : Statement (.drainBatch groups result) :=
  fun _ => rfl

theorem drainModTimeout : Statement .drainModTimeout :=
  fun _ => rfl

theorem drainEnWrite (p : Path) (v : Word) : Statement (.drainEnWrite p v) :=
  fun h => Bool.noConfusion h

theorem hostRdWrite (p : Path) (v : Word) : Statement (.hostRdWrite p v) :=
  fun h => Bool.noConfusion h

theorem noticeOccurrence (src : BitVec 16) (cls : BitVec 2) (code : Byte) (args : BitVec 64) : Statement (.noticeOccurrence src cls code args) :=
  fun _ => rfl

theorem noticeRdWrite (p : Path) (v : Word) : Statement (.noticeRdWrite p v) :=
  fun h => Bool.noConfusion h

theorem lockSequenceStart (y : Fin 9) : Statement (.lockSequenceStart y) :=
  fun _ => rfl

theorem synLock (y : Fin 9) (band : BitVec 6) : Statement (.synLock y band) :=
  fun _ => rfl

theorem onGrid (y : Fin 9) : Statement (.onGrid y) :=
  fun _ => rfl

theorem outputStart (o : Fin 48) : Statement (.outputStart o) :=
  fun _ => rfl

theorem lockSequenceFail (y : Fin 9) : Statement (.lockSequenceFail y) :=
  fun _ => rfl

theorem lockRetry (y : Fin 9) : Statement (.lockRetry y) :=
  fun _ => rfl

theorem synLol (y : Fin 9) : Statement (.synLol y) :=
  fun _ => rfl

theorem regainTimeout (y : Fin 9) : Statement (.regainTimeout y) :=
  fun _ => rfl

theorem inBandRegain (y : Fin 9) : Statement (.inBandRegain y) :=
  fun _ => rfl

theorem shortLockSequenceEnd (y : Fin 9) (ok : Bool) (band : BitVec 6) : Statement (.shortLockSequenceEnd y ok band) :=
  fun _ => rfl

theorem relock (p : Path) (y : Fin 9) : Statement (.relock p y) :=
  fun h => Bool.noConfusion h

theorem contourStep (y : Fin 9) : Statement (.contourStep y) :=
  fun _ => rfl

theorem outbankCtrlWrite (p : Path) (b : Fin 12) (v : Word) : Statement (.outbankCtrlWrite p b v) :=
  fun h => Bool.noConfusion h

theorem alignUpdate (a : Fin 4) (edges : List LineEdge) : Statement (.alignUpdate a edges) :=
  fun _ => rfl

theorem bankSupplyMismatch (m : BankSupply) : Statement (.bankSupplyMismatch m) :=
  fun _ => rfl

theorem planApply : Statement .planApply :=
  fun _ => rfl

theorem portCfgWrite (p : Path) (n : Fin 16) (v : Word) : Statement (.portCfgWrite p n v) :=
  fun h => Bool.noConfusion h

theorem linkUp (n : Fin 16) : Statement (.linkUp n) :=
  fun _ => rfl

theorem linkDown (n : Fin 16) : Statement (.linkDown n) :=
  fun _ => rfl

theorem syncRx (n : Fin 16) (sess : BitVec 9) (seq : BitVec 16) (fl : SyncFlags) (t1 : Stamp) (rate : BitVec 32) (tl : PtpTail) (tb : Edge) (var : Nat) : Statement (.syncRx n sess seq fl t1 rate tl tb var) :=
  fun _ => rfl

theorem followUpRx (n : Fin 16) (sess : BitVec 9) (seq : BitVec 16) (t1 : Stamp) (rate : BitVec 32) (tl : PtpTail) : Statement (.followUpRx n sess seq t1 rate tl) :=
  fun _ => rfl

theorem delayReqRx (n : Fin 16) (sess : BitVec 9) (seq : BitVec 16) (tl : PtpTail) (tb : Edge) (var : Nat) : Statement (.delayReqRx n sess seq tl tb var) :=
  fun _ => rfl

theorem delayRespRx (n : Fin 16) (sess : BitVec 9) (seq : BitVec 16) (t4 : Stamp) (tl : PtpTail) : Statement (.delayRespRx n sess seq t4 tl) :=
  fun _ => rfl

theorem pdelayReqRx (n : Fin 16) (seq : BitVec 16) (tl : PtpTail) (rx : Point) (tx : Point) : Statement (.pdelayReqRx n seq tl rx tx) :=
  fun _ => rfl

theorem pdelayRespRx (n : Fin 16) (seq : BitVec 16) (t2 : Stamp) (t3 : Stamp) (tl : PtpTail) (tb : Edge) (var : Nat) : Statement (.pdelayRespRx n seq t2 t3 tl tb var) :=
  fun _ => rfl

theorem announceRx (n : Fin 16) (sess : BitVec 9) (clockClass : Byte) (bench : Option (BitVec 256 × Word)) (others : Nat) (auth : Bool) : Statement (.announceRx n sess clockClass bench others auth) :=
  fun _ => rfl

theorem syncTx (i : Fin 8) (n : Fin 16) (sess : BitVec 9) (oneStep : Bool) (tb : Edge) (var : Nat) : Statement (.syncTx i n sess oneStep tb var) :=
  fun _ => rfl

theorem delayReqTx (i : Fin 8) (n : Fin 16) (sess : BitVec 9) (tb : Edge) (var : Nat) : Statement (.delayReqTx i n sess tb var) :=
  fun _ => rfl

theorem announceTx (i : Fin 8) (n : Fin 16) (sess : BitVec 9) : Statement (.announceTx i n sess) :=
  fun _ => rfl

theorem streamWindowClose (i : Fin 32) : Statement (.streamWindowClose i) :=
  fun _ => rfl

theorem parentLost (n : Fin 16) (sess : BitVec 9) : Statement (.parentLost n sess) :=
  fun _ => rfl

theorem grantLapse (n : Fin 16) (sess : BitVec 9) (l : Lapse) : Statement (.grantLapse n sess l) :=
  fun _ => rfl

theorem esmcPduRx (n : Fin 16) (ssm : BitVec 4) (essm : Option Essm) (info : Bool) : Statement (.esmcPduRx n ssm essm info) :=
  fun _ => rfl

theorem esmcInfoTx (n : Fin 16) : Statement (.esmcInfoTx n) :=
  fun _ => rfl

theorem txqStamp (n : Fin 16) (id : BitVec 16) (seq : BitVec 16) (msgType : BitVec 4) (domain : Byte) (tb : Edge) (var : Nat) : Statement (.txqStamp n id seq msgType domain tb var) :=
  fun _ => rfl

theorem txqPop (p : Path) (n : Fin 16) (v : Word) : Statement (.txqPop p n v) :=
  fun h => Bool.noConfusion h

theorem trainRx (n : Fin 16) (seq : Byte) (ack : Byte) (devId : BitVec 64) (link : Byte) : Statement (.trainRx n seq ack devId link) :=
  fun _ => rfl

theorem legendRx (n : Fin 16) (part : Bool) (seq : Byte) (ack : Byte) (payload : List Byte) : Statement (.legendRx n part seq ack payload) :=
  fun _ => rfl

theorem legendTx (n : Fin 16) : Statement (.legendTx n) :=
  fun _ => rfl

theorem phaseTx (n : Fin 16) (tb : Edge) (var : Nat) : Statement (.phaseTx n tb var) :=
  fun _ => rfl

theorem phaseRx (n : Fin 16) (seq : Byte) (ack : Byte) (f : PhaseFrame) (bounds : List Edge) (var : Nat) : Statement (.phaseRx n seq ack f bounds var) :=
  fun _ => rfl

theorem surveyReqRx (n : Fin 16) (f : SurveyHead) (log2 : Byte) : Statement (.surveyReqRx n f log2) :=
  fun _ => rfl

theorem surveyAckRx (n : Fin 16) (f : SurveyHead) (log2 : Byte) : Statement (.surveyAckRx n f log2) :=
  fun _ => rfl

theorem surveyAbortRx (n : Fin 16) (f : SurveyHead) : Statement (.surveyAbortRx n f) :=
  fun _ => rfl

theorem surveyPhaseEnd (n : Fin 16) : Statement (.surveyPhaseEnd n) :=
  fun _ => rfl

theorem surveyDone (n : Fin 16) : Statement (.surveyDone n) :=
  fun _ => rfl

theorem survIntTimer (n : Fin 16) : Statement (.survIntTimer n) :=
  fun _ => rfl

theorem swapRelockTimeout (n : Fin 16) : Statement (.swapRelockTimeout n) :=
  fun _ => rfl

theorem verifyFail (n : Fin 16) : Statement (.verifyFail n) :=
  fun _ => rfl

theorem survey (p : Path) (n : Fin 16) : Statement (.survey p n) :=
  fun h => Bool.noConfusion h

theorem retrain (p : Path) (n : Fin 16) : Statement (.retrain p n) :=
  fun h => Bool.noConfusion h

theorem load (p : Path) (pp : ProgPort) : Statement (.load p pp) :=
  fun h => Bool.noConfusion h

theorem progSwapCmd (p : Path) (pp : ProgPort) : Statement (.progSwapCmd p pp) :=
  fun h => Bool.noConfusion h

theorem cancel (p : Path) (pp : ProgPort) : Statement (.cancel p pp) :=
  fun h => Bool.noConfusion h

theorem restart (p : Path) (e : Fin 8) : Statement (.restart p e) :=
  fun h => Bool.noConfusion h

theorem verificationDone (pp : ProgPort) : Statement (.verificationDone pp) :=
  fun _ => rfl

theorem programSwap (pp : ProgPort) : Statement (.programSwap pp) :=
  fun _ => rfl

theorem swapTmoExpiry (e : Fin 8) : Statement (.swapTmoExpiry e) :=
  fun _ => rfl

theorem watchdog (e : Fin 8) : Statement (.watchdog e) :=
  fun _ => rfl

theorem waitResume (e : Fin 8) : Statement (.waitResume e) :=
  fun _ => rfl

theorem nop (t : Tgt) : Statement (.nop t) :=
  fun _ => rfl

theorem mov (t : Tgt) (rd : Fin 32) (ra : Fin 32) : Statement (.mov t rd ra) :=
  fun _ => rfl

theorem ldi (t : Tgt) (rd : Fin 32) (hw : Fin 4) (keep : Bool) (imm : BitVec 16) : Statement (.ldi t rd hw keep imm) :=
  fun _ => rfl

theorem ldc (t : Tgt) (rd : Fin 32) (idx : BitVec 14) : Statement (.ldc t rd idx) :=
  fun _ => rfl

theorem rdf (t : Tgt) (rd : Fin 32) : Statement (.rdf t rd) :=
  fun _ => rfl

theorem wrf (t : Tgt) (ra : Fin 32) : Statement (.wrf t ra) :=
  fun _ => rfl

theorem rdcw (t : Tgt) (rd : Fin 32) : Statement (.rdcw t rd) :=
  fun _ => rfl

theorem wrcw (t : Tgt) (ra : Fin 32) : Statement (.wrcw t ra) :=
  fun _ => rfl

theorem add (t : Tgt) (rd : Fin 32) (ra : Fin 32) (rb : Fin 32) : Statement (.add t rd ra rb) :=
  fun _ => rfl

theorem adc (t : Tgt) (rd : Fin 32) (ra : Fin 32) (rb : Fin 32) : Statement (.adc t rd ra rb) :=
  fun _ => rfl

theorem sub (t : Tgt) (rd : Fin 32) (ra : Fin 32) (rb : Fin 32) : Statement (.sub t rd ra rb) :=
  fun _ => rfl

theorem sbb (t : Tgt) (rd : Fin 32) (ra : Fin 32) (rb : Fin 32) : Statement (.sbb t rd ra rb) :=
  fun _ => rfl

theorem adds (t : Tgt) (rd : Fin 32) (ra : Fin 32) (rb : Fin 32) : Statement (.adds t rd ra rb) :=
  fun _ => rfl

theorem subs (t : Tgt) (rd : Fin 32) (ra : Fin 32) (rb : Fin 32) : Statement (.subs t rd ra rb) :=
  fun _ => rfl

theorem neg (t : Tgt) (rd : Fin 32) (ra : Fin 32) : Statement (.neg t rd ra) :=
  fun _ => rfl

theorem negs (t : Tgt) (rd : Fin 32) (ra : Fin 32) : Statement (.negs t rd ra) :=
  fun _ => rfl

theorem abs (t : Tgt) (rd : Fin 32) (ra : Fin 32) : Statement (.abs t rd ra) :=
  fun _ => rfl

theorem min (t : Tgt) (rd : Fin 32) (ra : Fin 32) (rb : Fin 32) : Statement (.min t rd ra rb) :=
  fun _ => rfl

theorem max (t : Tgt) (rd : Fin 32) (ra : Fin 32) (rb : Fin 32) : Statement (.max t rd ra rb) :=
  fun _ => rfl

theorem cmp (t : Tgt) (ra : Fin 32) (rb : Fin 32) : Statement (.cmp t ra rb) :=
  fun _ => rfl

theorem tst (t : Tgt) (ra : Fin 32) (rb : Fin 32) : Statement (.tst t ra rb) :=
  fun _ => rfl

theorem addi (t : Tgt) (rd : Fin 32) (ra : Fin 32) (imm : BitVec 14) : Statement (.addi t rd ra imm) :=
  fun _ => rfl

theorem cmpi (t : Tgt) (ra : Fin 32) (imm : BitVec 14) : Statement (.cmpi t ra imm) :=
  fun _ => rfl

theorem andi (t : Tgt) (rd : Fin 32) (ra : Fin 32) (imm : BitVec 14) : Statement (.andi t rd ra imm) :=
  fun _ => rfl

theorem ori (t : Tgt) (rd : Fin 32) (ra : Fin 32) (imm : BitVec 14) : Statement (.ori t rd ra imm) :=
  fun _ => rfl

theorem xori (t : Tgt) (rd : Fin 32) (ra : Fin 32) (imm : BitVec 14) : Statement (.xori t rd ra imm) :=
  fun _ => rfl

theorem tsti (t : Tgt) (ra : Fin 32) (imm : BitVec 14) : Statement (.tsti t ra imm) :=
  fun _ => rfl

theorem and (t : Tgt) (rd : Fin 32) (ra : Fin 32) (rb : Fin 32) : Statement (.and t rd ra rb) :=
  fun _ => rfl

theorem or (t : Tgt) (rd : Fin 32) (ra : Fin 32) (rb : Fin 32) : Statement (.or t rd ra rb) :=
  fun _ => rfl

theorem xor (t : Tgt) (rd : Fin 32) (ra : Fin 32) (rb : Fin 32) : Statement (.xor t rd ra rb) :=
  fun _ => rfl

theorem andn (t : Tgt) (rd : Fin 32) (ra : Fin 32) (rb : Fin 32) : Statement (.andn t rd ra rb) :=
  fun _ => rfl

theorem clz (t : Tgt) (rd : Fin 32) (ra : Fin 32) : Statement (.clz t rd ra) :=
  fun _ => rfl

theorem mul (t : Tgt) (rd : Fin 32) (ra : Fin 32) (rb : Fin 32) : Statement (.mul t rd ra rb) :=
  fun _ => rfl

theorem shl (t : Tgt) (rd : Fin 32) (ra : Fin 32) (rb : Fin 32) (x : BitVec 9) : Statement (.shl t rd ra rb x) :=
  fun _ => rfl

theorem shr (t : Tgt) (rd : Fin 32) (ra : Fin 32) (rb : Fin 32) (x : BitVec 9) : Statement (.shr t rd ra rb x) :=
  fun _ => rfl

theorem sar (t : Tgt) (rd : Fin 32) (ra : Fin 32) (rb : Fin 32) (x : BitVec 9) : Statement (.sar t rd ra rb x) :=
  fun _ => rfl

theorem rsr (t : Tgt) (rd : Fin 32) (ra : Fin 32) (rb : Fin 32) (x : BitVec 9) : Statement (.rsr t rd ra rb x) :=
  fun _ => rfl

theorem mula (t : Tgt) (acd : Fin 4) (ra : Fin 32) (rb : Fin 32) (x : BitVec 8) : Statement (.mula t acd ra rb x) :=
  fun _ => rfl

theorem mac (t : Tgt) (acd : Fin 4) (ra : Fin 32) (rb : Fin 32) (x : BitVec 8) : Statement (.mac t acd ra rb x) :=
  fun _ => rfl

theorem msu (t : Tgt) (acd : Fin 4) (ra : Fin 32) (rb : Fin 32) (x : BitVec 8) : Statement (.msu t acd ra rb x) :=
  fun _ => rfl

theorem acmov (t : Tgt) (acd : Fin 4) (ra : Fin 32) (x : BitVec 8) : Statement (.acmov t acd ra x) :=
  fun _ => rfl

theorem acset (t : Tgt) (acd : Fin 4) (ra : Fin 32) (rb : Fin 32) : Statement (.acset t acd ra rb) :=
  fun _ => rfl

theorem achi (t : Tgt) (rd : Fin 32) (aca : Fin 4) : Statement (.achi t rd aca) :=
  fun _ => rfl

theorem aclo (t : Tgt) (rd : Fin 32) (aca : Fin 4) : Statement (.aclo t rd aca) :=
  fun _ => rfl

theorem acadd (t : Tgt) (acd : Fin 4) (aca : Fin 4) (acb : Fin 4) : Statement (.acadd t acd aca acb) :=
  fun _ => rfl

theorem acsub (t : Tgt) (acd : Fin 4) (aca : Fin 4) (acb : Fin 4) : Statement (.acsub t acd aca acb) :=
  fun _ => rfl

theorem acneg (t : Tgt) (acd : Fin 4) (aca : Fin 4) : Statement (.acneg t acd aca) :=
  fun _ => rfl

theorem acshl (t : Tgt) (acd : Fin 4) (aca : Fin 4) (x : BitVec 8) : Statement (.acshl t acd aca x) :=
  fun _ => rfl

theorem acshr (t : Tgt) (acd : Fin 4) (aca : Fin 4) (x : BitVec 8) : Statement (.acshr t acd aca x) :=
  fun _ => rfl

theorem acn (t : Tgt) (rd : Fin 32) (aca : Fin 4) (x : BitVec 8) : Statement (.acn t rd aca x) :=
  fun _ => rfl

theorem accmp (t : Tgt) (aca : Fin 4) (acb : Fin 4) : Statement (.accmp t aca acb) :=
  fun _ => rfl

theorem acsqrt (t : Tgt) (rd : Fin 32) (aca : Fin 4) : Statement (.acsqrt t rd aca) :=
  fun _ => rfl

theorem div (t : Tgt) (rd : Fin 32) (ra : Fin 32) (rb : Fin 32) : Statement (.div t rd ra rb) :=
  fun _ => rfl

theorem divu (t : Tgt) (rd : Fin 32) (ra : Fin 32) (rb : Fin 32) : Statement (.divu t rd ra rb) :=
  fun _ => rfl

theorem acdiv (t : Tgt) (rd : Fin 32) (aca : Fin 4) (ra : Fin 32) : Statement (.acdiv t rd aca ra) :=
  fun _ => rfl

theorem b (t : Tgt) (cond : BitVec 4) (off : BitVec 20) : Statement (.b t cond off) :=
  fun _ => rfl

theorem call (t : Tgt) (cond : BitVec 4) (off : BitVec 20) : Statement (.call t cond off) :=
  fun _ => rfl

theorem ret (t : Tgt) : Statement (.ret t) :=
  fun _ => rfl

theorem br (e : Fin 8) (ra : Fin 32) : Statement (.br e ra) :=
  fun _ => rfl

theorem halt (e : Fin 8) : Statement (.halt e) :=
  fun _ => rfl

theorem stop (n : Fin 16) : Statement (.stop n) :=
  fun _ => rfl

theorem ldb (e : Fin 8) (rd : Fin 32) (ra : Fin 32) (imm : BitVec 14) : Statement (.ldb e rd ra imm) :=
  fun h => Bool.noConfusion h

theorem ldh (e : Fin 8) (rd : Fin 32) (ra : Fin 32) (imm : BitVec 14) : Statement (.ldh e rd ra imm) :=
  fun h => Bool.noConfusion h

theorem ldw (e : Fin 8) (rd : Fin 32) (ra : Fin 32) (imm : BitVec 14) : Statement (.ldw e rd ra imm) :=
  fun h => Bool.noConfusion h

theorem ldd (e : Fin 8) (rd : Fin 32) (ra : Fin 32) (imm : BitVec 14) : Statement (.ldd e rd ra imm) :=
  fun h => Bool.noConfusion h

theorem ldbs (e : Fin 8) (rd : Fin 32) (ra : Fin 32) (imm : BitVec 14) : Statement (.ldbs e rd ra imm) :=
  fun h => Bool.noConfusion h

theorem ldhs (e : Fin 8) (rd : Fin 32) (ra : Fin 32) (imm : BitVec 14) : Statement (.ldhs e rd ra imm) :=
  fun h => Bool.noConfusion h

theorem ldws (e : Fin 8) (rd : Fin 32) (ra : Fin 32) (imm : BitVec 14) : Statement (.ldws e rd ra imm) :=
  fun h => Bool.noConfusion h

theorem stb (e : Fin 8) (rd : Fin 32) (ra : Fin 32) (imm : BitVec 14) : Statement (.stb e rd ra imm) :=
  fun h => Bool.noConfusion h

theorem sth (e : Fin 8) (rd : Fin 32) (ra : Fin 32) (imm : BitVec 14) : Statement (.sth e rd ra imm) :=
  fun h => Bool.noConfusion h

theorem stw (e : Fin 8) (rd : Fin 32) (ra : Fin 32) (imm : BitVec 14) : Statement (.stw e rd ra imm) :=
  fun h => Bool.noConfusion h

theorem std (e : Fin 8) (rd : Fin 32) (ra : Fin 32) (imm : BitVec 14) : Statement (.std e rd ra imm) :=
  fun h => Bool.noConfusion h

theorem tnow (e : Fin 8) (rd : Fin 32) (x : BitVec 9) : Statement (.tnow e rd x) :=
  fun _ => rfl

theorem tick (e : Fin 8) (rd : Fin 32) : Statement (.tick e rd) :=
  fun _ => rfl

theorem tadd (e : Fin 8) (rd : Fin 32) (ra : Fin 32) (rb : Fin 32) : Statement (.tadd e rd ra rb) :=
  fun _ => rfl

theorem tdif (e : Fin 8) (rd : Fin 32) (ra : Fin 32) (rb : Fin 32) : Statement (.tdif e rd ra rb) :=
  fun _ => rfl

theorem waitt (e : Fin 8) (ra : Fin 32) (x : BitVec 9) : Statement (.waitt e ra x) :=
  fun _ => rfl

theorem waitk (e : Fin 8) (ra : Fin 32) : Statement (.waitk e ra) :=
  fun _ => rfl

theorem waite (e : Fin 8) (rd : Fin 32) (ra : Fin 32) (rb : Fin 32) : Statement (.waite e rd ra rb) :=
  fun _ => rfl

theorem stpop (e : Fin 8) (rd : Fin 32) : Statement (.stpop e rd) :=
  fun _ => rfl

theorem emit (e : Fin 8) (rd : Fin 32) (ra : Fin 32) (rb : Fin 32) : Statement (.emit e rd ra rb) :=
  fun _ => rfl

theorem inx (n : Fin 16) (rd : Fin 32) : Statement (.inx n rd) :=
  fun _ => rfl

theorem inf (n : Fin 16) (rd : Fin 32) : Statement (.inf n rd) :=
  fun _ => rfl

theorem outf (n : Fin 16) (ra : Fin 32) : Statement (.outf n ra) :=
  fun _ => rfl

theorem spush (e : Fin 8) (ra : Fin 32) : Statement (.spush e ra) :=
  fun _ => rfl

theorem note (e : Fin 8) (ra : Fin 32) (imm : BitVec 14) : Statement (.note e ra imm) :=
  fun _ => rfl

theorem mbpost (e : Fin 8) (rd : Fin 32) (ra : Fin 32) (imm : BitVec 14) : Statement (.mbpost e rd ra imm) :=
  fun _ => rfl

theorem mbtake (e : Fin 8) (rd : Fin 32) (ra : Fin 32) (imm : BitVec 14) : Statement (.mbtake e rd ra imm) :=
  fun _ => rfl

theorem dbell (e : Fin 8) (rd : Fin 32) (imm : BitVec 14) : Statement (.dbell e rd imm) :=
  fun _ => rfl

theorem sema (e : Fin 8) (rd : Fin 32) (imm : BitVec 14) : Statement (.sema e rd imm) :=
  fun _ => rfl

theorem semr (e : Fin 8) (imm : BitVec 14) : Statement (.semr e imm) :=
  fun _ => rfl

theorem registerWrite (p : Path) (off : Word) (v : Word) : Statement (.registerWrite p off v) :=
  fun h => Bool.noConfusion h

theorem aliasWrite (p : Path) (addr : Word) (v : Word) : Statement (.aliasWrite p addr v) :=
  fun h => Bool.noConfusion h

theorem holdingReadHigh (p : Path) (off : Word) : Statement (.holdingReadHigh p off) :=
  fun h => Bool.noConfusion h

theorem holdingWriteLow (p : Path) (off : Word) (v : Word) : Statement (.holdingWriteLow p off v) :=
  fun h => Bool.noConfusion h

theorem holdingWriteCommit (p : Path) (off : Word) (v : Word) : Statement (.holdingWriteCommit p off v) :=
  fun h => Bool.noConfusion h

theorem take (p : Path) : Statement (.take p) :=
  fun h => Bool.noConfusion h

theorem indDataWrite (p : Path) (v : Word) : Statement (.indDataWrite p v) :=
  fun h => Bool.noConfusion h

theorem indWriteDone (p : Path) : Statement (.indWriteDone p) :=
  fun h => Bool.noConfusion h

theorem indDataRead (p : Path) : Statement (.indDataRead p) :=
  fun h => Bool.noConfusion h

theorem bar2Write (f : Fin 2) (off : BitVec 27) (bytes : List (Option Byte)) : Statement (.bar2Write f off bytes) :=
  fun _ => rfl

theorem bar2Read (f : Fin 2) (off : BitVec 27) (len : Nat) : Statement (.bar2Read f off len) :=
  fun _ => rfl

theorem badTlp (f : Fin 2) (write : Bool) : Statement (.badTlp f write) :=
  fun _ => rfl

theorem functionLevelReset (f : Fin 2) : Statement (.functionLevelReset f) :=
  fun _ => rfl

theorem perstN : Statement .perstN :=
  fun _ => rfl

theorem sbSetPointer (count : Byte) (off : Word) (pec : Pec) : Statement (.sbSetPointer count off pec) :=
  fun _ => rfl

theorem sbReadAtPointer (pec : Bool) : Statement (.sbReadAtPointer pec) :=
  fun h => Bool.noConfusion h

theorem sbWriteAtPointer (count : Byte) (v : Word) (pec : Pec) : Statement (.sbWriteAtPointer count v pec) :=
  fun h => Bool.noConfusion h

theorem sbProcessCallRead (count : Byte) (off : Word) (pec : Bool) : Statement (.sbProcessCallRead count off pec) :=
  fun h => Bool.noConfusion h

theorem sbWriteAtOffset (count : Byte) (off : Word) (v : Word) (pec : Pec) : Statement (.sbWriteAtOffset count off v pec) :=
  fun h => Bool.noConfusion h

theorem sbStatus : Statement .sbStatus :=
  fun _ => rfl

theorem badCmd (code : Byte) : Statement (.badCmd code) :=
  fun _ => rfl

theorem alertResponse : Statement .alertResponse :=
  fun _ => rfl

theorem smbusTimeout : Statement .smbusTimeout :=
  fun _ => rfl

theorem post (p : Path) (m : Fin 16) : Statement (.post p m) :=
  fun h => Bool.noConfusion h

theorem ack (p : Path) (m : Fin 16) : Statement (.ack p m) :=
  fun h => Bool.noConfusion h

theorem mailboxCfgWrite (p : Path) (m : Fin 16) (v : Word) : Statement (.mailboxCfgWrite p m v) :=
  fun h => Bool.noConfusion h

theorem dbInSet (p : Path) (v : Word) : Statement (.dbInSet p v) :=
  fun h => Bool.noConfusion h

theorem dbInClr (p : Path) (v : Word) : Statement (.dbInClr p v) :=
  fun h => Bool.noConfusion h

theorem dbOutSet (p : Path) (v : Word) : Statement (.dbOutSet p v) :=
  fun h => Bool.noConfusion h

theorem dbOutClr (p : Path) (v : Word) : Statement (.dbOutClr p v) :=
  fun h => Bool.noConfusion h

theorem traverse (mb : Fin 2) (cause : TravCause) : Statement (.traverse mb cause) :=
  fun h => Bool.noConfusion h

theorem traversePass (mb : Fin 2) (result : MbEnd) (answer : Bool) (ident : BitVec 64) : Statement (.traversePass mb result answer ident) :=
  fun _ => rfl

theorem travIntExpiry (mb : Fin 2) : Statement (.travIntExpiry mb) :=
  fun _ => rfl

theorem attach (mb : Fin 2) : Statement (.attach mb) :=
  fun _ => rfl

theorem read (mb : Fin 2) (entry : Fin 64) (reg : Byte) (len : Nat) (result : MbEnd) : Statement (.read mb entry reg len result) :=
  fun _ => rfl

theorem write (mb : Fin 2) (entry : Fin 64) (reg : Byte) (data : List Byte) (result : MbEnd) : Statement (.write mb entry reg data result) :=
  fun _ => rfl

theorem peerTargetFrame (mb : Fin 2) (frame : BusFrame) : Statement (.peerTargetFrame mb frame) :=
  fun _ => rfl

theorem ovenRead (temp : MbEnd) (status : MbEnd) : Statement (.ovenRead temp status) :=
  fun _ => rfl

theorem go (p : Path) (v : Word) : Statement (.go p v) :=
  fun h => Bool.noConfusion h

theorem mbStuck (mb : Fin 2) : Statement (.mbStuck mb) :=
  fun _ => rfl

theorem recoveryPulse (mb : Fin 2) : Statement (.recoveryPulse mb) :=
  fun _ => rfl

theorem mbIsolated (mb : Fin 2) : Statement (.mbIsolated mb) :=
  fun _ => rfl

theorem lineRelease (mb : Fin 2) : Statement (.lineRelease mb) :=
  fun _ => rfl

theorem scrubVisit (bank : Fin 25) (word : BitVec 19) (upset : Nat) : Statement (.scrubVisit bank word upset) :=
  fun _ => rfl

theorem ceThreshCheck (bank : Fin 25) : Statement (.ceThreshCheck bank) :=
  fun _ => rfl

theorem spareTest (ok : Bool) : Statement (.spareTest ok) :=
  fun _ => rfl

theorem memRemap : Statement .memRemap :=
  fun _ => rfl

theorem archiveRefresh (word : BitVec 18) (weak : Bool) (bad : Bool) : Statement (.archiveRefresh word weak bad) :=
  fun _ => rfl

theorem protectWrite (p : Path) (v : Word) : Statement (.protectWrite p v) :=
  fun h => Bool.noConfusion h

theorem faultReport (block : Fin 128) (cause : BitVec 4) : Statement (.faultReport block cause) :=
  fun _ => rfl

theorem selfTestDone (block : Fin 128) (pass : Bool) : Statement (.selfTestDone block pass) :=
  fun _ => rfl

theorem synbRelock (m : Nat) : Statement (.synbRelock m) :=
  fun _ => rfl

theorem datumReload (isl : Fin 2) : Statement (.datumReload isl) :=
  fun _ => rfl

theorem unretire (p : Path) (block : Fin 128) : Statement (.unretire p block) :=
  fun h => Bool.noConfusion h

theorem retireBank (p : Path) (bank : Byte) : Statement (.retireBank p bank) :=
  fun h => Bool.noConfusion h

theorem holdoverCheckpoint (n : Fin 16) : Statement (.holdoverCheckpoint n) :=
  fun _ => rfl

theorem benchmarkScan : Statement .benchmarkScan :=
  fun _ => rfl

theorem stewardShed (load : Nat) : Statement (.stewardShed load) :=
  fun _ => rfl

theorem fwSwap (p : Path) (ok : Bool) : Statement (.fwSwap p ok) :=
  fun h => Bool.noConfusion h

theorem domainPowerDown (p : Path) (dom : Fin 108) : Statement (.domainPowerDown p dom) :=
  fun h => Bool.noConfusion h

theorem domainPowerUp (p : Path) (dom : Fin 108) : Statement (.domainPowerUp p dom) :=
  fun h => Bool.noConfusion h

theorem domainRelease (dom : Fin 108) : Statement (.domainRelease dom) :=
  fun _ => rfl

theorem supply (dom : Fin 108) : Statement (.supply dom) :=
  fun _ => rfl

theorem svSupplyMismatch (g : Fin 12) (within : Bool) : Statement (.svSupplyMismatch g within) :=
  fun _ => rfl

theorem standbyPowerOn (straps : Straps) : Statement (.standbyPowerOn straps) :=
  fun h => Bool.noConfusion h

theorem railOutOfRange : Statement .railOutOfRange :=
  fun h => Bool.noConfusion h

theorem resetN : Statement .resetN :=
  fun h => Bool.noConfusion h

theorem resetCore (p : Path) : Statement (.resetCore p) :=
  fun h => Bool.noConfusion h

theorem resetRelease (straps : Straps) : Statement (.resetRelease straps) :=
  fun _ => rfl

theorem trstN : Statement .trstN :=
  fun _ => rfl

theorem sheetWrite (off : Word) (v : Word) : Statement (.sheetWrite off v) :=
  fun h => Bool.noConfusion h

theorem sheetInd (addr : Word) (v : Word) : Statement (.sheetInd addr v) :=
  fun h => Bool.noConfusion h

theorem sheetImage (kind : Byte) (index : Byte) (swapBit : Bool) (image : List Byte) : Statement (.sheetImage kind index swapBit image) :=
  fun h => Bool.noConfusion h

theorem sheetWait (us : Word) : Statement (.sheetWait us) :=
  fun _ => rfl

theorem sheetEnd (kind : Byte) : Statement (.sheetEnd kind) :=
  fun _ => rfl

theorem firmwareBoot (ok0 : Bool) (ok1 : Bool) : Statement (.firmwareBoot ok0 ok1) :=
  fun _ => rfl

theorem hostFirmwareDoorbell (ok : Bool) : Statement (.hostFirmwareDoorbell ok) :=
  fun h => Bool.noConfusion h

theorem hostFirmwareTimeout : Statement .hostFirmwareTimeout :=
  fun _ => rfl

theorem bootComplete : Statement .bootComplete :=
  fun _ => rfl

theorem modeGo (p : Path) (toMode : BitVec 2) : Statement (.modeGo p toMode) :=
  fun h => Bool.noConfusion h

theorem frameDiscard (n : Fin 16) (hdr : Option (Byte × Byte)) : Statement (.frameDiscard n hdr) :=
  fun _ => rfl

theorem trainTx (n : Fin 16) : Statement (.trainTx n) :=
  fun _ => rfl

theorem switchConfirmTimeout (n : Fin 16) : Statement (.switchConfirmTimeout n) :=
  fun _ => rfl

theorem cdrUnlock (n : Fin 16) : Statement (.cdrUnlock n) :=
  fun _ => rfl

theorem cdrLock (n : Fin 16) : Statement (.cdrLock n) :=
  fun _ => rfl

theorem fecAlignLost (n : Fin 16) : Statement (.fecAlignLost n) :=
  fun _ => rfl

theorem fecAlignGained (n : Fin 16) : Statement (.fecAlignGained n) :=
  fun _ => rfl

theorem pcieLinkDown : Statement .pcieLinkDown :=
  fun _ => rfl

theorem pcieLinkUp (speed : BitVec 3) (width : BitVec 4) : Statement (.pcieLinkUp speed width) :=
  fun _ => rfl

theorem pcieConfigWrite (f : Fin 2) (c : PcieCfg) : Statement (.pcieConfigWrite f c) :=
  fun _ => rfl

theorem dieSensorReading (t : BitVec 16) : Statement (.dieSensorReading t) :=
  fun _ => rfl

theorem alignHandoverSwitch (b : Fin 12) (edges : List (LineEdge × LineEdge)) : Statement (.alignHandoverSwitch b edges) :=
  fun _ => rfl

end Sys2Proof.Laws.Family
end

