-- ==== Sys2Proof/Laws/State.lean ====
section
/-! SUPPORT. What each plain update of the state changes, and that it leaves every other field as it is. -/

namespace Sys2Proof.Machine

@[simp] theorem State.setReg_pending (s : State) (k : Nat) (v : Word) : (s.setReg k v).pending = s.pending := rfl
@[simp] theorem State.setReg_coreUp (s : State) (k : Nat) (v : Word) : (s.setReg k v).coreUp = s.coreUp := rfl
@[simp] theorem State.setReg_ticking (s : State) (k : Nat) (v : Word) : (s.setReg k v).ticking = s.ticking := rfl
@[simp] theorem State.setReg_tick (s : State) (k : Nat) (v : Word) : (s.setReg k v).tick = s.tick := rfl
@[simp] theorem State.setReg_islandTick (s : State) (k : Nat) (v : Word) : (s.setReg k v).islandTick = s.islandTick := rfl
@[simp] theorem State.setReg_rc (s : State) (k : Nat) (v : Word) : (s.setReg k v).rc = s.rc := rfl
@[simp] theorem State.setReg_paths (s : State) (k : Nat) (v : Word) : (s.setReg k v).paths = s.paths := rfl
@[simp] theorem State.setReg_snap (s : State) (k : Nat) (v : Word) : (s.setReg k v).snap = s.snap := rfl
@[simp] theorem State.setReg_xwords (s : State) (k : Nat) (v : Word) : (s.setReg k v).xwords = s.xwords := rfl
@[simp] theorem State.setReg_datums (s : State) (k : Nat) (v : Word) : (s.setReg k v).datums = s.datums := rfl
@[simp] theorem State.setReg_loops (s : State) (k : Nat) (v : Word) : (s.setReg k v).loops = s.loops := rfl
@[simp] theorem State.setReg_slots (s : State) (k : Nat) (v : Word) : (s.setReg k v).slots = s.slots := rfl
@[simp] theorem State.setReg_chans (s : State) (k : Nat) (v : Word) : (s.setReg k v).chans = s.chans := rfl
@[simp] theorem State.setReg_groups (s : State) (k : Nat) (v : Word) : (s.setReg k v).groups = s.groups := rfl
@[simp] theorem State.setReg_units (s : State) (k : Nat) (v : Word) : (s.setReg k v).units = s.units := rfl
@[simp] theorem State.setReg_book (s : State) (k : Nat) (v : Word) : (s.setReg k v).book = s.book := rfl
@[simp] theorem State.setReg_notices (s : State) (k : Nat) (v : Word) : (s.setReg k v).notices = s.notices := rfl
@[simp] theorem State.setReg_syns (s : State) (k : Nat) (v : Word) : (s.setReg k v).syns = s.syns := rfl
@[simp] theorem State.setReg_bankSrc (s : State) (k : Nat) (v : Word) : (s.setReg k v).bankSrc = s.bankSrc := rfl
@[simp] theorem State.setReg_bankHand (s : State) (k : Nat) (v : Word) : (s.setReg k v).bankHand = s.bankHand := rfl
@[simp] theorem State.setReg_bankHeld (s : State) (k : Nat) (v : Word) : (s.setReg k v).bankHeld = s.bankHeld := rfl
@[simp] theorem State.setReg_outs (s : State) (k : Nat) (v : Word) : (s.setReg k v).outs = s.outs := rfl
@[simp] theorem State.setReg_outFrom (s : State) (k : Nat) (v : Word) : (s.setReg k v).outFrom = s.outFrom := rfl
@[simp] theorem State.setReg_lines (s : State) (k : Nat) (v : Word) : (s.setReg k v).lines = s.lines := rfl
@[simp] theorem State.setReg_plan (s : State) (k : Nat) (v : Word) : (s.setReg k v).plan = s.plan := rfl
@[simp] theorem State.setReg_planDue (s : State) (k : Nat) (v : Word) : (s.setReg k v).planDue = s.planDue := rfl
@[simp] theorem State.setReg_ports (s : State) (k : Nat) (v : Word) : (s.setReg k v).ports = s.ports := rfl
@[simp] theorem State.setReg_sessions (s : State) (k : Nat) (v : Word) : (s.setReg k v).sessions = s.sessions := rfl
@[simp] theorem State.setReg_streams (s : State) (k : Nat) (v : Word) : (s.setReg k v).streams = s.streams := rfl
@[simp] theorem State.setReg_insts (s : State) (k : Nat) (v : Word) : (s.setReg k v).insts = s.insts := rfl
@[simp] theorem State.setReg_engines (s : State) (k : Nat) (v : Word) : (s.setReg k v).engines = s.engines := rfl
@[simp] theorem State.setReg_sems (s : State) (k : Nat) (v : Word) : (s.setReg k v).sems = s.sems := rfl
@[simp] theorem State.setReg_funcs (s : State) (k : Nat) (v : Word) : (s.setReg k v).funcs = s.funcs := rfl
@[simp] theorem State.setReg_linkUp (s : State) (k : Nat) (v : Word) : (s.setReg k v).linkUp = s.linkUp := rfl
@[simp] theorem State.setReg_linkSpeed (s : State) (k : Nat) (v : Word) : (s.setReg k v).linkSpeed = s.linkSpeed := rfl
@[simp] theorem State.setReg_linkWidth (s : State) (k : Nat) (v : Word) : (s.setReg k v).linkWidth = s.linkWidth := rfl
@[simp] theorem State.setReg_mboxes (s : State) (k : Nat) (v : Word) : (s.setReg k v).mboxes = s.mboxes := rfl
@[simp] theorem State.setReg_dbIn (s : State) (k : Nat) (v : Word) : (s.setReg k v).dbIn = s.dbIn := rfl
@[simp] theorem State.setReg_dbOut (s : State) (k : Nat) (v : Word) : (s.setReg k v).dbOut = s.dbOut := rfl
@[simp] theorem State.setReg_sideband (s : State) (k : Nat) (v : Word) : (s.setReg k v).sideband = s.sideband := rfl
@[simp] theorem State.setReg_mbs (s : State) (k : Nat) (v : Word) : (s.setReg k v).mbs = s.mbs := rfl
@[simp] theorem State.setReg_gaz (s : State) (k : Nat) (v : Word) : (s.setReg k v).gaz = s.gaz := rfl
@[simp] theorem State.setReg_peerMir (s : State) (k : Nat) (v : Word) : (s.setReg k v).peerMir = s.peerMir := rfl
@[simp] theorem State.setReg_scanning (s : State) (k : Nat) (v : Word) : (s.setReg k v).scanning = s.scanning := rfl
@[simp] theorem State.setReg_reloadDue (s : State) (k : Nat) (v : Word) : (s.setReg k v).reloadDue = s.reloadDue := rfl
@[simp] theorem State.setReg_xfer (s : State) (k : Nat) (v : Word) : (s.setReg k v).xfer = s.xfer := rfl
@[simp] theorem State.setReg_mem (s : State) (k : Nat) (v : Word) : (s.setReg k v).mem = s.mem := rfl
@[simp] theorem State.setReg_arch (s : State) (k : Nat) (v : Word) : (s.setReg k v).arch = s.arch := rfl
@[simp] theorem State.setReg_fm (s : State) (k : Nat) (v : Word) : (s.setReg k v).fm = s.fm := rfl
@[simp] theorem State.setReg_benchMatch (s : State) (k : Nat) (v : Word) : (s.setReg k v).benchMatch = s.benchMatch := rfl
@[simp] theorem State.setReg_stewLoad (s : State) (k : Nat) (v : Word) : (s.setReg k v).stewLoad = s.stewLoad := rfl
@[simp] theorem State.setReg_shedLevel (s : State) (k : Nat) (v : Word) : (s.setReg k v).shedLevel = s.shedLevel := rfl
@[simp] theorem State.setReg_shedHot (s : State) (k : Nat) (v : Word) : (s.setReg k v).shedHot = s.shedHot := rfl
@[simp] theorem State.setReg_shedRun (s : State) (k : Nat) (v : Word) : (s.setReg k v).shedRun = s.shedRun := rfl
@[simp] theorem State.setReg_oven (s : State) (k : Nat) (v : Word) : (s.setReg k v).oven = s.oven := rfl
@[simp] theorem State.setReg_boot (s : State) (k : Nat) (v : Word) : (s.setReg k v).boot = s.boot := rfl
@[simp] theorem State.setReg_domOn (s : State) (k : Nat) (v : Word) : (s.setReg k v).domOn = s.domOn := rfl
@[simp] theorem State.setReg_domRising (s : State) (k : Nat) (v : Word) : (s.setReg k v).domRising = s.domRising := rfl
@[simp] theorem State.setReg_cartOk (s : State) (k : Nat) (v : Word) : (s.setReg k v).cartOk = s.cartOk := rfl
@[simp] theorem State.setReg_emitted (s : State) (k : Nat) (v : Word) : (s.setReg k v).emitted = s.emitted := rfl
@[simp] theorem State.setReg_freeCtr (s : State) (k : Nat) (v : Word) : (s.setReg k v).freeCtr = s.freeCtr := rfl

@[simp] theorem State.wr_pending (s : State) (b : Block) (i o : Nat) (v : Word) : (s.wr b i o v).pending = s.pending := rfl
@[simp] theorem State.wr_coreUp (s : State) (b : Block) (i o : Nat) (v : Word) : (s.wr b i o v).coreUp = s.coreUp := rfl
@[simp] theorem State.wr_ticking (s : State) (b : Block) (i o : Nat) (v : Word) : (s.wr b i o v).ticking = s.ticking := rfl
@[simp] theorem State.wr_tick (s : State) (b : Block) (i o : Nat) (v : Word) : (s.wr b i o v).tick = s.tick := rfl
@[simp] theorem State.wr_islandTick (s : State) (b : Block) (i o : Nat) (v : Word) : (s.wr b i o v).islandTick = s.islandTick := rfl
@[simp] theorem State.wr_rc (s : State) (b : Block) (i o : Nat) (v : Word) : (s.wr b i o v).rc = s.rc := rfl
@[simp] theorem State.wr_paths (s : State) (b : Block) (i o : Nat) (v : Word) : (s.wr b i o v).paths = s.paths := rfl
@[simp] theorem State.wr_snap (s : State) (b : Block) (i o : Nat) (v : Word) : (s.wr b i o v).snap = s.snap := rfl
@[simp] theorem State.wr_xwords (s : State) (b : Block) (i o : Nat) (v : Word) : (s.wr b i o v).xwords = s.xwords := rfl
@[simp] theorem State.wr_datums (s : State) (b : Block) (i o : Nat) (v : Word) : (s.wr b i o v).datums = s.datums := rfl
@[simp] theorem State.wr_loops (s : State) (b : Block) (i o : Nat) (v : Word) : (s.wr b i o v).loops = s.loops := rfl
@[simp] theorem State.wr_slots (s : State) (b : Block) (i o : Nat) (v : Word) : (s.wr b i o v).slots = s.slots := rfl
@[simp] theorem State.wr_chans (s : State) (b : Block) (i o : Nat) (v : Word) : (s.wr b i o v).chans = s.chans := rfl
@[simp] theorem State.wr_groups (s : State) (b : Block) (i o : Nat) (v : Word) : (s.wr b i o v).groups = s.groups := rfl
@[simp] theorem State.wr_units (s : State) (b : Block) (i o : Nat) (v : Word) : (s.wr b i o v).units = s.units := rfl
@[simp] theorem State.wr_book (s : State) (b : Block) (i o : Nat) (v : Word) : (s.wr b i o v).book = s.book := rfl
@[simp] theorem State.wr_notices (s : State) (b : Block) (i o : Nat) (v : Word) : (s.wr b i o v).notices = s.notices := rfl
@[simp] theorem State.wr_syns (s : State) (b : Block) (i o : Nat) (v : Word) : (s.wr b i o v).syns = s.syns := rfl
@[simp] theorem State.wr_bankSrc (s : State) (b : Block) (i o : Nat) (v : Word) : (s.wr b i o v).bankSrc = s.bankSrc := rfl
@[simp] theorem State.wr_bankHand (s : State) (b : Block) (i o : Nat) (v : Word) : (s.wr b i o v).bankHand = s.bankHand := rfl
@[simp] theorem State.wr_bankHeld (s : State) (b : Block) (i o : Nat) (v : Word) : (s.wr b i o v).bankHeld = s.bankHeld := rfl
@[simp] theorem State.wr_outs (s : State) (b : Block) (i o : Nat) (v : Word) : (s.wr b i o v).outs = s.outs := rfl
@[simp] theorem State.wr_outFrom (s : State) (b : Block) (i o : Nat) (v : Word) : (s.wr b i o v).outFrom = s.outFrom := rfl
@[simp] theorem State.wr_lines (s : State) (b : Block) (i o : Nat) (v : Word) : (s.wr b i o v).lines = s.lines := rfl
@[simp] theorem State.wr_plan (s : State) (b : Block) (i o : Nat) (v : Word) : (s.wr b i o v).plan = s.plan := rfl
@[simp] theorem State.wr_planDue (s : State) (b : Block) (i o : Nat) (v : Word) : (s.wr b i o v).planDue = s.planDue := rfl
@[simp] theorem State.wr_ports (s : State) (b : Block) (i o : Nat) (v : Word) : (s.wr b i o v).ports = s.ports := rfl
@[simp] theorem State.wr_sessions (s : State) (b : Block) (i o : Nat) (v : Word) : (s.wr b i o v).sessions = s.sessions := rfl
@[simp] theorem State.wr_streams (s : State) (b : Block) (i o : Nat) (v : Word) : (s.wr b i o v).streams = s.streams := rfl
@[simp] theorem State.wr_insts (s : State) (b : Block) (i o : Nat) (v : Word) : (s.wr b i o v).insts = s.insts := rfl
@[simp] theorem State.wr_engines (s : State) (b : Block) (i o : Nat) (v : Word) : (s.wr b i o v).engines = s.engines := rfl
@[simp] theorem State.wr_sems (s : State) (b : Block) (i o : Nat) (v : Word) : (s.wr b i o v).sems = s.sems := rfl
@[simp] theorem State.wr_funcs (s : State) (b : Block) (i o : Nat) (v : Word) : (s.wr b i o v).funcs = s.funcs := rfl
@[simp] theorem State.wr_linkUp (s : State) (b : Block) (i o : Nat) (v : Word) : (s.wr b i o v).linkUp = s.linkUp := rfl
@[simp] theorem State.wr_linkSpeed (s : State) (b : Block) (i o : Nat) (v : Word) : (s.wr b i o v).linkSpeed = s.linkSpeed := rfl
@[simp] theorem State.wr_linkWidth (s : State) (b : Block) (i o : Nat) (v : Word) : (s.wr b i o v).linkWidth = s.linkWidth := rfl
@[simp] theorem State.wr_mboxes (s : State) (b : Block) (i o : Nat) (v : Word) : (s.wr b i o v).mboxes = s.mboxes := rfl
@[simp] theorem State.wr_dbIn (s : State) (b : Block) (i o : Nat) (v : Word) : (s.wr b i o v).dbIn = s.dbIn := rfl
@[simp] theorem State.wr_dbOut (s : State) (b : Block) (i o : Nat) (v : Word) : (s.wr b i o v).dbOut = s.dbOut := rfl
@[simp] theorem State.wr_sideband (s : State) (b : Block) (i o : Nat) (v : Word) : (s.wr b i o v).sideband = s.sideband := rfl
@[simp] theorem State.wr_mbs (s : State) (b : Block) (i o : Nat) (v : Word) : (s.wr b i o v).mbs = s.mbs := rfl
@[simp] theorem State.wr_gaz (s : State) (b : Block) (i o : Nat) (v : Word) : (s.wr b i o v).gaz = s.gaz := rfl
@[simp] theorem State.wr_peerMir (s : State) (b : Block) (i o : Nat) (v : Word) : (s.wr b i o v).peerMir = s.peerMir := rfl
@[simp] theorem State.wr_scanning (s : State) (b : Block) (i o : Nat) (v : Word) : (s.wr b i o v).scanning = s.scanning := rfl
@[simp] theorem State.wr_reloadDue (s : State) (b : Block) (i o : Nat) (v : Word) : (s.wr b i o v).reloadDue = s.reloadDue := rfl
@[simp] theorem State.wr_xfer (s : State) (b : Block) (i o : Nat) (v : Word) : (s.wr b i o v).xfer = s.xfer := rfl
@[simp] theorem State.wr_mem (s : State) (b : Block) (i o : Nat) (v : Word) : (s.wr b i o v).mem = s.mem := rfl
@[simp] theorem State.wr_arch (s : State) (b : Block) (i o : Nat) (v : Word) : (s.wr b i o v).arch = s.arch := rfl
@[simp] theorem State.wr_fm (s : State) (b : Block) (i o : Nat) (v : Word) : (s.wr b i o v).fm = s.fm := rfl
@[simp] theorem State.wr_benchMatch (s : State) (b : Block) (i o : Nat) (v : Word) : (s.wr b i o v).benchMatch = s.benchMatch := rfl
@[simp] theorem State.wr_stewLoad (s : State) (b : Block) (i o : Nat) (v : Word) : (s.wr b i o v).stewLoad = s.stewLoad := rfl
@[simp] theorem State.wr_shedLevel (s : State) (b : Block) (i o : Nat) (v : Word) : (s.wr b i o v).shedLevel = s.shedLevel := rfl
@[simp] theorem State.wr_shedHot (s : State) (b : Block) (i o : Nat) (v : Word) : (s.wr b i o v).shedHot = s.shedHot := rfl
@[simp] theorem State.wr_shedRun (s : State) (b : Block) (i o : Nat) (v : Word) : (s.wr b i o v).shedRun = s.shedRun := rfl
@[simp] theorem State.wr_oven (s : State) (b : Block) (i o : Nat) (v : Word) : (s.wr b i o v).oven = s.oven := rfl
@[simp] theorem State.wr_boot (s : State) (b : Block) (i o : Nat) (v : Word) : (s.wr b i o v).boot = s.boot := rfl
@[simp] theorem State.wr_domOn (s : State) (b : Block) (i o : Nat) (v : Word) : (s.wr b i o v).domOn = s.domOn := rfl
@[simp] theorem State.wr_domRising (s : State) (b : Block) (i o : Nat) (v : Word) : (s.wr b i o v).domRising = s.domRising := rfl
@[simp] theorem State.wr_cartOk (s : State) (b : Block) (i o : Nat) (v : Word) : (s.wr b i o v).cartOk = s.cartOk := rfl
@[simp] theorem State.wr_emitted (s : State) (b : Block) (i o : Nat) (v : Word) : (s.wr b i o v).emitted = s.emitted := rfl
@[simp] theorem State.wr_freeCtr (s : State) (b : Block) (i o : Nat) (v : Word) : (s.wr b i o v).freeCtr = s.freeCtr := rfl

@[simp] theorem State.setFld_pending (s : State) (b : Block) (i o hi lo v : Nat) : (s.setFld b i o hi lo v).pending = s.pending := rfl
@[simp] theorem State.setFld_coreUp (s : State) (b : Block) (i o hi lo v : Nat) : (s.setFld b i o hi lo v).coreUp = s.coreUp := rfl
@[simp] theorem State.setFld_ticking (s : State) (b : Block) (i o hi lo v : Nat) : (s.setFld b i o hi lo v).ticking = s.ticking := rfl
@[simp] theorem State.setFld_tick (s : State) (b : Block) (i o hi lo v : Nat) : (s.setFld b i o hi lo v).tick = s.tick := rfl
@[simp] theorem State.setFld_islandTick (s : State) (b : Block) (i o hi lo v : Nat) : (s.setFld b i o hi lo v).islandTick = s.islandTick := rfl
@[simp] theorem State.setFld_rc (s : State) (b : Block) (i o hi lo v : Nat) : (s.setFld b i o hi lo v).rc = s.rc := rfl
@[simp] theorem State.setFld_paths (s : State) (b : Block) (i o hi lo v : Nat) : (s.setFld b i o hi lo v).paths = s.paths := rfl
@[simp] theorem State.setFld_snap (s : State) (b : Block) (i o hi lo v : Nat) : (s.setFld b i o hi lo v).snap = s.snap := rfl
@[simp] theorem State.setFld_xwords (s : State) (b : Block) (i o hi lo v : Nat) : (s.setFld b i o hi lo v).xwords = s.xwords := rfl
@[simp] theorem State.setFld_datums (s : State) (b : Block) (i o hi lo v : Nat) : (s.setFld b i o hi lo v).datums = s.datums := rfl
@[simp] theorem State.setFld_loops (s : State) (b : Block) (i o hi lo v : Nat) : (s.setFld b i o hi lo v).loops = s.loops := rfl
@[simp] theorem State.setFld_slots (s : State) (b : Block) (i o hi lo v : Nat) : (s.setFld b i o hi lo v).slots = s.slots := rfl
@[simp] theorem State.setFld_chans (s : State) (b : Block) (i o hi lo v : Nat) : (s.setFld b i o hi lo v).chans = s.chans := rfl
@[simp] theorem State.setFld_groups (s : State) (b : Block) (i o hi lo v : Nat) : (s.setFld b i o hi lo v).groups = s.groups := rfl
@[simp] theorem State.setFld_units (s : State) (b : Block) (i o hi lo v : Nat) : (s.setFld b i o hi lo v).units = s.units := rfl
@[simp] theorem State.setFld_book (s : State) (b : Block) (i o hi lo v : Nat) : (s.setFld b i o hi lo v).book = s.book := rfl
@[simp] theorem State.setFld_notices (s : State) (b : Block) (i o hi lo v : Nat) : (s.setFld b i o hi lo v).notices = s.notices := rfl
@[simp] theorem State.setFld_syns (s : State) (b : Block) (i o hi lo v : Nat) : (s.setFld b i o hi lo v).syns = s.syns := rfl
@[simp] theorem State.setFld_bankSrc (s : State) (b : Block) (i o hi lo v : Nat) : (s.setFld b i o hi lo v).bankSrc = s.bankSrc := rfl
@[simp] theorem State.setFld_bankHand (s : State) (b : Block) (i o hi lo v : Nat) : (s.setFld b i o hi lo v).bankHand = s.bankHand := rfl
@[simp] theorem State.setFld_bankHeld (s : State) (b : Block) (i o hi lo v : Nat) : (s.setFld b i o hi lo v).bankHeld = s.bankHeld := rfl
@[simp] theorem State.setFld_outs (s : State) (b : Block) (i o hi lo v : Nat) : (s.setFld b i o hi lo v).outs = s.outs := rfl
@[simp] theorem State.setFld_outFrom (s : State) (b : Block) (i o hi lo v : Nat) : (s.setFld b i o hi lo v).outFrom = s.outFrom := rfl
@[simp] theorem State.setFld_lines (s : State) (b : Block) (i o hi lo v : Nat) : (s.setFld b i o hi lo v).lines = s.lines := rfl
@[simp] theorem State.setFld_plan (s : State) (b : Block) (i o hi lo v : Nat) : (s.setFld b i o hi lo v).plan = s.plan := rfl
@[simp] theorem State.setFld_planDue (s : State) (b : Block) (i o hi lo v : Nat) : (s.setFld b i o hi lo v).planDue = s.planDue := rfl
@[simp] theorem State.setFld_ports (s : State) (b : Block) (i o hi lo v : Nat) : (s.setFld b i o hi lo v).ports = s.ports := rfl
@[simp] theorem State.setFld_sessions (s : State) (b : Block) (i o hi lo v : Nat) : (s.setFld b i o hi lo v).sessions = s.sessions := rfl
@[simp] theorem State.setFld_streams (s : State) (b : Block) (i o hi lo v : Nat) : (s.setFld b i o hi lo v).streams = s.streams := rfl
@[simp] theorem State.setFld_insts (s : State) (b : Block) (i o hi lo v : Nat) : (s.setFld b i o hi lo v).insts = s.insts := rfl
@[simp] theorem State.setFld_engines (s : State) (b : Block) (i o hi lo v : Nat) : (s.setFld b i o hi lo v).engines = s.engines := rfl
@[simp] theorem State.setFld_sems (s : State) (b : Block) (i o hi lo v : Nat) : (s.setFld b i o hi lo v).sems = s.sems := rfl
@[simp] theorem State.setFld_funcs (s : State) (b : Block) (i o hi lo v : Nat) : (s.setFld b i o hi lo v).funcs = s.funcs := rfl
@[simp] theorem State.setFld_linkUp (s : State) (b : Block) (i o hi lo v : Nat) : (s.setFld b i o hi lo v).linkUp = s.linkUp := rfl
@[simp] theorem State.setFld_linkSpeed (s : State) (b : Block) (i o hi lo v : Nat) : (s.setFld b i o hi lo v).linkSpeed = s.linkSpeed := rfl
@[simp] theorem State.setFld_linkWidth (s : State) (b : Block) (i o hi lo v : Nat) : (s.setFld b i o hi lo v).linkWidth = s.linkWidth := rfl
@[simp] theorem State.setFld_mboxes (s : State) (b : Block) (i o hi lo v : Nat) : (s.setFld b i o hi lo v).mboxes = s.mboxes := rfl
@[simp] theorem State.setFld_dbIn (s : State) (b : Block) (i o hi lo v : Nat) : (s.setFld b i o hi lo v).dbIn = s.dbIn := rfl
@[simp] theorem State.setFld_dbOut (s : State) (b : Block) (i o hi lo v : Nat) : (s.setFld b i o hi lo v).dbOut = s.dbOut := rfl
@[simp] theorem State.setFld_sideband (s : State) (b : Block) (i o hi lo v : Nat) : (s.setFld b i o hi lo v).sideband = s.sideband := rfl
@[simp] theorem State.setFld_mbs (s : State) (b : Block) (i o hi lo v : Nat) : (s.setFld b i o hi lo v).mbs = s.mbs := rfl
@[simp] theorem State.setFld_gaz (s : State) (b : Block) (i o hi lo v : Nat) : (s.setFld b i o hi lo v).gaz = s.gaz := rfl
@[simp] theorem State.setFld_peerMir (s : State) (b : Block) (i o hi lo v : Nat) : (s.setFld b i o hi lo v).peerMir = s.peerMir := rfl
@[simp] theorem State.setFld_scanning (s : State) (b : Block) (i o hi lo v : Nat) : (s.setFld b i o hi lo v).scanning = s.scanning := rfl
@[simp] theorem State.setFld_reloadDue (s : State) (b : Block) (i o hi lo v : Nat) : (s.setFld b i o hi lo v).reloadDue = s.reloadDue := rfl
@[simp] theorem State.setFld_xfer (s : State) (b : Block) (i o hi lo v : Nat) : (s.setFld b i o hi lo v).xfer = s.xfer := rfl
@[simp] theorem State.setFld_mem (s : State) (b : Block) (i o hi lo v : Nat) : (s.setFld b i o hi lo v).mem = s.mem := rfl
@[simp] theorem State.setFld_arch (s : State) (b : Block) (i o hi lo v : Nat) : (s.setFld b i o hi lo v).arch = s.arch := rfl
@[simp] theorem State.setFld_fm (s : State) (b : Block) (i o hi lo v : Nat) : (s.setFld b i o hi lo v).fm = s.fm := rfl
@[simp] theorem State.setFld_benchMatch (s : State) (b : Block) (i o hi lo v : Nat) : (s.setFld b i o hi lo v).benchMatch = s.benchMatch := rfl
@[simp] theorem State.setFld_stewLoad (s : State) (b : Block) (i o hi lo v : Nat) : (s.setFld b i o hi lo v).stewLoad = s.stewLoad := rfl
@[simp] theorem State.setFld_shedLevel (s : State) (b : Block) (i o hi lo v : Nat) : (s.setFld b i o hi lo v).shedLevel = s.shedLevel := rfl
@[simp] theorem State.setFld_shedHot (s : State) (b : Block) (i o hi lo v : Nat) : (s.setFld b i o hi lo v).shedHot = s.shedHot := rfl
@[simp] theorem State.setFld_shedRun (s : State) (b : Block) (i o hi lo v : Nat) : (s.setFld b i o hi lo v).shedRun = s.shedRun := rfl
@[simp] theorem State.setFld_oven (s : State) (b : Block) (i o hi lo v : Nat) : (s.setFld b i o hi lo v).oven = s.oven := rfl
@[simp] theorem State.setFld_boot (s : State) (b : Block) (i o hi lo v : Nat) : (s.setFld b i o hi lo v).boot = s.boot := rfl
@[simp] theorem State.setFld_domOn (s : State) (b : Block) (i o hi lo v : Nat) : (s.setFld b i o hi lo v).domOn = s.domOn := rfl
@[simp] theorem State.setFld_domRising (s : State) (b : Block) (i o hi lo v : Nat) : (s.setFld b i o hi lo v).domRising = s.domRising := rfl
@[simp] theorem State.setFld_cartOk (s : State) (b : Block) (i o hi lo v : Nat) : (s.setFld b i o hi lo v).cartOk = s.cartOk := rfl
@[simp] theorem State.setFld_emitted (s : State) (b : Block) (i o hi lo v : Nat) : (s.setFld b i o hi lo v).emitted = s.emitted := rfl
@[simp] theorem State.setFld_freeCtr (s : State) (b : Block) (i o hi lo v : Nat) : (s.setFld b i o hi lo v).freeCtr = s.freeCtr := rfl

@[simp] theorem State.count_pending (s : State) (b : Block) (i o hi lo n : Nat) : (s.count b i o hi lo n).pending = s.pending := rfl
@[simp] theorem State.count_coreUp (s : State) (b : Block) (i o hi lo n : Nat) : (s.count b i o hi lo n).coreUp = s.coreUp := rfl
@[simp] theorem State.count_ticking (s : State) (b : Block) (i o hi lo n : Nat) : (s.count b i o hi lo n).ticking = s.ticking := rfl
@[simp] theorem State.count_tick (s : State) (b : Block) (i o hi lo n : Nat) : (s.count b i o hi lo n).tick = s.tick := rfl
@[simp] theorem State.count_islandTick (s : State) (b : Block) (i o hi lo n : Nat) : (s.count b i o hi lo n).islandTick = s.islandTick := rfl
@[simp] theorem State.count_rc (s : State) (b : Block) (i o hi lo n : Nat) : (s.count b i o hi lo n).rc = s.rc := rfl
@[simp] theorem State.count_paths (s : State) (b : Block) (i o hi lo n : Nat) : (s.count b i o hi lo n).paths = s.paths := rfl
@[simp] theorem State.count_snap (s : State) (b : Block) (i o hi lo n : Nat) : (s.count b i o hi lo n).snap = s.snap := rfl
@[simp] theorem State.count_xwords (s : State) (b : Block) (i o hi lo n : Nat) : (s.count b i o hi lo n).xwords = s.xwords := rfl
@[simp] theorem State.count_datums (s : State) (b : Block) (i o hi lo n : Nat) : (s.count b i o hi lo n).datums = s.datums := rfl
@[simp] theorem State.count_loops (s : State) (b : Block) (i o hi lo n : Nat) : (s.count b i o hi lo n).loops = s.loops := rfl
@[simp] theorem State.count_slots (s : State) (b : Block) (i o hi lo n : Nat) : (s.count b i o hi lo n).slots = s.slots := rfl
@[simp] theorem State.count_chans (s : State) (b : Block) (i o hi lo n : Nat) : (s.count b i o hi lo n).chans = s.chans := rfl
@[simp] theorem State.count_groups (s : State) (b : Block) (i o hi lo n : Nat) : (s.count b i o hi lo n).groups = s.groups := rfl
@[simp] theorem State.count_units (s : State) (b : Block) (i o hi lo n : Nat) : (s.count b i o hi lo n).units = s.units := rfl
@[simp] theorem State.count_book (s : State) (b : Block) (i o hi lo n : Nat) : (s.count b i o hi lo n).book = s.book := rfl
@[simp] theorem State.count_notices (s : State) (b : Block) (i o hi lo n : Nat) : (s.count b i o hi lo n).notices = s.notices := rfl
@[simp] theorem State.count_syns (s : State) (b : Block) (i o hi lo n : Nat) : (s.count b i o hi lo n).syns = s.syns := rfl
@[simp] theorem State.count_bankSrc (s : State) (b : Block) (i o hi lo n : Nat) : (s.count b i o hi lo n).bankSrc = s.bankSrc := rfl
@[simp] theorem State.count_bankHand (s : State) (b : Block) (i o hi lo n : Nat) : (s.count b i o hi lo n).bankHand = s.bankHand := rfl
@[simp] theorem State.count_bankHeld (s : State) (b : Block) (i o hi lo n : Nat) : (s.count b i o hi lo n).bankHeld = s.bankHeld := rfl
@[simp] theorem State.count_outs (s : State) (b : Block) (i o hi lo n : Nat) : (s.count b i o hi lo n).outs = s.outs := rfl
@[simp] theorem State.count_outFrom (s : State) (b : Block) (i o hi lo n : Nat) : (s.count b i o hi lo n).outFrom = s.outFrom := rfl
@[simp] theorem State.count_lines (s : State) (b : Block) (i o hi lo n : Nat) : (s.count b i o hi lo n).lines = s.lines := rfl
@[simp] theorem State.count_plan (s : State) (b : Block) (i o hi lo n : Nat) : (s.count b i o hi lo n).plan = s.plan := rfl
@[simp] theorem State.count_planDue (s : State) (b : Block) (i o hi lo n : Nat) : (s.count b i o hi lo n).planDue = s.planDue := rfl
@[simp] theorem State.count_ports (s : State) (b : Block) (i o hi lo n : Nat) : (s.count b i o hi lo n).ports = s.ports := rfl
@[simp] theorem State.count_sessions (s : State) (b : Block) (i o hi lo n : Nat) : (s.count b i o hi lo n).sessions = s.sessions := rfl
@[simp] theorem State.count_streams (s : State) (b : Block) (i o hi lo n : Nat) : (s.count b i o hi lo n).streams = s.streams := rfl
@[simp] theorem State.count_insts (s : State) (b : Block) (i o hi lo n : Nat) : (s.count b i o hi lo n).insts = s.insts := rfl
@[simp] theorem State.count_engines (s : State) (b : Block) (i o hi lo n : Nat) : (s.count b i o hi lo n).engines = s.engines := rfl
@[simp] theorem State.count_sems (s : State) (b : Block) (i o hi lo n : Nat) : (s.count b i o hi lo n).sems = s.sems := rfl
@[simp] theorem State.count_funcs (s : State) (b : Block) (i o hi lo n : Nat) : (s.count b i o hi lo n).funcs = s.funcs := rfl
@[simp] theorem State.count_linkUp (s : State) (b : Block) (i o hi lo n : Nat) : (s.count b i o hi lo n).linkUp = s.linkUp := rfl
@[simp] theorem State.count_linkSpeed (s : State) (b : Block) (i o hi lo n : Nat) : (s.count b i o hi lo n).linkSpeed = s.linkSpeed := rfl
@[simp] theorem State.count_linkWidth (s : State) (b : Block) (i o hi lo n : Nat) : (s.count b i o hi lo n).linkWidth = s.linkWidth := rfl
@[simp] theorem State.count_mboxes (s : State) (b : Block) (i o hi lo n : Nat) : (s.count b i o hi lo n).mboxes = s.mboxes := rfl
@[simp] theorem State.count_dbIn (s : State) (b : Block) (i o hi lo n : Nat) : (s.count b i o hi lo n).dbIn = s.dbIn := rfl
@[simp] theorem State.count_dbOut (s : State) (b : Block) (i o hi lo n : Nat) : (s.count b i o hi lo n).dbOut = s.dbOut := rfl
@[simp] theorem State.count_sideband (s : State) (b : Block) (i o hi lo n : Nat) : (s.count b i o hi lo n).sideband = s.sideband := rfl
@[simp] theorem State.count_mbs (s : State) (b : Block) (i o hi lo n : Nat) : (s.count b i o hi lo n).mbs = s.mbs := rfl
@[simp] theorem State.count_gaz (s : State) (b : Block) (i o hi lo n : Nat) : (s.count b i o hi lo n).gaz = s.gaz := rfl
@[simp] theorem State.count_peerMir (s : State) (b : Block) (i o hi lo n : Nat) : (s.count b i o hi lo n).peerMir = s.peerMir := rfl
@[simp] theorem State.count_scanning (s : State) (b : Block) (i o hi lo n : Nat) : (s.count b i o hi lo n).scanning = s.scanning := rfl
@[simp] theorem State.count_reloadDue (s : State) (b : Block) (i o hi lo n : Nat) : (s.count b i o hi lo n).reloadDue = s.reloadDue := rfl
@[simp] theorem State.count_xfer (s : State) (b : Block) (i o hi lo n : Nat) : (s.count b i o hi lo n).xfer = s.xfer := rfl
@[simp] theorem State.count_mem (s : State) (b : Block) (i o hi lo n : Nat) : (s.count b i o hi lo n).mem = s.mem := rfl
@[simp] theorem State.count_arch (s : State) (b : Block) (i o hi lo n : Nat) : (s.count b i o hi lo n).arch = s.arch := rfl
@[simp] theorem State.count_fm (s : State) (b : Block) (i o hi lo n : Nat) : (s.count b i o hi lo n).fm = s.fm := rfl
@[simp] theorem State.count_benchMatch (s : State) (b : Block) (i o hi lo n : Nat) : (s.count b i o hi lo n).benchMatch = s.benchMatch := rfl
@[simp] theorem State.count_stewLoad (s : State) (b : Block) (i o hi lo n : Nat) : (s.count b i o hi lo n).stewLoad = s.stewLoad := rfl
@[simp] theorem State.count_shedLevel (s : State) (b : Block) (i o hi lo n : Nat) : (s.count b i o hi lo n).shedLevel = s.shedLevel := rfl
@[simp] theorem State.count_shedHot (s : State) (b : Block) (i o hi lo n : Nat) : (s.count b i o hi lo n).shedHot = s.shedHot := rfl
@[simp] theorem State.count_shedRun (s : State) (b : Block) (i o hi lo n : Nat) : (s.count b i o hi lo n).shedRun = s.shedRun := rfl
@[simp] theorem State.count_oven (s : State) (b : Block) (i o hi lo n : Nat) : (s.count b i o hi lo n).oven = s.oven := rfl
@[simp] theorem State.count_boot (s : State) (b : Block) (i o hi lo n : Nat) : (s.count b i o hi lo n).boot = s.boot := rfl
@[simp] theorem State.count_domOn (s : State) (b : Block) (i o hi lo n : Nat) : (s.count b i o hi lo n).domOn = s.domOn := rfl
@[simp] theorem State.count_domRising (s : State) (b : Block) (i o hi lo n : Nat) : (s.count b i o hi lo n).domRising = s.domRising := rfl
@[simp] theorem State.count_cartOk (s : State) (b : Block) (i o hi lo n : Nat) : (s.count b i o hi lo n).cartOk = s.cartOk := rfl
@[simp] theorem State.count_emitted (s : State) (b : Block) (i o hi lo n : Nat) : (s.count b i o hi lo n).emitted = s.emitted := rfl
@[simp] theorem State.count_freeCtr (s : State) (b : Block) (i o hi lo n : Nat) : (s.count b i o hi lo n).freeCtr = s.freeCtr := rfl

@[simp] theorem State.rcAll_pending (s : State) (k : Nat) (f : Word → Word) : (s.rcAll k f).pending = s.pending := rfl
@[simp] theorem State.rcAll_coreUp (s : State) (k : Nat) (f : Word → Word) : (s.rcAll k f).coreUp = s.coreUp := rfl
@[simp] theorem State.rcAll_ticking (s : State) (k : Nat) (f : Word → Word) : (s.rcAll k f).ticking = s.ticking := rfl
@[simp] theorem State.rcAll_tick (s : State) (k : Nat) (f : Word → Word) : (s.rcAll k f).tick = s.tick := rfl
@[simp] theorem State.rcAll_islandTick (s : State) (k : Nat) (f : Word → Word) : (s.rcAll k f).islandTick = s.islandTick := rfl
@[simp] theorem State.rcAll_regs (s : State) (k : Nat) (f : Word → Word) : (s.rcAll k f).regs = s.regs := rfl
@[simp] theorem State.rcAll_shadow (s : State) (k : Nat) (f : Word → Word) : (s.rcAll k f).shadow = s.shadow := rfl
@[simp] theorem State.rcAll_paths (s : State) (k : Nat) (f : Word → Word) : (s.rcAll k f).paths = s.paths := rfl
@[simp] theorem State.rcAll_snap (s : State) (k : Nat) (f : Word → Word) : (s.rcAll k f).snap = s.snap := rfl
@[simp] theorem State.rcAll_xwords (s : State) (k : Nat) (f : Word → Word) : (s.rcAll k f).xwords = s.xwords := rfl
@[simp] theorem State.rcAll_datums (s : State) (k : Nat) (f : Word → Word) : (s.rcAll k f).datums = s.datums := rfl
@[simp] theorem State.rcAll_loops (s : State) (k : Nat) (f : Word → Word) : (s.rcAll k f).loops = s.loops := rfl
@[simp] theorem State.rcAll_slots (s : State) (k : Nat) (f : Word → Word) : (s.rcAll k f).slots = s.slots := rfl
@[simp] theorem State.rcAll_chans (s : State) (k : Nat) (f : Word → Word) : (s.rcAll k f).chans = s.chans := rfl
@[simp] theorem State.rcAll_groups (s : State) (k : Nat) (f : Word → Word) : (s.rcAll k f).groups = s.groups := rfl
@[simp] theorem State.rcAll_units (s : State) (k : Nat) (f : Word → Word) : (s.rcAll k f).units = s.units := rfl
@[simp] theorem State.rcAll_book (s : State) (k : Nat) (f : Word → Word) : (s.rcAll k f).book = s.book := rfl
@[simp] theorem State.rcAll_notices (s : State) (k : Nat) (f : Word → Word) : (s.rcAll k f).notices = s.notices := rfl
@[simp] theorem State.rcAll_syns (s : State) (k : Nat) (f : Word → Word) : (s.rcAll k f).syns = s.syns := rfl
@[simp] theorem State.rcAll_bankSrc (s : State) (k : Nat) (f : Word → Word) : (s.rcAll k f).bankSrc = s.bankSrc := rfl
@[simp] theorem State.rcAll_bankHand (s : State) (k : Nat) (f : Word → Word) : (s.rcAll k f).bankHand = s.bankHand := rfl
@[simp] theorem State.rcAll_bankHeld (s : State) (k : Nat) (f : Word → Word) : (s.rcAll k f).bankHeld = s.bankHeld := rfl
@[simp] theorem State.rcAll_outs (s : State) (k : Nat) (f : Word → Word) : (s.rcAll k f).outs = s.outs := rfl
@[simp] theorem State.rcAll_outFrom (s : State) (k : Nat) (f : Word → Word) : (s.rcAll k f).outFrom = s.outFrom := rfl
@[simp] theorem State.rcAll_lines (s : State) (k : Nat) (f : Word → Word) : (s.rcAll k f).lines = s.lines := rfl
@[simp] theorem State.rcAll_plan (s : State) (k : Nat) (f : Word → Word) : (s.rcAll k f).plan = s.plan := rfl
@[simp] theorem State.rcAll_planDue (s : State) (k : Nat) (f : Word → Word) : (s.rcAll k f).planDue = s.planDue := rfl
@[simp] theorem State.rcAll_ports (s : State) (k : Nat) (f : Word → Word) : (s.rcAll k f).ports = s.ports := rfl
@[simp] theorem State.rcAll_sessions (s : State) (k : Nat) (f : Word → Word) : (s.rcAll k f).sessions = s.sessions := rfl
@[simp] theorem State.rcAll_streams (s : State) (k : Nat) (f : Word → Word) : (s.rcAll k f).streams = s.streams := rfl
@[simp] theorem State.rcAll_insts (s : State) (k : Nat) (f : Word → Word) : (s.rcAll k f).insts = s.insts := rfl
@[simp] theorem State.rcAll_engines (s : State) (k : Nat) (f : Word → Word) : (s.rcAll k f).engines = s.engines := rfl
@[simp] theorem State.rcAll_sems (s : State) (k : Nat) (f : Word → Word) : (s.rcAll k f).sems = s.sems := rfl
@[simp] theorem State.rcAll_funcs (s : State) (k : Nat) (f : Word → Word) : (s.rcAll k f).funcs = s.funcs := rfl
@[simp] theorem State.rcAll_linkUp (s : State) (k : Nat) (f : Word → Word) : (s.rcAll k f).linkUp = s.linkUp := rfl
@[simp] theorem State.rcAll_linkSpeed (s : State) (k : Nat) (f : Word → Word) : (s.rcAll k f).linkSpeed = s.linkSpeed := rfl
@[simp] theorem State.rcAll_linkWidth (s : State) (k : Nat) (f : Word → Word) : (s.rcAll k f).linkWidth = s.linkWidth := rfl
@[simp] theorem State.rcAll_mboxes (s : State) (k : Nat) (f : Word → Word) : (s.rcAll k f).mboxes = s.mboxes := rfl
@[simp] theorem State.rcAll_dbIn (s : State) (k : Nat) (f : Word → Word) : (s.rcAll k f).dbIn = s.dbIn := rfl
@[simp] theorem State.rcAll_dbOut (s : State) (k : Nat) (f : Word → Word) : (s.rcAll k f).dbOut = s.dbOut := rfl
@[simp] theorem State.rcAll_sideband (s : State) (k : Nat) (f : Word → Word) : (s.rcAll k f).sideband = s.sideband := rfl
@[simp] theorem State.rcAll_mbs (s : State) (k : Nat) (f : Word → Word) : (s.rcAll k f).mbs = s.mbs := rfl
@[simp] theorem State.rcAll_gaz (s : State) (k : Nat) (f : Word → Word) : (s.rcAll k f).gaz = s.gaz := rfl
@[simp] theorem State.rcAll_peerMir (s : State) (k : Nat) (f : Word → Word) : (s.rcAll k f).peerMir = s.peerMir := rfl
@[simp] theorem State.rcAll_scanning (s : State) (k : Nat) (f : Word → Word) : (s.rcAll k f).scanning = s.scanning := rfl
@[simp] theorem State.rcAll_reloadDue (s : State) (k : Nat) (f : Word → Word) : (s.rcAll k f).reloadDue = s.reloadDue := rfl
@[simp] theorem State.rcAll_xfer (s : State) (k : Nat) (f : Word → Word) : (s.rcAll k f).xfer = s.xfer := rfl
@[simp] theorem State.rcAll_mem (s : State) (k : Nat) (f : Word → Word) : (s.rcAll k f).mem = s.mem := rfl
@[simp] theorem State.rcAll_arch (s : State) (k : Nat) (f : Word → Word) : (s.rcAll k f).arch = s.arch := rfl
@[simp] theorem State.rcAll_fm (s : State) (k : Nat) (f : Word → Word) : (s.rcAll k f).fm = s.fm := rfl
@[simp] theorem State.rcAll_benchMatch (s : State) (k : Nat) (f : Word → Word) : (s.rcAll k f).benchMatch = s.benchMatch := rfl
@[simp] theorem State.rcAll_stewLoad (s : State) (k : Nat) (f : Word → Word) : (s.rcAll k f).stewLoad = s.stewLoad := rfl
@[simp] theorem State.rcAll_shedLevel (s : State) (k : Nat) (f : Word → Word) : (s.rcAll k f).shedLevel = s.shedLevel := rfl
@[simp] theorem State.rcAll_shedHot (s : State) (k : Nat) (f : Word → Word) : (s.rcAll k f).shedHot = s.shedHot := rfl
@[simp] theorem State.rcAll_shedRun (s : State) (k : Nat) (f : Word → Word) : (s.rcAll k f).shedRun = s.shedRun := rfl
@[simp] theorem State.rcAll_oven (s : State) (k : Nat) (f : Word → Word) : (s.rcAll k f).oven = s.oven := rfl
@[simp] theorem State.rcAll_boot (s : State) (k : Nat) (f : Word → Word) : (s.rcAll k f).boot = s.boot := rfl
@[simp] theorem State.rcAll_domOn (s : State) (k : Nat) (f : Word → Word) : (s.rcAll k f).domOn = s.domOn := rfl
@[simp] theorem State.rcAll_domRising (s : State) (k : Nat) (f : Word → Word) : (s.rcAll k f).domRising = s.domRising := rfl
@[simp] theorem State.rcAll_cartOk (s : State) (k : Nat) (f : Word → Word) : (s.rcAll k f).cartOk = s.cartOk := rfl
@[simp] theorem State.rcAll_emitted (s : State) (k : Nat) (f : Word → Word) : (s.rcAll k f).emitted = s.emitted := rfl
@[simp] theorem State.rcAll_freeCtr (s : State) (k : Nat) (f : Word → Word) : (s.rcAll k f).freeCtr = s.freeCtr := rfl

@[simp] theorem State.rcSet_pending (s : State) (b : Block) (i o : Nat) (m : Word) : (s.rcSet b i o m).pending = s.pending := rfl
@[simp] theorem State.rcSet_coreUp (s : State) (b : Block) (i o : Nat) (m : Word) : (s.rcSet b i o m).coreUp = s.coreUp := rfl
@[simp] theorem State.rcSet_ticking (s : State) (b : Block) (i o : Nat) (m : Word) : (s.rcSet b i o m).ticking = s.ticking := rfl
@[simp] theorem State.rcSet_tick (s : State) (b : Block) (i o : Nat) (m : Word) : (s.rcSet b i o m).tick = s.tick := rfl
@[simp] theorem State.rcSet_islandTick (s : State) (b : Block) (i o : Nat) (m : Word) : (s.rcSet b i o m).islandTick = s.islandTick := rfl
@[simp] theorem State.rcSet_regs (s : State) (b : Block) (i o : Nat) (m : Word) : (s.rcSet b i o m).regs = s.regs := rfl
@[simp] theorem State.rcSet_shadow (s : State) (b : Block) (i o : Nat) (m : Word) : (s.rcSet b i o m).shadow = s.shadow := rfl
@[simp] theorem State.rcSet_paths (s : State) (b : Block) (i o : Nat) (m : Word) : (s.rcSet b i o m).paths = s.paths := rfl
@[simp] theorem State.rcSet_snap (s : State) (b : Block) (i o : Nat) (m : Word) : (s.rcSet b i o m).snap = s.snap := rfl
@[simp] theorem State.rcSet_xwords (s : State) (b : Block) (i o : Nat) (m : Word) : (s.rcSet b i o m).xwords = s.xwords := rfl
@[simp] theorem State.rcSet_datums (s : State) (b : Block) (i o : Nat) (m : Word) : (s.rcSet b i o m).datums = s.datums := rfl
@[simp] theorem State.rcSet_loops (s : State) (b : Block) (i o : Nat) (m : Word) : (s.rcSet b i o m).loops = s.loops := rfl
@[simp] theorem State.rcSet_slots (s : State) (b : Block) (i o : Nat) (m : Word) : (s.rcSet b i o m).slots = s.slots := rfl
@[simp] theorem State.rcSet_chans (s : State) (b : Block) (i o : Nat) (m : Word) : (s.rcSet b i o m).chans = s.chans := rfl
@[simp] theorem State.rcSet_groups (s : State) (b : Block) (i o : Nat) (m : Word) : (s.rcSet b i o m).groups = s.groups := rfl
@[simp] theorem State.rcSet_units (s : State) (b : Block) (i o : Nat) (m : Word) : (s.rcSet b i o m).units = s.units := rfl
@[simp] theorem State.rcSet_book (s : State) (b : Block) (i o : Nat) (m : Word) : (s.rcSet b i o m).book = s.book := rfl
@[simp] theorem State.rcSet_notices (s : State) (b : Block) (i o : Nat) (m : Word) : (s.rcSet b i o m).notices = s.notices := rfl
@[simp] theorem State.rcSet_syns (s : State) (b : Block) (i o : Nat) (m : Word) : (s.rcSet b i o m).syns = s.syns := rfl
@[simp] theorem State.rcSet_bankSrc (s : State) (b : Block) (i o : Nat) (m : Word) : (s.rcSet b i o m).bankSrc = s.bankSrc := rfl
@[simp] theorem State.rcSet_bankHand (s : State) (b : Block) (i o : Nat) (m : Word) : (s.rcSet b i o m).bankHand = s.bankHand := rfl
@[simp] theorem State.rcSet_bankHeld (s : State) (b : Block) (i o : Nat) (m : Word) : (s.rcSet b i o m).bankHeld = s.bankHeld := rfl
@[simp] theorem State.rcSet_outs (s : State) (b : Block) (i o : Nat) (m : Word) : (s.rcSet b i o m).outs = s.outs := rfl
@[simp] theorem State.rcSet_outFrom (s : State) (b : Block) (i o : Nat) (m : Word) : (s.rcSet b i o m).outFrom = s.outFrom := rfl
@[simp] theorem State.rcSet_lines (s : State) (b : Block) (i o : Nat) (m : Word) : (s.rcSet b i o m).lines = s.lines := rfl
@[simp] theorem State.rcSet_plan (s : State) (b : Block) (i o : Nat) (m : Word) : (s.rcSet b i o m).plan = s.plan := rfl
@[simp] theorem State.rcSet_planDue (s : State) (b : Block) (i o : Nat) (m : Word) : (s.rcSet b i o m).planDue = s.planDue := rfl
@[simp] theorem State.rcSet_ports (s : State) (b : Block) (i o : Nat) (m : Word) : (s.rcSet b i o m).ports = s.ports := rfl
@[simp] theorem State.rcSet_sessions (s : State) (b : Block) (i o : Nat) (m : Word) : (s.rcSet b i o m).sessions = s.sessions := rfl
@[simp] theorem State.rcSet_streams (s : State) (b : Block) (i o : Nat) (m : Word) : (s.rcSet b i o m).streams = s.streams := rfl
@[simp] theorem State.rcSet_insts (s : State) (b : Block) (i o : Nat) (m : Word) : (s.rcSet b i o m).insts = s.insts := rfl
@[simp] theorem State.rcSet_engines (s : State) (b : Block) (i o : Nat) (m : Word) : (s.rcSet b i o m).engines = s.engines := rfl
@[simp] theorem State.rcSet_sems (s : State) (b : Block) (i o : Nat) (m : Word) : (s.rcSet b i o m).sems = s.sems := rfl
@[simp] theorem State.rcSet_funcs (s : State) (b : Block) (i o : Nat) (m : Word) : (s.rcSet b i o m).funcs = s.funcs := rfl
@[simp] theorem State.rcSet_linkUp (s : State) (b : Block) (i o : Nat) (m : Word) : (s.rcSet b i o m).linkUp = s.linkUp := rfl
@[simp] theorem State.rcSet_linkSpeed (s : State) (b : Block) (i o : Nat) (m : Word) : (s.rcSet b i o m).linkSpeed = s.linkSpeed := rfl
@[simp] theorem State.rcSet_linkWidth (s : State) (b : Block) (i o : Nat) (m : Word) : (s.rcSet b i o m).linkWidth = s.linkWidth := rfl
@[simp] theorem State.rcSet_mboxes (s : State) (b : Block) (i o : Nat) (m : Word) : (s.rcSet b i o m).mboxes = s.mboxes := rfl
@[simp] theorem State.rcSet_dbIn (s : State) (b : Block) (i o : Nat) (m : Word) : (s.rcSet b i o m).dbIn = s.dbIn := rfl
@[simp] theorem State.rcSet_dbOut (s : State) (b : Block) (i o : Nat) (m : Word) : (s.rcSet b i o m).dbOut = s.dbOut := rfl
@[simp] theorem State.rcSet_sideband (s : State) (b : Block) (i o : Nat) (m : Word) : (s.rcSet b i o m).sideband = s.sideband := rfl
@[simp] theorem State.rcSet_mbs (s : State) (b : Block) (i o : Nat) (m : Word) : (s.rcSet b i o m).mbs = s.mbs := rfl
@[simp] theorem State.rcSet_gaz (s : State) (b : Block) (i o : Nat) (m : Word) : (s.rcSet b i o m).gaz = s.gaz := rfl
@[simp] theorem State.rcSet_peerMir (s : State) (b : Block) (i o : Nat) (m : Word) : (s.rcSet b i o m).peerMir = s.peerMir := rfl
@[simp] theorem State.rcSet_scanning (s : State) (b : Block) (i o : Nat) (m : Word) : (s.rcSet b i o m).scanning = s.scanning := rfl
@[simp] theorem State.rcSet_reloadDue (s : State) (b : Block) (i o : Nat) (m : Word) : (s.rcSet b i o m).reloadDue = s.reloadDue := rfl
@[simp] theorem State.rcSet_xfer (s : State) (b : Block) (i o : Nat) (m : Word) : (s.rcSet b i o m).xfer = s.xfer := rfl
@[simp] theorem State.rcSet_mem (s : State) (b : Block) (i o : Nat) (m : Word) : (s.rcSet b i o m).mem = s.mem := rfl
@[simp] theorem State.rcSet_arch (s : State) (b : Block) (i o : Nat) (m : Word) : (s.rcSet b i o m).arch = s.arch := rfl
@[simp] theorem State.rcSet_fm (s : State) (b : Block) (i o : Nat) (m : Word) : (s.rcSet b i o m).fm = s.fm := rfl
@[simp] theorem State.rcSet_benchMatch (s : State) (b : Block) (i o : Nat) (m : Word) : (s.rcSet b i o m).benchMatch = s.benchMatch := rfl
@[simp] theorem State.rcSet_stewLoad (s : State) (b : Block) (i o : Nat) (m : Word) : (s.rcSet b i o m).stewLoad = s.stewLoad := rfl
@[simp] theorem State.rcSet_shedLevel (s : State) (b : Block) (i o : Nat) (m : Word) : (s.rcSet b i o m).shedLevel = s.shedLevel := rfl
@[simp] theorem State.rcSet_shedHot (s : State) (b : Block) (i o : Nat) (m : Word) : (s.rcSet b i o m).shedHot = s.shedHot := rfl
@[simp] theorem State.rcSet_shedRun (s : State) (b : Block) (i o : Nat) (m : Word) : (s.rcSet b i o m).shedRun = s.shedRun := rfl
@[simp] theorem State.rcSet_oven (s : State) (b : Block) (i o : Nat) (m : Word) : (s.rcSet b i o m).oven = s.oven := rfl
@[simp] theorem State.rcSet_boot (s : State) (b : Block) (i o : Nat) (m : Word) : (s.rcSet b i o m).boot = s.boot := rfl
@[simp] theorem State.rcSet_domOn (s : State) (b : Block) (i o : Nat) (m : Word) : (s.rcSet b i o m).domOn = s.domOn := rfl
@[simp] theorem State.rcSet_domRising (s : State) (b : Block) (i o : Nat) (m : Word) : (s.rcSet b i o m).domRising = s.domRising := rfl
@[simp] theorem State.rcSet_cartOk (s : State) (b : Block) (i o : Nat) (m : Word) : (s.rcSet b i o m).cartOk = s.cartOk := rfl
@[simp] theorem State.rcSet_emitted (s : State) (b : Block) (i o : Nat) (m : Word) : (s.rcSet b i o m).emitted = s.emitted := rfl
@[simp] theorem State.rcSet_freeCtr (s : State) (b : Block) (i o : Nat) (m : Word) : (s.rcSet b i o m).freeCtr = s.freeCtr := rfl

@[simp] theorem State.rcCount_pending (s : State) (b : Block) (i o hi lo n : Nat) : (s.rcCount b i o hi lo n).pending = s.pending := rfl
@[simp] theorem State.rcCount_coreUp (s : State) (b : Block) (i o hi lo n : Nat) : (s.rcCount b i o hi lo n).coreUp = s.coreUp := rfl
@[simp] theorem State.rcCount_ticking (s : State) (b : Block) (i o hi lo n : Nat) : (s.rcCount b i o hi lo n).ticking = s.ticking := rfl
@[simp] theorem State.rcCount_tick (s : State) (b : Block) (i o hi lo n : Nat) : (s.rcCount b i o hi lo n).tick = s.tick := rfl
@[simp] theorem State.rcCount_islandTick (s : State) (b : Block) (i o hi lo n : Nat) : (s.rcCount b i o hi lo n).islandTick = s.islandTick := rfl
@[simp] theorem State.rcCount_regs (s : State) (b : Block) (i o hi lo n : Nat) : (s.rcCount b i o hi lo n).regs = s.regs := rfl
@[simp] theorem State.rcCount_shadow (s : State) (b : Block) (i o hi lo n : Nat) : (s.rcCount b i o hi lo n).shadow = s.shadow := rfl
@[simp] theorem State.rcCount_paths (s : State) (b : Block) (i o hi lo n : Nat) : (s.rcCount b i o hi lo n).paths = s.paths := rfl
@[simp] theorem State.rcCount_snap (s : State) (b : Block) (i o hi lo n : Nat) : (s.rcCount b i o hi lo n).snap = s.snap := rfl
@[simp] theorem State.rcCount_xwords (s : State) (b : Block) (i o hi lo n : Nat) : (s.rcCount b i o hi lo n).xwords = s.xwords := rfl
@[simp] theorem State.rcCount_datums (s : State) (b : Block) (i o hi lo n : Nat) : (s.rcCount b i o hi lo n).datums = s.datums := rfl
@[simp] theorem State.rcCount_loops (s : State) (b : Block) (i o hi lo n : Nat) : (s.rcCount b i o hi lo n).loops = s.loops := rfl
@[simp] theorem State.rcCount_slots (s : State) (b : Block) (i o hi lo n : Nat) : (s.rcCount b i o hi lo n).slots = s.slots := rfl
@[simp] theorem State.rcCount_chans (s : State) (b : Block) (i o hi lo n : Nat) : (s.rcCount b i o hi lo n).chans = s.chans := rfl
@[simp] theorem State.rcCount_groups (s : State) (b : Block) (i o hi lo n : Nat) : (s.rcCount b i o hi lo n).groups = s.groups := rfl
@[simp] theorem State.rcCount_units (s : State) (b : Block) (i o hi lo n : Nat) : (s.rcCount b i o hi lo n).units = s.units := rfl
@[simp] theorem State.rcCount_book (s : State) (b : Block) (i o hi lo n : Nat) : (s.rcCount b i o hi lo n).book = s.book := rfl
@[simp] theorem State.rcCount_notices (s : State) (b : Block) (i o hi lo n : Nat) : (s.rcCount b i o hi lo n).notices = s.notices := rfl
@[simp] theorem State.rcCount_syns (s : State) (b : Block) (i o hi lo n : Nat) : (s.rcCount b i o hi lo n).syns = s.syns := rfl
@[simp] theorem State.rcCount_bankSrc (s : State) (b : Block) (i o hi lo n : Nat) : (s.rcCount b i o hi lo n).bankSrc = s.bankSrc := rfl
@[simp] theorem State.rcCount_bankHand (s : State) (b : Block) (i o hi lo n : Nat) : (s.rcCount b i o hi lo n).bankHand = s.bankHand := rfl
@[simp] theorem State.rcCount_bankHeld (s : State) (b : Block) (i o hi lo n : Nat) : (s.rcCount b i o hi lo n).bankHeld = s.bankHeld := rfl
@[simp] theorem State.rcCount_outs (s : State) (b : Block) (i o hi lo n : Nat) : (s.rcCount b i o hi lo n).outs = s.outs := rfl
@[simp] theorem State.rcCount_outFrom (s : State) (b : Block) (i o hi lo n : Nat) : (s.rcCount b i o hi lo n).outFrom = s.outFrom := rfl
@[simp] theorem State.rcCount_lines (s : State) (b : Block) (i o hi lo n : Nat) : (s.rcCount b i o hi lo n).lines = s.lines := rfl
@[simp] theorem State.rcCount_plan (s : State) (b : Block) (i o hi lo n : Nat) : (s.rcCount b i o hi lo n).plan = s.plan := rfl
@[simp] theorem State.rcCount_planDue (s : State) (b : Block) (i o hi lo n : Nat) : (s.rcCount b i o hi lo n).planDue = s.planDue := rfl
@[simp] theorem State.rcCount_ports (s : State) (b : Block) (i o hi lo n : Nat) : (s.rcCount b i o hi lo n).ports = s.ports := rfl
@[simp] theorem State.rcCount_sessions (s : State) (b : Block) (i o hi lo n : Nat) : (s.rcCount b i o hi lo n).sessions = s.sessions := rfl
@[simp] theorem State.rcCount_streams (s : State) (b : Block) (i o hi lo n : Nat) : (s.rcCount b i o hi lo n).streams = s.streams := rfl
@[simp] theorem State.rcCount_insts (s : State) (b : Block) (i o hi lo n : Nat) : (s.rcCount b i o hi lo n).insts = s.insts := rfl
@[simp] theorem State.rcCount_engines (s : State) (b : Block) (i o hi lo n : Nat) : (s.rcCount b i o hi lo n).engines = s.engines := rfl
@[simp] theorem State.rcCount_sems (s : State) (b : Block) (i o hi lo n : Nat) : (s.rcCount b i o hi lo n).sems = s.sems := rfl
@[simp] theorem State.rcCount_funcs (s : State) (b : Block) (i o hi lo n : Nat) : (s.rcCount b i o hi lo n).funcs = s.funcs := rfl
@[simp] theorem State.rcCount_linkUp (s : State) (b : Block) (i o hi lo n : Nat) : (s.rcCount b i o hi lo n).linkUp = s.linkUp := rfl
@[simp] theorem State.rcCount_linkSpeed (s : State) (b : Block) (i o hi lo n : Nat) : (s.rcCount b i o hi lo n).linkSpeed = s.linkSpeed := rfl
@[simp] theorem State.rcCount_linkWidth (s : State) (b : Block) (i o hi lo n : Nat) : (s.rcCount b i o hi lo n).linkWidth = s.linkWidth := rfl
@[simp] theorem State.rcCount_mboxes (s : State) (b : Block) (i o hi lo n : Nat) : (s.rcCount b i o hi lo n).mboxes = s.mboxes := rfl
@[simp] theorem State.rcCount_dbIn (s : State) (b : Block) (i o hi lo n : Nat) : (s.rcCount b i o hi lo n).dbIn = s.dbIn := rfl
@[simp] theorem State.rcCount_dbOut (s : State) (b : Block) (i o hi lo n : Nat) : (s.rcCount b i o hi lo n).dbOut = s.dbOut := rfl
@[simp] theorem State.rcCount_sideband (s : State) (b : Block) (i o hi lo n : Nat) : (s.rcCount b i o hi lo n).sideband = s.sideband := rfl
@[simp] theorem State.rcCount_mbs (s : State) (b : Block) (i o hi lo n : Nat) : (s.rcCount b i o hi lo n).mbs = s.mbs := rfl
@[simp] theorem State.rcCount_gaz (s : State) (b : Block) (i o hi lo n : Nat) : (s.rcCount b i o hi lo n).gaz = s.gaz := rfl
@[simp] theorem State.rcCount_peerMir (s : State) (b : Block) (i o hi lo n : Nat) : (s.rcCount b i o hi lo n).peerMir = s.peerMir := rfl
@[simp] theorem State.rcCount_scanning (s : State) (b : Block) (i o hi lo n : Nat) : (s.rcCount b i o hi lo n).scanning = s.scanning := rfl
@[simp] theorem State.rcCount_reloadDue (s : State) (b : Block) (i o hi lo n : Nat) : (s.rcCount b i o hi lo n).reloadDue = s.reloadDue := rfl
@[simp] theorem State.rcCount_xfer (s : State) (b : Block) (i o hi lo n : Nat) : (s.rcCount b i o hi lo n).xfer = s.xfer := rfl
@[simp] theorem State.rcCount_mem (s : State) (b : Block) (i o hi lo n : Nat) : (s.rcCount b i o hi lo n).mem = s.mem := rfl
@[simp] theorem State.rcCount_arch (s : State) (b : Block) (i o hi lo n : Nat) : (s.rcCount b i o hi lo n).arch = s.arch := rfl
@[simp] theorem State.rcCount_fm (s : State) (b : Block) (i o hi lo n : Nat) : (s.rcCount b i o hi lo n).fm = s.fm := rfl
@[simp] theorem State.rcCount_benchMatch (s : State) (b : Block) (i o hi lo n : Nat) : (s.rcCount b i o hi lo n).benchMatch = s.benchMatch := rfl
@[simp] theorem State.rcCount_stewLoad (s : State) (b : Block) (i o hi lo n : Nat) : (s.rcCount b i o hi lo n).stewLoad = s.stewLoad := rfl
@[simp] theorem State.rcCount_shedLevel (s : State) (b : Block) (i o hi lo n : Nat) : (s.rcCount b i o hi lo n).shedLevel = s.shedLevel := rfl
@[simp] theorem State.rcCount_shedHot (s : State) (b : Block) (i o hi lo n : Nat) : (s.rcCount b i o hi lo n).shedHot = s.shedHot := rfl
@[simp] theorem State.rcCount_shedRun (s : State) (b : Block) (i o hi lo n : Nat) : (s.rcCount b i o hi lo n).shedRun = s.shedRun := rfl
@[simp] theorem State.rcCount_oven (s : State) (b : Block) (i o hi lo n : Nat) : (s.rcCount b i o hi lo n).oven = s.oven := rfl
@[simp] theorem State.rcCount_boot (s : State) (b : Block) (i o hi lo n : Nat) : (s.rcCount b i o hi lo n).boot = s.boot := rfl
@[simp] theorem State.rcCount_domOn (s : State) (b : Block) (i o hi lo n : Nat) : (s.rcCount b i o hi lo n).domOn = s.domOn := rfl
@[simp] theorem State.rcCount_domRising (s : State) (b : Block) (i o hi lo n : Nat) : (s.rcCount b i o hi lo n).domRising = s.domRising := rfl
@[simp] theorem State.rcCount_cartOk (s : State) (b : Block) (i o hi lo n : Nat) : (s.rcCount b i o hi lo n).cartOk = s.cartOk := rfl
@[simp] theorem State.rcCount_emitted (s : State) (b : Block) (i o hi lo n : Nat) : (s.rcCount b i o hi lo n).emitted = s.emitted := rfl
@[simp] theorem State.rcCount_freeCtr (s : State) (b : Block) (i o hi lo n : Nat) : (s.rcCount b i o hi lo n).freeCtr = s.freeCtr := rfl

@[simp] theorem State.rcClear_pending (s : State) (k w : Nat) (m : Word) : (s.rcClear k w m).pending = s.pending := rfl
@[simp] theorem State.rcClear_coreUp (s : State) (k w : Nat) (m : Word) : (s.rcClear k w m).coreUp = s.coreUp := rfl
@[simp] theorem State.rcClear_ticking (s : State) (k w : Nat) (m : Word) : (s.rcClear k w m).ticking = s.ticking := rfl
@[simp] theorem State.rcClear_tick (s : State) (k w : Nat) (m : Word) : (s.rcClear k w m).tick = s.tick := rfl
@[simp] theorem State.rcClear_islandTick (s : State) (k w : Nat) (m : Word) : (s.rcClear k w m).islandTick = s.islandTick := rfl
@[simp] theorem State.rcClear_regs (s : State) (k w : Nat) (m : Word) : (s.rcClear k w m).regs = s.regs := rfl
@[simp] theorem State.rcClear_shadow (s : State) (k w : Nat) (m : Word) : (s.rcClear k w m).shadow = s.shadow := rfl
@[simp] theorem State.rcClear_paths (s : State) (k w : Nat) (m : Word) : (s.rcClear k w m).paths = s.paths := rfl
@[simp] theorem State.rcClear_snap (s : State) (k w : Nat) (m : Word) : (s.rcClear k w m).snap = s.snap := rfl
@[simp] theorem State.rcClear_xwords (s : State) (k w : Nat) (m : Word) : (s.rcClear k w m).xwords = s.xwords := rfl
@[simp] theorem State.rcClear_datums (s : State) (k w : Nat) (m : Word) : (s.rcClear k w m).datums = s.datums := rfl
@[simp] theorem State.rcClear_loops (s : State) (k w : Nat) (m : Word) : (s.rcClear k w m).loops = s.loops := rfl
@[simp] theorem State.rcClear_slots (s : State) (k w : Nat) (m : Word) : (s.rcClear k w m).slots = s.slots := rfl
@[simp] theorem State.rcClear_chans (s : State) (k w : Nat) (m : Word) : (s.rcClear k w m).chans = s.chans := rfl
@[simp] theorem State.rcClear_groups (s : State) (k w : Nat) (m : Word) : (s.rcClear k w m).groups = s.groups := rfl
@[simp] theorem State.rcClear_units (s : State) (k w : Nat) (m : Word) : (s.rcClear k w m).units = s.units := rfl
@[simp] theorem State.rcClear_book (s : State) (k w : Nat) (m : Word) : (s.rcClear k w m).book = s.book := rfl
@[simp] theorem State.rcClear_notices (s : State) (k w : Nat) (m : Word) : (s.rcClear k w m).notices = s.notices := rfl
@[simp] theorem State.rcClear_syns (s : State) (k w : Nat) (m : Word) : (s.rcClear k w m).syns = s.syns := rfl
@[simp] theorem State.rcClear_bankSrc (s : State) (k w : Nat) (m : Word) : (s.rcClear k w m).bankSrc = s.bankSrc := rfl
@[simp] theorem State.rcClear_bankHand (s : State) (k w : Nat) (m : Word) : (s.rcClear k w m).bankHand = s.bankHand := rfl
@[simp] theorem State.rcClear_bankHeld (s : State) (k w : Nat) (m : Word) : (s.rcClear k w m).bankHeld = s.bankHeld := rfl
@[simp] theorem State.rcClear_outs (s : State) (k w : Nat) (m : Word) : (s.rcClear k w m).outs = s.outs := rfl
@[simp] theorem State.rcClear_outFrom (s : State) (k w : Nat) (m : Word) : (s.rcClear k w m).outFrom = s.outFrom := rfl
@[simp] theorem State.rcClear_lines (s : State) (k w : Nat) (m : Word) : (s.rcClear k w m).lines = s.lines := rfl
@[simp] theorem State.rcClear_plan (s : State) (k w : Nat) (m : Word) : (s.rcClear k w m).plan = s.plan := rfl
@[simp] theorem State.rcClear_planDue (s : State) (k w : Nat) (m : Word) : (s.rcClear k w m).planDue = s.planDue := rfl
@[simp] theorem State.rcClear_ports (s : State) (k w : Nat) (m : Word) : (s.rcClear k w m).ports = s.ports := rfl
@[simp] theorem State.rcClear_sessions (s : State) (k w : Nat) (m : Word) : (s.rcClear k w m).sessions = s.sessions := rfl
@[simp] theorem State.rcClear_streams (s : State) (k w : Nat) (m : Word) : (s.rcClear k w m).streams = s.streams := rfl
@[simp] theorem State.rcClear_insts (s : State) (k w : Nat) (m : Word) : (s.rcClear k w m).insts = s.insts := rfl
@[simp] theorem State.rcClear_engines (s : State) (k w : Nat) (m : Word) : (s.rcClear k w m).engines = s.engines := rfl
@[simp] theorem State.rcClear_sems (s : State) (k w : Nat) (m : Word) : (s.rcClear k w m).sems = s.sems := rfl
@[simp] theorem State.rcClear_funcs (s : State) (k w : Nat) (m : Word) : (s.rcClear k w m).funcs = s.funcs := rfl
@[simp] theorem State.rcClear_linkUp (s : State) (k w : Nat) (m : Word) : (s.rcClear k w m).linkUp = s.linkUp := rfl
@[simp] theorem State.rcClear_linkSpeed (s : State) (k w : Nat) (m : Word) : (s.rcClear k w m).linkSpeed = s.linkSpeed := rfl
@[simp] theorem State.rcClear_linkWidth (s : State) (k w : Nat) (m : Word) : (s.rcClear k w m).linkWidth = s.linkWidth := rfl
@[simp] theorem State.rcClear_mboxes (s : State) (k w : Nat) (m : Word) : (s.rcClear k w m).mboxes = s.mboxes := rfl
@[simp] theorem State.rcClear_dbIn (s : State) (k w : Nat) (m : Word) : (s.rcClear k w m).dbIn = s.dbIn := rfl
@[simp] theorem State.rcClear_dbOut (s : State) (k w : Nat) (m : Word) : (s.rcClear k w m).dbOut = s.dbOut := rfl
@[simp] theorem State.rcClear_sideband (s : State) (k w : Nat) (m : Word) : (s.rcClear k w m).sideband = s.sideband := rfl
@[simp] theorem State.rcClear_mbs (s : State) (k w : Nat) (m : Word) : (s.rcClear k w m).mbs = s.mbs := rfl
@[simp] theorem State.rcClear_gaz (s : State) (k w : Nat) (m : Word) : (s.rcClear k w m).gaz = s.gaz := rfl
@[simp] theorem State.rcClear_peerMir (s : State) (k w : Nat) (m : Word) : (s.rcClear k w m).peerMir = s.peerMir := rfl
@[simp] theorem State.rcClear_scanning (s : State) (k w : Nat) (m : Word) : (s.rcClear k w m).scanning = s.scanning := rfl
@[simp] theorem State.rcClear_reloadDue (s : State) (k w : Nat) (m : Word) : (s.rcClear k w m).reloadDue = s.reloadDue := rfl
@[simp] theorem State.rcClear_xfer (s : State) (k w : Nat) (m : Word) : (s.rcClear k w m).xfer = s.xfer := rfl
@[simp] theorem State.rcClear_mem (s : State) (k w : Nat) (m : Word) : (s.rcClear k w m).mem = s.mem := rfl
@[simp] theorem State.rcClear_arch (s : State) (k w : Nat) (m : Word) : (s.rcClear k w m).arch = s.arch := rfl
@[simp] theorem State.rcClear_fm (s : State) (k w : Nat) (m : Word) : (s.rcClear k w m).fm = s.fm := rfl
@[simp] theorem State.rcClear_benchMatch (s : State) (k w : Nat) (m : Word) : (s.rcClear k w m).benchMatch = s.benchMatch := rfl
@[simp] theorem State.rcClear_stewLoad (s : State) (k w : Nat) (m : Word) : (s.rcClear k w m).stewLoad = s.stewLoad := rfl
@[simp] theorem State.rcClear_shedLevel (s : State) (k w : Nat) (m : Word) : (s.rcClear k w m).shedLevel = s.shedLevel := rfl
@[simp] theorem State.rcClear_shedHot (s : State) (k w : Nat) (m : Word) : (s.rcClear k w m).shedHot = s.shedHot := rfl
@[simp] theorem State.rcClear_shedRun (s : State) (k w : Nat) (m : Word) : (s.rcClear k w m).shedRun = s.shedRun := rfl
@[simp] theorem State.rcClear_oven (s : State) (k w : Nat) (m : Word) : (s.rcClear k w m).oven = s.oven := rfl
@[simp] theorem State.rcClear_boot (s : State) (k w : Nat) (m : Word) : (s.rcClear k w m).boot = s.boot := rfl
@[simp] theorem State.rcClear_domOn (s : State) (k w : Nat) (m : Word) : (s.rcClear k w m).domOn = s.domOn := rfl
@[simp] theorem State.rcClear_domRising (s : State) (k w : Nat) (m : Word) : (s.rcClear k w m).domRising = s.domRising := rfl
@[simp] theorem State.rcClear_cartOk (s : State) (k w : Nat) (m : Word) : (s.rcClear k w m).cartOk = s.cartOk := rfl
@[simp] theorem State.rcClear_emitted (s : State) (k w : Nat) (m : Word) : (s.rcClear k w m).emitted = s.emitted := rfl
@[simp] theorem State.rcClear_freeCtr (s : State) (k w : Nat) (m : Word) : (s.rcClear k w m).freeCtr = s.freeCtr := rfl

@[simp] theorem State.modDatum_pending (s : State) (i : Fin 8) (f : Datum → Datum) : (s.modDatum i f).pending = s.pending := rfl
@[simp] theorem State.modDatum_coreUp (s : State) (i : Fin 8) (f : Datum → Datum) : (s.modDatum i f).coreUp = s.coreUp := rfl
@[simp] theorem State.modDatum_ticking (s : State) (i : Fin 8) (f : Datum → Datum) : (s.modDatum i f).ticking = s.ticking := rfl
@[simp] theorem State.modDatum_tick (s : State) (i : Fin 8) (f : Datum → Datum) : (s.modDatum i f).tick = s.tick := rfl
@[simp] theorem State.modDatum_islandTick (s : State) (i : Fin 8) (f : Datum → Datum) : (s.modDatum i f).islandTick = s.islandTick := rfl
@[simp] theorem State.modDatum_regs (s : State) (i : Fin 8) (f : Datum → Datum) : (s.modDatum i f).regs = s.regs := rfl
@[simp] theorem State.modDatum_rc (s : State) (i : Fin 8) (f : Datum → Datum) : (s.modDatum i f).rc = s.rc := rfl
@[simp] theorem State.modDatum_shadow (s : State) (i : Fin 8) (f : Datum → Datum) : (s.modDatum i f).shadow = s.shadow := rfl
@[simp] theorem State.modDatum_paths (s : State) (i : Fin 8) (f : Datum → Datum) : (s.modDatum i f).paths = s.paths := rfl
@[simp] theorem State.modDatum_snap (s : State) (i : Fin 8) (f : Datum → Datum) : (s.modDatum i f).snap = s.snap := rfl
@[simp] theorem State.modDatum_xwords (s : State) (i : Fin 8) (f : Datum → Datum) : (s.modDatum i f).xwords = s.xwords := rfl
@[simp] theorem State.modDatum_datums (s : State) (i : Fin 8) (f : Datum → Datum) : (s.modDatum i f).datums = s.datums.set i (f s.datums[i]) := rfl
@[simp] theorem State.modDatum_loops (s : State) (i : Fin 8) (f : Datum → Datum) : (s.modDatum i f).loops = s.loops := rfl
@[simp] theorem State.modDatum_slots (s : State) (i : Fin 8) (f : Datum → Datum) : (s.modDatum i f).slots = s.slots := rfl
@[simp] theorem State.modDatum_chans (s : State) (i : Fin 8) (f : Datum → Datum) : (s.modDatum i f).chans = s.chans := rfl
@[simp] theorem State.modDatum_groups (s : State) (i : Fin 8) (f : Datum → Datum) : (s.modDatum i f).groups = s.groups := rfl
@[simp] theorem State.modDatum_units (s : State) (i : Fin 8) (f : Datum → Datum) : (s.modDatum i f).units = s.units := rfl
@[simp] theorem State.modDatum_book (s : State) (i : Fin 8) (f : Datum → Datum) : (s.modDatum i f).book = s.book := rfl
@[simp] theorem State.modDatum_notices (s : State) (i : Fin 8) (f : Datum → Datum) : (s.modDatum i f).notices = s.notices := rfl
@[simp] theorem State.modDatum_syns (s : State) (i : Fin 8) (f : Datum → Datum) : (s.modDatum i f).syns = s.syns := rfl
@[simp] theorem State.modDatum_bankSrc (s : State) (i : Fin 8) (f : Datum → Datum) : (s.modDatum i f).bankSrc = s.bankSrc := rfl
@[simp] theorem State.modDatum_bankHand (s : State) (i : Fin 8) (f : Datum → Datum) : (s.modDatum i f).bankHand = s.bankHand := rfl
@[simp] theorem State.modDatum_bankHeld (s : State) (i : Fin 8) (f : Datum → Datum) : (s.modDatum i f).bankHeld = s.bankHeld := rfl
@[simp] theorem State.modDatum_outs (s : State) (i : Fin 8) (f : Datum → Datum) : (s.modDatum i f).outs = s.outs := rfl
@[simp] theorem State.modDatum_outFrom (s : State) (i : Fin 8) (f : Datum → Datum) : (s.modDatum i f).outFrom = s.outFrom := rfl
@[simp] theorem State.modDatum_lines (s : State) (i : Fin 8) (f : Datum → Datum) : (s.modDatum i f).lines = s.lines := rfl
@[simp] theorem State.modDatum_plan (s : State) (i : Fin 8) (f : Datum → Datum) : (s.modDatum i f).plan = s.plan := rfl
@[simp] theorem State.modDatum_planDue (s : State) (i : Fin 8) (f : Datum → Datum) : (s.modDatum i f).planDue = s.planDue := rfl
@[simp] theorem State.modDatum_ports (s : State) (i : Fin 8) (f : Datum → Datum) : (s.modDatum i f).ports = s.ports := rfl
@[simp] theorem State.modDatum_sessions (s : State) (i : Fin 8) (f : Datum → Datum) : (s.modDatum i f).sessions = s.sessions := rfl
@[simp] theorem State.modDatum_streams (s : State) (i : Fin 8) (f : Datum → Datum) : (s.modDatum i f).streams = s.streams := rfl
@[simp] theorem State.modDatum_insts (s : State) (i : Fin 8) (f : Datum → Datum) : (s.modDatum i f).insts = s.insts := rfl
@[simp] theorem State.modDatum_engines (s : State) (i : Fin 8) (f : Datum → Datum) : (s.modDatum i f).engines = s.engines := rfl
@[simp] theorem State.modDatum_sems (s : State) (i : Fin 8) (f : Datum → Datum) : (s.modDatum i f).sems = s.sems := rfl
@[simp] theorem State.modDatum_funcs (s : State) (i : Fin 8) (f : Datum → Datum) : (s.modDatum i f).funcs = s.funcs := rfl
@[simp] theorem State.modDatum_linkUp (s : State) (i : Fin 8) (f : Datum → Datum) : (s.modDatum i f).linkUp = s.linkUp := rfl
@[simp] theorem State.modDatum_linkSpeed (s : State) (i : Fin 8) (f : Datum → Datum) : (s.modDatum i f).linkSpeed = s.linkSpeed := rfl
@[simp] theorem State.modDatum_linkWidth (s : State) (i : Fin 8) (f : Datum → Datum) : (s.modDatum i f).linkWidth = s.linkWidth := rfl
@[simp] theorem State.modDatum_mboxes (s : State) (i : Fin 8) (f : Datum → Datum) : (s.modDatum i f).mboxes = s.mboxes := rfl
@[simp] theorem State.modDatum_dbIn (s : State) (i : Fin 8) (f : Datum → Datum) : (s.modDatum i f).dbIn = s.dbIn := rfl
@[simp] theorem State.modDatum_dbOut (s : State) (i : Fin 8) (f : Datum → Datum) : (s.modDatum i f).dbOut = s.dbOut := rfl
@[simp] theorem State.modDatum_sideband (s : State) (i : Fin 8) (f : Datum → Datum) : (s.modDatum i f).sideband = s.sideband := rfl
@[simp] theorem State.modDatum_mbs (s : State) (i : Fin 8) (f : Datum → Datum) : (s.modDatum i f).mbs = s.mbs := rfl
@[simp] theorem State.modDatum_gaz (s : State) (i : Fin 8) (f : Datum → Datum) : (s.modDatum i f).gaz = s.gaz := rfl
@[simp] theorem State.modDatum_peerMir (s : State) (i : Fin 8) (f : Datum → Datum) : (s.modDatum i f).peerMir = s.peerMir := rfl
@[simp] theorem State.modDatum_scanning (s : State) (i : Fin 8) (f : Datum → Datum) : (s.modDatum i f).scanning = s.scanning := rfl
@[simp] theorem State.modDatum_reloadDue (s : State) (i : Fin 8) (f : Datum → Datum) : (s.modDatum i f).reloadDue = s.reloadDue := rfl
@[simp] theorem State.modDatum_xfer (s : State) (i : Fin 8) (f : Datum → Datum) : (s.modDatum i f).xfer = s.xfer := rfl
@[simp] theorem State.modDatum_mem (s : State) (i : Fin 8) (f : Datum → Datum) : (s.modDatum i f).mem = s.mem := rfl
@[simp] theorem State.modDatum_arch (s : State) (i : Fin 8) (f : Datum → Datum) : (s.modDatum i f).arch = s.arch := rfl
@[simp] theorem State.modDatum_fm (s : State) (i : Fin 8) (f : Datum → Datum) : (s.modDatum i f).fm = s.fm := rfl
@[simp] theorem State.modDatum_benchMatch (s : State) (i : Fin 8) (f : Datum → Datum) : (s.modDatum i f).benchMatch = s.benchMatch := rfl
@[simp] theorem State.modDatum_stewLoad (s : State) (i : Fin 8) (f : Datum → Datum) : (s.modDatum i f).stewLoad = s.stewLoad := rfl
@[simp] theorem State.modDatum_shedLevel (s : State) (i : Fin 8) (f : Datum → Datum) : (s.modDatum i f).shedLevel = s.shedLevel := rfl
@[simp] theorem State.modDatum_shedHot (s : State) (i : Fin 8) (f : Datum → Datum) : (s.modDatum i f).shedHot = s.shedHot := rfl
@[simp] theorem State.modDatum_shedRun (s : State) (i : Fin 8) (f : Datum → Datum) : (s.modDatum i f).shedRun = s.shedRun := rfl
@[simp] theorem State.modDatum_oven (s : State) (i : Fin 8) (f : Datum → Datum) : (s.modDatum i f).oven = s.oven := rfl
@[simp] theorem State.modDatum_boot (s : State) (i : Fin 8) (f : Datum → Datum) : (s.modDatum i f).boot = s.boot := rfl
@[simp] theorem State.modDatum_domOn (s : State) (i : Fin 8) (f : Datum → Datum) : (s.modDatum i f).domOn = s.domOn := rfl
@[simp] theorem State.modDatum_domRising (s : State) (i : Fin 8) (f : Datum → Datum) : (s.modDatum i f).domRising = s.domRising := rfl
@[simp] theorem State.modDatum_cartOk (s : State) (i : Fin 8) (f : Datum → Datum) : (s.modDatum i f).cartOk = s.cartOk := rfl
@[simp] theorem State.modDatum_emitted (s : State) (i : Fin 8) (f : Datum → Datum) : (s.modDatum i f).emitted = s.emitted := rfl
@[simp] theorem State.modDatum_freeCtr (s : State) (i : Fin 8) (f : Datum → Datum) : (s.modDatum i f).freeCtr = s.freeCtr := rfl

@[simp] theorem State.modLoop_pending (s : State) (i : Fin 16) (f : Loop → Loop) : (s.modLoop i f).pending = s.pending := rfl
@[simp] theorem State.modLoop_coreUp (s : State) (i : Fin 16) (f : Loop → Loop) : (s.modLoop i f).coreUp = s.coreUp := rfl
@[simp] theorem State.modLoop_ticking (s : State) (i : Fin 16) (f : Loop → Loop) : (s.modLoop i f).ticking = s.ticking := rfl
@[simp] theorem State.modLoop_tick (s : State) (i : Fin 16) (f : Loop → Loop) : (s.modLoop i f).tick = s.tick := rfl
@[simp] theorem State.modLoop_islandTick (s : State) (i : Fin 16) (f : Loop → Loop) : (s.modLoop i f).islandTick = s.islandTick := rfl
@[simp] theorem State.modLoop_regs (s : State) (i : Fin 16) (f : Loop → Loop) : (s.modLoop i f).regs = s.regs := rfl
@[simp] theorem State.modLoop_rc (s : State) (i : Fin 16) (f : Loop → Loop) : (s.modLoop i f).rc = s.rc := rfl
@[simp] theorem State.modLoop_shadow (s : State) (i : Fin 16) (f : Loop → Loop) : (s.modLoop i f).shadow = s.shadow := rfl
@[simp] theorem State.modLoop_paths (s : State) (i : Fin 16) (f : Loop → Loop) : (s.modLoop i f).paths = s.paths := rfl
@[simp] theorem State.modLoop_snap (s : State) (i : Fin 16) (f : Loop → Loop) : (s.modLoop i f).snap = s.snap := rfl
@[simp] theorem State.modLoop_xwords (s : State) (i : Fin 16) (f : Loop → Loop) : (s.modLoop i f).xwords = s.xwords := rfl
@[simp] theorem State.modLoop_datums (s : State) (i : Fin 16) (f : Loop → Loop) : (s.modLoop i f).datums = s.datums := rfl
@[simp] theorem State.modLoop_loops (s : State) (i : Fin 16) (f : Loop → Loop) : (s.modLoop i f).loops = s.loops.set i (f s.loops[i]) := rfl
@[simp] theorem State.modLoop_slots (s : State) (i : Fin 16) (f : Loop → Loop) : (s.modLoop i f).slots = s.slots := rfl
@[simp] theorem State.modLoop_chans (s : State) (i : Fin 16) (f : Loop → Loop) : (s.modLoop i f).chans = s.chans := rfl
@[simp] theorem State.modLoop_groups (s : State) (i : Fin 16) (f : Loop → Loop) : (s.modLoop i f).groups = s.groups := rfl
@[simp] theorem State.modLoop_units (s : State) (i : Fin 16) (f : Loop → Loop) : (s.modLoop i f).units = s.units := rfl
@[simp] theorem State.modLoop_book (s : State) (i : Fin 16) (f : Loop → Loop) : (s.modLoop i f).book = s.book := rfl
@[simp] theorem State.modLoop_notices (s : State) (i : Fin 16) (f : Loop → Loop) : (s.modLoop i f).notices = s.notices := rfl
@[simp] theorem State.modLoop_syns (s : State) (i : Fin 16) (f : Loop → Loop) : (s.modLoop i f).syns = s.syns := rfl
@[simp] theorem State.modLoop_bankSrc (s : State) (i : Fin 16) (f : Loop → Loop) : (s.modLoop i f).bankSrc = s.bankSrc := rfl
@[simp] theorem State.modLoop_bankHand (s : State) (i : Fin 16) (f : Loop → Loop) : (s.modLoop i f).bankHand = s.bankHand := rfl
@[simp] theorem State.modLoop_bankHeld (s : State) (i : Fin 16) (f : Loop → Loop) : (s.modLoop i f).bankHeld = s.bankHeld := rfl
@[simp] theorem State.modLoop_outs (s : State) (i : Fin 16) (f : Loop → Loop) : (s.modLoop i f).outs = s.outs := rfl
@[simp] theorem State.modLoop_outFrom (s : State) (i : Fin 16) (f : Loop → Loop) : (s.modLoop i f).outFrom = s.outFrom := rfl
@[simp] theorem State.modLoop_lines (s : State) (i : Fin 16) (f : Loop → Loop) : (s.modLoop i f).lines = s.lines := rfl
@[simp] theorem State.modLoop_plan (s : State) (i : Fin 16) (f : Loop → Loop) : (s.modLoop i f).plan = s.plan := rfl
@[simp] theorem State.modLoop_planDue (s : State) (i : Fin 16) (f : Loop → Loop) : (s.modLoop i f).planDue = s.planDue := rfl
@[simp] theorem State.modLoop_ports (s : State) (i : Fin 16) (f : Loop → Loop) : (s.modLoop i f).ports = s.ports := rfl
@[simp] theorem State.modLoop_sessions (s : State) (i : Fin 16) (f : Loop → Loop) : (s.modLoop i f).sessions = s.sessions := rfl
@[simp] theorem State.modLoop_streams (s : State) (i : Fin 16) (f : Loop → Loop) : (s.modLoop i f).streams = s.streams := rfl
@[simp] theorem State.modLoop_insts (s : State) (i : Fin 16) (f : Loop → Loop) : (s.modLoop i f).insts = s.insts := rfl
@[simp] theorem State.modLoop_engines (s : State) (i : Fin 16) (f : Loop → Loop) : (s.modLoop i f).engines = s.engines := rfl
@[simp] theorem State.modLoop_sems (s : State) (i : Fin 16) (f : Loop → Loop) : (s.modLoop i f).sems = s.sems := rfl
@[simp] theorem State.modLoop_funcs (s : State) (i : Fin 16) (f : Loop → Loop) : (s.modLoop i f).funcs = s.funcs := rfl
@[simp] theorem State.modLoop_linkUp (s : State) (i : Fin 16) (f : Loop → Loop) : (s.modLoop i f).linkUp = s.linkUp := rfl
@[simp] theorem State.modLoop_linkSpeed (s : State) (i : Fin 16) (f : Loop → Loop) : (s.modLoop i f).linkSpeed = s.linkSpeed := rfl
@[simp] theorem State.modLoop_linkWidth (s : State) (i : Fin 16) (f : Loop → Loop) : (s.modLoop i f).linkWidth = s.linkWidth := rfl
@[simp] theorem State.modLoop_mboxes (s : State) (i : Fin 16) (f : Loop → Loop) : (s.modLoop i f).mboxes = s.mboxes := rfl
@[simp] theorem State.modLoop_dbIn (s : State) (i : Fin 16) (f : Loop → Loop) : (s.modLoop i f).dbIn = s.dbIn := rfl
@[simp] theorem State.modLoop_dbOut (s : State) (i : Fin 16) (f : Loop → Loop) : (s.modLoop i f).dbOut = s.dbOut := rfl
@[simp] theorem State.modLoop_sideband (s : State) (i : Fin 16) (f : Loop → Loop) : (s.modLoop i f).sideband = s.sideband := rfl
@[simp] theorem State.modLoop_mbs (s : State) (i : Fin 16) (f : Loop → Loop) : (s.modLoop i f).mbs = s.mbs := rfl
@[simp] theorem State.modLoop_gaz (s : State) (i : Fin 16) (f : Loop → Loop) : (s.modLoop i f).gaz = s.gaz := rfl
@[simp] theorem State.modLoop_peerMir (s : State) (i : Fin 16) (f : Loop → Loop) : (s.modLoop i f).peerMir = s.peerMir := rfl
@[simp] theorem State.modLoop_scanning (s : State) (i : Fin 16) (f : Loop → Loop) : (s.modLoop i f).scanning = s.scanning := rfl
@[simp] theorem State.modLoop_reloadDue (s : State) (i : Fin 16) (f : Loop → Loop) : (s.modLoop i f).reloadDue = s.reloadDue := rfl
@[simp] theorem State.modLoop_xfer (s : State) (i : Fin 16) (f : Loop → Loop) : (s.modLoop i f).xfer = s.xfer := rfl
@[simp] theorem State.modLoop_mem (s : State) (i : Fin 16) (f : Loop → Loop) : (s.modLoop i f).mem = s.mem := rfl
@[simp] theorem State.modLoop_arch (s : State) (i : Fin 16) (f : Loop → Loop) : (s.modLoop i f).arch = s.arch := rfl
@[simp] theorem State.modLoop_fm (s : State) (i : Fin 16) (f : Loop → Loop) : (s.modLoop i f).fm = s.fm := rfl
@[simp] theorem State.modLoop_benchMatch (s : State) (i : Fin 16) (f : Loop → Loop) : (s.modLoop i f).benchMatch = s.benchMatch := rfl
@[simp] theorem State.modLoop_stewLoad (s : State) (i : Fin 16) (f : Loop → Loop) : (s.modLoop i f).stewLoad = s.stewLoad := rfl
@[simp] theorem State.modLoop_shedLevel (s : State) (i : Fin 16) (f : Loop → Loop) : (s.modLoop i f).shedLevel = s.shedLevel := rfl
@[simp] theorem State.modLoop_shedHot (s : State) (i : Fin 16) (f : Loop → Loop) : (s.modLoop i f).shedHot = s.shedHot := rfl
@[simp] theorem State.modLoop_shedRun (s : State) (i : Fin 16) (f : Loop → Loop) : (s.modLoop i f).shedRun = s.shedRun := rfl
@[simp] theorem State.modLoop_oven (s : State) (i : Fin 16) (f : Loop → Loop) : (s.modLoop i f).oven = s.oven := rfl
@[simp] theorem State.modLoop_boot (s : State) (i : Fin 16) (f : Loop → Loop) : (s.modLoop i f).boot = s.boot := rfl
@[simp] theorem State.modLoop_domOn (s : State) (i : Fin 16) (f : Loop → Loop) : (s.modLoop i f).domOn = s.domOn := rfl
@[simp] theorem State.modLoop_domRising (s : State) (i : Fin 16) (f : Loop → Loop) : (s.modLoop i f).domRising = s.domRising := rfl
@[simp] theorem State.modLoop_cartOk (s : State) (i : Fin 16) (f : Loop → Loop) : (s.modLoop i f).cartOk = s.cartOk := rfl
@[simp] theorem State.modLoop_emitted (s : State) (i : Fin 16) (f : Loop → Loop) : (s.modLoop i f).emitted = s.emitted := rfl
@[simp] theorem State.modLoop_freeCtr (s : State) (i : Fin 16) (f : Loop → Loop) : (s.modLoop i f).freeCtr = s.freeCtr := rfl

@[simp] theorem State.modSlot_pending (s : State) (i : Fin 96) (f : Slot → Slot) : (s.modSlot i f).pending = s.pending := rfl
@[simp] theorem State.modSlot_coreUp (s : State) (i : Fin 96) (f : Slot → Slot) : (s.modSlot i f).coreUp = s.coreUp := rfl
@[simp] theorem State.modSlot_ticking (s : State) (i : Fin 96) (f : Slot → Slot) : (s.modSlot i f).ticking = s.ticking := rfl
@[simp] theorem State.modSlot_tick (s : State) (i : Fin 96) (f : Slot → Slot) : (s.modSlot i f).tick = s.tick := rfl
@[simp] theorem State.modSlot_islandTick (s : State) (i : Fin 96) (f : Slot → Slot) : (s.modSlot i f).islandTick = s.islandTick := rfl
@[simp] theorem State.modSlot_regs (s : State) (i : Fin 96) (f : Slot → Slot) : (s.modSlot i f).regs = s.regs := rfl
@[simp] theorem State.modSlot_rc (s : State) (i : Fin 96) (f : Slot → Slot) : (s.modSlot i f).rc = s.rc := rfl
@[simp] theorem State.modSlot_shadow (s : State) (i : Fin 96) (f : Slot → Slot) : (s.modSlot i f).shadow = s.shadow := rfl
@[simp] theorem State.modSlot_paths (s : State) (i : Fin 96) (f : Slot → Slot) : (s.modSlot i f).paths = s.paths := rfl
@[simp] theorem State.modSlot_snap (s : State) (i : Fin 96) (f : Slot → Slot) : (s.modSlot i f).snap = s.snap := rfl
@[simp] theorem State.modSlot_xwords (s : State) (i : Fin 96) (f : Slot → Slot) : (s.modSlot i f).xwords = s.xwords := rfl
@[simp] theorem State.modSlot_datums (s : State) (i : Fin 96) (f : Slot → Slot) : (s.modSlot i f).datums = s.datums := rfl
@[simp] theorem State.modSlot_loops (s : State) (i : Fin 96) (f : Slot → Slot) : (s.modSlot i f).loops = s.loops := rfl
@[simp] theorem State.modSlot_slots (s : State) (i : Fin 96) (f : Slot → Slot) : (s.modSlot i f).slots = s.slots.set i (f s.slots[i]) := rfl
@[simp] theorem State.modSlot_chans (s : State) (i : Fin 96) (f : Slot → Slot) : (s.modSlot i f).chans = s.chans := rfl
@[simp] theorem State.modSlot_groups (s : State) (i : Fin 96) (f : Slot → Slot) : (s.modSlot i f).groups = s.groups := rfl
@[simp] theorem State.modSlot_units (s : State) (i : Fin 96) (f : Slot → Slot) : (s.modSlot i f).units = s.units := rfl
@[simp] theorem State.modSlot_book (s : State) (i : Fin 96) (f : Slot → Slot) : (s.modSlot i f).book = s.book := rfl
@[simp] theorem State.modSlot_notices (s : State) (i : Fin 96) (f : Slot → Slot) : (s.modSlot i f).notices = s.notices := rfl
@[simp] theorem State.modSlot_syns (s : State) (i : Fin 96) (f : Slot → Slot) : (s.modSlot i f).syns = s.syns := rfl
@[simp] theorem State.modSlot_bankSrc (s : State) (i : Fin 96) (f : Slot → Slot) : (s.modSlot i f).bankSrc = s.bankSrc := rfl
@[simp] theorem State.modSlot_bankHand (s : State) (i : Fin 96) (f : Slot → Slot) : (s.modSlot i f).bankHand = s.bankHand := rfl
@[simp] theorem State.modSlot_bankHeld (s : State) (i : Fin 96) (f : Slot → Slot) : (s.modSlot i f).bankHeld = s.bankHeld := rfl
@[simp] theorem State.modSlot_outs (s : State) (i : Fin 96) (f : Slot → Slot) : (s.modSlot i f).outs = s.outs := rfl
@[simp] theorem State.modSlot_outFrom (s : State) (i : Fin 96) (f : Slot → Slot) : (s.modSlot i f).outFrom = s.outFrom := rfl
@[simp] theorem State.modSlot_lines (s : State) (i : Fin 96) (f : Slot → Slot) : (s.modSlot i f).lines = s.lines := rfl
@[simp] theorem State.modSlot_plan (s : State) (i : Fin 96) (f : Slot → Slot) : (s.modSlot i f).plan = s.plan := rfl
@[simp] theorem State.modSlot_planDue (s : State) (i : Fin 96) (f : Slot → Slot) : (s.modSlot i f).planDue = s.planDue := rfl
@[simp] theorem State.modSlot_ports (s : State) (i : Fin 96) (f : Slot → Slot) : (s.modSlot i f).ports = s.ports := rfl
@[simp] theorem State.modSlot_sessions (s : State) (i : Fin 96) (f : Slot → Slot) : (s.modSlot i f).sessions = s.sessions := rfl
@[simp] theorem State.modSlot_streams (s : State) (i : Fin 96) (f : Slot → Slot) : (s.modSlot i f).streams = s.streams := rfl
@[simp] theorem State.modSlot_insts (s : State) (i : Fin 96) (f : Slot → Slot) : (s.modSlot i f).insts = s.insts := rfl
@[simp] theorem State.modSlot_engines (s : State) (i : Fin 96) (f : Slot → Slot) : (s.modSlot i f).engines = s.engines := rfl
@[simp] theorem State.modSlot_sems (s : State) (i : Fin 96) (f : Slot → Slot) : (s.modSlot i f).sems = s.sems := rfl
@[simp] theorem State.modSlot_funcs (s : State) (i : Fin 96) (f : Slot → Slot) : (s.modSlot i f).funcs = s.funcs := rfl
@[simp] theorem State.modSlot_linkUp (s : State) (i : Fin 96) (f : Slot → Slot) : (s.modSlot i f).linkUp = s.linkUp := rfl
@[simp] theorem State.modSlot_linkSpeed (s : State) (i : Fin 96) (f : Slot → Slot) : (s.modSlot i f).linkSpeed = s.linkSpeed := rfl
@[simp] theorem State.modSlot_linkWidth (s : State) (i : Fin 96) (f : Slot → Slot) : (s.modSlot i f).linkWidth = s.linkWidth := rfl
@[simp] theorem State.modSlot_mboxes (s : State) (i : Fin 96) (f : Slot → Slot) : (s.modSlot i f).mboxes = s.mboxes := rfl
@[simp] theorem State.modSlot_dbIn (s : State) (i : Fin 96) (f : Slot → Slot) : (s.modSlot i f).dbIn = s.dbIn := rfl
@[simp] theorem State.modSlot_dbOut (s : State) (i : Fin 96) (f : Slot → Slot) : (s.modSlot i f).dbOut = s.dbOut := rfl
@[simp] theorem State.modSlot_sideband (s : State) (i : Fin 96) (f : Slot → Slot) : (s.modSlot i f).sideband = s.sideband := rfl
@[simp] theorem State.modSlot_mbs (s : State) (i : Fin 96) (f : Slot → Slot) : (s.modSlot i f).mbs = s.mbs := rfl
@[simp] theorem State.modSlot_gaz (s : State) (i : Fin 96) (f : Slot → Slot) : (s.modSlot i f).gaz = s.gaz := rfl
@[simp] theorem State.modSlot_peerMir (s : State) (i : Fin 96) (f : Slot → Slot) : (s.modSlot i f).peerMir = s.peerMir := rfl
@[simp] theorem State.modSlot_scanning (s : State) (i : Fin 96) (f : Slot → Slot) : (s.modSlot i f).scanning = s.scanning := rfl
@[simp] theorem State.modSlot_reloadDue (s : State) (i : Fin 96) (f : Slot → Slot) : (s.modSlot i f).reloadDue = s.reloadDue := rfl
@[simp] theorem State.modSlot_xfer (s : State) (i : Fin 96) (f : Slot → Slot) : (s.modSlot i f).xfer = s.xfer := rfl
@[simp] theorem State.modSlot_mem (s : State) (i : Fin 96) (f : Slot → Slot) : (s.modSlot i f).mem = s.mem := rfl
@[simp] theorem State.modSlot_arch (s : State) (i : Fin 96) (f : Slot → Slot) : (s.modSlot i f).arch = s.arch := rfl
@[simp] theorem State.modSlot_fm (s : State) (i : Fin 96) (f : Slot → Slot) : (s.modSlot i f).fm = s.fm := rfl
@[simp] theorem State.modSlot_benchMatch (s : State) (i : Fin 96) (f : Slot → Slot) : (s.modSlot i f).benchMatch = s.benchMatch := rfl
@[simp] theorem State.modSlot_stewLoad (s : State) (i : Fin 96) (f : Slot → Slot) : (s.modSlot i f).stewLoad = s.stewLoad := rfl
@[simp] theorem State.modSlot_shedLevel (s : State) (i : Fin 96) (f : Slot → Slot) : (s.modSlot i f).shedLevel = s.shedLevel := rfl
@[simp] theorem State.modSlot_shedHot (s : State) (i : Fin 96) (f : Slot → Slot) : (s.modSlot i f).shedHot = s.shedHot := rfl
@[simp] theorem State.modSlot_shedRun (s : State) (i : Fin 96) (f : Slot → Slot) : (s.modSlot i f).shedRun = s.shedRun := rfl
@[simp] theorem State.modSlot_oven (s : State) (i : Fin 96) (f : Slot → Slot) : (s.modSlot i f).oven = s.oven := rfl
@[simp] theorem State.modSlot_boot (s : State) (i : Fin 96) (f : Slot → Slot) : (s.modSlot i f).boot = s.boot := rfl
@[simp] theorem State.modSlot_domOn (s : State) (i : Fin 96) (f : Slot → Slot) : (s.modSlot i f).domOn = s.domOn := rfl
@[simp] theorem State.modSlot_domRising (s : State) (i : Fin 96) (f : Slot → Slot) : (s.modSlot i f).domRising = s.domRising := rfl
@[simp] theorem State.modSlot_cartOk (s : State) (i : Fin 96) (f : Slot → Slot) : (s.modSlot i f).cartOk = s.cartOk := rfl
@[simp] theorem State.modSlot_emitted (s : State) (i : Fin 96) (f : Slot → Slot) : (s.modSlot i f).emitted = s.emitted := rfl
@[simp] theorem State.modSlot_freeCtr (s : State) (i : Fin 96) (f : Slot → Slot) : (s.modSlot i f).freeCtr = s.freeCtr := rfl

@[simp] theorem State.modChan_pending (s : State) (i : Fin 192) (f : Chan → Chan) : (s.modChan i f).pending = s.pending := rfl
@[simp] theorem State.modChan_coreUp (s : State) (i : Fin 192) (f : Chan → Chan) : (s.modChan i f).coreUp = s.coreUp := rfl
@[simp] theorem State.modChan_ticking (s : State) (i : Fin 192) (f : Chan → Chan) : (s.modChan i f).ticking = s.ticking := rfl
@[simp] theorem State.modChan_tick (s : State) (i : Fin 192) (f : Chan → Chan) : (s.modChan i f).tick = s.tick := rfl
@[simp] theorem State.modChan_islandTick (s : State) (i : Fin 192) (f : Chan → Chan) : (s.modChan i f).islandTick = s.islandTick := rfl
@[simp] theorem State.modChan_regs (s : State) (i : Fin 192) (f : Chan → Chan) : (s.modChan i f).regs = s.regs := rfl
@[simp] theorem State.modChan_rc (s : State) (i : Fin 192) (f : Chan → Chan) : (s.modChan i f).rc = s.rc := rfl
@[simp] theorem State.modChan_shadow (s : State) (i : Fin 192) (f : Chan → Chan) : (s.modChan i f).shadow = s.shadow := rfl
@[simp] theorem State.modChan_paths (s : State) (i : Fin 192) (f : Chan → Chan) : (s.modChan i f).paths = s.paths := rfl
@[simp] theorem State.modChan_snap (s : State) (i : Fin 192) (f : Chan → Chan) : (s.modChan i f).snap = s.snap := rfl
@[simp] theorem State.modChan_xwords (s : State) (i : Fin 192) (f : Chan → Chan) : (s.modChan i f).xwords = s.xwords := rfl
@[simp] theorem State.modChan_datums (s : State) (i : Fin 192) (f : Chan → Chan) : (s.modChan i f).datums = s.datums := rfl
@[simp] theorem State.modChan_loops (s : State) (i : Fin 192) (f : Chan → Chan) : (s.modChan i f).loops = s.loops := rfl
@[simp] theorem State.modChan_slots (s : State) (i : Fin 192) (f : Chan → Chan) : (s.modChan i f).slots = s.slots := rfl
@[simp] theorem State.modChan_chans (s : State) (i : Fin 192) (f : Chan → Chan) : (s.modChan i f).chans = s.chans.set i (f s.chans[i]) := rfl
@[simp] theorem State.modChan_groups (s : State) (i : Fin 192) (f : Chan → Chan) : (s.modChan i f).groups = s.groups := rfl
@[simp] theorem State.modChan_units (s : State) (i : Fin 192) (f : Chan → Chan) : (s.modChan i f).units = s.units := rfl
@[simp] theorem State.modChan_book (s : State) (i : Fin 192) (f : Chan → Chan) : (s.modChan i f).book = s.book := rfl
@[simp] theorem State.modChan_notices (s : State) (i : Fin 192) (f : Chan → Chan) : (s.modChan i f).notices = s.notices := rfl
@[simp] theorem State.modChan_syns (s : State) (i : Fin 192) (f : Chan → Chan) : (s.modChan i f).syns = s.syns := rfl
@[simp] theorem State.modChan_bankSrc (s : State) (i : Fin 192) (f : Chan → Chan) : (s.modChan i f).bankSrc = s.bankSrc := rfl
@[simp] theorem State.modChan_bankHand (s : State) (i : Fin 192) (f : Chan → Chan) : (s.modChan i f).bankHand = s.bankHand := rfl
@[simp] theorem State.modChan_bankHeld (s : State) (i : Fin 192) (f : Chan → Chan) : (s.modChan i f).bankHeld = s.bankHeld := rfl
@[simp] theorem State.modChan_outs (s : State) (i : Fin 192) (f : Chan → Chan) : (s.modChan i f).outs = s.outs := rfl
@[simp] theorem State.modChan_outFrom (s : State) (i : Fin 192) (f : Chan → Chan) : (s.modChan i f).outFrom = s.outFrom := rfl
@[simp] theorem State.modChan_lines (s : State) (i : Fin 192) (f : Chan → Chan) : (s.modChan i f).lines = s.lines := rfl
@[simp] theorem State.modChan_plan (s : State) (i : Fin 192) (f : Chan → Chan) : (s.modChan i f).plan = s.plan := rfl
@[simp] theorem State.modChan_planDue (s : State) (i : Fin 192) (f : Chan → Chan) : (s.modChan i f).planDue = s.planDue := rfl
@[simp] theorem State.modChan_ports (s : State) (i : Fin 192) (f : Chan → Chan) : (s.modChan i f).ports = s.ports := rfl
@[simp] theorem State.modChan_sessions (s : State) (i : Fin 192) (f : Chan → Chan) : (s.modChan i f).sessions = s.sessions := rfl
@[simp] theorem State.modChan_streams (s : State) (i : Fin 192) (f : Chan → Chan) : (s.modChan i f).streams = s.streams := rfl
@[simp] theorem State.modChan_insts (s : State) (i : Fin 192) (f : Chan → Chan) : (s.modChan i f).insts = s.insts := rfl
@[simp] theorem State.modChan_engines (s : State) (i : Fin 192) (f : Chan → Chan) : (s.modChan i f).engines = s.engines := rfl
@[simp] theorem State.modChan_sems (s : State) (i : Fin 192) (f : Chan → Chan) : (s.modChan i f).sems = s.sems := rfl
@[simp] theorem State.modChan_funcs (s : State) (i : Fin 192) (f : Chan → Chan) : (s.modChan i f).funcs = s.funcs := rfl
@[simp] theorem State.modChan_linkUp (s : State) (i : Fin 192) (f : Chan → Chan) : (s.modChan i f).linkUp = s.linkUp := rfl
@[simp] theorem State.modChan_linkSpeed (s : State) (i : Fin 192) (f : Chan → Chan) : (s.modChan i f).linkSpeed = s.linkSpeed := rfl
@[simp] theorem State.modChan_linkWidth (s : State) (i : Fin 192) (f : Chan → Chan) : (s.modChan i f).linkWidth = s.linkWidth := rfl
@[simp] theorem State.modChan_mboxes (s : State) (i : Fin 192) (f : Chan → Chan) : (s.modChan i f).mboxes = s.mboxes := rfl
@[simp] theorem State.modChan_dbIn (s : State) (i : Fin 192) (f : Chan → Chan) : (s.modChan i f).dbIn = s.dbIn := rfl
@[simp] theorem State.modChan_dbOut (s : State) (i : Fin 192) (f : Chan → Chan) : (s.modChan i f).dbOut = s.dbOut := rfl
@[simp] theorem State.modChan_sideband (s : State) (i : Fin 192) (f : Chan → Chan) : (s.modChan i f).sideband = s.sideband := rfl
@[simp] theorem State.modChan_mbs (s : State) (i : Fin 192) (f : Chan → Chan) : (s.modChan i f).mbs = s.mbs := rfl
@[simp] theorem State.modChan_gaz (s : State) (i : Fin 192) (f : Chan → Chan) : (s.modChan i f).gaz = s.gaz := rfl
@[simp] theorem State.modChan_peerMir (s : State) (i : Fin 192) (f : Chan → Chan) : (s.modChan i f).peerMir = s.peerMir := rfl
@[simp] theorem State.modChan_scanning (s : State) (i : Fin 192) (f : Chan → Chan) : (s.modChan i f).scanning = s.scanning := rfl
@[simp] theorem State.modChan_reloadDue (s : State) (i : Fin 192) (f : Chan → Chan) : (s.modChan i f).reloadDue = s.reloadDue := rfl
@[simp] theorem State.modChan_xfer (s : State) (i : Fin 192) (f : Chan → Chan) : (s.modChan i f).xfer = s.xfer := rfl
@[simp] theorem State.modChan_mem (s : State) (i : Fin 192) (f : Chan → Chan) : (s.modChan i f).mem = s.mem := rfl
@[simp] theorem State.modChan_arch (s : State) (i : Fin 192) (f : Chan → Chan) : (s.modChan i f).arch = s.arch := rfl
@[simp] theorem State.modChan_fm (s : State) (i : Fin 192) (f : Chan → Chan) : (s.modChan i f).fm = s.fm := rfl
@[simp] theorem State.modChan_benchMatch (s : State) (i : Fin 192) (f : Chan → Chan) : (s.modChan i f).benchMatch = s.benchMatch := rfl
@[simp] theorem State.modChan_stewLoad (s : State) (i : Fin 192) (f : Chan → Chan) : (s.modChan i f).stewLoad = s.stewLoad := rfl
@[simp] theorem State.modChan_shedLevel (s : State) (i : Fin 192) (f : Chan → Chan) : (s.modChan i f).shedLevel = s.shedLevel := rfl
@[simp] theorem State.modChan_shedHot (s : State) (i : Fin 192) (f : Chan → Chan) : (s.modChan i f).shedHot = s.shedHot := rfl
@[simp] theorem State.modChan_shedRun (s : State) (i : Fin 192) (f : Chan → Chan) : (s.modChan i f).shedRun = s.shedRun := rfl
@[simp] theorem State.modChan_oven (s : State) (i : Fin 192) (f : Chan → Chan) : (s.modChan i f).oven = s.oven := rfl
@[simp] theorem State.modChan_boot (s : State) (i : Fin 192) (f : Chan → Chan) : (s.modChan i f).boot = s.boot := rfl
@[simp] theorem State.modChan_domOn (s : State) (i : Fin 192) (f : Chan → Chan) : (s.modChan i f).domOn = s.domOn := rfl
@[simp] theorem State.modChan_domRising (s : State) (i : Fin 192) (f : Chan → Chan) : (s.modChan i f).domRising = s.domRising := rfl
@[simp] theorem State.modChan_cartOk (s : State) (i : Fin 192) (f : Chan → Chan) : (s.modChan i f).cartOk = s.cartOk := rfl
@[simp] theorem State.modChan_emitted (s : State) (i : Fin 192) (f : Chan → Chan) : (s.modChan i f).emitted = s.emitted := rfl
@[simp] theorem State.modChan_freeCtr (s : State) (i : Fin 192) (f : Chan → Chan) : (s.modChan i f).freeCtr = s.freeCtr := rfl

@[simp] theorem State.modGroup_pending (s : State) (i : Fin 12) (f : Group → Group) : (s.modGroup i f).pending = s.pending := rfl
@[simp] theorem State.modGroup_coreUp (s : State) (i : Fin 12) (f : Group → Group) : (s.modGroup i f).coreUp = s.coreUp := rfl
@[simp] theorem State.modGroup_ticking (s : State) (i : Fin 12) (f : Group → Group) : (s.modGroup i f).ticking = s.ticking := rfl
@[simp] theorem State.modGroup_tick (s : State) (i : Fin 12) (f : Group → Group) : (s.modGroup i f).tick = s.tick := rfl
@[simp] theorem State.modGroup_islandTick (s : State) (i : Fin 12) (f : Group → Group) : (s.modGroup i f).islandTick = s.islandTick := rfl
@[simp] theorem State.modGroup_regs (s : State) (i : Fin 12) (f : Group → Group) : (s.modGroup i f).regs = s.regs := rfl
@[simp] theorem State.modGroup_rc (s : State) (i : Fin 12) (f : Group → Group) : (s.modGroup i f).rc = s.rc := rfl
@[simp] theorem State.modGroup_shadow (s : State) (i : Fin 12) (f : Group → Group) : (s.modGroup i f).shadow = s.shadow := rfl
@[simp] theorem State.modGroup_paths (s : State) (i : Fin 12) (f : Group → Group) : (s.modGroup i f).paths = s.paths := rfl
@[simp] theorem State.modGroup_snap (s : State) (i : Fin 12) (f : Group → Group) : (s.modGroup i f).snap = s.snap := rfl
@[simp] theorem State.modGroup_xwords (s : State) (i : Fin 12) (f : Group → Group) : (s.modGroup i f).xwords = s.xwords := rfl
@[simp] theorem State.modGroup_datums (s : State) (i : Fin 12) (f : Group → Group) : (s.modGroup i f).datums = s.datums := rfl
@[simp] theorem State.modGroup_loops (s : State) (i : Fin 12) (f : Group → Group) : (s.modGroup i f).loops = s.loops := rfl
@[simp] theorem State.modGroup_slots (s : State) (i : Fin 12) (f : Group → Group) : (s.modGroup i f).slots = s.slots := rfl
@[simp] theorem State.modGroup_chans (s : State) (i : Fin 12) (f : Group → Group) : (s.modGroup i f).chans = s.chans := rfl
@[simp] theorem State.modGroup_groups (s : State) (i : Fin 12) (f : Group → Group) : (s.modGroup i f).groups = s.groups.set i (f s.groups[i]) := rfl
@[simp] theorem State.modGroup_units (s : State) (i : Fin 12) (f : Group → Group) : (s.modGroup i f).units = s.units := rfl
@[simp] theorem State.modGroup_book (s : State) (i : Fin 12) (f : Group → Group) : (s.modGroup i f).book = s.book := rfl
@[simp] theorem State.modGroup_notices (s : State) (i : Fin 12) (f : Group → Group) : (s.modGroup i f).notices = s.notices := rfl
@[simp] theorem State.modGroup_syns (s : State) (i : Fin 12) (f : Group → Group) : (s.modGroup i f).syns = s.syns := rfl
@[simp] theorem State.modGroup_bankSrc (s : State) (i : Fin 12) (f : Group → Group) : (s.modGroup i f).bankSrc = s.bankSrc := rfl
@[simp] theorem State.modGroup_bankHand (s : State) (i : Fin 12) (f : Group → Group) : (s.modGroup i f).bankHand = s.bankHand := rfl
@[simp] theorem State.modGroup_bankHeld (s : State) (i : Fin 12) (f : Group → Group) : (s.modGroup i f).bankHeld = s.bankHeld := rfl
@[simp] theorem State.modGroup_outs (s : State) (i : Fin 12) (f : Group → Group) : (s.modGroup i f).outs = s.outs := rfl
@[simp] theorem State.modGroup_outFrom (s : State) (i : Fin 12) (f : Group → Group) : (s.modGroup i f).outFrom = s.outFrom := rfl
@[simp] theorem State.modGroup_lines (s : State) (i : Fin 12) (f : Group → Group) : (s.modGroup i f).lines = s.lines := rfl
@[simp] theorem State.modGroup_plan (s : State) (i : Fin 12) (f : Group → Group) : (s.modGroup i f).plan = s.plan := rfl
@[simp] theorem State.modGroup_planDue (s : State) (i : Fin 12) (f : Group → Group) : (s.modGroup i f).planDue = s.planDue := rfl
@[simp] theorem State.modGroup_ports (s : State) (i : Fin 12) (f : Group → Group) : (s.modGroup i f).ports = s.ports := rfl
@[simp] theorem State.modGroup_sessions (s : State) (i : Fin 12) (f : Group → Group) : (s.modGroup i f).sessions = s.sessions := rfl
@[simp] theorem State.modGroup_streams (s : State) (i : Fin 12) (f : Group → Group) : (s.modGroup i f).streams = s.streams := rfl
@[simp] theorem State.modGroup_insts (s : State) (i : Fin 12) (f : Group → Group) : (s.modGroup i f).insts = s.insts := rfl
@[simp] theorem State.modGroup_engines (s : State) (i : Fin 12) (f : Group → Group) : (s.modGroup i f).engines = s.engines := rfl
@[simp] theorem State.modGroup_sems (s : State) (i : Fin 12) (f : Group → Group) : (s.modGroup i f).sems = s.sems := rfl
@[simp] theorem State.modGroup_funcs (s : State) (i : Fin 12) (f : Group → Group) : (s.modGroup i f).funcs = s.funcs := rfl
@[simp] theorem State.modGroup_linkUp (s : State) (i : Fin 12) (f : Group → Group) : (s.modGroup i f).linkUp = s.linkUp := rfl
@[simp] theorem State.modGroup_linkSpeed (s : State) (i : Fin 12) (f : Group → Group) : (s.modGroup i f).linkSpeed = s.linkSpeed := rfl
@[simp] theorem State.modGroup_linkWidth (s : State) (i : Fin 12) (f : Group → Group) : (s.modGroup i f).linkWidth = s.linkWidth := rfl
@[simp] theorem State.modGroup_mboxes (s : State) (i : Fin 12) (f : Group → Group) : (s.modGroup i f).mboxes = s.mboxes := rfl
@[simp] theorem State.modGroup_dbIn (s : State) (i : Fin 12) (f : Group → Group) : (s.modGroup i f).dbIn = s.dbIn := rfl
@[simp] theorem State.modGroup_dbOut (s : State) (i : Fin 12) (f : Group → Group) : (s.modGroup i f).dbOut = s.dbOut := rfl
@[simp] theorem State.modGroup_sideband (s : State) (i : Fin 12) (f : Group → Group) : (s.modGroup i f).sideband = s.sideband := rfl
@[simp] theorem State.modGroup_mbs (s : State) (i : Fin 12) (f : Group → Group) : (s.modGroup i f).mbs = s.mbs := rfl
@[simp] theorem State.modGroup_gaz (s : State) (i : Fin 12) (f : Group → Group) : (s.modGroup i f).gaz = s.gaz := rfl
@[simp] theorem State.modGroup_peerMir (s : State) (i : Fin 12) (f : Group → Group) : (s.modGroup i f).peerMir = s.peerMir := rfl
@[simp] theorem State.modGroup_scanning (s : State) (i : Fin 12) (f : Group → Group) : (s.modGroup i f).scanning = s.scanning := rfl
@[simp] theorem State.modGroup_reloadDue (s : State) (i : Fin 12) (f : Group → Group) : (s.modGroup i f).reloadDue = s.reloadDue := rfl
@[simp] theorem State.modGroup_xfer (s : State) (i : Fin 12) (f : Group → Group) : (s.modGroup i f).xfer = s.xfer := rfl
@[simp] theorem State.modGroup_mem (s : State) (i : Fin 12) (f : Group → Group) : (s.modGroup i f).mem = s.mem := rfl
@[simp] theorem State.modGroup_arch (s : State) (i : Fin 12) (f : Group → Group) : (s.modGroup i f).arch = s.arch := rfl
@[simp] theorem State.modGroup_fm (s : State) (i : Fin 12) (f : Group → Group) : (s.modGroup i f).fm = s.fm := rfl
@[simp] theorem State.modGroup_benchMatch (s : State) (i : Fin 12) (f : Group → Group) : (s.modGroup i f).benchMatch = s.benchMatch := rfl
@[simp] theorem State.modGroup_stewLoad (s : State) (i : Fin 12) (f : Group → Group) : (s.modGroup i f).stewLoad = s.stewLoad := rfl
@[simp] theorem State.modGroup_shedLevel (s : State) (i : Fin 12) (f : Group → Group) : (s.modGroup i f).shedLevel = s.shedLevel := rfl
@[simp] theorem State.modGroup_shedHot (s : State) (i : Fin 12) (f : Group → Group) : (s.modGroup i f).shedHot = s.shedHot := rfl
@[simp] theorem State.modGroup_shedRun (s : State) (i : Fin 12) (f : Group → Group) : (s.modGroup i f).shedRun = s.shedRun := rfl
@[simp] theorem State.modGroup_oven (s : State) (i : Fin 12) (f : Group → Group) : (s.modGroup i f).oven = s.oven := rfl
@[simp] theorem State.modGroup_boot (s : State) (i : Fin 12) (f : Group → Group) : (s.modGroup i f).boot = s.boot := rfl
@[simp] theorem State.modGroup_domOn (s : State) (i : Fin 12) (f : Group → Group) : (s.modGroup i f).domOn = s.domOn := rfl
@[simp] theorem State.modGroup_domRising (s : State) (i : Fin 12) (f : Group → Group) : (s.modGroup i f).domRising = s.domRising := rfl
@[simp] theorem State.modGroup_cartOk (s : State) (i : Fin 12) (f : Group → Group) : (s.modGroup i f).cartOk = s.cartOk := rfl
@[simp] theorem State.modGroup_emitted (s : State) (i : Fin 12) (f : Group → Group) : (s.modGroup i f).emitted = s.emitted := rfl
@[simp] theorem State.modGroup_freeCtr (s : State) (i : Fin 12) (f : Group → Group) : (s.modGroup i f).freeCtr = s.freeCtr := rfl

@[simp] theorem State.modUnit_pending (s : State) (i : Fin 32) (f : StatUnit → StatUnit) : (s.modUnit i f).pending = s.pending := rfl
@[simp] theorem State.modUnit_coreUp (s : State) (i : Fin 32) (f : StatUnit → StatUnit) : (s.modUnit i f).coreUp = s.coreUp := rfl
@[simp] theorem State.modUnit_ticking (s : State) (i : Fin 32) (f : StatUnit → StatUnit) : (s.modUnit i f).ticking = s.ticking := rfl
@[simp] theorem State.modUnit_tick (s : State) (i : Fin 32) (f : StatUnit → StatUnit) : (s.modUnit i f).tick = s.tick := rfl
@[simp] theorem State.modUnit_islandTick (s : State) (i : Fin 32) (f : StatUnit → StatUnit) : (s.modUnit i f).islandTick = s.islandTick := rfl
@[simp] theorem State.modUnit_regs (s : State) (i : Fin 32) (f : StatUnit → StatUnit) : (s.modUnit i f).regs = s.regs := rfl
@[simp] theorem State.modUnit_rc (s : State) (i : Fin 32) (f : StatUnit → StatUnit) : (s.modUnit i f).rc = s.rc := rfl
@[simp] theorem State.modUnit_shadow (s : State) (i : Fin 32) (f : StatUnit → StatUnit) : (s.modUnit i f).shadow = s.shadow := rfl
@[simp] theorem State.modUnit_paths (s : State) (i : Fin 32) (f : StatUnit → StatUnit) : (s.modUnit i f).paths = s.paths := rfl
@[simp] theorem State.modUnit_snap (s : State) (i : Fin 32) (f : StatUnit → StatUnit) : (s.modUnit i f).snap = s.snap := rfl
@[simp] theorem State.modUnit_xwords (s : State) (i : Fin 32) (f : StatUnit → StatUnit) : (s.modUnit i f).xwords = s.xwords := rfl
@[simp] theorem State.modUnit_datums (s : State) (i : Fin 32) (f : StatUnit → StatUnit) : (s.modUnit i f).datums = s.datums := rfl
@[simp] theorem State.modUnit_loops (s : State) (i : Fin 32) (f : StatUnit → StatUnit) : (s.modUnit i f).loops = s.loops := rfl
@[simp] theorem State.modUnit_slots (s : State) (i : Fin 32) (f : StatUnit → StatUnit) : (s.modUnit i f).slots = s.slots := rfl
@[simp] theorem State.modUnit_chans (s : State) (i : Fin 32) (f : StatUnit → StatUnit) : (s.modUnit i f).chans = s.chans := rfl
@[simp] theorem State.modUnit_groups (s : State) (i : Fin 32) (f : StatUnit → StatUnit) : (s.modUnit i f).groups = s.groups := rfl
@[simp] theorem State.modUnit_units (s : State) (i : Fin 32) (f : StatUnit → StatUnit) : (s.modUnit i f).units = s.units.set i (f s.units[i]) := rfl
@[simp] theorem State.modUnit_book (s : State) (i : Fin 32) (f : StatUnit → StatUnit) : (s.modUnit i f).book = s.book := rfl
@[simp] theorem State.modUnit_notices (s : State) (i : Fin 32) (f : StatUnit → StatUnit) : (s.modUnit i f).notices = s.notices := rfl
@[simp] theorem State.modUnit_syns (s : State) (i : Fin 32) (f : StatUnit → StatUnit) : (s.modUnit i f).syns = s.syns := rfl
@[simp] theorem State.modUnit_bankSrc (s : State) (i : Fin 32) (f : StatUnit → StatUnit) : (s.modUnit i f).bankSrc = s.bankSrc := rfl
@[simp] theorem State.modUnit_bankHand (s : State) (i : Fin 32) (f : StatUnit → StatUnit) : (s.modUnit i f).bankHand = s.bankHand := rfl
@[simp] theorem State.modUnit_bankHeld (s : State) (i : Fin 32) (f : StatUnit → StatUnit) : (s.modUnit i f).bankHeld = s.bankHeld := rfl
@[simp] theorem State.modUnit_outs (s : State) (i : Fin 32) (f : StatUnit → StatUnit) : (s.modUnit i f).outs = s.outs := rfl
@[simp] theorem State.modUnit_outFrom (s : State) (i : Fin 32) (f : StatUnit → StatUnit) : (s.modUnit i f).outFrom = s.outFrom := rfl
@[simp] theorem State.modUnit_lines (s : State) (i : Fin 32) (f : StatUnit → StatUnit) : (s.modUnit i f).lines = s.lines := rfl
@[simp] theorem State.modUnit_plan (s : State) (i : Fin 32) (f : StatUnit → StatUnit) : (s.modUnit i f).plan = s.plan := rfl
@[simp] theorem State.modUnit_planDue (s : State) (i : Fin 32) (f : StatUnit → StatUnit) : (s.modUnit i f).planDue = s.planDue := rfl
@[simp] theorem State.modUnit_ports (s : State) (i : Fin 32) (f : StatUnit → StatUnit) : (s.modUnit i f).ports = s.ports := rfl
@[simp] theorem State.modUnit_sessions (s : State) (i : Fin 32) (f : StatUnit → StatUnit) : (s.modUnit i f).sessions = s.sessions := rfl
@[simp] theorem State.modUnit_streams (s : State) (i : Fin 32) (f : StatUnit → StatUnit) : (s.modUnit i f).streams = s.streams := rfl
@[simp] theorem State.modUnit_insts (s : State) (i : Fin 32) (f : StatUnit → StatUnit) : (s.modUnit i f).insts = s.insts := rfl
@[simp] theorem State.modUnit_engines (s : State) (i : Fin 32) (f : StatUnit → StatUnit) : (s.modUnit i f).engines = s.engines := rfl
@[simp] theorem State.modUnit_sems (s : State) (i : Fin 32) (f : StatUnit → StatUnit) : (s.modUnit i f).sems = s.sems := rfl
@[simp] theorem State.modUnit_funcs (s : State) (i : Fin 32) (f : StatUnit → StatUnit) : (s.modUnit i f).funcs = s.funcs := rfl
@[simp] theorem State.modUnit_linkUp (s : State) (i : Fin 32) (f : StatUnit → StatUnit) : (s.modUnit i f).linkUp = s.linkUp := rfl
@[simp] theorem State.modUnit_linkSpeed (s : State) (i : Fin 32) (f : StatUnit → StatUnit) : (s.modUnit i f).linkSpeed = s.linkSpeed := rfl
@[simp] theorem State.modUnit_linkWidth (s : State) (i : Fin 32) (f : StatUnit → StatUnit) : (s.modUnit i f).linkWidth = s.linkWidth := rfl
@[simp] theorem State.modUnit_mboxes (s : State) (i : Fin 32) (f : StatUnit → StatUnit) : (s.modUnit i f).mboxes = s.mboxes := rfl
@[simp] theorem State.modUnit_dbIn (s : State) (i : Fin 32) (f : StatUnit → StatUnit) : (s.modUnit i f).dbIn = s.dbIn := rfl
@[simp] theorem State.modUnit_dbOut (s : State) (i : Fin 32) (f : StatUnit → StatUnit) : (s.modUnit i f).dbOut = s.dbOut := rfl
@[simp] theorem State.modUnit_sideband (s : State) (i : Fin 32) (f : StatUnit → StatUnit) : (s.modUnit i f).sideband = s.sideband := rfl
@[simp] theorem State.modUnit_mbs (s : State) (i : Fin 32) (f : StatUnit → StatUnit) : (s.modUnit i f).mbs = s.mbs := rfl
@[simp] theorem State.modUnit_gaz (s : State) (i : Fin 32) (f : StatUnit → StatUnit) : (s.modUnit i f).gaz = s.gaz := rfl
@[simp] theorem State.modUnit_peerMir (s : State) (i : Fin 32) (f : StatUnit → StatUnit) : (s.modUnit i f).peerMir = s.peerMir := rfl
@[simp] theorem State.modUnit_scanning (s : State) (i : Fin 32) (f : StatUnit → StatUnit) : (s.modUnit i f).scanning = s.scanning := rfl
@[simp] theorem State.modUnit_reloadDue (s : State) (i : Fin 32) (f : StatUnit → StatUnit) : (s.modUnit i f).reloadDue = s.reloadDue := rfl
@[simp] theorem State.modUnit_xfer (s : State) (i : Fin 32) (f : StatUnit → StatUnit) : (s.modUnit i f).xfer = s.xfer := rfl
@[simp] theorem State.modUnit_mem (s : State) (i : Fin 32) (f : StatUnit → StatUnit) : (s.modUnit i f).mem = s.mem := rfl
@[simp] theorem State.modUnit_arch (s : State) (i : Fin 32) (f : StatUnit → StatUnit) : (s.modUnit i f).arch = s.arch := rfl
@[simp] theorem State.modUnit_fm (s : State) (i : Fin 32) (f : StatUnit → StatUnit) : (s.modUnit i f).fm = s.fm := rfl
@[simp] theorem State.modUnit_benchMatch (s : State) (i : Fin 32) (f : StatUnit → StatUnit) : (s.modUnit i f).benchMatch = s.benchMatch := rfl
@[simp] theorem State.modUnit_stewLoad (s : State) (i : Fin 32) (f : StatUnit → StatUnit) : (s.modUnit i f).stewLoad = s.stewLoad := rfl
@[simp] theorem State.modUnit_shedLevel (s : State) (i : Fin 32) (f : StatUnit → StatUnit) : (s.modUnit i f).shedLevel = s.shedLevel := rfl
@[simp] theorem State.modUnit_shedHot (s : State) (i : Fin 32) (f : StatUnit → StatUnit) : (s.modUnit i f).shedHot = s.shedHot := rfl
@[simp] theorem State.modUnit_shedRun (s : State) (i : Fin 32) (f : StatUnit → StatUnit) : (s.modUnit i f).shedRun = s.shedRun := rfl
@[simp] theorem State.modUnit_oven (s : State) (i : Fin 32) (f : StatUnit → StatUnit) : (s.modUnit i f).oven = s.oven := rfl
@[simp] theorem State.modUnit_boot (s : State) (i : Fin 32) (f : StatUnit → StatUnit) : (s.modUnit i f).boot = s.boot := rfl
@[simp] theorem State.modUnit_domOn (s : State) (i : Fin 32) (f : StatUnit → StatUnit) : (s.modUnit i f).domOn = s.domOn := rfl
@[simp] theorem State.modUnit_domRising (s : State) (i : Fin 32) (f : StatUnit → StatUnit) : (s.modUnit i f).domRising = s.domRising := rfl
@[simp] theorem State.modUnit_cartOk (s : State) (i : Fin 32) (f : StatUnit → StatUnit) : (s.modUnit i f).cartOk = s.cartOk := rfl
@[simp] theorem State.modUnit_emitted (s : State) (i : Fin 32) (f : StatUnit → StatUnit) : (s.modUnit i f).emitted = s.emitted := rfl
@[simp] theorem State.modUnit_freeCtr (s : State) (i : Fin 32) (f : StatUnit → StatUnit) : (s.modUnit i f).freeCtr = s.freeCtr := rfl

@[simp] theorem State.modSyn_pending (s : State) (i : Fin 9) (f : Syn → Syn) : (s.modSyn i f).pending = s.pending := rfl
@[simp] theorem State.modSyn_coreUp (s : State) (i : Fin 9) (f : Syn → Syn) : (s.modSyn i f).coreUp = s.coreUp := rfl
@[simp] theorem State.modSyn_ticking (s : State) (i : Fin 9) (f : Syn → Syn) : (s.modSyn i f).ticking = s.ticking := rfl
@[simp] theorem State.modSyn_tick (s : State) (i : Fin 9) (f : Syn → Syn) : (s.modSyn i f).tick = s.tick := rfl
@[simp] theorem State.modSyn_islandTick (s : State) (i : Fin 9) (f : Syn → Syn) : (s.modSyn i f).islandTick = s.islandTick := rfl
@[simp] theorem State.modSyn_regs (s : State) (i : Fin 9) (f : Syn → Syn) : (s.modSyn i f).regs = s.regs := rfl
@[simp] theorem State.modSyn_rc (s : State) (i : Fin 9) (f : Syn → Syn) : (s.modSyn i f).rc = s.rc := rfl
@[simp] theorem State.modSyn_shadow (s : State) (i : Fin 9) (f : Syn → Syn) : (s.modSyn i f).shadow = s.shadow := rfl
@[simp] theorem State.modSyn_paths (s : State) (i : Fin 9) (f : Syn → Syn) : (s.modSyn i f).paths = s.paths := rfl
@[simp] theorem State.modSyn_snap (s : State) (i : Fin 9) (f : Syn → Syn) : (s.modSyn i f).snap = s.snap := rfl
@[simp] theorem State.modSyn_xwords (s : State) (i : Fin 9) (f : Syn → Syn) : (s.modSyn i f).xwords = s.xwords := rfl
@[simp] theorem State.modSyn_datums (s : State) (i : Fin 9) (f : Syn → Syn) : (s.modSyn i f).datums = s.datums := rfl
@[simp] theorem State.modSyn_loops (s : State) (i : Fin 9) (f : Syn → Syn) : (s.modSyn i f).loops = s.loops := rfl
@[simp] theorem State.modSyn_slots (s : State) (i : Fin 9) (f : Syn → Syn) : (s.modSyn i f).slots = s.slots := rfl
@[simp] theorem State.modSyn_chans (s : State) (i : Fin 9) (f : Syn → Syn) : (s.modSyn i f).chans = s.chans := rfl
@[simp] theorem State.modSyn_groups (s : State) (i : Fin 9) (f : Syn → Syn) : (s.modSyn i f).groups = s.groups := rfl
@[simp] theorem State.modSyn_units (s : State) (i : Fin 9) (f : Syn → Syn) : (s.modSyn i f).units = s.units := rfl
@[simp] theorem State.modSyn_book (s : State) (i : Fin 9) (f : Syn → Syn) : (s.modSyn i f).book = s.book := rfl
@[simp] theorem State.modSyn_notices (s : State) (i : Fin 9) (f : Syn → Syn) : (s.modSyn i f).notices = s.notices := rfl
@[simp] theorem State.modSyn_syns (s : State) (i : Fin 9) (f : Syn → Syn) : (s.modSyn i f).syns = s.syns.set i (f s.syns[i]) := rfl
@[simp] theorem State.modSyn_bankSrc (s : State) (i : Fin 9) (f : Syn → Syn) : (s.modSyn i f).bankSrc = s.bankSrc := rfl
@[simp] theorem State.modSyn_bankHand (s : State) (i : Fin 9) (f : Syn → Syn) : (s.modSyn i f).bankHand = s.bankHand := rfl
@[simp] theorem State.modSyn_bankHeld (s : State) (i : Fin 9) (f : Syn → Syn) : (s.modSyn i f).bankHeld = s.bankHeld := rfl
@[simp] theorem State.modSyn_outs (s : State) (i : Fin 9) (f : Syn → Syn) : (s.modSyn i f).outs = s.outs := rfl
@[simp] theorem State.modSyn_outFrom (s : State) (i : Fin 9) (f : Syn → Syn) : (s.modSyn i f).outFrom = s.outFrom := rfl
@[simp] theorem State.modSyn_lines (s : State) (i : Fin 9) (f : Syn → Syn) : (s.modSyn i f).lines = s.lines := rfl
@[simp] theorem State.modSyn_plan (s : State) (i : Fin 9) (f : Syn → Syn) : (s.modSyn i f).plan = s.plan := rfl
@[simp] theorem State.modSyn_planDue (s : State) (i : Fin 9) (f : Syn → Syn) : (s.modSyn i f).planDue = s.planDue := rfl
@[simp] theorem State.modSyn_ports (s : State) (i : Fin 9) (f : Syn → Syn) : (s.modSyn i f).ports = s.ports := rfl
@[simp] theorem State.modSyn_sessions (s : State) (i : Fin 9) (f : Syn → Syn) : (s.modSyn i f).sessions = s.sessions := rfl
@[simp] theorem State.modSyn_streams (s : State) (i : Fin 9) (f : Syn → Syn) : (s.modSyn i f).streams = s.streams := rfl
@[simp] theorem State.modSyn_insts (s : State) (i : Fin 9) (f : Syn → Syn) : (s.modSyn i f).insts = s.insts := rfl
@[simp] theorem State.modSyn_engines (s : State) (i : Fin 9) (f : Syn → Syn) : (s.modSyn i f).engines = s.engines := rfl
@[simp] theorem State.modSyn_sems (s : State) (i : Fin 9) (f : Syn → Syn) : (s.modSyn i f).sems = s.sems := rfl
@[simp] theorem State.modSyn_funcs (s : State) (i : Fin 9) (f : Syn → Syn) : (s.modSyn i f).funcs = s.funcs := rfl
@[simp] theorem State.modSyn_linkUp (s : State) (i : Fin 9) (f : Syn → Syn) : (s.modSyn i f).linkUp = s.linkUp := rfl
@[simp] theorem State.modSyn_linkSpeed (s : State) (i : Fin 9) (f : Syn → Syn) : (s.modSyn i f).linkSpeed = s.linkSpeed := rfl
@[simp] theorem State.modSyn_linkWidth (s : State) (i : Fin 9) (f : Syn → Syn) : (s.modSyn i f).linkWidth = s.linkWidth := rfl
@[simp] theorem State.modSyn_mboxes (s : State) (i : Fin 9) (f : Syn → Syn) : (s.modSyn i f).mboxes = s.mboxes := rfl
@[simp] theorem State.modSyn_dbIn (s : State) (i : Fin 9) (f : Syn → Syn) : (s.modSyn i f).dbIn = s.dbIn := rfl
@[simp] theorem State.modSyn_dbOut (s : State) (i : Fin 9) (f : Syn → Syn) : (s.modSyn i f).dbOut = s.dbOut := rfl
@[simp] theorem State.modSyn_sideband (s : State) (i : Fin 9) (f : Syn → Syn) : (s.modSyn i f).sideband = s.sideband := rfl
@[simp] theorem State.modSyn_mbs (s : State) (i : Fin 9) (f : Syn → Syn) : (s.modSyn i f).mbs = s.mbs := rfl
@[simp] theorem State.modSyn_gaz (s : State) (i : Fin 9) (f : Syn → Syn) : (s.modSyn i f).gaz = s.gaz := rfl
@[simp] theorem State.modSyn_peerMir (s : State) (i : Fin 9) (f : Syn → Syn) : (s.modSyn i f).peerMir = s.peerMir := rfl
@[simp] theorem State.modSyn_scanning (s : State) (i : Fin 9) (f : Syn → Syn) : (s.modSyn i f).scanning = s.scanning := rfl
@[simp] theorem State.modSyn_reloadDue (s : State) (i : Fin 9) (f : Syn → Syn) : (s.modSyn i f).reloadDue = s.reloadDue := rfl
@[simp] theorem State.modSyn_xfer (s : State) (i : Fin 9) (f : Syn → Syn) : (s.modSyn i f).xfer = s.xfer := rfl
@[simp] theorem State.modSyn_mem (s : State) (i : Fin 9) (f : Syn → Syn) : (s.modSyn i f).mem = s.mem := rfl
@[simp] theorem State.modSyn_arch (s : State) (i : Fin 9) (f : Syn → Syn) : (s.modSyn i f).arch = s.arch := rfl
@[simp] theorem State.modSyn_fm (s : State) (i : Fin 9) (f : Syn → Syn) : (s.modSyn i f).fm = s.fm := rfl
@[simp] theorem State.modSyn_benchMatch (s : State) (i : Fin 9) (f : Syn → Syn) : (s.modSyn i f).benchMatch = s.benchMatch := rfl
@[simp] theorem State.modSyn_stewLoad (s : State) (i : Fin 9) (f : Syn → Syn) : (s.modSyn i f).stewLoad = s.stewLoad := rfl
@[simp] theorem State.modSyn_shedLevel (s : State) (i : Fin 9) (f : Syn → Syn) : (s.modSyn i f).shedLevel = s.shedLevel := rfl
@[simp] theorem State.modSyn_shedHot (s : State) (i : Fin 9) (f : Syn → Syn) : (s.modSyn i f).shedHot = s.shedHot := rfl
@[simp] theorem State.modSyn_shedRun (s : State) (i : Fin 9) (f : Syn → Syn) : (s.modSyn i f).shedRun = s.shedRun := rfl
@[simp] theorem State.modSyn_oven (s : State) (i : Fin 9) (f : Syn → Syn) : (s.modSyn i f).oven = s.oven := rfl
@[simp] theorem State.modSyn_boot (s : State) (i : Fin 9) (f : Syn → Syn) : (s.modSyn i f).boot = s.boot := rfl
@[simp] theorem State.modSyn_domOn (s : State) (i : Fin 9) (f : Syn → Syn) : (s.modSyn i f).domOn = s.domOn := rfl
@[simp] theorem State.modSyn_domRising (s : State) (i : Fin 9) (f : Syn → Syn) : (s.modSyn i f).domRising = s.domRising := rfl
@[simp] theorem State.modSyn_cartOk (s : State) (i : Fin 9) (f : Syn → Syn) : (s.modSyn i f).cartOk = s.cartOk := rfl
@[simp] theorem State.modSyn_emitted (s : State) (i : Fin 9) (f : Syn → Syn) : (s.modSyn i f).emitted = s.emitted := rfl
@[simp] theorem State.modSyn_freeCtr (s : State) (i : Fin 9) (f : Syn → Syn) : (s.modSyn i f).freeCtr = s.freeCtr := rfl

@[simp] theorem State.modPort_pending (s : State) (i : Fin 16) (f : Port → Port) : (s.modPort i f).pending = s.pending := rfl
@[simp] theorem State.modPort_coreUp (s : State) (i : Fin 16) (f : Port → Port) : (s.modPort i f).coreUp = s.coreUp := rfl
@[simp] theorem State.modPort_ticking (s : State) (i : Fin 16) (f : Port → Port) : (s.modPort i f).ticking = s.ticking := rfl
@[simp] theorem State.modPort_tick (s : State) (i : Fin 16) (f : Port → Port) : (s.modPort i f).tick = s.tick := rfl
@[simp] theorem State.modPort_islandTick (s : State) (i : Fin 16) (f : Port → Port) : (s.modPort i f).islandTick = s.islandTick := rfl
@[simp] theorem State.modPort_regs (s : State) (i : Fin 16) (f : Port → Port) : (s.modPort i f).regs = s.regs := rfl
@[simp] theorem State.modPort_rc (s : State) (i : Fin 16) (f : Port → Port) : (s.modPort i f).rc = s.rc := rfl
@[simp] theorem State.modPort_shadow (s : State) (i : Fin 16) (f : Port → Port) : (s.modPort i f).shadow = s.shadow := rfl
@[simp] theorem State.modPort_paths (s : State) (i : Fin 16) (f : Port → Port) : (s.modPort i f).paths = s.paths := rfl
@[simp] theorem State.modPort_snap (s : State) (i : Fin 16) (f : Port → Port) : (s.modPort i f).snap = s.snap := rfl
@[simp] theorem State.modPort_xwords (s : State) (i : Fin 16) (f : Port → Port) : (s.modPort i f).xwords = s.xwords := rfl
@[simp] theorem State.modPort_datums (s : State) (i : Fin 16) (f : Port → Port) : (s.modPort i f).datums = s.datums := rfl
@[simp] theorem State.modPort_loops (s : State) (i : Fin 16) (f : Port → Port) : (s.modPort i f).loops = s.loops := rfl
@[simp] theorem State.modPort_slots (s : State) (i : Fin 16) (f : Port → Port) : (s.modPort i f).slots = s.slots := rfl
@[simp] theorem State.modPort_chans (s : State) (i : Fin 16) (f : Port → Port) : (s.modPort i f).chans = s.chans := rfl
@[simp] theorem State.modPort_groups (s : State) (i : Fin 16) (f : Port → Port) : (s.modPort i f).groups = s.groups := rfl
@[simp] theorem State.modPort_units (s : State) (i : Fin 16) (f : Port → Port) : (s.modPort i f).units = s.units := rfl
@[simp] theorem State.modPort_book (s : State) (i : Fin 16) (f : Port → Port) : (s.modPort i f).book = s.book := rfl
@[simp] theorem State.modPort_notices (s : State) (i : Fin 16) (f : Port → Port) : (s.modPort i f).notices = s.notices := rfl
@[simp] theorem State.modPort_syns (s : State) (i : Fin 16) (f : Port → Port) : (s.modPort i f).syns = s.syns := rfl
@[simp] theorem State.modPort_bankSrc (s : State) (i : Fin 16) (f : Port → Port) : (s.modPort i f).bankSrc = s.bankSrc := rfl
@[simp] theorem State.modPort_bankHand (s : State) (i : Fin 16) (f : Port → Port) : (s.modPort i f).bankHand = s.bankHand := rfl
@[simp] theorem State.modPort_bankHeld (s : State) (i : Fin 16) (f : Port → Port) : (s.modPort i f).bankHeld = s.bankHeld := rfl
@[simp] theorem State.modPort_outs (s : State) (i : Fin 16) (f : Port → Port) : (s.modPort i f).outs = s.outs := rfl
@[simp] theorem State.modPort_outFrom (s : State) (i : Fin 16) (f : Port → Port) : (s.modPort i f).outFrom = s.outFrom := rfl
@[simp] theorem State.modPort_lines (s : State) (i : Fin 16) (f : Port → Port) : (s.modPort i f).lines = s.lines := rfl
@[simp] theorem State.modPort_plan (s : State) (i : Fin 16) (f : Port → Port) : (s.modPort i f).plan = s.plan := rfl
@[simp] theorem State.modPort_planDue (s : State) (i : Fin 16) (f : Port → Port) : (s.modPort i f).planDue = s.planDue := rfl
@[simp] theorem State.modPort_ports (s : State) (i : Fin 16) (f : Port → Port) : (s.modPort i f).ports = s.ports.set i (f s.ports[i]) := rfl
@[simp] theorem State.modPort_sessions (s : State) (i : Fin 16) (f : Port → Port) : (s.modPort i f).sessions = s.sessions := rfl
@[simp] theorem State.modPort_streams (s : State) (i : Fin 16) (f : Port → Port) : (s.modPort i f).streams = s.streams := rfl
@[simp] theorem State.modPort_insts (s : State) (i : Fin 16) (f : Port → Port) : (s.modPort i f).insts = s.insts := rfl
@[simp] theorem State.modPort_engines (s : State) (i : Fin 16) (f : Port → Port) : (s.modPort i f).engines = s.engines := rfl
@[simp] theorem State.modPort_sems (s : State) (i : Fin 16) (f : Port → Port) : (s.modPort i f).sems = s.sems := rfl
@[simp] theorem State.modPort_funcs (s : State) (i : Fin 16) (f : Port → Port) : (s.modPort i f).funcs = s.funcs := rfl
@[simp] theorem State.modPort_linkUp (s : State) (i : Fin 16) (f : Port → Port) : (s.modPort i f).linkUp = s.linkUp := rfl
@[simp] theorem State.modPort_linkSpeed (s : State) (i : Fin 16) (f : Port → Port) : (s.modPort i f).linkSpeed = s.linkSpeed := rfl
@[simp] theorem State.modPort_linkWidth (s : State) (i : Fin 16) (f : Port → Port) : (s.modPort i f).linkWidth = s.linkWidth := rfl
@[simp] theorem State.modPort_mboxes (s : State) (i : Fin 16) (f : Port → Port) : (s.modPort i f).mboxes = s.mboxes := rfl
@[simp] theorem State.modPort_dbIn (s : State) (i : Fin 16) (f : Port → Port) : (s.modPort i f).dbIn = s.dbIn := rfl
@[simp] theorem State.modPort_dbOut (s : State) (i : Fin 16) (f : Port → Port) : (s.modPort i f).dbOut = s.dbOut := rfl
@[simp] theorem State.modPort_sideband (s : State) (i : Fin 16) (f : Port → Port) : (s.modPort i f).sideband = s.sideband := rfl
@[simp] theorem State.modPort_mbs (s : State) (i : Fin 16) (f : Port → Port) : (s.modPort i f).mbs = s.mbs := rfl
@[simp] theorem State.modPort_gaz (s : State) (i : Fin 16) (f : Port → Port) : (s.modPort i f).gaz = s.gaz := rfl
@[simp] theorem State.modPort_peerMir (s : State) (i : Fin 16) (f : Port → Port) : (s.modPort i f).peerMir = s.peerMir := rfl
@[simp] theorem State.modPort_scanning (s : State) (i : Fin 16) (f : Port → Port) : (s.modPort i f).scanning = s.scanning := rfl
@[simp] theorem State.modPort_reloadDue (s : State) (i : Fin 16) (f : Port → Port) : (s.modPort i f).reloadDue = s.reloadDue := rfl
@[simp] theorem State.modPort_xfer (s : State) (i : Fin 16) (f : Port → Port) : (s.modPort i f).xfer = s.xfer := rfl
@[simp] theorem State.modPort_mem (s : State) (i : Fin 16) (f : Port → Port) : (s.modPort i f).mem = s.mem := rfl
@[simp] theorem State.modPort_arch (s : State) (i : Fin 16) (f : Port → Port) : (s.modPort i f).arch = s.arch := rfl
@[simp] theorem State.modPort_fm (s : State) (i : Fin 16) (f : Port → Port) : (s.modPort i f).fm = s.fm := rfl
@[simp] theorem State.modPort_benchMatch (s : State) (i : Fin 16) (f : Port → Port) : (s.modPort i f).benchMatch = s.benchMatch := rfl
@[simp] theorem State.modPort_stewLoad (s : State) (i : Fin 16) (f : Port → Port) : (s.modPort i f).stewLoad = s.stewLoad := rfl
@[simp] theorem State.modPort_shedLevel (s : State) (i : Fin 16) (f : Port → Port) : (s.modPort i f).shedLevel = s.shedLevel := rfl
@[simp] theorem State.modPort_shedHot (s : State) (i : Fin 16) (f : Port → Port) : (s.modPort i f).shedHot = s.shedHot := rfl
@[simp] theorem State.modPort_shedRun (s : State) (i : Fin 16) (f : Port → Port) : (s.modPort i f).shedRun = s.shedRun := rfl
@[simp] theorem State.modPort_oven (s : State) (i : Fin 16) (f : Port → Port) : (s.modPort i f).oven = s.oven := rfl
@[simp] theorem State.modPort_boot (s : State) (i : Fin 16) (f : Port → Port) : (s.modPort i f).boot = s.boot := rfl
@[simp] theorem State.modPort_domOn (s : State) (i : Fin 16) (f : Port → Port) : (s.modPort i f).domOn = s.domOn := rfl
@[simp] theorem State.modPort_domRising (s : State) (i : Fin 16) (f : Port → Port) : (s.modPort i f).domRising = s.domRising := rfl
@[simp] theorem State.modPort_cartOk (s : State) (i : Fin 16) (f : Port → Port) : (s.modPort i f).cartOk = s.cartOk := rfl
@[simp] theorem State.modPort_emitted (s : State) (i : Fin 16) (f : Port → Port) : (s.modPort i f).emitted = s.emitted := rfl
@[simp] theorem State.modPort_freeCtr (s : State) (i : Fin 16) (f : Port → Port) : (s.modPort i f).freeCtr = s.freeCtr := rfl

@[simp] theorem State.modReist_pending (s : State) (i : Fin 16) (f : Reist → Reist) : (s.modReist i f).pending = s.pending := rfl
@[simp] theorem State.modReist_coreUp (s : State) (i : Fin 16) (f : Reist → Reist) : (s.modReist i f).coreUp = s.coreUp := rfl
@[simp] theorem State.modReist_ticking (s : State) (i : Fin 16) (f : Reist → Reist) : (s.modReist i f).ticking = s.ticking := rfl
@[simp] theorem State.modReist_tick (s : State) (i : Fin 16) (f : Reist → Reist) : (s.modReist i f).tick = s.tick := rfl
@[simp] theorem State.modReist_islandTick (s : State) (i : Fin 16) (f : Reist → Reist) : (s.modReist i f).islandTick = s.islandTick := rfl
@[simp] theorem State.modReist_regs (s : State) (i : Fin 16) (f : Reist → Reist) : (s.modReist i f).regs = s.regs := rfl
@[simp] theorem State.modReist_rc (s : State) (i : Fin 16) (f : Reist → Reist) : (s.modReist i f).rc = s.rc := rfl
@[simp] theorem State.modReist_shadow (s : State) (i : Fin 16) (f : Reist → Reist) : (s.modReist i f).shadow = s.shadow := rfl
@[simp] theorem State.modReist_paths (s : State) (i : Fin 16) (f : Reist → Reist) : (s.modReist i f).paths = s.paths := rfl
@[simp] theorem State.modReist_snap (s : State) (i : Fin 16) (f : Reist → Reist) : (s.modReist i f).snap = s.snap := rfl
@[simp] theorem State.modReist_xwords (s : State) (i : Fin 16) (f : Reist → Reist) : (s.modReist i f).xwords = s.xwords := rfl
@[simp] theorem State.modReist_datums (s : State) (i : Fin 16) (f : Reist → Reist) : (s.modReist i f).datums = s.datums := rfl
@[simp] theorem State.modReist_loops (s : State) (i : Fin 16) (f : Reist → Reist) : (s.modReist i f).loops = s.loops := rfl
@[simp] theorem State.modReist_slots (s : State) (i : Fin 16) (f : Reist → Reist) : (s.modReist i f).slots = s.slots := rfl
@[simp] theorem State.modReist_chans (s : State) (i : Fin 16) (f : Reist → Reist) : (s.modReist i f).chans = s.chans := rfl
@[simp] theorem State.modReist_groups (s : State) (i : Fin 16) (f : Reist → Reist) : (s.modReist i f).groups = s.groups := rfl
@[simp] theorem State.modReist_units (s : State) (i : Fin 16) (f : Reist → Reist) : (s.modReist i f).units = s.units := rfl
@[simp] theorem State.modReist_book (s : State) (i : Fin 16) (f : Reist → Reist) : (s.modReist i f).book = s.book := rfl
@[simp] theorem State.modReist_notices (s : State) (i : Fin 16) (f : Reist → Reist) : (s.modReist i f).notices = s.notices := rfl
@[simp] theorem State.modReist_syns (s : State) (i : Fin 16) (f : Reist → Reist) : (s.modReist i f).syns = s.syns := rfl
@[simp] theorem State.modReist_bankSrc (s : State) (i : Fin 16) (f : Reist → Reist) : (s.modReist i f).bankSrc = s.bankSrc := rfl
@[simp] theorem State.modReist_bankHand (s : State) (i : Fin 16) (f : Reist → Reist) : (s.modReist i f).bankHand = s.bankHand := rfl
@[simp] theorem State.modReist_bankHeld (s : State) (i : Fin 16) (f : Reist → Reist) : (s.modReist i f).bankHeld = s.bankHeld := rfl
@[simp] theorem State.modReist_outs (s : State) (i : Fin 16) (f : Reist → Reist) : (s.modReist i f).outs = s.outs := rfl
@[simp] theorem State.modReist_outFrom (s : State) (i : Fin 16) (f : Reist → Reist) : (s.modReist i f).outFrom = s.outFrom := rfl
@[simp] theorem State.modReist_lines (s : State) (i : Fin 16) (f : Reist → Reist) : (s.modReist i f).lines = s.lines := rfl
@[simp] theorem State.modReist_plan (s : State) (i : Fin 16) (f : Reist → Reist) : (s.modReist i f).plan = s.plan := rfl
@[simp] theorem State.modReist_planDue (s : State) (i : Fin 16) (f : Reist → Reist) : (s.modReist i f).planDue = s.planDue := rfl
@[simp] theorem State.modReist_ports (s : State) (i : Fin 16) (f : Reist → Reist) : (s.modReist i f).ports = s.ports.set i { s.ports[i] with r := f s.ports[i].r } := rfl
@[simp] theorem State.modReist_sessions (s : State) (i : Fin 16) (f : Reist → Reist) : (s.modReist i f).sessions = s.sessions := rfl
@[simp] theorem State.modReist_streams (s : State) (i : Fin 16) (f : Reist → Reist) : (s.modReist i f).streams = s.streams := rfl
@[simp] theorem State.modReist_insts (s : State) (i : Fin 16) (f : Reist → Reist) : (s.modReist i f).insts = s.insts := rfl
@[simp] theorem State.modReist_engines (s : State) (i : Fin 16) (f : Reist → Reist) : (s.modReist i f).engines = s.engines := rfl
@[simp] theorem State.modReist_sems (s : State) (i : Fin 16) (f : Reist → Reist) : (s.modReist i f).sems = s.sems := rfl
@[simp] theorem State.modReist_funcs (s : State) (i : Fin 16) (f : Reist → Reist) : (s.modReist i f).funcs = s.funcs := rfl
@[simp] theorem State.modReist_linkUp (s : State) (i : Fin 16) (f : Reist → Reist) : (s.modReist i f).linkUp = s.linkUp := rfl
@[simp] theorem State.modReist_linkSpeed (s : State) (i : Fin 16) (f : Reist → Reist) : (s.modReist i f).linkSpeed = s.linkSpeed := rfl
@[simp] theorem State.modReist_linkWidth (s : State) (i : Fin 16) (f : Reist → Reist) : (s.modReist i f).linkWidth = s.linkWidth := rfl
@[simp] theorem State.modReist_mboxes (s : State) (i : Fin 16) (f : Reist → Reist) : (s.modReist i f).mboxes = s.mboxes := rfl
@[simp] theorem State.modReist_dbIn (s : State) (i : Fin 16) (f : Reist → Reist) : (s.modReist i f).dbIn = s.dbIn := rfl
@[simp] theorem State.modReist_dbOut (s : State) (i : Fin 16) (f : Reist → Reist) : (s.modReist i f).dbOut = s.dbOut := rfl
@[simp] theorem State.modReist_sideband (s : State) (i : Fin 16) (f : Reist → Reist) : (s.modReist i f).sideband = s.sideband := rfl
@[simp] theorem State.modReist_mbs (s : State) (i : Fin 16) (f : Reist → Reist) : (s.modReist i f).mbs = s.mbs := rfl
@[simp] theorem State.modReist_gaz (s : State) (i : Fin 16) (f : Reist → Reist) : (s.modReist i f).gaz = s.gaz := rfl
@[simp] theorem State.modReist_peerMir (s : State) (i : Fin 16) (f : Reist → Reist) : (s.modReist i f).peerMir = s.peerMir := rfl
@[simp] theorem State.modReist_scanning (s : State) (i : Fin 16) (f : Reist → Reist) : (s.modReist i f).scanning = s.scanning := rfl
@[simp] theorem State.modReist_reloadDue (s : State) (i : Fin 16) (f : Reist → Reist) : (s.modReist i f).reloadDue = s.reloadDue := rfl
@[simp] theorem State.modReist_xfer (s : State) (i : Fin 16) (f : Reist → Reist) : (s.modReist i f).xfer = s.xfer := rfl
@[simp] theorem State.modReist_mem (s : State) (i : Fin 16) (f : Reist → Reist) : (s.modReist i f).mem = s.mem := rfl
@[simp] theorem State.modReist_arch (s : State) (i : Fin 16) (f : Reist → Reist) : (s.modReist i f).arch = s.arch := rfl
@[simp] theorem State.modReist_fm (s : State) (i : Fin 16) (f : Reist → Reist) : (s.modReist i f).fm = s.fm := rfl
@[simp] theorem State.modReist_benchMatch (s : State) (i : Fin 16) (f : Reist → Reist) : (s.modReist i f).benchMatch = s.benchMatch := rfl
@[simp] theorem State.modReist_stewLoad (s : State) (i : Fin 16) (f : Reist → Reist) : (s.modReist i f).stewLoad = s.stewLoad := rfl
@[simp] theorem State.modReist_shedLevel (s : State) (i : Fin 16) (f : Reist → Reist) : (s.modReist i f).shedLevel = s.shedLevel := rfl
@[simp] theorem State.modReist_shedHot (s : State) (i : Fin 16) (f : Reist → Reist) : (s.modReist i f).shedHot = s.shedHot := rfl
@[simp] theorem State.modReist_shedRun (s : State) (i : Fin 16) (f : Reist → Reist) : (s.modReist i f).shedRun = s.shedRun := rfl
@[simp] theorem State.modReist_oven (s : State) (i : Fin 16) (f : Reist → Reist) : (s.modReist i f).oven = s.oven := rfl
@[simp] theorem State.modReist_boot (s : State) (i : Fin 16) (f : Reist → Reist) : (s.modReist i f).boot = s.boot := rfl
@[simp] theorem State.modReist_domOn (s : State) (i : Fin 16) (f : Reist → Reist) : (s.modReist i f).domOn = s.domOn := rfl
@[simp] theorem State.modReist_domRising (s : State) (i : Fin 16) (f : Reist → Reist) : (s.modReist i f).domRising = s.domRising := rfl
@[simp] theorem State.modReist_cartOk (s : State) (i : Fin 16) (f : Reist → Reist) : (s.modReist i f).cartOk = s.cartOk := rfl
@[simp] theorem State.modReist_emitted (s : State) (i : Fin 16) (f : Reist → Reist) : (s.modReist i f).emitted = s.emitted := rfl
@[simp] theorem State.modReist_freeCtr (s : State) (i : Fin 16) (f : Reist → Reist) : (s.modReist i f).freeCtr = s.freeCtr := rfl

@[simp] theorem State.modStream_pending (s : State) (i : Fin 32) (f : Stream → Stream) : (s.modStream i f).pending = s.pending := rfl
@[simp] theorem State.modStream_coreUp (s : State) (i : Fin 32) (f : Stream → Stream) : (s.modStream i f).coreUp = s.coreUp := rfl
@[simp] theorem State.modStream_ticking (s : State) (i : Fin 32) (f : Stream → Stream) : (s.modStream i f).ticking = s.ticking := rfl
@[simp] theorem State.modStream_tick (s : State) (i : Fin 32) (f : Stream → Stream) : (s.modStream i f).tick = s.tick := rfl
@[simp] theorem State.modStream_islandTick (s : State) (i : Fin 32) (f : Stream → Stream) : (s.modStream i f).islandTick = s.islandTick := rfl
@[simp] theorem State.modStream_regs (s : State) (i : Fin 32) (f : Stream → Stream) : (s.modStream i f).regs = s.regs := rfl
@[simp] theorem State.modStream_rc (s : State) (i : Fin 32) (f : Stream → Stream) : (s.modStream i f).rc = s.rc := rfl
@[simp] theorem State.modStream_shadow (s : State) (i : Fin 32) (f : Stream → Stream) : (s.modStream i f).shadow = s.shadow := rfl
@[simp] theorem State.modStream_paths (s : State) (i : Fin 32) (f : Stream → Stream) : (s.modStream i f).paths = s.paths := rfl
@[simp] theorem State.modStream_snap (s : State) (i : Fin 32) (f : Stream → Stream) : (s.modStream i f).snap = s.snap := rfl
@[simp] theorem State.modStream_xwords (s : State) (i : Fin 32) (f : Stream → Stream) : (s.modStream i f).xwords = s.xwords := rfl
@[simp] theorem State.modStream_datums (s : State) (i : Fin 32) (f : Stream → Stream) : (s.modStream i f).datums = s.datums := rfl
@[simp] theorem State.modStream_loops (s : State) (i : Fin 32) (f : Stream → Stream) : (s.modStream i f).loops = s.loops := rfl
@[simp] theorem State.modStream_slots (s : State) (i : Fin 32) (f : Stream → Stream) : (s.modStream i f).slots = s.slots := rfl
@[simp] theorem State.modStream_chans (s : State) (i : Fin 32) (f : Stream → Stream) : (s.modStream i f).chans = s.chans := rfl
@[simp] theorem State.modStream_groups (s : State) (i : Fin 32) (f : Stream → Stream) : (s.modStream i f).groups = s.groups := rfl
@[simp] theorem State.modStream_units (s : State) (i : Fin 32) (f : Stream → Stream) : (s.modStream i f).units = s.units := rfl
@[simp] theorem State.modStream_book (s : State) (i : Fin 32) (f : Stream → Stream) : (s.modStream i f).book = s.book := rfl
@[simp] theorem State.modStream_notices (s : State) (i : Fin 32) (f : Stream → Stream) : (s.modStream i f).notices = s.notices := rfl
@[simp] theorem State.modStream_syns (s : State) (i : Fin 32) (f : Stream → Stream) : (s.modStream i f).syns = s.syns := rfl
@[simp] theorem State.modStream_bankSrc (s : State) (i : Fin 32) (f : Stream → Stream) : (s.modStream i f).bankSrc = s.bankSrc := rfl
@[simp] theorem State.modStream_bankHand (s : State) (i : Fin 32) (f : Stream → Stream) : (s.modStream i f).bankHand = s.bankHand := rfl
@[simp] theorem State.modStream_bankHeld (s : State) (i : Fin 32) (f : Stream → Stream) : (s.modStream i f).bankHeld = s.bankHeld := rfl
@[simp] theorem State.modStream_outs (s : State) (i : Fin 32) (f : Stream → Stream) : (s.modStream i f).outs = s.outs := rfl
@[simp] theorem State.modStream_outFrom (s : State) (i : Fin 32) (f : Stream → Stream) : (s.modStream i f).outFrom = s.outFrom := rfl
@[simp] theorem State.modStream_lines (s : State) (i : Fin 32) (f : Stream → Stream) : (s.modStream i f).lines = s.lines := rfl
@[simp] theorem State.modStream_plan (s : State) (i : Fin 32) (f : Stream → Stream) : (s.modStream i f).plan = s.plan := rfl
@[simp] theorem State.modStream_planDue (s : State) (i : Fin 32) (f : Stream → Stream) : (s.modStream i f).planDue = s.planDue := rfl
@[simp] theorem State.modStream_ports (s : State) (i : Fin 32) (f : Stream → Stream) : (s.modStream i f).ports = s.ports := rfl
@[simp] theorem State.modStream_sessions (s : State) (i : Fin 32) (f : Stream → Stream) : (s.modStream i f).sessions = s.sessions := rfl
@[simp] theorem State.modStream_streams (s : State) (i : Fin 32) (f : Stream → Stream) : (s.modStream i f).streams = s.streams.set i (f s.streams[i]) := rfl
@[simp] theorem State.modStream_insts (s : State) (i : Fin 32) (f : Stream → Stream) : (s.modStream i f).insts = s.insts := rfl
@[simp] theorem State.modStream_engines (s : State) (i : Fin 32) (f : Stream → Stream) : (s.modStream i f).engines = s.engines := rfl
@[simp] theorem State.modStream_sems (s : State) (i : Fin 32) (f : Stream → Stream) : (s.modStream i f).sems = s.sems := rfl
@[simp] theorem State.modStream_funcs (s : State) (i : Fin 32) (f : Stream → Stream) : (s.modStream i f).funcs = s.funcs := rfl
@[simp] theorem State.modStream_linkUp (s : State) (i : Fin 32) (f : Stream → Stream) : (s.modStream i f).linkUp = s.linkUp := rfl
@[simp] theorem State.modStream_linkSpeed (s : State) (i : Fin 32) (f : Stream → Stream) : (s.modStream i f).linkSpeed = s.linkSpeed := rfl
@[simp] theorem State.modStream_linkWidth (s : State) (i : Fin 32) (f : Stream → Stream) : (s.modStream i f).linkWidth = s.linkWidth := rfl
@[simp] theorem State.modStream_mboxes (s : State) (i : Fin 32) (f : Stream → Stream) : (s.modStream i f).mboxes = s.mboxes := rfl
@[simp] theorem State.modStream_dbIn (s : State) (i : Fin 32) (f : Stream → Stream) : (s.modStream i f).dbIn = s.dbIn := rfl
@[simp] theorem State.modStream_dbOut (s : State) (i : Fin 32) (f : Stream → Stream) : (s.modStream i f).dbOut = s.dbOut := rfl
@[simp] theorem State.modStream_sideband (s : State) (i : Fin 32) (f : Stream → Stream) : (s.modStream i f).sideband = s.sideband := rfl
@[simp] theorem State.modStream_mbs (s : State) (i : Fin 32) (f : Stream → Stream) : (s.modStream i f).mbs = s.mbs := rfl
@[simp] theorem State.modStream_gaz (s : State) (i : Fin 32) (f : Stream → Stream) : (s.modStream i f).gaz = s.gaz := rfl
@[simp] theorem State.modStream_peerMir (s : State) (i : Fin 32) (f : Stream → Stream) : (s.modStream i f).peerMir = s.peerMir := rfl
@[simp] theorem State.modStream_scanning (s : State) (i : Fin 32) (f : Stream → Stream) : (s.modStream i f).scanning = s.scanning := rfl
@[simp] theorem State.modStream_reloadDue (s : State) (i : Fin 32) (f : Stream → Stream) : (s.modStream i f).reloadDue = s.reloadDue := rfl
@[simp] theorem State.modStream_xfer (s : State) (i : Fin 32) (f : Stream → Stream) : (s.modStream i f).xfer = s.xfer := rfl
@[simp] theorem State.modStream_mem (s : State) (i : Fin 32) (f : Stream → Stream) : (s.modStream i f).mem = s.mem := rfl
@[simp] theorem State.modStream_arch (s : State) (i : Fin 32) (f : Stream → Stream) : (s.modStream i f).arch = s.arch := rfl
@[simp] theorem State.modStream_fm (s : State) (i : Fin 32) (f : Stream → Stream) : (s.modStream i f).fm = s.fm := rfl
@[simp] theorem State.modStream_benchMatch (s : State) (i : Fin 32) (f : Stream → Stream) : (s.modStream i f).benchMatch = s.benchMatch := rfl
@[simp] theorem State.modStream_stewLoad (s : State) (i : Fin 32) (f : Stream → Stream) : (s.modStream i f).stewLoad = s.stewLoad := rfl
@[simp] theorem State.modStream_shedLevel (s : State) (i : Fin 32) (f : Stream → Stream) : (s.modStream i f).shedLevel = s.shedLevel := rfl
@[simp] theorem State.modStream_shedHot (s : State) (i : Fin 32) (f : Stream → Stream) : (s.modStream i f).shedHot = s.shedHot := rfl
@[simp] theorem State.modStream_shedRun (s : State) (i : Fin 32) (f : Stream → Stream) : (s.modStream i f).shedRun = s.shedRun := rfl
@[simp] theorem State.modStream_oven (s : State) (i : Fin 32) (f : Stream → Stream) : (s.modStream i f).oven = s.oven := rfl
@[simp] theorem State.modStream_boot (s : State) (i : Fin 32) (f : Stream → Stream) : (s.modStream i f).boot = s.boot := rfl
@[simp] theorem State.modStream_domOn (s : State) (i : Fin 32) (f : Stream → Stream) : (s.modStream i f).domOn = s.domOn := rfl
@[simp] theorem State.modStream_domRising (s : State) (i : Fin 32) (f : Stream → Stream) : (s.modStream i f).domRising = s.domRising := rfl
@[simp] theorem State.modStream_cartOk (s : State) (i : Fin 32) (f : Stream → Stream) : (s.modStream i f).cartOk = s.cartOk := rfl
@[simp] theorem State.modStream_emitted (s : State) (i : Fin 32) (f : Stream → Stream) : (s.modStream i f).emitted = s.emitted := rfl
@[simp] theorem State.modStream_freeCtr (s : State) (i : Fin 32) (f : Stream → Stream) : (s.modStream i f).freeCtr = s.freeCtr := rfl

@[simp] theorem State.modInst_pending (s : State) (i : Fin 8) (f : Inst → Inst) : (s.modInst i f).pending = s.pending := rfl
@[simp] theorem State.modInst_coreUp (s : State) (i : Fin 8) (f : Inst → Inst) : (s.modInst i f).coreUp = s.coreUp := rfl
@[simp] theorem State.modInst_ticking (s : State) (i : Fin 8) (f : Inst → Inst) : (s.modInst i f).ticking = s.ticking := rfl
@[simp] theorem State.modInst_tick (s : State) (i : Fin 8) (f : Inst → Inst) : (s.modInst i f).tick = s.tick := rfl
@[simp] theorem State.modInst_islandTick (s : State) (i : Fin 8) (f : Inst → Inst) : (s.modInst i f).islandTick = s.islandTick := rfl
@[simp] theorem State.modInst_regs (s : State) (i : Fin 8) (f : Inst → Inst) : (s.modInst i f).regs = s.regs := rfl
@[simp] theorem State.modInst_rc (s : State) (i : Fin 8) (f : Inst → Inst) : (s.modInst i f).rc = s.rc := rfl
@[simp] theorem State.modInst_shadow (s : State) (i : Fin 8) (f : Inst → Inst) : (s.modInst i f).shadow = s.shadow := rfl
@[simp] theorem State.modInst_paths (s : State) (i : Fin 8) (f : Inst → Inst) : (s.modInst i f).paths = s.paths := rfl
@[simp] theorem State.modInst_snap (s : State) (i : Fin 8) (f : Inst → Inst) : (s.modInst i f).snap = s.snap := rfl
@[simp] theorem State.modInst_xwords (s : State) (i : Fin 8) (f : Inst → Inst) : (s.modInst i f).xwords = s.xwords := rfl
@[simp] theorem State.modInst_datums (s : State) (i : Fin 8) (f : Inst → Inst) : (s.modInst i f).datums = s.datums := rfl
@[simp] theorem State.modInst_loops (s : State) (i : Fin 8) (f : Inst → Inst) : (s.modInst i f).loops = s.loops := rfl
@[simp] theorem State.modInst_slots (s : State) (i : Fin 8) (f : Inst → Inst) : (s.modInst i f).slots = s.slots := rfl
@[simp] theorem State.modInst_chans (s : State) (i : Fin 8) (f : Inst → Inst) : (s.modInst i f).chans = s.chans := rfl
@[simp] theorem State.modInst_groups (s : State) (i : Fin 8) (f : Inst → Inst) : (s.modInst i f).groups = s.groups := rfl
@[simp] theorem State.modInst_units (s : State) (i : Fin 8) (f : Inst → Inst) : (s.modInst i f).units = s.units := rfl
@[simp] theorem State.modInst_book (s : State) (i : Fin 8) (f : Inst → Inst) : (s.modInst i f).book = s.book := rfl
@[simp] theorem State.modInst_notices (s : State) (i : Fin 8) (f : Inst → Inst) : (s.modInst i f).notices = s.notices := rfl
@[simp] theorem State.modInst_syns (s : State) (i : Fin 8) (f : Inst → Inst) : (s.modInst i f).syns = s.syns := rfl
@[simp] theorem State.modInst_bankSrc (s : State) (i : Fin 8) (f : Inst → Inst) : (s.modInst i f).bankSrc = s.bankSrc := rfl
@[simp] theorem State.modInst_bankHand (s : State) (i : Fin 8) (f : Inst → Inst) : (s.modInst i f).bankHand = s.bankHand := rfl
@[simp] theorem State.modInst_bankHeld (s : State) (i : Fin 8) (f : Inst → Inst) : (s.modInst i f).bankHeld = s.bankHeld := rfl
@[simp] theorem State.modInst_outs (s : State) (i : Fin 8) (f : Inst → Inst) : (s.modInst i f).outs = s.outs := rfl
@[simp] theorem State.modInst_outFrom (s : State) (i : Fin 8) (f : Inst → Inst) : (s.modInst i f).outFrom = s.outFrom := rfl
@[simp] theorem State.modInst_lines (s : State) (i : Fin 8) (f : Inst → Inst) : (s.modInst i f).lines = s.lines := rfl
@[simp] theorem State.modInst_plan (s : State) (i : Fin 8) (f : Inst → Inst) : (s.modInst i f).plan = s.plan := rfl
@[simp] theorem State.modInst_planDue (s : State) (i : Fin 8) (f : Inst → Inst) : (s.modInst i f).planDue = s.planDue := rfl
@[simp] theorem State.modInst_ports (s : State) (i : Fin 8) (f : Inst → Inst) : (s.modInst i f).ports = s.ports := rfl
@[simp] theorem State.modInst_sessions (s : State) (i : Fin 8) (f : Inst → Inst) : (s.modInst i f).sessions = s.sessions := rfl
@[simp] theorem State.modInst_streams (s : State) (i : Fin 8) (f : Inst → Inst) : (s.modInst i f).streams = s.streams := rfl
@[simp] theorem State.modInst_insts (s : State) (i : Fin 8) (f : Inst → Inst) : (s.modInst i f).insts = s.insts.set i (f s.insts[i]) := rfl
@[simp] theorem State.modInst_engines (s : State) (i : Fin 8) (f : Inst → Inst) : (s.modInst i f).engines = s.engines := rfl
@[simp] theorem State.modInst_sems (s : State) (i : Fin 8) (f : Inst → Inst) : (s.modInst i f).sems = s.sems := rfl
@[simp] theorem State.modInst_funcs (s : State) (i : Fin 8) (f : Inst → Inst) : (s.modInst i f).funcs = s.funcs := rfl
@[simp] theorem State.modInst_linkUp (s : State) (i : Fin 8) (f : Inst → Inst) : (s.modInst i f).linkUp = s.linkUp := rfl
@[simp] theorem State.modInst_linkSpeed (s : State) (i : Fin 8) (f : Inst → Inst) : (s.modInst i f).linkSpeed = s.linkSpeed := rfl
@[simp] theorem State.modInst_linkWidth (s : State) (i : Fin 8) (f : Inst → Inst) : (s.modInst i f).linkWidth = s.linkWidth := rfl
@[simp] theorem State.modInst_mboxes (s : State) (i : Fin 8) (f : Inst → Inst) : (s.modInst i f).mboxes = s.mboxes := rfl
@[simp] theorem State.modInst_dbIn (s : State) (i : Fin 8) (f : Inst → Inst) : (s.modInst i f).dbIn = s.dbIn := rfl
@[simp] theorem State.modInst_dbOut (s : State) (i : Fin 8) (f : Inst → Inst) : (s.modInst i f).dbOut = s.dbOut := rfl
@[simp] theorem State.modInst_sideband (s : State) (i : Fin 8) (f : Inst → Inst) : (s.modInst i f).sideband = s.sideband := rfl
@[simp] theorem State.modInst_mbs (s : State) (i : Fin 8) (f : Inst → Inst) : (s.modInst i f).mbs = s.mbs := rfl
@[simp] theorem State.modInst_gaz (s : State) (i : Fin 8) (f : Inst → Inst) : (s.modInst i f).gaz = s.gaz := rfl
@[simp] theorem State.modInst_peerMir (s : State) (i : Fin 8) (f : Inst → Inst) : (s.modInst i f).peerMir = s.peerMir := rfl
@[simp] theorem State.modInst_scanning (s : State) (i : Fin 8) (f : Inst → Inst) : (s.modInst i f).scanning = s.scanning := rfl
@[simp] theorem State.modInst_reloadDue (s : State) (i : Fin 8) (f : Inst → Inst) : (s.modInst i f).reloadDue = s.reloadDue := rfl
@[simp] theorem State.modInst_xfer (s : State) (i : Fin 8) (f : Inst → Inst) : (s.modInst i f).xfer = s.xfer := rfl
@[simp] theorem State.modInst_mem (s : State) (i : Fin 8) (f : Inst → Inst) : (s.modInst i f).mem = s.mem := rfl
@[simp] theorem State.modInst_arch (s : State) (i : Fin 8) (f : Inst → Inst) : (s.modInst i f).arch = s.arch := rfl
@[simp] theorem State.modInst_fm (s : State) (i : Fin 8) (f : Inst → Inst) : (s.modInst i f).fm = s.fm := rfl
@[simp] theorem State.modInst_benchMatch (s : State) (i : Fin 8) (f : Inst → Inst) : (s.modInst i f).benchMatch = s.benchMatch := rfl
@[simp] theorem State.modInst_stewLoad (s : State) (i : Fin 8) (f : Inst → Inst) : (s.modInst i f).stewLoad = s.stewLoad := rfl
@[simp] theorem State.modInst_shedLevel (s : State) (i : Fin 8) (f : Inst → Inst) : (s.modInst i f).shedLevel = s.shedLevel := rfl
@[simp] theorem State.modInst_shedHot (s : State) (i : Fin 8) (f : Inst → Inst) : (s.modInst i f).shedHot = s.shedHot := rfl
@[simp] theorem State.modInst_shedRun (s : State) (i : Fin 8) (f : Inst → Inst) : (s.modInst i f).shedRun = s.shedRun := rfl
@[simp] theorem State.modInst_oven (s : State) (i : Fin 8) (f : Inst → Inst) : (s.modInst i f).oven = s.oven := rfl
@[simp] theorem State.modInst_boot (s : State) (i : Fin 8) (f : Inst → Inst) : (s.modInst i f).boot = s.boot := rfl
@[simp] theorem State.modInst_domOn (s : State) (i : Fin 8) (f : Inst → Inst) : (s.modInst i f).domOn = s.domOn := rfl
@[simp] theorem State.modInst_domRising (s : State) (i : Fin 8) (f : Inst → Inst) : (s.modInst i f).domRising = s.domRising := rfl
@[simp] theorem State.modInst_cartOk (s : State) (i : Fin 8) (f : Inst → Inst) : (s.modInst i f).cartOk = s.cartOk := rfl
@[simp] theorem State.modInst_emitted (s : State) (i : Fin 8) (f : Inst → Inst) : (s.modInst i f).emitted = s.emitted := rfl
@[simp] theorem State.modInst_freeCtr (s : State) (i : Fin 8) (f : Inst → Inst) : (s.modInst i f).freeCtr = s.freeCtr := rfl

@[simp] theorem State.modEng_pending (s : State) (i : Fin 8) (f : Engine → Engine) : (s.modEng i f).pending = s.pending := rfl
@[simp] theorem State.modEng_coreUp (s : State) (i : Fin 8) (f : Engine → Engine) : (s.modEng i f).coreUp = s.coreUp := rfl
@[simp] theorem State.modEng_ticking (s : State) (i : Fin 8) (f : Engine → Engine) : (s.modEng i f).ticking = s.ticking := rfl
@[simp] theorem State.modEng_tick (s : State) (i : Fin 8) (f : Engine → Engine) : (s.modEng i f).tick = s.tick := rfl
@[simp] theorem State.modEng_islandTick (s : State) (i : Fin 8) (f : Engine → Engine) : (s.modEng i f).islandTick = s.islandTick := rfl
@[simp] theorem State.modEng_regs (s : State) (i : Fin 8) (f : Engine → Engine) : (s.modEng i f).regs = s.regs := rfl
@[simp] theorem State.modEng_rc (s : State) (i : Fin 8) (f : Engine → Engine) : (s.modEng i f).rc = s.rc := rfl
@[simp] theorem State.modEng_shadow (s : State) (i : Fin 8) (f : Engine → Engine) : (s.modEng i f).shadow = s.shadow := rfl
@[simp] theorem State.modEng_paths (s : State) (i : Fin 8) (f : Engine → Engine) : (s.modEng i f).paths = s.paths := rfl
@[simp] theorem State.modEng_snap (s : State) (i : Fin 8) (f : Engine → Engine) : (s.modEng i f).snap = s.snap := rfl
@[simp] theorem State.modEng_xwords (s : State) (i : Fin 8) (f : Engine → Engine) : (s.modEng i f).xwords = s.xwords := rfl
@[simp] theorem State.modEng_datums (s : State) (i : Fin 8) (f : Engine → Engine) : (s.modEng i f).datums = s.datums := rfl
@[simp] theorem State.modEng_loops (s : State) (i : Fin 8) (f : Engine → Engine) : (s.modEng i f).loops = s.loops := rfl
@[simp] theorem State.modEng_slots (s : State) (i : Fin 8) (f : Engine → Engine) : (s.modEng i f).slots = s.slots := rfl
@[simp] theorem State.modEng_chans (s : State) (i : Fin 8) (f : Engine → Engine) : (s.modEng i f).chans = s.chans := rfl
@[simp] theorem State.modEng_groups (s : State) (i : Fin 8) (f : Engine → Engine) : (s.modEng i f).groups = s.groups := rfl
@[simp] theorem State.modEng_units (s : State) (i : Fin 8) (f : Engine → Engine) : (s.modEng i f).units = s.units := rfl
@[simp] theorem State.modEng_book (s : State) (i : Fin 8) (f : Engine → Engine) : (s.modEng i f).book = s.book := rfl
@[simp] theorem State.modEng_notices (s : State) (i : Fin 8) (f : Engine → Engine) : (s.modEng i f).notices = s.notices := rfl
@[simp] theorem State.modEng_syns (s : State) (i : Fin 8) (f : Engine → Engine) : (s.modEng i f).syns = s.syns := rfl
@[simp] theorem State.modEng_bankSrc (s : State) (i : Fin 8) (f : Engine → Engine) : (s.modEng i f).bankSrc = s.bankSrc := rfl
@[simp] theorem State.modEng_bankHand (s : State) (i : Fin 8) (f : Engine → Engine) : (s.modEng i f).bankHand = s.bankHand := rfl
@[simp] theorem State.modEng_bankHeld (s : State) (i : Fin 8) (f : Engine → Engine) : (s.modEng i f).bankHeld = s.bankHeld := rfl
@[simp] theorem State.modEng_outs (s : State) (i : Fin 8) (f : Engine → Engine) : (s.modEng i f).outs = s.outs := rfl
@[simp] theorem State.modEng_outFrom (s : State) (i : Fin 8) (f : Engine → Engine) : (s.modEng i f).outFrom = s.outFrom := rfl
@[simp] theorem State.modEng_lines (s : State) (i : Fin 8) (f : Engine → Engine) : (s.modEng i f).lines = s.lines := rfl
@[simp] theorem State.modEng_plan (s : State) (i : Fin 8) (f : Engine → Engine) : (s.modEng i f).plan = s.plan := rfl
@[simp] theorem State.modEng_planDue (s : State) (i : Fin 8) (f : Engine → Engine) : (s.modEng i f).planDue = s.planDue := rfl
@[simp] theorem State.modEng_ports (s : State) (i : Fin 8) (f : Engine → Engine) : (s.modEng i f).ports = s.ports := rfl
@[simp] theorem State.modEng_sessions (s : State) (i : Fin 8) (f : Engine → Engine) : (s.modEng i f).sessions = s.sessions := rfl
@[simp] theorem State.modEng_streams (s : State) (i : Fin 8) (f : Engine → Engine) : (s.modEng i f).streams = s.streams := rfl
@[simp] theorem State.modEng_insts (s : State) (i : Fin 8) (f : Engine → Engine) : (s.modEng i f).insts = s.insts := rfl
@[simp] theorem State.modEng_engines (s : State) (i : Fin 8) (f : Engine → Engine) : (s.modEng i f).engines = s.engines.set i (f s.engines[i]) := rfl
@[simp] theorem State.modEng_sems (s : State) (i : Fin 8) (f : Engine → Engine) : (s.modEng i f).sems = s.sems := rfl
@[simp] theorem State.modEng_funcs (s : State) (i : Fin 8) (f : Engine → Engine) : (s.modEng i f).funcs = s.funcs := rfl
@[simp] theorem State.modEng_linkUp (s : State) (i : Fin 8) (f : Engine → Engine) : (s.modEng i f).linkUp = s.linkUp := rfl
@[simp] theorem State.modEng_linkSpeed (s : State) (i : Fin 8) (f : Engine → Engine) : (s.modEng i f).linkSpeed = s.linkSpeed := rfl
@[simp] theorem State.modEng_linkWidth (s : State) (i : Fin 8) (f : Engine → Engine) : (s.modEng i f).linkWidth = s.linkWidth := rfl
@[simp] theorem State.modEng_mboxes (s : State) (i : Fin 8) (f : Engine → Engine) : (s.modEng i f).mboxes = s.mboxes := rfl
@[simp] theorem State.modEng_dbIn (s : State) (i : Fin 8) (f : Engine → Engine) : (s.modEng i f).dbIn = s.dbIn := rfl
@[simp] theorem State.modEng_dbOut (s : State) (i : Fin 8) (f : Engine → Engine) : (s.modEng i f).dbOut = s.dbOut := rfl
@[simp] theorem State.modEng_sideband (s : State) (i : Fin 8) (f : Engine → Engine) : (s.modEng i f).sideband = s.sideband := rfl
@[simp] theorem State.modEng_mbs (s : State) (i : Fin 8) (f : Engine → Engine) : (s.modEng i f).mbs = s.mbs := rfl
@[simp] theorem State.modEng_gaz (s : State) (i : Fin 8) (f : Engine → Engine) : (s.modEng i f).gaz = s.gaz := rfl
@[simp] theorem State.modEng_peerMir (s : State) (i : Fin 8) (f : Engine → Engine) : (s.modEng i f).peerMir = s.peerMir := rfl
@[simp] theorem State.modEng_scanning (s : State) (i : Fin 8) (f : Engine → Engine) : (s.modEng i f).scanning = s.scanning := rfl
@[simp] theorem State.modEng_reloadDue (s : State) (i : Fin 8) (f : Engine → Engine) : (s.modEng i f).reloadDue = s.reloadDue := rfl
@[simp] theorem State.modEng_xfer (s : State) (i : Fin 8) (f : Engine → Engine) : (s.modEng i f).xfer = s.xfer := rfl
@[simp] theorem State.modEng_mem (s : State) (i : Fin 8) (f : Engine → Engine) : (s.modEng i f).mem = s.mem := rfl
@[simp] theorem State.modEng_arch (s : State) (i : Fin 8) (f : Engine → Engine) : (s.modEng i f).arch = s.arch := rfl
@[simp] theorem State.modEng_fm (s : State) (i : Fin 8) (f : Engine → Engine) : (s.modEng i f).fm = s.fm := rfl
@[simp] theorem State.modEng_benchMatch (s : State) (i : Fin 8) (f : Engine → Engine) : (s.modEng i f).benchMatch = s.benchMatch := rfl
@[simp] theorem State.modEng_stewLoad (s : State) (i : Fin 8) (f : Engine → Engine) : (s.modEng i f).stewLoad = s.stewLoad := rfl
@[simp] theorem State.modEng_shedLevel (s : State) (i : Fin 8) (f : Engine → Engine) : (s.modEng i f).shedLevel = s.shedLevel := rfl
@[simp] theorem State.modEng_shedHot (s : State) (i : Fin 8) (f : Engine → Engine) : (s.modEng i f).shedHot = s.shedHot := rfl
@[simp] theorem State.modEng_shedRun (s : State) (i : Fin 8) (f : Engine → Engine) : (s.modEng i f).shedRun = s.shedRun := rfl
@[simp] theorem State.modEng_oven (s : State) (i : Fin 8) (f : Engine → Engine) : (s.modEng i f).oven = s.oven := rfl
@[simp] theorem State.modEng_boot (s : State) (i : Fin 8) (f : Engine → Engine) : (s.modEng i f).boot = s.boot := rfl
@[simp] theorem State.modEng_domOn (s : State) (i : Fin 8) (f : Engine → Engine) : (s.modEng i f).domOn = s.domOn := rfl
@[simp] theorem State.modEng_domRising (s : State) (i : Fin 8) (f : Engine → Engine) : (s.modEng i f).domRising = s.domRising := rfl
@[simp] theorem State.modEng_cartOk (s : State) (i : Fin 8) (f : Engine → Engine) : (s.modEng i f).cartOk = s.cartOk := rfl
@[simp] theorem State.modEng_emitted (s : State) (i : Fin 8) (f : Engine → Engine) : (s.modEng i f).emitted = s.emitted := rfl
@[simp] theorem State.modEng_freeCtr (s : State) (i : Fin 8) (f : Engine → Engine) : (s.modEng i f).freeCtr = s.freeCtr := rfl

@[simp] theorem State.modMbox_pending (s : State) (i : Fin 16) (f : Mbox → Mbox) : (s.modMbox i f).pending = s.pending := rfl
@[simp] theorem State.modMbox_coreUp (s : State) (i : Fin 16) (f : Mbox → Mbox) : (s.modMbox i f).coreUp = s.coreUp := rfl
@[simp] theorem State.modMbox_ticking (s : State) (i : Fin 16) (f : Mbox → Mbox) : (s.modMbox i f).ticking = s.ticking := rfl
@[simp] theorem State.modMbox_tick (s : State) (i : Fin 16) (f : Mbox → Mbox) : (s.modMbox i f).tick = s.tick := rfl
@[simp] theorem State.modMbox_islandTick (s : State) (i : Fin 16) (f : Mbox → Mbox) : (s.modMbox i f).islandTick = s.islandTick := rfl
@[simp] theorem State.modMbox_regs (s : State) (i : Fin 16) (f : Mbox → Mbox) : (s.modMbox i f).regs = s.regs := rfl
@[simp] theorem State.modMbox_rc (s : State) (i : Fin 16) (f : Mbox → Mbox) : (s.modMbox i f).rc = s.rc := rfl
@[simp] theorem State.modMbox_shadow (s : State) (i : Fin 16) (f : Mbox → Mbox) : (s.modMbox i f).shadow = s.shadow := rfl
@[simp] theorem State.modMbox_paths (s : State) (i : Fin 16) (f : Mbox → Mbox) : (s.modMbox i f).paths = s.paths := rfl
@[simp] theorem State.modMbox_snap (s : State) (i : Fin 16) (f : Mbox → Mbox) : (s.modMbox i f).snap = s.snap := rfl
@[simp] theorem State.modMbox_xwords (s : State) (i : Fin 16) (f : Mbox → Mbox) : (s.modMbox i f).xwords = s.xwords := rfl
@[simp] theorem State.modMbox_datums (s : State) (i : Fin 16) (f : Mbox → Mbox) : (s.modMbox i f).datums = s.datums := rfl
@[simp] theorem State.modMbox_loops (s : State) (i : Fin 16) (f : Mbox → Mbox) : (s.modMbox i f).loops = s.loops := rfl
@[simp] theorem State.modMbox_slots (s : State) (i : Fin 16) (f : Mbox → Mbox) : (s.modMbox i f).slots = s.slots := rfl
@[simp] theorem State.modMbox_chans (s : State) (i : Fin 16) (f : Mbox → Mbox) : (s.modMbox i f).chans = s.chans := rfl
@[simp] theorem State.modMbox_groups (s : State) (i : Fin 16) (f : Mbox → Mbox) : (s.modMbox i f).groups = s.groups := rfl
@[simp] theorem State.modMbox_units (s : State) (i : Fin 16) (f : Mbox → Mbox) : (s.modMbox i f).units = s.units := rfl
@[simp] theorem State.modMbox_book (s : State) (i : Fin 16) (f : Mbox → Mbox) : (s.modMbox i f).book = s.book := rfl
@[simp] theorem State.modMbox_notices (s : State) (i : Fin 16) (f : Mbox → Mbox) : (s.modMbox i f).notices = s.notices := rfl
@[simp] theorem State.modMbox_syns (s : State) (i : Fin 16) (f : Mbox → Mbox) : (s.modMbox i f).syns = s.syns := rfl
@[simp] theorem State.modMbox_bankSrc (s : State) (i : Fin 16) (f : Mbox → Mbox) : (s.modMbox i f).bankSrc = s.bankSrc := rfl
@[simp] theorem State.modMbox_bankHand (s : State) (i : Fin 16) (f : Mbox → Mbox) : (s.modMbox i f).bankHand = s.bankHand := rfl
@[simp] theorem State.modMbox_bankHeld (s : State) (i : Fin 16) (f : Mbox → Mbox) : (s.modMbox i f).bankHeld = s.bankHeld := rfl
@[simp] theorem State.modMbox_outs (s : State) (i : Fin 16) (f : Mbox → Mbox) : (s.modMbox i f).outs = s.outs := rfl
@[simp] theorem State.modMbox_outFrom (s : State) (i : Fin 16) (f : Mbox → Mbox) : (s.modMbox i f).outFrom = s.outFrom := rfl
@[simp] theorem State.modMbox_lines (s : State) (i : Fin 16) (f : Mbox → Mbox) : (s.modMbox i f).lines = s.lines := rfl
@[simp] theorem State.modMbox_plan (s : State) (i : Fin 16) (f : Mbox → Mbox) : (s.modMbox i f).plan = s.plan := rfl
@[simp] theorem State.modMbox_planDue (s : State) (i : Fin 16) (f : Mbox → Mbox) : (s.modMbox i f).planDue = s.planDue := rfl
@[simp] theorem State.modMbox_ports (s : State) (i : Fin 16) (f : Mbox → Mbox) : (s.modMbox i f).ports = s.ports := rfl
@[simp] theorem State.modMbox_sessions (s : State) (i : Fin 16) (f : Mbox → Mbox) : (s.modMbox i f).sessions = s.sessions := rfl
@[simp] theorem State.modMbox_streams (s : State) (i : Fin 16) (f : Mbox → Mbox) : (s.modMbox i f).streams = s.streams := rfl
@[simp] theorem State.modMbox_insts (s : State) (i : Fin 16) (f : Mbox → Mbox) : (s.modMbox i f).insts = s.insts := rfl
@[simp] theorem State.modMbox_engines (s : State) (i : Fin 16) (f : Mbox → Mbox) : (s.modMbox i f).engines = s.engines := rfl
@[simp] theorem State.modMbox_sems (s : State) (i : Fin 16) (f : Mbox → Mbox) : (s.modMbox i f).sems = s.sems := rfl
@[simp] theorem State.modMbox_funcs (s : State) (i : Fin 16) (f : Mbox → Mbox) : (s.modMbox i f).funcs = s.funcs := rfl
@[simp] theorem State.modMbox_linkUp (s : State) (i : Fin 16) (f : Mbox → Mbox) : (s.modMbox i f).linkUp = s.linkUp := rfl
@[simp] theorem State.modMbox_linkSpeed (s : State) (i : Fin 16) (f : Mbox → Mbox) : (s.modMbox i f).linkSpeed = s.linkSpeed := rfl
@[simp] theorem State.modMbox_linkWidth (s : State) (i : Fin 16) (f : Mbox → Mbox) : (s.modMbox i f).linkWidth = s.linkWidth := rfl
@[simp] theorem State.modMbox_mboxes (s : State) (i : Fin 16) (f : Mbox → Mbox) : (s.modMbox i f).mboxes = s.mboxes.set i (f s.mboxes[i]) := rfl
@[simp] theorem State.modMbox_dbIn (s : State) (i : Fin 16) (f : Mbox → Mbox) : (s.modMbox i f).dbIn = s.dbIn := rfl
@[simp] theorem State.modMbox_dbOut (s : State) (i : Fin 16) (f : Mbox → Mbox) : (s.modMbox i f).dbOut = s.dbOut := rfl
@[simp] theorem State.modMbox_sideband (s : State) (i : Fin 16) (f : Mbox → Mbox) : (s.modMbox i f).sideband = s.sideband := rfl
@[simp] theorem State.modMbox_mbs (s : State) (i : Fin 16) (f : Mbox → Mbox) : (s.modMbox i f).mbs = s.mbs := rfl
@[simp] theorem State.modMbox_gaz (s : State) (i : Fin 16) (f : Mbox → Mbox) : (s.modMbox i f).gaz = s.gaz := rfl
@[simp] theorem State.modMbox_peerMir (s : State) (i : Fin 16) (f : Mbox → Mbox) : (s.modMbox i f).peerMir = s.peerMir := rfl
@[simp] theorem State.modMbox_scanning (s : State) (i : Fin 16) (f : Mbox → Mbox) : (s.modMbox i f).scanning = s.scanning := rfl
@[simp] theorem State.modMbox_reloadDue (s : State) (i : Fin 16) (f : Mbox → Mbox) : (s.modMbox i f).reloadDue = s.reloadDue := rfl
@[simp] theorem State.modMbox_xfer (s : State) (i : Fin 16) (f : Mbox → Mbox) : (s.modMbox i f).xfer = s.xfer := rfl
@[simp] theorem State.modMbox_mem (s : State) (i : Fin 16) (f : Mbox → Mbox) : (s.modMbox i f).mem = s.mem := rfl
@[simp] theorem State.modMbox_arch (s : State) (i : Fin 16) (f : Mbox → Mbox) : (s.modMbox i f).arch = s.arch := rfl
@[simp] theorem State.modMbox_fm (s : State) (i : Fin 16) (f : Mbox → Mbox) : (s.modMbox i f).fm = s.fm := rfl
@[simp] theorem State.modMbox_benchMatch (s : State) (i : Fin 16) (f : Mbox → Mbox) : (s.modMbox i f).benchMatch = s.benchMatch := rfl
@[simp] theorem State.modMbox_stewLoad (s : State) (i : Fin 16) (f : Mbox → Mbox) : (s.modMbox i f).stewLoad = s.stewLoad := rfl
@[simp] theorem State.modMbox_shedLevel (s : State) (i : Fin 16) (f : Mbox → Mbox) : (s.modMbox i f).shedLevel = s.shedLevel := rfl
@[simp] theorem State.modMbox_shedHot (s : State) (i : Fin 16) (f : Mbox → Mbox) : (s.modMbox i f).shedHot = s.shedHot := rfl
@[simp] theorem State.modMbox_shedRun (s : State) (i : Fin 16) (f : Mbox → Mbox) : (s.modMbox i f).shedRun = s.shedRun := rfl
@[simp] theorem State.modMbox_oven (s : State) (i : Fin 16) (f : Mbox → Mbox) : (s.modMbox i f).oven = s.oven := rfl
@[simp] theorem State.modMbox_boot (s : State) (i : Fin 16) (f : Mbox → Mbox) : (s.modMbox i f).boot = s.boot := rfl
@[simp] theorem State.modMbox_domOn (s : State) (i : Fin 16) (f : Mbox → Mbox) : (s.modMbox i f).domOn = s.domOn := rfl
@[simp] theorem State.modMbox_domRising (s : State) (i : Fin 16) (f : Mbox → Mbox) : (s.modMbox i f).domRising = s.domRising := rfl
@[simp] theorem State.modMbox_cartOk (s : State) (i : Fin 16) (f : Mbox → Mbox) : (s.modMbox i f).cartOk = s.cartOk := rfl
@[simp] theorem State.modMbox_emitted (s : State) (i : Fin 16) (f : Mbox → Mbox) : (s.modMbox i f).emitted = s.emitted := rfl
@[simp] theorem State.modMbox_freeCtr (s : State) (i : Fin 16) (f : Mbox → Mbox) : (s.modMbox i f).freeCtr = s.freeCtr := rfl

@[simp] theorem State.modMb_pending (s : State) (i : Fin 2) (f : MbPort → MbPort) : (s.modMb i f).pending = s.pending := rfl
@[simp] theorem State.modMb_coreUp (s : State) (i : Fin 2) (f : MbPort → MbPort) : (s.modMb i f).coreUp = s.coreUp := rfl
@[simp] theorem State.modMb_ticking (s : State) (i : Fin 2) (f : MbPort → MbPort) : (s.modMb i f).ticking = s.ticking := rfl
@[simp] theorem State.modMb_tick (s : State) (i : Fin 2) (f : MbPort → MbPort) : (s.modMb i f).tick = s.tick := rfl
@[simp] theorem State.modMb_islandTick (s : State) (i : Fin 2) (f : MbPort → MbPort) : (s.modMb i f).islandTick = s.islandTick := rfl
@[simp] theorem State.modMb_regs (s : State) (i : Fin 2) (f : MbPort → MbPort) : (s.modMb i f).regs = s.regs := rfl
@[simp] theorem State.modMb_rc (s : State) (i : Fin 2) (f : MbPort → MbPort) : (s.modMb i f).rc = s.rc := rfl
@[simp] theorem State.modMb_shadow (s : State) (i : Fin 2) (f : MbPort → MbPort) : (s.modMb i f).shadow = s.shadow := rfl
@[simp] theorem State.modMb_paths (s : State) (i : Fin 2) (f : MbPort → MbPort) : (s.modMb i f).paths = s.paths := rfl
@[simp] theorem State.modMb_snap (s : State) (i : Fin 2) (f : MbPort → MbPort) : (s.modMb i f).snap = s.snap := rfl
@[simp] theorem State.modMb_xwords (s : State) (i : Fin 2) (f : MbPort → MbPort) : (s.modMb i f).xwords = s.xwords := rfl
@[simp] theorem State.modMb_datums (s : State) (i : Fin 2) (f : MbPort → MbPort) : (s.modMb i f).datums = s.datums := rfl
@[simp] theorem State.modMb_loops (s : State) (i : Fin 2) (f : MbPort → MbPort) : (s.modMb i f).loops = s.loops := rfl
@[simp] theorem State.modMb_slots (s : State) (i : Fin 2) (f : MbPort → MbPort) : (s.modMb i f).slots = s.slots := rfl
@[simp] theorem State.modMb_chans (s : State) (i : Fin 2) (f : MbPort → MbPort) : (s.modMb i f).chans = s.chans := rfl
@[simp] theorem State.modMb_groups (s : State) (i : Fin 2) (f : MbPort → MbPort) : (s.modMb i f).groups = s.groups := rfl
@[simp] theorem State.modMb_units (s : State) (i : Fin 2) (f : MbPort → MbPort) : (s.modMb i f).units = s.units := rfl
@[simp] theorem State.modMb_book (s : State) (i : Fin 2) (f : MbPort → MbPort) : (s.modMb i f).book = s.book := rfl
@[simp] theorem State.modMb_notices (s : State) (i : Fin 2) (f : MbPort → MbPort) : (s.modMb i f).notices = s.notices := rfl
@[simp] theorem State.modMb_syns (s : State) (i : Fin 2) (f : MbPort → MbPort) : (s.modMb i f).syns = s.syns := rfl
@[simp] theorem State.modMb_bankSrc (s : State) (i : Fin 2) (f : MbPort → MbPort) : (s.modMb i f).bankSrc = s.bankSrc := rfl
@[simp] theorem State.modMb_bankHand (s : State) (i : Fin 2) (f : MbPort → MbPort) : (s.modMb i f).bankHand = s.bankHand := rfl
@[simp] theorem State.modMb_bankHeld (s : State) (i : Fin 2) (f : MbPort → MbPort) : (s.modMb i f).bankHeld = s.bankHeld := rfl
@[simp] theorem State.modMb_outs (s : State) (i : Fin 2) (f : MbPort → MbPort) : (s.modMb i f).outs = s.outs := rfl
@[simp] theorem State.modMb_outFrom (s : State) (i : Fin 2) (f : MbPort → MbPort) : (s.modMb i f).outFrom = s.outFrom := rfl
@[simp] theorem State.modMb_lines (s : State) (i : Fin 2) (f : MbPort → MbPort) : (s.modMb i f).lines = s.lines := rfl
@[simp] theorem State.modMb_plan (s : State) (i : Fin 2) (f : MbPort → MbPort) : (s.modMb i f).plan = s.plan := rfl
@[simp] theorem State.modMb_planDue (s : State) (i : Fin 2) (f : MbPort → MbPort) : (s.modMb i f).planDue = s.planDue := rfl
@[simp] theorem State.modMb_ports (s : State) (i : Fin 2) (f : MbPort → MbPort) : (s.modMb i f).ports = s.ports := rfl
@[simp] theorem State.modMb_sessions (s : State) (i : Fin 2) (f : MbPort → MbPort) : (s.modMb i f).sessions = s.sessions := rfl
@[simp] theorem State.modMb_streams (s : State) (i : Fin 2) (f : MbPort → MbPort) : (s.modMb i f).streams = s.streams := rfl
@[simp] theorem State.modMb_insts (s : State) (i : Fin 2) (f : MbPort → MbPort) : (s.modMb i f).insts = s.insts := rfl
@[simp] theorem State.modMb_engines (s : State) (i : Fin 2) (f : MbPort → MbPort) : (s.modMb i f).engines = s.engines := rfl
@[simp] theorem State.modMb_sems (s : State) (i : Fin 2) (f : MbPort → MbPort) : (s.modMb i f).sems = s.sems := rfl
@[simp] theorem State.modMb_funcs (s : State) (i : Fin 2) (f : MbPort → MbPort) : (s.modMb i f).funcs = s.funcs := rfl
@[simp] theorem State.modMb_linkUp (s : State) (i : Fin 2) (f : MbPort → MbPort) : (s.modMb i f).linkUp = s.linkUp := rfl
@[simp] theorem State.modMb_linkSpeed (s : State) (i : Fin 2) (f : MbPort → MbPort) : (s.modMb i f).linkSpeed = s.linkSpeed := rfl
@[simp] theorem State.modMb_linkWidth (s : State) (i : Fin 2) (f : MbPort → MbPort) : (s.modMb i f).linkWidth = s.linkWidth := rfl
@[simp] theorem State.modMb_mboxes (s : State) (i : Fin 2) (f : MbPort → MbPort) : (s.modMb i f).mboxes = s.mboxes := rfl
@[simp] theorem State.modMb_dbIn (s : State) (i : Fin 2) (f : MbPort → MbPort) : (s.modMb i f).dbIn = s.dbIn := rfl
@[simp] theorem State.modMb_dbOut (s : State) (i : Fin 2) (f : MbPort → MbPort) : (s.modMb i f).dbOut = s.dbOut := rfl
@[simp] theorem State.modMb_sideband (s : State) (i : Fin 2) (f : MbPort → MbPort) : (s.modMb i f).sideband = s.sideband := rfl
@[simp] theorem State.modMb_mbs (s : State) (i : Fin 2) (f : MbPort → MbPort) : (s.modMb i f).mbs = s.mbs.set i (f s.mbs[i]) := rfl
@[simp] theorem State.modMb_gaz (s : State) (i : Fin 2) (f : MbPort → MbPort) : (s.modMb i f).gaz = s.gaz := rfl
@[simp] theorem State.modMb_peerMir (s : State) (i : Fin 2) (f : MbPort → MbPort) : (s.modMb i f).peerMir = s.peerMir := rfl
@[simp] theorem State.modMb_scanning (s : State) (i : Fin 2) (f : MbPort → MbPort) : (s.modMb i f).scanning = s.scanning := rfl
@[simp] theorem State.modMb_reloadDue (s : State) (i : Fin 2) (f : MbPort → MbPort) : (s.modMb i f).reloadDue = s.reloadDue := rfl
@[simp] theorem State.modMb_xfer (s : State) (i : Fin 2) (f : MbPort → MbPort) : (s.modMb i f).xfer = s.xfer := rfl
@[simp] theorem State.modMb_mem (s : State) (i : Fin 2) (f : MbPort → MbPort) : (s.modMb i f).mem = s.mem := rfl
@[simp] theorem State.modMb_arch (s : State) (i : Fin 2) (f : MbPort → MbPort) : (s.modMb i f).arch = s.arch := rfl
@[simp] theorem State.modMb_fm (s : State) (i : Fin 2) (f : MbPort → MbPort) : (s.modMb i f).fm = s.fm := rfl
@[simp] theorem State.modMb_benchMatch (s : State) (i : Fin 2) (f : MbPort → MbPort) : (s.modMb i f).benchMatch = s.benchMatch := rfl
@[simp] theorem State.modMb_stewLoad (s : State) (i : Fin 2) (f : MbPort → MbPort) : (s.modMb i f).stewLoad = s.stewLoad := rfl
@[simp] theorem State.modMb_shedLevel (s : State) (i : Fin 2) (f : MbPort → MbPort) : (s.modMb i f).shedLevel = s.shedLevel := rfl
@[simp] theorem State.modMb_shedHot (s : State) (i : Fin 2) (f : MbPort → MbPort) : (s.modMb i f).shedHot = s.shedHot := rfl
@[simp] theorem State.modMb_shedRun (s : State) (i : Fin 2) (f : MbPort → MbPort) : (s.modMb i f).shedRun = s.shedRun := rfl
@[simp] theorem State.modMb_oven (s : State) (i : Fin 2) (f : MbPort → MbPort) : (s.modMb i f).oven = s.oven := rfl
@[simp] theorem State.modMb_boot (s : State) (i : Fin 2) (f : MbPort → MbPort) : (s.modMb i f).boot = s.boot := rfl
@[simp] theorem State.modMb_domOn (s : State) (i : Fin 2) (f : MbPort → MbPort) : (s.modMb i f).domOn = s.domOn := rfl
@[simp] theorem State.modMb_domRising (s : State) (i : Fin 2) (f : MbPort → MbPort) : (s.modMb i f).domRising = s.domRising := rfl
@[simp] theorem State.modMb_cartOk (s : State) (i : Fin 2) (f : MbPort → MbPort) : (s.modMb i f).cartOk = s.cartOk := rfl
@[simp] theorem State.modMb_emitted (s : State) (i : Fin 2) (f : MbPort → MbPort) : (s.modMb i f).emitted = s.emitted := rfl
@[simp] theorem State.modMb_freeCtr (s : State) (i : Fin 2) (f : MbPort → MbPort) : (s.modMb i f).freeCtr = s.freeCtr := rfl

@[simp] theorem State.modGaz_pending (s : State) (i : Fin 64) (f : Gaz → Gaz) : (s.modGaz i f).pending = s.pending := rfl
@[simp] theorem State.modGaz_coreUp (s : State) (i : Fin 64) (f : Gaz → Gaz) : (s.modGaz i f).coreUp = s.coreUp := rfl
@[simp] theorem State.modGaz_ticking (s : State) (i : Fin 64) (f : Gaz → Gaz) : (s.modGaz i f).ticking = s.ticking := rfl
@[simp] theorem State.modGaz_tick (s : State) (i : Fin 64) (f : Gaz → Gaz) : (s.modGaz i f).tick = s.tick := rfl
@[simp] theorem State.modGaz_islandTick (s : State) (i : Fin 64) (f : Gaz → Gaz) : (s.modGaz i f).islandTick = s.islandTick := rfl
@[simp] theorem State.modGaz_regs (s : State) (i : Fin 64) (f : Gaz → Gaz) : (s.modGaz i f).regs = s.regs := rfl
@[simp] theorem State.modGaz_rc (s : State) (i : Fin 64) (f : Gaz → Gaz) : (s.modGaz i f).rc = s.rc := rfl
@[simp] theorem State.modGaz_shadow (s : State) (i : Fin 64) (f : Gaz → Gaz) : (s.modGaz i f).shadow = s.shadow := rfl
@[simp] theorem State.modGaz_paths (s : State) (i : Fin 64) (f : Gaz → Gaz) : (s.modGaz i f).paths = s.paths := rfl
@[simp] theorem State.modGaz_snap (s : State) (i : Fin 64) (f : Gaz → Gaz) : (s.modGaz i f).snap = s.snap := rfl
@[simp] theorem State.modGaz_xwords (s : State) (i : Fin 64) (f : Gaz → Gaz) : (s.modGaz i f).xwords = s.xwords := rfl
@[simp] theorem State.modGaz_datums (s : State) (i : Fin 64) (f : Gaz → Gaz) : (s.modGaz i f).datums = s.datums := rfl
@[simp] theorem State.modGaz_loops (s : State) (i : Fin 64) (f : Gaz → Gaz) : (s.modGaz i f).loops = s.loops := rfl
@[simp] theorem State.modGaz_slots (s : State) (i : Fin 64) (f : Gaz → Gaz) : (s.modGaz i f).slots = s.slots := rfl
@[simp] theorem State.modGaz_chans (s : State) (i : Fin 64) (f : Gaz → Gaz) : (s.modGaz i f).chans = s.chans := rfl
@[simp] theorem State.modGaz_groups (s : State) (i : Fin 64) (f : Gaz → Gaz) : (s.modGaz i f).groups = s.groups := rfl
@[simp] theorem State.modGaz_units (s : State) (i : Fin 64) (f : Gaz → Gaz) : (s.modGaz i f).units = s.units := rfl
@[simp] theorem State.modGaz_book (s : State) (i : Fin 64) (f : Gaz → Gaz) : (s.modGaz i f).book = s.book := rfl
@[simp] theorem State.modGaz_notices (s : State) (i : Fin 64) (f : Gaz → Gaz) : (s.modGaz i f).notices = s.notices := rfl
@[simp] theorem State.modGaz_syns (s : State) (i : Fin 64) (f : Gaz → Gaz) : (s.modGaz i f).syns = s.syns := rfl
@[simp] theorem State.modGaz_bankSrc (s : State) (i : Fin 64) (f : Gaz → Gaz) : (s.modGaz i f).bankSrc = s.bankSrc := rfl
@[simp] theorem State.modGaz_bankHand (s : State) (i : Fin 64) (f : Gaz → Gaz) : (s.modGaz i f).bankHand = s.bankHand := rfl
@[simp] theorem State.modGaz_bankHeld (s : State) (i : Fin 64) (f : Gaz → Gaz) : (s.modGaz i f).bankHeld = s.bankHeld := rfl
@[simp] theorem State.modGaz_outs (s : State) (i : Fin 64) (f : Gaz → Gaz) : (s.modGaz i f).outs = s.outs := rfl
@[simp] theorem State.modGaz_outFrom (s : State) (i : Fin 64) (f : Gaz → Gaz) : (s.modGaz i f).outFrom = s.outFrom := rfl
@[simp] theorem State.modGaz_lines (s : State) (i : Fin 64) (f : Gaz → Gaz) : (s.modGaz i f).lines = s.lines := rfl
@[simp] theorem State.modGaz_plan (s : State) (i : Fin 64) (f : Gaz → Gaz) : (s.modGaz i f).plan = s.plan := rfl
@[simp] theorem State.modGaz_planDue (s : State) (i : Fin 64) (f : Gaz → Gaz) : (s.modGaz i f).planDue = s.planDue := rfl
@[simp] theorem State.modGaz_ports (s : State) (i : Fin 64) (f : Gaz → Gaz) : (s.modGaz i f).ports = s.ports := rfl
@[simp] theorem State.modGaz_sessions (s : State) (i : Fin 64) (f : Gaz → Gaz) : (s.modGaz i f).sessions = s.sessions := rfl
@[simp] theorem State.modGaz_streams (s : State) (i : Fin 64) (f : Gaz → Gaz) : (s.modGaz i f).streams = s.streams := rfl
@[simp] theorem State.modGaz_insts (s : State) (i : Fin 64) (f : Gaz → Gaz) : (s.modGaz i f).insts = s.insts := rfl
@[simp] theorem State.modGaz_engines (s : State) (i : Fin 64) (f : Gaz → Gaz) : (s.modGaz i f).engines = s.engines := rfl
@[simp] theorem State.modGaz_sems (s : State) (i : Fin 64) (f : Gaz → Gaz) : (s.modGaz i f).sems = s.sems := rfl
@[simp] theorem State.modGaz_funcs (s : State) (i : Fin 64) (f : Gaz → Gaz) : (s.modGaz i f).funcs = s.funcs := rfl
@[simp] theorem State.modGaz_linkUp (s : State) (i : Fin 64) (f : Gaz → Gaz) : (s.modGaz i f).linkUp = s.linkUp := rfl
@[simp] theorem State.modGaz_linkSpeed (s : State) (i : Fin 64) (f : Gaz → Gaz) : (s.modGaz i f).linkSpeed = s.linkSpeed := rfl
@[simp] theorem State.modGaz_linkWidth (s : State) (i : Fin 64) (f : Gaz → Gaz) : (s.modGaz i f).linkWidth = s.linkWidth := rfl
@[simp] theorem State.modGaz_mboxes (s : State) (i : Fin 64) (f : Gaz → Gaz) : (s.modGaz i f).mboxes = s.mboxes := rfl
@[simp] theorem State.modGaz_dbIn (s : State) (i : Fin 64) (f : Gaz → Gaz) : (s.modGaz i f).dbIn = s.dbIn := rfl
@[simp] theorem State.modGaz_dbOut (s : State) (i : Fin 64) (f : Gaz → Gaz) : (s.modGaz i f).dbOut = s.dbOut := rfl
@[simp] theorem State.modGaz_sideband (s : State) (i : Fin 64) (f : Gaz → Gaz) : (s.modGaz i f).sideband = s.sideband := rfl
@[simp] theorem State.modGaz_mbs (s : State) (i : Fin 64) (f : Gaz → Gaz) : (s.modGaz i f).mbs = s.mbs := rfl
@[simp] theorem State.modGaz_gaz (s : State) (i : Fin 64) (f : Gaz → Gaz) : (s.modGaz i f).gaz = s.gaz.set i (f s.gaz[i]) := rfl
@[simp] theorem State.modGaz_xfer (s : State) (i : Fin 64) (f : Gaz → Gaz) : (s.modGaz i f).xfer = s.xfer := rfl
@[simp] theorem State.modGaz_mem (s : State) (i : Fin 64) (f : Gaz → Gaz) : (s.modGaz i f).mem = s.mem := rfl
@[simp] theorem State.modGaz_arch (s : State) (i : Fin 64) (f : Gaz → Gaz) : (s.modGaz i f).arch = s.arch := rfl
@[simp] theorem State.modGaz_fm (s : State) (i : Fin 64) (f : Gaz → Gaz) : (s.modGaz i f).fm = s.fm := rfl
@[simp] theorem State.modGaz_benchMatch (s : State) (i : Fin 64) (f : Gaz → Gaz) : (s.modGaz i f).benchMatch = s.benchMatch := rfl
@[simp] theorem State.modGaz_stewLoad (s : State) (i : Fin 64) (f : Gaz → Gaz) : (s.modGaz i f).stewLoad = s.stewLoad := rfl
@[simp] theorem State.modGaz_shedLevel (s : State) (i : Fin 64) (f : Gaz → Gaz) : (s.modGaz i f).shedLevel = s.shedLevel := rfl
@[simp] theorem State.modGaz_shedHot (s : State) (i : Fin 64) (f : Gaz → Gaz) : (s.modGaz i f).shedHot = s.shedHot := rfl
@[simp] theorem State.modGaz_shedRun (s : State) (i : Fin 64) (f : Gaz → Gaz) : (s.modGaz i f).shedRun = s.shedRun := rfl
@[simp] theorem State.modGaz_oven (s : State) (i : Fin 64) (f : Gaz → Gaz) : (s.modGaz i f).oven = s.oven := rfl
@[simp] theorem State.modGaz_boot (s : State) (i : Fin 64) (f : Gaz → Gaz) : (s.modGaz i f).boot = s.boot := rfl
@[simp] theorem State.modGaz_domOn (s : State) (i : Fin 64) (f : Gaz → Gaz) : (s.modGaz i f).domOn = s.domOn := rfl
@[simp] theorem State.modGaz_domRising (s : State) (i : Fin 64) (f : Gaz → Gaz) : (s.modGaz i f).domRising = s.domRising := rfl
@[simp] theorem State.modGaz_cartOk (s : State) (i : Fin 64) (f : Gaz → Gaz) : (s.modGaz i f).cartOk = s.cartOk := rfl
@[simp] theorem State.modGaz_emitted (s : State) (i : Fin 64) (f : Gaz → Gaz) : (s.modGaz i f).emitted = s.emitted := rfl
@[simp] theorem State.modGaz_freeCtr (s : State) (i : Fin 64) (f : Gaz → Gaz) : (s.modGaz i f).freeCtr = s.freeCtr := rfl

@[simp] theorem State.modBlk_pending (s : State) (i : Fin 128) (f : Blk → Blk) : (s.modBlk i f).pending = s.pending := rfl
@[simp] theorem State.modBlk_coreUp (s : State) (i : Fin 128) (f : Blk → Blk) : (s.modBlk i f).coreUp = s.coreUp := rfl
@[simp] theorem State.modBlk_ticking (s : State) (i : Fin 128) (f : Blk → Blk) : (s.modBlk i f).ticking = s.ticking := rfl
@[simp] theorem State.modBlk_tick (s : State) (i : Fin 128) (f : Blk → Blk) : (s.modBlk i f).tick = s.tick := rfl
@[simp] theorem State.modBlk_islandTick (s : State) (i : Fin 128) (f : Blk → Blk) : (s.modBlk i f).islandTick = s.islandTick := rfl
@[simp] theorem State.modBlk_regs (s : State) (i : Fin 128) (f : Blk → Blk) : (s.modBlk i f).regs = s.regs := rfl
@[simp] theorem State.modBlk_rc (s : State) (i : Fin 128) (f : Blk → Blk) : (s.modBlk i f).rc = s.rc := rfl
@[simp] theorem State.modBlk_shadow (s : State) (i : Fin 128) (f : Blk → Blk) : (s.modBlk i f).shadow = s.shadow := rfl
@[simp] theorem State.modBlk_paths (s : State) (i : Fin 128) (f : Blk → Blk) : (s.modBlk i f).paths = s.paths := rfl
@[simp] theorem State.modBlk_snap (s : State) (i : Fin 128) (f : Blk → Blk) : (s.modBlk i f).snap = s.snap := rfl
@[simp] theorem State.modBlk_xwords (s : State) (i : Fin 128) (f : Blk → Blk) : (s.modBlk i f).xwords = s.xwords := rfl
@[simp] theorem State.modBlk_datums (s : State) (i : Fin 128) (f : Blk → Blk) : (s.modBlk i f).datums = s.datums := rfl
@[simp] theorem State.modBlk_loops (s : State) (i : Fin 128) (f : Blk → Blk) : (s.modBlk i f).loops = s.loops := rfl
@[simp] theorem State.modBlk_slots (s : State) (i : Fin 128) (f : Blk → Blk) : (s.modBlk i f).slots = s.slots := rfl
@[simp] theorem State.modBlk_chans (s : State) (i : Fin 128) (f : Blk → Blk) : (s.modBlk i f).chans = s.chans := rfl
@[simp] theorem State.modBlk_groups (s : State) (i : Fin 128) (f : Blk → Blk) : (s.modBlk i f).groups = s.groups := rfl
@[simp] theorem State.modBlk_units (s : State) (i : Fin 128) (f : Blk → Blk) : (s.modBlk i f).units = s.units := rfl
@[simp] theorem State.modBlk_book (s : State) (i : Fin 128) (f : Blk → Blk) : (s.modBlk i f).book = s.book := rfl
@[simp] theorem State.modBlk_notices (s : State) (i : Fin 128) (f : Blk → Blk) : (s.modBlk i f).notices = s.notices := rfl
@[simp] theorem State.modBlk_syns (s : State) (i : Fin 128) (f : Blk → Blk) : (s.modBlk i f).syns = s.syns := rfl
@[simp] theorem State.modBlk_bankSrc (s : State) (i : Fin 128) (f : Blk → Blk) : (s.modBlk i f).bankSrc = s.bankSrc := rfl
@[simp] theorem State.modBlk_bankHand (s : State) (i : Fin 128) (f : Blk → Blk) : (s.modBlk i f).bankHand = s.bankHand := rfl
@[simp] theorem State.modBlk_bankHeld (s : State) (i : Fin 128) (f : Blk → Blk) : (s.modBlk i f).bankHeld = s.bankHeld := rfl
@[simp] theorem State.modBlk_outs (s : State) (i : Fin 128) (f : Blk → Blk) : (s.modBlk i f).outs = s.outs := rfl
@[simp] theorem State.modBlk_outFrom (s : State) (i : Fin 128) (f : Blk → Blk) : (s.modBlk i f).outFrom = s.outFrom := rfl
@[simp] theorem State.modBlk_lines (s : State) (i : Fin 128) (f : Blk → Blk) : (s.modBlk i f).lines = s.lines := rfl
@[simp] theorem State.modBlk_plan (s : State) (i : Fin 128) (f : Blk → Blk) : (s.modBlk i f).plan = s.plan := rfl
@[simp] theorem State.modBlk_planDue (s : State) (i : Fin 128) (f : Blk → Blk) : (s.modBlk i f).planDue = s.planDue := rfl
@[simp] theorem State.modBlk_ports (s : State) (i : Fin 128) (f : Blk → Blk) : (s.modBlk i f).ports = s.ports := rfl
@[simp] theorem State.modBlk_sessions (s : State) (i : Fin 128) (f : Blk → Blk) : (s.modBlk i f).sessions = s.sessions := rfl
@[simp] theorem State.modBlk_streams (s : State) (i : Fin 128) (f : Blk → Blk) : (s.modBlk i f).streams = s.streams := rfl
@[simp] theorem State.modBlk_insts (s : State) (i : Fin 128) (f : Blk → Blk) : (s.modBlk i f).insts = s.insts := rfl
@[simp] theorem State.modBlk_engines (s : State) (i : Fin 128) (f : Blk → Blk) : (s.modBlk i f).engines = s.engines := rfl
@[simp] theorem State.modBlk_sems (s : State) (i : Fin 128) (f : Blk → Blk) : (s.modBlk i f).sems = s.sems := rfl
@[simp] theorem State.modBlk_funcs (s : State) (i : Fin 128) (f : Blk → Blk) : (s.modBlk i f).funcs = s.funcs := rfl
@[simp] theorem State.modBlk_linkUp (s : State) (i : Fin 128) (f : Blk → Blk) : (s.modBlk i f).linkUp = s.linkUp := rfl
@[simp] theorem State.modBlk_linkSpeed (s : State) (i : Fin 128) (f : Blk → Blk) : (s.modBlk i f).linkSpeed = s.linkSpeed := rfl
@[simp] theorem State.modBlk_linkWidth (s : State) (i : Fin 128) (f : Blk → Blk) : (s.modBlk i f).linkWidth = s.linkWidth := rfl
@[simp] theorem State.modBlk_mboxes (s : State) (i : Fin 128) (f : Blk → Blk) : (s.modBlk i f).mboxes = s.mboxes := rfl
@[simp] theorem State.modBlk_dbIn (s : State) (i : Fin 128) (f : Blk → Blk) : (s.modBlk i f).dbIn = s.dbIn := rfl
@[simp] theorem State.modBlk_dbOut (s : State) (i : Fin 128) (f : Blk → Blk) : (s.modBlk i f).dbOut = s.dbOut := rfl
@[simp] theorem State.modBlk_sideband (s : State) (i : Fin 128) (f : Blk → Blk) : (s.modBlk i f).sideband = s.sideband := rfl
@[simp] theorem State.modBlk_mbs (s : State) (i : Fin 128) (f : Blk → Blk) : (s.modBlk i f).mbs = s.mbs := rfl
@[simp] theorem State.modBlk_gaz (s : State) (i : Fin 128) (f : Blk → Blk) : (s.modBlk i f).gaz = s.gaz := rfl
@[simp] theorem State.modBlk_peerMir (s : State) (i : Fin 128) (f : Blk → Blk) : (s.modBlk i f).peerMir = s.peerMir := rfl
@[simp] theorem State.modBlk_scanning (s : State) (i : Fin 128) (f : Blk → Blk) : (s.modBlk i f).scanning = s.scanning := rfl
@[simp] theorem State.modBlk_reloadDue (s : State) (i : Fin 128) (f : Blk → Blk) : (s.modBlk i f).reloadDue = s.reloadDue := rfl
@[simp] theorem State.modBlk_xfer (s : State) (i : Fin 128) (f : Blk → Blk) : (s.modBlk i f).xfer = s.xfer := rfl
@[simp] theorem State.modBlk_mem (s : State) (i : Fin 128) (f : Blk → Blk) : (s.modBlk i f).mem = s.mem := rfl
@[simp] theorem State.modBlk_arch (s : State) (i : Fin 128) (f : Blk → Blk) : (s.modBlk i f).arch = s.arch := rfl
@[simp] theorem State.modBlk_fm (s : State) (i : Fin 128) (f : Blk → Blk) : (s.modBlk i f).fm = { s.fm with blks := s.fm.blks.set i (f s.fm.blks[i]) } := rfl
@[simp] theorem State.modBlk_benchMatch (s : State) (i : Fin 128) (f : Blk → Blk) : (s.modBlk i f).benchMatch = s.benchMatch := rfl
@[simp] theorem State.modBlk_stewLoad (s : State) (i : Fin 128) (f : Blk → Blk) : (s.modBlk i f).stewLoad = s.stewLoad := rfl
@[simp] theorem State.modBlk_shedLevel (s : State) (i : Fin 128) (f : Blk → Blk) : (s.modBlk i f).shedLevel = s.shedLevel := rfl
@[simp] theorem State.modBlk_shedHot (s : State) (i : Fin 128) (f : Blk → Blk) : (s.modBlk i f).shedHot = s.shedHot := rfl
@[simp] theorem State.modBlk_shedRun (s : State) (i : Fin 128) (f : Blk → Blk) : (s.modBlk i f).shedRun = s.shedRun := rfl
@[simp] theorem State.modBlk_oven (s : State) (i : Fin 128) (f : Blk → Blk) : (s.modBlk i f).oven = s.oven := rfl
@[simp] theorem State.modBlk_boot (s : State) (i : Fin 128) (f : Blk → Blk) : (s.modBlk i f).boot = s.boot := rfl
@[simp] theorem State.modBlk_domOn (s : State) (i : Fin 128) (f : Blk → Blk) : (s.modBlk i f).domOn = s.domOn := rfl
@[simp] theorem State.modBlk_domRising (s : State) (i : Fin 128) (f : Blk → Blk) : (s.modBlk i f).domRising = s.domRising := rfl
@[simp] theorem State.modBlk_cartOk (s : State) (i : Fin 128) (f : Blk → Blk) : (s.modBlk i f).cartOk = s.cartOk := rfl
@[simp] theorem State.modBlk_emitted (s : State) (i : Fin 128) (f : Blk → Blk) : (s.modBlk i f).emitted = s.emitted := rfl
@[simp] theorem State.modBlk_freeCtr (s : State) (i : Fin 128) (f : Blk → Blk) : (s.modBlk i f).freeCtr = s.freeCtr := rfl

@[simp] theorem State.modOven_pending (s : State) (f : Oven → Oven) : (s.modOven f).pending = s.pending := rfl
@[simp] theorem State.modOven_coreUp (s : State) (f : Oven → Oven) : (s.modOven f).coreUp = s.coreUp := rfl
@[simp] theorem State.modOven_ticking (s : State) (f : Oven → Oven) : (s.modOven f).ticking = s.ticking := rfl
@[simp] theorem State.modOven_tick (s : State) (f : Oven → Oven) : (s.modOven f).tick = s.tick := rfl
@[simp] theorem State.modOven_islandTick (s : State) (f : Oven → Oven) : (s.modOven f).islandTick = s.islandTick := rfl
@[simp] theorem State.modOven_regs (s : State) (f : Oven → Oven) : (s.modOven f).regs = s.regs := rfl
@[simp] theorem State.modOven_rc (s : State) (f : Oven → Oven) : (s.modOven f).rc = s.rc := rfl
@[simp] theorem State.modOven_shadow (s : State) (f : Oven → Oven) : (s.modOven f).shadow = s.shadow := rfl
@[simp] theorem State.modOven_paths (s : State) (f : Oven → Oven) : (s.modOven f).paths = s.paths := rfl
@[simp] theorem State.modOven_snap (s : State) (f : Oven → Oven) : (s.modOven f).snap = s.snap := rfl
@[simp] theorem State.modOven_xwords (s : State) (f : Oven → Oven) : (s.modOven f).xwords = s.xwords := rfl
@[simp] theorem State.modOven_datums (s : State) (f : Oven → Oven) : (s.modOven f).datums = s.datums := rfl
@[simp] theorem State.modOven_loops (s : State) (f : Oven → Oven) : (s.modOven f).loops = s.loops := rfl
@[simp] theorem State.modOven_slots (s : State) (f : Oven → Oven) : (s.modOven f).slots = s.slots := rfl
@[simp] theorem State.modOven_chans (s : State) (f : Oven → Oven) : (s.modOven f).chans = s.chans := rfl
@[simp] theorem State.modOven_groups (s : State) (f : Oven → Oven) : (s.modOven f).groups = s.groups := rfl
@[simp] theorem State.modOven_units (s : State) (f : Oven → Oven) : (s.modOven f).units = s.units := rfl
@[simp] theorem State.modOven_book (s : State) (f : Oven → Oven) : (s.modOven f).book = s.book := rfl
@[simp] theorem State.modOven_notices (s : State) (f : Oven → Oven) : (s.modOven f).notices = s.notices := rfl
@[simp] theorem State.modOven_syns (s : State) (f : Oven → Oven) : (s.modOven f).syns = s.syns := rfl
@[simp] theorem State.modOven_bankSrc (s : State) (f : Oven → Oven) : (s.modOven f).bankSrc = s.bankSrc := rfl
@[simp] theorem State.modOven_bankHand (s : State) (f : Oven → Oven) : (s.modOven f).bankHand = s.bankHand := rfl
@[simp] theorem State.modOven_bankHeld (s : State) (f : Oven → Oven) : (s.modOven f).bankHeld = s.bankHeld := rfl
@[simp] theorem State.modOven_outs (s : State) (f : Oven → Oven) : (s.modOven f).outs = s.outs := rfl
@[simp] theorem State.modOven_outFrom (s : State) (f : Oven → Oven) : (s.modOven f).outFrom = s.outFrom := rfl
@[simp] theorem State.modOven_lines (s : State) (f : Oven → Oven) : (s.modOven f).lines = s.lines := rfl
@[simp] theorem State.modOven_plan (s : State) (f : Oven → Oven) : (s.modOven f).plan = s.plan := rfl
@[simp] theorem State.modOven_planDue (s : State) (f : Oven → Oven) : (s.modOven f).planDue = s.planDue := rfl
@[simp] theorem State.modOven_ports (s : State) (f : Oven → Oven) : (s.modOven f).ports = s.ports := rfl
@[simp] theorem State.modOven_sessions (s : State) (f : Oven → Oven) : (s.modOven f).sessions = s.sessions := rfl
@[simp] theorem State.modOven_streams (s : State) (f : Oven → Oven) : (s.modOven f).streams = s.streams := rfl
@[simp] theorem State.modOven_insts (s : State) (f : Oven → Oven) : (s.modOven f).insts = s.insts := rfl
@[simp] theorem State.modOven_engines (s : State) (f : Oven → Oven) : (s.modOven f).engines = s.engines := rfl
@[simp] theorem State.modOven_sems (s : State) (f : Oven → Oven) : (s.modOven f).sems = s.sems := rfl
@[simp] theorem State.modOven_funcs (s : State) (f : Oven → Oven) : (s.modOven f).funcs = s.funcs := rfl
@[simp] theorem State.modOven_linkUp (s : State) (f : Oven → Oven) : (s.modOven f).linkUp = s.linkUp := rfl
@[simp] theorem State.modOven_linkSpeed (s : State) (f : Oven → Oven) : (s.modOven f).linkSpeed = s.linkSpeed := rfl
@[simp] theorem State.modOven_linkWidth (s : State) (f : Oven → Oven) : (s.modOven f).linkWidth = s.linkWidth := rfl
@[simp] theorem State.modOven_mboxes (s : State) (f : Oven → Oven) : (s.modOven f).mboxes = s.mboxes := rfl
@[simp] theorem State.modOven_dbIn (s : State) (f : Oven → Oven) : (s.modOven f).dbIn = s.dbIn := rfl
@[simp] theorem State.modOven_dbOut (s : State) (f : Oven → Oven) : (s.modOven f).dbOut = s.dbOut := rfl
@[simp] theorem State.modOven_sideband (s : State) (f : Oven → Oven) : (s.modOven f).sideband = s.sideband := rfl
@[simp] theorem State.modOven_mbs (s : State) (f : Oven → Oven) : (s.modOven f).mbs = s.mbs := rfl
@[simp] theorem State.modOven_gaz (s : State) (f : Oven → Oven) : (s.modOven f).gaz = s.gaz := rfl
@[simp] theorem State.modOven_peerMir (s : State) (f : Oven → Oven) : (s.modOven f).peerMir = s.peerMir := rfl
@[simp] theorem State.modOven_scanning (s : State) (f : Oven → Oven) : (s.modOven f).scanning = s.scanning := rfl
@[simp] theorem State.modOven_reloadDue (s : State) (f : Oven → Oven) : (s.modOven f).reloadDue = s.reloadDue := rfl
@[simp] theorem State.modOven_xfer (s : State) (f : Oven → Oven) : (s.modOven f).xfer = s.xfer := rfl
@[simp] theorem State.modOven_mem (s : State) (f : Oven → Oven) : (s.modOven f).mem = s.mem := rfl
@[simp] theorem State.modOven_arch (s : State) (f : Oven → Oven) : (s.modOven f).arch = s.arch := rfl
@[simp] theorem State.modOven_fm (s : State) (f : Oven → Oven) : (s.modOven f).fm = s.fm := rfl
@[simp] theorem State.modOven_benchMatch (s : State) (f : Oven → Oven) : (s.modOven f).benchMatch = s.benchMatch := rfl
@[simp] theorem State.modOven_stewLoad (s : State) (f : Oven → Oven) : (s.modOven f).stewLoad = s.stewLoad := rfl
@[simp] theorem State.modOven_shedLevel (s : State) (f : Oven → Oven) : (s.modOven f).shedLevel = s.shedLevel := rfl
@[simp] theorem State.modOven_shedHot (s : State) (f : Oven → Oven) : (s.modOven f).shedHot = s.shedHot := rfl
@[simp] theorem State.modOven_shedRun (s : State) (f : Oven → Oven) : (s.modOven f).shedRun = s.shedRun := rfl
@[simp] theorem State.modOven_oven (s : State) (f : Oven → Oven) : (s.modOven f).oven = f s.oven := rfl
@[simp] theorem State.modOven_boot (s : State) (f : Oven → Oven) : (s.modOven f).boot = s.boot := rfl
@[simp] theorem State.modOven_domOn (s : State) (f : Oven → Oven) : (s.modOven f).domOn = s.domOn := rfl
@[simp] theorem State.modOven_domRising (s : State) (f : Oven → Oven) : (s.modOven f).domRising = s.domRising := rfl
@[simp] theorem State.modOven_cartOk (s : State) (f : Oven → Oven) : (s.modOven f).cartOk = s.cartOk := rfl
@[simp] theorem State.modOven_emitted (s : State) (f : Oven → Oven) : (s.modOven f).emitted = s.emitted := rfl
@[simp] theorem State.modOven_freeCtr (s : State) (f : Oven → Oven) : (s.modOven f).freeCtr = s.freeCtr := rfl

@[simp] theorem State.modBoot_pending (s : State) (f : Boot → Boot) : (s.modBoot f).pending = s.pending := rfl
@[simp] theorem State.modBoot_coreUp (s : State) (f : Boot → Boot) : (s.modBoot f).coreUp = s.coreUp := rfl
@[simp] theorem State.modBoot_ticking (s : State) (f : Boot → Boot) : (s.modBoot f).ticking = s.ticking := rfl
@[simp] theorem State.modBoot_tick (s : State) (f : Boot → Boot) : (s.modBoot f).tick = s.tick := rfl
@[simp] theorem State.modBoot_islandTick (s : State) (f : Boot → Boot) : (s.modBoot f).islandTick = s.islandTick := rfl
@[simp] theorem State.modBoot_regs (s : State) (f : Boot → Boot) : (s.modBoot f).regs = s.regs := rfl
@[simp] theorem State.modBoot_rc (s : State) (f : Boot → Boot) : (s.modBoot f).rc = s.rc := rfl
@[simp] theorem State.modBoot_shadow (s : State) (f : Boot → Boot) : (s.modBoot f).shadow = s.shadow := rfl
@[simp] theorem State.modBoot_paths (s : State) (f : Boot → Boot) : (s.modBoot f).paths = s.paths := rfl
@[simp] theorem State.modBoot_snap (s : State) (f : Boot → Boot) : (s.modBoot f).snap = s.snap := rfl
@[simp] theorem State.modBoot_xwords (s : State) (f : Boot → Boot) : (s.modBoot f).xwords = s.xwords := rfl
@[simp] theorem State.modBoot_datums (s : State) (f : Boot → Boot) : (s.modBoot f).datums = s.datums := rfl
@[simp] theorem State.modBoot_loops (s : State) (f : Boot → Boot) : (s.modBoot f).loops = s.loops := rfl
@[simp] theorem State.modBoot_slots (s : State) (f : Boot → Boot) : (s.modBoot f).slots = s.slots := rfl
@[simp] theorem State.modBoot_chans (s : State) (f : Boot → Boot) : (s.modBoot f).chans = s.chans := rfl
@[simp] theorem State.modBoot_groups (s : State) (f : Boot → Boot) : (s.modBoot f).groups = s.groups := rfl
@[simp] theorem State.modBoot_units (s : State) (f : Boot → Boot) : (s.modBoot f).units = s.units := rfl
@[simp] theorem State.modBoot_book (s : State) (f : Boot → Boot) : (s.modBoot f).book = s.book := rfl
@[simp] theorem State.modBoot_notices (s : State) (f : Boot → Boot) : (s.modBoot f).notices = s.notices := rfl
@[simp] theorem State.modBoot_syns (s : State) (f : Boot → Boot) : (s.modBoot f).syns = s.syns := rfl
@[simp] theorem State.modBoot_bankSrc (s : State) (f : Boot → Boot) : (s.modBoot f).bankSrc = s.bankSrc := rfl
@[simp] theorem State.modBoot_bankHand (s : State) (f : Boot → Boot) : (s.modBoot f).bankHand = s.bankHand := rfl
@[simp] theorem State.modBoot_bankHeld (s : State) (f : Boot → Boot) : (s.modBoot f).bankHeld = s.bankHeld := rfl
@[simp] theorem State.modBoot_outs (s : State) (f : Boot → Boot) : (s.modBoot f).outs = s.outs := rfl
@[simp] theorem State.modBoot_outFrom (s : State) (f : Boot → Boot) : (s.modBoot f).outFrom = s.outFrom := rfl
@[simp] theorem State.modBoot_lines (s : State) (f : Boot → Boot) : (s.modBoot f).lines = s.lines := rfl
@[simp] theorem State.modBoot_plan (s : State) (f : Boot → Boot) : (s.modBoot f).plan = s.plan := rfl
@[simp] theorem State.modBoot_planDue (s : State) (f : Boot → Boot) : (s.modBoot f).planDue = s.planDue := rfl
@[simp] theorem State.modBoot_ports (s : State) (f : Boot → Boot) : (s.modBoot f).ports = s.ports := rfl
@[simp] theorem State.modBoot_sessions (s : State) (f : Boot → Boot) : (s.modBoot f).sessions = s.sessions := rfl
@[simp] theorem State.modBoot_streams (s : State) (f : Boot → Boot) : (s.modBoot f).streams = s.streams := rfl
@[simp] theorem State.modBoot_insts (s : State) (f : Boot → Boot) : (s.modBoot f).insts = s.insts := rfl
@[simp] theorem State.modBoot_engines (s : State) (f : Boot → Boot) : (s.modBoot f).engines = s.engines := rfl
@[simp] theorem State.modBoot_sems (s : State) (f : Boot → Boot) : (s.modBoot f).sems = s.sems := rfl
@[simp] theorem State.modBoot_funcs (s : State) (f : Boot → Boot) : (s.modBoot f).funcs = s.funcs := rfl
@[simp] theorem State.modBoot_linkUp (s : State) (f : Boot → Boot) : (s.modBoot f).linkUp = s.linkUp := rfl
@[simp] theorem State.modBoot_linkSpeed (s : State) (f : Boot → Boot) : (s.modBoot f).linkSpeed = s.linkSpeed := rfl
@[simp] theorem State.modBoot_linkWidth (s : State) (f : Boot → Boot) : (s.modBoot f).linkWidth = s.linkWidth := rfl
@[simp] theorem State.modBoot_mboxes (s : State) (f : Boot → Boot) : (s.modBoot f).mboxes = s.mboxes := rfl
@[simp] theorem State.modBoot_dbIn (s : State) (f : Boot → Boot) : (s.modBoot f).dbIn = s.dbIn := rfl
@[simp] theorem State.modBoot_dbOut (s : State) (f : Boot → Boot) : (s.modBoot f).dbOut = s.dbOut := rfl
@[simp] theorem State.modBoot_sideband (s : State) (f : Boot → Boot) : (s.modBoot f).sideband = s.sideband := rfl
@[simp] theorem State.modBoot_mbs (s : State) (f : Boot → Boot) : (s.modBoot f).mbs = s.mbs := rfl
@[simp] theorem State.modBoot_gaz (s : State) (f : Boot → Boot) : (s.modBoot f).gaz = s.gaz := rfl
@[simp] theorem State.modBoot_peerMir (s : State) (f : Boot → Boot) : (s.modBoot f).peerMir = s.peerMir := rfl
@[simp] theorem State.modBoot_scanning (s : State) (f : Boot → Boot) : (s.modBoot f).scanning = s.scanning := rfl
@[simp] theorem State.modBoot_reloadDue (s : State) (f : Boot → Boot) : (s.modBoot f).reloadDue = s.reloadDue := rfl
@[simp] theorem State.modBoot_xfer (s : State) (f : Boot → Boot) : (s.modBoot f).xfer = s.xfer := rfl
@[simp] theorem State.modBoot_mem (s : State) (f : Boot → Boot) : (s.modBoot f).mem = s.mem := rfl
@[simp] theorem State.modBoot_arch (s : State) (f : Boot → Boot) : (s.modBoot f).arch = s.arch := rfl
@[simp] theorem State.modBoot_fm (s : State) (f : Boot → Boot) : (s.modBoot f).fm = s.fm := rfl
@[simp] theorem State.modBoot_benchMatch (s : State) (f : Boot → Boot) : (s.modBoot f).benchMatch = s.benchMatch := rfl
@[simp] theorem State.modBoot_stewLoad (s : State) (f : Boot → Boot) : (s.modBoot f).stewLoad = s.stewLoad := rfl
@[simp] theorem State.modBoot_shedLevel (s : State) (f : Boot → Boot) : (s.modBoot f).shedLevel = s.shedLevel := rfl
@[simp] theorem State.modBoot_shedHot (s : State) (f : Boot → Boot) : (s.modBoot f).shedHot = s.shedHot := rfl
@[simp] theorem State.modBoot_shedRun (s : State) (f : Boot → Boot) : (s.modBoot f).shedRun = s.shedRun := rfl
@[simp] theorem State.modBoot_oven (s : State) (f : Boot → Boot) : (s.modBoot f).oven = s.oven := rfl
@[simp] theorem State.modBoot_boot (s : State) (f : Boot → Boot) : (s.modBoot f).boot = f s.boot := rfl
@[simp] theorem State.modBoot_domOn (s : State) (f : Boot → Boot) : (s.modBoot f).domOn = s.domOn := rfl
@[simp] theorem State.modBoot_domRising (s : State) (f : Boot → Boot) : (s.modBoot f).domRising = s.domRising := rfl
@[simp] theorem State.modBoot_cartOk (s : State) (f : Boot → Boot) : (s.modBoot f).cartOk = s.cartOk := rfl
@[simp] theorem State.modBoot_emitted (s : State) (f : Boot → Boot) : (s.modBoot f).emitted = s.emitted := rfl
@[simp] theorem State.modBoot_freeCtr (s : State) (f : Boot → Boot) : (s.modBoot f).freeCtr = s.freeCtr := rfl

@[simp] theorem State.modBook_pending (s : State) (f : Book → Book) : (s.modBook f).pending = s.pending := rfl
@[simp] theorem State.modBook_coreUp (s : State) (f : Book → Book) : (s.modBook f).coreUp = s.coreUp := rfl
@[simp] theorem State.modBook_ticking (s : State) (f : Book → Book) : (s.modBook f).ticking = s.ticking := rfl
@[simp] theorem State.modBook_tick (s : State) (f : Book → Book) : (s.modBook f).tick = s.tick := rfl
@[simp] theorem State.modBook_islandTick (s : State) (f : Book → Book) : (s.modBook f).islandTick = s.islandTick := rfl
@[simp] theorem State.modBook_regs (s : State) (f : Book → Book) : (s.modBook f).regs = s.regs := rfl
@[simp] theorem State.modBook_rc (s : State) (f : Book → Book) : (s.modBook f).rc = s.rc := rfl
@[simp] theorem State.modBook_shadow (s : State) (f : Book → Book) : (s.modBook f).shadow = s.shadow := rfl
@[simp] theorem State.modBook_paths (s : State) (f : Book → Book) : (s.modBook f).paths = s.paths := rfl
@[simp] theorem State.modBook_snap (s : State) (f : Book → Book) : (s.modBook f).snap = s.snap := rfl
@[simp] theorem State.modBook_xwords (s : State) (f : Book → Book) : (s.modBook f).xwords = s.xwords := rfl
@[simp] theorem State.modBook_datums (s : State) (f : Book → Book) : (s.modBook f).datums = s.datums := rfl
@[simp] theorem State.modBook_loops (s : State) (f : Book → Book) : (s.modBook f).loops = s.loops := rfl
@[simp] theorem State.modBook_slots (s : State) (f : Book → Book) : (s.modBook f).slots = s.slots := rfl
@[simp] theorem State.modBook_chans (s : State) (f : Book → Book) : (s.modBook f).chans = s.chans := rfl
@[simp] theorem State.modBook_groups (s : State) (f : Book → Book) : (s.modBook f).groups = s.groups := rfl
@[simp] theorem State.modBook_units (s : State) (f : Book → Book) : (s.modBook f).units = s.units := rfl
@[simp] theorem State.modBook_book (s : State) (f : Book → Book) : (s.modBook f).book = f s.book := rfl
@[simp] theorem State.modBook_notices (s : State) (f : Book → Book) : (s.modBook f).notices = s.notices := rfl
@[simp] theorem State.modBook_syns (s : State) (f : Book → Book) : (s.modBook f).syns = s.syns := rfl
@[simp] theorem State.modBook_bankSrc (s : State) (f : Book → Book) : (s.modBook f).bankSrc = s.bankSrc := rfl
@[simp] theorem State.modBook_bankHand (s : State) (f : Book → Book) : (s.modBook f).bankHand = s.bankHand := rfl
@[simp] theorem State.modBook_bankHeld (s : State) (f : Book → Book) : (s.modBook f).bankHeld = s.bankHeld := rfl
@[simp] theorem State.modBook_outs (s : State) (f : Book → Book) : (s.modBook f).outs = s.outs := rfl
@[simp] theorem State.modBook_outFrom (s : State) (f : Book → Book) : (s.modBook f).outFrom = s.outFrom := rfl
@[simp] theorem State.modBook_lines (s : State) (f : Book → Book) : (s.modBook f).lines = s.lines := rfl
@[simp] theorem State.modBook_plan (s : State) (f : Book → Book) : (s.modBook f).plan = s.plan := rfl
@[simp] theorem State.modBook_planDue (s : State) (f : Book → Book) : (s.modBook f).planDue = s.planDue := rfl
@[simp] theorem State.modBook_ports (s : State) (f : Book → Book) : (s.modBook f).ports = s.ports := rfl
@[simp] theorem State.modBook_sessions (s : State) (f : Book → Book) : (s.modBook f).sessions = s.sessions := rfl
@[simp] theorem State.modBook_streams (s : State) (f : Book → Book) : (s.modBook f).streams = s.streams := rfl
@[simp] theorem State.modBook_insts (s : State) (f : Book → Book) : (s.modBook f).insts = s.insts := rfl
@[simp] theorem State.modBook_engines (s : State) (f : Book → Book) : (s.modBook f).engines = s.engines := rfl
@[simp] theorem State.modBook_sems (s : State) (f : Book → Book) : (s.modBook f).sems = s.sems := rfl
@[simp] theorem State.modBook_funcs (s : State) (f : Book → Book) : (s.modBook f).funcs = s.funcs := rfl
@[simp] theorem State.modBook_linkUp (s : State) (f : Book → Book) : (s.modBook f).linkUp = s.linkUp := rfl
@[simp] theorem State.modBook_linkSpeed (s : State) (f : Book → Book) : (s.modBook f).linkSpeed = s.linkSpeed := rfl
@[simp] theorem State.modBook_linkWidth (s : State) (f : Book → Book) : (s.modBook f).linkWidth = s.linkWidth := rfl
@[simp] theorem State.modBook_mboxes (s : State) (f : Book → Book) : (s.modBook f).mboxes = s.mboxes := rfl
@[simp] theorem State.modBook_dbIn (s : State) (f : Book → Book) : (s.modBook f).dbIn = s.dbIn := rfl
@[simp] theorem State.modBook_dbOut (s : State) (f : Book → Book) : (s.modBook f).dbOut = s.dbOut := rfl
@[simp] theorem State.modBook_sideband (s : State) (f : Book → Book) : (s.modBook f).sideband = s.sideband := rfl
@[simp] theorem State.modBook_mbs (s : State) (f : Book → Book) : (s.modBook f).mbs = s.mbs := rfl
@[simp] theorem State.modBook_gaz (s : State) (f : Book → Book) : (s.modBook f).gaz = s.gaz := rfl
@[simp] theorem State.modBook_peerMir (s : State) (f : Book → Book) : (s.modBook f).peerMir = s.peerMir := rfl
@[simp] theorem State.modBook_scanning (s : State) (f : Book → Book) : (s.modBook f).scanning = s.scanning := rfl
@[simp] theorem State.modBook_reloadDue (s : State) (f : Book → Book) : (s.modBook f).reloadDue = s.reloadDue := rfl
@[simp] theorem State.modBook_xfer (s : State) (f : Book → Book) : (s.modBook f).xfer = s.xfer := rfl
@[simp] theorem State.modBook_mem (s : State) (f : Book → Book) : (s.modBook f).mem = s.mem := rfl
@[simp] theorem State.modBook_arch (s : State) (f : Book → Book) : (s.modBook f).arch = s.arch := rfl
@[simp] theorem State.modBook_fm (s : State) (f : Book → Book) : (s.modBook f).fm = s.fm := rfl
@[simp] theorem State.modBook_benchMatch (s : State) (f : Book → Book) : (s.modBook f).benchMatch = s.benchMatch := rfl
@[simp] theorem State.modBook_stewLoad (s : State) (f : Book → Book) : (s.modBook f).stewLoad = s.stewLoad := rfl
@[simp] theorem State.modBook_shedLevel (s : State) (f : Book → Book) : (s.modBook f).shedLevel = s.shedLevel := rfl
@[simp] theorem State.modBook_shedHot (s : State) (f : Book → Book) : (s.modBook f).shedHot = s.shedHot := rfl
@[simp] theorem State.modBook_shedRun (s : State) (f : Book → Book) : (s.modBook f).shedRun = s.shedRun := rfl
@[simp] theorem State.modBook_oven (s : State) (f : Book → Book) : (s.modBook f).oven = s.oven := rfl
@[simp] theorem State.modBook_boot (s : State) (f : Book → Book) : (s.modBook f).boot = s.boot := rfl
@[simp] theorem State.modBook_domOn (s : State) (f : Book → Book) : (s.modBook f).domOn = s.domOn := rfl
@[simp] theorem State.modBook_domRising (s : State) (f : Book → Book) : (s.modBook f).domRising = s.domRising := rfl
@[simp] theorem State.modBook_cartOk (s : State) (f : Book → Book) : (s.modBook f).cartOk = s.cartOk := rfl
@[simp] theorem State.modBook_emitted (s : State) (f : Book → Book) : (s.modBook f).emitted = s.emitted := rfl
@[simp] theorem State.modBook_freeCtr (s : State) (f : Book → Book) : (s.modBook f).freeCtr = s.freeCtr := rfl

@[simp] theorem State.modNote_pending (s : State) (f : Notices → Notices) : (s.modNote f).pending = s.pending := rfl
@[simp] theorem State.modNote_coreUp (s : State) (f : Notices → Notices) : (s.modNote f).coreUp = s.coreUp := rfl
@[simp] theorem State.modNote_ticking (s : State) (f : Notices → Notices) : (s.modNote f).ticking = s.ticking := rfl
@[simp] theorem State.modNote_tick (s : State) (f : Notices → Notices) : (s.modNote f).tick = s.tick := rfl
@[simp] theorem State.modNote_islandTick (s : State) (f : Notices → Notices) : (s.modNote f).islandTick = s.islandTick := rfl
@[simp] theorem State.modNote_regs (s : State) (f : Notices → Notices) : (s.modNote f).regs = s.regs := rfl
@[simp] theorem State.modNote_rc (s : State) (f : Notices → Notices) : (s.modNote f).rc = s.rc := rfl
@[simp] theorem State.modNote_shadow (s : State) (f : Notices → Notices) : (s.modNote f).shadow = s.shadow := rfl
@[simp] theorem State.modNote_paths (s : State) (f : Notices → Notices) : (s.modNote f).paths = s.paths := rfl
@[simp] theorem State.modNote_snap (s : State) (f : Notices → Notices) : (s.modNote f).snap = s.snap := rfl
@[simp] theorem State.modNote_xwords (s : State) (f : Notices → Notices) : (s.modNote f).xwords = s.xwords := rfl
@[simp] theorem State.modNote_datums (s : State) (f : Notices → Notices) : (s.modNote f).datums = s.datums := rfl
@[simp] theorem State.modNote_loops (s : State) (f : Notices → Notices) : (s.modNote f).loops = s.loops := rfl
@[simp] theorem State.modNote_slots (s : State) (f : Notices → Notices) : (s.modNote f).slots = s.slots := rfl
@[simp] theorem State.modNote_chans (s : State) (f : Notices → Notices) : (s.modNote f).chans = s.chans := rfl
@[simp] theorem State.modNote_groups (s : State) (f : Notices → Notices) : (s.modNote f).groups = s.groups := rfl
@[simp] theorem State.modNote_units (s : State) (f : Notices → Notices) : (s.modNote f).units = s.units := rfl
@[simp] theorem State.modNote_book (s : State) (f : Notices → Notices) : (s.modNote f).book = s.book := rfl
@[simp] theorem State.modNote_notices (s : State) (f : Notices → Notices) : (s.modNote f).notices = f s.notices := rfl
@[simp] theorem State.modNote_syns (s : State) (f : Notices → Notices) : (s.modNote f).syns = s.syns := rfl
@[simp] theorem State.modNote_bankSrc (s : State) (f : Notices → Notices) : (s.modNote f).bankSrc = s.bankSrc := rfl
@[simp] theorem State.modNote_bankHand (s : State) (f : Notices → Notices) : (s.modNote f).bankHand = s.bankHand := rfl
@[simp] theorem State.modNote_bankHeld (s : State) (f : Notices → Notices) : (s.modNote f).bankHeld = s.bankHeld := rfl
@[simp] theorem State.modNote_outs (s : State) (f : Notices → Notices) : (s.modNote f).outs = s.outs := rfl
@[simp] theorem State.modNote_outFrom (s : State) (f : Notices → Notices) : (s.modNote f).outFrom = s.outFrom := rfl
@[simp] theorem State.modNote_lines (s : State) (f : Notices → Notices) : (s.modNote f).lines = s.lines := rfl
@[simp] theorem State.modNote_plan (s : State) (f : Notices → Notices) : (s.modNote f).plan = s.plan := rfl
@[simp] theorem State.modNote_planDue (s : State) (f : Notices → Notices) : (s.modNote f).planDue = s.planDue := rfl
@[simp] theorem State.modNote_ports (s : State) (f : Notices → Notices) : (s.modNote f).ports = s.ports := rfl
@[simp] theorem State.modNote_sessions (s : State) (f : Notices → Notices) : (s.modNote f).sessions = s.sessions := rfl
@[simp] theorem State.modNote_streams (s : State) (f : Notices → Notices) : (s.modNote f).streams = s.streams := rfl
@[simp] theorem State.modNote_insts (s : State) (f : Notices → Notices) : (s.modNote f).insts = s.insts := rfl
@[simp] theorem State.modNote_engines (s : State) (f : Notices → Notices) : (s.modNote f).engines = s.engines := rfl
@[simp] theorem State.modNote_sems (s : State) (f : Notices → Notices) : (s.modNote f).sems = s.sems := rfl
@[simp] theorem State.modNote_funcs (s : State) (f : Notices → Notices) : (s.modNote f).funcs = s.funcs := rfl
@[simp] theorem State.modNote_linkUp (s : State) (f : Notices → Notices) : (s.modNote f).linkUp = s.linkUp := rfl
@[simp] theorem State.modNote_linkSpeed (s : State) (f : Notices → Notices) : (s.modNote f).linkSpeed = s.linkSpeed := rfl
@[simp] theorem State.modNote_linkWidth (s : State) (f : Notices → Notices) : (s.modNote f).linkWidth = s.linkWidth := rfl
@[simp] theorem State.modNote_mboxes (s : State) (f : Notices → Notices) : (s.modNote f).mboxes = s.mboxes := rfl
@[simp] theorem State.modNote_dbIn (s : State) (f : Notices → Notices) : (s.modNote f).dbIn = s.dbIn := rfl
@[simp] theorem State.modNote_dbOut (s : State) (f : Notices → Notices) : (s.modNote f).dbOut = s.dbOut := rfl
@[simp] theorem State.modNote_sideband (s : State) (f : Notices → Notices) : (s.modNote f).sideband = s.sideband := rfl
@[simp] theorem State.modNote_mbs (s : State) (f : Notices → Notices) : (s.modNote f).mbs = s.mbs := rfl
@[simp] theorem State.modNote_gaz (s : State) (f : Notices → Notices) : (s.modNote f).gaz = s.gaz := rfl
@[simp] theorem State.modNote_peerMir (s : State) (f : Notices → Notices) : (s.modNote f).peerMir = s.peerMir := rfl
@[simp] theorem State.modNote_scanning (s : State) (f : Notices → Notices) : (s.modNote f).scanning = s.scanning := rfl
@[simp] theorem State.modNote_reloadDue (s : State) (f : Notices → Notices) : (s.modNote f).reloadDue = s.reloadDue := rfl
@[simp] theorem State.modNote_xfer (s : State) (f : Notices → Notices) : (s.modNote f).xfer = s.xfer := rfl
@[simp] theorem State.modNote_mem (s : State) (f : Notices → Notices) : (s.modNote f).mem = s.mem := rfl
@[simp] theorem State.modNote_arch (s : State) (f : Notices → Notices) : (s.modNote f).arch = s.arch := rfl
@[simp] theorem State.modNote_fm (s : State) (f : Notices → Notices) : (s.modNote f).fm = s.fm := rfl
@[simp] theorem State.modNote_benchMatch (s : State) (f : Notices → Notices) : (s.modNote f).benchMatch = s.benchMatch := rfl
@[simp] theorem State.modNote_stewLoad (s : State) (f : Notices → Notices) : (s.modNote f).stewLoad = s.stewLoad := rfl
@[simp] theorem State.modNote_shedLevel (s : State) (f : Notices → Notices) : (s.modNote f).shedLevel = s.shedLevel := rfl
@[simp] theorem State.modNote_shedHot (s : State) (f : Notices → Notices) : (s.modNote f).shedHot = s.shedHot := rfl
@[simp] theorem State.modNote_shedRun (s : State) (f : Notices → Notices) : (s.modNote f).shedRun = s.shedRun := rfl
@[simp] theorem State.modNote_oven (s : State) (f : Notices → Notices) : (s.modNote f).oven = s.oven := rfl
@[simp] theorem State.modNote_boot (s : State) (f : Notices → Notices) : (s.modNote f).boot = s.boot := rfl
@[simp] theorem State.modNote_domOn (s : State) (f : Notices → Notices) : (s.modNote f).domOn = s.domOn := rfl
@[simp] theorem State.modNote_domRising (s : State) (f : Notices → Notices) : (s.modNote f).domRising = s.domRising := rfl
@[simp] theorem State.modNote_cartOk (s : State) (f : Notices → Notices) : (s.modNote f).cartOk = s.cartOk := rfl
@[simp] theorem State.modNote_emitted (s : State) (f : Notices → Notices) : (s.modNote f).emitted = s.emitted := rfl
@[simp] theorem State.modNote_freeCtr (s : State) (f : Notices → Notices) : (s.modNote f).freeCtr = s.freeCtr := rfl

@[simp] theorem State.modPath_pending (s : State) (p : Path) (f : PathSt → PathSt) : (s.modPath p f).pending = s.pending := rfl
@[simp] theorem State.modPath_coreUp (s : State) (p : Path) (f : PathSt → PathSt) : (s.modPath p f).coreUp = s.coreUp := rfl
@[simp] theorem State.modPath_ticking (s : State) (p : Path) (f : PathSt → PathSt) : (s.modPath p f).ticking = s.ticking := rfl
@[simp] theorem State.modPath_tick (s : State) (p : Path) (f : PathSt → PathSt) : (s.modPath p f).tick = s.tick := rfl
@[simp] theorem State.modPath_islandTick (s : State) (p : Path) (f : PathSt → PathSt) : (s.modPath p f).islandTick = s.islandTick := rfl
@[simp] theorem State.modPath_regs (s : State) (p : Path) (f : PathSt → PathSt) : (s.modPath p f).regs = s.regs := rfl
@[simp] theorem State.modPath_rc (s : State) (p : Path) (f : PathSt → PathSt) : (s.modPath p f).rc = s.rc := rfl
@[simp] theorem State.modPath_shadow (s : State) (p : Path) (f : PathSt → PathSt) : (s.modPath p f).shadow = s.shadow := rfl
@[simp] theorem State.modPath_paths (s : State) (p : Path) (f : PathSt → PathSt) : (s.modPath p f).paths = s.paths.set (pathIx p) (f (s.path p)) := rfl
@[simp] theorem State.modPath_snap (s : State) (p : Path) (f : PathSt → PathSt) : (s.modPath p f).snap = s.snap := rfl
@[simp] theorem State.modPath_xwords (s : State) (p : Path) (f : PathSt → PathSt) : (s.modPath p f).xwords = s.xwords := rfl
@[simp] theorem State.modPath_datums (s : State) (p : Path) (f : PathSt → PathSt) : (s.modPath p f).datums = s.datums := rfl
@[simp] theorem State.modPath_loops (s : State) (p : Path) (f : PathSt → PathSt) : (s.modPath p f).loops = s.loops := rfl
@[simp] theorem State.modPath_slots (s : State) (p : Path) (f : PathSt → PathSt) : (s.modPath p f).slots = s.slots := rfl
@[simp] theorem State.modPath_chans (s : State) (p : Path) (f : PathSt → PathSt) : (s.modPath p f).chans = s.chans := rfl
@[simp] theorem State.modPath_groups (s : State) (p : Path) (f : PathSt → PathSt) : (s.modPath p f).groups = s.groups := rfl
@[simp] theorem State.modPath_units (s : State) (p : Path) (f : PathSt → PathSt) : (s.modPath p f).units = s.units := rfl
@[simp] theorem State.modPath_book (s : State) (p : Path) (f : PathSt → PathSt) : (s.modPath p f).book = s.book := rfl
@[simp] theorem State.modPath_notices (s : State) (p : Path) (f : PathSt → PathSt) : (s.modPath p f).notices = s.notices := rfl
@[simp] theorem State.modPath_syns (s : State) (p : Path) (f : PathSt → PathSt) : (s.modPath p f).syns = s.syns := rfl
@[simp] theorem State.modPath_bankSrc (s : State) (p : Path) (f : PathSt → PathSt) : (s.modPath p f).bankSrc = s.bankSrc := rfl
@[simp] theorem State.modPath_bankHand (s : State) (p : Path) (f : PathSt → PathSt) : (s.modPath p f).bankHand = s.bankHand := rfl
@[simp] theorem State.modPath_bankHeld (s : State) (p : Path) (f : PathSt → PathSt) : (s.modPath p f).bankHeld = s.bankHeld := rfl
@[simp] theorem State.modPath_outs (s : State) (p : Path) (f : PathSt → PathSt) : (s.modPath p f).outs = s.outs := rfl
@[simp] theorem State.modPath_outFrom (s : State) (p : Path) (f : PathSt → PathSt) : (s.modPath p f).outFrom = s.outFrom := rfl
@[simp] theorem State.modPath_lines (s : State) (p : Path) (f : PathSt → PathSt) : (s.modPath p f).lines = s.lines := rfl
@[simp] theorem State.modPath_plan (s : State) (p : Path) (f : PathSt → PathSt) : (s.modPath p f).plan = s.plan := rfl
@[simp] theorem State.modPath_planDue (s : State) (p : Path) (f : PathSt → PathSt) : (s.modPath p f).planDue = s.planDue := rfl
@[simp] theorem State.modPath_ports (s : State) (p : Path) (f : PathSt → PathSt) : (s.modPath p f).ports = s.ports := rfl
@[simp] theorem State.modPath_sessions (s : State) (p : Path) (f : PathSt → PathSt) : (s.modPath p f).sessions = s.sessions := rfl
@[simp] theorem State.modPath_streams (s : State) (p : Path) (f : PathSt → PathSt) : (s.modPath p f).streams = s.streams := rfl
@[simp] theorem State.modPath_insts (s : State) (p : Path) (f : PathSt → PathSt) : (s.modPath p f).insts = s.insts := rfl
@[simp] theorem State.modPath_engines (s : State) (p : Path) (f : PathSt → PathSt) : (s.modPath p f).engines = s.engines := rfl
@[simp] theorem State.modPath_sems (s : State) (p : Path) (f : PathSt → PathSt) : (s.modPath p f).sems = s.sems := rfl
@[simp] theorem State.modPath_funcs (s : State) (p : Path) (f : PathSt → PathSt) : (s.modPath p f).funcs = s.funcs := rfl
@[simp] theorem State.modPath_linkUp (s : State) (p : Path) (f : PathSt → PathSt) : (s.modPath p f).linkUp = s.linkUp := rfl
@[simp] theorem State.modPath_linkSpeed (s : State) (p : Path) (f : PathSt → PathSt) : (s.modPath p f).linkSpeed = s.linkSpeed := rfl
@[simp] theorem State.modPath_linkWidth (s : State) (p : Path) (f : PathSt → PathSt) : (s.modPath p f).linkWidth = s.linkWidth := rfl
@[simp] theorem State.modPath_mboxes (s : State) (p : Path) (f : PathSt → PathSt) : (s.modPath p f).mboxes = s.mboxes := rfl
@[simp] theorem State.modPath_dbIn (s : State) (p : Path) (f : PathSt → PathSt) : (s.modPath p f).dbIn = s.dbIn := rfl
@[simp] theorem State.modPath_dbOut (s : State) (p : Path) (f : PathSt → PathSt) : (s.modPath p f).dbOut = s.dbOut := rfl
@[simp] theorem State.modPath_sideband (s : State) (p : Path) (f : PathSt → PathSt) : (s.modPath p f).sideband = s.sideband := rfl
@[simp] theorem State.modPath_mbs (s : State) (p : Path) (f : PathSt → PathSt) : (s.modPath p f).mbs = s.mbs := rfl
@[simp] theorem State.modPath_gaz (s : State) (p : Path) (f : PathSt → PathSt) : (s.modPath p f).gaz = s.gaz := rfl
@[simp] theorem State.modPath_peerMir (s : State) (p : Path) (f : PathSt → PathSt) : (s.modPath p f).peerMir = s.peerMir := rfl
@[simp] theorem State.modPath_scanning (s : State) (p : Path) (f : PathSt → PathSt) : (s.modPath p f).scanning = s.scanning := rfl
@[simp] theorem State.modPath_reloadDue (s : State) (p : Path) (f : PathSt → PathSt) : (s.modPath p f).reloadDue = s.reloadDue := rfl
@[simp] theorem State.modPath_xfer (s : State) (p : Path) (f : PathSt → PathSt) : (s.modPath p f).xfer = s.xfer := rfl
@[simp] theorem State.modPath_mem (s : State) (p : Path) (f : PathSt → PathSt) : (s.modPath p f).mem = s.mem := rfl
@[simp] theorem State.modPath_arch (s : State) (p : Path) (f : PathSt → PathSt) : (s.modPath p f).arch = s.arch := rfl
@[simp] theorem State.modPath_fm (s : State) (p : Path) (f : PathSt → PathSt) : (s.modPath p f).fm = s.fm := rfl
@[simp] theorem State.modPath_benchMatch (s : State) (p : Path) (f : PathSt → PathSt) : (s.modPath p f).benchMatch = s.benchMatch := rfl
@[simp] theorem State.modPath_stewLoad (s : State) (p : Path) (f : PathSt → PathSt) : (s.modPath p f).stewLoad = s.stewLoad := rfl
@[simp] theorem State.modPath_shedLevel (s : State) (p : Path) (f : PathSt → PathSt) : (s.modPath p f).shedLevel = s.shedLevel := rfl
@[simp] theorem State.modPath_shedHot (s : State) (p : Path) (f : PathSt → PathSt) : (s.modPath p f).shedHot = s.shedHot := rfl
@[simp] theorem State.modPath_shedRun (s : State) (p : Path) (f : PathSt → PathSt) : (s.modPath p f).shedRun = s.shedRun := rfl
@[simp] theorem State.modPath_oven (s : State) (p : Path) (f : PathSt → PathSt) : (s.modPath p f).oven = s.oven := rfl
@[simp] theorem State.modPath_boot (s : State) (p : Path) (f : PathSt → PathSt) : (s.modPath p f).boot = s.boot := rfl
@[simp] theorem State.modPath_domOn (s : State) (p : Path) (f : PathSt → PathSt) : (s.modPath p f).domOn = s.domOn := rfl
@[simp] theorem State.modPath_domRising (s : State) (p : Path) (f : PathSt → PathSt) : (s.modPath p f).domRising = s.domRising := rfl
@[simp] theorem State.modPath_cartOk (s : State) (p : Path) (f : PathSt → PathSt) : (s.modPath p f).cartOk = s.cartOk := rfl
@[simp] theorem State.modPath_emitted (s : State) (p : Path) (f : PathSt → PathSt) : (s.modPath p f).emitted = s.emitted := rfl
@[simp] theorem State.modPath_freeCtr (s : State) (p : Path) (f : PathSt → PathSt) : (s.modPath p f).freeCtr = s.freeCtr := rfl

@[simp] theorem State.answer_pending (s : State) (p : Path) (r : Resp) : (s.answer p r).pending = s.pending := rfl
@[simp] theorem State.answer_coreUp (s : State) (p : Path) (r : Resp) : (s.answer p r).coreUp = s.coreUp := rfl
@[simp] theorem State.answer_ticking (s : State) (p : Path) (r : Resp) : (s.answer p r).ticking = s.ticking := rfl
@[simp] theorem State.answer_tick (s : State) (p : Path) (r : Resp) : (s.answer p r).tick = s.tick := rfl
@[simp] theorem State.answer_islandTick (s : State) (p : Path) (r : Resp) : (s.answer p r).islandTick = s.islandTick := rfl
@[simp] theorem State.answer_regs (s : State) (p : Path) (r : Resp) : (s.answer p r).regs = s.regs := rfl
@[simp] theorem State.answer_rc (s : State) (p : Path) (r : Resp) : (s.answer p r).rc = s.rc := rfl
@[simp] theorem State.answer_shadow (s : State) (p : Path) (r : Resp) : (s.answer p r).shadow = s.shadow := rfl
@[simp] theorem State.answer_snap (s : State) (p : Path) (r : Resp) : (s.answer p r).snap = s.snap := rfl
@[simp] theorem State.answer_xwords (s : State) (p : Path) (r : Resp) : (s.answer p r).xwords = s.xwords := rfl
@[simp] theorem State.answer_datums (s : State) (p : Path) (r : Resp) : (s.answer p r).datums = s.datums := rfl
@[simp] theorem State.answer_loops (s : State) (p : Path) (r : Resp) : (s.answer p r).loops = s.loops := rfl
@[simp] theorem State.answer_slots (s : State) (p : Path) (r : Resp) : (s.answer p r).slots = s.slots := rfl
@[simp] theorem State.answer_chans (s : State) (p : Path) (r : Resp) : (s.answer p r).chans = s.chans := rfl
@[simp] theorem State.answer_groups (s : State) (p : Path) (r : Resp) : (s.answer p r).groups = s.groups := rfl
@[simp] theorem State.answer_units (s : State) (p : Path) (r : Resp) : (s.answer p r).units = s.units := rfl
@[simp] theorem State.answer_book (s : State) (p : Path) (r : Resp) : (s.answer p r).book = s.book := rfl
@[simp] theorem State.answer_notices (s : State) (p : Path) (r : Resp) : (s.answer p r).notices = s.notices := rfl
@[simp] theorem State.answer_syns (s : State) (p : Path) (r : Resp) : (s.answer p r).syns = s.syns := rfl
@[simp] theorem State.answer_bankSrc (s : State) (p : Path) (r : Resp) : (s.answer p r).bankSrc = s.bankSrc := rfl
@[simp] theorem State.answer_bankHand (s : State) (p : Path) (r : Resp) : (s.answer p r).bankHand = s.bankHand := rfl
@[simp] theorem State.answer_bankHeld (s : State) (p : Path) (r : Resp) : (s.answer p r).bankHeld = s.bankHeld := rfl
@[simp] theorem State.answer_outs (s : State) (p : Path) (r : Resp) : (s.answer p r).outs = s.outs := rfl
@[simp] theorem State.answer_outFrom (s : State) (p : Path) (r : Resp) : (s.answer p r).outFrom = s.outFrom := rfl
@[simp] theorem State.answer_lines (s : State) (p : Path) (r : Resp) : (s.answer p r).lines = s.lines := rfl
@[simp] theorem State.answer_plan (s : State) (p : Path) (r : Resp) : (s.answer p r).plan = s.plan := rfl
@[simp] theorem State.answer_planDue (s : State) (p : Path) (r : Resp) : (s.answer p r).planDue = s.planDue := rfl
@[simp] theorem State.answer_ports (s : State) (p : Path) (r : Resp) : (s.answer p r).ports = s.ports := rfl
@[simp] theorem State.answer_sessions (s : State) (p : Path) (r : Resp) : (s.answer p r).sessions = s.sessions := rfl
@[simp] theorem State.answer_streams (s : State) (p : Path) (r : Resp) : (s.answer p r).streams = s.streams := rfl
@[simp] theorem State.answer_insts (s : State) (p : Path) (r : Resp) : (s.answer p r).insts = s.insts := rfl
@[simp] theorem State.answer_engines (s : State) (p : Path) (r : Resp) : (s.answer p r).engines = s.engines := rfl
@[simp] theorem State.answer_sems (s : State) (p : Path) (r : Resp) : (s.answer p r).sems = s.sems := rfl
@[simp] theorem State.answer_funcs (s : State) (p : Path) (r : Resp) : (s.answer p r).funcs = s.funcs := rfl
@[simp] theorem State.answer_linkUp (s : State) (p : Path) (r : Resp) : (s.answer p r).linkUp = s.linkUp := rfl
@[simp] theorem State.answer_linkSpeed (s : State) (p : Path) (r : Resp) : (s.answer p r).linkSpeed = s.linkSpeed := rfl
@[simp] theorem State.answer_linkWidth (s : State) (p : Path) (r : Resp) : (s.answer p r).linkWidth = s.linkWidth := rfl
@[simp] theorem State.answer_mboxes (s : State) (p : Path) (r : Resp) : (s.answer p r).mboxes = s.mboxes := rfl
@[simp] theorem State.answer_dbIn (s : State) (p : Path) (r : Resp) : (s.answer p r).dbIn = s.dbIn := rfl
@[simp] theorem State.answer_dbOut (s : State) (p : Path) (r : Resp) : (s.answer p r).dbOut = s.dbOut := rfl
@[simp] theorem State.answer_sideband (s : State) (p : Path) (r : Resp) : (s.answer p r).sideband = s.sideband := rfl
@[simp] theorem State.answer_mbs (s : State) (p : Path) (r : Resp) : (s.answer p r).mbs = s.mbs := rfl
@[simp] theorem State.answer_gaz (s : State) (p : Path) (r : Resp) : (s.answer p r).gaz = s.gaz := rfl
@[simp] theorem State.answer_peerMir (s : State) (p : Path) (r : Resp) : (s.answer p r).peerMir = s.peerMir := rfl
@[simp] theorem State.answer_scanning (s : State) (p : Path) (r : Resp) : (s.answer p r).scanning = s.scanning := rfl
@[simp] theorem State.answer_reloadDue (s : State) (p : Path) (r : Resp) : (s.answer p r).reloadDue = s.reloadDue := rfl
@[simp] theorem State.answer_xfer (s : State) (p : Path) (r : Resp) : (s.answer p r).xfer = s.xfer := rfl
@[simp] theorem State.answer_mem (s : State) (p : Path) (r : Resp) : (s.answer p r).mem = s.mem := rfl
@[simp] theorem State.answer_arch (s : State) (p : Path) (r : Resp) : (s.answer p r).arch = s.arch := rfl
@[simp] theorem State.answer_fm (s : State) (p : Path) (r : Resp) : (s.answer p r).fm = s.fm := rfl
@[simp] theorem State.answer_benchMatch (s : State) (p : Path) (r : Resp) : (s.answer p r).benchMatch = s.benchMatch := rfl
@[simp] theorem State.answer_stewLoad (s : State) (p : Path) (r : Resp) : (s.answer p r).stewLoad = s.stewLoad := rfl
@[simp] theorem State.answer_shedLevel (s : State) (p : Path) (r : Resp) : (s.answer p r).shedLevel = s.shedLevel := rfl
@[simp] theorem State.answer_shedHot (s : State) (p : Path) (r : Resp) : (s.answer p r).shedHot = s.shedHot := rfl
@[simp] theorem State.answer_shedRun (s : State) (p : Path) (r : Resp) : (s.answer p r).shedRun = s.shedRun := rfl
@[simp] theorem State.answer_oven (s : State) (p : Path) (r : Resp) : (s.answer p r).oven = s.oven := rfl
@[simp] theorem State.answer_boot (s : State) (p : Path) (r : Resp) : (s.answer p r).boot = s.boot := rfl
@[simp] theorem State.answer_domOn (s : State) (p : Path) (r : Resp) : (s.answer p r).domOn = s.domOn := rfl
@[simp] theorem State.answer_domRising (s : State) (p : Path) (r : Resp) : (s.answer p r).domRising = s.domRising := rfl
@[simp] theorem State.answer_cartOk (s : State) (p : Path) (r : Resp) : (s.answer p r).cartOk = s.cartOk := rfl
@[simp] theorem State.answer_emitted (s : State) (p : Path) (r : Resp) : (s.answer p r).emitted = s.emitted := rfl
@[simp] theorem State.answer_freeCtr (s : State) (p : Path) (r : Resp) : (s.answer p r).freeCtr = s.freeCtr := rfl

@[simp] theorem State.emit_pending (s : State) (e : Emission) : (s.emit e).pending = s.pending := rfl
@[simp] theorem State.emit_coreUp (s : State) (e : Emission) : (s.emit e).coreUp = s.coreUp := rfl
@[simp] theorem State.emit_ticking (s : State) (e : Emission) : (s.emit e).ticking = s.ticking := rfl
@[simp] theorem State.emit_tick (s : State) (e : Emission) : (s.emit e).tick = s.tick := rfl
@[simp] theorem State.emit_islandTick (s : State) (e : Emission) : (s.emit e).islandTick = s.islandTick := rfl
@[simp] theorem State.emit_regs (s : State) (e : Emission) : (s.emit e).regs = s.regs := rfl
@[simp] theorem State.emit_rc (s : State) (e : Emission) : (s.emit e).rc = s.rc := rfl
@[simp] theorem State.emit_shadow (s : State) (e : Emission) : (s.emit e).shadow = s.shadow := rfl
@[simp] theorem State.emit_paths (s : State) (e : Emission) : (s.emit e).paths = s.paths := rfl
@[simp] theorem State.emit_snap (s : State) (e : Emission) : (s.emit e).snap = s.snap := rfl
@[simp] theorem State.emit_xwords (s : State) (e : Emission) : (s.emit e).xwords = s.xwords := rfl
@[simp] theorem State.emit_datums (s : State) (e : Emission) : (s.emit e).datums = s.datums := rfl
@[simp] theorem State.emit_loops (s : State) (e : Emission) : (s.emit e).loops = s.loops := rfl
@[simp] theorem State.emit_slots (s : State) (e : Emission) : (s.emit e).slots = s.slots := rfl
@[simp] theorem State.emit_chans (s : State) (e : Emission) : (s.emit e).chans = s.chans := rfl
@[simp] theorem State.emit_groups (s : State) (e : Emission) : (s.emit e).groups = s.groups := rfl
@[simp] theorem State.emit_units (s : State) (e : Emission) : (s.emit e).units = s.units := rfl
@[simp] theorem State.emit_book (s : State) (e : Emission) : (s.emit e).book = s.book := rfl
@[simp] theorem State.emit_notices (s : State) (e : Emission) : (s.emit e).notices = s.notices := rfl
@[simp] theorem State.emit_syns (s : State) (e : Emission) : (s.emit e).syns = s.syns := rfl
@[simp] theorem State.emit_bankSrc (s : State) (e : Emission) : (s.emit e).bankSrc = s.bankSrc := rfl
@[simp] theorem State.emit_bankHand (s : State) (e : Emission) : (s.emit e).bankHand = s.bankHand := rfl
@[simp] theorem State.emit_bankHeld (s : State) (e : Emission) : (s.emit e).bankHeld = s.bankHeld := rfl
@[simp] theorem State.emit_outs (s : State) (e : Emission) : (s.emit e).outs = s.outs := rfl
@[simp] theorem State.emit_outFrom (s : State) (e : Emission) : (s.emit e).outFrom = s.outFrom := rfl
@[simp] theorem State.emit_lines (s : State) (e : Emission) : (s.emit e).lines = s.lines := rfl
@[simp] theorem State.emit_plan (s : State) (e : Emission) : (s.emit e).plan = s.plan := rfl
@[simp] theorem State.emit_planDue (s : State) (e : Emission) : (s.emit e).planDue = s.planDue := rfl
@[simp] theorem State.emit_ports (s : State) (e : Emission) : (s.emit e).ports = s.ports := rfl
@[simp] theorem State.emit_sessions (s : State) (e : Emission) : (s.emit e).sessions = s.sessions := rfl
@[simp] theorem State.emit_streams (s : State) (e : Emission) : (s.emit e).streams = s.streams := rfl
@[simp] theorem State.emit_insts (s : State) (e : Emission) : (s.emit e).insts = s.insts := rfl
@[simp] theorem State.emit_engines (s : State) (e : Emission) : (s.emit e).engines = s.engines := rfl
@[simp] theorem State.emit_sems (s : State) (e : Emission) : (s.emit e).sems = s.sems := rfl
@[simp] theorem State.emit_funcs (s : State) (e : Emission) : (s.emit e).funcs = s.funcs := rfl
@[simp] theorem State.emit_linkUp (s : State) (e : Emission) : (s.emit e).linkUp = s.linkUp := rfl
@[simp] theorem State.emit_linkSpeed (s : State) (e : Emission) : (s.emit e).linkSpeed = s.linkSpeed := rfl
@[simp] theorem State.emit_linkWidth (s : State) (e : Emission) : (s.emit e).linkWidth = s.linkWidth := rfl
@[simp] theorem State.emit_mboxes (s : State) (e : Emission) : (s.emit e).mboxes = s.mboxes := rfl
@[simp] theorem State.emit_dbIn (s : State) (e : Emission) : (s.emit e).dbIn = s.dbIn := rfl
@[simp] theorem State.emit_dbOut (s : State) (e : Emission) : (s.emit e).dbOut = s.dbOut := rfl
@[simp] theorem State.emit_sideband (s : State) (e : Emission) : (s.emit e).sideband = s.sideband := rfl
@[simp] theorem State.emit_mbs (s : State) (e : Emission) : (s.emit e).mbs = s.mbs := rfl
@[simp] theorem State.emit_gaz (s : State) (e : Emission) : (s.emit e).gaz = s.gaz := rfl
@[simp] theorem State.emit_peerMir (s : State) (e : Emission) : (s.emit e).peerMir = s.peerMir := rfl
@[simp] theorem State.emit_scanning (s : State) (e : Emission) : (s.emit e).scanning = s.scanning := rfl
@[simp] theorem State.emit_reloadDue (s : State) (e : Emission) : (s.emit e).reloadDue = s.reloadDue := rfl
@[simp] theorem State.emit_xfer (s : State) (e : Emission) : (s.emit e).xfer = s.xfer := rfl
@[simp] theorem State.emit_mem (s : State) (e : Emission) : (s.emit e).mem = s.mem := rfl
@[simp] theorem State.emit_arch (s : State) (e : Emission) : (s.emit e).arch = s.arch := rfl
@[simp] theorem State.emit_fm (s : State) (e : Emission) : (s.emit e).fm = s.fm := rfl
@[simp] theorem State.emit_benchMatch (s : State) (e : Emission) : (s.emit e).benchMatch = s.benchMatch := rfl
@[simp] theorem State.emit_stewLoad (s : State) (e : Emission) : (s.emit e).stewLoad = s.stewLoad := rfl
@[simp] theorem State.emit_shedLevel (s : State) (e : Emission) : (s.emit e).shedLevel = s.shedLevel := rfl
@[simp] theorem State.emit_shedHot (s : State) (e : Emission) : (s.emit e).shedHot = s.shedHot := rfl
@[simp] theorem State.emit_shedRun (s : State) (e : Emission) : (s.emit e).shedRun = s.shedRun := rfl
@[simp] theorem State.emit_oven (s : State) (e : Emission) : (s.emit e).oven = s.oven := rfl
@[simp] theorem State.emit_boot (s : State) (e : Emission) : (s.emit e).boot = s.boot := rfl
@[simp] theorem State.emit_domOn (s : State) (e : Emission) : (s.emit e).domOn = s.domOn := rfl
@[simp] theorem State.emit_domRising (s : State) (e : Emission) : (s.emit e).domRising = s.domRising := rfl
@[simp] theorem State.emit_cartOk (s : State) (e : Emission) : (s.emit e).cartOk = s.cartOk := rfl
@[simp] theorem State.emit_emitted (s : State) (e : Emission) : (s.emit e).emitted = e :: s.emitted := rfl
@[simp] theorem State.emit_freeCtr (s : State) (e : Emission) : (s.emit e).freeCtr = s.freeCtr := rfl

@[simp] theorem State.memWrite_pending (s : State) (a : Nat) (bs : List Byte) : (s.memWrite a bs).pending = s.pending := rfl
@[simp] theorem State.memWrite_coreUp (s : State) (a : Nat) (bs : List Byte) : (s.memWrite a bs).coreUp = s.coreUp := rfl
@[simp] theorem State.memWrite_ticking (s : State) (a : Nat) (bs : List Byte) : (s.memWrite a bs).ticking = s.ticking := rfl
@[simp] theorem State.memWrite_tick (s : State) (a : Nat) (bs : List Byte) : (s.memWrite a bs).tick = s.tick := rfl
@[simp] theorem State.memWrite_islandTick (s : State) (a : Nat) (bs : List Byte) : (s.memWrite a bs).islandTick = s.islandTick := rfl
@[simp] theorem State.memWrite_regs (s : State) (a : Nat) (bs : List Byte) : (s.memWrite a bs).regs = s.regs := rfl
@[simp] theorem State.memWrite_rc (s : State) (a : Nat) (bs : List Byte) : (s.memWrite a bs).rc = s.rc := rfl
@[simp] theorem State.memWrite_shadow (s : State) (a : Nat) (bs : List Byte) : (s.memWrite a bs).shadow = s.shadow := rfl
@[simp] theorem State.memWrite_paths (s : State) (a : Nat) (bs : List Byte) : (s.memWrite a bs).paths = s.paths := rfl
@[simp] theorem State.memWrite_snap (s : State) (a : Nat) (bs : List Byte) : (s.memWrite a bs).snap = s.snap := rfl
@[simp] theorem State.memWrite_xwords (s : State) (a : Nat) (bs : List Byte) : (s.memWrite a bs).xwords = s.xwords := rfl
@[simp] theorem State.memWrite_datums (s : State) (a : Nat) (bs : List Byte) : (s.memWrite a bs).datums = s.datums := rfl
@[simp] theorem State.memWrite_loops (s : State) (a : Nat) (bs : List Byte) : (s.memWrite a bs).loops = s.loops := rfl
@[simp] theorem State.memWrite_slots (s : State) (a : Nat) (bs : List Byte) : (s.memWrite a bs).slots = s.slots := rfl
@[simp] theorem State.memWrite_chans (s : State) (a : Nat) (bs : List Byte) : (s.memWrite a bs).chans = s.chans := rfl
@[simp] theorem State.memWrite_groups (s : State) (a : Nat) (bs : List Byte) : (s.memWrite a bs).groups = s.groups := rfl
@[simp] theorem State.memWrite_units (s : State) (a : Nat) (bs : List Byte) : (s.memWrite a bs).units = s.units := rfl
@[simp] theorem State.memWrite_book (s : State) (a : Nat) (bs : List Byte) : (s.memWrite a bs).book = s.book := rfl
@[simp] theorem State.memWrite_notices (s : State) (a : Nat) (bs : List Byte) : (s.memWrite a bs).notices = s.notices := rfl
@[simp] theorem State.memWrite_syns (s : State) (a : Nat) (bs : List Byte) : (s.memWrite a bs).syns = s.syns := rfl
@[simp] theorem State.memWrite_bankSrc (s : State) (a : Nat) (bs : List Byte) : (s.memWrite a bs).bankSrc = s.bankSrc := rfl
@[simp] theorem State.memWrite_bankHand (s : State) (a : Nat) (bs : List Byte) : (s.memWrite a bs).bankHand = s.bankHand := rfl
@[simp] theorem State.memWrite_bankHeld (s : State) (a : Nat) (bs : List Byte) : (s.memWrite a bs).bankHeld = s.bankHeld := rfl
@[simp] theorem State.memWrite_outs (s : State) (a : Nat) (bs : List Byte) : (s.memWrite a bs).outs = s.outs := rfl
@[simp] theorem State.memWrite_outFrom (s : State) (a : Nat) (bs : List Byte) : (s.memWrite a bs).outFrom = s.outFrom := rfl
@[simp] theorem State.memWrite_lines (s : State) (a : Nat) (bs : List Byte) : (s.memWrite a bs).lines = s.lines := rfl
@[simp] theorem State.memWrite_plan (s : State) (a : Nat) (bs : List Byte) : (s.memWrite a bs).plan = s.plan := rfl
@[simp] theorem State.memWrite_planDue (s : State) (a : Nat) (bs : List Byte) : (s.memWrite a bs).planDue = s.planDue := rfl
@[simp] theorem State.memWrite_ports (s : State) (a : Nat) (bs : List Byte) : (s.memWrite a bs).ports = s.ports := rfl
@[simp] theorem State.memWrite_sessions (s : State) (a : Nat) (bs : List Byte) : (s.memWrite a bs).sessions = s.sessions := rfl
@[simp] theorem State.memWrite_streams (s : State) (a : Nat) (bs : List Byte) : (s.memWrite a bs).streams = s.streams := rfl
@[simp] theorem State.memWrite_insts (s : State) (a : Nat) (bs : List Byte) : (s.memWrite a bs).insts = s.insts := rfl
@[simp] theorem State.memWrite_engines (s : State) (a : Nat) (bs : List Byte) : (s.memWrite a bs).engines = s.engines := rfl
@[simp] theorem State.memWrite_sems (s : State) (a : Nat) (bs : List Byte) : (s.memWrite a bs).sems = s.sems := rfl
@[simp] theorem State.memWrite_funcs (s : State) (a : Nat) (bs : List Byte) : (s.memWrite a bs).funcs = s.funcs := rfl
@[simp] theorem State.memWrite_linkUp (s : State) (a : Nat) (bs : List Byte) : (s.memWrite a bs).linkUp = s.linkUp := rfl
@[simp] theorem State.memWrite_linkSpeed (s : State) (a : Nat) (bs : List Byte) : (s.memWrite a bs).linkSpeed = s.linkSpeed := rfl
@[simp] theorem State.memWrite_linkWidth (s : State) (a : Nat) (bs : List Byte) : (s.memWrite a bs).linkWidth = s.linkWidth := rfl
@[simp] theorem State.memWrite_mboxes (s : State) (a : Nat) (bs : List Byte) : (s.memWrite a bs).mboxes = s.mboxes := rfl
@[simp] theorem State.memWrite_dbIn (s : State) (a : Nat) (bs : List Byte) : (s.memWrite a bs).dbIn = s.dbIn := rfl
@[simp] theorem State.memWrite_dbOut (s : State) (a : Nat) (bs : List Byte) : (s.memWrite a bs).dbOut = s.dbOut := rfl
@[simp] theorem State.memWrite_sideband (s : State) (a : Nat) (bs : List Byte) : (s.memWrite a bs).sideband = s.sideband := rfl
@[simp] theorem State.memWrite_mbs (s : State) (a : Nat) (bs : List Byte) : (s.memWrite a bs).mbs = s.mbs := rfl
@[simp] theorem State.memWrite_gaz (s : State) (a : Nat) (bs : List Byte) : (s.memWrite a bs).gaz = s.gaz := rfl
@[simp] theorem State.memWrite_peerMir (s : State) (a : Nat) (bs : List Byte) : (s.memWrite a bs).peerMir = s.peerMir := rfl
@[simp] theorem State.memWrite_scanning (s : State) (a : Nat) (bs : List Byte) : (s.memWrite a bs).scanning = s.scanning := rfl
@[simp] theorem State.memWrite_reloadDue (s : State) (a : Nat) (bs : List Byte) : (s.memWrite a bs).reloadDue = s.reloadDue := rfl
@[simp] theorem State.memWrite_xfer (s : State) (a : Nat) (bs : List Byte) : (s.memWrite a bs).xfer = s.xfer := rfl
@[simp] theorem State.memWrite_arch (s : State) (a : Nat) (bs : List Byte) : (s.memWrite a bs).arch = s.arch := rfl
@[simp] theorem State.memWrite_fm (s : State) (a : Nat) (bs : List Byte) : (s.memWrite a bs).fm = s.fm := rfl
@[simp] theorem State.memWrite_benchMatch (s : State) (a : Nat) (bs : List Byte) : (s.memWrite a bs).benchMatch = s.benchMatch := rfl
@[simp] theorem State.memWrite_stewLoad (s : State) (a : Nat) (bs : List Byte) : (s.memWrite a bs).stewLoad = s.stewLoad := rfl
@[simp] theorem State.memWrite_shedLevel (s : State) (a : Nat) (bs : List Byte) : (s.memWrite a bs).shedLevel = s.shedLevel := rfl
@[simp] theorem State.memWrite_shedHot (s : State) (a : Nat) (bs : List Byte) : (s.memWrite a bs).shedHot = s.shedHot := rfl
@[simp] theorem State.memWrite_shedRun (s : State) (a : Nat) (bs : List Byte) : (s.memWrite a bs).shedRun = s.shedRun := rfl
@[simp] theorem State.memWrite_oven (s : State) (a : Nat) (bs : List Byte) : (s.memWrite a bs).oven = s.oven := rfl
@[simp] theorem State.memWrite_boot (s : State) (a : Nat) (bs : List Byte) : (s.memWrite a bs).boot = s.boot := rfl
@[simp] theorem State.memWrite_domOn (s : State) (a : Nat) (bs : List Byte) : (s.memWrite a bs).domOn = s.domOn := rfl
@[simp] theorem State.memWrite_domRising (s : State) (a : Nat) (bs : List Byte) : (s.memWrite a bs).domRising = s.domRising := rfl
@[simp] theorem State.memWrite_cartOk (s : State) (a : Nat) (bs : List Byte) : (s.memWrite a bs).cartOk = s.cartOk := rfl
@[simp] theorem State.memWrite_emitted (s : State) (a : Nat) (bs : List Byte) : (s.memWrite a bs).emitted = s.emitted := rfl
@[simp] theorem State.memWrite_freeCtr (s : State) (a : Nat) (bs : List Byte) : (s.memWrite a bs).freeCtr = s.freeCtr := rfl

@[simp] theorem State.alertEvent_pending (s : State) : (s.alertEvent).pending = s.pending := rfl
@[simp] theorem State.alertEvent_coreUp (s : State) : (s.alertEvent).coreUp = s.coreUp := rfl
@[simp] theorem State.alertEvent_ticking (s : State) : (s.alertEvent).ticking = s.ticking := rfl
@[simp] theorem State.alertEvent_tick (s : State) : (s.alertEvent).tick = s.tick := rfl
@[simp] theorem State.alertEvent_islandTick (s : State) : (s.alertEvent).islandTick = s.islandTick := rfl
@[simp] theorem State.alertEvent_regs (s : State) : (s.alertEvent).regs = s.regs := rfl
@[simp] theorem State.alertEvent_rc (s : State) : (s.alertEvent).rc = s.rc := rfl
@[simp] theorem State.alertEvent_shadow (s : State) : (s.alertEvent).shadow = s.shadow := rfl
@[simp] theorem State.alertEvent_paths (s : State) : (s.alertEvent).paths = s.paths := rfl
@[simp] theorem State.alertEvent_snap (s : State) : (s.alertEvent).snap = s.snap := rfl
@[simp] theorem State.alertEvent_xwords (s : State) : (s.alertEvent).xwords = s.xwords := rfl
@[simp] theorem State.alertEvent_datums (s : State) : (s.alertEvent).datums = s.datums := rfl
@[simp] theorem State.alertEvent_loops (s : State) : (s.alertEvent).loops = s.loops := rfl
@[simp] theorem State.alertEvent_slots (s : State) : (s.alertEvent).slots = s.slots := rfl
@[simp] theorem State.alertEvent_chans (s : State) : (s.alertEvent).chans = s.chans := rfl
@[simp] theorem State.alertEvent_groups (s : State) : (s.alertEvent).groups = s.groups := rfl
@[simp] theorem State.alertEvent_units (s : State) : (s.alertEvent).units = s.units := rfl
@[simp] theorem State.alertEvent_book (s : State) : (s.alertEvent).book = s.book := rfl
@[simp] theorem State.alertEvent_notices (s : State) : (s.alertEvent).notices = s.notices := rfl
@[simp] theorem State.alertEvent_syns (s : State) : (s.alertEvent).syns = s.syns := rfl
@[simp] theorem State.alertEvent_bankSrc (s : State) : (s.alertEvent).bankSrc = s.bankSrc := rfl
@[simp] theorem State.alertEvent_bankHand (s : State) : (s.alertEvent).bankHand = s.bankHand := rfl
@[simp] theorem State.alertEvent_bankHeld (s : State) : (s.alertEvent).bankHeld = s.bankHeld := rfl
@[simp] theorem State.alertEvent_outs (s : State) : (s.alertEvent).outs = s.outs := rfl
@[simp] theorem State.alertEvent_outFrom (s : State) : (s.alertEvent).outFrom = s.outFrom := rfl
@[simp] theorem State.alertEvent_lines (s : State) : (s.alertEvent).lines = s.lines := rfl
@[simp] theorem State.alertEvent_plan (s : State) : (s.alertEvent).plan = s.plan := rfl
@[simp] theorem State.alertEvent_planDue (s : State) : (s.alertEvent).planDue = s.planDue := rfl
@[simp] theorem State.alertEvent_ports (s : State) : (s.alertEvent).ports = s.ports := rfl
@[simp] theorem State.alertEvent_sessions (s : State) : (s.alertEvent).sessions = s.sessions := rfl
@[simp] theorem State.alertEvent_streams (s : State) : (s.alertEvent).streams = s.streams := rfl
@[simp] theorem State.alertEvent_insts (s : State) : (s.alertEvent).insts = s.insts := rfl
@[simp] theorem State.alertEvent_engines (s : State) : (s.alertEvent).engines = s.engines := rfl
@[simp] theorem State.alertEvent_sems (s : State) : (s.alertEvent).sems = s.sems := rfl
@[simp] theorem State.alertEvent_funcs (s : State) : (s.alertEvent).funcs = s.funcs := rfl
@[simp] theorem State.alertEvent_linkUp (s : State) : (s.alertEvent).linkUp = s.linkUp := rfl
@[simp] theorem State.alertEvent_linkSpeed (s : State) : (s.alertEvent).linkSpeed = s.linkSpeed := rfl
@[simp] theorem State.alertEvent_linkWidth (s : State) : (s.alertEvent).linkWidth = s.linkWidth := rfl
@[simp] theorem State.alertEvent_mboxes (s : State) : (s.alertEvent).mboxes = s.mboxes := rfl
@[simp] theorem State.alertEvent_dbIn (s : State) : (s.alertEvent).dbIn = s.dbIn := rfl
@[simp] theorem State.alertEvent_dbOut (s : State) : (s.alertEvent).dbOut = s.dbOut := rfl
@[simp] theorem State.alertEvent_mbs (s : State) : (s.alertEvent).mbs = s.mbs := rfl
@[simp] theorem State.alertEvent_gaz (s : State) : (s.alertEvent).gaz = s.gaz := rfl
@[simp] theorem State.alertEvent_peerMir (s : State) : (s.alertEvent).peerMir = s.peerMir := rfl
@[simp] theorem State.alertEvent_scanning (s : State) : (s.alertEvent).scanning = s.scanning := rfl
@[simp] theorem State.alertEvent_reloadDue (s : State) : (s.alertEvent).reloadDue = s.reloadDue := rfl
@[simp] theorem State.alertEvent_xfer (s : State) : (s.alertEvent).xfer = s.xfer := rfl
@[simp] theorem State.alertEvent_mem (s : State) : (s.alertEvent).mem = s.mem := rfl
@[simp] theorem State.alertEvent_arch (s : State) : (s.alertEvent).arch = s.arch := rfl
@[simp] theorem State.alertEvent_fm (s : State) : (s.alertEvent).fm = s.fm := rfl
@[simp] theorem State.alertEvent_benchMatch (s : State) : (s.alertEvent).benchMatch = s.benchMatch := rfl
@[simp] theorem State.alertEvent_stewLoad (s : State) : (s.alertEvent).stewLoad = s.stewLoad := rfl
@[simp] theorem State.alertEvent_shedLevel (s : State) : (s.alertEvent).shedLevel = s.shedLevel := rfl
@[simp] theorem State.alertEvent_shedHot (s : State) : (s.alertEvent).shedHot = s.shedHot := rfl
@[simp] theorem State.alertEvent_shedRun (s : State) : (s.alertEvent).shedRun = s.shedRun := rfl
@[simp] theorem State.alertEvent_oven (s : State) : (s.alertEvent).oven = s.oven := rfl
@[simp] theorem State.alertEvent_boot (s : State) : (s.alertEvent).boot = s.boot := rfl
@[simp] theorem State.alertEvent_domOn (s : State) : (s.alertEvent).domOn = s.domOn := rfl
@[simp] theorem State.alertEvent_domRising (s : State) : (s.alertEvent).domRising = s.domRising := rfl
@[simp] theorem State.alertEvent_cartOk (s : State) : (s.alertEvent).cartOk = s.cartOk := rfl
@[simp] theorem State.alertEvent_emitted (s : State) : (s.alertEvent).emitted = s.emitted := rfl
@[simp] theorem State.alertEvent_freeCtr (s : State) : (s.alertEvent).freeCtr = s.freeCtr := rfl

end Sys2Proof.Machine
end

