-- ==== Sys2Proof/WellFormed.lean ====
section
/-! DEFINITION. Well-formed commands: the bounds on operands that their types leave open. A command outside them names
something the rules do not have: a list of the wrong length, a code outside its table, a reserved selector (R296). The
block answers such a command too (Machine/), and no statement needs this file: it says which commands a sender means. -/

namespace Sys2Proof

/-- X of a shift: an immediate of 0 to 63, or the register form with X = 0 (R301). -/
def shiftOk (rb : Fin 32) (x : BitVec 9) : Bool :=
  x == 0 || (decide (256 ≤ x.toNat) && decide (x.toNat < 320) && rb == 0)

/-- A register that starts a pair (R278). -/
def pairOk (r : Fin 32) : Bool :=
  r.val % 2 == 0

/-- A clock selector: datum clock 0–7, or 15 for CW.DEF_CLK (R306). -/
def clockOk (x : BitVec 9) : Bool :=
  decide (x.toNat < 8) || x == 15

/-- The operands lie in the ranges the rules give. -/
def Instr.wellFormed : Instr → Bool
  -- lists of a stated length: the histogram of 4,096 codes (R160), the overlap (R162), 2^s edges (R227), 64 boundaries
  -- (R258), 38 payload bytes (R255), 64 edges (R229)
  | .calTableBuilt _ hist => decide (hist.length = 4096)
  | .relief _ dr dx _ => decide (dr.length = dx.length) && !dr.isEmpty
  | .alignUpdate _ edges => decide (∃ k ∈ List.range 16, edges.length = 2 ^ k)
  | .alignHandoverSwitch _ edges => decide (edges.length = 64)
  | .phaseRx _ _ _ _ bounds _ => decide (bounds.length = 64)
  | .legendRx _ _ _ _ payload => decide (payload.length = 38)
  -- sizes and codes: transfers of 1 to 32 bytes (R343), images below 128 KiB (R285), percent (R386), the link (R317),
  -- the commands of R331, the modes of R402, 24 logical banks (R353), 64 bits a word (R355)
  | .drainBatch groups _ => decide (0 < groups)
  | .bar2Write _ _ bytes => !bytes.isEmpty
  | .bar2Read _ _ len => decide (0 < len)
  | .read _ _ _ len _ => decide (1 ≤ len) && decide (len ≤ 32)
  | .write _ _ _ data _ => decide (1 ≤ data.length) && decide (data.length ≤ 32)
  | .sheetImage _ _ _ image => decide (image.length < 0x20000)
  | .stewardShed pct => decide (pct ≤ 100)
  | .pcieLinkUp speed width => decide (1 ≤ speed.toNat ∧ speed.toNat ≤ 4) && (width == 1 || width == 2)
  | .badCmd code => !([0x01, 0x02, 0x03, 0x04, 0x05, 0x10].contains code)
  | .modeGo _ m => m != 0
  | .retireBank _ bank => decide (bank.toNat < 24)
  | .scrubVisit _ _ upset => decide (upset ≤ 64)
  | .lockSequenceStart y => decide (y.val < 8)
  -- Nimyor: reserved selectors and unread fields (R296)
  | .shl _ _ _ rb x | .shr _ _ _ rb x | .sar _ _ _ rb x | .rsr _ _ _ rb x => shiftOk rb x
  | .mula _ _ _ _ x | .mac _ _ _ _ x | .msu _ _ _ _ x => decide (x.toNat < 4)
  | .acmov _ _ _ x => decide (x.toNat ≤ 64)
  | .acshl _ _ _ x | .acshr _ _ _ x | .acn _ _ _ x => decide (x.toNat < 128)
  | .b _ cond _ | .call _ cond _ => cond != 15
  | .tnow _ rd x => pairOk rd && clockOk x
  | .waitt _ ra x => pairOk ra && clockOk x
  | .tadd _ rd ra _ => pairOk rd && pairOk ra
  | .tdif _ _ ra rb => pairOk ra && pairOk rb
  | .stpop _ rd => pairOk rd && rd != 30
  | .emit _ _ ra _ => pairOk ra
  | .note _ _ imm => decide (imm.toNat % 16 = 0)
  | .mbpost _ _ _ imm | .mbtake _ _ _ imm => decide (imm.toNat < 16)
  | .dbell _ _ imm => decide (imm.toNat < 32)
  | .sema _ _ imm | .semr _ imm => decide (imm.toNat < 64)
  | _ => true

end Sys2Proof
end

