-- ==== Sys2Proof/Tests/Slice0.lean ====
section
/-! SUPPORT. Tests. For every statement with hypotheses, a witness that meets them, clause by clause, at a value of each
clause's own range; ill-formed commands that `wellFormed` refuses; and the specification's worked examples. -/

open Sys2Proof Sys2Proof.Machine

namespace Sys2Proof.Tests

section
set_option Elab.async false

/-! ## States of the witnesses -/

/-- A program of 64 words and one constant. -/
def sheet : Sheet := ⟨List.replicate 64 0, [5], [], 64, 3, 0, 0, false, false, false, 0, [], []⟩

/-- Registers G0 to G31 hold 64 to 95. -/
def cpu : Cpu := { Cpu.reset with g := Vector.ofFn (fun i : Fin 32 => BitVec.ofNat 64 (64 + i.val)) }

/-- A running device: tick 10^12, start sheet applied, in service, every domain up. -/
def up : State := { State.reset with
  ticking := true
  tick := 1000000000000
  islandTick := Vector.replicate 16 1000000000000
  boot := { State.reset.boot with sheetDone := true, mode := .service, stewardUp := true, fwOk := true, chosen := true }
  domOn := Vector.replicate 108 true
  syns := State.reset.syns.map (fun q => { q with phase := .locked, seqOn := false, onGrid := true })
  engines := Vector.replicate 8 { Engine.reset with run := .running, cpu := cpu, prog := { Prog.reset with active := true, bank0 := some sheet }, wdogFrom := 1000000000000 }
  oven := { State.reset.oven with debounced := true, settled := true, everWarm := true } }

/-- The same with a sheet in LOOP0. -/
def loopUp : State := (up.wr .loop 0 0 0x80000000).modLoop 0 fun l => { l with prog := { Prog.reset with active := true, bank0 := some sheet } }

/-- A record of the field book. -/
def rec : Rec := 0

/-- A stamp of channel 0 on its way out. -/
def raw : RawStamp := ⟨999999999000, 0, 0, 0, false, 0, 0x10000000, .edge⟩

/-- Engine 0 idle with a load armed and a swap asked for. -/
def armedIdle : State := up.modEng 0 fun g => { g with run := .idle, prog := { g.prog with phase := .armed, swapReq := true, bank1 := some sheet } }

/-- A field book of 4,096 records at packet memory. -/
def bookUp : State := ((up.wr .fieldbook 0 0 0x80000000).wr .fieldbook 0 4 0x5400000).wr .fieldbook 0 8 0x1000

/-- A field book with one group of one record, a trained link and an open host ring. -/
def drainUp : State := { (((bookUp.wr .fieldbook 0 0x80 0xCC000000).wr .fieldbook 0 0x98 0xFFFFFFFF).modBook fun b => { b with groups := [1] }) with linkUp := true, funcs := up.funcs.set 1 { Func.reset with busMaster := true, msixEn := true } }

/-- An identity of TYPE `t` (R342). -/
def ident (t : Nat) : BitVec 64 :=
  let hi := (0x1234 * 256 + t) * 2 ^ 40 + 2 ^ 12
  BitVec.ofNat 64 (hi + identCheck (BitVec.ofNat 64 hi))

/-- Module bus port 0 runs, as controller, with an interval of 16 s. -/
def mbUp : State := (up.wr .modbus 0 0 0x90000010).modMb 0 fun q => { q with pstate := .idle, pwren := true, trav := none }

/-- Its gazetteer's entry 0 is an oven module. -/
def gazUp : State := mbUp.modGaz 0 fun g => { g with valid := true, ident := ident 1 }

/-- An exchange in progress. -/
def xferAt (s : State) (w : Word) : State := { s with xfer := ⟨false, 0, w⟩ }

/-- Engine 0 with G0 = `v`. -/
def g0 (v : DWord) : State := up.modEng 0 fun g => { g with cpu := { g.cpu with g := g.cpu.g.set 0 v } }

/-- The registers of that engine. -/
def c0 (v : DWord) : Cpu := { cpu with g := cpu.g.set 0 v }

/-- Engine 0, G0 at the end of its slice, receives from mailbox 0, which holds one message. -/
def mailUp : State := ((g0 0x13FFC0).wr .mailbox 0 0 0x18000000).modMbox 0 fun q => { q with slots := [List.replicate 64 7] }

/-- G0 = 0 and DZ = `b` in engine 0. -/
def dz (b : Bool) : State := (g0 0).modEng 0 fun g => { g with cpu := { g.cpu with cw := if b then 0x30000000 else 0x20000000 } }

/-- A source with an occurrence in the notice queue. -/
def nsrc : NSrc := ⟨5, some 0, 0, 0, 0, 0, false, stampZero, 0, 0⟩

/-- An oven whose witness is slot 0, not yet settled. -/
def settling (prev : Option Int) : State :=
  (((up.wr .device 0 0x0C 0).wr .mon 0 0 1).modSlot 0 fun x => { x with qstate := .wait }).modOven fun o =>
    { o with settled := false, spoiled := false, prev := prev, gate := ⟨1, some (0, 0, 1), 1000, some (16000, 0, 16)⟩ }

/-- Port 0 an Ethernet port with a link. -/
def eth (mode : Word) : State :=
  (((up.modBoot fun b => { b with sheet := { b.sheet with lanes := true } }).wr .port 0 0 0x40000000).modPort 0 fun p => { p with link := true, cdr := true }).wr .pte 0 0x200 (0x80000001 ||| mode)

/-- Port 0 a Reistica port with a link, its protocol in `l`. -/
def rei (l : LState) : State :=
  (((up.modBoot fun b => { b with sheet := { b.sheet with lanes := true } }).wr .port 0 0 0x80000000).modPort 0 fun p => { p with link := true, cdr := true, r := { p.r with lstate := l } })

/-- The first 64 bytes of an engine image without code, constants or data. -/
def imgHead : List Byte := beBytes 4 0x4E4D5952 ++ [1, 1, 0, 0] ++ List.replicate 56 0

/-- Engine 0 verifying that image. -/
def verifying : State :=
  let s := up.modEng 0 fun g => { g with prog := { g.prog with phase := .verifying } }
  { s with mem := s.mem.setBytes 0 (imgHead ++ beBytes 32 (sha256 imgHead).toNat) }

/-- Port 0 a Reistica pair in UP whose two sides have an optical switch. -/
def surv : State :=
  (((rei .up).modPort 0 fun p => { p with r := { p.r with rlink := 0, partner := some (List.replicate 18 0 ++ [8] ++ List.replicate 33 0) } })).modGaz 0 fun g => { g with valid := true, ident := ident 3 }

/-- Before SHEET_DONE, with a valid copy of the start sheet. -/
def presheet : State := up.modBoot fun b => { b with sheetDone := false, sheet := { b.sheet with valid := true } }

/-- The same with these records in copy A (R396): the area's length, then the records. -/
def presheetWith (recs : List Byte) : State :=
  { presheet with arch := { presheet.arch with
    cells := ((beBytes 4 recs.length ++ recs).zipIdx (0x80000 + 16)).filterMap fun p => if p.1 = 0 then none else some (p.2, p.1) } }

/-- A histogram of 256 equal codes. -/
theorem flatHist : (fun c => (List.replicate 256 16384).getD c 0) = (fun c => if c < 256 then 16384 else 0) := by
  have h (n v c : Nat) : (List.replicate n v).getD c 0 = if c < n then v else 0 := by
    by_cases h : c < n <;> simp [List.getD, h]
  funext c
  exact h 256 16384 c

/-- A channel whose last edge lies far ahead is dead. -/
theorem dead_of_late (c : Chan) (k : DWord) (d : BitVec 14) (h : c.lastFire = some (2 ^ 80)) (hk : k.toNat < 2 ^ 42) :
    c.dead (ovenInstant k d) = true := by
  unfold Chan.dead
  rw [h]
  refine decide_eq_true ?_
  unfold ovenInstant
  omega

/-- The same with the eighth word of the message in error. -/
def mailBad : State := { mailUp with mem := { up.mem with flaws := [(up.mem.phys (mailAddr 0 (mailUp.mboxes[(0 : Fin 16)]).oldest) / 8 + 7, 2)] } }

theorem mailBad_flaw :
    mailBad.mem.flaw (mailBad.mem.phys (mailAddr 0 (mailBad.mboxes[(0 : Fin 16)]).oldest) / 8 + 7) = 2 := by
  have hp : mailBad.mem.phys = up.mem.phys := rfl
  have hb : mailBad.mboxes = mailUp.mboxes := rfl
  rw [hp, hb]
  simp [Memory.flaw, mapGet, mailBad]

/-- A CRC-12 has twelve bits. -/
theorem crc12_lt (l : List Nat) (f : Nat → Bool) (c : Nat) (h : c < 2 ^ 12) :
    l.foldl (fun c i => crcBit 12 0x80F c (f i)) c < 2 ^ 12 := by
  induction l generalizing c with
  | nil => exact h
  | cons i l ih =>
    refine ih _ ?_
    simp only [crcBit]
    split
    · exact Nat.xor_lt_two_pow (Nat.mod_lt _ (by decide)) (by decide)
    · exact Nat.mod_lt _ (by decide)

/-- The identity of a PEER target has TYPE 4, whatever its MAKER and SERIAL. -/
theorem peerIdent_eq : ∃ a b : Nat, a < 2 ^ 16 ∧ b < 2 ^ 40 ∧ peerIdent.toNat = a * 2 ^ 48 + 2 ^ 42 + b := by
  have h : ∀ v, identCheck v < 2 ^ 12 := fun v => crc12_lt _ _ _ (by decide)
  have h1 := h (BitVec.ofNat 64 (((Config.peerMaker.toNat * 256 + 4) * 2 ^ 28 + Config.peerSerial.toNat) * 2 ^ 12))
  have h2 := Config.peerMaker.isLt
  have h3 := Config.peerSerial.isLt
  unfold peerIdent
  simp only [BitVec.toNat_ofNat]
  generalize identCheck _ = c at h1 ⊢
  generalize Config.peerMaker.toNat = m at h2 ⊢
  generalize Config.peerSerial.toNat = n at h3 ⊢
  exact ⟨m, n * 2 ^ 12 + c, by omega, by omega, by omega⟩

theorem peerIdent_pos : (0 : BitVec 64).toNat < peerIdent.toNat := by
  obtain ⟨a, b, -, -, h⟩ := peerIdent_eq
  simp [h]

theorem peerIdent_type : peerIdent.getLsbD (63 - 21) = true := by
  obtain ⟨a, b, -, hb, h⟩ := peerIdent_eq
  simp only [BitVec.getLsbD, h, Nat.testBit_eq_decide_div_mod_eq]
  simp
  omega

/-! ## Witnesses -/

/-- The clauses of `Obligations.BanksAndPlans` can be met. -/
theorem witness_BanksAndPlans :
    (∃ (s : State) (p : Path) (b : Fin 12), (s.keeps p Block.outbank (↑b : ℕ) 0 = true))
    ∧ (∃ (s : State) (b : Fin 12) (mv : ℕ), (s.coreUp = true) ∧ (s.bankDeparts b mv = true) ∧ (s.bankHeld[b] = false))
    ∧ (∃ (s : State) (b : Fin 12) (mv : ℕ), (s.coreUp = true) ∧ (s.bankDeparts b mv = false) ∧ (s.bankHeld[b] = true) ∧ (∀
      (n : Fin 16), s.esmcOn n = true → s.ports[n].qlTx = BitVec.ofNat 4 (s.qlCode n).1 ∧ s.ports[n].essmTx = byte
      (s.qlCode n).2))
    ∧ (∃ (s : State) (b : Fin 12) (mv : ℕ), (s.coreUp = true) ∧ (s.bankDeparts b mv = s.bankHeld[b]))
    ∧ (∃ (s : State) (a : Fin 4) (b : Fin 12) (y : Fin 8) (edges : List LineEdge), (s.coreUp = true) ∧ (s.lineBusy a =
      false) ∧ (fin? 12 (s.alPlan a 31 28) = some b) ∧ (s.alPlan a 27 26 = 1) ∧ (s.bankSrc[b] = some y) ∧
      (edges.length = 2 ^ s.alPlan a 19 16) ∧ ((s.outFreq (synIx y) (s.outDiv (↑b : ℕ) (s.alPlan a 25 24))).1 ≠ 0) ∧
      ((s.outFreq (synIx y) (s.outDiv (↑b : ℕ) (s.alPlan a 25 24))).2 ≠ 0))
    ∧ (∃ (s : State) (ws : List Word), (s.coreUp = true) ∧ (s.planDue = some ws))
    ∧ (∃ (s : State) (b : Fin 12) (h : BankHand) (edges : List (LineEdge × LineEdge)), (s.coreUp = true) ∧ (s.bankHand[b] =
      some h) ∧ (edges.length = 64) ∧ ((s.outFreq (synIx h.next) (s.outDiv (↑b : ℕ) (s.alPlan h.line 25 24))).1 ≠ 0) ∧
      ((s.outFreq (synIx h.next) (s.outDiv (↑b : ℕ) (s.alPlan h.line 25 24))).2 ≠ 0)) :=
  ⟨⟨up, Path.f1, 0, by decide +kernel⟩,
   ⟨up, 0, 0, by decide +kernel⟩,
   ⟨({ up with bankHeld := up.bankHeld.set 0 true }), 0, 3300, by decide +kernel⟩,
   ⟨up, 0, 3300, by decide +kernel⟩,
   ⟨({ ((up.wr .align 0 4 0x04000000).wr .outbank 0 8 1000).wr .synth 0 0x28 1 with bankSrc := up.bankSrc.set 0 (some 0) }), 0, 0, 0, [⟨0, 0⟩], by decide +kernel⟩,
   ⟨({ up with planDue := some (List.replicate 99 0) }), (List.replicate 99 0), by decide +kernel⟩,
   ⟨({ (up.wr .outbank 0 8 1000).wr .synth 0 0x28 1 with bankHand := up.bankHand.set 0 (some ⟨0, 0, 0⟩) }), 0, (⟨0, 0, 0⟩), (List.replicate 64 (⟨0, 0⟩, ⟨0, 0⟩)), by decide +kernel⟩⟩

/-- The clauses of `Obligations.CrossingsDeliver` can be met. -/
theorem witness_CrossingsDeliver :
    (∃ (s : State) (pre : List XWord) (post : List XWord) (w : XWord), (s.coreUp = true) ∧ (s.xwords = pre ++ w :: post) ∧
      (w.arrived = false) ∧ (∀ x ∈ pre, ¬(x.src = w.src ∧ x.dst = w.dst ∧ x.arrived = false)))
    ∧ (∃ (s : State) (g : Fin 12) (pre : List (RawStamp × Bool)) (post : List (RawStamp × Bool)) (r : RawStamp), (s.coreUp =
      true) ∧ (∀ x ∈ pre, x.2 = true) ∧ (s.groups[g].xa = pre ++ (r, false) :: post))
    ∧ (∃ (s : State) (g : Fin 12) (pre : List (RawStamp × Bool)) (post : List (RawStamp × Bool)) (r : RawStamp), (s.coreUp =
      true) ∧ (∀ x ∈ pre, x.2 = true) ∧ (s.groups[g].xb = pre ++ (r, false) :: post))
    ∧ (∃ (s : State) (n : Fin 16) (d : Fin 8) (f : ℤ) (k : DWord), (s.coreUp = true) ∧ (s.ticking = true) ∧ (s.xwords =
      [{ src := n, dst := Dest.datum d, pay := Pay.inc f, apply := k, arrived := true, take := false }]) ∧ (BitVec.toNat
      k ≤ BitVec.toNat s.tick + 1) ∧ (s.datums[d].assigned = some n) ∧ (s.loops[n].role ≠ TwinRole.failed) ∧
      (s.fm.blks[finMod 128 (17 + (↑n : ℕ) % 2)].st ≠ BlkSt.testing))
    ∧ (∃ (s : State) (n : Fin 16) (f : ℤ) (k : DWord), (s.coreUp = true) ∧ (s.ticking = true) ∧ (s.xwords =
      [{ src := n, dst := Dest.tally n, pay := Pay.inc f, apply := k, arrived := false, take := false }]) ∧ (BitVec.toNat
      k ≤ BitVec.toNat s.tick + 1))
    ∧ (∃ (s : State) (i : Fin 16), (s.coreUp = true) ∧ (s.islandTick[i] ≠ s.tick) ∧ (s.fm.waiting.length ≤ 48) ∧ (∀ (b : Fin
      128), (↑b : ℕ) = tickBlock (↑i : ℕ) → s.fm.blks[b].st ≠ BlkSt.testing))
    ∧ (∃ (s : State), (s.coreUp = true) ∧ (∀ (i : Fin 16), s.islandTick[i] = s.tick)) :=
  ⟨⟨({ up with xwords := [⟨0, .datum 0, .inc 1, up.tick + 512, false, false⟩] }), [], [], (⟨0, .datum 0, .inc 1, up.tick + 512, false, false⟩), by decide +kernel⟩,
   ⟨(up.modGroup 0 fun g => { g with xa := [(raw, false)] }), 0, [], [], raw, by decide +kernel⟩,
   ⟨(up.modGroup 0 fun g => { g with xb := [(raw, false)] }), 0, [], [], raw, by decide +kernel⟩,
   ⟨({ up with xwords := [⟨0, .datum 0, .inc 1, up.tick + 1, true, false⟩] } |> fun s => s.modDatum 0 fun d => { d with assigned := some 0 }), 0, 0, 1, (up.tick + 1), by decide +kernel⟩,
   ⟨({ up with xwords := [⟨0, .tally 0, .inc 1, up.tick + 1, false, false⟩] }), 0, 1, (up.tick + 1), by decide +kernel⟩,
   ⟨({ up with islandTick := up.islandTick.set 1 7 }), 1, by decide +kernel⟩,
   ⟨up, by decide +kernel⟩⟩

/-- The clauses of `Obligations.DatumTickStepsAndSlews` can be met. -/
theorem witness_DatumTickStepsAndSlews :
    (∃ (s : State) (d : Fin 8) (x : Datum) (n : ℤ) (inc : DWord) (q : ℕ) (step : ℤ), (s.coreUp = true) ∧ (s.ticking =
      true) ∧ (s.datUp (datIsl d) = true) ∧ (s.datums[d] = x) ∧ (x.setDue = none) ∧ (n = x.incDue.getD x.clk.n) ∧ (inc
      = (Option.map incOf x.incDue).getD x.clk.inc) ∧ (q = (Option.map slewAmount x.bslewDue).getD x.q) ∧ (step =
      (List.map (fun p => p.2 * 2 ^ 24) x.stepDue).sum + x.slewStep) ∧ (q = 0 ∨ x.remDue.natAbs ≤ q))
    ∧ (∃ (s : State) (d : Fin 8) (x : Datum) (n : ℤ) (inc : DWord) (q : ℕ) (step : ℤ) (add : ℤ), (s.coreUp = true) ∧
      (s.ticking = true) ∧ (s.datUp (datIsl d) = true) ∧ (s.datums[d] = x) ∧ (x.setDue = none) ∧ (n = x.incDue.getD
      x.clk.n) ∧ (inc = (Option.map incOf x.incDue).getD x.clk.inc) ∧ (q = (Option.map slewAmount x.bslewDue).getD
      x.q) ∧ (step = (List.map (fun p => p.2 * 2 ^ 24) x.stepDue).sum + x.slewStep) ∧ (q ≠ 0) ∧ (q < x.remDue.natAbs)
      ∧ (add = if x.remDue < 0 then -(↑q : ℤ) else (↑q : ℤ)) ∧ (q ≤ BitVec.toNat inc) ∧ (BitVec.toNat inc + q < 2 ^
      64))
    ∧ (∃ (s : State) (d : Fin 8) (sd : SetDue) (c : Clock), (s.coreUp = true) ∧ (s.ticking = true) ∧ (s.datUp (datIsl d) =
      true) ∧ (s.datums[d].setDue = some sd) ∧ (∀ (e : Fin 8), e ≠ d → s.datums[e].setDue = none) ∧ (c =
      s.loops[sd.loop].tally.advance (s.tick + 1) s.loops[sd.loop].incDue))
    ∧ (∃ (s : State) (d : Fin 8), (s.coreUp = true) ∧ (s.ticking = true) ∧ (s.spacingMet d = true) ∧ (s.datums[d].heldSteps
      ≠ [] ∨ s.datums[d].heldSets ≠ []))
    ∧ (∃ (s : State) (d : Fin 8), (s.coreUp = true) ∧ (s.spacingMet d = false))
    ∧ (∃ (s : State) (d : Fin 8), (s.coreUp = true) ∧ (s.datums[d].bslewDue = none) ∧ (s.datums[d].remDue ≠ 0) ∧
      (s.datums[d].remDue.natAbs ≤ s.datums[d].q))
    ∧ (∃ (s : State) (p : Path) (d : Fin 8), (s.keeps p Block.datum (↑d : ℕ) 8 = true)) :=
  ⟨⟨(up.modDatum 0 fun x => { x with incDue := some 5, bslewDue := some 0, rem := 9, stepDue := [(0, 7)] }), 0, _, _, _, _, _, by decide +kernel, by decide +kernel, by decide +kernel, rfl, by decide +kernel, rfl, rfl, rfl, rfl, by decide⟩,
   ⟨(up.modDatum 0 fun x => { x with rem := -9, q := 4 }), 0, _, _, _, _, _, _, by decide +kernel, by decide +kernel, by decide +kernel, rfl, by decide +kernel, rfl, rfl, rfl, rfl, by decide, by decide, rfl, by decide, by decide⟩,
   ⟨(up.modDatum 0 fun x => { x with setDue := some ⟨1, 5, 64⟩ }), 0, ⟨1, 5, 64⟩, _, by decide +kernel, by decide +kernel, by decide +kernel, rfl, by decide +kernel, rfl⟩,
   ⟨(up.modDatum 0 fun d => { d with heldSteps := [(0, 5)] }), 0, by decide +kernel⟩,
   ⟨(up.modDatum 0 fun d => { d with lastStep := some up.tick }), 0, by decide +kernel⟩,
   ⟨(up.modDatum 0 fun d => { d with rem := 5, q := 10 }), 0, by decide +kernel⟩,
   ⟨up, Path.f1, 0, by decide +kernel⟩⟩

/-- The clauses of `Obligations.EngineSwapsWaitsAndFaultOrder` can be met. -/
theorem witness_EngineSwapsWaitsAndFaultOrder :
    (∃ (s : State) (pp : ProgPort) (x : Sheet), (s.coreUp = true) ∧ ((s.prog pp).due = true) ∧ (s.atBoundary pp = true) ∧
      ((s.prog pp).spare = some x))
    ∧ (∃ (s : State) (pp : ProgPort), (s.coreUp = true) ∧ ((s.prog pp).due = false))
    ∧ (∃ (s : State) (e : Fin 8) (x : Sheet), (s.coreUp = true) ∧ (s.swapTmoDue e = true) ∧ (s.engHeld e = false) ∧
      (s.engines[e].run = Run.running) ∧ (s.engines[e].prog.spare = some x))
    ∧ (∃ (s : State) (e : Fin 8) (w : Wait) (c : Cpu), (s.coreUp = true) ∧ (s.engines[e].run = Run.waiting) ∧
      (s.engines[e].wait = some w) ∧ (s.waitEnd e w s.engines[e].cpu = some c) ∧ (s.swapTmoDue e = false))
    ∧ (∃ (s : State) (e : Fin 8) (w : Wait), (s.coreUp = true) ∧ (s.engines[e].run = Run.waiting) ∧ (s.engines[e].wait =
      some w) ∧ (s.waitEnd e w s.engines[e].cpu = none))
    ∧ (∃ (s : State) (e : Fin 8) (i : Instr), (s.coreUp = true) ∧ (s.engines[e].run = Run.running) ∧ (i ∈ [Instr.nop
      (Tgt.eng e), Instr.mov (Tgt.eng e) 0 0, Instr.halt e, Instr.ret (Tgt.eng e), Instr.ldd e 0 0 0, Instr.std e 0 0
      0, Instr.waitk e 0, Instr.stpop e 0, Instr.sema e 0 0]) ∧ (s.wdogDue e = true))
    ∧ (∃ (s : State) (e : Fin 8) (i : Instr), (s.coreUp = true) ∧ (s.engines[e].run = Run.running) ∧ (i ∈ [Instr.nop
      (Tgt.eng e), Instr.mov (Tgt.eng e) 0 0, Instr.halt e, Instr.ret (Tgt.eng e), Instr.ldd e 0 0 0, Instr.std e 0 0
      0, Instr.waitk e 0, Instr.stpop e 0, Instr.sema e 0 0]) ∧ (s.wdogDue e = false) ∧ (s.engines[e].codeW ≤
      s.engines[e].cpu.pc))
    ∧ (∃ (s : State) (e : Fin 8) (i : Instr) (sh : Sheet) (w : Word), (s.coreUp = true) ∧ (s.engines[e].run = Run.running) ∧
      (i ∈ [Instr.nop (Tgt.eng e), Instr.mov (Tgt.eng e) 0 0, Instr.halt e, Instr.ret (Tgt.eng e), Instr.ldd e 0 0 0,
      Instr.std e 0 0 0, Instr.waitk e 0, Instr.stpop e 0, Instr.sema e 0 0]) ∧ (s.wdogDue e = false) ∧
      (s.engines[e].prog.cur = some sh) ∧ (sh.code[s.engines[e].cpu.pc]? = some w) ∧ (s.engines[e].cpu.pc ∈
      sh.badCode))
    ∧ (∃ (s : State) (e : Fin 8) (i : Instr) (sh : Sheet) (w : Word), (s.coreUp = true) ∧ (s.engines[e].run = Run.running) ∧
      (i ∈ [Instr.nop (Tgt.eng e), Instr.mov (Tgt.eng e) 0 0, Instr.halt e, Instr.ret (Tgt.eng e), Instr.ldd e 0 0 0,
      Instr.std e 0 0 0, Instr.waitk e 0, Instr.stpop e 0, Instr.sema e 0 0]) ∧ (s.wdogDue e = false) ∧
      (s.engines[e].prog.cur = some sh) ∧ (sh.code[s.engines[e].cpu.pc]? = some w) ∧ (s.engines[e].cpu.pc ∉
      sh.badCode) ∧ (decodeEngine e w = none))
    ∧ (∃ (s : State) (e : Fin 8) (i : Instr), (s.engines[e].run ≠ Run.running) ∧ (i ∈ [Instr.nop (Tgt.eng e), Instr.mov
      (Tgt.eng e) 0 0, Instr.halt e, Instr.ret (Tgt.eng e), Instr.ldd e 0 0 0, Instr.std e 0 0 0, Instr.waitk e 0,
      Instr.stpop e 0, Instr.sema e 0 0]) ∧ (s.coreUp = true))
    ∧ (∃ (s : State) (e : Fin 8) (rd : Fin 32) (ra : Fin 32) (rb : Fin 32) (d : Fin 4) (a : Fin 4) (x : BitVec 8) (y :
      BitVec 9) (m : BitVec 14) (off : BitVec 14) (o : BitVec 20) (i : Instr), (s.runsOn (Tgt.eng e) = true) ∧ (128 ≤
      x.toNat) ∧ (¬(y = 0 ∨ 256 ≤ y.toNat ∧ y.toNat < 320 ∧ rb = 0)) ∧ (64 ≤ m.toNat) ∧ (off.toNat % 16 ≠ 0) ∧ (i ∈
      [Instr.mula (Tgt.eng e) d ra rb x, Instr.mac (Tgt.eng e) d ra rb x, Instr.msu (Tgt.eng e) d ra rb x, Instr.acmov
      (Tgt.eng e) d ra x, Instr.acshl (Tgt.eng e) d a x, Instr.acshr (Tgt.eng e) d a x, Instr.acn (Tgt.eng e) rd a x,
      Instr.shl (Tgt.eng e) rd ra rb y, Instr.shr (Tgt.eng e) rd ra rb y, Instr.sar (Tgt.eng e) rd ra rb y, Instr.rsr
      (Tgt.eng e) rd ra rb y, Instr.b (Tgt.eng e) 15 o, Instr.call (Tgt.eng e) 15 o, Instr.sema e rd m, Instr.semr e
      m, Instr.dbell e 0 m, Instr.mbpost e rd ra m, Instr.mbtake e rd ra m, Instr.note e ra off])) :=
  ⟨⟨armedIdle, (.eng 0), sheet, by decide +kernel⟩,
   ⟨up, (ProgPort.eng 0), by decide +kernel⟩,
   ⟨((up.wr .engine 0 0x10 5).modEng 0 fun g => { g with prog := { g.prog with phase := .armed, swapReq := true, bank1 := some sheet } }), 0, sheet, by decide +kernel⟩,
   ⟨(up.modEng 0 fun g => { g with run := .waiting, wait := some (.tick 7) }), 0, (.tick 7), ((up.modEng 0 fun g => { run := Run.waiting, cpu := g.cpu, forced := g.forced, cause := g.cause, pcReg := g.pcReg, wait := some (Wait.tick 7), fifo := g.fifo, gap := g.gap, pushq := g.pushq, wdogFrom := g.wdogFrom, armedAt := g.armedAt, prog := g.prog }).engines[0].cpu.setL false), by decide +kernel⟩,
   ⟨(up.modEng 0 fun g => { g with run := .waiting, wait := some (.tick (up.tick + 1)) }), 0, (.tick (up.tick + 1)), by decide +kernel⟩,
   ⟨((up.wr .engine 0 0x14 5).modEng 0 fun g => { g with wdogFrom := 0 }), 0, (.ret (.eng 0)), by decide +kernel⟩,
   ⟨(up.modEng 0 fun g => { g with cpu := { g.cpu with pc := 64 } }), 0, (.ret (.eng 0)), by decide +kernel⟩,
   ⟨(up.modEng 0 fun g => { g with prog := { g.prog with bank0 := some { sheet with badCode := [0] } } }), 0, (.ret (.eng 0)), { sheet with badCode := [0] }, 0, by decide +kernel⟩,
   ⟨(up.modEng 0 fun g => { g with prog := { g.prog with bank0 := some { sheet with code := [0xFFFFFFFF] } } }), 0, (.ret (.eng 0)), { sheet with code := [0xFFFFFFFF] }, 0xFFFFFFFF, by decide +kernel⟩,
   ⟨(up.modEng 0 fun g => { g with run := .halted }), 0, (.ret (.eng 0)), by decide +kernel⟩,
   ⟨up, 0, 0, 0, 0, 0, 0, 128, 320, 64, 1, 0, (.sema 0 0 64), by decide +kernel⟩⟩

/-- The clauses of `Obligations.FaultsAndLiveService` can be met. -/
theorem witness_FaultsAndLiveService :
    (∃ (s : State) (i : Fin 128) (cause : BitVec 4), (s.coreUp = true) ∧ (blockListed (↑i : ℕ) = true) ∧ (s.fm.waiting =
      []) ∧ (s.fm.blks[i].st = BlkSt.inService) ∧ (s.lolOnly (↑i : ℕ) cause.toNat = false))
    ∧ (∃ (s : State) (i : Fin 128), (s.coreUp = true) ∧ (blockListed (↑i : ℕ) = false))
    ∧ (∃ (s : State) (i : Fin 128) (d : Fin 108), (s.coreUp = true) ∧ (((↑i : ℕ), (↑d : ℕ)) ∈ [(80, 7), (81, 2), (17, 3),
      (18, 4), (82, 8), (83, 9)]) ∧ (s.fm.blks[i].st = BlkSt.testing) ∧ (s.fm.blks[i].cause = 10) ∧
      (s.fm.blks[i].shared = false) ∧ ((s.fm.blks[i].lastDay s.tick).length ≤ 1) ∧ (s.domOn[d] = true))
    ∧ (∃ (s : State) (i : Fin 128), (s.coreUp = true) ∧ (s.fm.blks[i].st ≠ BlkSt.testing))
    ∧ (∃ (s : State) (isl : Fin 2) (m : Fin 2), (s.coreUp = true) ∧ (s.reloadDue[isl] = true) ∧ (s.blkUp (19 + (↑isl : ℕ)) =
      true) ∧ (s.blkUp 82 = true ∧ m = 0 ∨ s.blkUp 82 = false ∧ s.blkUp 83 = true ∧ m = 1))
    ∧ (∃ (s : State) (isl : Fin 2), (s.coreUp = true) ∧ (s.reloadDue[isl] = false ∨ s.blkUp (19 + (↑isl : ℕ)) = false))
    ∧ (∃ (s : State) (p : Path) (i : Fin 128), (s.keeps p Block.fault 0 4 = true) ∧ (s.boot.mode = Mode.test) ∧
      (s.fm.blks[i].st = BlkSt.retired))
    ∧ (∃ (s : State) (p : Path) (i : Fin 128), (s.keeps p Block.fault 0 4 = true) ∧ (s.boot.mode = Mode.test) ∧
      (s.fm.blks[i].st = BlkSt.inService) ∧ (s.partRetired (↑i : ℕ) = true))
    ∧ (∃ (s : State) (p : Path) (i : Fin 128), (s.keeps p Block.fault 0 4 = true) ∧ (s.boot.mode ≠ Mode.test ∨
      s.fm.blks[i].st = BlkSt.testing ∨ s.fm.blks[i].st = BlkSt.inService ∧ s.partRetired (↑i : ℕ) = false))
    ∧ (∃ (s : State) (p : Path), (s.keeps p Block.fault 0 4 = true) ∧ (s.mem.spareUsed = false) ∧ (s.mem.spareBad = false) ∧
      (s.mem.mirror = none))
    ∧ (∃ (s : State) (p : Path) (b : Byte), (s.keeps p Block.fault 0 4 = true) ∧ (s.mem.spareUsed = true ∨ 24 ≤ BitVec.toNat
      b))
    ∧ (∃ (s : State) (n : Fin 16), (s.coreUp = true) ∧ (s.blkUp (17 + (↑n : ℕ) % 2) = false))
    ∧ (∃ (s : State) (n : Fin 16), (s.coreUp = true) ∧ (s.blkUp (17 + (↑n : ℕ) % 2) = true) ∧ (s.loops[n].ckptAt ≠ some
      s.loops[n].tally.now.sec.toNat))
    ∧ (∃ (s : State) (n : Fin 16), (s.coreUp = true) ∧ (s.loops[n].ckptAt = some s.loops[n].tally.now.sec.toNat))
    ∧ (∃ (s : State), (s.coreUp = true) ∧ (s.ticking = false))
    ∧ (∃ (s : State) (dg : BitVec 256), (s.coreUp = true) ∧ (s.ticking = true) ∧ (∀ k ∈ coveredKeys, ∀ (pl : Place),
      placeOfKey k = some pl → s.reg k &&& pl.cover = (mapGet s.shadow k).getD (resetWord k) &&& pl.cover) ∧ (∀ n <
      16, s.namedWords n = s.namedShadow n) ∧ (dg = sha256 (beBytes 2 (s.rf Block.benchmark 0 8 15 0) ++ List.flatMap
      (fun n => beBytes 32 (if (s.rf Block.benchmark 0 8 15 0).testBit n = true then (s.sheetDigest n).toNat else 0))
      (List.range 16))))
    ∧ (∃ (s : State) (load : ℕ), (s.coreUp = true) ∧ (s.boot.stewardUp = true) ∧ (s.rf Block.device 0 2052 15 8 < Nat.min
      100 load))
    ∧ (∃ (s : State) (load : ℕ), (s.coreUp = true) ∧ (s.boot.stewardUp = true) ∧ (Nat.min 100 load ≤ s.rf Block.device 0
      2052 7 0) ∧ (s.rf Block.device 0 2052 7 0 < s.rf Block.device 0 2052 15 8))
    ∧ (∃ (s : State) (p : Path), (s.keeps p Block.device 0 2056 = true))
    ∧ (∃ (s : State) (k : DWord), (s.coreUp = true) ∧ (s.ticking = true) ∧ (s.boot.fwRestart = some k) ∧ (s.boot.fwOk =
      true) ∧ (s.blkUp 92 = true) ∧ (∀ e ∈ s.fm.waiting, (↑e.1 : ℕ) ≠ 92) ∧ (BitVec.toNat k ≤ BitVec.toNat s.tick)) :=
  ⟨⟨up, 0, 0, by decide +kernel⟩,
   ⟨up, (127 - 1), by decide +kernel⟩,
   ⟨(up.modBlk 0x50 fun b => { b with st := .testing, cause := 10 }), 0x50, 7, by decide +kernel⟩,
   ⟨up, 0, by decide +kernel⟩,
   ⟨({ up with reloadDue := up.reloadDue.set 0 true }), 0, 0, by decide +kernel⟩,
   ⟨(up.modBlk 19 fun b => { b with st := .testing }), 0, by decide +kernel⟩,
   ⟨((up.modBlk 0 fun b => { b with st := .retired }).modBoot fun b => { b with mode := .test }), Path.f1, 0, by decide +kernel⟩,
   ⟨((up.modGroup 0 fun g => { g with cores := g.cores.set 0 { TdcCore.reset with retired := true } }).modBoot fun b => { b with mode := .test }), Path.f1, 0, by decide +kernel⟩,
   ⟨up, Path.f1, 0, by decide +kernel⟩,
   ⟨up, Path.f1, by decide +kernel⟩,
   ⟨up, Path.f1, 24, by decide +kernel⟩,
   ⟨(up.modBlk 0x11 fun b => { b with st := .testing }), 0, by decide +kernel⟩,
   ⟨up, 0, by decide +kernel⟩,
   ⟨(up.modLoop 0 fun l => { l with ckptAt := some 0 }), 0, by decide +kernel⟩,
   ⟨({ up with ticking := false }), by decide +kernel⟩,
   ⟨up, _, by decide +kernel, by decide +kernel, (fun _ _ _ _ => rfl), by decide +kernel, rfl⟩,
   ⟨up, 100, by decide +kernel⟩,
   ⟨up, 0, by decide +kernel⟩,
   ⟨up, Path.f1, by decide +kernel⟩,
   ⟨(up.modBoot fun b => { b with fwRestart := some 0, fwOk := true }), 0, by decide +kernel⟩⟩

/-- The clauses of `Obligations.FieldBook` can be met. -/
theorem witness_FieldBook :
    (∃ (s : State) (g : List Rec) (rest : List (List Rec)), (s.coreUp = true) ∧ (s.book.q = g :: rest) ∧ (s.datUp (finMod
      2 ((g.headD 0).datum / 4)) = true) ∧ (s.rb Block.fieldbook 0 0 31 = true) ∧ (s.book.lost = 0) ∧ (s.bookFits
      g.length = true))
    ∧ (∃ (s : State) (g : List Rec) (rest : List (List Rec)), (s.coreUp = true) ∧ (s.book.q = g :: rest) ∧ (s.datUp (finMod
      2 ((g.headD 0).datum / 4)) = true) ∧ (s.rb Block.fieldbook 0 0 31 = false))
    ∧ (∃ (s : State) (g : List Rec) (rest : List (List Rec)) (pre : List ℕ) (post : List ℕ) (m : ℕ) (k : ℕ), (s.coreUp =
      true) ∧ (s.book.q = g :: rest) ∧ (s.datUp (finMod 2 ((g.headD 0).datum / 4)) = true) ∧ (s.rb Block.fieldbook 0 0
      31 = true) ∧ (s.rb Block.fieldbook 0 0 30 = false) ∧ (s.book.lost = 0) ∧ (s.book.groups = pre ++ m :: post) ∧ (k
      = pre.sum) ∧ (s.bookSize ≤ s.bookFill - k + g.length) ∧ (s.bookFill - k - m + g.length < s.bookSize))
    ∧ (∃ (s : State) (g : List Rec) (rest : List (List Rec)), (s.coreUp = true) ∧ (s.book.q = g :: rest) ∧ (s.datUp (finMod
      2 ((g.headD 0).datum / 4)) = true) ∧ (s.rb Block.fieldbook 0 0 31 = true) ∧ (s.rb Block.fieldbook 0 0 30 = true)
      ∧ (s.bookFits (g.length + if 0 < s.book.lost then 1 else 0) = false))
    ∧ (∃ (s : State) (g : List Rec) (rest : List (List Rec)), (s.coreUp = true) ∧ (s.book.q = g :: rest) ∧ (s.datUp (finMod
      2 ((g.headD 0).datum / 4)) = true) ∧ (s.rb Block.fieldbook 0 0 31 = true) ∧ (s.rb Block.fieldbook 0 0 30 = true)
      ∧ (0 < s.book.lost) ∧ (s.bookFits (g.length + 1) = true))
    ∧ (∃ (b : Book), (0 < b.lost) ∧ (b.lost < 2 ^ 32))
    ∧ (∃ (s : State) (p : Path) (v : Word), (s.keeps p Block.fieldbook 0 4 = true) ∧ (s.rb Block.fieldbook 0 0 31 = false) ∧
      (BitVec.toNat v % 65536 = 0) ∧ (s.bookSize % 4096 = 0) ∧ (4096 ≤ s.bookSize) ∧ (s.bookSize ≤ 5242880) ∧
      (BitVec.toNat v + 16 * s.bookSize ≤ 80 * 2 ^ 20))
    ∧ (∃ (s : State) (p : Path), (s.keeps p Block.fieldbook 0 8 = true) ∧ (s.rb Block.fieldbook 0 0 31 = true))
    ∧ (∃ (s : State) (p : Path) (v : Word), (p = ownerPath (s.rf Block.fieldbook 0 0 29 28)) ∧ (s.reaches p Block.fieldbook
      0 16 = true) ∧ (s.rb Block.fieldbook 0 128 31 = false) ∧ (BitVec.toNat v < s.bookSize) ∧ ((BitVec.toNat v +
      s.bookSize - s.bookRd) % s.bookSize ≤ s.bookFill))
    ∧ (∃ (s : State) (n : ℕ) (b : Batch), (b = State.takeBatch n s s.bookRd s.book.groups s.hostRoom) ∧ (s.coreUp = true) ∧
      (s.drainPaused = false) ∧ (s.book.drainErr = false) ∧ (n ≠ 0) ∧ (s.book.groups ≠ []) ∧ (b.groups ≠ 0))
    ∧ (∃ (s : State), (s.coreUp = true) ∧ (s.book.unsig ≠ 0) ∧ (s.rf Block.fieldbook 0 132 15 0 ≤ usOfTicks (BitVec.toNat
      s.tick - BitVec.toNat s.book.unsigAt)))
    ∧ (∃ (s : State) (p : Path), (s.keeps p Block.fieldbook 0 128 = true))
    ∧ (∃ (s : State) (p : Path), (p = fnPath s.drainFunc) ∧ (s.reaches p Block.fieldbook 0 160 = true))
    ∧ (∃ (s : State) (p : Path), (s.reaches p Block.fieldbook 0 160 = true) ∧ (p ≠ fnPath s.drainFunc)) :=
  ⟨⟨((bookUp.modBook fun b => { b with q := [[rec]] })), [rec], [], by decide +kernel⟩,
   ⟨((up.modBook fun b => { b with q := [[rec]] }).wr .fieldbook 0 0 0), [rec], [], by decide +kernel⟩,
   ⟨(({ (up.wr .fieldbook 0 8 4096).wr .fieldbook 0 0x0C 4095 with pending := [] }).modBook fun b => { b with q := [[rec]], groups := [4095] }), [rec], [], [], [], 4095, 0, by decide +kernel⟩,
   ⟨((((up.wr .fieldbook 0 8 4096).wr .fieldbook 0 0 0xC0000000).wr .fieldbook 0 0x0C 4095).modBook fun b => { b with q := [[rec]] }), [rec], [], by decide +kernel⟩,
   ⟨(((up.wr .fieldbook 0 8 4096).wr .fieldbook 0 0 0xC0000000).modBook fun b => { b with q := [[rec]], lost := 3 }), [rec], [], by decide +kernel⟩,
   ⟨{ up.book with lost := 1 }, by decide +kernel⟩,
   ⟨((up.wr .fieldbook 0 8 0x1000).wr .fieldbook 0 0 0), Path.f1, 0x10000, by decide +kernel⟩,
   ⟨up, Path.f1, by decide +kernel⟩,
   ⟨up, _, 0, rfl, by decide +kernel⟩,
   ⟨drainUp, 1, _, rfl, by decide +kernel⟩,
   ⟨(up.modBook fun b => { b with unsig := 1 }), by decide +kernel⟩,
   ⟨up, Path.f1, by decide +kernel⟩,
   ⟨up, _, rfl, by decide +kernel⟩,
   ⟨up, Path.f1, by decide +kernel⟩⟩

/-- The clauses of `Obligations.HoldingsSnapshotAndIndirect` can be met. -/
theorem witness_HoldingsSnapshotAndIndirect :
    (∃ (s : State) (p : Path) (u : Fin 32), (s.reaches p Block.stats (↑u : ℕ) 16 = true))
    ∧ (∃ (s : State) (p : Path), (s.keeps p Block.access 0 16 = true) ∧ (s.boot.mode = Mode.service))
    ∧ (∃ (s : State) (p : Path), (s.keeps p Block.access 0 16 = true) ∧ (s.boot.mode ≠ Mode.service))
    ∧ (∃ (s : State) (p : Path), (s.reaches p Block.access 0 4 = true) ∧ ((s.path p).indBusy = none))
    ∧ (∃ (s : State) (p : Path), (s.reaches p Block.access 0 4 = true) ∧ ((s.path p).indBusy.isSome = true))
    ∧ (∃ (s : State) (p : Path) (a : Word) (v : Word), (s.carries p = true) ∧ ((s.path p).indBusy = some (a, v)) ∧
      (BitVec.toNat a < 65536))
    ∧ (∃ (s : State) (p : Path) (a : Word) (v : Word) (x : ℕ), (s.carries p = true) ∧ ((s.path p).indBusy = some (a, v)) ∧
      (BitVec.toNat a = 34078720 + x) ∧ (x < 524288) ∧ (x % 4 = 0) ∧ (s.keeper p = true) ∧ (s.protection = 2) ∧
      (s.arch.badIn (524288 + x) 4 = false))
    ∧ (∃ (s : State) (p : Path) (a : Word) (v : Word) (x : ℕ), (s.carries p = true) ∧ ((s.path p).indBusy = some (a, v)) ∧
      (BitVec.toNat a = 34078720 + x) ∧ (x < 524288) ∧ (x % 4 = 0) ∧ (s.keeper p = true) ∧ (s.protection = 2) ∧
      (s.arch.badIn (524288 + x) 4 = true))
    ∧ (∃ (s : State) (p : Path), (s.carries p = true) ∧ ((s.path p).indBusy = none) ∧ (BitVec.toNat (s.path p).indAddr <
      65536))
    ∧ (∃ (s : State) (p : Path) (x : ℕ), (s.carries p = true) ∧ ((s.path p).indBusy = none) ∧ (BitVec.toNat (s.path
      p).indAddr = 34078720 + x) ∧ (x < 1572864) ∧ (x % 4 = 0) ∧ (s.arch.badIn (524288 + x) 4 = false))
    ∧ (∃ (s : State) (p : Path) (src : Fin 96) (off : ℕ), (s.carries p = true) ∧ ((s.path p).indBusy = none) ∧ (off ∈ [8,
      12, 16, 20, 24, 28, 32, 36, 40]) ∧ (BitVec.toNat (s.path p).indAddr = 65536 + 64 * (↑src : ℕ) + off) ∧
      (s.placeDown (Place.mk Block.mon (↑src : ℕ) off) = false) ∧ (s.keeper p = true) ∧ ((s.path
      p).snapView = false)) :=
  ⟨⟨up, Path.f1, 0, by decide +kernel⟩,
   ⟨up, Path.f1, by decide +kernel⟩,
   ⟨(up.modBoot fun b => { b with mode := .test }), Path.f1, by decide +kernel⟩,
   ⟨up, Path.f1, by decide +kernel⟩,
   ⟨(up.modPath .f1 fun p => { p with indBusy := some (0, 0) }), Path.f1, by decide +kernel⟩,
   ⟨(up.modPath .f1 fun p => { p with indBusy := some (5, 0) }), Path.f1, 5, 0, by decide +kernel⟩,
   ⟨(up.modPath .f1 fun p => { p with indBusy := some (0x02080000 + 524284, 7) }), Path.f1, (0x02080000 + 524284), 7, 524284, by decide +kernel⟩,
   ⟨({ up with arch := { up.arch with bad := [0x1FFFF] } }.modPath .f1 fun p => { p with indBusy := some (0x02080000 + 524284, 7) }), Path.f1, (0x02080000 + 524284), 7, 524284, by decide +kernel⟩,
   ⟨up, Path.f1, by decide +kernel⟩,
   ⟨(up.modPath .f1 fun p => { p with indAddr := 0x2080000 }), Path.f1, 0, by decide +kernel⟩,
   ⟨(up.modPath .f1 fun p => { p with indAddr := 0x10008 }), Path.f1, 0, 8, by decide +kernel⟩⟩

/-- The clauses of `Obligations.HoldoverAndTwins` can be met. -/
theorem witness_HoldoverAndTwins :
    (∃ (s : State) (n : Fin 16) (a : SecAcc), (s.coreUp = true) ∧ (s.loopIsland n = true) ∧ (s.loops[n].secReady = some a)
      ∧ (s.loops[n].code.holds = true))
    ∧ (∃ (s : State) (n : Fin 16), (s.coreUp = true) ∧ (s.loopIsland n = true) ∧ (s.loops[n].code.holds = true) ∧
      (s.loops[n].tally.now26 - s.loops[n].hoAt ≥ ((((s.loops[n].hoTau + 1) * secNs * 2 ^ 26) : ℕ) : ℤ)))
    ∧ (∃ (s : State) (n : Fin 16), (s.coreUp = true) ∧ (s.loopIsland n = true) ∧ (s.loops[n].code = LoopCode.holdover) ∧
      (s.loops[n].expired s.oven.modelA = true))
    ∧ (∃ (s : State) (n : Fin 16) (a : SecAcc) (rest : List (ℤ × ℤ)), (s.coreUp = true) ∧ (s.loopIsland n = true) ∧
      (s.loops[n].secReady = some a) ∧ (s.loops[n].code.holds = false) ∧ (BitVec.toNat s.boot.sheet.modelLoop = (↑n :
      ℕ)) ∧ (s.oven.blockN = 1023) ∧ (s.oven.blockDone = rest))
    ∧ (∃ (s : State) (b : ℤ × ℤ) (rest : List (ℤ × ℤ)), (s.coreUp = true) ∧ (s.oven.blockDone = b :: rest) ∧ (s.rf
      Block.archive 0 0 31 30 ≠ 3))
    ∧ (∃ (s : State) (b : ℤ × ℤ) (rest : List (ℤ × ℤ)), (s.coreUp = true) ∧ (s.oven.blockDone = b :: rest) ∧ (s.rf
      Block.archive 0 0 31 30 = 3))
    ∧ (∃ (s : State) (p : Path), (s.keeps p Block.device 0 8 = true))
    ∧ (∃ (s : State) (p : Path) (n : Fin 16), (s.keeps p Block.loop (↑n : ℕ) 0 = true) ∧ (s.loopEn n = true) ∧ (s.loopEn
      (twinOf n) = true) ∧ (s.rb Block.loop (↑n : ℕ) 0 17 = false) ∧ (s.rb Block.loop (↑(twinOf n) : ℕ) 0 17 = true) ∧
      (s.loops[n].role = TwinRole.solo) ∧ (s.loops[twinOf n].role = TwinRole.solo) ∧ (s.overBudget (twinOf (if
      s.loops[if (↑n : ℕ) % 2 = 0 then n else twinOf n].enAfter = true then twinOf (if (↑n : ℕ) % 2 = 0 then n else
      twinOf n) else if (↑n : ℕ) % 2 = 0 then n else twinOf n)) (s.rf Block.loop (↑(if s.loops[if (↑n : ℕ) % 2 = 0
      then n else twinOf n].enAfter = true then twinOf (if (↑n : ℕ) % 2 = 0 then n else twinOf n) else if (↑n : ℕ) % 2
      = 0 then n else twinOf n) : ℕ) 28 19 0) = false))
    ∧ (∃ (s : State) (p : Path) (n : Fin 16), (s.keeps p Block.loop (↑n : ℕ) 0 = true) ∧ (s.rb Block.loop (↑n : ℕ) 0 17 =
      true) ∧ (s.loops[n].role ≠ TwinRole.solo))
    ∧ (∃ (s : State) (p : Path) (n : Fin 16), (s.keeps p Block.loop (↑n : ℕ) 24 = true) ∧ (s.loops[n].role =
      TwinRole.primary) ∧ (s.loops[n].sw = none) ∧ (s.twinReady n = true)) :=
  ⟨⟨(up.modLoop 0 fun l => { l with code := .holdover, secReady := some SecAcc.reset }), 0, SecAcc.reset, by decide +kernel⟩,
   ⟨(up.modLoop 0 fun l => { l with code := .holdover, hoAt := -(2 ^ 26 * 1000000000) }), 0, by decide +kernel⟩,
   ⟨(up.modLoop 0 fun l => { l with code := .holdover, hoTau := 0x15180 }), 0, by decide +kernel⟩,
   ⟨(((up.modLoop 0 fun l => { l with secReady := some SecAcc.reset }).modOven fun o => { o with blockN := 1023 }).modBoot fun b => { b with sheet := { b.sheet with modelLoop := 0 } }), 0, SecAcc.reset, [], by decide +kernel⟩,
   ⟨(up.modOven fun o => { o with blockDone := [(1, 2)] }), (1, 2), [], by decide +kernel⟩,
   ⟨((up.modOven fun o => { o with blockDone := [(1, 2)] }).wr .archive 0 0 0xC0000000), (1, 2), [], by decide +kernel⟩,
   ⟨up, Path.f1, by decide +kernel⟩,
   ⟨((up.wr .loop 0 0 0x80000000).wr .loop 1 0 0x80020000), Path.f1, 0, by decide +kernel⟩,
   ⟨((up.wr .loop 1 0 0x80020000).modLoop 1 fun l => { l with role := .standby }), Path.f1, 1, by decide +kernel⟩,
   ⟨((up.modLoop 0 fun l => { l with role := .primary }).modLoop 1 fun l => { l with role := .standby, tolRun := 16 }), Path.f1, 0, by decide +kernel⟩⟩

/-- The clauses of `Obligations.HostMemoryAndPcie` can be met. -/
theorem witness_HostMemoryAndPcie :
    (∃ (s : State) (f : Fin 2), (s.carries (fnPath f) = true) ∧ (s.tooEarly (fnPath f) = true))
    ∧ (∃ (s : State) (f : Fin 2) (off : BitVec 27) (bs : List (Option Byte)), (s.carries (fnPath f) = true) ∧ (s.tooEarly
      (fnPath f) = false) ∧ (∃ i < bs.length, bar2Writable f (off.toNat + i) = false))
    ∧ (∃ (s : State) (f : Fin 2) (off : BitVec 27) (bs : List (Option Byte)) (l : List Byte), (s.carries (fnPath f) = true)
      ∧ (s.tooEarly (fnPath f) = false) ∧ (bs = List.map some l) ∧ (l.length = 8) ∧ (off.toNat % 8 = 0) ∧ (∀ i < 8,
      bar2Writable f (off.toNat + i) = true))
    ∧ (∃ (s : State) (f : Fin 2) (off : BitVec 27), (s.carries (fnPath f) = true) ∧ (off.toNat % 8 = 0) ∧ (off.toNat + 8 ≤
      100663296) ∧ (s.mem.flaw (s.mem.phys off.toNat / 8) = 0))
    ∧ (∃ (s : State) (f : Fin 2) (off : BitVec 27), (s.carries (fnPath f) = true) ∧ (off.toNat % 8 = 0) ∧ (100663296 ≤
      off.toNat))
    ∧ (∃ (s : State) (f : Fin 2) (sp : BitVec 3) (w : BitVec 4), (s.carries (fnPath f) = true) ∧ (1 ≤ sp.toNat) ∧ (sp.toNat
      ≤ 4) ∧ (w = 1 ∨ w = 2))
    ∧ (∃ (s : State) (f : Fin 2) (v : Fin 32), (s.carries (fnPath f) = true) ∧ (s.tooEarly (fnPath f) = false) ∧
      (s.funcs[f].msixEn = true) ∧ (s.funcs[f].funcMask = false) ∧ (s.funcs[f].busMaster = true) ∧ (bitOf
      s.funcs[f].pba (↑v : ℕ) = true))
    ∧ (∃ (s : State) (f : Fin 2), (s.carries (fnPath f) = true) ∧ (s.tooEarly (fnPath f) = false) ∧ (s.funcs[f].msixEn =
      false ∨ s.funcs[f].funcMask = true ∨ s.funcs[f].busMaster = false)) :=
  ⟨⟨(up.modBoot fun b => { b with sheetDone := false }), 0, by decide +kernel⟩,
   ⟨up, 0, 0, ([some 0]), by decide +kernel⟩,
   ⟨up, 0, 0x5D00000, _, ([1,2,3,4,5,6,7,8]), by decide +kernel, by decide +kernel, rfl, by decide +kernel⟩,
   ⟨up, 0, 0, by decide +kernel⟩,
   ⟨up, 0, 0x6000000, by decide +kernel⟩,
   ⟨up, 0, 4, 2, by decide +kernel⟩,
   ⟨({ up with funcs := up.funcs.set 1 { Func.reset with busMaster := true, msixEn := true, mask := 0xFFFFFFFF, pba := 1 } }), 1, 0, by decide +kernel⟩,
   ⟨up, 1, by decide +kernel⟩⟩

/-- The clauses of `Obligations.LockSequences` can be met. -/
theorem witness_LockSequences :
    (∃ (s : State) (y : Fin 9), (s.coreUp = true) ∧ ((↑y : ℕ) < 8) ∧ (s.syns[y].phase ≠ SynPhase.locking) ∧
      (s.syns[y].phase ≠ SynPhase.short) ∧ (s.syns[y].phase ≠ SynPhase.holding) ∧ (s.canLock y = true) ∧ (s.synRetired
      y = false))
    ∧ (∃ (s : State) (y : Fin 9), (s.coreUp = true) ∧ ((↑y : ℕ) < 8) ∧ (s.syns[y].phase = SynPhase.locking) ∧
      (s.oven.oscLost = false))
    ∧ (∃ (s : State) (y : Fin 9), (s.coreUp = true) ∧ (s.syns[y].phase = SynPhase.locked) ∧ (s.syns[y].seqOn = true))
    ∧ (∃ (s : State) (y : Fin 9), (s.coreUp = true) ∧ (s.syns[y].phase = SynPhase.failed) ∧ (s.canLock y = true) ∧
      (s.synRetired y = false) ∧ ((↑y : ℕ) = 8 ∨ s.passed s.syns[y].lolAt msTicks = true))
    ∧ (∃ (s : State) (p : Path) (y : Fin 9), (s.keeps p Block.synth (↑y : ℕ) 8 = true) ∧ ((↑y : ℕ) < 8) ∧ (s.insvc y = true)
      ∧ (s.syns[y].phase ≠ SynPhase.holding) ∧ (s.synRetired y = false) ∧ (s.oven.oscLost = false))
    ∧ (∃ (s : State) (p : Path), (s.keeps p Block.synth 8 8 = true) ∧ (s.syns[8].phase = SynPhase.locked)) :=
  ⟨⟨((up.wr .synth 0 0x20 0x80000000).modSyn 0 fun q => { q with phase := .off }), 0, by decide +kernel⟩,
   ⟨((up.modSyn 0 fun q => { q with phase := .locking })), 0, by decide +kernel⟩,
   ⟨(up.modSyn 0 fun q => { q with seqOn := true }), 0, by decide +kernel⟩,
   ⟨((up.wr .synth 0 0x20 0x80000000).modSyn 0 fun q => { q with phase := .failed }), 0, by decide +kernel⟩,
   ⟨(up.wr .synth 0 0x20 0x80000000), Path.f1, 0, by decide +kernel⟩,
   ⟨up, .f1, by decide +kernel⟩⟩

/-- The clauses of `Obligations.LoopEnableFreeAndRegisters` can be met. -/
theorem witness_LoopEnableFreeAndRegisters :
    (∃ (s : State) (p : Path) (n : Fin 16), (s.keeps p Block.loop (↑n : ℕ) 0 = true) ∧ (s.loopEn n = false) ∧ (s.rb
      Block.loop (↑n : ℕ) 0 17 = false))
    ∧ (∃ (s : State) (p : Path) (n : Fin 16), (s.keeps p Block.loop (↑n : ℕ) 0 = true) ∧ (s.loopEn n = true) ∧ (s.rb
      Block.loop (↑n : ℕ) 0 17 = false) ∧ (s.loops[n].role = TwinRole.solo))
    ∧ (∃ (s : State) (p : Path) (n : Fin 16) (d : BitVec 4) (y : BitVec 4), (s.keeps p Block.loop (↑n : ℕ) 0 = true) ∧ (s.rb
      Block.loop (↑n : ℕ) 0 17 = false) ∧ (s.loops[n].role = TwinRole.solo) ∧ (∀ (m : Fin 16), m ≠ n → (d.toNat < 8 →
      s.rf Block.loop (↑m : ℕ) 0 27 24 ≠ d.toNat) ∧ (y.toNat < 8 → s.rf Block.loop (↑m : ℕ) 0 23 20 ≠ y.toNat)))
    ∧ (∃ (s : State) (p : Path) (n : Fin 16) (m : Fin 16) (d : BitVec 4) (y : BitVec 4), (s.keeps p Block.loop (↑n : ℕ) 0 =
      true) ∧ (s.rb Block.loop (↑n : ℕ) 0 17 = false) ∧ (m ≠ n) ∧ (d.toNat < 8 ∧ s.rf Block.loop (↑n : ℕ) 0 27 24 ≠
      d.toNat ∧ s.rf Block.loop (↑m : ℕ) 0 27 24 = d.toNat ∨ y.toNat < 8 ∧ s.rf Block.loop (↑n : ℕ) 0 23 20 ≠ y.toNat
      ∧ s.rf Block.loop (↑m : ℕ) 0 23 20 = y.toNat))
    ∧ (∃ (s : State) (p : Path) (n : Fin 16), (s.keeps p Block.loop (↑n : ℕ) 12 = true) ∧ (s.loops[n].role = TwinRole.solo))
    ∧ (∃ (s : State) (p : Path) (n : Fin 16) (v : Word), (s.keeps p Block.loop (↑n : ℕ) 28 = true) ∧ (s.loops[n].role =
      TwinRole.solo) ∧ (bitsOf v 19 0 ≠ 0) ∧ (bitsOf v 19 0 ≤ 1000000) ∧ (s.overBudget n (bitsOf v 19 0) = false))
    ∧ (∃ (s : State) (p : Path) (n : Fin 16) (v : Word), (s.keeps p Block.loop (↑n : ℕ) 28 = true) ∧ (bitsOf v 19 0 = 0 ∨
      1000000 < bitsOf v 19 0))
    ∧ (∃ (s : State) (p : Path) (n : Fin 16), (s.keeps p Block.loop (↑n : ℕ) 16 = true))
    ∧ (∃ (s : State) (p : Path) (n : Fin 16) (i : Fin 16) (v : Word), (s.keeps p Block.loop (↑n : ℕ) (144 + 4 * (↑i : ℕ)) =
      true) ∧ (bitsOf v 6 0 < 32) ∧ (s.loops[n].role ≠ TwinRole.standby) ∧ (s.loops[n].sw = none))
    ∧ (∃ (s : State) (p : Path) (n : Fin 16) (i : Fin 16) (v : Word), (s.keeps p Block.loop (↑n : ℕ) (144 + 4 * (↑i : ℕ)) =
      true) ∧ (bitsOf v 6 0 < 32) ∧ (s.loops[n].role = TwinRole.standby))
    ∧ (∃ (s : State) (p : Path) (n : Fin 16) (i : Fin 16) (v : Word) (w : Sw) (held : List (Fin 16 × Word)), (s.keeps p
      Block.loop (↑n : ℕ) (144 + 4 * (↑i : ℕ)) = true) ∧ (s.loops[n].sw = some w) ∧ (s.loops[n].role = TwinRole.solo)
      ∧ (bitsOf v 6 0 < 32) ∧ (held = s.loops[n].candHeld ++ [(i, mix 61567 0 v)]) ∧ (((s.listWith n held).any fun x
      => decide (x = some w.tgt)) = true))
    ∧ (∃ (s : State) (p : Path) (n : Fin 16) (i : Fin 16) (v : Word) (w : Sw) (held : List (Fin 16 × Word)), (s.keeps p
      Block.loop (↑n : ℕ) (144 + 4 * (↑i : ℕ)) = true) ∧ (s.loops[n].sw = some w) ∧ (s.loops[n].role = TwinRole.solo)
      ∧ (bitsOf v 6 0 < 32) ∧ (held = s.loops[n].candHeld ++ [(i, mix 61567 0 v)]) ∧ (((s.listWith n held).any fun x
      => decide (x = some w.tgt)) = false))
    ∧ (∃ (s : State) (p : Path) (n : Fin 16), (s.keeps p Block.loop (↑n : ℕ) 40 = true)) :=
  ⟨⟨up, Path.f1, 0, by decide +kernel⟩,
   ⟨(up.wr .loop 0 0 0x80000000), Path.f1, 0, by decide +kernel⟩,
   ⟨up, Path.f1, 0, 0, 0, by decide +kernel⟩,
   ⟨((up.wr .loop 0 0 0x0FF00000).wr .loop 1 0 0x0FF00000).wr .loop 1 0 0x03F00000, .f1, 0, 1, 3, 15, by decide +kernel⟩,
   ⟨up, Path.f1, 0, by decide +kernel⟩,
   ⟨up, Path.f1, 0, 1000000, by decide +kernel⟩,
   ⟨up, Path.f1, 0, 0, by decide +kernel⟩,
   ⟨up, Path.f1, 0, by decide +kernel⟩,
   ⟨up, Path.f1, 0, 0, 0, by decide +kernel⟩,
   ⟨((up.modLoop 0 fun l => { l with role := .standby }).modLoop 1 fun l => { l with role := .primary }), .f1, 0, 0, 0x80000000, by decide +kernel⟩,
   ⟨((up.wr .loop 0 0 0x80000000).modLoop 0 fun l => { l with code := .locked, sw := some ⟨0, .order, 0, [], false⟩ }), Path.f1, 0, 0, 0x80000000, (⟨0, .order, 0, [], false⟩), [(0, mix 61567 0 0x80000000)], by decide +kernel⟩,
   ⟨((up.wr .loop 0 0 0x80000000).modLoop 0 fun l => { l with code := .locked, sw := some ⟨1, .order, 0, [], false⟩ }), Path.f1, 0, 0, 0x80000000, (⟨1, .order, 0, [], false⟩), [(0, mix 61567 0 0x80000000)], by decide +kernel⟩,
   ⟨up, Path.f1, 0, by decide +kernel⟩⟩

/-- The clauses of `Obligations.LossOfLockAndOutputs` can be met. -/
theorem witness_LossOfLockAndOutputs :
    (∃ (s : State) (y : Fin 9), (s.coreUp = true) ∧ ((↑y : ℕ) < 8) ∧ (s.syns[y].phase = SynPhase.regain) ∧ (s.passed
      s.syns[y].lolAt 15625 = true))
    ∧ (∃ (s : State) (y : Fin 9) (band : BitVec 6), (s.coreUp = true) ∧ (s.syns[y].phase = SynPhase.short) ∧
      (((↑s.syns[y].band.toNat : ℤ) - (↑band.toNat : ℤ)).natAbs ≤ 1) ∧ (s.synRetired y = false) ∧ (s.oven.oscLost =
      false))
    ∧ (∃ (s : State) (o : Fin 48) (y : Fin 8) (f : ℕ) (g : ℕ) (base : ℤ), (s.coreUp = true) ∧ (s.outs[o] = OutSt.waiting) ∧
      (s.bankSrc[bankOf o] = some y) ∧ (s.outFreq (synIx y) (s.outDiv (↑(bankOf o) : ℕ) ((↑o : ℕ) % 4)) = (f, g)) ∧ (f
      ≠ 0) ∧ (g ≠ 0) ∧ (base = s.gridBase y (↑(bankOf o) : ℕ) ((↑o : ℕ) % 4) f g) ∧ (s.syns[synIx y].onGrid = false))
    ∧ (∃ (s : State) (o : Fin 48) (y : Fin 8) (f : ℕ) (g : ℕ) (base : ℤ) (m : ℤ), (s.coreUp = true) ∧ (s.outs[o] =
      OutSt.waiting) ∧ (s.bankSrc[bankOf o] = some y) ∧ (s.outFreq (synIx y) (s.outDiv (↑(bankOf o) : ℕ) ((↑o : ℕ) %
      4)) = (f, g)) ∧ (f ≠ 0) ∧ (g ≠ 0) ∧ (base = s.gridBase y (↑(bankOf o) : ℕ) ((↑o : ℕ) % 4) f g) ∧ (s.syns[synIx
      y].onGrid = true) ∧ ((m - 1) * ((secNs * 2 ^ 26 * g : ℕ) : ℤ) ≤ (s.gridTime y s.outFrom[o] - base) * (↑f : ℤ)) ∧
      ((s.gridTime y s.outFrom[o] - base) * (↑f : ℤ) < m * ((secNs * 2 ^ 26 * g : ℕ) : ℤ)) ∧ (m * ((secNs * 2 ^ 26 * g : ℕ) : ℤ) ≤ (s.gridTime y s.tick - base) * (↑f : ℤ)))
    ∧ (∃ (s : State) (o : Fin 48) (y : Fin 8) (f : ℕ) (g : ℕ) (base : ℤ) (m : ℤ), (s.coreUp = true) ∧ (s.outs[o] =
      OutSt.waiting) ∧ (s.bankSrc[bankOf o] = some y) ∧ (s.outFreq (synIx y) (s.outDiv (↑(bankOf o) : ℕ) ((↑o : ℕ) %
      4)) = (f, g)) ∧ (f ≠ 0) ∧ (g ≠ 0) ∧ (base = s.gridBase y (↑(bankOf o) : ℕ) ((↑o : ℕ) % 4) f g) ∧ (s.syns[synIx
      y].onGrid = true) ∧ ((m - 1) * ((secNs * 2 ^ 26 * g : ℕ) : ℤ) ≤ (s.gridTime y s.outFrom[o] - base) * (↑f : ℤ)) ∧
      ((s.gridTime y s.outFrom[o] - base) * (↑f : ℤ) < m * ((secNs * 2 ^ 26 * g : ℕ) : ℤ)) ∧ ((s.gridTime y s.tick -
      base) * (↑f : ℤ) < m * ((secNs * 2 ^ 26 * g : ℕ) : ℤ)))
    ∧ (∃ (s : State) (y : Fin 9) (slope : ℤ) (len : ℕ), (s.coreUp = true) ∧ (s.ticking = true) ∧ ((↑y : ℕ) < 8) ∧
      (BitVec.toNat s.tick % 256 = 0) ∧ (s.syns[y].cAt ≠ s.tick) ∧ (s.syns[y].phase = SynPhase.locked) ∧
      (s.syns[y].seqOn = false) ∧ (s.syns[y].contour = true) ∧ (s.syns[y].prof[s.syns[y].cseg]? = some (slope, len)) ∧
      (s.syns[y].cstep + 1 < len)) :=
  ⟨⟨(up.modSyn 0 fun q => { q with phase := .regain, lolAt := 0 }), 0, by decide +kernel⟩,
   ⟨(up.modSyn 0 fun q => { q with phase := .short }), 0, 1, by decide +kernel⟩,
   ⟨({ (up.wr .outbank 0 8 1000).wr .synth 0 0x28 1 with bankSrc := up.bankSrc.set 0 (some 0), outs := up.outs.set 0 .waiting, syns := up.syns.set 0 { up.syns[0] with onGrid := false } }), 0, 0, 85899345920000000, 562949953421312000, 0, by decide +kernel⟩,
   ⟨({ (up.wr .outbank 0 8 1000).wr .synth 0 0x28 1 with bankSrc := up.bankSrc.set 0 (some 0), outs := up.outs.set 0 .waiting }), 0, 0, 85899345920000000, 562949953421312000, 0, 1, by decide +kernel⟩,
   ⟨({ (up.wr .outbank 0 8 1000).wr .synth 0 0x28 1 with bankSrc := up.bankSrc.set 0 (some 0), outs := up.outs.set 0 .waiting, outFrom := up.outFrom.set 0 up.tick }), 0, 0, 85899345920000000, 562949953421312000, 0, 196, by decide +kernel⟩,
   ⟨((up.modSyn 0 fun q => { q with contour := true, prof := [(3, 2)], cAt := 0 })), 0, 3, 2, by decide +kernel⟩⟩

/-- The clauses of `Obligations.MailboxesAndDoorbells` can be met. -/
theorem witness_MailboxesAndDoorbells :
    (∃ (s : State) (p : Path) (m : Fin 16), (s.carries p = true) ∧ (s.postStatus p m = MbStatus.done))
    ∧ (∃ (s : State) (p : Path) (m : Fin 16), (s.carries p = true) ∧ (s.postStatus p m ≠ MbStatus.done) ∧ (p ≠ Path.sb))
    ∧ (∃ (s : State) (p : Path) (m : Fin 16), (s.carries p = true) ∧ (s.reaches p Block.mailbox (↑m : ℕ) 12 = true) ∧
      (s.mbReceiver m = pathCode p) ∧ (s.mboxes[m].slots ≠ []))
    ∧ (∃ (s : State) (p : Path) (m : Fin 16), (s.carries p = true) ∧ (s.reaches p Block.mailbox (↑m : ℕ) 12 = true) ∧
      (s.mbReceiver m ≠ pathCode p ∨ s.mboxes[m].slots = []))
    ∧ (∃ (s : State) (p : Path) (m : Fin 16), (s.carries p = true) ∧ (s.keeps p Block.mailbox (↑m : ℕ) 0 = true) ∧
      (s.mboxes[m].slots = []))
    ∧ (∃ (s : State) (p : Path) (m : Fin 16), (s.carries p = true) ∧ (s.keeps p Block.mailbox (↑m : ℕ) 0 = true) ∧
      (s.mboxes[m].slots ≠ []))
    ∧ (∃ (s : State) (p : Path) (i : Fin 32), (s.carries p = true) ∧ (s.tooEarly p = false) ∧ (bitsOf (s.r Block.access 0
      (256 + 4 * (↑i : ℕ))) 7 4 = pathCode p))
    ∧ (∃ (s : State) (p : Path) (i : Fin 32), (s.carries p = true) ∧ (s.tooEarly p = false) ∧ (bitsOf (s.r Block.access 0
      (256 + 4 * (↑i : ℕ))) 7 4 ≠ pathCode p))
    ∧ (∃ (s : State) (p : Path) (i : Fin 32), (s.carries p = true) ∧ (s.tooEarly p = false) ∧ (bitsOf (s.r Block.access 0
      (256 + 4 * (↑i : ℕ))) 3 0 = pathCode p) ∧ (p = Path.stw ∨ ∃ e, p = Path.eng e))
    ∧ (∃ (s : State) (p : Path) (i : Fin 32), (s.carries p = true) ∧ (s.tooEarly p = false) ∧ (bitsOf (s.r Block.access 0
      (512 + 4 * (↑i : ℕ))) 15 12 = pathCode p) ∧ (p = Path.stw ∨ ∃ e, p = Path.eng e))
    ∧ (∃ (s : State) (p : Path) (i : Fin 32), (s.carries p = true) ∧ (s.tooEarly p = false) ∧ (bitsOf (s.r Block.access 0
      (512 + 4 * (↑i : ℕ))) 15 12 ≠ pathCode p))
    ∧ (∃ (s : State) (p : Path) (i : Fin 32), (s.carries p = true) ∧ (s.tooEarly p = false) ∧ (bitsOf (s.r Block.access 0
      (512 + 4 * (↑i : ℕ))) 9 8 = pathCode p) ∧ (p ∈ [Path.f0, Path.f1, Path.sb]))
    ∧ (∃ (s : State) (p : Path) (i : Fin 32), (s.carries p = true) ∧ (s.tooEarly p = false) ∧ (bitsOf (s.r Block.access 0
      (512 + 4 * (↑i : ℕ))) 9 8 ≠ pathCode p)) :=
  ⟨⟨up, Path.f1, 0, by decide +kernel⟩,
   ⟨((up.wr .mailbox 0 0 0x21000000)), Path.f1, 0, by decide +kernel⟩,
   ⟨((up.wr .mailbox 0 0 0x11000000).modMbox 0 fun q => { q with slots := [List.replicate 64 0] }), Path.f1, 0, by decide +kernel⟩,
   ⟨up, Path.f1, 0, by decide +kernel⟩,
   ⟨up, Path.f1, 0, by decide +kernel⟩,
   ⟨((up.wr .mailbox 0 0 0x11000000).modMbox 0 fun q => { q with slots := [List.replicate 64 0] }), Path.f1, 0, by decide +kernel⟩,
   ⟨up, Path.f1, 0, by decide +kernel⟩,
   ⟨up, .f0, 0, by decide +kernel⟩,
   ⟨up, .stw, 0, by decide +kernel⟩,
   ⟨(up.wr .access 0 0x200 0x9000), (.eng 1), 0, by decide +kernel⟩,
   ⟨up, Path.f1, 0, by decide +kernel⟩,
   ⟨(up.wr .access 0 0x200 0x100), .f1, 0, by decide +kernel⟩,
   ⟨up, .stw, 0, by decide +kernel⟩⟩

/-- The clauses of `Obligations.MemoryIntegrity` can be met. -/
theorem witness_MemoryIntegrity :
    (∃ (s : State) (p : Fin 25) (l : Fin 24) (word : BitVec 19) (w : ℕ), (w = (↑p : ℕ) * 2 ^ 19 + word.toNat) ∧ (s.coreUp
      = true) ∧ (s.mem.logical p = some l) ∧ (packetBase ≤ (↑l : ℕ) * 2 ^ 22) ∧ (s.mem.flaw w = 0) ∧ (s.rb
      Block.memory 0 0 27 = true))
    ∧ (∃ (s : State) (p : Fin 25) (l : Fin 24) (word : BitVec 19) (w : ℕ), (w = (↑p : ℕ) * 2 ^ 19 + word.toNat) ∧ (s.coreUp
      = true) ∧ (s.mem.logical p = some l) ∧ (packetBase ≤ (↑l : ℕ) * 2 ^ 22) ∧ (s.mem.flaw w = 0) ∧ (s.rb
      Block.memory 0 0 27 = false))
    ∧ (∃ (s : State) (p : Fin 25), (s.coreUp = true) ∧ (s.mem.ceAt[p] < s.rf Block.memory 0 8 15 0))
    ∧ (∃ (s : State) (p : Fin 25), (s.coreUp = true) ∧ (s.rf Block.memory 0 8 15 0 ≤ s.mem.ceAt[p]) ∧ (s.mem.testBank = none
      ∨ s.mem.testBank = some p) ∧ (s.fm.blks[88].st ≠ BlkSt.testing) ∧ (s.fm.waiting.length < 64))
    ∧ (∃ (s : State) (p : Fin 25) (q : Fin 25), (s.coreUp = true) ∧ (s.rf Block.memory 0 8 15 0 ≤ s.mem.ceAt[p]) ∧
      (s.mem.testBank = some q) ∧ (q ≠ p) ∧ (p ∉ s.mem.bankWait))
    ∧ (∃ (s : State), (s.coreUp = true) ∧ (s.rb Block.memory 0 0 27 = true) ∧ (s.mem.spareUsed = false) ∧ (s.mem.mirror =
      none))
    ∧ (∃ (s : State) (p : Fin 25) (l : Fin 24), (s.coreUp = true) ∧ (s.mem.mirror = some p) ∧ (s.mem.retiring = true) ∧
      (s.mem.logical p = some l) ∧ (s.mem.wf = true))
    ∧ (∃ (s : State) (word : BitVec 18), (s.rb Block.archive 0 0 29 = true) ∧ (s.arch.badIn (8 * word.toNat) 8 = true))
    ∧ (∃ (s : State) (word : BitVec 18), (s.rb Block.archive 0 0 29 = true) ∧ (s.arch.badIn (8 * word.toNat) 8 = false))
    ∧ (∃ (s : State) (p : Path), (s.keeps p Block.archive 0 0 = true)) :=
  ⟨⟨(up.wr .memory 0 0 0x08000000), 21, 21, 0, _, rfl, by decide +kernel⟩,
   ⟨(up.wr .memory 0 0 0), 21, 21, 0, _, rfl, by decide +kernel⟩,
   ⟨up, 0, by decide +kernel⟩,
   ⟨({ up with mem := { up.mem with ceAt := Vector.replicate 25 0x10000 } }), 0, by decide +kernel⟩,
   ⟨({ up with mem := { up.mem with ceAt := Vector.replicate 25 0x10000, testBank := some 3 } }), 0, 3, by decide +kernel⟩,
   ⟨up, by decide +kernel⟩,
   ⟨({ up with mem := { up.mem with mirror := some 21, retiring := true } }), 21, 21, by decide +kernel⟩,
   ⟨{ up with arch := { up.arch with bad := [5] } }, 5, by decide +kernel⟩,
   ⟨up, 5, by decide +kernel⟩,
   ⟨up, Path.f1, by decide +kernel⟩⟩

/-- The clauses of `Obligations.ModuleBus` can be met. -/
theorem witness_ModuleBus :
    (∃ (s : State) (p : Fin 2) (start : State) (q : Path), (s.mbRuns p = true) ∧ (s.mbs[p].trav = none) ∧ (start =
      s.modMb p fun q =>
      { pstate := PState.traverse, line := q.line, pwren := q.pwren, pulses := q.pulses, arb := q.arb, trav := some { floor := 0, retried := false, attachSeen := false, found := [], fresh := [] }, travAgain := false, travOwed := false, fast := q.fast, travEnd := q.travEnd, riseAt := q.riseAt, recAt := q.recAt })
      ∧ (s.keeps q Block.modbus 0 (32 * (↑p : ℕ) + 12) = true))
    ∧ (∃ (s : State) (p : Fin 2) (start : State), (s.mbRuns p = true) ∧ (s.mbs[p].trav = none) ∧ (start = s.modMb p fun q
      =>
      { pstate := PState.traverse, line := q.line, pwren := q.pwren, pulses := q.pulses, arb := q.arb, trav := some { floor := 0, retried := false, attachSeen := false, found := [], fresh := [] }, travAgain := false, travOwed := false, fast := q.fast, travEnd := q.travEnd, riseAt := q.riseAt, recAt := q.recAt })
      ∧ (s.rf Block.modbus 0 (32 * (↑p : ℕ)) 15 0 ≠ 0) ∧ (s.since s.mbs[p].travEnd (s.rf Block.modbus 0 (32 * (↑p : ℕ))
      15 0 * secTicks) = true))
    ∧ (∃ (s : State) (p : Fin 2) (start : State), (s.mbRuns p = true) ∧ (s.mbs[p].trav = none) ∧ (start = s.modMb p fun q
      =>
      { pstate := PState.traverse, line := q.line, pwren := q.pwren, pulses := q.pulses, arb := q.arb, trav := some { floor := 0, retried := false, attachSeen := false, found := [], fresh := [] }, travAgain := false, travOwed := false, fast := q.fast, travEnd := q.travEnd, riseAt := q.riseAt, recAt := q.recAt })
      ∧ (s.mbs[p].travOwed = true) ∧ (s.since s.mbs[p].travEnd secTicks = true))
    ∧ (∃ (s : State) (p : Fin 2) (t0 : Trav), (s.mbRuns p = true) ∧ (s.mbs[p].trav = some t0) ∧ (s.mbBefore p = false) ∧
      (s.mbs[p].travAgain = false))
    ∧ (∃ (s : State) (p : Fin 2) (t0 : Trav) (id : BitVec 64) (i : Fin 64), (s.mbRuns p = true) ∧ (s.mbs[p].trav = some t0)
      ∧ (s.mbBefore p = false) ∧ (identOk id = true) ∧ (∀ (i : Fin 64), s.gaz[i].ident ≠ id) ∧ (s.gazIndex id = some
      i))
    ∧ (∃ (s : State) (p : Fin 2), (s.mbs[p].pstate = PState.recovering) ∧ (bitOf (s.mbCfgWord p) 28 = true) ∧
      (s.mbs[p].pwren = true) ∧ (s.mbs[p].line = false) ∧ (s.mbs[p].pulses < 3) ∧ (s.since s.mbs[p].recAt (10 *
      msTicks) = true))
    ∧ (∃ (s : State) (p : Fin 2), (s.mbs[p].pstate = PState.recovering) ∧ (bitOf (s.mbCfgWord p) 28 = true) ∧
      (s.mbs[p].pwren = false) ∧ (s.since s.mbs[p].recAt (100 * msTicks) = true))
    ∧ (∃ (s : State) (p : Fin 2), (s.mbs[p].pstate = PState.recovering) ∧ (bitOf (s.mbCfgWord p) 28 = true) ∧
      (s.mbs[p].pulses = 3) ∧ (s.mbs[p].pwren = true) ∧ (s.mbs[p].line = false) ∧ (s.since s.mbs[p].recAt (10 *
      msTicks) = true))
    ∧ (∃ (s : State) (p : Fin 2), (s.tickInv) ∧ (s.mbs[p].line = false))
    ∧ (∃ (s : State) (p : Fin 2), (s.mbs[p].line = true) ∧ (s.mbs[p].pstate = PState.recovering ∧ s.since s.mbs[p].riseAt
      (s.mbStop p) = true ∨ s.mbs[p].pstate = PState.isolated ∧ s.since s.mbs[p].riseAt secTicks = true) ∧ (bitOf
      (s.mbCfgWord p) 31 = true) ∧ (s.mbs[p].trav = none))
    ∧ (∃ (s : State) (p : Fin 2) (i : Fin 64) (reg : Byte) (d : List Byte), (s.xfer.entry = i) ∧ (s.xfer.reg = reg) ∧
      (s.mbRuns p = true) ∧ (s.gaz[i].valid = true) ∧ (s.gaz[i].port = decide ((↑p : ℕ) = 1)) ∧ (s.switchWaits p =
      false) ∧ (s.xfer.done = false) ∧ (s.xfer.len = d.length) ∧ (1 ≤ d.length) ∧ (d.length ≤ 32) ∧ (s.xfer.write =
      false))
    ∧ (∃ (s : State) (p : Fin 2) (i : Fin 64) (reg : Byte) (d : List Byte) (a : Byte), (s.xfer.entry = i) ∧ (s.xfer.reg =
      reg) ∧ (s.mbRuns p = true) ∧ (s.gaz[i].valid = true) ∧ (s.gaz[i].port = decide ((↑p : ℕ) = 1)) ∧ (s.switchWaits
      p = false) ∧ (s.xfer.done = false) ∧ (s.xfer.len = d.length) ∧ (1 ≤ d.length) ∧ (d.length ≤ 32) ∧ (s.xfer.write
      = true) ∧ (d = s.xferBytes d.length) ∧ (a ≠ 60) ∧ (a ≠ 255))
    ∧ (∃ (s : State) (p : Path) (v : Word) (i : Fin 64) (m : Fin 2), (s.keeps p Block.modbus 0 96 = true) ∧ (bitOf v 31 =
      true) ∧ ((↑i : ℕ) = bitsOf v 29 24) ∧ (m = s.gaz[i].mb) ∧ (s.xfer.done = false))
    ∧ (∃ (s : State) (p : Path) (v : Word) (i : Fin 64) (m : Fin 2), (s.keeps p Block.modbus 0 96 = true) ∧ (bitOf v 31 =
      true) ∧ ((↑i : ℕ) = bitsOf v 29 24) ∧ (m = s.gaz[i].mb) ∧ (s.xfer.done = true) ∧ (s.gaz[i].valid = true) ∧
      (s.mbRuns m = true))
    ∧ (∃ (s : State) (p : Path) (v : Word) (i : Fin 64) (m : Fin 2), (s.keeps p Block.modbus 0 96 = true) ∧ (bitOf v 31 =
      true) ∧ ((↑i : ℕ) = bitsOf v 29 24) ∧ (m = s.gaz[i].mb) ∧ (s.xfer.done = true) ∧ (s.gaz[i].valid = false))
    ∧ (∃ (s : State) (i : Fin 64), (s.ovenEntry = some i) ∧ (s.mbRuns s.gaz[i].mb = true) ∧ (s.switchWaits s.gaz[i].mb =
      false) ∧ (s.xferOn s.gaz[i].mb = false) ∧ (s.since s.oven.readAt secTicks = true) ∧ (s.oven.statusOwed = false))
    ∧ (∃ (s : State), (s.coreUp = true) ∧ (s.ovenEntry = none))
    ∧ (∃ (s : State), (s.coreUp = true) ∧ (s.ovenEntry.isSome = true))
    ∧ (∃ (s : State) (p : Fin 2) (floor : BitVec 64) (k : ℕ), (bitOf (s.mbCfgWord p) 31 = true) ∧ (bitOf (s.mbCfgWord p) 29
      = true) ∧ (floor.toNat < peerIdent.toNat) ∧ (k < 64) ∧ (peerIdent.getLsbD (63 - k) = true)) :=
  ⟨⟨mbUp, 0, _, .f1, by decide +kernel, by decide +kernel, rfl, by decide +kernel⟩,
   ⟨mbUp, 0, _, by decide +kernel, by decide +kernel, rfl, by decide +kernel⟩,
   ⟨(mbUp.modMb 0 fun q => { q with travOwed := true }), 0, _, by decide +kernel, by decide +kernel, rfl, by decide +kernel⟩,
   ⟨(mbUp.modMb 0 fun q => { q with trav := some ⟨0, false, false, [], []⟩ }), 0, (⟨0, false, false, [], []⟩), by decide +kernel⟩,
   ⟨(mbUp.modMb 0 fun q => { q with trav := some ⟨0, false, false, [], []⟩ }), 0, (⟨0, false, false, [], []⟩), (ident 1), 0, by decide +kernel⟩,
   ⟨(mbUp.modMb 0 fun q => { q with pstate := .recovering, line := false, pulses := 2 }), 0, by decide +kernel⟩,
   ⟨(mbUp.modMb 0 fun q => { q with pstate := .recovering, pwren := false }), 0, by decide +kernel⟩,
   ⟨(mbUp.modMb 0 fun q => { q with pstate := .recovering, line := false, pulses := 3 }), 0, by decide +kernel⟩,
   ⟨(mbUp.modMb 0 fun q => { q with line := false }), 0, by unfold State.tickInv; decide +kernel, by decide +kernel⟩,
   ⟨(mbUp.modMb 0 fun q => { q with pstate := .recovering }), 0, by decide +kernel⟩,
   ⟨(xferAt gazUp 1), 0, _, _, [9], rfl, rfl, by decide +kernel⟩,
   ⟨(xferAt gazUp 0x40000001), 0, _, _, [0], 7, rfl, rfl, by decide +kernel⟩,
   ⟨(xferAt gazUp 0), Path.f1, 0x80000000, 0, 0, by decide +kernel⟩,
   ⟨gazUp, Path.f1, 0x80000000, 0, 0, by decide +kernel⟩,
   ⟨mbUp, Path.f1, 0x80000000, 0, 0, by decide +kernel⟩,
   ⟨(gazUp.wr .modbus 0 0x40 0xFF), 0, by decide +kernel⟩,
   ⟨up, by decide +kernel⟩,
   ⟨(gazUp.wr .modbus 0 0x40 0xFF), by decide +kernel⟩,
   ⟨(mbUp.wr .modbus 0 0 0xA0000010), 0, 0, 21, by decide +kernel, by decide +kernel, peerIdent_pos, by decide, peerIdent_type⟩⟩

/-- The clauses of `Obligations.MonitorEventsAndAlarms` can be met. -/
theorem witness_MonitorEventsAndAlarms :
    (∃ (s : State) (n : Fin 16) (fall : Bool), (s.coreUp = true) ∧ (s.ticking = true) ∧ (s.refUp = true) ∧ (s.rf
      Block.refin (↑n : ℕ) 0 31 30 ≠ 3) ∧ (s.slots[refinSrc n].qstate ≠ QState.off) ∧ (s.rb Block.refin (↑n : ℕ) 0 29
      = fall) ∧ (s.slots[refinSrc n].preDiv ≠ 0))
    ∧ (∃ (s : State) (src : Fin 96), (s.coreUp = true) ∧ (s.ticking = true) ∧ (s.refUp = true) ∧ (16 ≤ (↑src : ℕ) ∧ (↑src :
      ℕ) < 32 ∨ 88 ≤ (↑src : ℕ)) ∧ (s.slots[src].qstate ≠ QState.off) ∧ (s.lossNow src = false))
    ∧ (∃ (s : State) (src : Fin 96) (a : ℤ × ℤ) (b : ℤ × ℤ), (s.coreUp = true) ∧ (s.refUp = true) ∧ (s.slots[src].gate =
      some a) ∧ (s.slots[src].gateEnd = some b))
    ∧ (∃ (s : State) (src : Fin 96) (x : ℤ), (s.coreUp = true) ∧ (s.refUp = true) ∧ (s.slots[src].phDone = some x))
    ∧ (∃ (s : State) (src : Fin 96), (s.coreUp = true) ∧ (s.refUp = true) ∧ (s.slots[src].qstate ≠ QState.off) ∧
      (s.slots[src].dcPend = true))
    ∧ (∃ (s : State) (n : Fin 16), (s.coreUp = true) ∧ (s.refUp = true) ∧ (s.rf Block.refin (↑n : ℕ) 0 31 30 = 0) ∧
      (s.slots[refinSrc n].qstate ≠ QState.off) ∧ (s.passed s.slots[refinSrc n].lastTr 800 = true))
    ∧ (∃ (s : State) (src : Fin 96), (s.coreUp = true) ∧ (s.refUp = true) ∧ (s.lossNow src = true) ∧ (s.slots[src].qstate ≠
      QState.off) ∧ (s.slots[src].los = false))
    ∧ (∃ (s : State) (src : Fin 96), (s.coreUp = true) ∧ (s.refUp = true) ∧ (s.slots[src].qstate ≠ QState.off) ∧ (s.missed
      src = true))
    ∧ (∃ (s : State) (src : Fin 96) (k : DWord), (s.coreUp = true) ∧ (s.refUp = true) ∧ (s.slots[src].phSetAt = some k) ∧
      (s.slots[src].phase = true) ∧ (s.passed k (s.slots[src].phCfg.hold * msTicks) = true)) :=
  ⟨⟨((up.wr .refin 0 0 0).modSlot 0 fun x => { x with qstate := .wait, preDiv := 2 }), 0, _, by decide +kernel, by decide +kernel, by decide +kernel, by decide +kernel, by decide +kernel, rfl, by decide +kernel⟩,
   ⟨((up.wr .synth 0 0x20 1).modSlot 88 fun x => { x with qstate := .wait }), 88, by decide +kernel⟩,
   ⟨(up.modSlot 0 fun x => { x with gate := some (1, 2), gateEnd := some (3, 4) }), 0, ((1, 2)), ((3, 4)), by decide +kernel⟩,
   ⟨(up.modSlot 0 fun x => { x with phDone := some 5 }), 0, 5, by decide +kernel⟩,
   ⟨(up.modSlot 0 fun x => { x with qstate := .wait, dcPend := true }), 0, by decide +kernel⟩,
   ⟨((up.wr .refin 0 0 0).modSlot 0 fun x => { x with qstate := .wait }), 0, by decide +kernel⟩,
   ⟨(up.modSlot 48 fun x => { x with qstate := .wait }), 48, by decide +kernel⟩,
   ⟨((up.wr .mon 0 0 1).modSlot 0 fun x => { x with qstate := .wait, last := some 0 }), 0, by decide +kernel⟩,
   ⟨(up.modSlot 0 fun x => { x with phase := true, phSetAt := some 0 }), 0, 0, by decide +kernel⟩⟩

/-- The clauses of `Obligations.NarrowWriteToABadWordIsDropped` can be met. -/
theorem witness_NarrowWriteToABadWordIsDropped :
    (∃ (s : State) (a : Nat) (bs : List (Option Byte)), (a % 8 = 0) ∧ (a < sramSize) ∧ (bs.length = 8) ∧
      (bs.any (·.isSome) = true) ∧ (bs.any (·.isNone) = true) ∧ (s.mem.flaw (s.mem.phys a / 8) = 0))
    ∧ (∃ (s : State) (a : Nat) (bs : List (Option Byte)), (a % 8 = 0) ∧ (a < sramSize) ∧ (bs.length = 8) ∧
      (bs.any (·.isSome) = true) ∧ (bs.any (·.isNone) = true) ∧ (s.mem.remap = Memory.reset.remap) ∧
      (a < noticeBase ∨ stewardBase ≤ a) ∧ (isPaged a = true) ∧ (s.mem.flaw (a / 8) ≠ 0) ∧
      (s.mem.pageFlaws (a / 1024) ≤ bchT (s.mem.tag (a / 1024)).toNat))
    ∧ (∃ (s : State) (a : Nat) (bs : List (Option Byte)), (a % 8 = 0) ∧ (a < sramSize) ∧ (bs.length = 8) ∧
      (bs.any (·.isSome) = true) ∧ (bs.any (·.isNone) = true) ∧ (s.mem.remap = Memory.reset.remap) ∧
      (a < noticeBase ∨ stewardBase ≤ a) ∧ (isPaged a = false) ∧ (s.mem.flaw (a / 8) = 1))
    ∧ (∃ (s : State) (a : Nat) (bs : List (Option Byte)), (a % 8 = 0) ∧ (a < sramSize) ∧ (bs.length = 8) ∧
      (bs.any (·.isSome) = true) ∧ (bs.any (·.isNone) = true) ∧
      (if isPaged a then s.mem.flaw (s.mem.phys a / 8) ≠ 0
          ∧ bchT (s.mem.tag (s.mem.phys a / 8 / 128)).toNat < s.mem.pageFlaws (s.mem.phys a / 8 / 128)
        else s.mem.flaw (s.mem.phys a / 8) = 2)) ∧
    (∃ (s : State) (f : Fin 2) (off : BitVec 27) (w : ℕ), (w = s.mem.phys off.toNat / 8) ∧ (s.carries (fnPath f) = true) ∧
      (s.tooEarly (fnPath f) = false) ∧ (bar2Writable f off.toNat = true) ∧ (s.mem.remap = Memory.reset.remap) ∧
      (s.mem.flaw w = 0))
    ∧ (∃ (s : State) (f : Fin 2) (off : BitVec 27) (w : ℕ), (w = s.mem.phys off.toNat / 8) ∧ (s.carries (fnPath f) = true) ∧
      (s.tooEarly (fnPath f) = false) ∧ (bar2Writable f off.toNat = true) ∧ (s.mem.remap = Memory.reset.remap) ∧
      (s.mem.flaw w = 2) ∧
      (isPaged off.toNat = true → bchT (s.mem.tag (w / 128)).toNat < s.mem.pageFlaws (w / 128))) ∧
    (∃ (s : State) (f : Fin 2) (off : BitVec 27) (w : ℕ), (w = s.mem.phys off.toNat / 8) ∧ (s.carries (fnPath f) = true) ∧
      (s.tooEarly (fnPath f) = false) ∧ (bar2Writable f off.toNat = true) ∧ (s.mem.remap = Memory.reset.remap) ∧
      (s.mem.flaw w = 2) ∧ (isPaged off.toNat = true) ∧
      (bchT (s.mem.tag (w / 128)).toNat < s.mem.pageFlaws (w / 128))) :=
  ⟨⟨up, 24 * 2 ^ 22 - 8, some 1 :: List.replicate 7 none, by decide +kernel⟩,
   ⟨({ up with mem := up.mem.setFlaw (0x5000000 / 8) 1 }), 0x5000000, none :: List.replicate 7 (some 1), by decide +kernel⟩,
   ⟨({ up with mem := up.mem.setFlaw (0x5D00000 / 8) 1 }), 0x5D00000, none :: List.replicate 7 (some 1), by decide +kernel⟩,
   ⟨({ up with mem := up.mem.setFlaw (0x5D00000 / 8) 2 }), 0x5D00000, none :: List.replicate 7 (some 1), by decide +kernel⟩,
   ⟨up, 0, 0x5D00000, _, rfl, by decide +kernel⟩,
   ⟨({ up with mem := up.mem.setFlaw (0x5D00000 / 8) 2 }), 0, 0x5D00000, _, rfl, by decide +kernel⟩,
   ⟨({ up with mem := (up.mem.setFlaw (0x5000000 / 8) 2).setFlaw (0x5000000 / 8 + 1) 9 }), 1, 0x5000000, _, rfl,
    by decide +kernel⟩⟩

/-- The clauses of `Obligations.NimyorAccumulators` can be met. -/
theorem witness_NimyorAccumulators :
    (∃ (c : Cpu) (v : ℕ) (y : ℕ), (y = c.rootOf v) ∧ (BitVec.toNat c.cw / 2 ^ 30 = 1 ∨ BitVec.toNat c.cw / 2 ^ 30 = 2))
    ∧ (∃ (c : Cpu) (v : ℕ) (y : ℕ), (y = c.rootOf v) ∧ (BitVec.toNat c.cw / 2 ^ 30 = 0 ∨ BitVec.toNat c.cw / 2 ^ 30 = 3) ∧
      (0 < y))
    ∧ (∃ (s : State) (t : Tgt) (c : Cpu) (ra : Fin 32) (rb : Fin 32) (d : Fin 4) (a : Fin 4) (b : Fin 4) (x : BitVec 8) (va
      : ℤ) (vb : ℤ) (e : Instr × ℤ) (r : BitVec 128), (s.cpuOf t = c) ∧ (r = BitVec.ofInt 128 (if BitVec.getLsbD c.cw
      29 = true then satS 128 e.2 else e.2)) ∧ (s.runsOn t = true) ∧ (x.toNat < 4 → va = if x.getLsbD 1 = true then
      (((BitVec.toNat c.g[ra]) : ℕ) : ℤ) else BitVec.toInt c.g[ra]) ∧ (x.toNat < 4 → vb = if x.getLsbD 0 = true then
      (((BitVec.toNat c.g[rb]) : ℕ) : ℤ) else BitVec.toInt c.g[rb]) ∧ (e ∈ ((if x.toNat < 4 then [(Instr.mula t d ra
      rb x, va * vb), (Instr.mac t d ra rb x, c.acc[d].toInt + va * vb), (Instr.msu t d ra rb x, c.acc[d].toInt - va *
      vb)] else []) ++ if x.toNat < 128 then [(Instr.acshl t d a x, c.acc[a].toInt * 2 ^ x.toNat)] else []) ++
      [(Instr.acadd t d a b, c.acc[a].toInt + c.acc[b].toInt), (Instr.acsub t d a b, c.acc[a].toInt - c.acc[b].toInt),
      (Instr.acneg t d a, -c.acc[a].toInt)]))
    ∧ (∃ (s : State) (t : Tgt) (c : Cpu) (ra : Fin 32) (rb : Fin 32) (x : BitVec 8) (va : ℤ) (vb : ℤ) (r : BitVec 128),
      (s.cpuOf t = c) ∧ (r = BitVec.ofInt 128 (BitVec.toInt c.g[ra] * 2 ^ x.toNat)) ∧ (s.runsOn t = true) ∧ (x.toNat <
      4 → va = if x.getLsbD 1 = true then (((BitVec.toNat c.g[ra]) : ℕ) : ℤ) else BitVec.toInt c.g[ra]) ∧ (x.toNat < 4
      → vb = if x.getLsbD 0 = true then (((BitVec.toNat c.g[rb]) : ℕ) : ℤ) else BitVec.toInt c.g[rb]) ∧ (x.toNat ≤
      64))
    ∧ (∃ (s : State) (t : Tgt) (c : Cpu) (ra : Fin 32) (rb : Fin 32) (a : Fin 4) (x : BitVec 8) (va : ℤ) (vb : ℤ) (r :
      BitVec 128), (s.cpuOf t = c) ∧ (r = BitVec.ofInt 128 (c.rnd c.acc[a].toInt (2 ^ x.toNat))) ∧ (s.runsOn t = true)
      ∧ (x.toNat < 4 → va = if x.getLsbD 1 = true then (((BitVec.toNat c.g[ra]) : ℕ) : ℤ) else BitVec.toInt c.g[ra]) ∧
      (x.toNat < 4 → vb = if x.getLsbD 0 = true then (((BitVec.toNat c.g[rb]) : ℕ) : ℤ) else BitVec.toInt c.g[rb]) ∧
      (x.toNat < 128))
    ∧ (∃ (s : State) (t : Tgt) (c : Cpu) (ra : Fin 32) (rb : Fin 32) (a : Fin 4) (x : BitVec 8) (va : ℤ) (vb : ℤ) (y : ℤ) (r
      : DWord), (s.cpuOf t = c) ∧ (y = c.rnd c.acc[a].toInt (2 ^ x.toNat)) ∧ (r = BitVec.ofInt 64 (satS 64 y)) ∧
      (s.runsOn t = true) ∧ (x.toNat < 4 → va = if x.getLsbD 1 = true then (((BitVec.toNat c.g[ra]) : ℕ) : ℤ) else
      BitVec.toInt c.g[ra]) ∧ (x.toNat < 4 → vb = if x.getLsbD 0 = true then (((BitVec.toNat c.g[rb]) : ℕ) : ℤ) else
      BitVec.toInt c.g[rb]) ∧ (x.toNat < 128))
    ∧ (∃ (s : State) (t : Tgt) (c : Cpu) (ra : Fin 32) (rb : Fin 32) (a : Fin 4) (x : BitVec 8) (va : ℤ) (vb : ℤ), (s.cpuOf
      t = c) ∧ (s.runsOn t = true) ∧ (x.toNat < 4 → va = if x.getLsbD 1 = true then (((BitVec.toNat c.g[ra]) : ℕ) : ℤ)
      else BitVec.toInt c.g[ra]) ∧ (x.toNat < 4 → vb = if x.getLsbD 0 = true then (((BitVec.toNat c.g[rb]) : ℕ) : ℤ)
      else BitVec.toInt c.g[rb]) ∧ (c.acc[a].toInt < 0))
    ∧ (∃ (s : State) (t : Tgt) (c : Cpu) (ra : Fin 32) (rb : Fin 32) (a : Fin 4) (x : BitVec 8) (va : ℤ) (vb : ℤ) (r :
      DWord), (s.cpuOf t = c) ∧ (r = BitVec.ofNat 64 (c.rootOf c.acc[a].toInt.toNat)) ∧ (s.runsOn t = true) ∧ (x.toNat
      < 4 → va = if x.getLsbD 1 = true then (((BitVec.toNat c.g[ra]) : ℕ) : ℤ) else BitVec.toInt c.g[ra]) ∧ (x.toNat <
      4 → vb = if x.getLsbD 0 = true then (((BitVec.toNat c.g[rb]) : ℕ) : ℤ) else BitVec.toInt c.g[rb]) ∧ (0 ≤
      c.acc[a].toInt)) :=
  ⟨⟨{ cpu with cw := 0x40000000 }, 15, 3, by decide +kernel⟩,
   ⟨cpu, 15, 4, by decide +kernel⟩,
   ⟨up, (.eng 0), _, 2, 3, 1, 0, 0, 0, 66, 67, ((.mac (.eng 0) 1 2 3 0, 66 * 67)), _, rfl, rfl, by decide +kernel⟩,
   ⟨up, (Tgt.eng 0), _, 2, 3, 64, 66, 67, _, rfl, rfl, by decide +kernel⟩,
   ⟨up, (Tgt.eng 0), _, 0, 0, 0, 127, 0, 0, _, rfl, rfl, by decide +kernel⟩,
   ⟨up, (Tgt.eng 0), _, 0, 0, 0, 127, 0, 0, _, _, rfl, rfl, rfl, by decide +kernel⟩,
   ⟨(up.modEng 0 fun g => { g with cpu := { g.cpu with acc := g.cpu.acc.set 0 (-1) } }), (Tgt.eng 0), _, 0, 0, 0, 4, 0, 0, rfl, by decide +kernel⟩,
   ⟨(up.modEng 0 fun g => { g with cpu := { g.cpu with acc := g.cpu.acc.set 0 17 } }), (Tgt.eng 0), _, 0, 0, 0, 4, 0, 0, _, rfl, rfl, by decide +kernel⟩⟩

/-- The clauses of `Obligations.NimyorArithmetic` can be met. -/
theorem witness_NimyorArithmetic :
    (∃ (s : State) (t : Tgt) (c : Cpu) (rd : Fin 32) (ra : Fin 32) (rb : Fin 32) (imm : BitVec 14) (a : DWord) (b : DWord)
      (e : Instr × DWord × ℕ), (s.cpuOf t = c) ∧ (c.g[ra] = a) ∧ (c.g[rb] = b) ∧ (s.runsOn t = true) ∧ (e ∈
      [(Instr.add t rd ra rb, b, 0), (Instr.adc t rd ra rb, b, b2n (c.flag 2)), (Instr.addi t rd ra imm,
      BitVec.signExtend 64 imm, 0)]))
    ∧ (∃ (s : State) (t : Tgt) (c : Cpu) (rd : Fin 32) (ra : Fin 32) (rb : Fin 32) (imm : BitVec 14) (a : DWord) (b : DWord)
      (e : Instr × Option (Fin 32) × DWord × DWord × ℕ), (s.cpuOf t = c) ∧ (c.g[ra] = a) ∧ (c.g[rb] = b) ∧ (s.runsOn t
      = true) ∧ (e ∈ [(Instr.sub t rd ra rb, some rd, a, b, 0), (Instr.sbb t rd ra rb, some rd, a, b, b2n (c.flag 2)),
      (Instr.neg t rd ra, some rd, 0, a, 0), (Instr.cmp t ra rb, none, a, b, 0), (Instr.cmpi t ra imm, none, a,
      BitVec.signExtend 64 imm, 0)]))
    ∧ (∃ (s : State) (t : Tgt) (c : Cpu) (rd : Fin 32) (ra : Fin 32) (rb : Fin 32) (a : DWord) (b : DWord) (e : Instr × ℤ),
      (s.cpuOf t = c) ∧ (c.g[ra] = a) ∧ (c.g[rb] = b) ∧ (s.runsOn t = true) ∧ (e ∈ [(Instr.adds t rd ra rb,
      BitVec.toInt a + BitVec.toInt b), (Instr.subs t rd ra rb, BitVec.toInt a - BitVec.toInt b), (Instr.negs t rd ra,
      -BitVec.toInt a), (Instr.abs t rd ra, (↑(BitVec.toInt a).natAbs : ℤ))]))
    ∧ (∃ (s : State) (t : Tgt) (c : Cpu) (rd : Fin 32) (ra : Fin 32) (rb : Fin 32) (imm : BitVec 14) (a : DWord) (b : DWord)
      (e : Instr × DWord), (s.cpuOf t = c) ∧ (c.g[ra] = a) ∧ (c.g[rb] = b) ∧ (s.runsOn t = true) ∧ (e ∈ [(Instr.min t
      rd ra rb, if BitVec.toInt a ≤ BitVec.toInt b then a else b), (Instr.max t rd ra rb, if BitVec.toInt b ≤
      BitVec.toInt a then a else b), (Instr.and t rd ra rb, a &&& b), (Instr.or t rd ra rb, a ||| b), (Instr.xor t rd
      ra rb, a ^^^ b), (Instr.andn t rd ra rb, a &&& ~~~b), (Instr.andi t rd ra imm, a &&& BitVec.zeroExtend 64 imm),
      (Instr.ori t rd ra imm, a ||| BitVec.zeroExtend 64 imm), (Instr.xori t rd ra imm, a ^^^ BitVec.zeroExtend 64
      imm)]))
    ∧ (∃ (s : State) (t : Tgt) (c : Cpu) (ra : Fin 32) (rb : Fin 32) (imm : BitVec 14) (a : DWord) (b : DWord) (e : Instr ×
      DWord), (s.cpuOf t = c) ∧ (c.g[ra] = a) ∧ (c.g[rb] = b) ∧ (s.runsOn t = true) ∧ (e ∈ [(Instr.tst t ra rb, a &&&
      b), (Instr.tsti t ra imm, a &&& BitVec.zeroExtend 64 imm)])) :=
  ⟨⟨up, (.eng 0), _, 3, 1, 2, 0, _, _, ((.add (.eng 0) 3 1 2, 66, 0)), rfl, rfl, rfl, by decide +kernel⟩,
   ⟨up, (.eng 0), _, 3, 1, 2, 0, _, _, ((.sub (.eng 0) 3 1 2, some 3, 65, 66, 0)), rfl, rfl, rfl, by decide +kernel⟩,
   ⟨up, (.eng 0), _, 3, 1, 2, _, _, ((.subs (.eng 0) 3 1 2, -1)), rfl, rfl, rfl, by decide +kernel⟩,
   ⟨up, (.eng 0), _, 3, 1, 2, 0, _, _, ((.max (.eng 0) 3 1 2, 66)), rfl, rfl, rfl, by decide +kernel⟩,
   ⟨up, (.eng 0), _, 1, 2, 0, _, _, ((.tst (.eng 0) 1 2, 64)), rfl, rfl, rfl, by decide +kernel⟩⟩

/-- The clauses of `Obligations.NimyorControlFlow` can be met. -/
theorem witness_NimyorControlFlow :
    (∃ (s : State) (t : Tgt) (c : Cpu) (z : Bool) (n : Bool) (cy : Bool) (v : Bool) (q : Bool) (l : Bool) (e : BitVec 4 ×
      Bool), (s.cpuOf t = c) ∧ (s.runsOn t = true) ∧ (c.f = fWord z n cy v q l) ∧ (e ∈ [(0, true), (1, z), (2, !z),
      (3, n != v), (4, n == v), (5, z || n != v), (6, !z && n == v), (7, cy), (8, !cy), (9, n), (10, !n), (11, v),
      (12, !v), (13, q), (14, l)]) ∧ (e.2 = false))
    ∧ (∃ (s : State) (t : Tgt) (c : Cpu) (off : BitVec 20) (z : Bool) (n : Bool) (cy : Bool) (v : Bool) (q : Bool) (l :
      Bool) (e : BitVec 4 × Bool) (k : ℕ), (s.cpuOf t = c) ∧ (s.runsOn t = true) ∧ (c.f = fWord z n cy v q l) ∧ (e ∈
      [(0, true), (1, z), (2, !z), (3, n != v), (4, n == v), (5, z || n != v), (6, !z && n == v), (7, cy), (8, !cy),
      (9, n), (10, !n), (11, v), (12, !v), (13, q), (14, l)]) ∧ (e.2 = true) ∧ ((↑k : ℤ) = (↑c.pc : ℤ) + off.toInt) ∧
      (k < s.tgtCode t) ∧ (c.stack.length < 16))
    ∧ (∃ (s : State) (t : Tgt) (c : Cpu) (off : BitVec 20) (z : Bool) (n : Bool) (cy : Bool) (v : Bool) (q : Bool) (l :
      Bool) (e : BitVec 4 × Bool) (k : ℕ) (g : Fin 8), (s.cpuOf t = c) ∧ (t = Tgt.eng g) ∧ (s.runsOn t = true) ∧ (c.f
      = fWord z n cy v q l) ∧ (e ∈ [(0, true), (1, z), (2, !z), (3, n != v), (4, n == v), (5, z || n != v), (6, !z &&
      n == v), (7, cy), (8, !cy), (9, n), (10, !n), (11, v), (12, !v), (13, q), (14, l)]) ∧ (e.2 = true) ∧ ((↑k : ℤ) =
      (↑c.pc : ℤ) + off.toInt) ∧ (k < s.tgtCode t) ∧ (16 ≤ c.stack.length))
    ∧ (∃ (s : State) (t : Tgt) (c : Cpu) (off : BitVec 20) (z : Bool) (n : Bool) (cy : Bool) (v : Bool) (q : Bool) (l :
      Bool) (e : BitVec 4 × Bool) (g : Fin 8), (s.cpuOf t = c) ∧ (t = Tgt.eng g) ∧ (s.runsOn t = true) ∧ (c.f = fWord
      z n cy v q l) ∧ (e ∈ [(0, true), (1, z), (2, !z), (3, n != v), (4, n == v), (5, z || n != v), (6, !z && n == v),
      (7, cy), (8, !cy), (9, n), (10, !n), (11, v), (12, !v), (13, q), (14, l)]) ∧ (e.2 = true) ∧ ((↑c.pc : ℤ) +
      off.toInt < 0 ∨ (((s.tgtCode t) : ℕ) : ℤ) ≤ (↑c.pc : ℤ) + off.toInt))
    ∧ (∃ (s : State) (t : Tgt) (c : Cpu) (k : ℕ) (r : List ℕ), (s.cpuOf t = c) ∧ (s.runsOn t = true) ∧ (c.stack = k :: r) ∧
      (k < s.tgtCode t))
    ∧ (∃ (s : State) (t : Tgt) (c : Cpu) (g : Fin 8), (s.cpuOf t = c) ∧ (t = Tgt.eng g) ∧ (s.runsOn t = true) ∧ (c.stack =
      []))
    ∧ (∃ (s : State) (e : Fin 8) (ra : Fin 32) (k : ℕ), (BitVec.toNat s.engines[e].cpu.g[ra] = k) ∧ (s.runsOn (Tgt.eng e) =
      true) ∧ (k < 2 ^ 14) ∧ (k < s.engines[e].codeW))
    ∧ (∃ (s : State) (e : Fin 8) (ra : Fin 32) (k : ℕ), (BitVec.toNat s.engines[e].cpu.g[ra] = k) ∧ (s.runsOn (Tgt.eng e) =
      true) ∧ (s.engines[e].codeW ≤ k))
    ∧ (∃ (s : State) (n : Fin 16) (f : ℤ), (s.runsOn (Tgt.loop n) = true) ∧ (s.loops[n].out = some f))
    ∧ (∃ (s : State) (n : Fin 16), (s.runsOn (Tgt.loop n) = true) ∧ (s.loops[n].out = none)) :=
  ⟨⟨up, (Tgt.eng 0), _, false, false, false, false, false, false, ((1, false)), rfl, by decide +kernel⟩,
   ⟨up, (Tgt.eng 0), _, 0, false, false, false, false, false, false, ((0, true)), 0, rfl, by decide +kernel⟩,
   ⟨(up.modEng 0 fun g => { g with cpu := { g.cpu with stack := List.replicate 16 0 } }), _, _, 0, false, false, false, false, false, false, ((0, true)), 0, 0, rfl, rfl, by decide +kernel⟩,
   ⟨up, _, _, (-1), false, false, false, false, false, false, ((0, true)), 0, rfl, rfl, by decide +kernel⟩,
   ⟨(up.modEng 0 fun g => { g with cpu := { g.cpu with stack := [63] } }), (.eng 0), _, 63, [], rfl, by decide +kernel⟩,
   ⟨up, _, _, 0, rfl, rfl, by decide +kernel⟩,
   ⟨(up.modEng 0 fun g => { g with cpu := { g.cpu with g := g.cpu.g.set 0 63 } }), 0, 0, _, rfl, by decide +kernel⟩,
   ⟨up, 0, 0, _, rfl, by decide +kernel⟩,
   ⟨(loopUp.modLoop 0 fun l => { l with out := some 5 }), 0, 5, by decide +kernel⟩,
   ⟨loopUp, 0, by decide +kernel⟩⟩

/-- The clauses of `Obligations.NimyorDivide` can be met. -/
theorem witness_NimyorDivide :
    (∃ (c : Cpu) (a : ℤ) (b : ℤ) (y : ℤ) (r : ℤ), (b ≠ 0) ∧ (y = c.divInt a b) ∧ (r = a - y * b) ∧ (BitVec.toNat c.cw / 2
      ^ 30 = 1))
    ∧ (∃ (c : Cpu) (a : ℤ) (b : ℤ) (y : ℤ) (r : ℤ), (b ≠ 0) ∧ (y = c.divInt a b) ∧ (r = a - y * b) ∧ (BitVec.toNat c.cw / 2
      ^ 30 = 2))
    ∧ (∃ (c : Cpu) (a : ℤ) (b : ℤ) (y : ℤ) (r : ℤ), (b ≠ 0) ∧ (y = c.divInt a b) ∧ (r = a - y * b) ∧ (BitVec.toNat c.cw / 2
      ^ 30 = 0 ∨ BitVec.toNat c.cw / 2 ^ 30 = 3) ∧ (2 * r.natAbs = b.natAbs))
    ∧ (∃ (s : State) (t : Tgt) (c : Cpu) (rd : Fin 32) (ra : Fin 32) (rb : Fin 32) (a : Fin 4) (e : Instr × ℤ), (s.cpuOf t =
      c) ∧ (s.runsOn t = true) ∧ (c.g[rb] ≠ 0) ∧ (e ∈ [(Instr.div t rd ra rb, c.divInt (BitVec.toInt c.g[ra])
      (BitVec.toInt c.g[rb])), (Instr.acdiv t rd a rb, c.divInt c.acc[a].toInt (BitVec.toInt c.g[rb]))]))
    ∧ (∃ (s : State) (t : Tgt) (c : Cpu) (ra : Fin 32) (rb : Fin 32) (r : DWord), (s.cpuOf t = c) ∧ (r = BitVec.ofInt 64
      (c.rnd (((BitVec.toNat c.g[ra]) : ℕ) : ℤ) (BitVec.toNat c.g[rb]))) ∧ (s.runsOn t = true) ∧ (c.g[rb] ≠ 0))
    ∧ (∃ (s : State) (t : Tgt) (c : Cpu) (rd : Fin 32) (ra : Fin 32) (rb : Fin 32) (a : Fin 4) (e : Instr × DWord), (s.cpuOf
      t = c) ∧ (s.runsOn t = true) ∧ (c.g[rb] = 0) ∧ (BitVec.getLsbD c.cw 28 = true) ∧ (e ∈ [(Instr.div t rd ra rb,
      signSat (BitVec.toInt c.g[ra])), (Instr.acdiv t rd a rb, signSat c.acc[a].toInt), (Instr.divu t rd ra rb, if
      c.g[ra] = 0 then 0 else BitVec.allOnes 64)]))
    ∧ (∃ (s : State) (t : Tgt) (c : Cpu) (rb : Fin 32) (e : Fin 8), (s.cpuOf t = c) ∧ (t = Tgt.eng e) ∧ (s.runsOn t = true)
      ∧ (c.g[rb] = 0) ∧ (BitVec.getLsbD c.cw 28 = false)) :=
  ⟨⟨{ cpu with cw := 0x40000000 }, -7, 2, -3, -1, by decide +kernel⟩,
   ⟨{ cpu with cw := 0x80000000 }, -7, 2, -4, 1, by decide +kernel⟩,
   ⟨cpu, -7, 2, -4, 1, by decide +kernel⟩,
   ⟨up, (.eng 0), _, 0, 2, 1, 0, ((.div (.eng 0) 0 2 1, 1)), rfl, by decide +kernel⟩,
   ⟨up, (Tgt.eng 0), _, 0, 0, _, rfl, rfl, by decide +kernel⟩,
   ⟨(dz true), (.eng 0), _, 0, 2, 0, 0, ((.divu (.eng 0) 0 2 0, BitVec.allOnes 64)), rfl, by decide +kernel⟩,
   ⟨(dz false), _, _, 0, 0, rfl, rfl, by decide +kernel⟩⟩

/-- The clauses of `Obligations.NimyorLoadsAndStores` can be met. -/
theorem witness_NimyorLoadsAndStores :
    (∃ (s : State) (e : Fin 8) (c : Cpu) (rd : Fin 32) (ra : Fin 32) (imm : BitVec 14) (w : ℕ × ℕ × ℕ) (a : ℕ) (x : ℕ) (i
      : Instr × ℕ × Bool), (s.runsOn (Tgt.eng e) = true) ∧ (s.engines[e].cpu = c) ∧ ((↑a : ℤ) = (↑(BitVec.toNat
      c.g[ra]) : ℤ) + imm.toInt) ∧ (w ∈ readWindows e) ∧ (w.1 ≤ a) ∧ (a < w.1 + w.2.1) ∧ (x = w.2.2 + (a - w.1)) ∧ (i
      ∈ [(Instr.ldb e rd ra imm, 1, false), (Instr.ldh e rd ra imm, 2, false), (Instr.ldw e rd ra imm, 4, false),
      (Instr.ldd e rd ra imm, 8, false), (Instr.ldbs e rd ra imm, 1, true), (Instr.ldhs e rd ra imm, 2, true),
      (Instr.ldws e rd ra imm, 4, true)]) ∧ (a % i.2.1 = 0) ∧ (s.mem.flaw (s.mem.phys x / 8) = 0))
    ∧ (∃ (s : State) (e : Fin 8) (c : Cpu) (rd : Fin 32) (ra : Fin 32) (imm : BitVec 14) (w : ℕ × ℕ × ℕ) (a : ℕ) (x : ℕ) (i
      : Instr × ℕ × Bool), (s.runsOn (Tgt.eng e) = true) ∧ (s.engines[e].cpu = c) ∧ ((↑a : ℤ) = (↑(BitVec.toNat
      c.g[ra]) : ℤ) + imm.toInt) ∧ (w ∈ readWindows e) ∧ (w.1 ≤ a) ∧ (a < w.1 + w.2.1) ∧ (x = w.2.2 + (a - w.1)) ∧ (i
      ∈ [(Instr.ldb e rd ra imm, 1, false), (Instr.ldh e rd ra imm, 2, false), (Instr.ldw e rd ra imm, 4, false),
      (Instr.ldd e rd ra imm, 8, false), (Instr.ldbs e rd ra imm, 1, true), (Instr.ldhs e rd ra imm, 2, true),
      (Instr.ldws e rd ra imm, 4, true)]) ∧ (a % i.2.1 = 0) ∧ (s.mem.flaw (s.mem.phys x / 8) = 2) ∧ (isPaged x =
      false))
    ∧ (∃ (s : State) (e : Fin 8) (c : Cpu) (rd : Fin 32) (ra : Fin 32) (imm : BitVec 14) (w : ℕ × ℕ × ℕ) (a : ℕ) (x : ℕ) (i
      : Instr × ℕ), (s.runsOn (Tgt.eng e) = true) ∧ (s.engines[e].cpu = c) ∧ ((↑a : ℤ) = (↑(BitVec.toNat c.g[ra]) : ℤ)
      + imm.toInt) ∧ (w ∈ writeWindows e) ∧ (w.1 ≤ a) ∧ (a < w.1 + w.2.1) ∧ (x = w.2.2 + (a - w.1)) ∧ (s.mem.flaw
      (s.mem.phys x / 8) = 0) ∧ (i ∈ [(Instr.stb e rd ra imm, 1), (Instr.sth e rd ra imm, 2), (Instr.stw e rd ra imm,
      4), (Instr.std e rd ra imm, 8)]) ∧ (a % i.2 = 0))
    ∧ (∃ (s : State) (e : Fin 8) (c : Cpu) (rd : Fin 32) (ra : Fin 32) (imm : BitVec 14) (a : ℕ) (k : ℕ) (i : Instr × ℕ ×
      Bool), (s.runsOn (Tgt.eng e) = true) ∧ (s.engines[e].cpu = c) ∧ ((↑a : ℤ) = (↑(BitVec.toNat c.g[ra]) : ℤ) +
      imm.toInt) ∧ (65536 ≤ a) ∧ (a < 81920) ∧ (k = (a - 65536) / 8) ∧ (i ∈ [(Instr.ldb e rd ra imm, 1, false),
      (Instr.ldh e rd ra imm, 2, false), (Instr.ldw e rd ra imm, 4, false), (Instr.ldd e rd ra imm, 8, false),
      (Instr.ldbs e rd ra imm, 1, true), (Instr.ldhs e rd ra imm, 2, true), (Instr.ldws e rd ra imm, 4, true)]) ∧ (a %
      i.2.1 = 0) ∧ ((s.tgtBad (Tgt.eng e)).contains k = true))
    ∧ (∃ (s : State) (e : Fin 8) (c : Cpu) (rd : Fin 32) (ra : Fin 32) (imm : BitVec 14) (a : ℕ) (k : ℕ) (i : Instr × ℕ ×
      Bool), (s.runsOn (Tgt.eng e) = true) ∧ (s.engines[e].cpu = c) ∧ ((↑a : ℤ) = (↑(BitVec.toNat c.g[ra]) : ℤ) +
      imm.toInt) ∧ (65536 ≤ a) ∧ (a < 81920) ∧ (k = (a - 65536) / 8) ∧ (i ∈ [(Instr.ldb e rd ra imm, 1, false),
      (Instr.ldh e rd ra imm, 2, false), (Instr.ldw e rd ra imm, 4, false), (Instr.ldd e rd ra imm, 8, false),
      (Instr.ldbs e rd ra imm, 1, true), (Instr.ldhs e rd ra imm, 2, true), (Instr.ldws e rd ra imm, 4, true)]) ∧ (a %
      i.2.1 = 0) ∧ ((s.tgtBad (Tgt.eng e)).contains k = false) ∧ (k < s.engines[e].consts.length))
    ∧ (∃ (s : State) (e : Fin 8) (c : Cpu) (rd : Fin 32) (ra : Fin 32) (imm : BitVec 14) (a : ℕ) (k : ℕ) (i : Instr × ℕ ×
      Bool), (s.runsOn (Tgt.eng e) = true) ∧ (s.engines[e].cpu = c) ∧ ((↑a : ℤ) = (↑(BitVec.toNat c.g[ra]) : ℤ) +
      imm.toInt) ∧ (65536 ≤ a) ∧ (a < 81920) ∧ (k = (a - 65536) / 8) ∧ (i ∈ [(Instr.ldb e rd ra imm, 1, false),
      (Instr.ldh e rd ra imm, 2, false), (Instr.ldw e rd ra imm, 4, false), (Instr.ldd e rd ra imm, 8, false),
      (Instr.ldbs e rd ra imm, 1, true), (Instr.ldhs e rd ra imm, 2, true), (Instr.ldws e rd ra imm, 4, true)]) ∧ (a %
      i.2.1 = 0) ∧ ((s.tgtBad (Tgt.eng e)).contains k = false) ∧ (s.engines[e].consts.length ≤ k))
    ∧ (∃ (s : State) (e : Fin 8) (c : Cpu) (rd : Fin 32) (ra : Fin 32) (imm : BitVec 14) (o : ℕ) (i : Instr), (s.runsOn
      (Tgt.eng e) = true) ∧ (s.engines[e].cpu = c) ∧ (16777216 + (↑o : ℤ) = (↑(BitVec.toNat c.g[ra]) : ℤ) + imm.toInt)
      ∧ (o < 1048576) ∧ (o % 4 = 0) ∧ (placeOf o = none) ∧ (i ∈ [Instr.ldw e rd ra imm, Instr.ldws e rd ra imm]))
    ∧ (∃ (s : State) (e : Fin 8) (c : Cpu) (rd : Fin 32) (ra : Fin 32) (imm : BitVec 14) (o : ℕ) (pl : Place) (i : Instr),
      (s.runsOn (Tgt.eng e) = true) ∧ (s.engines[e].cpu = c) ∧ (16777216 + (↑o : ℤ) = (↑(BitVec.toNat c.g[ra]) : ℤ) +
      imm.toInt) ∧ (o < 1048576) ∧ (o % 4 = 0) ∧ (placeOf o = some pl) ∧ (pl.blk ≠ Block.access) ∧ (s.placeDown pl =
      true) ∧ (i ∈ [Instr.ldw e rd ra imm, Instr.ldws e rd ra imm]))
    ∧ (∃ (s : State) (e : Fin 8) (c : Cpu) (ra : Fin 32) (imm : BitVec 14) (o : ℕ) (pl : Place), (s.runsOn (Tgt.eng e) =
      true) ∧ (s.engines[e].cpu = c) ∧ (16777216 + (↑o : ℤ) = (↑(BitVec.toNat c.g[ra]) : ℤ) + imm.toInt) ∧ (o <
      1048576) ∧ (o % 4 = 0) ∧ (placeOf o = some pl) ∧ (¬(pl.blk = Block.mailbox ∧ pl.off = 8)))
    ∧ (∃ (s : State) (e : Fin 8) (c : Cpu) (rd : Fin 32) (ra : Fin 32) (imm : BitVec 14) (a : ℤ) (i : Instr × ℤ),
      (s.engines[e].cpu = c) ∧ (a = (((BitVec.toNat c.g[ra]) : ℕ) : ℤ) + imm.toInt) ∧ (s.runsOn (Tgt.eng e) = true) ∧
      (i ∈ [(Instr.ldh e rd ra imm, 2), (Instr.ldw e rd ra imm, 4), (Instr.ldd e rd ra imm, 8), (Instr.ldhs e rd ra
      imm, 2), (Instr.ldws e rd ra imm, 4), (Instr.sth e rd ra imm, 2), (Instr.stw e rd ra imm, 4), (Instr.std e rd ra
      imm, 8)]) ∧ (a % i.2 ≠ 0))
    ∧ (∃ (s : State) (e : Fin 8) (c : Cpu) (rd : Fin 32) (ra : Fin 32) (imm : BitVec 14) (a : ℤ) (i : Instr), (s.runsOn
      (Tgt.eng e) = true) ∧ (s.engines[e].cpu = c) ∧ (a = (↑(BitVec.toNat c.g[ra]) : ℤ) + imm.toInt) ∧ (i ∈ [Instr.ldb
      e rd ra imm, Instr.ldh e rd ra imm, Instr.ldd e rd ra imm, Instr.ldbs e rd ra imm, Instr.ldhs e rd ra imm,
      Instr.stb e rd ra imm, Instr.sth e rd ra imm, Instr.std e rd ra imm]) ∧ (16777216 ≤ a) ∧ (a < 17825792))
    ∧ (∃ (s : State) (e : Fin 8) (c : Cpu) (rd : Fin 32) (ra : Fin 32) (imm : BitVec 14) (a : ℤ) (i : Instr × ℤ), (s.runsOn
      (Tgt.eng e) = true) ∧ (s.engines[e].cpu = c) ∧ (a = (↑(BitVec.toNat c.g[ra]) : ℤ) + imm.toInt) ∧ (i ∈
      [(Instr.ldb e rd ra imm, 1), (Instr.ldh e rd ra imm, 2), (Instr.ldw e rd ra imm, 4), (Instr.ldd e rd ra imm, 8),
      (Instr.ldbs e rd ra imm, 1), (Instr.ldhs e rd ra imm, 2), (Instr.ldws e rd ra imm, 4), (Instr.stb e rd ra imm,
      1), (Instr.sth e rd ra imm, 2), (Instr.stw e rd ra imm, 4), (Instr.std e rd ra imm, 8)]) ∧ (a % i.2 = 0) ∧
      (noWindow a = true))
    ∧ (∃ (s : State) (e : Fin 8) (c : Cpu) (rd : Fin 32) (ra : Fin 32) (imm : BitVec 14) (a : ℤ) (i : Instr × ℤ), (s.runsOn
      (Tgt.eng e) = true) ∧ (s.engines[e].cpu = c) ∧ (a = (↑(BitVec.toNat c.g[ra]) : ℤ) + imm.toInt) ∧ (i ∈
      [(Instr.stb e rd ra imm, 1), (Instr.sth e rd ra imm, 2), (Instr.stw e rd ra imm, 4), (Instr.std e rd ra imm,
      8)]) ∧ (a % i.2 = 0) ∧ (readOnlyWindow a = true)) :=
  ⟨⟨(g0 0x40FFFF8), 0, (c0 0x40FFFF8), 1, 0, 0, (0x4000000, 0x100000, noticeBase), 0x40FFFF8, noticeBase + 0xFFFF8, ((.ldd 0 1 0 0, 8, false)), by decide +kernel⟩,
   ⟨({ g0 0x100000 with mem := { up.mem with flaws := [(engineBase / 8, 2)] } }), 0, (c0 0x100000), 1, 0, 0, (0x100000, 0x40000, engineBase), 0x100000, engineBase,
    ((.ldb 0 1 0 0, 1, false)), by decide +kernel⟩,
   ⟨(g0 0x23FFFF8), 0, (c0 0x23FFFF8), 1, 0, 0, (0x2000000, 0x400000, graticuleBase), 0x23FFFF8, graticuleBase + 0x3FFFF8, ((.std 0 1 0 0, 8)), by decide +kernel⟩,
   ⟨((g0 0x10000).modEng 0 fun g => { g with prog := { g.prog with bank0 := some { sheet with badConst := [0] } } }), 0, (c0 0x10000), 1, 0, 0, 0x10000, 0,
    ((.ldb 0 1 0 0, 1, false)), by decide +kernel⟩,
   ⟨(g0 0x10007), 0, (c0 0x10007), 1, 0, 0, 0x10007, 0, ((.ldb 0 1 0 0, 1, false)), by decide +kernel⟩,
   ⟨(g0 0x13FF8), 0, (c0 0x13FF8), 1, 0, 0, 0x13FF8, 2047, ((.ldd 0 1 0 0, 8, false)), by decide +kernel⟩,
   ⟨(g0 0x10FFFFC), 0, (c0 0x10FFFFC), 1, 0, 0, 0xFFFFC, (.ldws 0 1 0 0), by decide +kernel⟩,
   ⟨({ g0 (BitVec.ofNat 64 (0x1000000 + key .survey 0 4)) with domOn := up.domOn.set 30 false }), 0, (c0 (BitVec.ofNat 64 (0x1000000 + key .survey 0 4))), 1, 0, 0, key .survey 0 4, (⟨.survey, 0, 4⟩), (.ldw 0 1 0 0), by decide +kernel⟩,
   ⟨(g0 0x1000000), 0, (c0 0x1000000), 0, 0, 0, (⟨.legend, 0, 0⟩), by decide +kernel⟩,
   ⟨(g0 0x100001), 0, _, 1, 0, 0, _, ((.ldh 0 1 0 0, 2)), rfl, rfl, by decide +kernel⟩,
   ⟨(g0 0x10FFFFF), 0, (c0 0x10FFFFF), 1, 0, 0, 0x10FFFFF, (.ldb 0 1 0 0), by decide +kernel⟩,
   ⟨(g0 0xFFF8), 0, (c0 0xFFF8), 1, 0, 0, 0xFFF8, ((.ldd 0 1 0 0, 8)), by decide +kernel⟩,
   ⟨(g0 0x40FFFFF), 0, (c0 0x40FFFFF), 1, 0, 0, 0x40FFFFF, ((.stb 0 1 0 0, 1)), by decide +kernel⟩⟩

/-- The clauses of `Obligations.NimyorMessages` can be met. -/
theorem witness_NimyorMessages :
    (∃ (s : State) (e : Fin 8) (c : Cpu), (s.engines[e].cpu = c) ∧ (s.runsOn (Tgt.eng e) = true) ∧
      (s.engines[e].pushq.length < 16))
    ∧ (∃ (s : State) (e : Fin 8) (c : Cpu), (s.engines[e].cpu = c) ∧ (s.runsOn (Tgt.eng e) = true) ∧ (16 ≤
      s.engines[e].pushq.length))
    ∧ (∃ (s : State) (e : Fin 8) (c : Cpu) (cls : BitVec 2), (s.engines[e].cpu = c) ∧ (s.runsOn (Tgt.eng e) = true) ∧ (2 ≤
      cls.toNat ∨ s.engines[e].keeper = true))
    ∧ (∃ (s : State) (e : Fin 8) (c : Cpu) (cls : BitVec 2), (s.engines[e].cpu = c) ∧ (s.runsOn (Tgt.eng e) = true) ∧
      (cls.toNat < 2) ∧ (s.engines[e].keeper = false))
    ∧ (∃ (s : State) (e : Fin 8) (c : Cpu) (ra : Fin 32) (m : Fin 16) (a : ℕ) (x : ℕ) (st : MbStatus), (s.engines[e].cpu =
      c) ∧ (BitVec.toNat c.g[ra] = a) ∧ (x = engineBase + (↑e : ℕ) * sliceSize + (a - 1048576)) ∧ (st = s.postStatus
      (Path.eng e) m) ∧ (s.runsOn (Tgt.eng e) = true) ∧ (a % 64 = 0) ∧ (1048576 ≤ a) ∧ (a < 1310720) ∧ (∀ i < 8,
      s.mem.flaw (s.mem.phys (x + 8 * i) / 8) = 0))
    ∧ (∃ (s : State) (e : Fin 8) (c : Cpu) (ra : Fin 32) (m : Fin 16) (a : ℕ) (x : ℕ) (b : List Byte) (rest : List (List
      Byte)), (s.runsOn (Tgt.eng e) = true) ∧ (s.engines[e].cpu = c) ∧ (BitVec.toNat c.g[ra] = a) ∧ (a % 64 = 0) ∧
      (1048576 ≤ a) ∧ (a < 1310720) ∧ (x = engineBase + (↑e : ℕ) * sliceSize + (a - 1048576)) ∧ (s.mbReceiver m = 8 +
      (↑e : ℕ)) ∧ (s.mboxes[m].slots = b :: rest) ∧ (∃ j < 8, s.mem.flaw (s.mem.phys (mailAddr m s.mboxes[m].oldest) /
      8 + j) = 2))
    ∧ (∃ (s : State) (e : Fin 8) (c : Cpu) (ra : Fin 32) (m : Fin 16) (a : ℕ) (x : ℕ) (b : List Byte) (rest : List (List
      Byte)), (s.runsOn (Tgt.eng e) = true) ∧ (s.engines[e].cpu = c) ∧ (BitVec.toNat c.g[ra] = a) ∧ (a % 64 = 0) ∧
      (1048576 ≤ a) ∧ (a < 1310720) ∧ (x = engineBase + (↑e : ℕ) * sliceSize + (a - 1048576)) ∧ (s.mbReceiver m = 8 +
      (↑e : ℕ)) ∧ (s.mboxes[m].slots = b :: rest) ∧ (∀ j < 8, s.mem.flaw (s.mem.phys (mailAddr m s.mboxes[m].oldest) /
      8 + j) = 0) ∧ (b.length = 64))
    ∧ (∃ (s : State) (e : Fin 8) (c : Cpu) (ra : Fin 32) (m : Fin 16) (a : ℕ) (x : ℕ), (s.engines[e].cpu = c) ∧
      (BitVec.toNat c.g[ra] = a) ∧ (x = engineBase + (↑e : ℕ) * sliceSize + (a - 1048576)) ∧ (s.runsOn (Tgt.eng e) =
      true) ∧ (a % 64 = 0) ∧ (1048576 ≤ a) ∧ (a < 1310720) ∧ (s.mbReceiver m = 8 + (↑e : ℕ)) ∧ (s.mboxes[m].slots =
      []))
    ∧ (∃ (s : State) (e : Fin 8) (c : Cpu) (i : Fin 32) (w : Word), (s.engines[e].cpu = c) ∧ (w = s.r Block.access 0 (512 +
      4 * (↑i : ℕ))) ∧ (s.runsOn (Tgt.eng e) = true) ∧ (bitsOf w 15 12 = 8 + (↑e : ℕ)))
    ∧ (∃ (s : State) (e : Fin 8) (c : Cpu) (i : Fin 32) (w : Word), (s.engines[e].cpu = c) ∧ (w = s.r Block.access 0 (512 +
      4 * (↑i : ℕ))) ∧ (s.runsOn (Tgt.eng e) = true) ∧ (bitsOf w 15 12 ≠ 8 + (↑e : ℕ)))
    ∧ (∃ (s : State) (e : Fin 8) (c : Cpu) (i : Fin 64), (s.engines[e].cpu = c) ∧ (s.runsOn (Tgt.eng e) = true) ∧ (s.sems[i]
      = none ∨ s.sems[i] = some e))
    ∧ (∃ (s : State) (e : Fin 8) (c : Cpu) (i : Fin 64) (h : Fin 8), (s.engines[e].cpu = c) ∧ (s.runsOn (Tgt.eng e) = true)
      ∧ (s.sems[i] = some h) ∧ (h ≠ e))
    ∧ (∃ (s : State) (e : Fin 8) (c : Cpu) (i : Fin 64), (s.engines[e].cpu = c) ∧ (s.runsOn (Tgt.eng e) = true) ∧ (s.sems[i]
      = some e))
    ∧ (∃ (s : State) (e : Fin 8) (c : Cpu) (i : Fin 64), (s.engines[e].cpu = c) ∧ (s.runsOn (Tgt.eng e) = true) ∧ (s.sems[i]
      ≠ some e)) :=
  ⟨⟨up, 0, _, rfl, by decide +kernel⟩,
   ⟨(up.modEng 0 fun g => { g with pushq := List.replicate 16 0 }), 0, _, rfl, by decide +kernel⟩,
   ⟨up, 0, _, 2, rfl, by decide +kernel⟩,
   ⟨up, 0, _, 0, rfl, by decide +kernel⟩,
   ⟨((g0 0x13FFC0).wr .mailbox 0 0 0x81000000), 0, _, 0, 0, _, _, _, rfl, rfl, rfl, rfl, by decide +kernel⟩,
   ⟨mailBad, 0, (c0 0x13FFC0), 0, 0, 0x13FFC0, engineBase + 0x3FFC0,
    (List.replicate 64 7), [], by decide +kernel, rfl, by decide +kernel, by decide +kernel, by decide +kernel, by decide +kernel, by decide +kernel, by decide +kernel, rfl,
    7, by decide, mailBad_flaw⟩,
   ⟨mailUp, 0, (c0 0x13FFC0), 0, 0, 0x13FFC0, engineBase + 0x3FFC0, (List.replicate 64 7), [], by decide +kernel, rfl, by decide +kernel, by decide +kernel,
    by decide +kernel, by decide +kernel, by decide +kernel, by decide +kernel, rfl, fun _ _ => rfl, by decide⟩,
   ⟨((g0 0x13FFC0).wr .mailbox 0 0 0x18000000), 0, _, 0, 0, _, _, rfl, rfl, rfl, by decide +kernel⟩,
   ⟨(up.wr .access 0 0x200 0x8100), 0, _, 0, _, rfl, rfl, by decide +kernel⟩,
   ⟨up, 0, _, 0, _, rfl, rfl, by decide +kernel⟩,
   ⟨up, 0, _, 0, rfl, by decide +kernel⟩,
   ⟨({ up with sems := up.sems.set 0 (some 3) }), 0, _, 0, 3, rfl, by decide +kernel⟩,
   ⟨({ up with sems := up.sems.set 63 (some 0) }), 0, _, 63, rfl, by decide +kernel⟩,
   ⟨up, 0, _, 0, rfl, by decide +kernel⟩⟩

/-- The clauses of `Obligations.NimyorMoves` can be met. -/
theorem witness_NimyorMoves :
    (∃ (s : State) (t : Tgt) (c : Cpu) (idx : BitVec 14) (v : DWord), (s.runsOn t = true) ∧ (s.cpuOf t = c) ∧
      ((s.tgtConsts t)[idx.toNat]? = some v) ∧ (idx.toNat ∉ s.tgtBad t))
    ∧ (∃ (s : State) (t : Tgt) (c : Cpu) (idx : BitVec 14) (v : DWord) (e : Fin 8), (s.runsOn t = true) ∧ (s.cpuOf t = c) ∧
      ((s.tgtConsts t)[idx.toNat]? = some v) ∧ (t = Tgt.eng e) ∧ (idx.toNat ∈ s.tgtBad t))
    ∧ (∃ (s : State) (t : Tgt) (c : Cpu) (idx : BitVec 14) (e : Fin 8), (s.runsOn t = true) ∧ (s.cpuOf t = c) ∧ (t = Tgt.eng
      e) ∧ ((s.tgtConsts t)[idx.toNat]? = none)) :=
  ⟨⟨up, (.eng 0), cpu, 0, 5, by decide +kernel⟩,
   ⟨(up.modEng 0 fun g => { g with prog := { g.prog with bank0 := some { sheet with badConst := [0] } } }), (.eng 0), cpu, 0, 5, 0, by decide +kernel⟩,
   ⟨up, (.eng 0), cpu, 1, 0, by decide +kernel⟩⟩

/-- The clauses of `Obligations.NimyorShifts` can be met. -/
theorem witness_NimyorShifts :
    (∃ (c : Cpu) (a : ℤ) (y : ℤ) (d : ℕ), (0 < d) ∧ (y = c.rnd a d) ∧ (BitVec.toNat c.cw / 2 ^ 30 = 1) ∧ (0 ≤ a))
    ∧ (∃ (c : Cpu) (a : ℤ) (y : ℤ) (d : ℕ), (0 < d) ∧ (y = c.rnd a d) ∧ (BitVec.toNat c.cw / 2 ^ 30 = 1) ∧ (a < 0))
    ∧ (∃ (c : Cpu) (a : ℤ) (y : ℤ) (d : ℕ), (0 < d) ∧ (y = c.rnd a d) ∧ (BitVec.toNat c.cw / 2 ^ 30 = 2))
    ∧ (∃ (c : Cpu) (a : ℤ) (y : ℤ) (d : ℕ), (0 < d) ∧ (y = c.rnd a d) ∧ (BitVec.toNat c.cw / 2 ^ 30 = 0 ∨ BitVec.toNat c.cw
      / 2 ^ 30 = 3) ∧ (2 * (a - y * (↑d : ℤ)).natAbs = d))
    ∧ (∃ (s : State) (t : Tgt) (c : Cpu) (ra : Fin 32) (rb : Fin 32) (x : BitVec 9) (k : ℕ) (a : DWord), (s.cpuOf t = c) ∧
      (c.g[ra] = a) ∧ (s.runsOn t = true) ∧ (x = 0 ∧ k = BitVec.toNat c.g[rb] % 128 ∨ x.toNat = 256 + k ∧ k < 64 ∧ rb
      = 0)) :=
  ⟨⟨{ cpu with cw := 0x40000000 }, 7, 3, 2, by decide +kernel⟩,
   ⟨{ cpu with cw := 0x40000000 }, -7, -3, 2, by decide +kernel⟩,
   ⟨{ cpu with cw := 0x80000000 }, -7, -4, 2, by decide +kernel⟩,
   ⟨cpu, 5, 2, 2, by decide +kernel⟩,
   ⟨up, (.eng 0), _, 1, 2, 0, 66, _, rfl, rfl, by decide +kernel⟩⟩

/-- The clauses of `Obligations.NimyorStampsEmissionAndSample` can be met. -/
theorem witness_NimyorStampsEmissionAndSample :
    (∃ (s : State) (e : Fin 8) (c : Cpu) (rd : Fin 32) (r1 : Fin 32) (r2 : Fin 32), (s.engines[e].cpu = c) ∧ (s.runsOn
      (Tgt.eng e) = true) ∧ ((↑rd : ℕ) % 2 = 0) ∧ ((↑r1 : ℕ) = (↑rd : ℕ) + 1) ∧ ((↑r2 : ℕ) = (↑rd : ℕ) + 2) ∧
      (s.engines[e].fifo = []))
    ∧ (∃ (s : State) (e : Fin 8) (c : Cpu) (rd : Fin 32) (r1 : Fin 32) (r2 : Fin 32) (q : EStamp) (rest : List EStamp),
      (s.engines[e].cpu = c) ∧ (s.runsOn (Tgt.eng e) = true) ∧ ((↑rd : ℕ) % 2 = 0) ∧ ((↑r1 : ℕ) = (↑rd : ℕ) + 1) ∧
      ((↑r2 : ℕ) = (↑rd : ℕ) + 2) ∧ (s.engines[e].fifo = q :: rest))
    ∧ (∃ (s : State) (e : Fin 8) (c : Cpu) (rd : Fin 32), (s.engines[e].cpu = c) ∧ (s.runsOn (Tgt.eng e) = true) ∧ ((↑rd :
      ℕ) % 2 = 1 ∨ (↑rd : ℕ) = 30))
    ∧ (∃ (s : State) (e : Fin 8) (c : Cpu) (ra : Fin 32) (a1 : Fin 32) (rb : Fin 32) (b : DWord), (s.engines[e].cpu = c) ∧
      (c.g[rb] = b) ∧ (s.runsOn (Tgt.eng e) = true) ∧ ((↑ra : ℕ) % 2 = 0) ∧ ((↑a1 : ℕ) = (↑ra : ℕ) + 1) ∧ (12 ≤ bitsOf
      (BitVec.extractLsb' 32 32 b) 31 28 ∨ bitsOf (BitVec.extractLsb' 32 32 b) 25 0 ≠ 0))
    ∧ (∃ (s : State) (e : Fin 8) (c : Cpu) (ra : Fin 32) (a1 : Fin 32) (rb : Fin 32) (b : DWord) (g : Fin 12) (j : Fin 4)
      (size : ℕ) (head : ℕ) (tail : ℕ) (base : ℕ), (s.engines[e].cpu = c) ∧ (c.g[rb] = b) ∧ (size = s.rf Block.survey
      (↑g : ℕ) (schedOff j 4) 18 0) ∧ (head = s.rf Block.survey (↑g : ℕ) (schedOff j 8) 17 0) ∧ (tail = s.rf
      Block.survey (↑g : ℕ) (schedOff j 12) 17 0) ∧ (base = s.rf Block.survey (↑g : ℕ) (schedOff j 0) 17 0) ∧
      (s.runsOn (Tgt.eng e) = true) ∧ ((↑ra : ℕ) % 2 = 0) ∧ ((↑a1 : ℕ) = (↑ra : ℕ) + 1) ∧ (BitVec.toNat b / 2 ^ 60 =
      (↑g : ℕ)) ∧ (BitVec.toNat b / 2 ^ 58 % 4 = (↑j : ℕ)) ∧ (BitVec.toNat b / 2 ^ 32 % 2 ^ 26 = 0) ∧ (s.domUp (30 +
      (↑g : ℕ)) = true) ∧ (2 ≤ size) ∧ ((head + size - tail) % size = size - 1))
    ∧ (∃ (s : State) (e : Fin 8) (c : Cpu) (ra : Fin 32) (a1 : Fin 32) (rb : Fin 32) (b : DWord) (g : Fin 12) (j : Fin 4)
      (size : ℕ) (head : ℕ) (tail : ℕ) (base : ℕ) (a : ℕ), (s.engines[e].cpu = c) ∧ (c.g[rb] = b) ∧ (size = s.rf
      Block.survey (↑g : ℕ) (schedOff j 4) 18 0) ∧ (head = s.rf Block.survey (↑g : ℕ) (schedOff j 8) 17 0) ∧ (tail =
      s.rf Block.survey (↑g : ℕ) (schedOff j 12) 17 0) ∧ (base = s.rf Block.survey (↑g : ℕ) (schedOff j 0) 17 0) ∧ (a
      = graticuleBase + 16 * ((base + head) % 262144)) ∧ (s.runsOn (Tgt.eng e) = true) ∧ ((↑ra : ℕ) % 2 = 0) ∧ ((↑a1 :
      ℕ) = (↑ra : ℕ) + 1) ∧ (BitVec.toNat b / 2 ^ 60 = (↑g : ℕ)) ∧ (BitVec.toNat b / 2 ^ 58 % 4 = (↑j : ℕ)) ∧
      (BitVec.toNat b / 2 ^ 32 % 2 ^ 26 = 0) ∧ (s.domUp (30 + (↑g : ℕ)) = true) ∧ (2 ≤ size) ∧ (size ≤ 2 ^ 18) ∧
      ((head + size - tail) % size < size - 1))
    ∧ (∃ (s : State) (n : Fin 16) (c : Cpu) (r : DWord), (s.loops[n].cpu = c) ∧ (r = BitVec.ofInt 64 s.loops[n].x) ∧
      (s.runsOn (Tgt.loop n) = true)) :=
  ⟨⟨up, 0, _, 28, 29, 30, rfl, by decide +kernel⟩,
   ⟨(up.modEng 0 fun g => { g with fifo := [⟨stampZero, 5⟩] }), 0, _, 28, 29, 30, (⟨stampZero, 5⟩), [], rfl, by decide +kernel⟩,
   ⟨up, 0, _, 30, rfl, by decide +kernel⟩,
   ⟨(g0 0xC000000000000000), 0, _, 30, 31, 0, _, rfl, rfl, by decide +kernel⟩,
   ⟨((((g0 0).wr .survey 0 0x44 2).wr .survey 0 0x48 1).wr .survey 0 0x4C 0), 0, _, 30, 31, 0, _, 0, 0, _, _, _, _, rfl, rfl, rfl, rfl, rfl, rfl, by decide +kernel⟩,
   ⟨((g0 0).wr .survey 0 0x44 0x40000), 0, _, 30, 31, 0, _, 0, 0, _, _, _, _, _, rfl, rfl, rfl, rfl, rfl, rfl, rfl, by decide +kernel⟩,
   ⟨loopUp, 0, _, _, rfl, rfl, by decide +kernel⟩⟩

/-- The clauses of `Obligations.NimyorTimeAndWaits` can be met. -/
theorem witness_NimyorTimeAndWaits :
    (∃ (s : State) (e : Fin 8) (c : Cpu) (rd : Fin 32) (r1 : Fin 32) (ra : Fin 32) (a1 : Fin 32) (rb : Fin 32) (b1 : Fin
      32) (x : BitVec 9) (d : Fin 8) (t : Stamp), (s.runsOn (Tgt.eng e) = true) ∧ (s.engines[e].cpu = c) ∧ ((↑rd : ℕ)
      % 2 = 0) ∧ ((↑ra : ℕ) % 2 = 0) ∧ ((↑rb : ℕ) % 2 = 0) ∧ ((↑r1 : ℕ) = (↑rd : ℕ) + 1) ∧ ((↑a1 : ℕ) = (↑ra : ℕ) + 1)
      ∧ ((↑b1 : ℕ) = (↑rb : ℕ) + 1) ∧ (x.toNat = (↑d : ℕ) ∨ x.toNat = 15 ∧ (↑d : ℕ) = bitsOf c.cw 27 25) ∧ (t =
      s.datums[d].mirs[engIsl e].now.export))
    ∧ (∃ (s : State) (e : Fin 8) (c : Cpu) (rd : Fin 32) (r1 : Fin 32) (ra : Fin 32) (a1 : Fin 32) (rb : Fin 32) (b1 : Fin
      32) (x : BitVec 9) (d : Fin 8) (t : ℤ) (q : ℤ) (v : ℤ) (sec : BitVec 48), (s.engines[e].cpu = c) ∧ (sec =
      BitVec.ofInt 48 ((((BitVec.toNat c.g[ra] % 2 ^ 48) : ℕ) : ℤ) + q)) ∧ (s.runsOn (Tgt.eng e) = true) ∧ ((↑rd : ℕ)
      % 2 = 0) ∧ ((↑ra : ℕ) % 2 = 0) ∧ ((↑rb : ℕ) % 2 = 0) ∧ ((↑r1 : ℕ) = (↑rd : ℕ) + 1) ∧ ((↑a1 : ℕ) = (↑ra : ℕ) + 1)
      ∧ ((↑b1 : ℕ) = (↑rb : ℕ) + 1) ∧ (x.toNat = (↑d : ℕ) ∨ x.toNat = 15 ∧ (↑d : ℕ) = bitsOf c.cw 27 25) ∧ (t =
      (((BitVec.toNat c.g[a1] % 2 ^ 48) : ℕ) : ℤ) + BitVec.toInt c.g[rb]) ∧ (t = q * (1000000000 * 2 ^ 16) + v) ∧ (0 ≤
      v) ∧ (v < 1000000000 * 2 ^ 16))
    ∧ (∃ (s : State) (e : Fin 8) (c : Cpu) (rd : Fin 32) (r1 : Fin 32) (ra : Fin 32) (a1 : Fin 32) (rb : Fin 32) (b1 : Fin
      32) (x : BitVec 9) (d : Fin 8) (y : ℤ), (s.engines[e].cpu = c) ∧ (y = pairVal c.g[ra] c.g[a1] - pairVal c.g[rb]
      c.g[b1]) ∧ (s.runsOn (Tgt.eng e) = true) ∧ ((↑rd : ℕ) % 2 = 0) ∧ ((↑ra : ℕ) % 2 = 0) ∧ ((↑rb : ℕ) % 2 = 0) ∧
      ((↑r1 : ℕ) = (↑rd : ℕ) + 1) ∧ ((↑a1 : ℕ) = (↑ra : ℕ) + 1) ∧ ((↑b1 : ℕ) = (↑rb : ℕ) + 1) ∧ (x.toNat = (↑d : ℕ) ∨
      x.toNat = 15 ∧ (↑d : ℕ) = bitsOf c.cw 27 25))
    ∧ (∃ (s : State) (e : Fin 8) (c : Cpu) (rd : Fin 32) (r1 : Fin 32) (ra : Fin 32) (a1 : Fin 32) (rb : Fin 32) (b1 : Fin
      32) (x : BitVec 9) (d : Fin 8), (s.runsOn (Tgt.eng e) = true) ∧ (s.engines[e].cpu = c) ∧ ((↑rd : ℕ) % 2 = 0) ∧
      ((↑ra : ℕ) % 2 = 0) ∧ ((↑rb : ℕ) % 2 = 0) ∧ ((↑r1 : ℕ) = (↑rd : ℕ) + 1) ∧ ((↑a1 : ℕ) = (↑ra : ℕ) + 1) ∧ ((↑b1 :
      ℕ) = (↑rb : ℕ) + 1) ∧ (x.toNat = (↑d : ℕ) ∨ x.toNat = 15 ∧ (↑d : ℕ) = bitsOf c.cw 27 25) ∧
      (s.engines[e].prog.due = false) ∧ (s.datums[d].mirs[engIsl e].now.toInt56 < waitTime (BitVec.toNat c.g[ra] % 2 ^
      48) (BitVec.toNat c.g[a1] % 2 ^ 48)))
    ∧ (∃ (s : State) (e : Fin 8) (c : Cpu) (rd : Fin 32) (r1 : Fin 32) (ra : Fin 32) (a1 : Fin 32) (rb : Fin 32) (b1 : Fin
      32) (x : BitVec 9) (d : Fin 8), (s.runsOn (Tgt.eng e) = true) ∧ (s.engines[e].cpu = c) ∧ ((↑rd : ℕ) % 2 = 0) ∧
      ((↑ra : ℕ) % 2 = 0) ∧ ((↑rb : ℕ) % 2 = 0) ∧ ((↑r1 : ℕ) = (↑rd : ℕ) + 1) ∧ ((↑a1 : ℕ) = (↑ra : ℕ) + 1) ∧ ((↑b1 :
      ℕ) = (↑rb : ℕ) + 1) ∧ (x.toNat = (↑d : ℕ) ∨ x.toNat = 15 ∧ (↑d : ℕ) = bitsOf c.cw 27 25) ∧
      (s.engines[e].prog.due = false) ∧ (waitTime (BitVec.toNat c.g[ra] % 2 ^ 48) (BitVec.toNat c.g[a1] % 2 ^ 48) <
      s.datums[d].mirs[engIsl e].now.toInt56))
    ∧ (∃ (s : State) (e : Fin 8) (c : Cpu) (rd : Fin 32) (x : BitVec 9), (s.engines[e].cpu = c) ∧ (s.runsOn (Tgt.eng e) =
      true) ∧ ((↑rd : ℕ) % 2 = 1 ∨ 8 ≤ x.toNat ∧ x.toNat ≠ 15))
    ∧ (∃ (s : State) (e : Fin 8) (c : Cpu) (rd : Fin 32) (ra : Fin 32), (s.engines[e].cpu = c) ∧ (s.runsOn (Tgt.eng e) =
      true) ∧ ((↑rd : ℕ) % 2 = 1 ∨ (↑ra : ℕ) % 2 = 1))
    ∧ (∃ (s : State) (e : Fin 8) (c : Cpu) (ra : Fin 32), (s.engines[e].cpu = c) ∧ (s.runsOn (Tgt.eng e) = true) ∧
      (s.engines[e].prog.due = false) ∧ (BitVec.toNat s.tick < BitVec.toNat c.g[ra]))
    ∧ (∃ (s : State) (e : Fin 8) (c : Cpu) (ra : Fin 32), (s.engines[e].cpu = c) ∧ (s.runsOn (Tgt.eng e) = true) ∧
      (s.engines[e].prog.due = false) ∧ (BitVec.toNat c.g[ra] ≤ BitVec.toNat s.tick))
    ∧ (∃ (s : State) (e : Fin 8) (c : Cpu) (ra : Fin 32), (s.engines[e].cpu = c) ∧ (s.runsOn (Tgt.eng e) = true) ∧
      (s.engines[e].prog.due = false) ∧ (BitVec.setWidth 5 c.g[ra] = 0))
    ∧ (∃ (s : State) (e : Fin 8) (c : Cpu) (ra : Fin 32) (rb : Fin 32) (on : BitVec 5), (s.engines[e].cpu = c) ∧ (on =
      s.waitEvents e c.g[ra] c.g[rb] s.tick 0 &&& BitVec.setWidth 5 c.g[ra]) ∧ (s.runsOn (Tgt.eng e) = true) ∧
      (s.engines[e].prog.due = false) ∧ (on ≠ 0))
    ∧ (∃ (s : State) (e : Fin 8) (c : Cpu) (ra : Fin 32) (rb : Fin 32) (on : BitVec 5), (s.engines[e].cpu = c) ∧ (on =
      s.waitEvents e c.g[ra] c.g[rb] s.tick 0 &&& BitVec.setWidth 5 c.g[ra]) ∧ (s.runsOn (Tgt.eng e) = true) ∧
      (s.engines[e].prog.due = false) ∧ (on = 0) ∧ (BitVec.setWidth 5 c.g[ra] ≠ 0))
    ∧ (∃ (s : State) (e : Fin 8) (c : Cpu) (sh : Sheet), (s.engines[e].cpu = c) ∧ (s.runsOn (Tgt.eng e) = true) ∧
      (s.engines[e].prog.due = true) ∧ (s.engines[e].prog.spare = some sh))
    ∧ (∃ (s : State) (e : Fin 8) (rd : Fin 32) (mask : DWord) (timeout : DWord) (issue : DWord) (commits : Word) (met :
      BitVec 5), (s.coreUp = true) ∧ (s.ticking = true) ∧ (s.fm.waiting = []) ∧ (s.engines[e].wait = some (Wait.event
      rd mask timeout issue commits met)) ∧ (met ≠ 0))
    ∧ (∃ (s : State) (e : Fin 8) (rd : Fin 32) (mask : DWord) (timeout : DWord) (issue : DWord) (commits : Word) (met :
      BitVec 5), (s.coreUp = true) ∧ (s.ticking = true) ∧ (s.fm.waiting = []) ∧ (s.engines[e].wait = some (Wait.event
      rd mask timeout issue commits met)) ∧ (met = 0) ∧ (BitVec.getLsbD mask 0 = true) ∧ (s.engines[e].fifo ≠ [])) :=
  ⟨⟨up, 0, cpu, 0, 1, 2, 3, 4, 5, 15, 0, (up.datums[(0 : Fin 8)]).mirs[(0 : Fin 2)].now.export, by decide +kernel⟩,
   ⟨up, 0, _, 0, 1, 2, 3, 4, 5, 7, 7, 135, 0, 135, _, rfl, rfl, by decide +kernel⟩,
   ⟨up, 0, _, 0, 1, 2, 3, 4, 5, 7, 7, _, rfl, rfl, by decide +kernel⟩,
   ⟨up, 0, cpu, 0, 1, 2, 3, 4, 5, 7, 7, by decide +kernel⟩,
   ⟨((g0 0).modDatum 7 fun x => { x with mirs := x.mirs.map fun m => { m with now := ⟨80, 0, 0⟩ } }), 0, (c0 0), 0, 1, 0, 1, 4, 5, 7, 7, by decide +kernel⟩,
   ⟨up, 0, _, 0, 8, rfl, by decide +kernel⟩,
   ⟨up, 0, _, 31, 0, rfl, by decide +kernel⟩,
   ⟨(g0 (up.tick + 1)), 0, _, 0, rfl, by decide +kernel⟩,
   ⟨up, 0, _, 0, rfl, by decide +kernel⟩,
   ⟨up, 0, _, 0, rfl, by decide +kernel⟩,
   ⟨(g0 8), 0, _, 0, 1, _, rfl, rfl, by decide +kernel⟩,
   ⟨(g0 1), 0, _, 0, 1, _, rfl, rfl, by decide +kernel⟩,
   ⟨(up.modEng 0 fun g => { g with prog := { g.prog with phase := .armed, swapReq := true, bank1 := some sheet } }), 0, _, sheet, rfl, by decide +kernel⟩,
   ⟨(up.modEng 0 fun g => { g with run := .waiting, wait := some (.event 0 1 0 0 0 1), fifo := [⟨stampZero, 5⟩] }), 0, 0, 1, 0, 0, 0, 1, by decide +kernel⟩,
   ⟨(up.modEng 0 fun g => { g with run := .waiting, wait := some (.event 0 1 0 0 0 0), fifo := [⟨stampZero, 5⟩] }), 0, 0, 1, 0, 0, 0, 0, by decide +kernel⟩⟩

/-- The clauses of `Obligations.NoticeQueue` can be met. -/
theorem witness_NoticeQueue :
    (∃ (s : State) (src : BitVec 16) (cls : BitVec 2) (code : Byte), (s.coreUp = true) ∧ (noticeOk src.toNat cls code =
      true) ∧ (List.find? (fun e => decide (e.id = src.toNat)) s.notices.srcs = none) ∧ (s.admits cls = true))
    ∧ (∃ (s : State) (src : BitVec 16) (cls : BitVec 2) (code : Byte), (s.coreUp = true) ∧ (noticeOk src.toNat cls code =
      true) ∧ (List.find? (fun e => decide (e.id = src.toNat)) s.notices.srcs = none) ∧ (s.admits cls = false))
    ∧ (∃ (s : State) (src : BitVec 16) (cls : BitVec 2) (code : Byte) (e : NSrc), (s.coreUp = true) ∧ (noticeOk src.toNat
      cls code = true) ∧ (s.notices.srcs = [e]) ∧ (e.id = src.toNat))
    ∧ (∃ (s : State) (p : Path) (v : Word), (p = ownerPath (s.rf Block.notice 0 0 31 30)) ∧ (s.reaches p Block.notice 0 8 =
      true) ∧ ((BitVec.toNat v % 2048 + 2048 - s.rf Block.notice 0 8 10 0) % 2048 ≤ s.noteFill))
    ∧ (∃ (s : State) (p : Path), (s.reaches p Block.notice 0 8 = true) ∧ (p ≠ ownerPath (s.rf Block.notice 0 0 31 30))) :=
  ⟨⟨up, 0, 0, 1, by decide +kernel⟩,
   ⟨(up.modNote fun q => { q with shed := true }), 1, 2, 3, by decide +kernel⟩,
   ⟨(up.modNote fun q => { q with srcs := [nsrc] }), 5, 2, 5, nsrc, by decide +kernel⟩,
   ⟨up, _, 0, rfl, by decide +kernel⟩,
   ⟨up, .f0, by decide +kernel⟩⟩

/-- The clauses of `Obligations.OvenLossReturnAndWarm` can be met. -/
theorem witness_OvenLossReturnAndWarm :
    (∃ (s : State), (s.oven.stbyRc = true))
    ∧ (∃ (s : State), (s.coreUp = true) ∧ (s.oven.pullIn = true) ∧ (s.syns[8].phase = SynPhase.holding))
    ∧ (∃ (s : State), (s.pinSteady = true))
    ∧ (∃ (s : State) (k : DWord), (s.tickInv) ∧ (s.oven.pinAt = some k) ∧ (s.passed k (10 * msTicks) = false))
    ∧ (∃ (s : State) (w : Fin 96), (s.coreUp = true) ∧ (s.refUp = true) ∧ (s.witness = some w) ∧ (s.oven.settled = false) ∧
      (s.passed s.oven.gate.start (16 * secTicks) = true) ∧ (s.oven.spoiled = true ∨ s.slots[w].act = true ∨
      s.slots[w].los = true))
    ∧ (∃ (s : State) (w : Fin 96) (a : ℤ × ℤ) (b : ℤ × ℤ) (nom : ℕ) (m : ℕ) (v : ℤ), (s.coreUp = true) ∧ (s.refUp = true) ∧
      (s.witness = some w) ∧ (s.oven.settled = false) ∧ (s.passed s.oven.gate.start (16 * secTicks) = true) ∧
      (s.oven.spoiled = false) ∧ (s.slots[w].act = false) ∧ (s.slots[w].los = false) ∧ (s.oven.gate.first = some (a.1,
      a.2, nom)) ∧ (s.oven.gate.last = some (b.1, b.2, m)) ∧ (v = freqOf (isPacket w) nom (s.srcDiv w) m a b) ∧
      (s.oven.prev = none))
    ∧ (∃ (s : State) (w : Fin 96) (a : ℤ × ℤ) (b : ℤ × ℤ) (nom : ℕ) (m : ℕ) (v : ℤ) (u : ℤ), (s.coreUp = true) ∧ (s.refUp =
      true) ∧ (s.witness = some w) ∧ (s.oven.settled = false) ∧ (s.passed s.oven.gate.start (16 * secTicks) = true) ∧
      (s.oven.spoiled = false) ∧ (s.slots[w].act = false) ∧ (s.slots[w].los = false) ∧ (s.oven.gate.first = some (a.1,
      a.2, nom)) ∧ (s.oven.gate.last = some (b.1, b.2, m)) ∧ (v = freqOf (isPacket w) nom (s.srcDiv w) m a b) ∧
      (s.oven.prev = some u))
    ∧ (∃ (s : State) (w : Fin 96), (s.coreUp = true) ∧ (s.witness ≠ some w ∨ s.oven.settled = true ∨ s.passed
      s.oven.gate.start (16 * secTicks) = false))
    ∧ (∃ (s : State), (s.coreUp = true) ∧ (s.oven.debounced = true) ∧ (s.oven.settled = false) ∧ (s.passed s.oven.tmoFrom
      (s.rf Block.device 0 12 15 0 * secTicks) = true))
    ∧ (∃ (s : State), (s.coreUp = true) ∧ (s.ovenEntry.isSome = true) ∧ (s.passed s.oven.tempAt (10 * secTicks) = true))
    ∧ (∃ (s : State) (p : Path), (s.keeps p Block.device 0 16 = true))
    ∧ (∃ (s : State) (p : Path), (s.keeps p Block.device 0 12 = true)) :=
  ⟨⟨(up.modOven fun o => { o with stbyRc := true, oscLost := true }), by decide +kernel⟩,
   ⟨((up.modOven fun o => { o with pullIn := true }).modSyn 8 fun q => { q with phase := .holding }), by decide +kernel⟩,
   ⟨up, by decide +kernel⟩,
   ⟨(up.modOven fun o => { o with pinAt := some 1000000000000 }), 1000000000000, by unfold State.tickInv; decide +kernel, by decide +kernel, by decide +kernel⟩,
   ⟨((settling none).modOven fun o => { o with spoiled := true }), 0, by decide +kernel⟩,
   ⟨(settling none), 0, (0, 0), (16000, 0), 1, 16, freqOf (isPacket 0) 1 ((settling none).srcDiv 0) 16 (0, 0) (16000, 0), by decide +kernel⟩,
   ⟨(settling (some 7)), 0, (0, 0), (16000, 0), 1, 16, freqOf (isPacket 0) 1 ((settling (some 7)).srcDiv 0) 16 (0, 0) (16000, 0), 7, by decide +kernel⟩,
   ⟨up, 0, by decide +kernel⟩,
   ⟨(up.modOven fun o => { o with settled := false }), by decide +kernel⟩,
   ⟨(gazUp.wr .modbus 0 0x40 0xFF), by decide +kernel⟩,
   ⟨up, Path.f1, by decide +kernel⟩,
   ⟨up, Path.f1, by decide +kernel⟩⟩

/-- The clauses of `Obligations.PortsAndLinks` can be met. -/
theorem witness_PortsAndLinks :
    (∃ (s : State) (p : Path) (n : Fin 16), (s.keeps p Block.port (↑n : ℕ) 0 = true))
    ∧ (∃ (s : State) (n : Fin 16), (s.coreUp = true) ∧ (s.portRuns n = true) ∧ (s.ports[n].link = false) ∧ (s.isReist n =
      true → s.ports[n].r.lstate ≠ LState.swap))
    ∧ (∃ (s : State) (n : Fin 16), (s.coreUp = true) ∧ (s.ports[n].cdr = true))
    ∧ (∃ (s : State) (n : Fin 16), (s.coreUp = true) ∧ (s.portRuns n = true) ∧ (s.rsFec n = true))
    ∧ (∃ (s : State) (n : Fin 16), (s.coreUp = true) ∧ (s.portRuns n = true) ∧ (s.reistUp n = false))
    ∧ (∃ (s : State) (n : Fin 16), (s.coreUp = true) ∧ (s.reistUp n = true) ∧ (s.ports[n].r.lstate = LState.up) ∧
      (s.ports[n].r.legSeq = none))
    ∧ (∃ (s : State) (n : Fin 16), (s.coreUp = true) ∧ (s.reistUp n = true) ∧ (s.ports[n].r.crcRun + 1 < 64))
    ∧ (∃ (s : State) (p : Path) (i : Fin 24) (v : Word), (s.keeps p Block.pinmux 0 (4 * (↑i : ℕ)) = true) ∧ (bitOf v 31 =
      false))
    ∧ (∃ (s : State) (p : Path) (i : Fin 24) (v : Word), (s.keeps p Block.pinmux 0 (4 * (↑i : ℕ)) = true) ∧ (bitOf v 31 =
      true) ∧ (bitsOf v 7 0 < 192) ∧ (∀ j < 24, j ≠ (↑i : ℕ) → Option.map (fun x => (↑x : ℕ)) (s.mapped j) ≠ some
      (bitsOf v 7 0)))
    ∧ (∃ (s : State) (p : Path) (i : Fin 24) (v : Word), (s.keeps p Block.pinmux 0 (4 * (↑i : ℕ)) = true) ∧ (bitOf v 31 =
      true) ∧ (bitsOf v 7 0 < 192) ∧ (∃ j < 24, j ≠ (↑i : ℕ) ∧ Option.map (fun x => (↑x : ℕ)) (s.mapped j) = some
      (bitsOf v 7 0))) :=
  ⟨⟨up, Path.f1, 0, by decide +kernel⟩,
   ⟨((eth 0).modPort 0 fun p => { p with link := false }), 0, by decide +kernel⟩,
   ⟨(eth 0), 0, by decide +kernel⟩,
   ⟨((eth 0).wr .port 0 0 0x68000000), 0, by decide +kernel⟩,
   ⟨(eth 0), 0, by decide +kernel⟩,
   ⟨(rei .up), 0, by decide +kernel⟩,
   ⟨(rei .train), 0, by decide +kernel⟩,
   ⟨up, Path.f1, 0, 0, by decide +kernel⟩,
   ⟨up, Path.f1, 0, 0x800000BF, by decide +kernel⟩,
   ⟨(up.wr .pinmux 0 4 0x800000BF), Path.f1, 0, 0x800000BF, by decide +kernel⟩⟩

/-- The clauses of `Obligations.PowerAndResets` can be met. -/
theorem witness_PowerAndResets :
    (∃ (s : State) (p : Path) (d : Fin 108), (s.keeps p Block.power 0 (4 * ((↑d : ℕ) / 32)) = true) ∧ (domCtl (↑d : ℕ) =
      DomCtl.keeper) ∧ (s.domReq d = true) ∧ (s.domIdle (↑d : ℕ) = true))
    ∧ (∃ (s : State) (p : Path) (d : Fin 108), (s.keeps p Block.power 0 (4 * ((↑d : ℕ) / 32)) = true) ∧ (domCtl (↑d : ℕ) =
      DomCtl.keeper) ∧ (s.domReq d = true) ∧ (s.domIdle (↑d : ℕ) = false))
    ∧ (∃ (s : State) (p : Path) (d : Fin 108), (s.keeps p Block.power 0 (4 * ((↑d : ℕ) / 32)) = true) ∧ (domCtl (↑d : ℕ) =
      DomCtl.keeper) ∧ (s.domReq d = false) ∧ (s.railOff (↑d : ℕ) = false))
    ∧ (∃ (s : State) (p : Path) (d : Fin 108), (s.keeps p Block.power 0 (4 * ((↑d : ℕ) / 32)) = true) ∧ (domCtl (↑d : ℕ) =
      DomCtl.keeper) ∧ (s.domReq d = false) ∧ (s.railOff (↑d : ℕ) = true))
    ∧ (∃ (s : State) (d : Fin 108), (s.coreUp = true) ∧ (s.domRising[d] = true))
    ∧ (∃ (s : State) (d : Fin 108), (s.coreUp = true) ∧ (s.domRising[d] = false))
    ∧ (∃ (s : State) (d : Fin 108) (b : ℕ) (i : Fin 128), (s.coreUp = true) ∧ (domBlock (↑d : ℕ) = some b) ∧ ((↑i : ℕ) = b)
      ∧ (s.fm.blks[i].st ≠ BlkSt.testing) ∧ (s.fm.waiting.length < 64) ∧ (83 ≤ (↑d : ℕ) → ∀ (q : Fin 25),
      s.mem.testBank = some q → (↑q : ℕ) = (↑d : ℕ) - 83))
    ∧ (∃ (s : State) (d : Fin 108) (q : Fin 25) (p : Fin 25), (s.coreUp = true) ∧ ((↑p : ℕ) = (↑d : ℕ) - 83) ∧ (83 ≤ (↑d :
      ℕ)) ∧ (s.mem.testBank = some q) ∧ (q ≠ p))
    ∧ (∃ (s : State) (g : Fin 12), (s.coreUp = true) ∧ (s.groups[g].supplyHeld = true))
    ∧ (∃ (s : State) (g : Fin 12), (s.coreUp = true) ∧ (s.groups[g].supplyHeld = false))
    ∧ (∃ (s : State), (s.coreUp = false) ∧ (s.oven.oscLost = false))
    ∧ (∃ (s : State), (s.coreUp = false) ∧ (s.tickInv) ∧ (s.oven.oscLost = true))
    ∧ (∃ (s : State) (p : Path), (s.keeps p Block.device 0 4 = true) ∧ (s.boot.resetArm = none))
    ∧ (∃ (s : State) (p : Path) (k : DWord), (s.keeps p Block.device 0 4 = true) ∧ (s.boot.resetArm = some k) ∧ (s.passed k
      (msTicks + 1) = true))
    ∧ (∃ (s : State) (p : Path) (k : DWord), (s.keeps p Block.device 0 4 = true) ∧ (s.boot.resetArm = some k) ∧ (s.passed k
      (msTicks + 1) = false)) :=
  ⟨⟨(up.wr .power 0 0 0xFFFFFFFF), Path.f1, 2, by decide +kernel⟩,
   ⟨((up.wr .power 0 0 0xFFFFFFFF).wr .stats 0 0 0x80000000), Path.f1, 2, by decide +kernel⟩,
   ⟨({ up.wr .power 0 0 0 with domOn := up.domOn.set 2 false }), Path.f1, 2, by decide +kernel⟩,
   ⟨((up.wr .power 0 4 0).modBoot fun b => { b with sheet := { b.sheet with svRails := 0xFFFFFF } }), Path.f1, 53, by decide +kernel⟩,
   ⟨({ up with domRising := up.domRising.set 0 true }), 0, by decide +kernel⟩,
   ⟨up, 0, by decide +kernel⟩,
   ⟨up, 1, 0x10, 0x10, by decide +kernel⟩,
   ⟨{ up with mem := { up.mem with testBank := some 3 } }, 85, 3, 2, by decide +kernel⟩,
   ⟨(up.modGroup 0 fun q => { q with supplyHeld := true }), 0, by decide +kernel⟩,
   ⟨up, 0, by decide +kernel⟩,
   ⟨({ State.reset with coreUp := false }), by decide +kernel⟩,
   ⟨({ State.reset with coreUp := false, oven := { State.reset.oven with oscLost := true } }), rfl, by unfold State.tickInv; decide +kernel, rfl⟩,
   ⟨up, Path.f1, by decide +kernel⟩,
   ⟨(up.modBoot fun b => { b with resetArm := some 0 }), Path.f1, 0, by decide +kernel⟩,
   ⟨(up.modBoot fun b => { b with resetArm := some (up.tick - 781250) }), Path.f1, (up.tick - 781250), by decide +kernel⟩⟩

/-- The clauses of `Obligations.PoweredDownRegisters` can be met. -/
theorem witness_PoweredDownRegisters :
    ∃ (s : State) (p : Path) (off : Word) (pl : Place), (s.carries p = true) ∧ (BitVec.toNat off < 1048576) ∧ (placeOf
      (BitVec.toNat off) = some pl) ∧ (pl.listed = true) ∧ (pl.blk ≠ Block.access) ∧ (s.placeDown pl = true) ∧
      (s.tooEarly p = false) :=
  ⟨({ up with domOn := up.domOn.set 2 false }), Path.f1, 0x40000, (⟨.stats, 0, 0⟩), by decide +kernel⟩

/-- The clauses of `Obligations.ProgramPorts` can be met. -/
theorem witness_ProgramPorts :
    (∃ (s : State) (p : Path) (pp : ProgPort), (s.keeps p (progPlace pp).blk (progPlace pp).inst ((progPlace pp).off + 4)
      = true) ∧ ((s.prog pp).phase = PPhase.idle))
    ∧ (∃ (s : State) (p : Path) (pp : ProgPort), (s.keeps p (progPlace pp).blk (progPlace pp).inst ((progPlace pp).off + 4)
      = true) ∧ ((s.prog pp).phase ≠ PPhase.idle))
    ∧ (∃ (s : State) (p : Path) (pp : ProgPort), (s.keeps p (progPlace pp).blk (progPlace pp).inst ((progPlace pp).off + 4)
      = true) ∧ ((s.prog pp).phase = PPhase.verifying))
    ∧ (∃ (s : State) (p : Path) (pp : ProgPort) (x : Sheet), (s.keeps p (progPlace pp).blk (progPlace pp).inst ((progPlace
      pp).off + 4) = true) ∧ ((s.prog pp).phase = PPhase.armed) ∧ (s.swapsAtOnce pp = true) ∧ ((s.prog pp).spare =
      some x))
    ∧ (∃ (s : State) (p : Path) (e : Fin 8) (x : Sheet), (s.keeps p Block.engine (↑e : ℕ) 8 = true) ∧ (s.engines[e].prog.cur
      = some x) ∧ (s.engHeld e = false))
    ∧ (∃ (s : State) (p : Path) (e : Fin 8), (s.keeps p Block.engine (↑e : ℕ) 8 = true) ∧ (s.engines[e].prog.cur = none ∨
      s.engHeld e = true))
    ∧ (∃ (s : State) (pp : ProgPort) (c : LoadCause), (s.coreUp = true) ∧ ((s.prog pp).phase = PPhase.verifying) ∧
      ((s.verifyImage pp).1 = Except.error c) ∧ (c ≠ LoadCause.busy))
    ∧ (∃ (s : State) (pp : ProgPort) (x : Sheet), (s.coreUp = true) ∧ ((s.prog pp).phase = PPhase.verifying) ∧
      ((s.verifyImage pp).1 = Except.ok x) ∧ ((s.prog pp).swapReq = false)) :=
  ⟨⟨up, Path.f1, (ProgPort.eng 0), by decide +kernel⟩,
   ⟨(up.modEng 0 fun g => { g with prog := { g.prog with phase := .verifying } }), Path.f1, (.eng 0), by decide +kernel⟩,
   ⟨(up.modEng 0 fun g => { g with prog := { g.prog with phase := .verifying } }), Path.f1, (.eng 0), by decide +kernel⟩,
   ⟨(up.modEng 0 fun g => { g with run := .idle, prog := { g.prog with phase := .armed, bank1 := some sheet } }), Path.f1, (.eng 0), sheet, by decide +kernel⟩,
   ⟨up, Path.f1, 0, sheet, by decide +kernel⟩,
   ⟨(up.modEng 0 fun g => { g with prog := Prog.reset }), Path.f1, 0, by decide +kernel⟩,
   ⟨(up.modEng 0 fun g => { g with prog := { g.prog with phase := .verifying } }), (.eng 0), .format, by decide +kernel⟩,
   ⟨verifying, (.eng 0), (⟨[], [], [], 0, 0, 0, 0, false, false, false, sha256 imgHead, [], []⟩), by decide +kernel⟩⟩

/-- The clauses of `Obligations.PtpMessages` can be met. -/
theorem witness_PtpMessages :
    (∃ (s : State) (n : Fin 16) (id : BitVec 9) (seq : BitVec 16) (ptp : Bool) (two : Bool) (t1 : Stamp) (t2 : Stamp) (t3
      : Stamp) (rate : BitVec 32) (tl : PtpTail) (tb : Edge) (tx : Edge) (var : ℕ) (tv : ℕ) (cls : Byte) (bench :
      Option (BitVec 256 × Word)) (c : Instr), (s.coreUp = true) ∧ (s.pteOn = true) ∧ (s.ptpUp n = true) ∧ (tl.auth =
      true) ∧ (c ∈ [Instr.syncRx n id seq { twoStep := two, ptpTimescale := ptp } t1 rate tl tb var, Instr.followUpRx
      n id seq t1 rate tl, Instr.delayReqRx n id seq tl tb var, Instr.delayRespRx n id seq t1 tl, Instr.pdelayReqRx n
      seq tl { edge := tb, var := var } { edge := tx, var := tv }, Instr.pdelayRespRx n seq t2 t3 tl tb var,
      Instr.announceRx n id cls bench tl.others tl.auth]))
    ∧ (∃ (s : State) (n : Fin 16) (id : BitVec 9) (seq : BitVec 16) (tl : PtpTail) (t2 : ℤ) (cf1 : ℤ) (ptp : Bool) (q :
      BitVec 16), (s.coreUp = true) ∧ (s.pteOn = true) ∧ (s.ptpUp n = true) ∧ (tl.auth = false) ∧ (s.sessClean n id =
      true) ∧ ((s.sessOr n id).pendSync = some (q, t2, cf1, ptp)) ∧ (q = seq))
    ∧ (∃ (s : State) (n : Fin 16) (id : BitVec 9) (seq : BitVec 16) (tl : PtpTail) (t2 : ℤ) (cf1 : ℤ) (ptp : Bool) (q :
      BitVec 16), (s.coreUp = true) ∧ (s.pteOn = true) ∧ (s.ptpUp n = true) ∧ (tl.auth = false) ∧ (s.sessClean n id =
      true) ∧ ((s.sessOr n id).pendSync = some (q, t2, cf1, ptp)) ∧ (q ≠ seq))
    ∧ (∃ (s : State) (n : Fin 16) (id : BitVec 9) (tl : PtpTail) (i : Fin 8), (s.coreUp = true) ∧ (s.pteOn = true) ∧
      (s.ptpUp n = true) ∧ (tl.auth = false) ∧ (s.sessClean n id = true) ∧ (s.masterInst n = some i) ∧ ((s.sessOr n
      id).srvDelayResp = true))
    ∧ (∃ (s : State) (n : Fin 16) (id : BitVec 9) (tl : PtpTail) (i : Fin 8), (s.coreUp = true) ∧ (s.pteOn = true) ∧
      (s.ptpUp n = true) ∧ (tl.auth = false) ∧ (s.sessClean n id = true) ∧ (s.masterInst n = some i) ∧ ((s.sessOr n
      id).srvDelayResp = false) ∧ (s.boot.stewardUp = false))
    ∧ (∃ (s : State) (n : Fin 16) (id : BitVec 9) (tl : PtpTail) (i : Fin 8), (s.coreUp = true) ∧ (s.pteOn = true) ∧
      (s.ptpUp n = true) ∧ (tl.auth = false) ∧ (s.sessClean n id = true) ∧ (s.masterInst n = some i) ∧ ((s.sessOr n
      id).srvDelayResp = false) ∧ (s.boot.stewardUp = true))
    ∧ (∃ (s : State) (n : Fin 16) (id : BitVec 9) (tl : PtpTail), (s.coreUp = true) ∧ (s.pteOn = true) ∧ (s.ptpUp n = true)
      ∧ (tl.auth = false) ∧ (s.sessClean n id = true) ∧ (s.masterInst n = none) ∧ (s.boot.stewardUp = false))
    ∧ (∃ (s : State) (n : Fin 16) (id : BitVec 9) (seq : BitVec 16) (tl : PtpTail) (t3 : ℤ), (s.coreUp = true) ∧ (s.pteOn =
      true) ∧ (s.ptpUp n = true) ∧ (tl.auth = false) ∧ (s.sessClean n id = true) ∧ ((s.sessOr n id).pendReq = some
      (seq, t3)))
    ∧ (∃ (s : State) (n : Fin 16) (seq : BitVec 16) (tl : PtpTail) (t1 : ℤ), (s.coreUp = true) ∧ (s.pteOn = true) ∧ (s.ptpUp
      n = true) ∧ (tl.auth = false) ∧ (s.ports[n].pdT1 = some t1) ∧ (s.ports[n].pdSeq = seq) ∧ (tl.cf.toInt ≠ 2 ^ 63 -
      1))
    ∧ (∃ (s : State) (i : Fin 8) (n : Fin 16) (id : BitVec 9), (s.coreUp = true) ∧ (s.pteOn = true) ∧ (s.sessClean n id =
      true) ∧ (s.instOn i n = true) ∧ (s.inState i n PtpState.master = true) ∧ ((s.sessOr n id).srvSync = true) ∧
      (s.profile i ≠ 2))
    ∧ (∃ (s : State) (i : Fin 8) (n : Fin 16) (id : BitVec 9) (r : Relay), (s.coreUp = true) ∧ (s.pteOn = true) ∧
      (s.sessClean n id = true) ∧ (s.instOn i n = true) ∧ (s.inState i n PtpState.master = true) ∧ ((s.sessOr n
      id).srvSync = true) ∧ (s.profile i = 2) ∧ (s.insts[i].relay = some r) ∧ (r.port ≠ n) ∧ (s.portDatum r.port ≠
      s.portDatum n))
    ∧ (∃ (s : State) (i : Fin 8) (n : Fin 16) (id : BitVec 9) (r : Relay), (s.coreUp = true) ∧ (s.pteOn = true) ∧
      (s.sessClean n id = true) ∧ (s.instOn i n = true) ∧ (s.inState i n PtpState.master = true) ∧ ((s.sessOr n
      id).srvSync = true) ∧ (s.profile i = 2) ∧ (s.insts[i].relay = some r) ∧ (r.port ≠ n) ∧ (s.portDatum r.port =
      s.portDatum n))
    ∧ (∃ (s : State) (i : Fin 8) (n : Fin 16) (id : BitVec 9), (s.coreUp = true) ∧ (s.pteOn = true) ∧ (s.sessClean n id =
      true) ∧ (s.instOn i n = true) ∧ (s.profile i ∈ [2, 3, 5]))
    ∧ (∃ (s : State) (i : Fin 8) (n : Fin 16) (id : BitVec 9), (s.coreUp = true) ∧ (s.pteOn = true) ∧ (s.sessClean n id =
      true) ∧ (s.instOn i n = true) ∧ (s.profile i ∉ [2, 3, 5]) ∧ (s.inState i n PtpState.slave = true))
    ∧ (∃ (s : State) (i : Fin 8) (n : Fin 16) (id : BitVec 9), (s.coreUp = true) ∧ (s.pteOn = true) ∧ (s.sessClean n id =
      true) ∧ (s.instOn i n = true) ∧ (s.inState i n PtpState.master = true) ∧ ((s.sessOr n id).srvAnnounce = true)) :=
  ⟨⟨(eth 0), 0, 0, 5, false, false, stampZero, stampZero, stampZero, 0, ⟨0, 0, true⟩, ⟨0, 0⟩, ⟨0, 0⟩, 0, 0, 0xFF, none, (.announceRx 0 0 0xFF none 0 true), by decide +kernel⟩,
   ⟨({ eth 0 with sessions := [⟨0, 0, false, true, true, true, true, 0xFF, some (5, 9, 1, true), none, 0, none⟩] }), 0, 0, 5, ⟨0, 0, false⟩, 9, 1, true, 5, by decide +kernel⟩,
   ⟨({ eth 0 with sessions := [⟨0, 0, false, true, true, true, true, 0xFF, some (5, 9, 1, true), none, 0, none⟩] }), 0, 0, 6, ⟨0, 0, false⟩, 9, 1, true, 5, by decide +kernel⟩,
   ⟨((eth 0).modInst 0 fun q => { q with states := q.states.set 0 .master }), 0, 0, ⟨0, 0, false⟩, 0, by decide +kernel⟩,
   ⟨({ ((eth 0).modInst 0 fun q => { q with states := q.states.set 0 .master }).modBoot fun b => { b with stewardUp := false } with
      sessions := [⟨0, 0, false, true, true, true, false, 0xFF, none, none, 0, none⟩] }), 0, 0, ⟨0, 0, false⟩, 0, by decide +kernel⟩,
   ⟨({ (eth 0).modInst 0 fun q => { q with states := q.states.set 0 .master } with
      sessions := [⟨0, 0, false, true, true, true, false, 0xFF, none, none, 0, none⟩] }), 0, 0, ⟨0, 0, false⟩, 0, by decide +kernel⟩,
   ⟨(({ eth 0 with sessions := [⟨0, 0, false, true, true, true, false, 0xFF, none, none, 0, none⟩] }).modBoot fun b => { b with stewardUp := false }), 0, 0, ⟨0, 0, false⟩, by decide +kernel⟩,
   ⟨({ eth 0 with sessions := [⟨0, 0, false, true, true, true, true, 0xFF, none, some (5, 9), 0, none⟩] }), 0, 0, 5, ⟨0, 0, false⟩, 9, by decide +kernel⟩,
   ⟨((eth 0).modPort 0 fun p => { p with pdT1 := some 9, pdSeq := 5 }), 0, 5, ⟨0, 0, false⟩, 9, by decide +kernel⟩,
   ⟨(eth 0), 0, 0, 0, by decide +kernel⟩,
   ⟨({ ((eth 0x20000000).wr .port 1 0 0x41000000) with insts := up.insts.set 0 { Inst.reset with relay := some ⟨1, 0, 0, stampZero, 0⟩ } }), 0, 0, 0, (⟨1, 0, 0, stampZero, 0⟩), by decide +kernel⟩,
   ⟨({ ((eth 0x20000000).wr .port 1 0 0x40000000) with insts := up.insts.set 0 { Inst.reset with relay := some ⟨1, 0, 0, stampZero, 0⟩ } }), 0, 0, 0, (⟨1, 0, 0, stampZero, 0⟩), by decide +kernel⟩,
   ⟨(eth 0x20000000), 0, 0, 0, by decide +kernel⟩,
   ⟨(eth 0), 0, 0, 0, by decide +kernel⟩,
   ⟨(eth 0x20000000), 0, 0, 0, by decide +kernel⟩⟩

/-- The clauses of `Obligations.Qualification` can be met. -/
theorem witness_Qualification :
    (∃ (s : State) (p : Path) (src : Fin 96), (s.keeps p Block.refin ((↑src : ℕ) % 16) (slotOff src 0) = true) ∧ (s.slotEn
      src = false) ∧ (s.slots[src].qstate = QState.off))
    ∧ (∃ (s : State) (p : Path) (src : Fin 96), (s.keeps p Block.refin ((↑src : ℕ) % 16) (slotOff src 0) = true) ∧ (s.slotEn
      src = true) ∧ (s.slots[src].qstate = QState.lockout))
    ∧ (∃ (s : State) (p : Path) (src : Fin 96) (v : BitVec 4), (s.keeps p Block.refin ((↑src : ℕ) % 16) (slotOff src 0) =
      true) ∧ (v.toNat < 8))
    ∧ (∃ (s : State) (src : Fin 96) (k : DWord), (s.coreUp = true) ∧ (s.refUp = true) ∧ (s.slots[src].qstate = QState.wait)
      ∧ (s.hardAlarm src = none) ∧ (s.grant src = true) ∧ (s.slots[src].wtrAt = some k) ∧ (s.passed k 0 = true))
    ∧ (∃ (s : State) (src : Fin 96) (e : Fin 8), (s.reaches (Path.eng e) Block.refin ((↑src : ℕ) % 16) (slotOff src 20) =
      true) ∧ (s.owner src = some e))
    ∧ (∃ (s : State) (p : Path) (src : Fin 96), (s.reaches p Block.refin ((↑src : ℕ) % 16) (slotOff src 20) = true) ∧ (∀ (e
      : Fin 8), s.owner src = some e → p ≠ Path.eng e))
    ∧ (∃ (s : State) (src : Fin 96), (s.coreUp = true) ∧ (s.refUp = true) ∧ ((s.owner src).isSome = true) ∧ (s.mn src 28 15
      0 ≠ 0) ∧ (s.slots[src].stale = false) ∧ (s.passed s.slots[src].vttlFrom (s.mn src 28 15 0 * msTicks) = true)) :=
  ⟨⟨up, Path.f1, 0, by decide +kernel⟩,
   ⟨((up.wr .refin 15 0xC0 0x8F000000).modSlot 95 fun x => { x with qstate := .lockout }), Path.f1, 95, by decide +kernel⟩,
   ⟨up, Path.f1, 0, 0, by decide +kernel⟩,
   ⟨((up.wr .refin 15 0xC0 0x8F000000).modSlot 95 fun x => { x with qstate := .wait, wtrAt := some 0 }), 95, 0, by decide +kernel⟩,
   ⟨(up.wr .refin 15 0xC0 0x87000000), 95, 7, by decide +kernel⟩,
   ⟨up, Path.f1, 0, by decide +kernel⟩,
   ⟨((up.wr .refin 15 0xC0 0x87000000).wr .mon 95 28 1), 95, by decide +kernel⟩⟩

/-- The clauses of `Obligations.ReferenceRegisters` can be met. -/
theorem witness_ReferenceRegisters :
    (∃ (s : State) (p : Path) (n : Fin 16) (v : Word), (s.keeps p Block.refin (↑n : ℕ) 0 = true) ∧ (bitsOf v 31 30 ≠ 3) ∧
      (tooFast (s.wide Block.mon (↑n : ℕ) 0 2) (bitsOf v 15 0) = false))
    ∧ (∃ (s : State) (p : Path) (n : Fin 16) (v : Word), (s.keeps p Block.refin (↑n : ℕ) 0 = true) ∧ (tooFast (s.wide
      Block.mon (↑n : ℕ) 0 2) (bitsOf v 15 0) = true))
    ∧ (∃ (s : State) (p : Path) (src : Fin 96), (s.keeps p Block.refin ((↑src : ℕ) % 16) (slotOff src 16) = true))
    ∧ (∃ (s : State) (n : Fin 16), (s.coreUp = true) ∧ (s.hostUp = true) ∧ ((s.path Path.f0).snapView = false) ∧
      (s.placeDown { blk := Block.loop, inst := (↑n : ℕ), off := 8 } = false)) :=
  ⟨⟨up, Path.f1, 0, 0, by decide +kernel⟩,
   ⟨(up.wr .mon 15 0 0xFFFFFFFF |>.wr .mon 15 4 0xFFFFFFFF), Path.f1, 15, 1, by decide +kernel⟩,
   ⟨up, Path.f1, 0, by decide +kernel⟩,
   ⟨up, 0, by decide +kernel⟩⟩

/-- The clauses of `Obligations.RegisterWrites` can be met. -/
theorem witness_RegisterWrites :
    (∃ (s : State) (p : Path) (off : Word), (s.carries p = true) ∧ (BitVec.toNat off < 1048576) ∧ (s.tooEarly p = true))
    ∧ (∃ (s : State) (p : Path) (off : Word), (s.carries p = true) ∧ (BitVec.toNat off < 1048576) ∧ (s.tooEarly p = false) ∧
      (placeOf (BitVec.toNat off) = none))
    ∧ (∃ (s : State) (p : Path) (off : Word) (pl : Place), (s.carries p = true) ∧ (BitVec.toNat off < 1048576) ∧ (s.tooEarly
      p = false) ∧ (placeOf (BitVec.toNat off) = some pl) ∧ (pl.blk ≠ Block.access) ∧ (s.placeDown pl = true))
    ∧ (∃ (s : State) (p : Path) (off : Word) (pl : Place), (s.carries p = true) ∧ (BitVec.toNat off < 1048576) ∧ (s.tooEarly
      p = false) ∧ (placeOf (BitVec.toNat off) = some pl) ∧ (pl.blk ≠ Block.access) ∧ (s.placeDown pl = false) ∧
      (s.keeper p = false) ∧ (pl.reg.rw = 0) ∧ (pl.reg.cmd = 0) ∧ (pl.reg.rwk ≠ 0) ∧ (pl.reg.mw = false) ∧ (p =
      Path.f0))
    ∧ (∃ (s : State) (p : Path) (off : Word) (pl : Place), (s.carries p = true) ∧ (BitVec.toNat off < 1048576) ∧ (s.tooEarly
      p = false) ∧ (placeOf (BitVec.toNat off) = some pl) ∧ (pl.blk ≠ Block.access) ∧ (s.placeDown pl = false) ∧
      (s.keeper p = false) ∧ (pl.reg.rw = 0) ∧ (pl.reg.cmd = 0) ∧ (pl.reg.rwk ≠ 0) ∧ (pl.reg.mw = false) ∧ (p =
      Path.sb))
    ∧ (∃ (s : State) (p : Path) (off : Word) (pl : Place) (e : Fin 8), (s.carries p = true) ∧ (BitVec.toNat off < 1048576) ∧
      (s.tooEarly p = false) ∧ (placeOf (BitVec.toNat off) = some pl) ∧ (pl.blk ≠ Block.access) ∧ (s.placeDown pl =
      false) ∧ (s.keeper p = false) ∧ (pl.reg.rw = 0) ∧ (pl.reg.cmd = 0) ∧ (pl.reg.rwk ≠ 0) ∧ (pl.reg.mw = false) ∧ (p
      = Path.eng e))
    ∧ (∃ (s : State) (p : Path) (off : Word) (pl : Place), (s.carries p = true) ∧ (BitVec.toNat off < 1048576) ∧ (s.tooEarly
      p = false) ∧ (placeOf (BitVec.toNat off) = some pl) ∧ (s.placeDown pl = false) ∧ (s.keeperAt p pl = true) ∧
      (pl.blk ∈ [Block.benchmark, Block.memory, Block.sideband] ∨ pl.blk = Block.access ∧ 256 ≤ pl.off) ∧ (pl.reg.rwk
      ≠ 0) ∧ (s.r pl.blk pl.inst pl.off &&& ~~~(pl.reg.rw ||| pl.reg.rwk) = 0))
    ∧ (∃ (s : State) (p : Path) (off : Word) (pl : Place), (s.carries p = true) ∧ (BitVec.toNat off < 1048576) ∧ (s.tooEarly
      p = false) ∧ (placeOf (BitVec.toNat off) = some pl) ∧ (s.placeDown pl = false) ∧ (pl.plain = true) ∧ (pl.reg.mw
      = false) ∧ (s.writable p pl ≠ 0))
    ∧ (∃ (s : State) (p : Path) (i : ℕ) (b : ℕ), (i < 32) ∧ (b < 8) ∧ (s.keeps p Block.access 0 (256 + 4 * i) = true) ∧
      (pathAliases p = true)) :=
  ⟨⟨(up.modBoot fun b => { b with sheetDone := false }), Path.f1, 0, by decide +kernel⟩,
   ⟨up, Path.f1, 0xFFFFF, by decide +kernel⟩,
   ⟨({ up with domOn := up.domOn.set 2 false }), Path.f1, 0x40000, (⟨.stats, 0, 0⟩), by decide +kernel⟩,
   ⟨up, .f0, 0x100C, (⟨.device, 0, 12⟩), by decide +kernel⟩,
   ⟨up, .sb, 0x1010, (⟨.device, 0, 16⟩), by decide +kernel⟩,
   ⟨up, (.eng 0), 0x1804, (⟨.device, 0, 0x804⟩), 0, by decide +kernel⟩,
   ⟨up, .f1, 0x5008, (⟨.benchmark, 0, 8⟩), by decide +kernel⟩,
   ⟨up, .f0, BitVec.ofNat 32 (key .engine 0 0x7C), (⟨.engine, 0, 0x7C⟩), by decide +kernel⟩,
   ⟨up, Path.f1, 0, 0, by decide +kernel⟩⟩

/-- The clauses of `Obligations.ReisticaFramesAndPhaseExchange` can be met. -/
theorem witness_ReisticaFramesAndPhaseExchange :
    (∃ (s : State) (n : Fin 16), (s.coreUp = true) ∧ (s.pteOn = true) ∧ (s.reistUp n = true) ∧ (s.ports[n].r.lstate =
      LState.train))
    ∧ (∃ (s : State) (n : Fin 16) (a : List Byte) (b : List Byte), (s.coreUp = true) ∧ (s.pteOn = true) ∧ (s.reistUp n =
      true) ∧ (s.ports[n].r.lstate ∈ [LState.legend, LState.verify, LState.up]) ∧ (s.legendParts n 0 = (a, b)))
    ∧ (∃ (s : State) (n : Fin 16), (s.coreUp = true) ∧ (s.pteOn = true) ∧ (s.sendsPhase n = true) ∧ (s.ports[n].r.pxSent ≠
      s.ports[n].r.pxInst))
    ∧ (∃ (s : State) (n : Fin 16) (f : PhaseFrame) (bounds : List Edge), (s.coreUp = true) ∧ (s.pteOn = true) ∧ (s.reistUp n
      = true) ∧ (bounds.length = 64) ∧ (∀ e ∈ s.ports[n].r.sent, e.1 ≠ f.echoSeq))
    ∧ (∃ (s : State) (n : Fin 16) (f : PhaseFrame) (bounds : List Edge) (var : ℕ) (t1 : ℤ) (t4 : ℤ) (rt : ℤ) (x : ℤ),
      (s.coreUp = true) ∧ (s.pteOn = true) ∧ (s.reistUp n = true) ∧ (bounds.length = 64) ∧ (s.ports[n].r.sent =
      [(f.echoSeq, t1)]) ∧ (f.echoValid = true) ∧ (f.reversed = s.ports[n].r.reversed) ∧ (s.ports[n].r.lstate =
      LState.up) ∧ (s.ports[n].r.pairs = []) ∧ (t4 = s.phaseStamp n bounds var) ∧ (rt = t4 - t1 - (stamp16 f.t3 -
      stamp16 f.t2)) ∧ (x = (stamp16 f.t3 - t4) * 2 ^ 16 + rt * 2 ^ 15 - s.asym n * 2 ^ 15)) :=
  ⟨⟨(rei .train), 0, by decide +kernel⟩,
   ⟨(rei .legend), 0, (((rei .legend).legendParts 0 0).1), (((rei .legend).legendParts 0 0).2), by decide +kernel, by decide +kernel, by decide +kernel, by decide +kernel, rfl⟩,
   ⟨((rei .up).modPort 0 fun p => { p with r := { p.r with pxInst := 5 } }), 0, by decide +kernel⟩,
   ⟨(rei .up), 0, ({ pxSeq := 0, t3 := stampZero, echoSeq := 0, t2 := stampZero, echoValid := false, reversed := false, unwarmed := false }), (List.replicate 64 ⟨0, 0⟩), by decide +kernel⟩,
   ⟨((rei .up).modPort 0 fun p => { p with r := { p.r with sent := [(5, 77)], pairs := [] } }), 0, (⟨0, stampZero, 5, stampZero, true, false, false⟩), (List.replicate 64 ⟨0, 0⟩), 0, 77, _, _, _, by refine ⟨?_, ?_, ?_, ?_, ?_, ?_, ?_, ?_, ?_, rfl, rfl, rfl⟩ <;> decide +kernel⟩⟩

/-- The clauses of `Obligations.ReisticaSurvey` can be met. -/
theorem witness_ReisticaSurvey :
    (∃ (s : State) (n : Fin 16), (s.coreUp = true) ∧ (s.pteOn = true) ∧ (s.reistUp n = true) ∧ (s.canSurvey n = false))
    ∧ (∃ (s : State) (n : Fin 16), (s.coreUp = true) ∧ (s.pteOn = true) ∧ (s.reistUp n = true) ∧ (s.canSurvey n = true) ∧
      (s.ports[n].r.reqOut = none))
    ∧ (∃ (s : State) (n : Fin 16) (id : Byte), (s.coreUp = true) ∧ (s.pteOn = true) ∧ (s.reistUp n = true) ∧
      (s.ports[n].r.reqOut = some id) ∧ (s.ports[n].r.lstate = LState.up))
    ∧ (∃ (s : State) (n : Fin 16), (s.coreUp = true) ∧ (s.pteOn = true) ∧ (s.reistUp n = true) ∧ (s.ports[n].r.surveying =
      true ∨ s.ports[n].r.reqOut.isSome = true))
    ∧ (∃ (s : State) (n : Fin 16), (s.coreUp = true) ∧ (s.pteOn = true) ∧ (s.ports[n].r.surveying = true) ∧
      (s.ports[n].r.lstate = LState.up) ∧ (2 ^ s.ports[n].r.svLog2 ≤ s.ports[n].r.svInst) ∧ (s.ports[n].r.svPhase ≤ 3)
      ∧ (2 ^ s.ports[n].r.svLog2 ≤ 2 * s.ports[n].r.svN[finMod 4 s.ports[n].r.svPhase]))
    ∧ (∃ (s : State) (n : Fin 16), (s.coreUp = true) ∧ (s.pteOn = true) ∧ (s.ports[n].r.surveying = true) ∧
      (s.ports[n].r.lstate = LState.up) ∧ (2 ^ s.ports[n].r.svLog2 ≤ s.ports[n].r.svInst) ∧ (s.ports[n].r.svPhase ≤ 3)
      ∧ (2 * s.ports[n].r.svN[finMod 4 s.ports[n].r.svPhase] < 2 ^ s.ports[n].r.svLog2))
    ∧ (∃ (s : State) (n : Fin 16) (r : Reist), (s.coreUp = true) ∧ (s.pteOn = true) ∧ (s.ports[n].r = r) ∧ (r.surveying =
      true) ∧ (r.svPhase = 4))
    ∧ (∃ (s : State) (n : Fin 16), (s.coreUp = true) ∧ (s.pteOn = true) ∧ (0 < bitsOf (s.rlink n) 15 8) ∧ (s.passed
      s.ports[n].r.survAt (bitsOf (s.rlink n) 15 8 * 3600 * secTicks) = true) ∧ (s.canSurvey n = true))
    ∧ (∃ (s : State) (n : Fin 16), (s.coreUp = true) ∧ (s.pteOn = true) ∧ (s.ports[n].r.lstate = LState.swap) ∧ (s.passed
      s.ports[n].r.swapAt (50 * msTicks) = true))
    ∧ (∃ (s : State) (n : Fin 16), (s.coreUp = true) ∧ (s.pteOn = true) ∧ (s.ports[n].r.cmdWait = true) ∧
      (s.ports[n].r.surveying = true) ∧ (s.passed s.ports[n].r.swapAt (10 * msTicks) = true))
    ∧ (∃ (s : State) (n : Fin 16), (s.coreUp = true) ∧ (s.pteOn = true) ∧ (s.ports[n].r.lstate = LState.verify) ∧
      (s.ports[n].r.retrainAt = none) ∧ (s.verifyOk n s.ports[n].r.ver = false))
    ∧ (∃ (s : State) (p : Path) (n : Fin 16), (s.keeps p Block.port (↑n : ℕ) 72 = true) ∧ (s.canSurvey n = true))
    ∧ (∃ (s : State) (p : Path) (n : Fin 16), (s.keeps p Block.port (↑n : ℕ) 72 = true) ∧ (s.ports[n].r.lstate ∈
      [LState.legend, LState.verify, LState.up]))
    ∧ (∃ (s : State) (p : Path) (n : Fin 16), (s.keeps p Block.port (↑n : ℕ) 72 = true) ∧ (s.ports[n].r.lstate ∉
      [LState.legend, LState.verify, LState.up])) :=
  ⟨⟨(rei .up), 0, by decide +kernel⟩,
   ⟨surv, 0, by decide +kernel⟩,
   ⟨(surv.modPort 0 fun p => { p with r := { p.r with reqOut := some 9 } }), 0, 9, by decide +kernel⟩,
   ⟨(surv.modPort 0 fun p => { p with r := { p.r with reqOut := some 9 } }), 0, by decide +kernel⟩,
   ⟨(surv.modPort 0 fun p => { p with r := { p.r with surveying := true, svPhase := 3, svLog2 := 4, svInst := 16, svN := Vector.replicate 4 8 } }), 0, by decide +kernel⟩,
   ⟨(surv.modPort 0 fun p => { p with r := { p.r with surveying := true, svPhase := 3, svLog2 := 4, svInst := 16, svN := Vector.replicate 4 7 } }), 0, by decide +kernel⟩,
   ⟨(surv.modPort 0 fun p => { p with r := { p.r with surveying := true, svPhase := 4, svN := Vector.replicate 4 8 } }), 0, _, by decide +kernel, by decide +kernel, rfl, by decide +kernel, by decide +kernel⟩,
   ⟨({ surv.modPort 0 fun p => { p with r := { p.r with peerId := BitVec.allOnes 64, rlink := 0x100 } } with tick := 3600000000000 }), 0, by decide +kernel⟩,
   ⟨((rei .swap)), 0, by decide +kernel⟩,
   ⟨(surv.modPort 0 fun p => { p with r := { p.r with surveying := true, cmdWait := true } }), 0, by decide +kernel⟩,
   ⟨((rei .verify)), 0, by decide +kernel⟩,
   ⟨surv, Path.f1, 0, by decide +kernel⟩,
   ⟨(rei .up), Path.f1, 0, by decide +kernel⟩,
   ⟨up, Path.f1, 0, by decide +kernel⟩⟩

/-- The clauses of `Obligations.ReliefAndChannelFunctions` can be met. -/
theorem witness_ReliefAndChannelFunctions :
    (∃ (s : State) (g : Fin 12), (s.coreUp = true) ∧ (s.ticking = true) ∧ (s.groupOn g = true) ∧ (s.groups[g].noRelief =
      false) ∧ (s.groups[g].rot = RotPhase.idle) ∧ (s.groups[g].rotAt = none))
    ∧ (∃ (s : State) (g : Fin 12) (hist : List ℕ), (s.coreUp = true) ∧ (s.groupOn g = true) ∧ (s.groups[g].rot =
      RotPhase.collecting) ∧ (prefixSum (fun c => hist.getD c 0) 4096 = calHits s.groups[g].rotParams.1) ∧ (tableValid
      (fun c => hist.getD c 0) (calHits s.groups[g].rotParams.1) = true))
    ∧ (∃ (s : State) (g : Fin 12) (hist : List ℕ), (s.coreUp = true) ∧ (s.groupOn g = true) ∧ (s.groups[g].rot =
      RotPhase.collecting) ∧ (prefixSum (fun c => hist.getD c 0) 4096 = calHits s.groups[g].rotParams.1) ∧ (tableValid
      (fun c => hist.getD c 0) (calHits s.groups[g].rotParams.1) = false) ∧ (s.groups[g].invalids < 2))
    ∧ (∃ (s : State) (g : Fin 12) (dr : List (BitVec 12)) (dx : List (BitVec 12)) (tap : Bool), (s.coreUp = true) ∧
      (s.groupOn g = true) ∧ (s.groups[g].recover = none) ∧ (s.groups[g].rot = RotPhase.overlap) ∧ (dr.length =
      Nat.max 1 (bitsOf s.groups[g].rotParams.2.1 31 16)) ∧ (dx.length = dr.length) ∧ (tap = true →
      s.groups[g].ovlEdges < dr.length ∧ s.passed s.groups[g].ovlAt s.groups[g].ovlWin = true) ∧ (tap = false →
      dr.length ≤ s.groups[g].ovlEdges) ∧ ((roundDiv (List.foldl (fun a y => a + max 3072 (min 12544
      ((↑(s.groups[g].newTab.1.getD (s.groups[g].newTab.2.1.max (s.groups[g].newTab.2.2.min y.toNat)) 0) : ℤ) + s.skew
      g s.groups[g].oldest.1 s.groups[g].relief))) 0 dr - List.foldl (fun a y => a + max 3072 (min 12544 ((↑(s.lookup
      g s.groups[g].oldest.2 y.toNat).1 : ℤ) + s.skew g s.groups[g].oldest.1 s.groups[g].oldest.2))) 0 dx)
      dr.length).natAbs ≤ bitsOf s.groups[g].rotParams.2.2 15 0) ∧ ((s.skew g s.groups[g].oldest.1 s.groups[g].relief
      - roundDiv (List.foldl (fun a y => a + max 3072 (min 12544 ((↑(s.groups[g].newTab.1.getD
      (s.groups[g].newTab.2.1.max (s.groups[g].newTab.2.2.min y.toNat)) 0) : ℤ) + s.skew g s.groups[g].oldest.1
      s.groups[g].relief))) 0 dr - List.foldl (fun a y => a + max 3072 (min 12544 ((↑(s.lookup g s.groups[g].oldest.2
      y.toNat).1 : ℤ) + s.skew g s.groups[g].oldest.1 s.groups[g].oldest.2))) 0 dx) dr.length).natAbs ≤ 2048))
    ∧ (∃ (s : State) (g : Fin 12), (s.coreUp = true) ∧ (s.groups[g].noRelief = true) ∧ (s.passed s.groups[g].reliefLostAt
      (60 * secTicks) = true))
    ∧ (∃ (s : State) (p : Path) (ch : Fin 192) (v : Word), (s.keeps p Block.survey ((↑ch : ℕ) / 16) (chOff ch 0) = true) ∧
      (s.chans[ch].hand = none) ∧ (bitsOf (s.chCfg ch) 31 28 ≠ bitsOf v 31 28))
    ∧ (∃ (s : State) (p : Path) (ch : Fin 192) (v : Word), (s.keeps p Block.survey ((↑ch : ℕ) / 16) (chOff ch 0) = true) ∧
      (s.chans[ch].hand = none) ∧ (bitsOf (s.chCfg ch) 31 28 = bitsOf v 31 28))
    ∧ (∃ (s : State) (p : Path) (ch : Fin 192) (h : Hand), (s.keeps p Block.survey ((↑ch : ℕ) / 16) (chOff ch 0) = true) ∧
      (s.chans[ch].hand = some h))
    ∧ (∃ (s : State) (ch : Fin 192) (h : Hand), (s.coreUp = true) ∧ (s.chans[ch].hand = some h) ∧ (h.held = []) ∧ (s.passed
      h.h 8 = true))
    ∧ (∃ (s : State) (ch : Fin 192) (w : Word), (s.coreUp = true) ∧ (s.ticking = true) ∧ (s.groupOn (grpOf ch) = true) ∧
      (s.cfgNow ch = some w) ∧ (modeOf w = 6) ∧ (s.rxBusy ch = false))
    ∧ (∃ (s : State) (ch : Fin 192) (f : RxFrame) (w : Word), (s.coreUp = true) ∧ (s.ticking = true) ∧ (s.groupOn (grpOf ch)
      = true) ∧ (s.cfgNow ch = some w) ∧ (modeOf w = 6) ∧ (s.chans[ch].rxCur = some f) ∧ (s.passed f.start f.len =
      true) ∧ (s.chans[ch].rx.length < 256))
    ∧ (∃ (s : State) (p : Path) (ch : Fin 192), (s.carries p = true) ∧ (s.placeDown
      { blk := Block.survey, inst := (↑ch : ℕ) / 16, off := chOff ch 36 } = false))
    ∧ (∃ (s : State) (p : Path) (ch : Fin 192), (s.reaches p Block.survey ((↑ch : ℕ) / 16) (chOff ch 40) = true) ∧ (modeOf
      (s.chCfg ch) = 7) ∧ (s.chans[ch].hand = none) ∧ (s.todActive ch = false) ∧ (s.chans[ch].txCur = none) ∧
      (s.chans[ch].tx = []))
    ∧ (∃ (s : State) (p : Path) (ch : Fin 192) (f : TxFrame), (s.reaches p Block.survey ((↑ch : ℕ) / 16) (chOff ch 40) =
      true) ∧ (modeOf (s.chCfg ch) = 7) ∧ (s.chans[ch].hand = none) ∧ (s.todActive ch = false) ∧ (s.chans[ch].txCur =
      some f) ∧ (s.chans[ch].tx.length < 256) ∧ (s.txHeld ch = true ∧ s.chans[ch].txStalled = true ∨ s.txHeld ch =
      false ∧ s.chans[ch].txStalled = false ∧ BitVec.toNat s.tick < f.stop))
    ∧ (∃ (s : State) (p : Path) (ch : Fin 192), (s.keeps p Block.survey ((↑ch : ℕ) / 16) (chOff ch 28) = true) ∧ (modeOf
      (s.chCfg ch) = 9) ∧ (s.chans[ch].hand = none)) :=
  ⟨⟨up, 0, by decide +kernel⟩,
   ⟨(up.modGroup 0 fun g => { g with rot := .collecting, rotParams := (0, 0, 0) }), 0, (List.replicate 256 16384), by rw [flatHist]; decide +kernel⟩,
   ⟨(up.modGroup 0 fun g => { g with rot := .collecting, rotParams := (0, 0, 0) }), 0, [4194304], by decide +kernel⟩,
   ⟨(up.modGroup 0 fun g => { g with rot := .overlap, rotParams := (0, 0, 0x00000800), skews := [(0, 0), (16, 0)], ovlEdges := 1, newTab := ([5000], 0, 0), cores := g.cores.map fun c => { c with tab := some [5000], lo := 0, hi := 0 } }), 0, [5], [5], false, by decide +kernel⟩,
   ⟨(up.modGroup 0 fun g => { g with noRelief := true, reliefLostAt := 0 }), 0, by decide +kernel⟩,
   ⟨(up.modChan 0 fun c => { c with hand := none }), Path.f1, 0, 0x40000000, by decide +kernel⟩,
   ⟨(up.modChan 0 fun c => { c with hand := none }), Path.f1, 0, 0, by decide +kernel⟩,
   ⟨(up.modChan 0 fun c => { c with hand := some ⟨up.tick + 5, 0, [], []⟩ }), Path.f1, 0, (⟨up.tick + 5, 0, [], []⟩), by decide +kernel⟩,
   ⟨(up.modChan 0 fun c => { c with hand := some ⟨7, 0, [], []⟩ }), 0, (⟨7, 0, [], []⟩), by decide +kernel⟩,
   ⟨(up.wr .survey 0 0x800 0x60000000), 0, 0x60000000, by decide +kernel⟩,
   ⟨((up.wr .survey 0 0x800 0x60000000).modChan 0 fun c => { c with rxCur := some ⟨7, 9, 0, false, none, 0x60000000⟩ }), 0, ⟨7, 9, 0, false, none, 0x60000000⟩, 0x60000000, by decide +kernel⟩,
   ⟨up, .f1, 0, by decide +kernel⟩,
   ⟨(up.wr .survey 0 0x800 0x70000000), Path.f1, 0, by decide +kernel⟩,
   ⟨((up.wr .survey 0 0x800 0x70000000).modChan 0 fun c => { c with txCur := some ⟨up.tick, 9, [true]⟩ }), Path.f1, 0, ⟨up.tick, 9, [true]⟩, by decide +kernel⟩,
   ⟨(up.wr .survey 0 0x800 0x90000000), Path.f1, 0, by decide +kernel⟩⟩

/-- The clauses of `Obligations.SampleOfALoop` can be met. -/
theorem witness_SampleOfALoop :
    (∃ (s : State) (n : Fin 16) (k : DWord), (s.coreUp = true) ∧ (s.loops[n].instTick = some k) ∧ (s.loopEn n = true) ∧
      (s.passed k 256 = true) ∧ (s.loopIsland n = true) ∧ (s.loops[n].prog.due = false) ∧ (s.loops[n].code =
      LoopCode.freeRun) ∧ (s.loops[n].role = TwinRole.solo) ∧ (s.loops[n].sw = none) ∧ (s.loops[n].acqFirst = false))
    ∧ (∃ (s : State) (n : Fin 16) (k : DWord) (l : Loop) (own : List LEv) (sum : ℤ) (q : ℕ) (sat : Bool), (s.coreUp = true)
      ∧ (s.loops[n].instTick = some k) ∧ (s.loopEn n = true) ∧ (s.passed k 256 = true) ∧ (s.loopIsland n = true) ∧
      (s.loops[n] = l) ∧ (l.prog.due = false) ∧ (l.role = TwinRole.solo) ∧ (own = List.filter (fun e => LEv.upTo
      l.instHi e && decide (l.instLo < e.r)) l.evs) ∧ (∀ (y : Fin 96), l.sel = some y → errSum (s.nomFreq y) (s.srcDiv
      y) own = (sum, q, sat)) ∧ (l.sel = none → (sum, q, sat) = (0, 0, false)) ∧ (l.acqFirst = true) ∧ (q ≠ 0))
    ∧ (∃ (s : State) (n : Fin 16) (k : DWord) (l : Loop) (own : List LEv) (sum : ℤ) (q : ℕ) (sat : Bool) (x : ℤ) (sat' :
      Bool) (bad : Bool), (s.coreUp = true) ∧ (s.loops[n].instTick = some k) ∧ (s.loopEn n = true) ∧ (s.passed k 256 =
      true) ∧ (s.loopIsland n = true) ∧ (s.loops[n] = l) ∧ (l.prog.due = false) ∧ (l.role = TwinRole.solo) ∧ (own =
      List.filter (fun e => LEv.upTo l.instHi e && decide (l.instLo < e.r)) l.evs) ∧ (∀ (y : Fin 96), l.sel = some y →
      errSum (s.nomFreq y) (s.srcDiv y) own = (sum, q, sat)) ∧ (l.sel = none → (sum, q, sat) = (0, 0, false)) ∧
      (l.acqFirst = false) ∧ (x = if q = 0 then 0 else satS 64 (roundDiv sum q - l.pbo)) ∧ (sat' = (decide (q ≠ 0) &&
      (sat || decide (x ≠ roundDiv sum q - l.pbo)))) ∧ (bad = (l.clampPull || sat'))) :=
  ⟨⟨((up.wr .loop 0 0 0x80000000).modLoop 0 fun l => { l with instTick := some 0 }), 0, 0, by decide +kernel⟩,
   ⟨((up.wr .loop 0 0 0x80000000).modLoop 0 fun l => { l with instTick := some 0, code := .locked, sel := some 0, acqFirst := true, evs := [⟨none, 1, some 5, false, false, false⟩], instHi := 1 }), 0, 0, _, _, 5, 1, false, by decide +kernel, rfl, by decide +kernel, by decide +kernel, by decide +kernel, rfl, rfl, rfl, rfl, fun y h => (by obtain rfl := Option.some.inj h; decide +kernel), fun h => (by cases h), rfl, by decide⟩,
   ⟨((up.wr .loop 0 0 0x80000000).modLoop 0 fun l => { l with instTick := some 0, code := .locked, sel := some 0, acqFirst := false, evs := [⟨none, 1, some 5, false, false, false⟩], instHi := 1 }), 0, 0, _, _, 5, 1, false, 5, false, false, by decide +kernel, rfl, by decide +kernel, by decide +kernel, by decide +kernel, rfl, rfl, rfl, rfl, fun y h => (by obtain rfl := Option.some.inj h; decide +kernel), fun h => (by cases h), rfl, by decide, by decide, by decide⟩⟩

/-- The clauses of `Obligations.Selection` can be met. -/
theorem witness_Selection :
    (∃ (s : State) (n : Fin 16), (s.coreUp = true) ∧ (s.loopIsland n = true) ∧ (s.ticking = true) ∧ (BitVec.toNat s.tick %
      781250 = 0) ∧ (s.loops[n].sw = none))
    ∧ (∃ (s : State) (n : Fin 16) (x : Fin 96) (why : SelReason), (s.coreUp = true) ∧ (s.loopIsland n = true) ∧
      (s.loops[n].evalDue.isSome = true) ∧ (s.loopEn n = true) ∧ (s.loops[n].role = TwinRole.solo) ∧
      (s.loops[n].heldFault = false) ∧ (s.oven.oscLost = false) ∧ (s.loops[n].sw = none) ∧ (s.loops[n].holdoffAt =
      none) ∧ (s.loops[n].code = LoopCode.freeRun) ∧ (s.choose n = some (x, why)))
    ∧ (∃ (s : State) (n : Fin 16) (p : Fin 96) (due : SelReason) (b : ℕ × Fin 96 × ℕ), (s.coreUp = true) ∧ (s.loopIsland n =
      true) ∧ (s.loops[n].evalDue = some due) ∧ (s.loopEn n = true) ∧ (s.loops[n].role = TwinRole.solo) ∧
      (s.loops[n].heldFault = false) ∧ (s.oven.oscLost = false) ∧ (s.loops[n].sw = none) ∧ (s.loops[n].holdoffAt =
      none) ∧ (s.loops[n].code.follows = true) ∧ (s.loops[n].sel = some p) ∧ (s.manual n = none) ∧ (s.best n
      (s.eligible n) = some b) ∧ (s.best n (List.filter (fun e => decide (e.2.1 = p)) (s.eligible n)) = none))
    ∧ (∃ (s : State) (n : Fin 16) (p : Fin 96) (due : SelReason) (b : ℕ × Fin 96 × ℕ) (pe : ℕ × Fin 96 × ℕ), (s.coreUp =
      true) ∧ (s.loopIsland n = true) ∧ (s.loops[n].evalDue = some due) ∧ (s.loopEn n = true) ∧ (s.loops[n].role =
      TwinRole.solo) ∧ (s.loops[n].heldFault = false) ∧ (s.oven.oscLost = false) ∧ (s.loops[n].sw = none) ∧
      (s.loops[n].holdoffAt = none) ∧ (s.loops[n].code.follows = true) ∧ (s.loops[n].sel = some p) ∧ (s.manual n =
      none) ∧ (s.best n (s.eligible n) = some b) ∧ (s.best n (List.filter (fun e => decide (e.2.1 = p)) (s.eligible
      n)) = some pe) ∧ (b.2.1 ≠ p) ∧ (s.loops[n].qlEn = true ∧ s.order b.2.1 < s.order p ∨ s.loops[n].revert = true ∧
      s.rank n b < s.rank n pe))
    ∧ (∃ (s : State) (n : Fin 16) (p : Fin 96) (due : SelReason) (b : ℕ × Fin 96 × ℕ) (pe : ℕ × Fin 96 × ℕ), (s.coreUp =
      true) ∧ (s.loopIsland n = true) ∧ (s.loops[n].evalDue = some due) ∧ (s.loopEn n = true) ∧ (s.loops[n].role =
      TwinRole.solo) ∧ (s.loops[n].heldFault = false) ∧ (s.oven.oscLost = false) ∧ (s.loops[n].sw = none) ∧
      (s.loops[n].holdoffAt = none) ∧ (s.loops[n].code.follows = true) ∧ (s.loops[n].sel = some p) ∧ (s.manual n =
      none) ∧ (s.best n (s.eligible n) = some b) ∧ (s.best n (List.filter (fun e => decide (e.2.1 = p)) (s.eligible
      n)) = some pe) ∧ (b.2.1 ≠ p) ∧ (¬(s.loops[n].qlEn = true ∧ s.order b.2.1 < s.order p)) ∧ (¬(s.loops[n].revert =
      true ∧ s.rank n b < s.rank n pe)))
    ∧ (∃ (s : State) (p : Path) (n : Fin 16) (x : Fin 96) (w : Sw), (s.keeps p Block.refin ((↑x : ℕ) % 16) (slotOff x 0) =
      true) ∧ (s.slotEn x = true) ∧ (s.slots[x].qstate = QState.qualified) ∧ (s.loops[n].sw = some w) ∧ (w.tgt = x) ∧
      (s.loops[n].sel ≠ some x) ∧ (s.loops[n].role = TwinRole.solo))
    ∧ (∃ (s : State) (n : Fin 16) (k : DWord), (s.coreUp = true) ∧ (s.loopIsland n = true) ∧ (s.loops[n].holdoffAt = some k)
      ∧ (s.loops[n].role ≠ TwinRole.standby) ∧ (s.passed k 0 = true))
    ∧ (∃ (s : State) (n : Fin 16) (w : Sw), (s.coreUp = true) ∧ (s.loopIsland n = true) ∧ (s.loops[n].sw = some w) ∧ (w.full
      = true) ∧ (s.loops[n].role = TwinRole.solo) ∧ (s.loops[n].swapDeferred = false))
    ∧ (∃ (s : State) (n : Fin 16) (x : Fin 96), (s.coreUp = true) ∧ (s.loopIsland n = true) ∧ (s.loops[n].code =
      LoopCode.acquire) ∧ (s.loops[n].par.acqTmo ≠ 0) ∧ (s.loops[n].role = TwinRole.solo) ∧ (s.loops[n].candHeld = [])
      ∧ (s.loops[n].sel = some x) ∧ (s.loops[n].secReady = none) ∧ (s.passed s.loops[n].acqAt (s.loops[n].par.acqTmo *
      secTicks) = true)) :=
  ⟨⟨up, 0, by decide +kernel⟩,
   ⟨(((((up.wr .loop 0 0 0x80000000).wr .loop 0 0x90 0x80000000).wr .refin 0 0x20 0x8F000000).modSlot 0 fun x => { x with qstate := .qualified, order := 1 }).modLoop 0 fun l => { l with evalDue := some .order }), 0, 0, .acquire, by decide +kernel⟩,
   ⟨(((((up.wr .loop 0 0 0x80000000).wr .loop 0 0x90 1).modSlot 1 fun x => { x with qstate := .qualified, order := 1 })).modLoop 0 fun l => { l with evalDue := some .order, code := .locked, sel := some 0 }), 0, 0, .order, (0, 1, 0), by decide +kernel⟩,
   ⟨((((((up.wr .loop 0 0 0x80000000).wr .loop 0 0x90 1).wr .loop 0 0x94 0x00001000).modSlot 0 fun x => { x with qstate := .qualified, order := 1 }).modSlot 1 fun x => { x with qstate := .qualified, order := 2 }).modLoop 0 fun l => { l with evalDue := some .order, code := .locked, sel := some 0, selWord := 0x20000000 }), 0, 0, .order, (0, 1, 0), (1, 0, 1), by decide +kernel⟩,
   ⟨((((((up.wr .loop 0 0 0x80000000).wr .loop 0 0x90 1).wr .loop 0 0x94 0x00001000).modSlot 0 fun x => { x with qstate := .qualified, order := 1 }).modSlot 1 fun x => { x with qstate := .qualified, order := 2 }).modLoop 0 fun l => { l with evalDue := some .order, code := .locked, sel := some 0, selWord := 0 }), 0, 0, .order, (0, 1, 0), (1, 0, 1), by decide +kernel⟩,
   ⟨((up.wr .refin 0 0x20 0x80000000).modSlot 0 fun x => { x with qstate := .qualified }).modLoop 0 fun l => { l with sw := some ⟨0, .order, 0, [], true⟩ }, .f1, 0, 0, (⟨0, .order, 0, [], true⟩), by decide +kernel⟩,
   ⟨(up.modLoop 0 fun l => { l with holdoffAt := some 0 }), 0, 0, by decide +kernel⟩,
   ⟨(up.modLoop 0 fun l => { l with sw := some ⟨5, .order, 0, [], true⟩ }), 0, (⟨5, .order, 0, [], true⟩), by decide +kernel⟩,
   ⟨(up.modLoop 0 fun l => { l with code := .acquire, sel := some 5, par := { l.par with acqTmo := 10 } }), 0, 5, by decide +kernel⟩⟩

/-- The clauses of `Obligations.SessionsStreamsAndQueues` can be met. -/
theorem witness_SessionsStreamsAndQueues :
    (∃ (s : State) (i : Fin 32) (lf : List ℤ) (lr : List ℤ) (k : ℕ) (nf : ℕ) (nr : ℕ) (sf : ℤ) (sr : ℤ), (s.coreUp = true)
      ∧ (s.pteOn = true) ∧ (s.streams[i].open_ = true) ∧ (s.streams[i].winLen ≤ s.streams[i].cnt) ∧ ((s.binding i).1 =
      false) ∧ (s.streams[i].selMode ≠ 0) ∧ (lf.Perm s.streams[i].dfs) ∧ (List.Pairwise (fun x1 x2 => x1 ≤ x2) lf) ∧
      (lr.Perm s.streams[i].drs) ∧ (List.Pairwise (fun x1 x2 => x1 ≤ x2) lr) ∧ (k = if s.streams[i].selMode = 2 then 2
      ^ (bitsOf s.streams[i].word 9 6).min (Nat.min 16 (bitsOf s.streams[i].word 14 10)) else 1) ∧ (sf = (List.take k
      lf).sum) ∧ (nf = (List.take k lf).length) ∧ (sr = (List.take k lr).sum) ∧ (nr = (List.take k lr).length) ∧
      (s.slots[streamSrc i].qstate ≠ QState.off) ∧ (nf ≠ 0) ∧ (s.isP2p (s.binding i).2.1 = false) ∧ (nr ≠ 0))
    ∧ (∃ (s : State) (i : Fin 32) (lf : List ℤ) (lr : List ℤ) (k : ℕ) (nf : ℕ) (nr : ℕ) (sf : ℤ) (sr : ℤ) (m : ℤ), (s.coreUp
      = true) ∧ (s.pteOn = true) ∧ (s.streams[i].open_ = true) ∧ (s.streams[i].winLen ≤ s.streams[i].cnt) ∧
      ((s.binding i).1 = false) ∧ (s.streams[i].selMode ≠ 0) ∧ (lf.Perm s.streams[i].dfs) ∧ (List.Pairwise (fun x1 x2
      => x1 ≤ x2) lf) ∧ (lr.Perm s.streams[i].drs) ∧ (List.Pairwise (fun x1 x2 => x1 ≤ x2) lr) ∧ (k = if
      s.streams[i].selMode = 2 then 2 ^ (bitsOf s.streams[i].word 9 6).min (Nat.min 16 (bitsOf s.streams[i].word 14
      10)) else 1) ∧ (sf = (List.take k lf).sum) ∧ (nf = (List.take k lf).length) ∧ (sr = (List.take k lr).sum) ∧ (nr
      = (List.take k lr).length) ∧ (s.slots[streamSrc i].qstate ≠ QState.off) ∧ (nf ≠ 0) ∧ (s.isP2p (s.binding i).2.1
      = true) ∧ (s.ports[(s.binding i).2.1].mld = some m))
    ∧ (∃ (s : State) (i : Fin 32) (lf : List ℤ) (lr : List ℤ) (k : ℕ) (nf : ℕ) (nr : ℕ) (sf : ℤ) (sr : ℤ), (s.coreUp = true)
      ∧ (s.pteOn = true) ∧ (s.streams[i].open_ = true) ∧ (s.streams[i].winLen ≤ s.streams[i].cnt) ∧ ((s.binding i).1 =
      false) ∧ (s.streams[i].selMode ≠ 0) ∧ (lf.Perm s.streams[i].dfs) ∧ (List.Pairwise (fun x1 x2 => x1 ≤ x2) lf) ∧
      (lr.Perm s.streams[i].drs) ∧ (List.Pairwise (fun x1 x2 => x1 ≤ x2) lr) ∧ (k = if s.streams[i].selMode = 2 then 2
      ^ (bitsOf s.streams[i].word 9 6).min (Nat.min 16 (bitsOf s.streams[i].word 14 10)) else 1) ∧ (sf = (List.take k
      lf).sum) ∧ (nf = (List.take k lf).length) ∧ (sr = (List.take k lr).sum) ∧ (nr = (List.take k lr).length) ∧
      (s.slots[streamSrc i].qstate ≠ QState.off) ∧ (nf = 0 ∨ s.isP2p (s.binding i).2.1 = false ∧ nr = 0 ∨ s.isP2p
      (s.binding i).2.1 = true ∧ s.ports[(s.binding i).2.1].mld = none))
    ∧ (∃ (s : State) (i : Fin 32) (lf : List ℤ) (lr : List ℤ) (k : ℕ) (nf : ℕ) (nr : ℕ) (sf : ℤ) (sr : ℤ) (a : ℤ) (b : ℤ),
      (s.coreUp = true) ∧ (s.pteOn = true) ∧ (s.streams[i].open_ = true) ∧ (s.streams[i].winLen ≤ s.streams[i].cnt) ∧
      ((s.binding i).1 = false) ∧ (s.streams[i].selMode ≠ 0) ∧ (lf.Perm s.streams[i].dfs) ∧ (List.Pairwise (fun x1 x2
      => x1 ≤ x2) lf) ∧ (lr.Perm s.streams[i].drs) ∧ (List.Pairwise (fun x1 x2 => x1 ≤ x2) lr) ∧ (k = if
      s.streams[i].selMode = 2 then 2 ^ (bitsOf s.streams[i].word 9 6).min (Nat.min 16 (bitsOf s.streams[i].word 14
      10)) else 1) ∧ (sf = (List.take k lf).sum) ∧ (nf = (List.take k lf).length) ∧ (sr = (List.take k lr).sum) ∧ (nr
      = (List.take k lr).length) ∧ (s.slots[streamSrc i].qstate ≠ QState.off) ∧ (lf.head? = some a) ∧ (lr.head? = some
      b) ∧ (s.streams[i].word = s.r Block.pte 0 (128 + 4 * (↑i : ℕ))) ∧ (s.streamWanted i = true))
    ∧ (∃ (s : State) (n : Fin 16) (id : BitVec 9) (seq : BitVec 16) (tl : PtpTail) (t2 : ℤ) (cf1 : ℤ) (ptp : Bool) (i : Fin
      32), (s.coreUp = true) ∧ (s.pteOn = true) ∧ (s.ptpUp n = true) ∧ (tl.auth = false) ∧ (s.sessClean n id = true) ∧
      ((s.sessOr n id).pendSync = some (seq, t2, cf1, ptp)) ∧ (cf1 ≠ 2 ^ 63 - 1) ∧ (tl.cf.toInt ≠ 2 ^ 63 - 1) ∧
      (s.streams[i].open_ = true) ∧ (s.binding i = (false, n, id.toNat)) ∧ (s.streams[i].cnt < s.streams[i].winLen))
    ∧ (∃ (s : State) (n : Fin 16) (id : BitVec 9), (s.coreUp = true) ∧ (s.pteOn = true) ∧ ((s.sessOr n id).active = true))
    ∧ (∃ (s : State) (n : Fin 16) (id : BitVec 9), (s.coreUp = true) ∧ (s.pteOn = true) ∧ ((s.sessOr n id).active = false))
    ∧ (∃ (s : State) (n : Fin 16) (id : BitVec 9) (k : Grant), (s.coreUp = true) ∧ (s.pteOn = true) ∧ ((s.sessOr n
      id).serves k = true))
    ∧ (∃ (s : State) (n : Fin 16) (id : BitVec 9), (s.coreUp = true) ∧ (s.pteOn = true) ∧ ((s.sessOr n id).granted = true))
    ∧ (∃ (s : State) (n : Fin 16), (s.coreUp = true) ∧ (s.pteOn = true) ∧ (s.esmcOn n = true) ∧ (s.ports[n].link = true))
    ∧ (∃ (s : State) (n : Fin 16), (s.coreUp = true) ∧ (s.ports[n].qlFailed = false) ∧ (s.passed s.ports[n].esmcAt (5 *
      secTicks) = true))
    ∧ (∃ (s : State) (n : Fin 16), (s.coreUp = true) ∧ (s.pteOn = true) ∧ (s.ptpUp n = true) ∧ (s.ports[n].txq.length < 16))
    ∧ (∃ (s : State) (n : Fin 16), (s.coreUp = true) ∧ (s.pteOn = true) ∧ (s.ptpUp n = true) ∧ (16 ≤ s.ports[n].txq.length))
    ∧ (∃ (s : State) (p : Path) (n : Fin 16) (v : Word) (e : TxqEntry) (rest : List TxqEntry), (s.reaches p Block.port (↑n :
      ℕ) 24 = true) ∧ (s.ports[n].txq = e :: rest) ∧ (p = ownerPath (s.rf Block.port (↑n : ℕ) 20 1 0)) ∧ (e.id =
      BitVec.setWidth 16 v))
    ∧ (∃ (s : State) (p : Path) (n : Fin 16) (v : Word) (e : TxqEntry) (rest : List TxqEntry), (s.reaches p Block.port (↑n :
      ℕ) 24 = true) ∧ (s.ports[n].txq = e :: rest) ∧ (¬(p = ownerPath (s.rf Block.port (↑n : ℕ) 20 1 0) ∧ e.id =
      BitVec.setWidth 16 v)))
    ∧ (∃ (s : State) (p : Path) (n : Fin 16), (s.reaches p Block.port (↑n : ℕ) 24 = true) ∧ (s.ports[n].txq = [])) :=
  ⟨⟨({ (up.modSlot (streamSrc 0) fun x => { x with qstate := .qualified }) with streams := up.streams.set 0 { up.streams[0] with open_ := true, cnt := 1, word := 0x00008000, dfs := [7], drs := [9] } }), 0, [7], [9], 1, 1, 1, 7, 9, by decide +kernel, by decide +kernel, by decide +kernel, by decide +kernel, by decide +kernel, by decide +kernel, by decide, by decide, by decide, by decide, by decide +kernel⟩,
   ⟨({ ((eth 0x20000000).modSlot (streamSrc 0) fun x => { x with qstate := .qualified }).modPort 0 (fun p => { p with mld := some 5 }) with streams := up.streams.set 0 { up.streams[0] with open_ := true, cnt := 1, word := 0x00008000, dfs := [7], drs := [9] } }), 0, [7], [9], 1, 1, 1, 7, 9, 5, by decide +kernel, by decide +kernel, by decide +kernel, by decide +kernel, by decide +kernel, by decide +kernel, by decide, by decide, by decide, by decide, by decide +kernel⟩,
   ⟨({ (up.modSlot (streamSrc 0) fun x => { x with qstate := .qualified }) with streams := up.streams.set 0 { up.streams[0] with open_ := true, cnt := 1, word := 0x00008000, dfs := [], drs := [9] } }), 0, [], [9], 1, 0, 1, 0, 9, by decide +kernel, by decide +kernel, by decide +kernel, by decide +kernel, by decide +kernel, by decide +kernel, by decide, by decide, by decide, by decide, by decide +kernel⟩,
   ⟨({ (((eth 0).wr .pte 0 0x80 0x80008000).modSlot (streamSrc 0) fun x => { x with qstate := .qualified }) with sessions := [⟨0, 0, true, true, true, true, true, 0xFF, none, none, 0, none⟩], streams := up.streams.set 0 { up.streams[0] with open_ := true, cnt := 1, word := 0x80008000, dfs := [7], drs := [9] } }), 0, [7], [9], 1, 1, 1, 7, 9, 7, 9, by decide +kernel, by decide +kernel, by decide +kernel, by decide +kernel, by decide +kernel, by decide +kernel, by decide, by decide, by decide, by decide, by decide +kernel⟩,
   ⟨({ eth 0 with sessions := [⟨0, 0, true, true, true, true, true, 0xFF, some (5, 0, 0, false), none, 0, none⟩], streams := up.streams.set 0 { up.streams[0] with open_ := true, cnt := 0, word := 0 } }), 0, 0, 5, (⟨0, 0, false⟩), 0, 0, false, 0, by decide +kernel⟩,
   ⟨({ eth 0 with sessions := [⟨0, 0, true, true, true, true, true, 0xFF, none, none, 0, none⟩] }), 0, 0, by decide +kernel⟩,
   ⟨up, 0, 0, by decide +kernel⟩,
   ⟨up, 0, 0, .sync, by decide +kernel⟩,
   ⟨up, 0, 0, by decide +kernel⟩,
   ⟨((eth 0).wr .port 0 0 0x40080000), 0, by decide +kernel⟩,
   ⟨up, 0, by decide +kernel⟩,
   ⟨(eth 0), 0, by decide +kernel⟩,
   ⟨((eth 0).modPort 0 fun p => { p with txq := List.replicate 16 ⟨0, 0, 0, 0, false, false, stampZero⟩ }), 0, by decide +kernel⟩,
   ⟨(((eth 0).wr .port 0 20 1).modPort 0 fun p => { p with txq := [⟨0, 0, 0, 0, false, false, stampZero⟩] }), .f1, 0, 0, (⟨0, 0, 0, 0, false, false, stampZero⟩), [], by decide +kernel⟩,
   ⟨(((eth 0).wr .port 0 20 1).modPort 0 fun p => { p with txq := [⟨0, 0, 0, 0, false, false, stampZero⟩] }), .f1, 0, 6, (⟨0, 0, 0, 0, false, false, stampZero⟩), [], by decide +kernel⟩,
   ⟨up, Path.f1, 0, by decide +kernel⟩⟩

/-- The clauses of `Obligations.SideBand` can be met. -/
theorem witness_SideBand :
    (∃ (s : State) (count : Byte) (off : Word) (pec : Pec), (count = 4) ∧ (pec = Pec.given (s.sbPec 1 count (beBytes 4
      (BitVec.toNat off))) ∨ pec = Pec.absent ∧ s.rb Block.sideband 0 0 31 = false) ∧ (s.tickInv))
    ∧ (∃ (count : Byte), (count ≠ 4))
    ∧ (∃ (s : State) (count : Byte) (v : Word) (pec : Pec), (count = 4) ∧ ((∃ b, pec = Pec.given b ∧ b ≠ s.sbPec 3 count
      (beBytes 4 (BitVec.toNat v))) ∨ pec = Pec.absent ∧ s.rb Block.sideband 0 0 31 = true))
    ∧ (∃ (s : State) (count : Byte) (off : Word) (v : Word) (pec : Pec), (count = 8) ∧ ((∃ b, pec = Pec.given b ∧ b ≠
      s.sbPec 5 count (beBytes 4 (BitVec.toNat off) ++ beBytes 4 (BitVec.toNat v))) ∨ pec = Pec.absent ∧ s.rb
      Block.sideband 0 0 31 = true))
    ∧ (∃ (s : State) (count : Byte) (v : Word) (pec : Pec), (s.coreUp = true) ∧ (s.boot.sheetDone = true) ∧ (count = 4) ∧
      (pec = Pec.given (s.sbPec 3 count (beBytes 4 (BitVec.toNat v))) ∨ pec = Pec.absent ∧ s.rb Block.sideband 0 0 31
      = false) ∧ (BitVec.toNat s.sideband.pointer = key Block.access 0 0))
    ∧ (∃ (s : State) (count : Byte) (off : Word) (v : Word) (pec : Pec), (s.coreUp = true) ∧ (s.boot.sheetDone = true) ∧
      (count = 8) ∧ (pec = Pec.given (s.sbPec 5 count (beBytes 4 (BitVec.toNat off) ++ beBytes 4 (BitVec.toNat v))) ∨
      pec = Pec.absent ∧ s.rb Block.sideband 0 0 31 = false) ∧ (BitVec.toNat off = key Block.access 0 0))
    ∧ (∃ (s : State) (count : Byte) (off : Word), (count = 4) ∧ (s.coreUp = true) ∧ (BitVec.toNat off = key Block.access 0
      0))
    ∧ (∃ (s : State), (s.coreUp = false) ∧ (BitVec.toNat s.sideband.pointer = key Block.datum 0 0))
    ∧ (∃ (code : Byte), (code ∉ [1, 2, 3, 4, 5, 16]))
    ∧ (∃ (s : State), (s.alertOn = true) ∧ (s.tickInv))
    ∧ (∃ (s : State), (s.alertOn = false) ∧ (s.tickInv)) :=
  ⟨⟨up, 4, 0, .absent, rfl, Or.inr ⟨rfl, by decide +kernel⟩, by unfold State.tickInv; decide +kernel⟩,
   ⟨0, by decide +kernel⟩,
   ⟨(up.wr .sideband 0 0 0x80000000), 4, 0, .absent, rfl, Or.inr ⟨rfl, by decide +kernel⟩⟩,
   ⟨(up.wr .sideband 0 0 0x80000000), 8, 0, 0, .absent, rfl, Or.inr ⟨rfl, by decide +kernel⟩⟩,
   ⟨({ up with sideband := { up.sideband with pointer := 0x2000 } }), 4, 0, .absent, by decide +kernel, by decide +kernel, rfl, Or.inr ⟨rfl, by decide +kernel⟩, by decide +kernel⟩,
   ⟨up, 8, 0x2000, 0, .absent, by decide +kernel, by decide +kernel, rfl, Or.inr ⟨rfl, by decide +kernel⟩, by decide +kernel⟩,
   ⟨up, 4, 0x2000, by decide +kernel⟩,
   ⟨({ State.reset with coreUp := false, sideband := { up.sideband with pointer := 0x28000 } }), by decide +kernel⟩,
   ⟨0, by decide +kernel⟩,
   ⟨({ up.wr .access 0 0x200 0x200 with dbOut := 1 }), by unfold State.tickInv; decide +kernel⟩,
   ⟨up, by unfold State.tickInv; decide +kernel⟩⟩

/-- The clauses of `Obligations.StampPath` can be met. -/
theorem witness_StampPath :
    (∃ (s : State) (ch : Fin 192) (fall : Bool) (code : BitVec 12) (w : Word), (s.coreUp = true) ∧ (s.ticking = true) ∧
      (s.groupOn (grpOf ch) = true) ∧ (s.cfgNow ch = some w) ∧ (modeOf w = 1) ∧ (selects w fall = true) ∧ (s.coreless
      ch = false) ∧ (s.chans[ch].dead (ovenInstant (s.tick + 2) (s.fraction ch (s.coreAt ch) code.toNat).1) = false) ∧
      (s.chans[ch].fifo.length < 32))
    ∧ (∃ (s : State) (ch : Fin 192) (fall : Bool) (code : BitVec 12) (w : Word), (s.coreUp = true) ∧ (s.ticking = true) ∧
      (s.groupOn (grpOf ch) = true) ∧ (s.cfgNow ch = some w) ∧ (modeOf w = 1) ∧ (selects w fall = true) ∧ (s.coreless
      ch = false) ∧ (s.chans[ch].dead (ovenInstant (s.tick + 2) (s.fraction ch (s.coreAt ch) code.toNat).1) = true))
    ∧ (∃ (s : State) (g : Fin 12) (r : RawStamp) (rest : List RawStamp), (s.coreUp = true) ∧ (s.chans[chIx g
      s.groups[g].rr].fifo = r :: rest) ∧ (r.islB = false) ∧ (s.groups[g].xa.length < 64) ∧ (∀ x ∈ s.groups[g].xb,
      x.1.ch ≠ r.ch))
    ∧ (∃ (s : State) (g : Fin 12) (r : RawStamp) (rest : List RawStamp), (s.coreUp = true) ∧ (s.chans[chIx g
      s.groups[g].rr].fifo = r :: rest) ∧ (r.islB = true) ∧ (s.groups[g].xb.length < 64) ∧ (∀ x ∈ s.groups[g].xa,
      x.1.ch ≠ r.ch))
    ∧ (∃ (s : State) (g : Fin 12) (r : RawStamp) (rest : List (RawStamp × Bool)), (s.coreUp = true) ∧ (s.groups[g].xa = (r,
      true) :: rest) ∧ (BitVec.toNat r.k ≤ BitVec.toNat s.tick) ∧ (s.islandRoom 0 = true) ∧ (s.datUp 0 = true) ∧
      (r.kind = StampKind.edge) ∧ (bitOf r.cfg 21 = true))
    ∧ (∃ (s : State) (ch : Fin 192) (w : Word) (k : DWord) (d : BitVec 14), (s.coreUp = true) ∧ (s.cfgNow ch = some w) ∧
      (modeOf w = 2) ∧ (s.chans[ch].ivStart = some (k, d)) ∧ (s.passed k (2 ^ 40) = true))
    ∧ (∃ (s : State) (ch : Fin 192) (w : Word) (k : DWord) (d : BitVec 14), (s.coreUp = true) ∧ (s.cfgNow ch = some w) ∧
      (modeOf w = 3) ∧ (s.chans[ch].perOpen = some (k, d)) ∧ (s.passed k (2 ^ 40) = true)) :=
  ⟨⟨(up.wr .survey 0 0x800 0x10000000), 0, false, 0, 0x10000000, by decide +kernel⟩,
   ⟨((up.wr .survey 0 0x800 0x10000000).modChan 0 fun c => { c with lastFire := some (2 ^ 80) }), 0, false, 0, 0x10000000,
    by refine ⟨?_, ?_, ?_, ?_, ?_, ?_, ?_, dead_of_late _ _ _ rfl (by decide +kernel)⟩ <;> decide +kernel⟩,
   ⟨(up.modChan 0 fun c => { c with fifo := [raw] }), 0, raw, [], by decide +kernel⟩,
   ⟨(up.modChan 0 fun c => { c with fifo := [{ raw with cfg := 0x14000000 }] }), 0, ({ raw with cfg := 0x14000000 }), [], by decide +kernel⟩,
   ⟨(up.modGroup 0 fun g => { g with xa := [({ raw with cfg := 0x10200000 }, true)] }), 0, ({ raw with cfg := 0x10200000 }), [], by decide +kernel⟩,
   ⟨(({ up with tick := 0x20000000000 }.wr .survey 0 0x800 0x20000000).modChan 0 fun c => { c with ivStart := some (7, 0) }), 0, 0x20000000, 7, 0, by decide +kernel⟩,
   ⟨(({ up with tick := 0x20000000000 }.wr .survey 0 0x800 0x30000000).modChan 0 fun c => { c with perOpen := some (7, 0) }), 0, 0x30000000, 7, 0, by decide +kernel⟩⟩

/-- The clauses of `Obligations.StartSheetFirmwareAndModes` can be met. -/
theorem witness_StartSheetFirmwareAndModes :
    (∃ (s : State) (a : Word) (v : Word) (w : State) (t : State), (s.coreUp = true) ∧ (s.sheetLive = true) ∧ (s.recordIs
      (writeRec a v) = true) ∧ (w = s.pastRecord (writeRec a v)) ∧ (t = w.hubWrite Path.stw (BitVec.toNat a)
      4294967295 v false none))
    ∧ (∃ (s : State) (a : Word) (v : Word), (s.coreUp = true) ∧ (s.sheetLive = true) ∧ (s.recordIs (indRec a v) = true) ∧
      (BitVec.toNat a < 65536))
    ∧ (∃ (s : State) (a : Word) (v : Word) (src : Fin 96) (off : ℕ), (s.coreUp = true) ∧ (s.sheetLive = true) ∧
      (s.recordIs (indRec a v) = true) ∧ (off ∈ [8, 12, 16, 20, 24, 32, 36]) ∧ (BitVec.toNat a = 65536 + 64 * (↑src : ℕ)
      + off) ∧ (s.placeDown (Place.mk Block.mon (↑src : ℕ) off) = false) ∧ (s.r Block.mon (↑src : ℕ) off
      &&& ~~~((Place.mk Block.mon (↑src : ℕ) off).reg.rw |||
      (Place.mk Block.mon (↑src : ℕ) off).reg.rwk) = 0))
    ∧ (∃ (s : State) (a : Word) (v : Word) (x : ℕ), (s.coreUp = true) ∧ (s.sheetLive = true) ∧ (s.recordIs (indRec a v) =
      true) ∧ (BitVec.toNat a = 34078720 + x) ∧ (x < 524288) ∧ (x % 4 = 0) ∧ (s.protection = 2) ∧ (s.arch.badIn
      (524288 + x) 4 = false))
    ∧ (∃ (s : State) (k : Byte) (x : Byte) (sw : Bool) (im : List Byte), (s.coreUp = true) ∧ (s.sheetLive = true) ∧
      (s.recordIs (imageRec k x sw im) = true) ∧ (3 ≤ BitVec.toNat k))
    ∧ (∃ (s : State) (e : Fin 8) (im : List Byte), (s.coreUp = true) ∧ (s.sheetLive = true) ∧ (s.recordIs (imageRec 0 (byte
      (↑e : ℕ)) false im) = true) ∧ (s.domUp (8 + (↑e : ℕ) / 4) = true) ∧ (s.engines[e].prog.phase = PPhase.idle) ∧
      (im.length < 131072))
    ∧ (∃ (s : State) (us : Word), (s.coreUp = true) ∧ (s.sheetLive = true) ∧ (s.recordIs (waitRec us) = true))
    ∧ (∃ (s : State) (a : Word) (v : Word), (s.coreUp = true) ∧ (s.sheetLive = false ∨ s.recordIs (writeRec a v) = false))
    ∧ (∃ (s : State) (a : Word) (v : Word), (s.coreUp = true) ∧ (s.sheetLive = false ∨ s.recordIs (indRec a v) = false))
    ∧ (∃ (s : State) (us : Word), (s.coreUp = true) ∧ (s.sheetLive = false ∨ s.recordIs (waitRec us) = false))
    ∧ (∃ (s : State) (k : Byte) (x : Byte) (sw : Bool) (im : List Byte), (s.coreUp = true) ∧ (s.sheetLive = false ∨
      s.recordIs (imageRec k x sw im) = false))
    ∧ (∃ (s : State), (s.coreUp = true) ∧ (s.ticking = true) ∧ (s.boot.sheetDone = false) ∧ (s.planLocking = false) ∧
      (s.boot.sheet.valid = false))
    ∧ (∃ (s : State), (s.coreUp = true) ∧ (s.ticking = true) ∧ (s.boot.sheetDone = false) ∧ (s.planLocking = false) ∧
      (s.sheetLive = true) ∧ (s.sheetKind = 0))
    ∧ (∃ (s : State) (k : Byte), (s.coreUp = true) ∧ (s.ticking = true) ∧ (s.boot.sheetDone = false) ∧ (s.planLocking =
      false) ∧ (s.sheetLive = true) ∧ (5 ≤ BitVec.toNat k) ∧ (s.sheetKind = BitVec.toNat k))
    ∧ (∃ (s : State), (s.coreUp = true) ∧ (s.boot.sheetDone = false ∨ s.boot.fwOk = true ∨ s.boot.awaitHost = true ∨ s.blkUp
      92 = false))
    ∧ (∃ (s : State), (s.coreUp = true) ∧ (s.boot.sheetDone = true) ∧ (s.boot.fwOk = false) ∧ (s.boot.awaitHost = false) ∧
      (s.blkUp 92 = true) ∧ (s.boot.straps.bootHost = true))
    ∧ (∃ (s : State) (ok0 : Bool) (ok1 : Bool) (first : Bool), (s.coreUp = true) ∧ (s.boot.sheetDone = true) ∧ (s.boot.fwOk
      = false) ∧ (s.boot.awaitHost = false) ∧ (s.blkUp 92 = true) ∧ (s.boot.straps.bootHost = false) ∧
      (s.arch.activeSlot = first) ∧ ((if first = true then ok1 else ok0) = true))
    ∧ (∃ (s : State) (ok0 : Bool) (ok1 : Bool) (first : Bool), (s.coreUp = true) ∧ (s.boot.sheetDone = true) ∧ (s.boot.fwOk
      = false) ∧ (s.boot.awaitHost = false) ∧ (s.blkUp 92 = true) ∧ (s.boot.straps.bootHost = false) ∧
      (s.arch.activeSlot = first) ∧ ((if first = true then ok1 else ok0) = false))
    ∧ (∃ (s : State), (s.coreUp = true) ∧ (s.boot.awaitHost = true) ∧ (s.boot.sheetDone = true) ∧ (bitsOf (s.r Block.access
      0 256) 7 0 = 19) ∧ (s.blkUp 92 = true))
    ∧ (∃ (s : State), (s.coreUp = true) ∧ (s.boot.awaitHost = true) ∧ (s.passed s.boot.awaitAt (10 * secTicks) = true))
    ∧ (∃ (s : State), (s.coreUp = true) ∧ (s.boot.awaitHost = true) ∧ (s.passed s.boot.awaitAt (10 * secTicks) = false))
    ∧ (∃ (s : State), (s.coreUp = true) ∧ (s.boot.mode = Mode.boot) ∧ (s.boot.sheetDone = true) ∧ (s.recovNow ≠ 0 ∨
      s.boot.sheet.valid = false))
    ∧ (∃ (s : State), (s.coreUp = true) ∧ (s.boot.mode = Mode.boot) ∧ (s.boot.sheetDone = true) ∧ (s.recovNow = 0) ∧
      (s.boot.sheet.valid = true) ∧ (s.boot.stewardUp = true) ∧ (s.snapBusy = false))
    ∧ (∃ (s : State), (s.coreUp = true) ∧ (s.boot.mode = Mode.boot) ∧ (s.boot.sheetDone = true) ∧ (s.recovNow = 0) ∧
      (s.boot.sheet.valid = true) ∧ (s.boot.stewardUp = true) ∧ (s.snapBusy = true))
    ∧ (∃ (s : State), (s.coreUp = true) ∧ (s.boot.mode = Mode.boot) ∧ (s.boot.sheetDone = true) ∧ (s.recovNow = 0) ∧
      (s.boot.sheet.valid = true) ∧ (s.boot.stewardUp = false))
    ∧ (∃ (s : State) (p : Path), (s.keeps p Block.device 0 4 = true) ∧ (s.boot.mode = Mode.service))
    ∧ (∃ (s : State) (p : Path), (s.keeps p Block.device 0 4 = true) ∧ (s.boot.mode = Mode.test) ∧ (s.snapBusy = false))
    ∧ (∃ (s : State) (p : Path), (s.keeps p Block.device 0 4 = true) ∧ (s.boot.mode = Mode.recovery) ∧ (s.recovNow = 0) ∧
      (s.boot.stewardUp = true) ∧ (s.snapBusy = false))
    ∧ (∃ (s : State) (p : Path) (x : BitVec 2), (s.keeps p Block.device 0 4 = true) ∧ (s.boot.mode = Mode.boot ∨ x = 0)) :=
  ⟨⟨(presheetWith (writeRec 0 0)), 0, 0, _, _, by decide +kernel, by decide +kernel, by decide +kernel, rfl, rfl⟩,
   ⟨(presheetWith (indRec 0xFFFF 0)), 0xFFFF, 0, by decide +kernel⟩,
   ⟨(presheetWith (indRec 0x10008 0)), 0x10008, 0, 0, 8, by decide +kernel⟩,
   ⟨(presheetWith (indRec 0x2080000 0)), 0x2080000, 0, 0, by decide +kernel⟩,
   ⟨(presheetWith (imageRec 3 0 false [])), 3, 0, false, [], by decide +kernel⟩,
   ⟨(presheetWith (imageRec 0 0 false [])), 0, [], by decide +kernel⟩,
   ⟨(presheetWith (waitRec 0)), 0, by decide +kernel⟩,
   ⟨presheet, 0, 0, by decide +kernel⟩,
   ⟨presheet, 0, 0, by decide +kernel⟩,
   ⟨presheet, 0, by decide +kernel⟩,
   ⟨presheet, 0, 0, false, [], by decide +kernel⟩,
   ⟨(presheet.modBoot fun b => { b with sheet := { b.sheet with valid := false } }), by decide +kernel⟩,
   ⟨presheet, by decide +kernel⟩,
   ⟨(presheetWith ([5, 0, 0, 0])), 5, by decide +kernel⟩,
   ⟨presheet, by decide +kernel⟩,
   ⟨(up.modBoot fun b => { b with stewardUp := false, fwOk := false, straps := { b.straps with bootHost := true } }), by decide +kernel⟩,
   ⟨(up.modBoot fun b => { b with stewardUp := false, fwOk := false }), true, true, false, by decide +kernel⟩,
   ⟨(up.modBoot fun b => { b with stewardUp := false, fwOk := false }), false, true, false, by decide +kernel⟩,
   ⟨(up.modBoot (fun b => { b with stewardUp := false, awaitHost := true })), by decide +kernel⟩,
   ⟨(up.modBoot fun b => { b with awaitHost := true }), by decide +kernel⟩,
   ⟨(up.modBoot fun b => { b with awaitHost := true, awaitAt := up.tick }), by decide +kernel⟩,
   ⟨(up.modBoot fun b => { b with mode := .boot, recovWhy := 4 }), by decide +kernel⟩,
   ⟨(up.modBoot fun b => { b with mode := .boot, recovWhy := 0, sheet := { b.sheet with valid := true } }), by decide +kernel⟩,
   ⟨({ up.modBoot fun b => { b with mode := .boot, recovWhy := 0, sheet := { b.sheet with valid := true } } with snap := { up.snap with hold := 1562, tick := up.tick } }), by decide +kernel⟩,
   ⟨(up.modBoot fun b => { b with mode := .boot, recovWhy := 0, stewardUp := false, sheet := { b.sheet with valid := true } }), by decide +kernel⟩,
   ⟨up, Path.f1, by decide +kernel⟩,
   ⟨(up.modBoot fun b => { b with mode := .test }), Path.f1, by decide +kernel⟩,
   ⟨(up.modBoot fun b => { b with mode := .recovery }), Path.f1, by decide +kernel⟩,
   ⟨up, Path.f1, 0, by decide +kernel⟩⟩

/-- The clauses of `Obligations.Statistics` can be met. -/
theorem witness_Statistics :
    (∃ (s : State) (u : Fin 32) (q : Smp) (rest : List Smp), (s.coreUp = true) ∧ (s.blkUp 81 = true) ∧ (s.rb Block.stats
      (↑u : ℕ) 0 31 = true) ∧ (s.winMode u ≠ 0 ∨ s.units[u].acc.n + 1 < if s.r Block.stats (↑u : ℕ) 4 = 0 then 2 ^ 32
      else BitVec.toNat (s.r Block.stats (↑u : ℕ) 4)) ∧ (s.units[u].inq = q :: rest) ∧ (s.units[u].acc.n < 2 ^ 32))
    ∧ (∃ (s : State) (u : Fin 32) (q : Smp) (rest : List Smp), (s.coreUp = true) ∧ (s.blkUp 81 = true) ∧ (s.rb Block.stats
      (↑u : ℕ) 0 31 = true) ∧ (s.units[u].inq = q :: rest) ∧ (s.winMode u = 0) ∧ (s.units[u].acc.n + 1 = if s.r
      Block.stats (↑u : ℕ) 4 = 0 then 2 ^ 32 else BitVec.toNat (s.r Block.stats (↑u : ℕ) 4)))
    ∧ (∃ (s : State) (u : Fin 32) (q : Smp) (rest : List Smp), (s.coreUp = true) ∧ (s.blkUp 81 = true) ∧ (s.rb Block.stats
      (↑u : ℕ) 0 31 = true) ∧ (s.units[u].inq = q :: rest) ∧ (2 ^ 32 ≤ s.units[u].acc.n))
    ∧ (∃ (s : State) (p : Path) (u : Fin 32) (r : StatsReg), (r ≠ StatsReg.nomLo) ∧ (s.reaches p Block.stats (↑u : ℕ)
      (statsOff r) = true))
    ∧ (∃ (s : State) (p : Path) (u : Fin 32), (s.reaches p Block.stats (↑u : ℕ) 20 = true))
    ∧ (∃ (s : State) (p : Path) (u : Fin 32), (s.reaches p Block.stats (↑u : ℕ) 12 = true) ∧ (s.rb Block.stats (↑u : ℕ) 0 31
      = true))
    ∧ (∃ (s : State) (u : Fin 32), (s.coreUp = true) ∧ (s.blkUp 81 = true) ∧ (s.rb Block.stats (↑u : ℕ) 0 31 = true) ∧
      (s.winMode u = 1) ∧ (s.tick ≠ 0) ∧ (BitVec.toNat s.tick % (Nat.max 1 (BitVec.toNat (s.r Block.stats (↑u : ℕ) 8))
      * msTicks) = 0) ∧ (s.units[u].timeAt ≠ s.tick))
    ∧ (∃ (s : State) (u : Fin 32) (a : Machine.Acc) (k : DWord) (cmd : Bool) (defer : Bool) (rest : List (Machine.Acc ×
      DWord × Bool × Bool)), (s.coreUp = true) ∧ (s.blkUp 81 = true) ∧ (s.units[u].stage = (a, k, cmd, defer) :: rest)
      ∧ (s.snapBusy = true))
    ∧ (∃ (s : State) (u : Fin 32) (a : Machine.Acc) (k : DWord) (cmd : Bool) (defer : Bool) (rest : List (Machine.Acc ×
      DWord × Bool × Bool)), (s.coreUp = true) ∧ (s.blkUp 81 = true) ∧ (s.units[u].stage = (a, k, cmd, defer) :: rest)
      ∧ (s.snapBusy = false))
    ∧ (∃ (s : State), (s.tickInv) ∧ (s.blkUp 81 = false)) :=
  ⟨⟨((up.wr .stats 0 0 0x80080000).modUnit 0 fun q => { q with inq := [⟨5, false, false⟩] }), 0, (⟨5, false, false⟩), [], by decide +kernel⟩,
   ⟨(((up.wr .stats 0 0 0x80000000).wr .stats 0 4 1).modUnit 0 fun q => { q with inq := [⟨5, false, false⟩] }), 0, (⟨5, false, false⟩), [], by decide +kernel⟩,
   ⟨((up.wr .stats 0 0 0x80080000).modUnit 0 fun q => { q with inq := [⟨5, false, false⟩], acc := { Acc.reset with n := 2 ^ 32 } }), 0, (⟨5, false, false⟩), [], by decide +kernel⟩,
   ⟨up, Path.f1, 0, StatsReg.cfg, by decide +kernel⟩,
   ⟨up, Path.f1, 0, by decide +kernel⟩,
   ⟨(up.wr .stats 31 0 0x80000000), Path.f1, 31, by decide +kernel⟩,
   ⟨(up.wr .stats 31 0 0x80040000), 31, by decide +kernel⟩,
   ⟨({ up with snap := { up.snap with hold := 1562, tick := up.tick } }.modUnit 0 fun q => { q with stage := [(⟨1, 5, 25, 5, 5, false, false, false, false⟩, 7, false, false)] }), 0, (⟨1, 5, 25, 5, 5, false, false, false, false⟩), 7, false, false, [], by decide +kernel⟩,
   ⟨(up.modUnit 0 fun q => { q with stage := [(⟨1, 5, 25, 5, 5, false, false, false, false⟩, 7, false, false)] }), 0, (⟨1, 5, 25, 5, 5, false, false, false, false⟩), 7, false, false, [], by decide +kernel⟩,
   ⟨(up.modBlk 81 fun b => { b with st := .testing }), by unfold State.tickInv; decide +kernel, by decide +kernel⟩⟩

/-- The clauses of `Obligations.TickStartsAndStops` can be met. -/
theorem witness_TickStartsAndStops :
    (∃ (s : State), (s.coreUp = true) ∧ (s.syns[8].phase = SynPhase.locking) ∧ (s.oven.oscLost = false))
    ∧ (∃ (s : State), (s.coreUp = true) ∧ (s.syns[8].phase = SynPhase.locked))
    ∧ (∃ (s : State), (s.coreUp = true) ∧ (s.ticking = false) ∧ (s.syns[8].phase = SynPhase.regain)) :=
  ⟨⟨(up.modSyn 8 fun q => { q with phase := .locking }), by decide +kernel⟩,
   ⟨up, by decide +kernel⟩,
   ⟨({ up with ticking := false } |> fun s => s.modSyn 8 fun q => { q with phase := .regain }), by decide +kernel⟩⟩

/-- The clauses of `Obligations.TimeOfDayAndDrivenChannels` can be met. -/
theorem witness_TimeOfDayAndDrivenChannels :
    (∃ (s : State) (src : Fin 96) (b : Lbl) (q : List Lbl), (s.coreUp = true) ∧ (s.slots[src].labelQ = b :: q) ∧ (b.ready
      = false))
    ∧ (∃ (s : State) (src : Fin 96) (b : Lbl) (q : List Lbl) (n : Fin 16) (d : Fin 8) (r : ℤ) (tr : ℤ) (x : ℤ) (l : Loop)
      (p1 : ℤ × Bool) (p2 : ℤ × Bool) (older : List (ℤ × Bool)) (bad : Bool), (s.coreUp = true) ∧ (s.slots[src].labelQ
      = b :: q) ∧ (b.ready = true) ∧ (s.labelStamps src n b = some (r, tr)) ∧ (fin? 8 (s.rf Block.loop (↑n : ℕ) 0 27
      24) = some d) ∧ (s.loops[n] = l) ∧ (x = if l.flagsW.getLsbD 0 = true ∨ l.flagsW.getLsbD 1 = true then 0 else
      l.x) ∧ (s.slots[src].labelHist[n] = p1 :: p2 :: older) ∧ (bad = decide (secNs / 2 * 2 ^ 32 ≤ (b.l * 2 ^ 6 + x -
      tr * 2 ^ 6).natAbs)))
    ∧ (∃ (s : State) (n : Fin 16) (d : Fin 8) (v : ℤ) (src : Fin 96) (k : DWord), (s.coreUp = true) ∧ (s.ticking = true)
      ∧ (s.xwords =
      [{ src := n, dst := Dest.datum d, pay := Pay.tset v src, apply := k, arrived := true, take := false }]) ∧
      (BitVec.toNat k ≤ BitVec.toNat s.tick + 1) ∧ (s.datums[d].assigned = some n) ∧ (s.loops[n].role ≠ TwinRole.failed)
      ∧ (s.fm.blks[finMod 128 (17 + (↑n : ℕ) % 2)].st ≠ BlkSt.testing) ∧ (s.actsNow d = true))
    ∧ (∃ (s : State) (n : Fin 16) (d : Fin 8) (v : ℤ) (src : Fin 96) (k : DWord), (s.coreUp = true) ∧ (s.ticking = true)
      ∧ (s.xwords =
      [{ src := n, dst := Dest.datum d, pay := Pay.tset v src, apply := k, arrived := true, take := false }]) ∧
      (BitVec.toNat k ≤ BitVec.toNat s.tick + 1) ∧ (s.datums[d].assigned = some n) ∧ (s.loops[n].role ≠ TwinRole.failed)
      ∧ (s.fm.blks[finMod 128 (17 + (↑n : ℕ) % 2)].st ≠ BlkSt.testing) ∧ (s.actsNow d = false))
    ∧ (∃ (s : State) (p : Path) (d : Fin 8), (s.reaches p Block.datum (↑d : ℕ) 16 = true))
    ∧ (∃ (s : State) (d : Fin 8) (sec : ℕ), (s.coreUp = true) ∧ (s.datums[d].leapAt = some sec) ∧ (sec <
      s.datums[d].clk.now.sec.toNat))
    ∧ (∃ (s : State) (p : Path) (d : Fin 8), (s.carries p = true) ∧ (s.placeDown
      { blk := Block.datum, inst := (↑d : ℕ), off := 32 } = false))
    ∧ (∃ (s : State) (ch : Fin 192) (w : Word), (s.coreUp = true) ∧ (s.ticking = true) ∧ (s.chanUp ch = true) ∧ (s.cfgNow ch
      = some w) ∧ (modeOf w = 5) ∧ (∃ x, s.chans[ch].sLast = some x ∧ x < s.ppsSecond ch))
    ∧ (∃ (s : State) (ch : Fin 192) (w : Word) (k : DWord) (f : ℕ) (v : Bool) (rest : List (DWord × ℕ × Bool)), (s.coreUp =
      true) ∧ (s.ticking = true) ∧ (s.chanUp ch = true) ∧ (s.cfgNow ch = some w) ∧ (modeOf w = 5 ∨ modeOf w = 4) ∧
      (s.chans[ch].trails = (k, f, v) :: rest) ∧ (s.passed k 0 = true))
    ∧ (∃ (s : State) (ch : Fin 192) (e : TodDue) (rest : List TodDue), (s.coreUp = true) ∧ (s.ticking = true) ∧ (s.chanUp ch
      = true) ∧ (modeOf (s.cfgAct ch) = 7) ∧ (s.chans[ch].hand = none) ∧ (s.chans[ch].todDue = e :: rest) ∧ (s.passed
      e.k 0 = true) ∧ (s.chf ch 28 26 25 = 0) ∧ (s.chans[ch].txCur = none) ∧ (s.chans[ch].tx = []))
    ∧ (∃ (s : State) (g : Fin 12) (j : Fin 4), (s.coreUp = true) ∧ (s.groupOn g = true) ∧ (2 ≤ s.rf Block.survey (↑g : ℕ)
      (schedOff j 4) 18 0) ∧ (s.rf Block.survey (↑g : ℕ) (schedOff j 4) 18 0 ≤ 262144) ∧ (s.rf Block.survey (↑g : ℕ)
      (schedOff j 8) 17 0 ≠ s.rf Block.survey (↑g : ℕ) (schedOff j 12) 17 0))
    ∧ (∃ (s : State) (g : Fin 12) (j : Fin 4) (a : Act) (rest : List Act), (s.coreUp = true) ∧ (s.ticking = true) ∧
      (s.groupOn g = true) ∧ (s.groups[g].acts[j] = a :: rest) ∧ (s.chans[chIx g a.ch].hand = none) ∧ (s.datUp (datIsl
      (cfgDatum (s.cfgAct (chIx g a.ch)))) = true) ∧ (stamp16 a.target * 2 ^ 40 < s.datums[cfgDatum (s.cfgAct (chIx g
      a.ch))].clk.now.toInt56 + (↑(BitVec.toNat s.datums[cfgDatum (s.cfgAct (chIx g a.ch))].clk.inc) : ℤ))) :=
  ⟨⟨(up.modSlot 0 fun x => { x with labelQ := [⟨1, .event ⟨7, 0, 0, none⟩⟩] }), 0, (⟨1, .event ⟨7, 0, 0, none⟩⟩), [], by decide +kernel⟩,
   ⟨((up.wr .loop 0 0 0x80000000).modSlot 64 fun x => { x with labelQ := [⟨1, .event ⟨7, 0, 0, some (Vector.replicate 16 3, Vector.replicate 8 4)⟩⟩], labelHist := x.labelHist.set 0 [(1, true), (2, false)] }), 64, (⟨1, .event ⟨7, 0, 0, some (Vector.replicate 16 3, Vector.replicate 8 4)⟩⟩), [], 0, 0, 3, 4, 0, _, (1, true), (2, false), [], false, by decide +kernel, by decide +kernel, by decide +kernel, by decide +kernel, by decide +kernel, rfl, by decide +kernel, by decide +kernel, by decide +kernel⟩,
   ⟨({ up.modDatum 0 fun x => { x with assigned := some 0 } with xwords := [⟨0, .datum 0, .tset 5 64, 7, true, false⟩] }), 0, 0, 5, 64, 7, by decide +kernel⟩,
   ⟨({ up.modDatum 0 fun x => { x with assigned := some 0, setDue := some ⟨0, 1, 64⟩ } with xwords := [⟨0, .datum 0, .tset 5 64, 7, true, false⟩] }), 0, 0, 5, 64, 7, by decide +kernel⟩,
   ⟨up, Path.f1, 0, by decide +kernel⟩,
   ⟨(up.modDatum 0 fun d => { d with leapAt := some 5, clk := { d.clk with now := ⟨6, 0, 0⟩ } }), 0, 5, by decide +kernel⟩,
   ⟨up, .f1, 0, by decide +kernel⟩,
   ⟨((up.wr .survey 0 0x800 0x50000000).modChan 0 fun c => { c with sLast := some (-5) }), 0, 0x50000000, by decide +kernel, by decide +kernel,
    by decide +kernel, by decide +kernel, by decide +kernel, -5, by decide +kernel, by decide +kernel⟩,
   ⟨((up.wr .survey 0 0x800 0x50000000).modChan 0 fun c => { c with trails := [(7, 3, false)] }), 0, 0x50000000, 7, 3, false, [], by decide +kernel⟩,
   ⟨((up.wr .survey 0 0x800 0x70000000).modChan 0 fun c => { c with todDue := [⟨stampZero, 7, none⟩] }), 0, ⟨stampZero, 7, none⟩, [], by decide +kernel⟩,
   ⟨((up.wr .survey 0 0x44 0x40000).wr .survey 0 0x48 3), 0, 0, by decide +kernel⟩,
   ⟨((up.modDatum 0 fun d => { d with clk := { d.clk with now := ⟨6, 0, 0⟩ } }).modGroup 0 fun g => { g with acts := g.acts.set 0 [⟨stampZero, 0, 0, false, 0⟩] }), 0, 0, (⟨stampZero, 0, 0, false, 0⟩), [], by decide +kernel⟩⟩

/-- A queue with commands, and an empty one. -/
theorem witness_StepRunsTheFrontCommand :
    (∃ (s : State) (c : Instr) (rest : List Instr), s.pending = c :: rest) ∧ (∃ s : State, s.pending = []) :=
  ⟨⟨{ up with pending := [.datumTick, .trstN] }, .datumTick, [.trstN], rfl⟩, ⟨up, rfl⟩⟩

/-- A step from a state whose tick indices agree. -/
theorem witness_EveryStepKeepsTheTickIndices : ∃ s t : State, s.tickInv ∧ step s = .next t :=
  ⟨{ up with pending := [.ovenWarmPin false] }, _, by unfold State.tickInv; decide +kernel, rfl⟩

/-- A step from a state whose memories are canonical. -/
theorem witness_EveryStepKeepsMemoryCanonical :
    ∃ s t : State, s.mem.wf = true ∧ s.arch.wf = true ∧ step s = .next t :=
  ⟨{ up with pending := [.ovenWarmPin false] }, _, by decide +kernel, by decide +kernel, rfl⟩

/-- A command that is not one of the clock's. -/
theorem witness_OnlyTheClockMovesTheTick :
    ∃ (c : Instr) (s t : State), exec c s = .next t ∧ t.coreUp = true ∧ c ≠ .datumTick ∧ (∀ band, c ≠ .synLock 8 band)
      ∧ (∀ m, c ≠ .synbRelock m) :=
  ⟨.ovenWarmPin false, up, _, rfl, rfl, nofun, nofun, nofun⟩

/-- A command to a held core. -/
theorem witness_HeldCoreStandsStill :
    ∃ (c : Instr) (s t : State), s.coreUp = false ∧ s.tickInv ∧ exec c s = .next t ∧ (∀ st, c ≠ .resetRelease st)
      ∧ (∀ st, c ≠ .standbyPowerOn st) :=
  ⟨.ovenWarmPin false, { State.reset with coreUp := false }, _, rfl, by unfold State.tickInv; decide +kernel, rfl, nofun, nofun⟩

/-- A command outside the host side and the service. -/
theorem witness_FrameOfHostSideAndService :
    ∃ (c : Instr) (s t : State), throughRegisters c = false ∧ exec c s = .next t ∧ touchesHostSide c = false
      ∧ touchesService c = false :=
  ⟨.ovenWarmPin false, up, _, rfl, rfl, rfl, rfl⟩

/-- A command outside measurement and outputs. -/
theorem witness_FrameOfMeasurementAndOutputs :
    ∃ (c : Instr) (s t : State), throughRegisters c = false ∧ exec c s = .next t ∧ touchesMeasurement c = false
      ∧ touchesOutputs c = false :=
  ⟨.ovenWarmPin false, up, _, rfl, rfl, rfl, rfl⟩

/-- A quiet command. -/
theorem witness_QuietCommandsLeaveRegistersAndMemory :
    ∃ (c : Instr) (s t : State), isQuiet c = true ∧ exec c s = .next t :=
  ⟨.ovenWarmPin false, up, _, rfl, rfl⟩

/-- A command that is no retirement, a bank's last byte, and a state without a mirror. -/
theorem witness_RemapBelongsToTheFaultManager :
    (∃ o : Nat, o < 2 ^ 22 ∧ o = 2 ^ 22 - 1)
    ∧ (∃ (c : Instr) (s t : State), exec c s = .next t ∧ c ≠ .memRemap ∧ (∀ st, c ≠ .standbyPowerOn st)
      ∧ (∀ st, c ≠ .resetRelease st))
    ∧ (∃ s : State, s.coreUp = true ∧ s.mem.mirror = none)
    ∧ (∃ (s : State) (p : Path), s.coreUp = true ∧ (s.path p).snapView = false) :=
  ⟨⟨2 ^ 22 - 1, by decide, rfl⟩, ⟨.ovenWarmPin false, up, _, rfl, nofun, nofun, nofun⟩, ⟨up, by decide +kernel⟩,
   ⟨up, .f1, by decide +kernel⟩⟩

/-! ## Ill-formed commands are refused -/

theorem test_refuses_short_histogram : (Instr.calTableBuilt 0 [1, 2]).wellFormed = false := by decide
theorem test_refuses_uneven_overlap : (Instr.relief 0 [1] [] false).wellFormed = false := by decide
theorem test_refuses_three_stamps : (Instr.alignUpdate 0 (List.replicate 3 ⟨1, 0⟩)).wellFormed = false := by decide
theorem test_refuses_few_edges : (Instr.alignHandoverSwitch 0 [(⟨0, 0⟩, ⟨0, 0⟩)]).wellFormed = false := by decide
theorem test_refuses_few_boundaries :
    (Instr.phaseRx 0 0 0 ⟨0, stampZero, 0, stampZero, false, false, false⟩ [⟨0, 0⟩] 0).wellFormed = false := by decide
theorem test_refuses_short_legend : (Instr.legendRx 0 false 0 0 [0]).wellFormed = false := by decide
theorem test_refuses_empty_batch : (Instr.drainBatch 0 .ok).wellFormed = false := by decide
theorem test_refuses_empty_write : (Instr.bar2Write 0 0 []).wellFormed = false := by decide
theorem test_refuses_empty_read : (Instr.bar2Read 0 0 0).wellFormed = false := by decide
theorem test_refuses_read_of_33 : (Instr.read 0 0 0 33 .noTarget).wellFormed = false := by decide
theorem test_refuses_write_of_0 : (Instr.write 0 0 0 [] .noTarget).wellFormed = false := by decide
theorem test_refuses_shed_101 : (Instr.stewardShed 101).wellFormed = false := by decide
theorem test_refuses_link_speed_5 : (Instr.pcieLinkUp 5 1).wellFormed = false := by decide
theorem test_refuses_known_bad_command : (Instr.badCmd 0x10).wellFormed = false := by decide
theorem test_refuses_mode_0 : (Instr.modeGo .f1 0).wellFormed = false := by decide
theorem test_refuses_bank_24 : (Instr.retireBank .f1 24).wellFormed = false := by decide
theorem test_refuses_upset_65 : (Instr.scrubVisit 0 0 65).wellFormed = false := by decide
theorem test_refuses_synb_sequence : (Instr.lockSequenceStart 8).wellFormed = false := by decide
theorem test_refuses_shift_64 : (Instr.shl (.eng 0) 1 2 0 320).wellFormed = false := by decide
theorem test_refuses_mac_selector : (Instr.mac (.eng 0) 0 1 2 4).wellFormed = false := by decide
theorem test_refuses_acmov_65 : (Instr.acmov (.eng 0) 0 1 65).wellFormed = false := by decide
theorem test_refuses_acshl_128 : (Instr.acshl (.eng 0) 0 1 128).wellFormed = false := by decide
theorem test_refuses_condition_15 : (Instr.b (.eng 0) 15 0).wellFormed = false := by decide
theorem test_refuses_odd_pair : (Instr.tnow 0 1 0).wellFormed = false := by decide
theorem test_refuses_clock_8 : (Instr.waitt 0 0 8).wellFormed = false := by decide
theorem test_refuses_tadd_odd : (Instr.tadd 0 1 0 0).wellFormed = false := by decide
theorem test_refuses_tdif_odd : (Instr.tdif 0 0 0 1).wellFormed = false := by decide
theorem test_refuses_stpop_30 : (Instr.stpop 0 30).wellFormed = false := by decide
theorem test_refuses_emit_odd : (Instr.emit 0 0 1 0).wellFormed = false := by decide
theorem test_refuses_note_low_bits : (Instr.note 0 0 1).wellFormed = false := by decide
theorem test_refuses_mailbox_16 : (Instr.mbpost 0 0 0 16).wellFormed = false := by decide
theorem test_refuses_doorbell_32 : (Instr.dbell 0 0 32).wellFormed = false := by decide
theorem test_refuses_semaphore_64 : (Instr.sema 0 0 64).wellFormed = false := by decide

/-! ## The specification's worked examples -/

/-- 00_scope.md, Numbers: round_ne(2.5) = 2, round_ne(−2.5) = −2, sat(300, s8) = 127. -/
theorem test_rounding : roundDiv 5 2 = 2 ∧ roundDiv (-5) 2 = -2 ∧ satS 8 300 = 127 := by decide

/-- 02_time_arithmetic.md, Increments: the increment of n = 2^52. -/
theorem test_increment : incOf 0x0010000000000000 = 0x0147AE28F5C28F5C := by decide

/-- 04_meridian_loops.md, One sample of a station loop: the increment of DATUM1. -/
theorem test_increment_of_the_station_loop : incOf 0x2B301BCB000 = 0x0147AE147E55C4C8 := by decide

/-- 02_time_arithmetic.md, An edge on DATUM2: the exported stamp. -/
theorem test_stamp_of_the_edge :
    (let c : Clock := ⟨⟨1700000000, 500000000, 0x80000000000000⟩, 0x0147AE28F5C28F5C, 0x0010000000000000,
        [⟨7, ⟨1700000000, 500000000, 0x80000000000000⟩, 0x0147AE28F5C28F5C, 0x0010000000000000, false⟩]⟩
     exportStamp (c.stamp26 7 0x1A00).1) = ⟨1700000000, 0x1DCD64FE, 0xDFFF⟩ := by decide +kernel

/-- 08_statistics_and_field_book.md, The SV70 stamp as a record. -/
theorem test_record_of_the_edge :
    stampRec 1 2 false 0 0 ⟨1700000000, 0x1DCD64FE, 0xDFFF⟩ [0x46, 0x0B] = 0x01900053F764FEDFFF460B0000000000 := by
  decide +kernel

/-- 09_synthesizers_and_outputs.md, The station loop: the feedback word of SYN2. -/
theorem test_feedback_word : nfbOf 0x04E2000000000000 0x2B301BCB000 0 = 0x04E200000D2E0E7B := by decide

/-- 02_time_arithmetic.md, Statistics arithmetic: mean and deviation of −3, 1, 2 and 8. -/
theorem test_statistics :
    (match exec (.statsCommit 0) (up.modUnit 0 fun q => { q with stage := [(⟨4, 8, 78, -3, 8, false, false, false, false⟩, 7, true, false)] }) with
      | .next t => decide ((t.units[(0 : Fin 32)]).mean = 512) && decide ((t.units[(0 : Fin 32)]).dev = 1008)
      | _ => false) = true := by decide +kernel

/-- 04_meridian_loops.md, One sample of a station loop: ACC0 after the integral step. -/
theorem test_mac_of_the_station_loop :
    (match exec (.mac (.eng 0) 0 0 1 0) ((g0 0x100000000).modEng 0 fun g => { g with cpu := { g.cpu with g := g.cpu.g.set 1 0x1BCB000 } }) with
      | .next t => decide ((t.engines[(0 : Fin 8)]).cpu.acc[(0 : Fin 4)] = 0x01BCB00000000000)
      | _ => false) = true := by decide +kernel

/-- 19_register_blocks.md, Locating a slot and a channel. -/
theorem test_places : key .refin 5 (slotOff 37 0) = 0x10560 ∧ key .survey 4 (chOff 70 0) = 0x34B00 := by decide

/-- FIPS 180-4, the digest of "abc" (R285 uses SHA-256). -/
theorem test_sha256 :
    sha256 [0x61, 0x62, 0x63] = 0xBA7816BF8F01CFEA414140DE5DAE2223B00361A396177A9CB410FF61F20015AD := by decide +kernel

end

end Sys2Proof.Tests
end

/-! SUPPORT. PROOFS. The Nimyor shifts and rounding (R10, R278, R301) and the writes of registers (R8, R316 to R330). -/

namespace Sys2Proof.Machine

/-! ## How a command that touches one target's registers completes -/

/-- A state that keeps the queue, the tick and its stepping, with the core up, is the outcome itself (R14). -/
theorem done_eq_next {s t : State} (hp : t.pending = s.pending) (hk : t.tick = s.tick)
    (hi : t.islandTick = s.islandTick) (hr : t.ticking = s.ticking) (hc : t.coreUp = true) : done s t = .next t := by
  obtain ⟨⟩ := t
  simp_all [done]

/-- Putting a target's registers moves neither the queue nor the tick. -/
theorem done_setCpu (s : State) (t : Tgt) (d : Cpu) (h : s.coreUp = true) :
    done s (s.setCpu t d) = .next (s.setCpu t d) := by
  cases t with
  | eng e => exact done_eq_next rfl rfl rfl rfl h
  | loop n => exact done_eq_next rfl rfl rfl rfl h

/-- A target that executes its next instruction has its core running. -/
theorem State.coreUp_of_runsOn {s : State} {t : Tgt} (h : s.runsOn t = true) : s.coreUp = true :=
  (Bool.and_eq_true_iff.1 h).1

/-- An engine that executes its next instruction issues it (R313). -/
theorem State.engIssue_of_runsOn {s : State} {e : Fin 8} (f : State → State) (h : s.runsOn (.eng e) = true) :
    s.engIssue e f = f s := by
  simp only [State.runsOn, Bool.and_eq_true, beq_iff_eq, Bool.not_eq_true', Option.isNone_iff_eq_none] at h
  obtain ⟨-, ⟨hrun, hdog⟩, hfetch⟩ := h
  simp only [State.engIssue, hrun, hdog, hfetch, ne_eq, not_true_eq_false, if_false, Bool.false_eq_true]

/-- A loop datapath that executes its next instruction issues it (R97, R109, R313). -/
theorem State.loopIssue_of_runsOn {s : State} {n : Fin 16} (f : State → State) (h : s.runsOn (.loop n) = true) :
    s.loopIssue n f = f s := by
  simp only [State.runsOn, Bool.and_eq_true, Bool.not_eq_true', Option.isNone_iff_eq_none] at h
  obtain ⟨-, ⟨hen, hheld⟩, hfetch⟩ := h
  have hcur : (s.loops[n]).prog.cur.isNone = false := by
    cases hn : (s.loops[n]).prog.cur with
    | none => rw [hn] at hfetch; cases hfetch
    | some x => rfl
  simp only [State.loopIssue, hen, hheld, hfetch, hcur, Bool.true_eq_false, Bool.false_eq_true, or_self, if_false]

/-- An instruction of the common set leaves the target with the registers its operation gives. -/
theorem doneCore_tgtOp {s : State} {t : Tgt} {op : Cpu → NRes} {d : Cpu} (h : s.runsOn t = true)
    (ho : op (s.cpuOf t) = .ok d) : doneCore s (fun s => s.tgtOp t op) = .next (s.setCpu t d) := by
  have hup := State.coreUp_of_runsOn h
  have hop : s.tgtOp t op = s.setCpu t d := by
    cases t with
    | eng e =>
      change op (s.engines[e]).cpu = .ok d at ho
      simp only [State.tgtOp, State.engOp, State.engIssue_of_runsOn _ h, ho]
      rfl
    | loop n =>
      change op (s.loops[n]).cpu = .ok d at ho
      simp only [State.tgtOp, State.loopIssue_of_runsOn _ h, ho]
      rfl
  rw [doneCore_up s _ hup, hop, done_setCpu s t d hup]

/-! ## The flag word (R277) -/

/-- The flags of a flag word, one by one. -/
theorem getLsbD_fWord (z n c v q l : Bool) (i : Fin 6) :
    (fWord z n c v q l).getLsbD i = [z, n, c, v, q, l].getD i false := by
  revert z n c v q l i
  decide

/-- The flag that is set takes the value, every other keeps its own. -/
theorem Cpu.flag_setFlag (c : Cpu) (i j : Nat) (b : Bool) (hj : j < 6) :
    (c.setFlag i b).flag j = if j = i then b else c.flag j := by
  have hbit : (BitVec.ofNat 6 (2 ^ i)).getLsbD j = decide (j = i) := by
    rw [BitVec.getLsbD_ofNat, Nat.testBit_two_pow, decide_eq_true hj, Bool.true_and, decide_eq_decide, eq_comm]
  cases b with
  | false =>
    simp only [Cpu.flag, Cpu.setFlag, Bool.false_eq_true, if_false, BitVec.getLsbD_and, BitVec.getLsbD_not, hbit]
    split <;> simp [*]
  | true =>
    simp only [Cpu.flag, Cpu.setFlag, if_true, BitVec.getLsbD_or, hbit]
    split <;> simp [*]

/-- A register word F is known by its six flags. -/
theorem eq_fWord {f : BitVec 6} {z n c v q l : Bool}
    (h : ∀ i : Fin 6, f.getLsbD i = [z, n, c, v, q, l].getD i false) : f = fWord z n c v q l :=
  BitVec.eq_of_getLsbD_eq fun i hi => (h ⟨i, hi⟩).trans (getLsbD_fWord z n c v q l ⟨i, hi⟩).symm

/-- Z and N of a result; the other flags stand. -/
theorem Cpu.zn_f (c : Cpu) (r : DWord) :
    (c.zn r).f = fWord (r == 0) r.msb (c.flag 2) (c.flag 3) (c.flag 4) (c.flag 5) := by
  refine eq_fWord fun i => ?_
  change (c.zn r).flag i = _
  rw [Cpu.zn, Cpu.setN, Cpu.setZ, Cpu.flag_setFlag _ _ _ _ i.isLt, Cpu.flag_setFlag _ _ _ _ i.isLt]
  fin_cases i <;> rfl

/-- Z, N and C of a result; the other flags stand. -/
theorem Cpu.zn_setC_f (c : Cpu) (r : DWord) (cy : Bool) :
    ((c.zn r).setC cy).f = fWord (r == 0) r.msb cy (c.flag 3) (c.flag 4) (c.flag 5) := by
  refine eq_fWord fun i => ?_
  change ((c.zn r).setC cy).flag i = _
  rw [Cpu.setC, Cpu.flag_setFlag _ _ _ _ i.isLt]
  simp only [Cpu.flag, Cpu.zn_f, getLsbD_fWord]
  fin_cases i <;> rfl

/-- A result with Z and N, at the next word. -/
theorem Cpu.logRes_next (c : Cpu) (rd : Fin 32) (r : DWord) :
    (c.logRes rd r).next = { c with
      g := c.g.set rd r
      f := fWord (r == 0) r.msb (c.flag 2) (c.flag 3) (c.flag 4) (c.flag 5)
      pc := c.pc + 1 } := by
  rw [← Cpu.zn_f]
  rfl

/-- A result with Z, N and C, at the next word. -/
theorem Cpu.zn_setC_put_next (c : Cpu) (rd : Fin 32) (r : DWord) (cy : Bool) :
    (((c.zn r).setC cy).put rd r).next = { c with
      g := c.g.set rd r
      f := fWord (r == 0) r.msb cy (c.flag 3) (c.flag 4) (c.flag 5)
      pc := c.pc + 1 } := by
  rw [← Cpu.zn_setC_f]
  rfl

/-! ## Rounding (R10, R278) -/

/-- `round_tz`: the quotient's magnitude is not above the exact one's, and less than 1 below it. -/
theorem truncDiv_bounds {a : Int} {d : Nat} (hd : 0 < d) :
    (0 ≤ a → truncDiv a d * d ≤ a ∧ a < (truncDiv a d + 1) * d)
    ∧ (a < 0 → (truncDiv a d - 1) * d < a ∧ a ≤ truncDiv a d * d) := by
  have hd' : (0 : Int) < d := Int.natCast_pos.2 hd
  constructor <;> intro ha
  · rw [truncDiv, if_neg (not_lt.2 ha)]
    exact ⟨Int.ediv_mul_le a hd'.ne', Int.lt_ediv_add_one_mul_self a hd'⟩
  · rw [truncDiv, if_pos ha]
    have hle := Int.ediv_mul_le (-a) hd'.ne'
    have hlt := Int.lt_ediv_add_one_mul_self (-a) hd'
    constructor <;> linarith

/-- `round_ne`: the quotient is within a half of the exact one, and even where it is exactly a half away. -/
theorem roundDiv_nearest {a : Int} {d : Nat} (hd : 0 < d) :
    2 * (a - roundDiv a d * d).natAbs ≤ d ∧ (2 * (a - roundDiv a d * d).natAbs = d → roundDiv a d % 2 = 0) := by
  have hd' : (0 : Int) < d := Int.natCast_pos.2 hd
  have hle := Int.ediv_mul_le a hd'.ne'
  have hlt := Int.lt_ediv_add_one_mul_self a hd'
  rw [add_one_mul] at hlt
  simp only [roundDiv]
  generalize a / (d : Int) = q at hle hlt ⊢
  have hup : (q + 1) * (d : Int) = q * d + d := add_one_mul q (d : Int)
  generalize hm : q * (d : Int) = m at hle hlt hup ⊢
  split_ifs <;> simp only [hm, hup] <;> omega

/-! ## Shifts (R301) -/

/-- The amount of a shift: RB[6:0], or an immediate below 64 with RB 0. -/
theorem Cpu.shiftAmt_eq_some {c : Cpu} {rb : Fin 32} {x : BitVec 9} {k : Nat}
    (h : (x = 0 ∧ k = c.g[rb].toNat % 128) ∨ (x.toNat = 256 + k ∧ k < 64 ∧ rb = 0)) : c.shiftAmt rb x = some k := by
  rcases h with ⟨rfl, rfl⟩ | ⟨hx, hk, rfl⟩
  · simp [Cpu.shiftAmt]
  · have hbit : x.getLsbD 8 = true := by
      rw [← BitVec.msb_eq_getLsbD_last (x := x), BitVec.msb_eq_decide]
      simp
      omega
    simp only [Cpu.shiftAmt, hbit, hx]
    simp
    omega

/-- The carry of a shift by k: the last bit that leaves, 0 where none does or where k is above 64. -/
theorem shiftCarry_eq (k : Nat) (inner last : Bool) :
    (if k = 0 then false else if k < 64 then inner else if k = 64 then last else false)
      = (decide (0 < k) && decide (k < 64) && inner || decide (k = 64) && last) := by
  rcases Nat.eq_zero_or_pos k with rfl | hpos
  · rfl
  · rcases Nat.lt_trichotomy k 64 with hlt | rfl | hgt
    · simp [hpos.ne', hpos, hlt, hlt.ne]
    · rfl
    · simp [hpos.ne', hgt.not_gt, hgt.ne']

section
variable {c : Cpu} {rd ra rb : Fin 32} {x : BitVec 9} {k : Nat} (h : c.shiftAmt rb x = some k)
include h

/-- A shift left writes the product by 2^k with Z, N and the carry (R301). -/
theorem opShl_eq : opShl rd ra rb x c = .ok { c with
    g := c.g.set rd (c.g[ra] <<< k)
    f := fWord (c.g[ra] <<< k == 0) (c.g[ra] <<< k).msb
      (decide (0 < k) && decide (k < 64) && (c.g[ra]).getLsbD (64 - k) || decide (k = 64) && (c.g[ra]).getLsbD 63)
      (c.flag 3) (c.flag 4) (c.flag 5)
    pc := c.pc + 1 } := by
  simp only [opShl, h, shiftCarry_eq, Cpu.ok, Cpu.zn_setC_put_next]

/-- A logical shift right writes RA >> k with Z, N and the carry. -/
theorem opShr_eq : opShr rd ra rb x c = .ok { c with
    g := c.g.set rd (c.g[ra] >>> k)
    f := fWord (c.g[ra] >>> k == 0) (c.g[ra] >>> k).msb
      (decide (0 < k) && decide (k < 64) && (c.g[ra]).getLsbD (k - 1) || decide (k = 64) && (c.g[ra]).getLsbD 0)
      (c.flag 3) (c.flag 4) (c.flag 5)
    pc := c.pc + 1 } := by
  simp only [opShr, h, shiftCarry_eq, Cpu.ok, Cpu.zn_setC_put_next]

/-- An arithmetic shift right writes RA >> k, the sign copied in, with Z, N and the carry. -/
theorem opSar_eq : opSar rd ra rb x c = .ok { c with
    g := c.g.set rd ((c.g[ra]).sshiftRight k)
    f := fWord ((c.g[ra]).sshiftRight k == 0) ((c.g[ra]).sshiftRight k).msb
      (decide (0 < k) && decide (k < 64) && (c.g[ra]).getLsbD (k - 1) || decide (k = 64) && (c.g[ra]).getLsbD 0)
      (c.flag 3) (c.flag 4) (c.flag 5)
    pc := c.pc + 1 } := by
  simp only [opSar, h, shiftCarry_eq, Cpu.ok, Cpu.zn_setC_put_next]

/-- A rounding shift right writes RA / 2^k rounded by CW.RND, with Z and N. -/
theorem opRsr_eq : opRsr rd ra rb x c = .ok { c with
    g := c.g.set rd (BitVec.ofInt 64 (c.rnd (c.g[ra]).toInt (2 ^ k)))
    f := fWord (BitVec.ofInt 64 (c.rnd (c.g[ra]).toInt (2 ^ k)) == 0)
      (BitVec.ofInt 64 (c.rnd (c.g[ra]).toInt (2 ^ k))).msb (c.flag 2) (c.flag 3) (c.flag 4) (c.flag 5)
    pc := c.pc + 1 } := by
  simp only [opRsr, h, Cpu.ok, Cpu.logRes_next]

end

/-- Rounding by CW.RND: 1 truncates, 2 rounds down, 0 and 3 round to nearest even. -/
theorem Cpu.rnd_bounds (c : Cpu) (a : Int) {d : Nat} (hd : 0 < d) :
    (c.cw.toNat / 2 ^ 30 = 1 → (0 ≤ a → c.rnd a d * d ≤ a ∧ a < (c.rnd a d + 1) * d)
      ∧ (a < 0 → (c.rnd a d - 1) * d < a ∧ a ≤ c.rnd a d * d))
    ∧ (c.cw.toNat / 2 ^ 30 = 2 → c.rnd a d * d ≤ a ∧ a < (c.rnd a d + 1) * d)
    ∧ (c.cw.toNat / 2 ^ 30 = 0 ∨ c.cw.toNat / 2 ^ 30 = 3 →
        2 * (a - c.rnd a d * d).natAbs ≤ d ∧ (2 * (a - c.rnd a d * d).natAbs = d → c.rnd a d % 2 = 0)) := by
  refine ⟨fun h => ?_, fun h => ?_, fun h => ?_⟩
  · rw [show c.rnd a d = truncDiv a d by simp only [Cpu.rnd, h]]
    exact truncDiv_bounds hd
  · rw [show c.rnd a d = a / (d : Int) by simp only [Cpu.rnd, h]]
    have hd' : (0 : Int) < d := Int.natCast_pos.2 hd
    exact ⟨Int.ediv_mul_le a hd'.ne', Int.lt_ediv_add_one_mul_self a hd'⟩
  · rw [show c.rnd a d = roundDiv a d by rcases h with h | h <;> simp only [Cpu.rnd, h]]
    exact roundDiv_nearest hd

/-- Settles O30: rounding by the three quotients of R10, each shift by what its operation gives on the registers. -/
theorem nimyorShifts : Obligations.NimyorShifts := by
  unfold Obligations.NimyorShifts
  constructor
  · rintro c a _ d hd rfl
    exact c.rnd_bounds a hd
  · rintro s t _ rd ra rb x k _ hrun rfl rfl hx
    have hk := Cpu.shiftAmt_eq_some hx
    exact ⟨doneCore_tgtOp hrun (opShl_eq hk), doneCore_tgtOp hrun (opShr_eq hk), doneCore_tgtOp hrun (opSar_eq hk),
      doneCore_tgtOp hrun (opRsr_eq hk)⟩

/-! ## Writes of registers -/

/-- A place outside the ACCESS block takes a write as the hub passes it on (R321). -/
theorem State.hubWrite_of_ne_access {s : State} {p : Path} {o : Nat} {pl : Place} (sel v : Word) (bit : Bool)
    (fw : Option Bool) (he : s.tooEarly p = false) (hp : placeOf o = some pl) (hb : pl.blk ≠ .access) :
    s.hubWrite p o sel v bit fw = s.placeWrite p pl sel v bit fw := by
  simp [State.hubWrite, he, hp, hb]

/-- A path that is served reaches every offset. -/
theorem State.reachable_of_carries {s : State} {p : Path} (a : Nat) (h : s.carries p = true) :
    s.reachable p a = true := by
  simp only [State.reachable, Bool.or_eq_true]
  exact .inl h

/-- A register write of a served path is the hub's write of the whole word. -/
theorem exec_registerWrite {s : State} {p : Path} {off v : Word} (hc : s.carries p = true)
    (ho : off.toNat < 0x100000) :
    exec (.registerWrite p off v) s = done s (s.hubWrite p off.toNat 0xFFFFFFFF v false none) := by
  change access s p off.toNat (fun s => s.busWrite p off.toNat v) = _
  simp only [access, State.reachable_of_carries _ hc, State.busWrite, ho, if_true]

/-- An offset within a span that holds no register ignores a write, and the access is counted nowhere, whatever its
power domain (R321, R407). -/
theorem exec_registerWrite_of_not_listed {s : State} {p : Path} {off v : Word} {pl : Place} (hc : s.carries p = true)
    (ho : off.toNat < 0x100000) (he : s.tooEarly p = false) (hp : placeOf off.toNat = some pl) (hb : pl.blk ≠ .access)
    (hl : pl.listed = false) : exec (.registerWrite p off v) s = .next s := by
  have hup : s.coreUp = true := (Bool.and_eq_true_iff.1 hc).1
  have hkeep : s.hubWrite p off.toNat 0xFFFFFFFF v false none = s := by
    rw [State.hubWrite_of_ne_access _ _ _ _ he hp hb]
    simp [State.placeWrite, hl]
  rw [exec_registerWrite hc ho, hkeep, done_eq_next rfl rfl rfl rfl hup]

/-- The block at reset with the statistics domain down. -/
def statsDown : State :=
  { State.reset with domOn := State.reset.domOn.set 2 false }

/-- Refutes O38: the clause on a powered-down domain asks for a count in PD_HITS at every place of the domain. STATS[0]
holds no register at 0x24, so with the statistics domain down a write there, at 0x40024, is ignored and not counted
(R321, R330). -/
theorem not_registerWrites : ¬ Obligations.RegisterWrites := by
  unfold Obligations.RegisterWrites
  rintro ⟨hwrite, -⟩
  have hplace : placeOf (0x40024 : Word).toNat = some ⟨.stats, 0, 0x24⟩ := by decide +kernel
  obtain ⟨-, -, hdown, -⟩ := hwrite statsDown .stw 0x40024 0 rfl (by decide)
  have hcount := hdown ⟨.stats, 0, 0x24⟩ rfl hplace (by decide) (by decide +kernel)
  rw [exec_registerWrite_of_not_listed rfl (by decide) rfl hplace (by decide) (by decide)] at hcount
  have hhits := congrArg (fun s => s.rf .access 0 0x28 15 0) (Host.Outcome.next.inj hcount)
  have hbefore : statsDown.rf .access 0 0x28 15 0 = 0 := by decide +kernel
  have hafter : (statsDown.count .access 0 0x28 15 0).rf .access 0 0x28 15 0 = 1 := by decide +kernel
  omega

end Sys2Proof.Machine

/-! SUPPORT. PROOFS. How a command completes (R29, R292, R316, R330) and what reset leaves (R14, R393, R404). -/

namespace Sys2Proof.Machine

/-- Three commands move the tick index themselves (R14, R140, R380); every other leaves the clock to `done`. -/
theorem exec_eq_done_or (c : Instr) (s : State) :
    (∃ t, exec c s = done s t) ∨ c = .datumTick ∨ (∃ band, c = .synLock 8 band) ∨ ∃ m, c = .synbRelock m := by
  cases c
  case datumTick => exact .inr (.inl rfl)
  case synbRelock m => exact .inr (.inr (.inr ⟨m, rfl⟩))
  case synLock y band =>
    by_cases hy : y = 8
    · exact .inr (.inr (.inl ⟨band, by rw [hy]⟩))
    · have hval : y.val ≠ 8 := fun h => hy (Fin.ext h)
      simp only [exec, execSynLock, hval, if_false]
      split
      · exact .inl ⟨_, rfl⟩
      · exact .inl ⟨_, rfl⟩
  case svSupplyMismatch g within =>
    simp only [exec, execSvSupplyMismatch]
    split
    · exact .inl ⟨_, rfl⟩
    · exact .inl ⟨_, rfl⟩
  all_goals exact .inl ⟨_, rfl⟩

end Sys2Proof.Machine

namespace Sys2Proof.Machine

/-- What a `done` command answers, field by field: the queue stands, the tick stands while the core runs and is 0 while
it is held. -/
theorem done_eq (s t : State) : done s t = .next { t with
    pending := s.pending
    tick := if t.coreUp then s.tick else 0
    islandTick := if t.coreUp then s.islandTick else Vector.replicate 16 0
    ticking := s.ticking && t.ticking && t.coreUp } :=
  rfl

/-- A command that ends with `done` leaves its effect P where P does not look at the queue or the tick. -/
theorem completes_of_done {c : Instr} {s t : State} {P : State → Prop} (hc : exec c s = done s t)
    (hP : P { t with
      pending := s.pending
      tick := if t.coreUp then s.tick else 0
      islandTick := if t.coreUp then s.islandTick else Vector.replicate 16 0
      ticking := s.ticking && t.ticking && t.coreUp }) : Completes c s P :=
  ⟨_, hc, hP⟩

/-- Settles O49: every arm of `exec` ends in a state with the queue put back. -/
theorem everyCommandAnswersAndKeepsTheQueue : Obligations.EveryCommandAnswersAndKeepsTheQueue := by
  unfold Obligations.EveryCommandAnswersAndKeepsTheQueue
  intro c s
  rcases exec_eq_done_or c s with ⟨t, ht⟩ | rfl | ⟨band, rfl⟩ | ⟨m, rfl⟩
  · exact ⟨_, ht, rfl⟩
  · simp only [exec, execDatumTick]
    split
    · exact ⟨_, rfl, rfl⟩
    · exact ⟨s, rfl, rfl⟩
  · simp only [exec, execSynLock]
    split
    · exact ⟨_, rfl, rfl⟩
    · exact ⟨_, rfl, rfl⟩
  · simp only [exec, execSynbRelock]
    split
    · exact ⟨_, rfl, rfl⟩
    · exact ⟨s, rfl, rfl⟩

/-- Settles O50: `State.reset` lists no register, no byte and no command, and each named field stands at its reset value. -/
theorem resetState : Obligations.ResetState := by
  unfold Obligations.ResetState
  have hclock : State.reset.tickInv := ⟨by decide, nofun⟩
  have hdatums : ∀ d : Fin 8, (State.reset.datums[d]).clk = Clock.reset ∧ (State.reset.datums[d]).set = false := by decide
  have hloops : ∀ n : Fin 16, (State.reset.loops[n]).code = .freeRun := by decide
  have hsyns : ∀ y : Fin 8, (State.reset.syns[y.castSucc]).phase = .off := by decide
  exact ⟨rfl, rfl, rfl, hclock, rfl, hsyns, rfl, fun _ _ _ => rfl, fun _ _ => rfl, hdatums, hloops, rfl, rfl, fun _ => rfl⟩

/-- A core held in reset while the self-test of the loop island LPA (block 0x11) runs. -/
def heldUnderTest : State :=
  { State.reset with
    coreUp := false
    fm := { FaultMgr.reset with blks := FaultMgr.reset.blks.set 0x11 { Blk.reset with st := .testing } } }

/-- Refutes O54: the fault manager runs on while the core is held (R24), and a self-test that fails then retires the loop
island at once: loop 0 becomes FAILED (R379). -/
theorem not_heldCoreStandsStill : ¬ Obligations.HeldCoreStandsStill := by
  unfold Obligations.HeldCoreStandsStill
  intro h
  have hinv : heldUnderTest.tickInv := ⟨by decide, fun _ => ⟨rfl, rfl⟩⟩
  have hfailed : ((heldUnderTest.selfTestDone 0x11 false).loops[0]).role = .failed := by decide +kernel
  have hrun : exec (.selfTestDone 0x11 false) heldUnderTest
      = done heldUnderTest (heldUnderTest.selfTestDone 0x11 false) := rfl
  generalize heldUnderTest.selfTestDone 0x11 false = u at hfailed hrun
  obtain ⟨-, -, -, hstill⟩ := h (.selfTestDone 0x11 false) _ _ rfl hinv (hrun.trans (done_eq _ _)) nofun
  obtain ⟨-, hloops, -⟩ := hstill nofun
  have hsame : u.loops = heldUnderTest.loops := hloops
  have hsolo : (heldUnderTest.loops[0]).role = .solo := rfl
  rw [hsame, hsolo] at hfailed
  exact absurd hfailed (by decide)

end Sys2Proof.Machine

namespace Sys2Proof.Machine

/-- Settles O53: a `done` command with the core up puts the tick back and starts nothing. -/
theorem onlyTheClockMovesTheTick : Obligations.OnlyTheClockMovesTheTick := by
  unfold Obligations.OnlyTheClockMovesTheTick
  intro c s t ht hup hnot hlock hrelock
  rcases exec_eq_done_or c s with ⟨u, hu⟩ | rfl | ⟨band, rfl⟩ | ⟨m, rfl⟩
  · rw [hu, done_eq] at ht
    obtain rfl := Host.Outcome.next.inj ht
    have hu' : u.coreUp = true := hup
    simp only [hu', if_true, true_and, Bool.and_eq_true, and_imp]
    exact fun hs _ _ => hs
  · exact absurd rfl hnot
  · exact absurd rfl (hlock band)
  · exact absurd rfl (hrelock m)

/-- A time set due at a clock whose sender, loop 1, has become the standby of loop 0 with another source selected; loop 0
is in a transaction to the recovered clock of port 0, whose fault waits for the fault manager. -/
def setOfAStandby : State :=
  { State.reset with
    ticking := true
    fm := { FaultMgr.reset with waiting := [(0x40, 1)] }
    slots := State.reset.slots.set 16 { Slot.reset with qstate := .qualified }
    loops := (State.reset.loops.set 0 { Loop.reset with
        code := .locked, role := .primary, sel := some 0, sw := some ⟨16, .order, 0, [], false⟩, pbo := 5 }).set 1
      { Loop.reset with code := .locked, role := .standby, sel := some 1 }
    datums := State.reset.datums.set 0 { Datum.reset with setDue := some ⟨1, 0, 0⟩ } }

/-- Refutes O2: the clause on a time set asks for PBO 0 at the loop that sent it. In the same tick the fault manager takes
the port down, the transaction of the primary is aborted, and its standby, which sent the set, takes the primary's source
and PBO (R121, R134). -/
theorem not_datumTickStepsAndSlews : ¬ Obligations.DatumTickStepsAndSlews := by
  unfold Obligations.DatumTickStepsAndSlews
  rintro ⟨⟨-, -, hset⟩, -⟩
  have htaken : (setOfAStandby.tickClocks.tickRest.loops[(1 : Fin 16)]).pbo = 5 := by decide +kernel
  have hothers : ∀ e : Fin 8, e ≠ 0 → (setOfAStandby.datums[e]).setDue = none := by decide
  obtain ⟨t, ht, -, -, hpbo, -⟩ := hset setOfAStandby 0 ⟨1, 0, 0⟩ _ rfl rfl rfl rfl hothers rfl
  have hrun : exec .datumTick setOfAStandby = .next { setOfAStandby.tickClocks.tickRest with
      pending := setOfAStandby.pending
      tick := setOfAStandby.tickClocks.tick
      islandTick := setOfAStandby.tickClocks.islandTick } := rfl
  generalize setOfAStandby.tickClocks.tickRest = u at hrun htaken
  rw [hrun] at ht
  obtain rfl := Host.Outcome.next.inj ht
  have hzero : (u.loops[(1 : Fin 16)]).pbo = 0 := hpbo
  omega

end Sys2Proof.Machine

/-! SUPPORT. PROOFS. The parts of the state and what each operation leaves of them. The service part (registers, counters,
memory, notices, the fault manager's queue, what goes out) is what every operation may touch (`State.ServiceOf`); the rest
falls into parts, and one lemma for each operation says which of them it leaves as they are. -/

namespace Sys2Proof.Machine

/-- The parts of the state besides the service part. -/
inductive Part where
  | clock | hub | snap | xwords | datums | loops | slots | chans | groups | units | book | syns | outs | lines | plan
  | ports | sessions | streams | insts | engines | sems | bus | arch | steward | oven | boot | power | reload | scan | cart
  deriving DecidableEq

/-- What a part holds. -/
def Part.Val : Part → Type
  | .clock => List Instr × Bool × Bool × DWord × Vector DWord 16
  | .hub => Vector PathSt 12 × Bool × BitVec 3 × BitVec 4 × Vector Mbox 16 × Word × Word
  | .snap => Snapshot
  | .xwords => List XWord
  | .datums => Vector Datum 8
  | .loops => Vector Loop 16
  | .slots => Vector Slot 96
  | .chans => Vector Chan 192
  | .groups => Vector Group 12
  | .units => Vector StatUnit 32
  | .book => Book
  | .syns => Vector Syn 9
  | .outs => Vector (Option (Fin 8)) 12 × Vector (Option BankHand) 12 × Vector Bool 12 × Vector OutSt 48 × Vector DWord 48
  | .lines => Vector Line 4
  | .plan => Prog × Option (List Word)
  | .ports => Vector Port 16
  | .sessions => List Sess
  | .streams => Vector Stream 32
  | .insts => Vector Inst 8
  | .engines => Vector Engine 8
  | .sems => Vector (Option (Fin 8)) 64
  | .bus => Vector MbPort 2 × Vector Gaz 64 × Xfer × (BitVec 256 × Word)
  | .arch => Archive
  | .steward => Bool × Nat × BitVec 2 × Bool × Nat
  | .oven => Oven
  | .boot => Boot
  | .power => Vector Bool 108 × Vector Bool 108
  | .reload => Vector Bool 2
  | .scan => Bool
  | .cart => Bool

/-- A part of a state. -/
def State.val (s : State) : (p : Part) → p.Val
  | .clock => (s.pending, s.coreUp, s.ticking, s.tick, s.islandTick)
  | .hub => (s.paths, s.linkUp, s.linkSpeed, s.linkWidth, s.mboxes, s.dbIn, s.dbOut)
  | .snap => s.snap
  | .xwords => s.xwords
  | .datums => s.datums
  | .loops => s.loops
  | .slots => s.slots
  | .chans => s.chans
  | .groups => s.groups
  | .units => s.units
  | .book => s.book
  | .syns => s.syns
  | .outs => (s.bankSrc, s.bankHand, s.bankHeld, s.outs, s.outFrom)
  | .lines => s.lines
  | .plan => (s.plan, s.planDue)
  | .ports => s.ports
  | .sessions => s.sessions
  | .streams => s.streams
  | .insts => s.insts
  | .engines => s.engines
  | .sems => s.sems
  | .bus => (s.mbs, s.gaz, s.xfer, s.peerMir)
  | .arch => s.arch
  | .steward => (s.benchMatch, s.stewLoad, s.shedLevel, s.shedHot, s.shedRun)
  | .oven => s.oven
  | .boot => s.boot
  | .power => (s.domOn, s.domRising)
  | .reload => s.reloadDue
  | .scan => s.scanning
  | .cart => s.cartOk

variable {p : Part}

/-- A service operation leaves every part. -/
theorem State.ServiceOf.val {s t : State} (h : s.ServiceOf t) : t.val p = s.val p := by
  rw [h]
  cases p <;> rfl

theorem State.val_ite (c : Prop) [Decidable c] (a b : State) :
    (if c then a else b).val p = if c then a.val p else b.val p :=
  apply_ite (fun s => s.val p) c a b

/-- A fold leaves what each of its steps leaves. -/
theorem State.val_foldl {α : Type} {f : State → α → State} (hf : ∀ s x, (f s x).val p = s.val p) (l : List α) (s : State) :
    (l.foldl f s).val p = s.val p := by
  induction l generalizing s with
  | nil => rfl
  | cons x l ih => rw [List.foldl_cons, ih, hf]

theorem State.val_overFin {n : Nat} {f : Fin n → State → State} (hf : ∀ i s, (f i s).val p = s.val p) (s : State) :
    (overFin n s f).val p = s.val p :=
  State.val_foldl (fun s i => hf i s) _ s

/-- What the clock part holds, field by field. -/
theorem State.clock_of_val {s t : State} (h : t.val .clock = s.val .clock) :
    t.pending = s.pending ∧ t.coreUp = s.coreUp ∧ t.ticking = s.ticking ∧ t.tick = s.tick ∧ t.islandTick = s.islandTick := by
  have h : (t.pending, t.coreUp, t.ticking, t.tick, t.islandTick) = (s.pending, s.coreUp, s.ticking, s.tick, s.islandTick) := h
  simpa only [Prod.mk.injEq] using h

end Sys2Proof.Machine

namespace Sys2Proof.Machine

variable {p : Part}

/-! ## The plain updates -/

@[simp] theorem State.modDatum_val (h : p ≠ .datums) (s : State) (d : Fin 8) (f : Datum → Datum) : (s.modDatum d f).val p = s.val p := by
  cases p
  case datums => exact absurd rfl h
  all_goals rfl

@[simp] theorem State.modLoop_val (h : p ≠ .loops) (s : State) (n : Fin 16) (f : Loop → Loop) : (s.modLoop n f).val p = s.val p := by
  cases p
  case loops => exact absurd rfl h
  all_goals rfl

@[simp] theorem State.modSlot_val (h : p ≠ .slots) (s : State) (i : Fin 96) (f : Slot → Slot) : (s.modSlot i f).val p = s.val p := by
  cases p
  case slots => exact absurd rfl h
  all_goals rfl

@[simp] theorem State.modChan_val (h : p ≠ .chans) (s : State) (c : Fin 192) (f : Chan → Chan) : (s.modChan c f).val p = s.val p := by
  cases p
  case chans => exact absurd rfl h
  all_goals rfl

@[simp] theorem State.modGroup_val (h : p ≠ .groups) (s : State) (g : Fin 12) (f : Group → Group) : (s.modGroup g f).val p = s.val p := by
  cases p
  case groups => exact absurd rfl h
  all_goals rfl

@[simp] theorem State.modUnit_val (h : p ≠ .units) (s : State) (u : Fin 32) (f : StatUnit → StatUnit) : (s.modUnit u f).val p = s.val p := by
  cases p
  case units => exact absurd rfl h
  all_goals rfl

@[simp] theorem State.modSyn_val (h : p ≠ .syns) (s : State) (y : Fin 9) (f : Syn → Syn) : (s.modSyn y f).val p = s.val p := by
  cases p
  case syns => exact absurd rfl h
  all_goals rfl

@[simp] theorem State.modPort_val (h : p ≠ .ports) (s : State) (n : Fin 16) (f : Port → Port) : (s.modPort n f).val p = s.val p := by
  cases p
  case ports => exact absurd rfl h
  all_goals rfl

@[simp] theorem State.modReist_val (h : p ≠ .ports) (s : State) (n : Fin 16) (f : Reist → Reist) : (s.modReist n f).val p = s.val p := by
  cases p
  case ports => exact absurd rfl h
  all_goals rfl

@[simp] theorem State.modStream_val (h : p ≠ .streams) (s : State) (i : Fin 32) (f : Stream → Stream) : (s.modStream i f).val p = s.val p := by
  cases p
  case streams => exact absurd rfl h
  all_goals rfl

@[simp] theorem State.modInst_val (h : p ≠ .insts) (s : State) (i : Fin 8) (f : Inst → Inst) : (s.modInst i f).val p = s.val p := by
  cases p
  case insts => exact absurd rfl h
  all_goals rfl

@[simp] theorem State.modEng_val (h : p ≠ .engines) (s : State) (e : Fin 8) (f : Engine → Engine) : (s.modEng e f).val p = s.val p := by
  cases p
  case engines => exact absurd rfl h
  all_goals rfl

@[simp] theorem State.modMbox_val (h : p ≠ .hub) (s : State) (m : Fin 16) (f : Mbox → Mbox) : (s.modMbox m f).val p = s.val p := by
  cases p
  case hub => exact absurd rfl h
  all_goals rfl

@[simp] theorem State.modMb_val (h : p ≠ .bus) (s : State) (q : Fin 2) (f : MbPort → MbPort) : (s.modMb q f).val p = s.val p := by
  cases p
  case bus => exact absurd rfl h
  all_goals rfl

@[simp] theorem State.modGaz_val (h : p ≠ .bus) (s : State) (i : Fin 64) (f : Gaz → Gaz) : (s.modGaz i f).val p = s.val p := by
  cases p
  case bus => exact absurd rfl h
  all_goals rfl

@[simp] theorem State.modOven_val (h : p ≠ .oven) (s : State) (f : Oven → Oven) : (s.modOven f).val p = s.val p := by
  cases p
  case oven => exact absurd rfl h
  all_goals rfl

@[simp] theorem State.modBoot_val (h : p ≠ .boot) (s : State) (f : Boot → Boot) : (s.modBoot f).val p = s.val p := by
  cases p
  case boot => exact absurd rfl h
  all_goals rfl

@[simp] theorem State.modBook_val (h : p ≠ .book) (s : State) (f : Book → Book) : (s.modBook f).val p = s.val p := by
  cases p
  case book => exact absurd rfl h
  all_goals rfl

@[simp] theorem State.modPath_val (h : p ≠ .hub) (s : State) (q : Path) (f : PathSt → PathSt) : (s.modPath q f).val p = s.val p := by
  cases p
  case hub => exact absurd rfl h
  all_goals rfl

@[simp] theorem State.answer_val (h : p ≠ .hub) (s : State) (q : Path) (r : Resp) : (s.answer q r).val p = s.val p := by
  cases p
  case hub => exact absurd rfl h
  all_goals rfl

@[simp] theorem State.modBlk_val (s : State) (i : Fin 128) (f : Blk → Blk) : (s.modBlk i f).val p = s.val p := by
  cases p <;> rfl

@[simp] theorem State.emit_val (s : State) (e : Emission) : (s.emit e).val p = s.val p := by
  cases p <;> rfl

@[simp] theorem State.free_val (s : State) : s.free.2.val p = s.val p := by
  cases p <;> rfl

@[simp] theorem State.alertEvent_val (s : State) : s.alertEvent.val p = s.val p := by
  cases p <;> rfl

@[simp] theorem State.setReg_val (s : State) (k : Nat) (v : Word) : (s.setReg k v).val p = s.val p :=
  State.ServiceOf.val (State.setReg_service s k v)

@[simp] theorem State.wr_val (s : State) (b : Block) (i o : Nat) (v : Word) : (s.wr b i o v).val p = s.val p :=
  State.ServiceOf.val (State.wr_service s b i o v)

@[simp] theorem State.setFld_val (s : State) (b : Block) (i o hi lo v : Nat) : (s.setFld b i o hi lo v).val p = s.val p :=
  State.ServiceOf.val rfl

@[simp] theorem State.count_val (s : State) (b : Block) (i o hi lo n : Nat) : (s.count b i o hi lo n).val p = s.val p :=
  State.ServiceOf.val (State.count_service s b i o hi lo n)

@[simp] theorem State.rcAll_val (s : State) (k : Nat) (f : Word → Word) : (s.rcAll k f).val p = s.val p :=
  State.ServiceOf.val (State.rcAll_service s k f)

@[simp] theorem State.rcSet_val (s : State) (b : Block) (i o : Nat) (v : Word) : (s.rcSet b i o v).val p = s.val p :=
  State.ServiceOf.val rfl

@[simp] theorem State.rcCount_val (s : State) (b : Block) (i o hi lo n : Nat) : (s.rcCount b i o hi lo n).val p = s.val p :=
  State.ServiceOf.val (State.rcCount_service s b i o hi lo n)

@[simp] theorem State.rcClear_val (s : State) (k view : Nat) (v : Word) : (s.rcClear k view v).val p = s.val p :=
  State.ServiceOf.val rfl

@[simp] theorem State.modNote_val (s : State) (f : Notices → Notices) : (s.modNote f).val p = s.val p :=
  State.ServiceOf.val (State.modNote_service s f)

@[simp] theorem State.memWrite_val (s : State) (a : Nat) (bs : List Byte) : (s.memWrite a bs).val p = s.val p :=
  State.ServiceOf.val (State.memWrite_service s a bs)

@[simp] theorem State.msi_val (s : State) (f : Fin 2) (v : Fin 32) : (s.msi f v).val p = s.val p :=
  State.ServiceOf.val (State.msi_service s f v)

@[simp] theorem State.raise_val (s : State) (id : Nat) (cls : BitVec 2) (code : Byte) (args : BitVec 64) : (s.raise id cls code args).val p = s.val p :=
  State.ServiceOf.val (State.raise_service s id cls code args)

@[simp] theorem State.raiseAt_val (s : State) (time : Stamp) (id : Nat) (cls : BitVec 2) (code : Byte) (args : BitVec 64) : (s.raiseAt time id cls code args).val p = s.val p :=
  State.ServiceOf.val (State.raiseAt_service s time id cls code args)

@[simp] theorem State.offer_val (s : State) (o : Offer) : (s.offer o).val p = s.val p :=
  State.ServiceOf.val (State.offer_service s o)

@[simp] theorem State.report_val (s : State) (b cause : Nat) : (s.report b cause).val p = s.val p :=
  State.ServiceOf.val (State.report_service s b cause)

@[simp] theorem State.bankReport_val (s : State) (q : Fin 25) (cause : Nat) : (s.bankReport q cause).val p = s.val p :=
  State.ServiceOf.val (State.bankReport_service s q cause)

@[simp] theorem State.memStore_val (s : State) (a : Nat) (bs : List (Option Byte)) : (s.memStore a bs).val p = s.val p :=
  State.ServiceOf.val (State.memStore_service s a bs)

@[simp] theorem State.memRead_val (s : State) (a n : Nat) : (s.memRead a n).2.val p = s.val p :=
  State.ServiceOf.val (State.memRead_service s a n)

end Sys2Proof.Machine

namespace Sys2Proof.Machine

/-- The parts that a change of selection leaves (R105, R114, R121): no loop, steering word, datum clock or oven state. -/
@[simp] abbrev Part.offSelection (p : Part) : Prop := p ≠ .loops ∧ p ≠ .xwords ∧ p ≠ .datums ∧ p ≠ .oven

/-- Those that a change of a source's qualification leaves (R75): its slot besides. -/
@[simp] abbrev Part.offQualification (p : Part) : Prop := p.offSelection ∧ p ≠ .slots

/-- Those that a change of a port's link leaves (R233, R243): ports, streams and what takes their samples besides. -/
@[simp] abbrev Part.offPorts (p : Part) : Prop := p.offQualification ∧ p ≠ .ports ∧ p ≠ .streams ∧ p ≠ .units

/-! ## The written fields -/

variable {p : Part}

theorem State.withFm_val (s : State) (a : FaultMgr) : State.val { s with fm := a } p = s.val p := by
  cases p <;> rfl

theorem State.withMem_val (s : State) (a : Memory) : State.val { s with mem := a } p = s.val p := by
  cases p <;> rfl

theorem State.withOuts_val (h : p ≠ .outs) (s : State) (a : Vector OutSt 48) (b : Vector DWord 48) :
    State.val { s with outs := a, outFrom := b } p = s.val p := by
  cases p
  case outs => exact absurd rfl h
  all_goals rfl

theorem State.withLoops_val (h : p ≠ .loops) (s : State) (a : Vector Loop 16) :
    State.val { s with loops := a } p = s.val p := by
  cases p
  case loops => exact absurd rfl h
  all_goals rfl

theorem State.withDatums_val (h : p ≠ .datums) (s : State) (a : Vector Datum 8) :
    State.val { s with datums := a } p = s.val p := by
  cases p
  case datums => exact absurd rfl h
  all_goals rfl

theorem State.withEngines_val (h : p ≠ .engines) (s : State) (a : Vector Engine 8) :
    State.val { s with engines := a } p = s.val p := by
  cases p
  case engines => exact absurd rfl h
  all_goals rfl

theorem State.withUnits_val (h : p ≠ .units) (s : State) (a : Vector StatUnit 32) :
    State.val { s with units := a } p = s.val p := by
  cases p
  case units => exact absurd rfl h
  all_goals rfl

theorem State.withReloadDue_val (h : p ≠ .reload) (s : State) (a : Vector Bool 2) :
    State.val { s with reloadDue := a } p = s.val p := by
  cases p
  case reload => exact absurd rfl h
  all_goals rfl

theorem State.withSems_val (h : p ≠ .sems) (s : State) (a : Vector (Option (Fin 8)) 64) :
    State.val { s with sems := a } p = s.val p := by
  cases p
  case sems => exact absurd rfl h
  all_goals rfl

theorem State.withScanning_val (h : p ≠ .scan) (s : State) (a : Bool) :
    State.val { s with scanning := a } p = s.val p := by
  cases p
  case scan => exact absurd rfl h
  all_goals rfl

theorem State.withArch_val (h : p ≠ .arch) (s : State) (a : Archive) :
    State.val { s with arch := a } p = s.val p := by
  cases p
  case arch => exact absurd rfl h
  all_goals rfl

theorem State.withXwords_val (h : p ≠ .xwords) (s : State) (a : List XWord) :
    State.val { s with xwords := a } p = s.val p := by
  cases p
  case xwords => exact absurd rfl h
  all_goals rfl

theorem State.withSyns_val (h : p ≠ .syns) (s : State) (a : Vector Syn 9) :
    State.val { s with syns := a } p = s.val p := by
  cases p
  case syns => exact absurd rfl h
  all_goals rfl

theorem State.withTicking_val (h : p ≠ .clock) (s : State) (a : Bool) :
    State.val { s with ticking := a } p = s.val p := by
  cases p
  case clock => exact absurd rfl h
  all_goals rfl

end Sys2Proof.Machine

/-! ## What each operation leaves

One lemma for each operation of the model, in the model's order: its write set is the list of parts that the hypothesis
excludes. -/

namespace Sys2Proof.Machine

variable {p : Part}

@[simp] theorem State.bookGroup_val (h : p ≠ .book) (s : State) (g : List Rec) :
    (s.bookGroup g).val p = s.val p := by
  simp [State.bookGroup, State.val_ite, h]

@[simp] theorem State.log_val (h : p ≠ .arch) (s : State) (e : LogEntry) :
    (s.log e).val p = s.val p := by
  unfold State.log
  split
  · exact State.count_val ..
  · exact State.withArch_val h ..

@[simp] theorem State.arcCount_val (h : p ≠ .arch) (s : State) (f : ArcCounters → ArcCounters) :
    (s.arcCount f).val p = s.val p := by
  unfold State.arcCount
  split
  · exact State.count_val ..
  · exact State.withArch_val h ..

@[simp] theorem State.refreshOuts_val (h : p ≠ .outs) (s : State) :
    s.refreshOuts.val p = s.val p :=
  State.withOuts_val h ..

@[simp] theorem State.restartOuts_val (h : p ≠ .outs) (s : State) (sel : Fin 48 → Bool) :
    (s.restartOuts sel).val p = s.val p :=
  State.withOuts_val h ..

@[simp] theorem State.qlRefreshPort_val (h : p ≠ .ports) (s : State) (n : Fin 16) :
    (s.qlRefreshPort n).val p = s.val p := by
  simp [State.qlRefreshPort, State.val_ite, h]

@[simp] theorem State.qlRefresh_val (h : p ≠ .ports) (s : State) :
    s.qlRefresh.val p = s.val p := by
  unfold State.qlRefresh
  refine State.val_overFin (fun i s => ?_) _
  simp [h]

@[simp] theorem State.tickTallies_val (h : p ≠ .loops) (s : State) (k : DWord) :
    (s.tickTallies k).val p = s.val p :=
  (State.withLoops_val h _ _).trans (State.withLoops_val h _ _)

@[simp] theorem State.latchEvents_val (h : p ≠ .loops ∧ p ≠ .slots) (s : State) :
    s.latchEvents.val p = s.val p := by
  cases p
  case loops => exact absurd rfl h.1
  case slots => exact absurd rfl h.2
  all_goals rfl

@[simp] theorem State.meetWaits_val (h : p ≠ .engines) (s : State) :
    s.meetWaits.val p = s.val p :=
  State.withEngines_val h ..

@[simp] theorem State.epochGroup_val (h : p ≠ .datums ∧ p ≠ .book) (s : State) (d : Fin 8) (stepOrSet : Bool) (before : Nat) :
    (s.epochGroup d stepOrSet before).val p = s.val p := by
  simp [State.epochGroup, State.val_ite, h]

@[simp] theorem State.bearing_val (h : p ≠ .book) (s : State) (d : Fin 8) (loop : Fin 16) (delta : Int) :
    (s.bearing d loop delta).val p = s.val p := by
  simp [State.bearing, h]

@[simp] theorem State.shiftGrids_val (h : p ≠ .syns) (s : State) (n : Fin 16) (delta : Int) :
    (s.shiftGrids n delta).val p = s.val p :=
  State.withSyns_val h ..

@[simp] theorem State.takeSet_val (h : p ≠ .loops ∧ p ≠ .datums ∧ p ≠ .book ∧ p ≠ .syns) (s : State) (d : Fin 8) (sd : SetDue) (epochBefore : Nat) :
    (s.takeSet d sd epochBefore).val p = s.val p := by
  simp [State.takeSet, State.val_ite, h]

@[simp] theorem State.tickRecords_val (h : p ≠ .loops ∧ p ≠ .datums ∧ p ≠ .book ∧ p ≠ .syns) (s : State) (d : Fin 8) (o : TickOut) :
    (s.tickRecords d o).val p = s.val p := by
  unfold State.tickRecords
  have hsteps : ∀ u : State, (o.steps.foldl (fun s p => s.bearing d p.1 p.2) u).val p = u.val p :=
    State.val_foldl (fun s x => State.bearing_val (by simp [h]) ..) _
  cases o.ended
  · cases o.d.setDue <;> simp [hsteps, State.val_ite, h]
  · cases o.d.setDue <;> simp [hsteps, State.val_ite, h]

@[simp] theorem State.loadWord_val (h : p ≠ .ports ∧ p ≠ .syns) (s : State) (y : Fin 9) (n : Int) :
    (s.loadWord y n).val p = s.val p := by
  unfold State.loadWord
  dsimp only
  rw [State.val_overFin (fun i s => by simp [State.val_ite, h]), State.modSyn_val (by simp [h])]

@[simp] theorem State.sendWord_val (h : p ≠ .xwords) (s : State) (src : Fin 16) (dst : Dest) (pay : Pay) (take : Bool) :
    (s.sendWord src dst pay take).val p = s.val p :=
  State.withXwords_val h ..

@[simp] theorem State.issueWords_val (h : p ≠ .loops ∧ p ≠ .xwords) (s : State) (n : Fin 16) (f : Int) :
    (s.issueWords n f).val p = s.val p := by
  unfold State.issueWords
  dsimp only
  repeat' split
  all_goals simp [h]

@[simp] theorem State.dropWords_val (h : p ≠ .datums ∧ p ≠ .syns) (s : State) (n : Fin 16) :
    (s.dropWords n).val p = s.val p := by
  unfold State.dropWords
  dsimp only
  rw [State.val_overFin (fun y s => by simp [State.val_ite, h]), State.val_overFin (fun d s => by simp [State.val_ite, h])]

@[simp] theorem State.refresh_val (h : p ≠ .ports ∧ p ≠ .outs) (s : State) :
    s.refresh.val p = s.val p := by
  simp [State.refresh, h]

@[simp] theorem State.setTraceable_val (h : p ≠ .datums) (s : State) (n : Fin 16) (v : Bool) :
    (s.setTraceable n v).val p = s.val p := by
  unfold State.setTraceable
  refine State.val_overFin (fun i s => ?_) _
  simp [State.val_ite, h]

@[simp] theorem State.loopCode_val (h : p ≠ .loops ∧ p ≠ .datums) (s : State) (n : Fin 16) (c : LoopCode) :
    (s.loopCode n c).val p = s.val p := by
  unfold State.loopCode
  split <;> simp [State.val_ite, h]

@[simp] theorem State.setPbo_val (h : p ≠ .loops ∧ p ≠ .xwords) (s : State) (n : Fin 16) (q : Int) :
    (s.setPbo n q).val p = s.val p := by
  unfold State.setPbo
  dsimp only
  split <;> simp [State.val_ite, h]

@[simp] theorem State.enterAcquire_val (h : p.offSelection) (s : State) (n : Fin 16) :
    (s.enterAcquire n).val p = s.val p := by
  simp [State.enterAcquire, State.val_ite, h]

@[simp] theorem State.modelSecond_val (h : p ≠ .oven) (s : State) (n : Fin 16) (f : Int) :
    (s.modelSecond n f).val p = s.val p := by
  simp [State.modelSecond, State.val_ite, h]

@[simp] theorem State.secondDone_val (h : p.offSelection) (s : State) (n : Fin 16) :
    (s.secondDone n).val p = s.val p := by
  unfold State.secondDone
  dsimp only
  repeat' split
  all_goals simp [h]

@[simp] theorem State.leaveSource_val (h : p.offSelection) (s : State) (n : Fin 16) :
    (s.leaveSource n).val p = s.val p := by
  unfold State.leaveSource
  lift_lets
  extract_lets u l v w x
  have hv : v.val p = s.val p := (State.modLoop_val h.1 ..).trans (State.secondDone_val h ..)
  have hx : x.val p = s.val p := ((State.modLoop_val h.1 ..).trans (State.modLoop_val h.1 ..)).trans hv
  simp [State.val_ite, hv, hx, h]

@[simp] theorem State.loseSource_val (h : p.offSelection) (s : State) (n : Fin 16) :
    (s.loseSource n).val p = s.val p := by
  unfold State.loseSource
  rw [State.leaveSource_val h, State.modLoop_val h.1, State.secondDone_val h]

@[simp] theorem State.mirrorSel_val (h : p.offSelection) (s : State) (n : Fin 16) :
    (s.mirrorSel n).val p = s.val p := by
  unfold State.mirrorSel
  lift_lets
  extract_lets l m q moved fs u v
  have hu : u.val p = s.val p := State.modLoop_val h.1 ..
  simp [State.val_ite, hu, h]

@[simp] theorem State.passConsumers_val (h : p ≠ .loops ∧ p ≠ .xwords) (s : State) (n : Fin 16) :
    (s.passConsumers n).val p = s.val p := by
  simp [State.passConsumers, h]

@[simp] theorem State.orphan_val (h : p ≠ .datums) (s : State) (n : Fin 16) :
    (s.orphan n).val p = s.val p := by
  simp [State.orphan, h]

@[simp] theorem State.plannedHandover_val (h : p ≠ .loops ∧ p ≠ .xwords) (s : State) (q : Fin 16) :
    (s.plannedHandover q).val p = s.val p := by
  simp [State.plannedHandover, h]

@[simp] theorem State.twinSwap_val (h : p ≠ .loops ∧ p ≠ .xwords) (s : State) (n : Fin 16) :
    (s.twinSwap n).val p = s.val p := by
  simp [State.twinSwap, State.val_ite, h]

@[simp] theorem State.swapPending_val (h : p ≠ .loops ∧ p ≠ .xwords) (s : State) (n : Fin 16) :
    (s.swapPending n).val p = s.val p := by
  simp [State.swapPending, State.val_ite, h]

@[simp] theorem State.candPut_val (s : State) (n i : Fin 16) (v : Word) :
    (s.candPut n i v).val p = s.val p := by
  simp [State.candPut]

@[simp] theorem State.clearBars_val (h : p ≠ .loops) (s : State) (n : Fin 16) (m : BitVec 96) :
    (s.clearBars n m).val p = s.val p := by
  simp [State.clearBars, State.val_ite, h]

@[simp] theorem State.candStore_val (h : p ≠ .loops) (s : State) (n i : Fin 16) (v : Word) :
    (s.candStore n i v).val p = s.val p := by
  simp [State.candStore, h]

@[simp] theorem State.releaseCands_val (h : p ≠ .loops) (s : State) (n : Fin 16) :
    (s.releaseCands n).val p = s.val p := by
  have hput := State.val_foldl (p := p) (f := fun (s : State) (x : Fin 16 × Word) => s.candStore n x.1 x.2)
    (fun s x => State.candStore_val h ..)
  exact (hput _ _).trans (State.modLoop_val h ..)

@[simp] theorem State.endSw_val (h : p ≠ .loops) (s : State) (n : Fin 16) :
    (s.endSw n).val p = s.val p := by
  simp [State.endSw, h]

@[simp] theorem State.abortSw_val (h : p.offSelection) (s : State) (n : Fin 16) :
    (s.abortSw n).val p = s.val p := by
  unfold State.abortSw
  simp [State.val_ite, h]

@[simp] theorem State.twinFault_val (h : p ≠ .loops ∧ p ≠ .xwords ∧ p ≠ .datums ∧ p ≠ .syns) (s : State) (n : Fin 16) :
    (s.twinFault n).val p = s.val p := by
  unfold State.twinFault
  dsimp only
  split <;> simp [State.val_ite, h]

@[simp] theorem State.holdoffBack_val (h : p.offSelection) (s : State) (n : Fin 16) :
    (s.holdoffBack n).val p = s.val p := by
  unfold State.holdoffBack
  split
  · simp [State.val_ite, h]
  · rfl

@[simp] theorem State.sourceChanged_val (h : p.offSelection) (s : State) (src : Fin 96) (wasQ : Bool) :
    (s.sourceChanged src wasQ).val p = s.val p := by
  unfold State.sourceChanged
  lift_lets
  extract_lets isQ isLow
  refine State.val_overFin (fun n u => ?_) _
  lift_lets
  extract_lets l v w l'
  have hv : v.val p = u.val p := by simp [v, State.val_ite, h]
  have hw : w.val p = u.val p := by
    simp only [w]
    split <;> simp [State.val_ite, hv, h]
  simp [State.val_ite, hv, hw, h]

@[simp] theorem State.offerSmp_val (h : p ≠ .units) (s : State) (kind index : Nat) (x : Int) (unw gap : Bool) :
    (s.offerSmp kind index x unw gap).val p = s.val p :=
  State.withUnits_val h ..

@[simp] theorem State.clearEst_val (h : p ≠ .loops) (s : State) (n : Fin 16) :
    (s.clearEst n).val p = s.val p := by
  simp [State.clearEst, h]

@[simp] theorem State.loopsOscLost_val (h : p.offSelection) (s : State) :
    s.loopsOscLost.val p = s.val p := by
  unfold State.loopsOscLost
  refine State.val_overFin (fun i s => ?_) _
  simp [State.val_ite, h]

@[simp] theorem State.qualNotice_val (s : State) (src : Fin 96) (oq nq : QState) (oo no_ : Nat) :
    (s.qualNotice src oq nq oo no_).val p = s.val p := by
  simp [State.qualNotice]

@[simp] theorem State.settleOff_val (h : p ≠ .oven) (s : State) (src : Fin 96) :
    (s.settleOff src).val p = s.val p := by
  simp [State.settleOff, State.val_ite, h]

@[simp] theorem State.setQ_val (h : p.offQualification) (s : State) (src : Fin 96) (q : QState) (cause : Nat) :
    (s.setQ src q cause).val p = s.val p := by
  unfold State.setQ
  lift_lets
  extract_lets old o u v wtr x now w
  have hu : u.val p = s.val p := State.modSlot_val h.2 ..
  have hv : v.val p = s.val p := by simp [v, State.val_ite, hu, h]
  have hw : w.val p = s.val p := by
    simp only [w]
    cases q <;> simp [hv, h]
  simp [State.val_ite, hw, h]

@[simp] theorem State.evalQ1_val (h : p.offQualification) (s : State) (src : Fin 96) :
    (s.evalQ1 src).val p = s.val p := by
  unfold State.evalQ1
  extract_lets x
  cases x.qstate
  · rfl
  · cases s.hardAlarm src <;> simp [State.val_ite, h]
  · cases s.hardAlarm src <;> cases x.wtrAt <;> simp [State.val_ite, h]
  · cases s.hardAlarm src <;> simp [State.val_ite, h]
  · rfl

@[simp] theorem State.evalQ_val (h : p.offQualification) (s : State) (src : Fin 96) :
    (s.evalQ src).val p = s.val p := by
  simp [State.evalQ, h]

@[simp] theorem State.refreshOrder_val (h : p.offPorts) (s : State) (src : Fin 96) :
    (s.refreshOrder src).val p = s.val p := by
  unfold State.refreshOrder
  generalize s.orderOf src = o
  obtain ⟨o, mm⟩ := o
  extract_lets x
  simp [State.val_ite, h]

@[simp] theorem State.alarmEdge_val (s : State) (src : Fin 96) (i : Nat) (old new : Bool) :
    (s.alarmEdge src i old new).val p = s.val p := by
  simp [State.alarmEdge, State.val_ite]

@[simp] theorem State.setAlarms_val (h : p.offQualification) (s : State) (src : Fin 96) (a : Alarms) :
    (s.setAlarms src a).val p = s.val p := by
  unfold State.setAlarms
  lift_lets
  extract_lets x risen b fell u u0 u1 u2 u3 v
  have hu : u.val p = s.val p := State.modSlot_val h.2 ..
  simp [v, u3, u2, u1, u0, State.val_ite, hu, h]

@[simp] theorem State.setLos_val (h : p.offQualification) (s : State) (src : Fin 96) :
    (s.setLos src).val p = s.val p := by
  simp [State.setLos, State.val_ite, h]

@[simp] theorem State.coreFault_val (h : p ≠ .groups) (s : State) (g : Fin 12) (core : Fin 17) :
    (s.coreFault g core).val p = s.val p := by
  simp [State.coreFault, State.val_ite, h]

@[simp] theorem State.badTable_val (h : p ≠ .groups) (s : State) (g : Fin 12) :
    (s.badTable g).val p = s.val p := by
  simp [State.badTable, State.val_ite, h]

@[simp] theorem State.recoverCore_val (h : p ≠ .groups) (s : State) (g : Fin 12) (c : Fin 16) (base : Int) (m : Int) :
    (s.recoverCore g c base m).val p = s.val p := by
  simp [State.recoverCore, h]

@[simp] theorem State.overlap_val (h : p ≠ .groups) (s : State) (g : Fin 12) (dr dx : List (BitVec 12)) (tap : Bool) :
    (s.overlap g dr dx tap).val p = s.val p := by
  unfold State.overlap
  dsimp only
  split <;> simp [State.val_ite, h]

@[simp] theorem State.loseCore_val (h : p ≠ .groups) (s : State) (g : Fin 12) (core : Fin 17) :
    (s.loseCore g core).val p = s.val p := by
  simp [State.loseCore, State.val_ite, h]

@[simp] theorem State.ballEmit_val (s : State) (ch : Fin 192) (e : Emission) :
    (s.ballEmit ch e).val p = s.val p := by
  simp [State.ballEmit, State.val_ite]

@[simp] theorem State.driveTrail_val (h : p ≠ .chans) (s : State) (ch : Fin 192) (v : Drive) (k : DWord) (fine : Nat) :
    (s.driveTrail ch v k fine).val p = s.val p := by
  simp [State.driveTrail, State.val_ite, h]

@[simp] theorem State.trailsTo_val (h : p ≠ .chans) (s : State) (ch : Fin 192) (w : Word) (i : Int) :
    (s.trailsTo ch w i).val p = s.val p := by
  have hdrive : ∀ (l : List (DWord × Nat × Bool)) (u : State),
      (l.foldl (fun s e => s.driveTrail ch (invDrive w e.2.2) e.1 e.2.1) u).val p = u.val p :=
    State.val_foldl fun s e => by simp [h]
  exact (hdrive _ _).trans (State.modChan_val h ..)

@[simp] theorem State.ppsRebase_val (h : p ≠ .chans) (s : State) (ch : Fin 192) :
    (s.ppsRebase ch).val p = s.val p := by
  simp [State.ppsRebase, h]

@[simp] theorem State.lateOuts_val (h : p ≠ .chans) (s : State) (ch : Fin 192) (from_ : DWord) :
    (s.lateOuts ch from_).val p = s.val p := by
  simp [State.lateOuts, h]

@[simp] theorem State.txStall_val (h : p ≠ .chans) (s : State) (ch : Fin 192) :
    (s.txStall ch).val p = s.val p := by
  unfold State.txStall
  split <;> simp [State.val_ite, h]

@[simp] theorem State.txAdvance_val (h : p ≠ .chans) (s : State) (ch : Fin 192) :
    (s.txAdvance ch).val p = s.val p := by
  unfold State.txAdvance
  lift_lets
  extract_lets u c
  have hu : u.val p = s.val p := by simp [u, State.val_ite, h]
  have hout : ∀ (l : List TxFrame) (u : State), (l.foldl (fun s f => s.ballEmit ch (.uart ch f.start f.baud f.bits)) u).val p = u.val p :=
    State.val_foldl fun s f => by simp
  rw [State.val_ite, hout, State.modChan_val h, hu]
  simp [h]

@[simp] theorem State.txPut_val (h : p ≠ .chans) (s : State) (ch : Fin 192) (k : DWord) (bs : List Byte) :
    (s.txPut ch k bs).val p = s.val p := by
  unfold State.txPut
  split <;> simp [h]

@[simp] theorem State.sendTod_val (h : p ≠ .chans) (s : State) (ch : Fin 192) :
    (s.sendTod ch).val p = s.val p := by
  unfold State.sendTod
  dsimp only
  repeat' split
  all_goals simp [h]

@[simp] theorem State.driveNow_val (h : p ≠ .chans) (s : State) (ch : Fin 192) (v : Drive) (k : DWord) :
    (s.driveNow ch v k).val p = s.val p := by
  simp [State.driveNow, State.val_ite, h]

@[simp] theorem State.rxCut_val (h : p ≠ .chans) (s : State) (ch : Fin 192) (old : Word) :
    (s.rxCut ch old).val p = s.val p := by
  simp [State.rxCut, State.val_ite, h]

@[simp] theorem State.flipDrive_val (h : p ≠ .chans) (s : State) (ch : Fin 192) (k : DWord) :
    (s.flipDrive ch k).val p = s.val p := by
  unfold State.flipDrive
  split <;> simp [h]

@[simp] theorem State.cfgTurns_val (h : p ≠ .chans) (s : State) (ch : Fin 192) (old : Word) (k : DWord) :
    (s.cfgTurns ch old k).val p = s.val p := by
  simp [State.cfgTurns, State.val_ite, h]

@[simp] theorem State.chanTurns_val (h : p ≠ .chans) (s : State) (ch : Fin 192) :
    (s.chanTurns ch).val p = s.val p := by
  unfold State.chanTurns
  split <;> simp [State.val_ite, h]

@[simp] theorem State.chansTurn_val (h : p ≠ .chans) (s : State) :
    s.chansTurn.val p = s.val p := by
  unfold State.chansTurn
  rw [State.val_ite, State.val_overFin (fun ch s => by simp [State.val_ite, h]), ite_self]

@[simp] theorem State.driveOut_val (h : p ≠ .chans) (s : State) (ch : Fin 192) (k : DWord) :
    (s.driveOut ch k).val p = s.val p := by
  simp [State.driveOut, State.val_ite, h]

@[simp] theorem State.outWritten_val (h : p ≠ .chans) (s : State) (ch : Fin 192) :
    (s.outWritten ch).val p = s.val p := by
  simp [State.outWritten, h]

@[simp] theorem State.holdOuts_val (h : p ≠ .chans) (s : State) (ch : Fin 192) :
    (s.holdOuts ch).val p = s.val p := by
  have htod : ∀ (l : List TodDue) (u : State), (l.foldl (fun (s : State) _ => s.sendTod ch) u).val p = u.val p :=
    State.val_foldl fun s _ => by simp [h]
  unfold State.holdOuts
  rw [State.txStall_val h, htod]

@[simp] theorem State.resumeOuts_val (h : p ≠ .chans) (s : State) (ch : Fin 192) (from_ : DWord) :
    (s.resumeOuts ch from_).val p = s.val p := by
  simp [State.resumeOuts, State.val_ite, h]

@[simp] theorem State.stopTick_val (h : p ≠ .chans ∧ p ≠ .clock) (s : State) :
    s.stopTick.val p = s.val p := by
  unfold State.stopTick
  rw [State.withTicking_val h.2, State.val_overFin (fun ch s => State.holdOuts_val h.1 s ch)]

@[simp] theorem State.cascadeLos_val (h : p.offQualification) (s : State) (y : Fin 9) :
    (s.cascadeLos y).val p = s.val p := by
  unfold State.cascadeLos
  split
  · exact State.setLos_val h ..
  · rfl

@[simp] theorem State.restartFed_val (h : p ≠ .outs) (s : State) (y : Fin 9) :
    (s.restartFed y).val p = s.val p := by
  simp [State.restartFed, h]

@[simp] theorem State.startLock_val (h : p.offPorts ∧ p ≠ .outs ∧ p ≠ .syns) (s : State) (y : Fin 9) :
    (s.startLock y).val p = s.val p := by
  unfold State.startLock
  rw [State.val_ite]
  split
  · simp [h]
  · generalize s.lockPath y = path
    obtain ⟨k, n0⟩ := path
    dsimp only
    rw [State.refresh_val (by simp [h]), State.restartFed_val (by simp [h]), State.cascadeLos_val (by simp [h]), State.val_ite]
    simp [h]

@[simp] theorem State.reportLock_val (h : p ≠ .ports ∧ p ≠ .syns) (s : State) (y : Fin 9) (band : BitVec 6) :
    (s.reportLock y band).val p = s.val p := by
  simp [State.reportLock, h]

@[simp] theorem State.loseLock_val (h : p.offPorts ∧ p ≠ .outs ∧ p ≠ .syns) (s : State) (y : Fin 9) :
    (s.loseLock y).val p = s.val p := by
  simp [State.loseLock, h]

@[simp] theorem State.newWindow_val (h : p ≠ .streams) (s : State) (i : Fin 32) (keepD : Bool) :
    (s.newWindow i keepD).val p = s.val p := by
  simp [State.newWindow, h]

@[simp] theorem State.refreshStream_val (h : p.offPorts) (s : State) (i : Fin 32) :
    (s.refreshStream i).val p = s.val p := by
  unfold State.refreshStream
  lift_lets
  extract_lets u on
  have hu : u.val p = s.val p := by simp [u, State.val_ite, h]
  simp [State.val_ite, hu, h]

@[simp] theorem State.refreshStreams_val (h : p.offPorts) (s : State) :
    s.refreshStreams.val p = s.val p := by
  unfold State.refreshStreams
  refine State.val_overFin (fun i s => ?_) _
  simp [h]

@[simp] theorem State.deliver_val (h : p ≠ .slots) (s : State) (i : Fin 32) (e : Int × Bool) (label : Option (Int × Int)) :
    (s.deliver i e label).val p = s.val p := by
  simp [State.deliver, State.val_ite, h]

@[simp] theorem State.deliverPtp_val (h : p ≠ .slots ∧ p ≠ .units) (s : State) (i : Fin 32) (n : Fin 16) (x : Int) :
    (s.deliverPtp i n x).val p = s.val p := by
  simp [State.deliverPtp, h]

@[simp] theorem State.closePtp_val (h : p ≠ .slots ∧ p ≠ .streams ∧ p ≠ .units) (s : State) (i : Fin 32) :
    (s.closePtp i).val p = s.val p := by
  unfold State.closePtp
  dsimp only
  split <;> simp [h]

@[simp] theorem State.closeReist_val (h : p ≠ .slots ∧ p ≠ .streams) (s : State) (i : Fin 32) :
    (s.closeReist i).val p = s.val p := by
  simp [State.closeReist, State.val_ite, h]

@[simp] theorem State.closeStream_val (h : p.offPorts) (s : State) (i : Fin 32) :
    (s.closeStream i).val p = s.val p := by
  simp [State.closeStream, State.val_ite, h]

@[simp] theorem State.closeBefore_val (h : p.offPorts) (s : State) (b : Bool × Fin 16 × Nat) :
    (s.closeBefore b).val p = s.val p := by
  unfold State.closeBefore
  refine State.val_overFin (fun i s => ?_) _
  simp [State.val_ite, h]

@[simp] theorem State.leaveInstances_val (s : State) (n : Fin 16) :
    (s.leaveInstances n).val p = s.val p := by
  unfold State.leaveInstances
  refine State.val_overFin (fun i s => ?_) _
  simp [State.val_ite]

@[simp] theorem State.portNotice_val (s : State) (n : Fin 16) (code : Byte) :
    (s.portNotice n code).val p = s.val p := by
  simp [State.portNotice]

@[simp] theorem State.rotator_val (h : p ≠ .ports) (s : State) (n : Fin 16) :
    (s.rotator n).val p = s.val p := by
  simp [State.rotator, h]

@[simp] theorem State.portRefresh_val (h : p.offPorts) (s : State) (n : Fin 16) :
    (s.portRefresh n).val p = s.val p := by
  unfold State.portRefresh
  lift_lets
  extract_lets u
  rw [State.val_overFin (fun i s => by simp [State.val_ite, h])]
  simp [u, h]

@[simp] theorem State.reistNotice_val (s : State) (n : Fin 16) (code : Byte) (args : BitVec 64) :
    (s.reistNotice n code args).val p = s.val p := by
  simp [State.reistNotice]

@[simp] theorem State.swapTo_val (h : p.offPorts) (s : State) (n : Fin 16) :
    (s.swapTo n).val p = s.val p := by
  simp [State.swapTo, h]

@[simp] theorem State.abortSurvey_val (h : p.offPorts) (s : State) (n : Fin 16) :
    (s.abortSurvey n).val p = s.val p := by
  unfold State.abortSurvey
  lift_lets
  extract_lets r back kept u v
  have hu : u.val p = s.val p := by simp [u, h]
  simp [v, State.val_ite, hu, h]

@[simp] theorem State.portDown_val (h : p.offPorts) (s : State) (n : Fin 16) :
    (s.portDown n).val p = s.val p := by
  unfold State.portDown
  lift_lets
  extract_lets up u v w x
  have hu : u.val p = s.val p := by simp [u, State.val_ite, h]
  have hw : w.val p = s.val p := by simp [w, v, hu, h]
  simp [x, State.val_ite, hw, h]

@[simp] theorem State.portWritten_val (h : p.offPorts) (s : State) (n : Fin 16) (old : Word) :
    (s.portWritten n old).val p = s.val p := by
  unfold State.portWritten
  lift_lets
  extract_lets new u v w
  have hu : u.val p = s.val p := by simp [u, State.val_ite, h]
  have hv : v.val p = s.val p := by simp [v, State.val_ite, hu]
  simp [w, State.val_ite, hv, h]

@[simp] theorem State.linkComesUp_val (h : p.offPorts) (s : State) (n : Fin 16) :
    (s.linkComesUp n).val p = s.val p := by
  unfold State.linkComesUp
  lift_lets
  extract_lets u v
  have hu : u.val p = s.val p := by simp [u, h]
  simp [v, State.val_ite, hu, h]

@[simp] theorem State.toTrain_val (h : p.offPorts) (s : State) (n : Fin 16) :
    (s.toTrain n).val p = s.val p := by
  unfold State.toTrain
  lift_lets
  extract_lets u v
  have hu : u.val p = s.val p := by simp [u, State.val_ite, h]
  simp [v, hu, h]

@[simp] theorem State.toDown_val (h : p.offPorts) (s : State) (n : Fin 16) :
    (s.toDown n).val p = s.val p := by
  unfold State.toDown
  lift_lets
  extract_lets u v
  have hu : u.val p = s.val p := by simp [u, State.val_ite, h]
  simp [v, hu, h]

@[simp] theorem State.legendDone_val (h : p ≠ .ports) (s : State) (n : Fin 16) :
    (s.legendDone n).val p = s.val p := by
  unfold State.legendDone
  dsimp only
  split <;> simp [State.val_ite, h]

@[simp] theorem State.trainDone_val (h : p ≠ .ports) (s : State) (n : Fin 16) :
    (s.trainDone n).val p = s.val p := by
  simp [State.trainDone, State.val_ite, h]

@[simp] theorem State.rxHeader_val (h : p ≠ .ports) (s : State) (n : Fin 16) (seq ack : Byte) :
    (s.rxHeader n seq ack).val p = s.val p := by
  simp [State.rxHeader, h]

@[simp] theorem State.relockUp_val (h : p.offPorts) (s : State) (n : Fin 16) :
    (s.relockUp n).val p = s.val p := by
  unfold State.relockUp
  lift_lets
  extract_lets u v
  have hu : u.val p = s.val p := by simp [u, h]
  simp [v, hu, h]

@[simp] theorem State.linkUp'_val (h : p.offPorts) (s : State) (n : Fin 16) :
    (s.linkUp' n).val p = s.val p := by
  simp [State.linkUp', State.val_ite, h]

@[simp] theorem State.linkDown'_val (h : p.offPorts) (s : State) (n : Fin 16) :
    (s.linkDown' n).val p = s.val p := by
  simp [State.linkDown', State.val_ite, h]

@[simp] theorem State.latchRlink_val (h : p ≠ .ports) (s : State) (n : Fin 16) (inst : Nat) :
    (s.latchRlink n inst).val p = s.val p := by
  simp [State.latchRlink, h]

@[simp] theorem State.pxTick_val (h : p.offPorts) (s : State) (n : Fin 16) :
    (s.pxTick n).val p = s.val p := by
  unfold State.pxTick
  lift_lets
  extract_lets x owes u v
  have hu : u.val p = s.val p := by simp [u, h]
  have hv : v.val p = s.val p := by simp [v, hu, h]
  have hbound : ∀ (l : List (Fin 32)) (u : State), (l.foldl (fun (s : State) i => s.modStream i (fun t => { t with cnt := t.cnt + 1 })) u).val p = u.val p :=
    State.val_foldl fun s i => by simp [h]
  simp [State.val_ite, hbound, hu, hv]

@[simp] theorem State.retrainDue_val (h : p.offPorts) (s : State) (n : Fin 16) :
    (s.retrainDue n).val p = s.val p := by
  unfold State.retrainDue
  split
  · simp [State.val_ite, h]
  · rfl

@[simp] theorem State.retrain_val (h : p.offPorts) (s : State) (n : Fin 16) :
    (s.retrain n).val p = s.val p := by
  unfold State.retrain
  split <;> simp [h]

@[simp] theorem State.discardFrame_val (h : p.offPorts) (s : State) (n : Fin 16) (hdr : Option (Byte × Byte)) :
    (s.discardFrame n hdr).val p = s.val p := by
  unfold State.discardFrame
  lift_lets
  extract_lets u v
  have hu : u.val p = s.val p := by simp [u]
  have hv : v.val p = s.val p := by simp [v, hu, h]
  cases hdr <;> simp [State.val_ite, hu, hv, h]

@[simp] theorem State.releaseSems_val (h : p ≠ .sems) (s : State) (e : Fin 8) :
    (s.releaseSems e).val p = s.val p :=
  State.withSems_val h ..

@[simp] theorem State.meetEvents_val (h : p ≠ .engines) (s : State) :
    s.meetEvents.val p = s.val p := by
  rw [State.meetEvents_eq]
  exact State.withEngines_val h ..

@[simp] theorem State.faultNotice_val (s : State) (i : Fin 128) :
    (s.faultNotice i).val p = s.val p := by
  simp [State.faultNotice]

@[simp] theorem State.engStop_val (h : p ≠ .engines ∧ p ≠ .sems) (s : State) (e : Fin 8) :
    (s.engStop e).val p = s.val p := by
  simp [State.engStop, h]

@[simp] theorem State.stewardClear_val (h : p ≠ .hub ∧ p ≠ .steward) (s : State) :
    s.stewardClear.val p = s.val p := by
  cases p
  case hub => exact absurd rfl h.1
  case steward => exact absurd rfl h.2
  all_goals rfl

@[simp] theorem State.stewardDown_val (h : p ≠ .boot ∧ p ≠ .hub ∧ p ≠ .steward) (s : State) :
    s.stewardDown.val p = s.val p := by
  simp [State.stewardDown, h]

@[simp] theorem State.cover_val (h : p.offPorts ∧ p ≠ .boot ∧ p ≠ .chans ∧ p ≠ .engines ∧ p ≠ .groups ∧ p ≠ .hub ∧ p ≠ .reload ∧ p ≠ .sems ∧ p ≠ .steward ∧ p ≠ .syns) (s : State) (i cause : Nat) :
    (s.cover i cause).val p = s.val p := by
  unfold State.cover
  rw [State.val_ite]
  split
  · rfl
  · split
    · split <;> simp [h]
    · have hloops : ∀ (l : List (Fin 16)) (u : State), (l.foldl (fun (s : State) n => s.twinFault n) u).val p = u.val p :=
        State.val_foldl fun s n => by simp [h]
      have hengines : ∀ (l : List (Fin 8)) (u : State), (l.foldl (fun (s : State) e => s.engStop e) u).val p = u.val p :=
        State.val_foldl fun s e => by simp [h]
      repeat' split
      · exact hloops ..
      · rfl
      · exact hengines ..
      · rfl
      · exact State.withMem_val ..
      · rfl
      · exact (State.withReloadDue_val (by simp [h]) ..).trans (State.val_overFin (fun ch s => by simp [State.val_ite, h]) _)
      · rfl
      · simp [h]
      · simp [h]
      · rfl
      · rfl

@[simp] theorem State.actOn_val (h : p.offPorts ∧ p ≠ .boot ∧ p ≠ .chans ∧ p ≠ .engines ∧ p ≠ .groups ∧ p ≠ .hub ∧ p ≠ .outs ∧ p ≠ .reload ∧ p ≠ .sems ∧ p ≠ .steward ∧ p ≠ .syns) (s : State) (i : Fin 128) (cause : BitVec 4) :
    (s.actOn i cause).val p = s.val p := by
  unfold State.actOn
  lift_lets
  extract_lets b u v w
  have hv : v.val p = s.val p := by simp [v, u]
  have hw : w.val p = s.val p := by simp [w, hv, h]
  simp [State.val_ite, hv, hw, h]

@[simp] theorem State.takeReport_val (h : p.offPorts ∧ p ≠ .boot ∧ p ≠ .chans ∧ p ≠ .engines ∧ p ≠ .groups ∧ p ≠ .hub ∧ p ≠ .outs ∧ p ≠ .reload ∧ p ≠ .sems ∧ p ≠ .steward ∧ p ≠ .syns) (s : State) :
    s.takeReport.val p = s.val p := by
  unfold State.takeReport
  split
  · rfl
  · exact (State.actOn_val h ..).trans (State.withFm_val ..)

@[simp] theorem State.takeReports_val (h : p.offPorts ∧ p ≠ .boot ∧ p ≠ .chans ∧ p ≠ .engines ∧ p ≠ .groups ∧ p ≠ .hub ∧ p ≠ .outs ∧ p ≠ .reload ∧ p ≠ .sems ∧ p ≠ .steward ∧ p ≠ .syns) (s : State) :
    s.takeReports.val p = s.val p := by
  unfold State.takeReports
  exact State.val_foldl (fun s _ => State.takeReport_val h s) _ _

@[simp] theorem State.stewardBack_val (h : p ≠ .boot) (s : State) :
    s.stewardBack.val p = s.val p := by
  unfold State.stewardBack
  split
  · simp
  · split <;> simp [h]

@[simp] theorem State.groupDrive_val (s : State) (g : Fin 12) (on : Bool) (k : DWord) :
    (s.groupDrive g on k).val p = s.val p := by
  unfold State.groupDrive
  refine State.val_overFin (fun i s => ?_) _
  simp [State.val_ite]

@[simp] theorem State.groupResume_val (h : p ≠ .chans ∧ p ≠ .groups) (s : State) (g : Fin 12) :
    (s.groupResume g).val p = s.val p := by
  unfold State.groupResume
  lift_lets
  extract_lets u v
  have hu : u.val p = s.val p := by
    refine State.val_foldl (fun s c => ?_) _ _
    split <;> simp [h]
  have hv : v.val p = s.val p := (State.val_foldl (fun s c => State.lateOuts_val (by simp [h]) ..) _ _).trans hu
  simp [State.val_ite, hv, h]

@[simp] theorem State.setMode_val (h : p ≠ .arch ∧ p ≠ .boot) (s : State) (m : Mode) :
    (s.setMode m).val p = s.val p := by
  simp [State.setMode, State.val_ite, h]

@[simp] theorem State.serviceDue_val (h : p ≠ .arch ∧ p ≠ .boot) (s : State) :
    s.serviceDue.val p = s.val p := by
  simp [State.serviceDue, State.val_ite, h]

@[simp] theorem State.cartCheck_val (h : p ≠ .boot ∧ p ≠ .cart) (s : State) :
    s.cartCheck.val p = s.val p := by
  cases p
  case boot => exact absurd rfl h.1
  case cart => exact absurd rfl h.2
  all_goals rfl

@[simp] theorem State.noteWarm_val (h : p ≠ .oven) (s : State) :
    s.noteWarm.val p = s.val p := by
  simp [State.noteWarm, State.val_ite, h]

@[simp] theorem State.settleRestart_val (h : p ≠ .oven) (s : State) :
    s.settleRestart.val p = s.val p := by
  simp [State.settleRestart, h]

@[simp] theorem State.holdSyn_val (h : p.offQualification ∧ p ≠ .syns) (s : State) (y : Fin 9) :
    (s.holdSyn y).val p = s.val p := by
  unfold State.holdSyn
  split <;> simp [State.val_ite, h]

@[simp] theorem State.ovenLost_val (h : p.offPorts ∧ p ≠ .outs ∧ p ≠ .syns) (s : State) :
    s.ovenLost.val p = s.val p := by
  unfold State.ovenLost
  lift_lets
  extract_lets u v w b x
  have hv : v.val p = s.val p := by simp [v, u, h]
  have hw : w.val p = s.val p := (State.val_overFin (fun y s => State.holdSyn_val (by simp [h]) ..) _).trans hv
  have hb : b.val p = s.val p := (State.loopsOscLost_val (by simp [h]) w).trans hw
  have hx : x.val p = s.val p := (State.withDatums_val (by simp [h]) b _).trans hb
  simp [hx, h]

@[simp] theorem State.oscGone_val (h : p.offPorts ∧ p ≠ .outs ∧ p ≠ .syns) (s : State) :
    s.oscGone.val p = s.val p := by
  unfold State.oscGone
  lift_lets
  extract_lets u
  have hu : u.val p = s.val p := by simp [u, h]
  simp [State.val_ite, hu, h]

@[simp] theorem State.ovenBack_val (h : p.offPorts ∧ p ≠ .outs ∧ p ≠ .syns) (s : State) :
    s.ovenBack.val p = s.val p := by
  unfold State.ovenBack
  lift_lets
  extract_lets us u v
  have hv : v.val p = s.val p := by simp [v, u, h]
  exact (State.val_overFin (fun y s => by simp [State.val_ite, h]) _).trans hv

@[simp] theorem State.oscReturns_val (h : p.offPorts ∧ p ≠ .outs ∧ p ≠ .syns) (s : State) :
    s.oscReturns.val p = s.val p := by
  unfold State.oscReturns
  lift_lets
  extract_lets u
  have hu : u.val p = s.val p := by simp [u, h]
  simp [State.val_ite, hu, h]

@[simp] theorem State.synbLost_val (h : p.offPorts ∧ p ≠ .chans ∧ p ≠ .clock ∧ p ≠ .outs ∧ p ≠ .syns) (s : State) :
    s.synbLost.val p = s.val p := by
  simp [State.synbLost, h]

@[simp] theorem State.pullInEnds_val (h : p.offPorts ∧ p ≠ .chans ∧ p ≠ .clock ∧ p ≠ .outs ∧ p ≠ .syns) (s : State) (locked : Bool) :
    (s.pullInEnds locked).val p = s.val p := by
  unfold State.pullInEnds
  lift_lets
  extract_lets u
  have hu : u.val p = s.val p := by simp [u, h]
  simp [State.val_ite, hu, h]

@[simp] theorem State.drainPush_val (h : p ≠ .units ∧ p ≠ .engines) (s : State) (e : Fin 8) :
    (s.drainPush e).val p = s.val p := by
  unfold State.drainPush
  split <;> simp [h]

@[simp] theorem State.uartTick_val (h : p ≠ .chans) (s : State) :
    s.uartTick.val p = s.val p := by
  unfold State.uartTick
  rw [State.val_ite, State.val_overFin (fun ch s => by simp [State.val_ite, h]), ite_self]

@[simp] theorem State.hourTick_val (h : p ≠ .arch) (s : State) :
    s.hourTick.val p = s.val p := by
  simp [State.hourTick, State.val_ite, h]

@[simp] theorem State.compareMirrors_val (s : State) :
    s.compareMirrors.val p = s.val p := by
  unfold State.compareMirrors
  rw [State.val_ite, State.val_overFin (fun d s => by simp [State.val_ite]), ite_self]

@[simp] theorem State.scanTick_val (h : p ≠ .scan) (s : State) :
    s.scanTick.val p = s.val p := by
  unfold State.scanTick
  rw [State.val_ite, State.withScanning_val h, ite_self]

@[simp] theorem State.tickRest_val (h : p.offPorts ∧ p ≠ .arch ∧ p ≠ .boot ∧ p ≠ .chans ∧ p ≠ .engines ∧ p ≠ .groups ∧ p ≠ .hub ∧ p ≠ .outs ∧ p ≠ .reload ∧ p ≠ .scan ∧ p ≠ .sems ∧ p ≠ .steward ∧ p ≠ .syns) (s : State) :
    s.tickRest.val p = s.val p := by
  unfold State.tickRest
  lift_lets
  extract_lets u v
  have hu : u.val p = s.val p := by
    simp only [u]
    rw [State.val_overFin (fun g s => State.groupResume_val (by simp [h]) s g)]
    simp [h]
  have hv : v.val p = s.val p := by
    have hports := State.val_overFin (p := p) (f := fun (n : Fin 16) (s : State) => (s.retrainDue n).pxTick n)
      (fun n s => by simp [h]) u
    simp [v, hports, hu, h]
  rw [State.val_ite, State.val_overFin (fun e s => State.drainPush_val (by simp [h]) s e), ite_self, hv]

@[simp] theorem State.ovenCold_val (h : p.offSelection) (s : State) :
    s.ovenCold.val p = s.val p := by
  unfold State.ovenCold
  lift_lets
  extract_lets u
  have hu : u.val p = s.val p := by simp [u, h]
  exact (State.val_overFin (fun n s => State.clearEst_val (by simp [h]) ..) _).trans hu

@[simp] theorem State.debounce_val (h : p.offSelection) (s : State) :
    s.debounce.val p = s.val p := by
  unfold State.debounce
  lift_lets
  extract_lets a u
  have hu : u.val p = s.val p := by simp [u, h]
  simp [State.val_ite, hu, h]

@[simp] theorem State.settleReading_val (h : p ≠ .oven) (s : State) (v : Int) :
    (s.settleReading v).val p = s.val p := by
  unfold State.settleReading
  split <;> simp [State.val_ite, h]

@[simp] theorem State.nextGate_val (h : p ≠ .oven) (s : State) (first : Option (Int × Int × Nat)) :
    (s.nextGate first).val p = s.val p := by
  simp [State.nextGate, h]

@[simp] theorem State.settleGate_val (h : p ≠ .oven) (s : State) (w : Fin 96) :
    (s.settleGate w).val p = s.val p := by
  unfold State.settleGate
  dsimp only
  repeat' split
  all_goals simp [h]

@[simp] theorem State.cdrLost_val (h : p.offPorts) (s : State) (n : Fin 16) :
    (s.cdrLost n).val p = s.val p := by
  simp [State.cdrLost, State.val_ite, h]

@[simp] theorem State.fecLost_val (h : p ≠ .ports) (s : State) (n : Fin 16) :
    (s.fecLost n).val p = s.val p := by
  simp [State.fecLost, State.val_ite, h]

end Sys2Proof.Machine

namespace Sys2Proof.Machine

/-! ## The tick index (R14, R140, R380) -/

/-- A datum tick moves the tick and every island's tick by one. -/
theorem State.tickClocks_clock (s : State) :
    s.tickClocks.tick = s.tick + 1 ∧ s.tickClocks.islandTick = s.islandTick.map (· + 1)
      ∧ s.tickClocks.coreUp = s.coreUp := by
  unfold State.tickClocks
  extract_lets k u v outs w
  have hrest : (overFin 8 w fun d s => if s.datUp (datIsl d) then s.tickRecords d outs[d] else s).latchEvents.meetWaits.val .clock
      = w.val .clock := by
    rw [State.meetWaits_val (by decide), State.latchEvents_val (by decide),
      State.val_overFin fun d s => by simp [State.val_ite]]
  obtain ⟨-, hup, -, htick, hisl⟩ := State.clock_of_val hrest
  exact ⟨htick, hisl, hup⟩

theorem State.tickRest_coreUp (s : State) : s.tickRest.coreUp = s.coreUp :=
  (State.clock_of_val (State.tickRest_val (by decide) s)).2.1

/-- The first lock of SYNB starts the tick at 0 in every island. -/
theorem State.synbLocks_clock (s : State) (band : BitVec 6) :
    (s.synbLocks band).tick = 0 ∧ (s.synbLocks band).islandTick = Vector.replicate 16 0
      ∧ (s.synbLocks band).ticking = true ∧ (s.synbLocks band).coreUp = s.coreUp := by
  unfold State.synbLocks
  extract_lets u v
  have hrest : (overFin 192 v.cartCheck fun ch s => s.outWritten ch).refresh.val .clock = v.val .clock := by
    rw [State.refresh_val (by decide), State.val_overFin fun ch s => State.outWritten_val (by decide) s ch,
      State.cartCheck_val (by decide)]
  obtain ⟨-, hup, hticking, htick, hisl⟩ := State.clock_of_val hrest
  have hupu : u.coreUp = s.coreUp := (State.clock_of_val (State.reportLock_val (by decide) s 8 band)).2.1
  exact ⟨htick, hisl, hticking, hup.trans hupu⟩

/-- The relock of SYNB leaps the tick over the time lost, in every island alike. -/
theorem State.synbRelock_clock (s : State) (m : Nat) :
    (s.synbRelock m).tick = s.tick + BitVec.ofNat 64 (625 * m)
      ∧ (s.synbRelock m).islandTick = Vector.replicate 16 (s.tick + BitVec.ofNat 64 (625 * m))
      ∧ (s.synbRelock m).ticking = true ∧ (s.synbRelock m).coreUp = s.coreUp := by
  unfold State.synbRelock
  extract_lets k was tick before u v w
  have hrest : (overFin 192 w fun ch s => s.resumeOuts ch was).refresh.val .clock = v.val .clock := by
    rw [State.refresh_val (by decide), State.val_overFin fun ch s => State.resumeOuts_val (by decide) s ch was]
    exact State.val_overFin (fun d s => by simp [State.val_ite]) v
  obtain ⟨-, hup, hticking, htick, hisl⟩ := State.clock_of_val hrest
  exact ⟨htick, hisl, hticking, hup⟩

/-- With the core up, the invariant is the islands' agreement. -/
theorem tickInv_of_up {t : State} (hup : t.coreUp = true) (hisl : ∀ i : Fin 16, t.islandTick[i] = t.tick) : t.tickInv :=
  ⟨hisl, fun h => absurd hup (by simp [h])⟩

/-- A `done` command keeps the tick invariant: it puts the tick back, or ends at 0 with the core held. -/
theorem tickInv_of_done {s t u : State} (hs : s.tickInv) (ht : done s u = .next t) : t.tickInv := by
  rw [done_eq] at ht
  obtain rfl := Host.Outcome.next.inj ht
  obtain ⟨hisl, -⟩ := hs
  cases hup : u.coreUp
  · exact ⟨fun i => by simp, fun _ => ⟨by simp, rfl⟩⟩
  · exact tickInv_of_up rfl hisl

theorem tickInv_withPending {u : State} (q : List Instr) (hup : u.coreUp = true)
    (hisl : ∀ i : Fin 16, u.islandTick[i] = u.tick) : State.tickInv { u with pending := q } :=
  tickInv_of_up hup hisl

theorem tickInv_withClock {u : State} (v : State) (q : List Instr) (hup : u.coreUp = true)
    (hisl : ∀ i : Fin 16, v.islandTick[i] = v.tick) :
    State.tickInv { u with pending := q, tick := v.tick, islandTick := v.islandTick } :=
  tickInv_of_up hup hisl

/-- What a running datum tick ends in (`execDatumTick`). -/
theorem tickInv_tickRest {s : State} (hs : s.tickInv) (hcore : s.coreUp = true) (q : List Instr) :
    State.tickInv { s.tickClocks.tickRest with
      pending := q, tick := s.tickClocks.tick, islandTick := s.tickClocks.islandTick } := by
  obtain ⟨htick, hislt, hup⟩ := s.tickClocks_clock
  have hrest : s.tickClocks.tickRest.coreUp = true := by rw [State.tickRest_coreUp, hup, hcore]
  refine tickInv_withClock _ q hrest fun i => ?_
  obtain ⟨hisl, -⟩ := hs
  have hi : s.islandTick[i] = s.tick := hisl i
  rw [hislt, htick]
  simpa using hi

theorem tickInv_synbLocks {s : State} (hcore : s.coreUp = true) (band : BitVec 6) (q : List Instr) :
    State.tickInv { s.synbLocks band with pending := q } := by
  obtain ⟨htick, hisl, -, hup⟩ := s.synbLocks_clock band
  exact tickInv_withPending q (hup.trans hcore) fun i => by simp [htick, hisl]

theorem tickInv_synbRelock {s : State} (hcore : s.coreUp = true) (m : Nat) (q : List Instr) :
    State.tickInv { s.synbRelock m with pending := q } := by
  obtain ⟨htick, hisl, -, hup⟩ := s.synbRelock_clock m
  exact tickInv_withPending q (hup.trans hcore) fun i => by simp [htick, hisl]

/-- The lock of SYNB is the first lock when its sequence ran and the oven is there. -/
theorem execSynLock_synb (band : BitVec 6) (s : State) :
    execSynLock 8 band s
      = if s.coreUp ∧ (s.syns[(8 : Fin 9)]).phase = .locking ∧ s.oven.oscLost = false then
          .next { s.synbLocks band with pending := s.pending }
        else done s s := by
  unfold execSynLock
  split
  · exact if_pos (by decide)
  · rfl

theorem execDatumTick_keeps_tickInv {s t : State} (hs : s.tickInv) (ht : execDatumTick s = .next t) : t.tickInv := by
  unfold execDatumTick at ht
  split at ht
  case isTrue hrun => exact Host.Outcome.next.inj ht ▸ tickInv_tickRest hs (Bool.and_eq_true_iff.mp hrun).1 _
  case isFalse => exact Host.Outcome.next.inj ht ▸ hs

theorem execSynLock_keeps_tickInv {s t : State} {band : BitVec 6} (hs : s.tickInv)
    (ht : execSynLock 8 band s = .next t) : t.tickInv := by
  rw [execSynLock_synb] at ht
  split at ht
  case isTrue hlock => exact Host.Outcome.next.inj ht ▸ tickInv_synbLocks hlock.1 _ _
  case isFalse => exact tickInv_of_done hs ht

theorem execSynbRelock_keeps_tickInv {s t : State} {m : Nat} (hs : s.tickInv) (ht : execSynbRelock m s = .next t) :
    t.tickInv := by
  unfold execSynbRelock at ht
  refine Host.Outcome.next.inj ht ▸ ?_
  split
  case isTrue hwait =>
    simp only [State.synbWaits, Bool.and_eq_true] at hwait
    exact tickInv_synbRelock hwait.1.1 _ _
  case isFalse => exact hs

/-- Every command keeps the tick invariant. -/
theorem exec_keeps_tickInv {c : Instr} {s t : State} (hs : s.tickInv) (ht : exec c s = .next t) : t.tickInv := by
  rcases exec_eq_done_or c s with ⟨u, hu⟩ | rfl | ⟨band, rfl⟩ | ⟨m, rfl⟩
  · exact tickInv_of_done hs (hu ▸ ht)
  · exact execDatumTick_keeps_tickInv hs ht
  · exact execSynLock_keeps_tickInv hs ht
  · exact execSynbRelock_keeps_tickInv hs ht

/-- Settles O51: the front command runs with the rest of the queue waiting, and every command keeps the invariant. -/
theorem everyStepKeepsTheTickIndices : Obligations.EveryStepKeepsTheTickIndices := by
  unfold Obligations.EveryStepKeepsTheTickIndices
  intro s t hs ht
  unfold step at ht
  split at ht
  · exact Host.Outcome.next.inj ht ▸ hs
  · next c rest _ =>
    have hrest : State.tickInv { s with pending := rest } := hs
    exact exec_keeps_tickInv hrest ht

end Sys2Proof.Machine

/-! SUPPORT. PROOFS. The paths, the hub and the side-band target (R24, R315, R331 to R334). -/

namespace Sys2Proof.Machine

@[simp] theorem State.path_modPath (s : State) (p : Path) (f : PathSt → PathSt) : (s.modPath p f).path p = f (s.path p) := by
  simp [State.path, State.modPath]

@[simp] theorem State.path_answer (s : State) (p : Path) (r : Resp) : (s.answer p r).path p = { s.path p with resp := r } :=
  State.path_modPath ..

/-- From a state that keeps the tick invariant, a command that leaves queue, tick and core is its effect alone, with the
core up or held. -/
theorem done_eq_next_of_tickInv {s t : State} (hs : s.tickInv) (hp : t.pending = s.pending) (hk : t.tick = s.tick)
    (hi : t.islandTick = s.islandTick) (hr : t.ticking = s.ticking) (hc : t.coreUp = s.coreUp) : done s t = .next t := by
  obtain ⟨hisl, hheld⟩ := hs
  cases hup : s.coreUp
  · obtain ⟨hticking, htick⟩ := hheld hup
    have hzero : s.islandTick = Vector.replicate 16 0 := by
      refine Vector.ext fun i hlt => ?_
      simpa [htick] using hisl ⟨i, hlt⟩
    obtain ⟨⟩ := t
    simp_all [done]
  · exact done_eq_next hp hk hi hr (hc.trans hup)

/-! ## The side-band target -/

/-- A refusal leaves its cause, counts itself and answers a NACK (R333). -/
theorem State.sbRefuse_spec (s : State) (e : BitVec 4) :
    (s.sbRefuse e).sideband = { s.sideband with lastErr := e } ∧ ((s.sbRefuse e).path .sb).resp = .nack :=
  ⟨rfl, by simp [State.sbRefuse]⟩

theorem State.sbNack_spec (s : State) (e : BitVec 4) :
    (s.sbNack e).sideband = { s.sideband with lastErr := e } ∧ ((s.sbNack e).path .sb).resp = .nack := by
  unfold State.sbNack
  split
  · exact State.sbRefuse_spec _ _
  · exact State.sbRefuse_spec _ _

/-- A well-formed block write: its count, and its PEC or none where none is asked for. -/
theorem State.sbFault_good {s : State} {code want : Byte} {data : List Byte} {pec : Pec}
    (h : pec = .given (s.sbPec code want data) ∨ (pec = .absent ∧ s.rb .sideband 0 0 31 = false)) :
    s.sbFault code want want data pec = none := by
  rcases h with rfl | ⟨rfl, hreq⟩
  · simp [State.sbFault]
  · simp [State.sbFault, hreq]

theorem State.sbFault_badPec {s : State} {code want : Byte} {data : List Byte} {pec : Pec}
    (h : (∃ b, pec = .given b ∧ b ≠ s.sbPec code want data) ∨ (pec = .absent ∧ s.rb .sideband 0 0 31 = true)) :
    s.sbFault code want want data pec = some errPec := by
  rcases h with ⟨b, rfl, hb⟩ | ⟨rfl, hreq⟩
  · simp [State.sbFault, hb]
  · simp [State.sbFault, hreq]

theorem State.sbFault_badCount {s : State} {code count want : Byte} {data : List Byte} {pec : Pec} (h : count ≠ want) :
    s.sbFault code count want data pec = some errLength := by
  simp [State.sbFault, h]

theorem State.sbReaches_up {s : State} (h : s.coreUp = true) (a : Nat) : s.sbReaches a = true := by
  simp [State.sbReaches, h]

theorem mix_all (old v : Word) : mix 0xFFFFFFFF old v = v := by
  have hall : (0xFFFFFFFF : Word) = BitVec.allOnes 32 := rfl
  rw [mix, hall, BitVec.not_allOnes, BitVec.and_zero, BitVec.zero_or, BitVec.and_allOnes]

theorem placeOf_indAddr : placeOf (key .access 0 0) = some ⟨.access, 0, 0⟩ := by decide

/-- A write of IND_ADDR by the side-band, once the start sheet stands. -/
theorem State.sbWrite_indAddr {s : State} (hup : s.coreUp = true) (hsheet : s.boot.sheetDone = true) (v : Word) :
    s.sbWrite (key .access 0 0) v
      = (true, (s.modPath .sb (fun q => { q with indAddr := v })).answer .sb .ok) := by
  have hearly : s.tooEarly .sb = false := by simp [State.tooEarly, hsheet]
  have hlow : key .access 0 0 < 0x100000 := by decide
  simp only [State.sbWrite, State.sbReaches_up hup, State.busWrite, hlow, State.hubWrite, hearly, placeOf_indAddr,
    mix_all, if_true, Bool.true_eq_false, Bool.false_eq_true, if_false]

theorem State.path_setIndAddr (s : State) (v : Word) :
    ((s.modPath .sb fun q => { q with indAddr := v }).answer .sb .ok).path .sb
      = { s.path .sb with indAddr := v, resp := .ok } := by
  simp

/-- A read by the side-band with the core up answers the word, with the PEC where the master takes it. -/
theorem State.sbRead_indAddr {s : State} (hup : s.coreUp = true) (take : Bool) (sent : List Byte) :
    s.sbRead (key .access 0 0) take sent
      = (true, (s.sbAppend take sent (4 :: beBytes 4 (s.path .sb).indAddr.toNat)).answer .sb (.data (s.path .sb).indAddr)) := by
  have hlow : key .access 0 0 < 0x100000 := by decide
  simp only [State.sbRead, State.sbReaches_up hup, State.busRead, hlow, State.hubRead, placeOf_indAddr, if_true,
    Bool.true_eq_false, if_false]

/-- With the core held the side-band reaches no datum clock (R24). -/
theorem State.sbReaches_datum {s : State} (hdown : s.coreUp = false) : s.sbReaches (key .datum 0 0) = false := by
  have hplace : placeOf (key .datum 0 0) = some ⟨.datum, 0, 0⟩ := by decide
  have hlow : ¬ 0x100000 ≤ key .datum 0 0 := by decide
  have halias : ¬ (0x200000 ≤ key .datum 0 0 ∧ key .datum 0 0 < 0x400000) := by decide
  simp only [State.sbReaches, hdown, halias, hlow, hplace, if_false, Bool.false_eq_true]
  rfl

/-- Settles O41: each command by what its count, PEC and offset select. -/
theorem sideBand : Obligations.SideBand := by
  unfold Obligations.SideBand
  refine ⟨fun s count off v pec take => ⟨?_, ?_, ?_, ?_, ?_, ?_, ?_, ?_⟩, fun s => ⟨?_, ?_, ?_, ?_, ?_⟩⟩
  · rintro rfl hgood hinv
    have hset : s.sbSet 4 off pec = ({ s with sideband := { s.sideband with pointer := off } }).answer .sb .ok := by
      simp only [State.sbSet, State.sbFault_good hgood]
      rfl
    change done s _ = _
    rw [hset]
    exact done_eq_next_of_tickInv hinv rfl rfl rfl rfl rfl
  · intro hcount
    refine ⟨?_, ?_, ?_⟩
    · refine completes_of_done rfl ?_
      simp only [State.sbSet, State.sbFault_badCount hcount]
      exact State.sbNack_spec s errLength
    · refine completes_of_done rfl ?_
      simp only [State.sbPut, State.sbFault_badCount hcount]
      exact State.sbNack_spec s errLength
    · refine completes_of_done rfl ?_
      simp only [State.sbGetAt, hcount, ne_eq, not_false_eq_true, if_true]
      exact State.sbRefuse_spec s errLength
  · rintro rfl hbad
    refine completes_of_done rfl ?_
    simp only [State.sbPut, State.sbFault_badPec hbad]
    exact State.sbNack_spec s errPec
  · rintro rfl hbad
    refine completes_of_done rfl ?_
    simp only [State.sbPutAt, State.sbFault_badPec hbad]
    exact State.sbNack_spec s errPec
  · refine fun hup hsheet => ⟨?_, ?_⟩
    · rintro rfl hgood hptr
      refine completes_of_done rfl ?_
      simp only [State.sbPut, State.sbFault_good hgood, hptr, State.sbWrite_indAddr hup hsheet]
      exact ⟨congrArg (·.indAddr) (State.path_setIndAddr s v), congrArg (·.resp) (State.path_setIndAddr s v), rfl⟩
    · rintro rfl hgood hoff
      refine completes_of_done rfl ?_
      simp only [State.sbPutAt, State.sbFault_good hgood]
      simp only [hoff, State.sbWrite_indAddr hup hsheet]
      exact ⟨congrArg (·.indAddr) (State.path_setIndAddr s v), congrArg (·.resp) (State.path_setIndAddr s v), rfl⟩
  · intro hup hptr
    refine completes_of_done rfl ?_
    simp only [State.sbGet, hptr, State.sbRead_indAddr hup]
    exact ⟨congrArg (·.resp) (State.path_answer ..), rfl, rfl⟩
  · rintro hup rfl hoff
    refine completes_of_done rfl ?_
    simp only [State.sbGetAt, hoff, State.sbRead_indAddr hup]
    exact ⟨congrArg (·.resp) (State.path_answer ..), rfl⟩
  · intro hdown hptr
    refine completes_of_done rfl ?_
    simp only [State.sbGet, State.sbRead, hptr, State.sbReaches_datum hdown, if_true]
    obtain ⟨hside, hresp⟩ := State.sbRefuse_spec s errCoreDown
    exact ⟨hresp, hside⟩
  · refine completes_of_done rfl ⟨rfl, rfl, ?_⟩
    exact congrArg (·.resp) (State.path_answer ..)
  · intro code hcode
    have hunknown : sbKnown code = false := by simpa [sbKnown, and_assoc] using hcode
    refine completes_of_done rfl ?_
    simp only [hunknown]
    exact State.sbRefuse_spec s errBadCmd
  · intro hon hinv
    have hanswer : s.alertAnswer = ({ s with sideband := { s.sideband with answered := true } }).emit
        (.alertResponse (0x5C + s.boot.straps.sbAddr.setWidth 7)) := by simp only [State.alertAnswer, hon, if_true]
    change done s _ = _
    rw [hanswer]
    exact done_eq_next_of_tickInv hinv rfl rfl rfl rfl rfl
  · intro hoff hinv
    have hanswer : s.alertAnswer = s := by simp [State.alertAnswer, hoff]
    change done s _ = _
    rw [hanswer]
    exact done_eq_next_of_tickInv hinv rfl rfl rfl rfl rfl
  · exact fun hinv => done_eq_next_of_tickInv hinv rfl rfl rfl rfl rfl

end Sys2Proof.Machine

/-! SUPPORT. PROOFS. A register write that reaches its register (R315, R316, R330), mailboxes and doorbells (R335 to R339). -/

namespace Sys2Proof.Machine

@[simp] theorem finMod_val {k : Nat} (i : Fin k) (h : 0 < k) : finMod k i.val h = i :=
  Fin.ext (Nat.mod_eq_of_lt i.isLt)

theorem mix_and_mask (mask old v : Word) : mix mask old v &&& mask = v &&& mask := by
  ext i hi
  cases h : mask[i] <;> simp [mix, h]

/-! ## A write at its register -/

/-- The bits of a register that a path writes, with keeper rights or without. -/
def Place.writable (pl : Place) (k : Bool) : Word :=
  pl.reg.rw ||| (if k then pl.reg.rwk else 0)

/-- The command bits that a path sets. -/
def Place.commands (pl : Place) (k : Bool) : Word :=
  pl.reg.cmd ||| (if k then pl.reg.cmdk ||| (if pl.blk = .loop ∧ pl.off = 0x28 then 0xFFFF else 0) else 0)

/-- A whole-word write that domain and rights let through, at a register of one word: the register's own effect. -/
theorem State.placeWrite_eq_writeAt {s : State} {p : Path} {pl : Place} {v : Word} {fw : Option Bool}
    (hl : pl.listed = true) (hd : s.placeDown pl = false)
    (hg : s.keeperAt p pl = true ∨ pl.trips 0xFFFFFFFF v = false) (hw : pl.wideAt = none)
    (hm : pl.writable (s.keeperAt p pl) ≠ 0 ∨ pl.commands (s.keeperAt p pl) ≠ 0) :
    s.placeWrite p pl 0xFFFFFFFF v false fw = s.writeAt ⟨p, pl, 0xFFFFFFFF, s.live p pl &&& (pl.reg.rw ||| pl.reg.rwk),
      mix (pl.writable (s.keeperAt p pl)) (s.live p pl &&& (pl.reg.rw ||| pl.reg.rwk)) v,
      v &&& pl.commands (s.keeperAt p pl), fw⟩ := by
  have hall : ∀ w : Word, w &&& 0xFFFFFFFF = w := fun w => BitVec.and_allOnes
  have hguard : (!s.keeperAt p pl && pl.trips 0xFFFFFFFF v) = false := by
    rcases hg with h | h
    · rw [h, Bool.not_true, Bool.false_and]
    · rw [h, Bool.and_false]
  have hmask : ¬ (pl.writable (s.keeperAt p pl) = 0 ∧ pl.commands (s.keeperAt p pl) = 0) := not_and_or.mpr hm
  unfold Place.writable Place.commands at *
  rw [State.placeWrite, if_neg (by rw [hl]; decide), if_neg (by rw [hd]; decide)]
  simp only [hguard, hw, hall]
  rw [if_neg]
  · simp
  · simpa using hmask

/-- Offsets of ACCESS that the hub serves itself, for the path that writes. -/
def Place.ofPath (pl : Place) : Bool :=
  pl.blk == .access && (pl.off == 0 || pl.off == 4 || pl.off == 0x10 || pl.off == 0x18)

theorem State.hubWrite_eq_placeWrite {s : State} {p : Path} {o : Nat} {pl : Place} (sel v : Word) (bit : Bool)
    (fw : Option Bool) (he : s.tooEarly p = false) (hp : placeOf o = some pl) (hb : pl.ofPath = false) :
    s.hubWrite p o sel v bit fw = s.placeWrite p pl sel v bit fw := by
  by_cases hacc : pl.blk = .access
  · simp only [Place.ofPath, hacc, beq_self_eq_true, Bool.true_and, Bool.or_eq_false_iff, beq_eq_false_iff_ne] at hb
    obtain ⟨⟨⟨h0, h4⟩, h10⟩, h18⟩ := hb
    simp only [State.hubWrite, he, hp, hacc, if_true, Bool.false_eq_true, if_false]
  · exact State.hubWrite_of_ne_access sel v bit fw he hp hacc

/-- What the write of a register does: the commands and bits of the path at the register's own effect. -/
theorem regAccess_eq {s : State} {p : Path} {b : Block} {i o : Nat} (v : Word) (hc : s.carries p = true)
    (he : s.tooEarly p = false) (hp : placeOf (key b i o) = some ⟨b, i, o⟩) (hb : (⟨b, i, o⟩ : Place).ofPath = false) :
    regAccess s p b i o v = done s (s.placeWrite p ⟨b, i, o⟩ 0xFFFFFFFF v false none) := by
  simp only [regAccess, access, State.reachable_of_carries _ hc, if_true, State.regWrite,
    State.hubWrite_eq_placeWrite _ _ _ _ he hp hb]

theorem State.coreUp_of_carries {s : State} {p : Path} (h : s.carries p = true) : s.coreUp = true :=
  (Bool.and_eq_true_iff.mp h).1

/-- A register of one word whose every bit is a command that any path may give. -/
def Place.commandsOnly (pl : Place) : Bool :=
  pl.listed && pl.wideAt.isNone && pl.guard == 0 && pl.reg.cmd == 0xFFFFFFFF && pl.reg.cmdk == 0 && !(pl.blk == .loop)

/-- The command that writes such a register is the register's effect. -/
theorem regAccess_command {s : State} {p : Path} {b : Block} {i o : Nat} (v : Word) (hc : s.carries p = true)
    (he : s.tooEarly p = false) (hp : placeOf (key b i o) = some ⟨b, i, o⟩) (hb : (⟨b, i, o⟩ : Place).ofPath = false)
    (hd : s.placeDown ⟨b, i, o⟩ = false) (hr : (⟨b, i, o⟩ : Place).commandsOnly = true) :
    ∃ w : Wr, w.p = p ∧ w.pl = ⟨b, i, o⟩ ∧ w.cmd = v ∧ regAccess s p b i o v = done s (s.writeAt w) := by
  simp only [Place.commandsOnly, Bool.and_eq_true, beq_iff_eq, Bool.not_eq_true', beq_eq_false_iff_ne,
    Option.isNone_iff_eq_none] at hr
  obtain ⟨⟨⟨⟨⟨hl, hw⟩, hguard⟩, hcmd⟩, hcmdk⟩, hloop⟩ := hr
  have hcommands : ∀ k, (⟨b, i, o⟩ : Place).commands k = 0xFFFFFFFF := fun k => by
    cases k <;> simp [Place.commands, hcmd, hcmdk, hloop]
  have htrips : (⟨b, i, o⟩ : Place).trips 0xFFFFFFFF v = false := by simp [Place.trips, hguard, hcmdk]
  refine ⟨_, rfl, rfl, ?_, (regAccess_eq v hc he hp hb).trans
    (congrArg (done s) (State.placeWrite_eq_writeAt hl hd (.inr htrips) hw (.inr ?_)))⟩
  · rw [hcommands]
    exact BitVec.and_allOnes
  · rw [hcommands]
    decide

/-! ## Mailboxes (R335 to R337) -/

theorem placeOf_mailbox : ∀ m : Fin 16, placeOf (key .mailbox m.val 0) = some ⟨.mailbox, m.val, 0⟩
    ∧ placeOf (key .mailbox m.val 0x08) = some ⟨.mailbox, m.val, 0x08⟩
    ∧ placeOf (key .mailbox m.val 0x0C) = some ⟨.mailbox, m.val, 0x0C⟩ := by
  decide

theorem key_mailbox_lt : ∀ m : Fin 16, key .mailbox m.val 0x08 < 0x100000 := by
  decide

/-- A posted message changes no mailbox besides its own slots and number. -/
theorem State.mbPost_done {s : State} {p : Path} {m : Fin 16} (h : s.postStatus p m = .done) (msg : List Byte) :
    (s.mbPost p m msg).1 = .done
      ∧ (s.mbPost p m msg).2.mboxes
        = (s.modMbox m (fun q => { q with slots := q.slots ++ [msg], seq := q.seq + 1 })).mboxes
      ∧ (s.mbPost p m msg).2.coreUp = s.coreUp := by
  simp only [State.mbPost, h, true_and]
  generalize hu : ((s.mailPut m (s.mboxes[m]).seq.toNat).modMbox m
    (fun q => { q with slots := q.slots ++ [msg], seq := q.seq + 1 })) = u
  have hmb : u.mboxes = (s.modMbox m (fun q => { q with slots := q.slots ++ [msg], seq := q.seq + 1 })).mboxes := hu ▸ rfl
  have hup : u.coreUp = s.coreUp := hu ▸ rfl
  rw [← hmb, ← hup]
  split
  · exact ⟨(State.msi_service ..).mboxes, (State.msi_service ..).coreUp⟩
  · exact ⟨(State.msi_service ..).mboxes, (State.msi_service ..).coreUp⟩
  · exact ⟨rfl, rfl⟩
  · exact ⟨rfl, rfl⟩

/-- A post that a condition of R336 refuses counts itself alone. -/
theorem State.mbPost_refused {s : State} {p : Path} {m : Fin 16} (h : s.postStatus p m ≠ .done) (msg : List Byte) :
    s.mbPost p m msg = (s.postStatus p m, s.mbReject m (s.postStatus p m)) := by
  unfold State.mbPost
  split
  case h_1 hd => exact absurd hd h
  case h_2 => rfl

/-- POST is read by a served path: the read posts. -/
theorem State.busRead_post (s : State) (p : Path) (m : Fin 16) :
    s.busRead p (key .mailbox m.val 0x08) = s.postRead p m := by
  obtain ⟨-, hplace, -⟩ := placeOf_mailbox m
  have hlisted : (⟨.mailbox, m.val, 8⟩ : Place).listed = true := by
    revert m; decide
  have hdown : s.placeDown ⟨.mailbox, m.val, 8⟩ = false := rfl
  simp [State.busRead, key_mailbox_lt, State.hubRead, hplace, State.placeRead, hlisted, hdown]

/-- A post of a served path is the read of POST: the word that it returns is answered. -/
theorem exec_post {s : State} {p : Path} {m : Fin 16} (hc : s.carries p = true) :
    exec (.post p m) s = done s (s.readAnswer p (key .mailbox m.val 0x08)) := by
  have hread : exec (.post p m) s
      = access s p (key .mailbox m.val 0x08) (fun s => s.readAnswer p (key .mailbox m.val 0x08)) := rfl
  rw [hread, access, if_pos (State.reachable_of_carries _ hc)]

theorem State.readAnswer_of_some {s t : State} {p : Path} {a : Nat} {w : Word} (h : s.busRead p a = (some w, t)) :
    s.readAnswer p a = t.answer p (.data w) := by
  rw [State.readAnswer, h]

theorem State.readAnswer_of_none {s t : State} {p : Path} {a : Nat} (h : s.busRead p a = (none, t)) :
    s.readAnswer p a = t := by
  rw [State.readAnswer, h]

theorem completes_post_done {s : State} {p : Path} {m : Fin 16} (hc : s.carries p = true) (h : s.postStatus p m = .done) :
    Completes (.post p m) s (fun t =>
        (t.mboxes[m]).slots = (s.mboxes[m]).slots ++ [(s.mboxes[m]).stageBytes] ∧ (t.mboxes[m]).seq = (s.mboxes[m]).seq + 1
          ∧ (t.path p).resp = .data (mkBit 31 true ||| fld ((s.mboxes[m]).seq + 1).toNat 0)) := by
  obtain ⟨hdone, hmb, -⟩ := State.mbPost_done h (s.mboxes[m]).stageBytes
  refine completes_of_done (exec_post hc) ?_
  generalize hr : s.mbPost p m (s.mboxes[m]).stageBytes = r at hdone hmb
  obtain ⟨st, t⟩ := r
  obtain rfl : st = .done := hdone
  have hread : s.busRead p (key .mailbox m.val 0x08) = (some (mkBit 31 true ||| fld (t.mboxes[m]).seq.toNat 0), t) := by
    rw [State.busRead_post, State.postRead, hr]
  rw [State.readAnswer_of_some hread]
  have ht : t.mboxes[m] = { s.mboxes[m] with
      slots := (s.mboxes[m]).slots ++ [(s.mboxes[m]).stageBytes], seq := (s.mboxes[m]).seq + 1 } := by
    rw [show t.mboxes = _ from hmb]
    simp
  have hseq : (t.mboxes[m]).seq = (s.mboxes[m]).seq + 1 := congrArg (·.seq) ht
  rw [← hseq]
  exact ⟨congrArg (·.slots) ht, rfl, congrArg (·.resp) (State.path_answer ..)⟩

theorem completes_post_refused {s : State} {p : Path} {m : Fin 16} (hc : s.carries p = true) (h : s.postStatus p m ≠ .done)
    (hp : p ≠ .sb) : Completes (.post p m) s (fun t => t.mboxes = s.mboxes
        ∧ (t.path p).resp = (if s.postStatus p m = .off then .ur else .ca)) := by
  refine completes_of_done (exec_post hc) ?_
  have hread : s.busRead p (key .mailbox m.val 0x08)
      = (none, (s.mbReject m (s.postStatus p m)).answer p (if s.postStatus p m = .off then .ur else .ca)) := by
    rw [State.busRead_post, State.postRead, State.mbPost_refused h]
    cases hst : s.postStatus p m
    case done => exact absurd hst h
    all_goals simp [State.postAnswer, hp]
  rw [State.readAnswer_of_none hread]
  exact ⟨rfl, congrArg (·.resp) (State.path_answer ..)⟩

theorem exec_ack {s : State} {p : Path} {m : Fin 16} (hr : s.reaches p .mailbox m.val 0x0C = true) :
    exec (.ack p m) s = done s (s.mbAck p m) := by
  simp only [State.reaches, Bool.and_eq_true, Bool.not_eq_true'] at hr
  obtain ⟨⟨hc, he⟩, hd⟩ := hr
  obtain ⟨-, -, hplace⟩ := placeOf_mailbox m
  have hreg : ∀ m : Fin 16, (⟨.mailbox, m.val, 0x0C⟩ : Place).commandsOnly = true := by decide
  obtain ⟨w, hwp, hwpl, -, hw⟩ := regAccess_command 1 hc he hplace rfl hd (hreg m)
  refine hw.trans (congrArg (done s) ?_)
  subst hwp
  simp [State.writeAt, State.writeMailbox, hwpl]

/-- A keeper's write of CFG is the mailbox's own. -/
theorem exec_mailboxCfgWrite {s : State} {p : Path} {m : Fin 16} (v : Word) (hk : s.keeps p .mailbox m.val 0 = true) :
    exec (.mailboxCfgWrite p m v) s
      = done s (if (s.mboxes[m]).slots = [] then s.wr .mailbox m.val 0 (v &&& 0xFF1F0000) else s.mbReject m .denied) := by
  simp only [State.keeps, State.reaches, Bool.and_eq_true, Bool.not_eq_true'] at hk
  obtain ⟨⟨⟨hc, he⟩, hd⟩, hkeep⟩ := hk
  obtain ⟨hplace, -, -⟩ := placeOf_mailbox m
  have hlisted : ∀ m : Fin 16, (⟨.mailbox, m.val, 0⟩ : Place).listed = true := by decide
  have hwide : ∀ m : Fin 16, (⟨.mailbox, m.val, 0⟩ : Place).wideAt.isNone = true := by decide
  have hreg : ∀ m : Fin 16, (⟨.mailbox, m.val, 0⟩ : Place).writable true = 0xFF1F0000 := by decide
  change regAccess s p .mailbox m.val 0 v = _
  rw [regAccess_eq v hc he hplace rfl, State.placeWrite_eq_writeAt (hlisted m) hd (.inl hkeep)
    (Option.isNone_iff_eq_none.mp (hwide m)) (.inl (by rw [hkeep, hreg]; decide))]
  simp only [hkeep, hreg, State.writeAt, State.writeMailbox, State.mbCfg, finMod_val, mix_and_mask]

/-! ## Doorbells (R338, R339) -/

theorem bitOf_mkBit : ∀ i k : Fin 32, bitOf (mkBit i.val true) k.val = decide (k.val = i.val) := by
  decide

theorem or_mkBit_of_bitOf {w : Word} {i : Fin 32} (h : bitOf w i.val = true) : w ||| mkBit i.val true = w := by
  refine BitVec.eq_of_getLsbD_eq fun k hk => ?_
  have hbit : (mkBit i.val true).getLsbD k = decide (k = i.val) := bitOf_mkBit i ⟨k, hk⟩
  rw [BitVec.getLsbD_or, hbit]
  by_cases hki : k = i.val
  · subst hki
    simpa [bitOf] using h
  · simp [hki]

/-- A fold over a range that acts at one index. -/
theorem foldl_range_single {α : Type} (f : α → Nat → α) (i n : Nat) (a : α) :
    (List.range n).foldl (fun a k => if k = i then f a k else a) a = if i < n then f a i else a := by
  induction n with
  | zero => rfl
  | succ n ih =>
    rw [List.range_succ, List.foldl_append, ih]
    rcases Nat.lt_trichotomy i n with h | rfl | h
    · simp [h, h.ne', Nat.lt_succ_of_lt h]
    · simp
    · simp [h.ne, h.not_gt, show ¬ i < n + 1 by omega]

/-- A write of one bit acts on its doorbell alone. -/
theorem overBits_mkBit (s : State) (i : Fin 32) (f : State → Nat → State) : overBits s (mkBit i.val true) f = f s i.val := by
  have hall : overBits s (mkBit i.val true) f = (List.range 32).foldl (fun s k => if k = i.val then f s k else s) s := by
    refine List.foldl_ext _ _ _ fun a k hk => ?_
    rw [bitOf_mkBit i ⟨k, List.mem_range.mp hk⟩]
    simp
  rw [hall, foldl_range_single, if_pos i.isLt]

/-- A doorbell register takes the bits it is written with. -/
theorem regAccess_doorbell {s : State} {p : Path} {o : Nat} (v : Word) (hc : s.carries p = true)
    (he : s.tooEarly p = false) (ho : o ∈ [0x30, 0x34, 0x3C, 0x40]) :
    ∃ w : Wr, w.p = p ∧ w.pl = ⟨.access, 0, o⟩ ∧ w.cmd = v ∧ regAccess s p .access 0 o v = done s (s.writeAccess w) := by
  have hplace : ∀ o ∈ [0x30, 0x34, 0x3C, 0x40], placeOf (key .access 0 o) = some ⟨.access, 0, o⟩
      ∧ (⟨.access, 0, o⟩ : Place).ofPath = false ∧ (⟨.access, 0, o⟩ : Place).commandsOnly = true := by decide
  obtain ⟨hp, hb, hr⟩ := hplace o ho
  obtain ⟨w, hwp, hwpl, hwc, hw⟩ := regAccess_command v hc he hp hb rfl hr
  refine ⟨w, hwp, hwpl, hwc, hw.trans (congrArg (done s) ?_)⟩
  simp [State.writeAt, hwpl]

theorem exec_doorbells {s : State} {p : Path} (i : Fin 32) (hc : s.carries p = true) (he : s.tooEarly p = false) :
    exec (.dbInSet p (mkBit i.val true)) s = done s (s.ringIn p i.val)
    ∧ exec (.dbInClr p (mkBit i.val true)) s = done s (s.clearIn p i.val)
    ∧ exec (.dbOutSet p (mkBit i.val true)) s = done s (if (s.ringOut p i.val).1 then (s.ringOut p i.val).2 else (s.ringOut p i.val).2.dbReject)
    ∧ exec (.dbOutClr p (mkBit i.val true)) s = done s (s.clearOut p i.val) := by
  refine ⟨?_, ?_, ?_, ?_⟩
  · obtain ⟨w, hwp, hwpl, hwc, hw⟩ := regAccess_doorbell (mkBit i.val true) hc he (o := 0x30) (by decide)
    refine hw.trans (congrArg (done s) ?_)
    simp [State.writeAccess, hwpl, hwp, hwc, State.dbInSet, overBits_mkBit]
  · obtain ⟨w, hwp, hwpl, hwc, hw⟩ := regAccess_doorbell (mkBit i.val true) hc he (o := 0x34) (by decide)
    refine hw.trans (congrArg (done s) ?_)
    simp [State.writeAccess, hwpl, hwp, hwc, State.dbInClr, overBits_mkBit]
  · obtain ⟨w, hwp, hwpl, hwc, hw⟩ := regAccess_doorbell (mkBit i.val true) hc he (o := 0x3C) (by decide)
    refine hw.trans (congrArg (done s) ?_)
    simp only [State.writeAccess, hwpl, hwp, hwc, State.dbOutSet, overBits_mkBit]
    split
    case h_1 heq => simp [heq]
    case h_2 heq => simp [heq]
  · obtain ⟨w, hwp, hwpl, hwc, hw⟩ := regAccess_doorbell (mkBit i.val true) hc he (o := 0x40) (by decide)
    refine hw.trans (congrArg (done s) ?_)
    simp [State.writeAccess, hwpl, hwp, hwc, State.dbOutClr, overBits_mkBit]

/-- Ringing an outbound doorbell leaves it pending. -/
theorem State.ringOut_dbOut {s : State} {p : Path} {i : Fin 32}
    (hmap : bitsOf (s.r .access 0 (0x200 + 4 * i.val)) 15 12 = pathCode p) (hin : inner (pathCode p) = true) :
    (s.ringOut p i.val).1 = true ∧ (s.ringOut p i.val).2.dbOut = s.dbOut ||| mkBit i.val true := by
  unfold State.ringOut
  rw [if_neg (by simp [State.dbOutMap, hmap, hin])]
  split
  case isTrue hset =>
    exact ⟨rfl, (or_mkBit_of_bitOf hset).symm⟩
  case isFalse =>
    refine ⟨rfl, ?_⟩
    dsimp only
    split
    · exact (State.msi_service ..).dbOut
    · exact (State.msi_service ..).dbOut
    · rfl
    · rfl

/-- Settles O42: posts by the conditions of R336, the other writes by the register they reach. -/
theorem mailboxesAndDoorbells : Obligations.MailboxesAndDoorbells := by
  unfold Obligations.MailboxesAndDoorbells
  refine ⟨fun s p m hc => ⟨completes_post_done hc, completes_post_refused hc, fun hr => ?_, fun v hk => ?_⟩,
    fun s p i hc he => ?_⟩
  · have hup := State.coreUp_of_carries hc
    rw [exec_ack hr]
    refine ⟨fun hrec hslots => ?_, fun hrej => ?_⟩
    · rw [State.mbAck, if_pos ⟨hrec, hslots⟩]
      exact done_eq_next rfl rfl rfl rfl hup
    · rw [State.mbAck, if_neg (by tauto)]
      exact done_eq_next rfl rfl rfl rfl hup
  · have hup := State.coreUp_of_carries hc
    rw [exec_mailboxCfgWrite v hk]
    refine ⟨fun hslots => ?_, fun hslots => ?_⟩
    · rw [if_pos hslots]
      exact done_eq_next rfl rfl rfl rfl hup
    · rw [if_neg hslots]
      exact done_eq_next rfl rfl rfl rfl hup
  · have hup := State.coreUp_of_carries hc
    obtain ⟨hInSet, hInClr, hOutSet, hOutClr⟩ := exec_doorbells i hc he
    rw [hInSet, hInClr, hOutSet, hOutClr]
    have hinner : p = .stw ∨ (∃ e, p = .eng e) → inner (pathCode p) = true := by
      rintro (rfl | ⟨e, rfl⟩) <;> simp [inner, pathCode]
    refine ⟨fun h => ?_, fun h => ?_, fun h hp => ?_, fun h hp => ?_, fun h => ?_, fun h hp => ?_, fun h => ?_⟩
    · rw [State.ringIn, State.dbInMap, if_pos h]
      exact done_eq_next rfl rfl rfl rfl hup
    · rw [State.ringIn, State.dbInMap, if_neg h]
      exact done_eq_next rfl rfl rfl rfl hup
    · rw [State.clearIn, State.dbInMap, if_pos ⟨h, hinner hp⟩]
      exact done_eq_next rfl rfl rfl rfl hup
    · refine completes_of_done hOutSet ?_
      obtain ⟨hserved, hpend⟩ := State.ringOut_dbOut h (hinner hp)
      rw [if_pos hserved]
      exact hpend
    · have hrefused : s.ringOut p i.val = (false, s) := by
        rw [State.ringOut, State.dbOutMap]
        exact if_pos (Or.inl h)
      rw [hrefused]
      exact done_eq_next rfl rfl rfl rfl hup
    · have hout : pathCode p < 3 := by
        simp only [List.mem_cons, List.not_mem_nil, or_false] at hp
        rcases hp with rfl | rfl | rfl <;> decide
      rw [State.clearOut, State.dbOutMap, if_pos ⟨h, hout⟩]
      exact done_eq_next rfl rfl rfl rfl hup
    · rw [State.clearOut, State.dbOutMap, if_neg fun hm => h hm.1]
      exact done_eq_next rfl rfl rfl rfl hup

end Sys2Proof.Machine

/-! SUPPORT. PROOFS. What a notice leaves of the registers; the holdings of a path, the snapshot and the indirect pair
(R203, R326 to R329, R367). -/

namespace Sys2Proof.Machine

/-! ## Registers -/

/-- The registers that a notice moves (R203): the ring's write pointer, the counts of lost notices, and that of
messages a function could not send. -/
def noticeKeys : List Nat :=
  [key .notice 0 0x04, key .notice 0 0x14, key .notice 0 0x18, key .notice 0 0x1C, key .notice 0 0x20,
    key .host 0 0x0C]

theorem State.reg_count_other {s : State} {b : Block} {i o hi lo n k : Nat} (h : k ≠ key b i o) :
    (s.count b i o hi lo n).reg k = s.reg k :=
  State.setReg_other s _ k _ h

theorem State.reg_wr_other {s : State} {b : Block} {i o k : Nat} {v : Word} (h : k ≠ key b i o) :
    (s.wr b i o v).reg k = s.reg k :=
  State.setReg_other s _ k v h

theorem State.reg_msi {k : Nat} (hk : k ≠ key .host 0 0x0C) (s : State) (f : Fin 2) (v : Fin 32) :
    (s.msi f v).reg k = s.reg k := by
  unfold State.msi
  dsimp only
  split
  · exact State.reg_count_other hk
  · split <;> rfl

theorem State.reg_noteSignal {k : Nat} (hk : k ≠ key .host 0 0x0C) (s : State) : s.noteSignal.reg k = s.reg k := by
  unfold State.noteSignal
  split
  · exact State.reg_msi hk ..
  · exact State.reg_msi hk ..
  · rfl
  · rfl

theorem mem_noticeKeys : ∀ c : BitVec 2, key .notice 0 (0x14 + 4 * c.toNat) ∈ noticeKeys := by
  decide

theorem State.reg_offer {k : Nat} (hk : k ∉ noticeKeys) (s : State) (o : Offer) : (s.offer o).reg k = s.reg k := by
  have hwr : k ≠ key .notice 0 0x04 := fun h => hk (by simp [h, noticeKeys])
  have hmsi : k ≠ key .host 0 0x0C := fun h => hk (by simp [h, noticeKeys])
  have hdrop : k ≠ key .notice 0 (0x14 + 4 * o.cls.toNat) := fun h => hk (h ▸ mem_noticeKeys o.cls)
  unfold State.offer
  split
  · unfold State.enter
    extract_lets wr t u src v
    calc v.noteSignal.reg k = v.reg k := State.reg_noteSignal hmsi v
      _ = u.reg k := rfl
      _ = t.reg k := State.setReg_other t (key .notice 0 4) k _ hwr
      _ = s.reg k := rfl
  · unfold State.lose
    extract_lets n u v
    calc v.reg k = u.reg k := rfl
      _ = s.reg k := State.setReg_other s (key .notice 0 (0x14 + 4 * o.cls.toNat)) k _ hdrop

theorem State.reg_raise {k : Nat} (hk : k ∉ noticeKeys) (s : State) (id : Nat) (cls : BitVec 2) (code : Byte)
    (args : BitVec 64) : (s.raise id cls code args).reg k = s.reg k := by
  unfold State.raise State.raiseAt
  dsimp only
  split
  · rfl
  · split
    · exact State.reg_offer hk ..
    · rfl

/-! ## A path's accesses -/

/-- A command that accesses as a served path does what it names. -/
theorem access_of_carries {s : State} {p : Path} (a : Nat) (f : State → State) (hc : s.carries p = true) :
    access s p a f = done s (f s) := by
  rw [access, if_pos (State.reachable_of_carries a hc)]

theorem State.busRead_of_lt {s : State} {p : Path} {a : Nat} (h : a < 0x100000) : s.busRead p a = s.hubRead p a := by
  rw [State.busRead, if_pos h]

theorem State.hubRead_eq_placeRead {s : State} {p : Path} {a : Nat} {pl : Place} (hp : placeOf a = some pl)
    (hb : pl.blk ≠ .access) : s.hubRead p a = s.placeRead p pl := by
  simp only [State.hubRead, hp, hb, if_false]

/-- The read holding once the legend's identity has been read at its highest word. -/
def PathSt.holdDevId (q : PathSt) : PathSt :=
  let high := mapSet q.readHold (key .legend 0 0) (Config.devId.extractLsb' 32 32) 0
  { q with readHold := mapSet high (key .legend 0 4) (Config.devId.extractLsb' 0 32) 0 }

theorem PathSt.holdDevId_low (q : PathSt) :
    (mapGet q.holdDevId.readHold (key .legend 0 4)).getD 0 = Config.devId.extractLsb' 0 32 :=
  mapGet_mapSet_same ..

theorem liveLegend_devId (s : State) : s.liveLegend 0 = Config.devId.extractLsb' 32 32
    ∧ s.liveLegend 4 = Config.devId.extractLsb' 0 32 := by
  have hwords : ∀ d : DWord, wordAt (wordsOf 2 d.toNat) 0 = d.extractLsb' 32 32
      ∧ wordAt (wordsOf 2 d.toNat) 1 = d.extractLsb' 0 32 := fun d =>
    ⟨BitVec.eq_of_toNat_eq (by simp [wordAt, wordsOf, Nat.shiftRight_eq_div_pow]),
      BitVec.eq_of_toNat_eq (by simp [wordAt, wordsOf])⟩
  exact hwords _

/-- The legend's identity is read in two words, the highest first (R326). -/
theorem State.placeRead_devId (s : State) (p : Path) :
    s.placeRead p ⟨.legend, 0, 0⟩ = (some (Config.devId.extractLsb' 32 32), s.modPath p PathSt.holdDevId)
    ∧ s.placeRead p ⟨.legend, 0, 4⟩ = (some ((mapGet (s.path p).readHold (key .legend 0 4)).getD 0), s) := by
  have hreg : (⟨.legend, 0, 0⟩ : Place).reg.rwk ||| (⟨.legend, 0, 0⟩ : Place).reg.rok = 0
      ∧ (⟨.legend, 0, 4⟩ : Place).reg.rwk ||| (⟨.legend, 0, 4⟩ : Place).reg.rok = 0 := by decide
  have hwide : (⟨.legend, 0, 0⟩ : Place).wideAt = some (2, 0) ∧ (⟨.legend, 0, 4⟩ : Place).wideAt = some (2, 1) := by
    decide
  have hlisted : (⟨.legend, 0, 0⟩ : Place).listed = true ∧ (⟨.legend, 0, 4⟩ : Place).listed = true := by decide
  have hdown : s.placeDown ⟨.legend, 0, 0⟩ = false ∧ s.placeDown ⟨.legend, 0, 4⟩ = false := ⟨rfl, rfl⟩
  have hmask : ∀ w : Word, w &&& 4294967295#32 = w := fun w => BitVec.and_allOnes
  obtain ⟨hhigh, hlow⟩ := liveLegend_devId s
  constructor
  · simp [State.placeRead, hlisted, hdown, hwide, hreg, State.wideRead, hmask, State.live, hhigh, List.range_succ,
      Place.word, hlow]
    rfl
  · simp [State.placeRead, hlisted, hdown, hwide, hreg, State.wideRead, hmask]
    rfl

/-- A write on the bus by a served path, at a register the hub passes on. -/
theorem State.busWrite_eq_placeWrite {s : State} {p : Path} {a : Nat} {pl : Place} (v : Word) (he : s.tooEarly p = false)
    (ha : a < 0x100000) (hp : placeOf a = some pl) (hb : pl.ofPath = false) :
    s.busWrite p a v = s.placeWrite p pl 0xFFFFFFFF v false none := by
  rw [State.busWrite, if_pos ha]
  exact State.hubWrite_eq_placeWrite _ _ _ _ he hp hb

/-- Words of STATS.NOM: the highest at 0x10, the other at 0x14 (R425). -/
theorem statsNom_place : ∀ u : Fin 32, ∀ o ∈ [0x10, 0x14],
    (BitVec.ofNat 32 (key .stats u.val o)).toNat < 0x100000
      ∧ placeOf (BitVec.ofNat 32 (key .stats u.val o)).toNat = some ⟨.stats, u.val, o⟩
      ∧ (⟨.stats, u.val, o⟩ : Place).listed = true ∧ (⟨.stats, u.val, o⟩ : Place).guard = 0
      ∧ (⟨.stats, u.val, o⟩ : Place).reg.cmdk = 0 ∧ (⟨.stats, u.val, o⟩ : Place).reg.rw = 0xFFFFFFFF
      ∧ (⟨.stats, u.val, o⟩ : Place).wideAt = some (2, (o - 0x10) / 4) := by
  decide

/-- A word of STATS.NOM that a served path writes goes to its holding or commits (R326). -/
theorem State.busWrite_statsNom {s : State} {p : Path} {u : Fin 32} {o : Nat} (v : Word) (ho : o ∈ [0x10, 0x14])
    (he : s.tooEarly p = false) (hd : s.placeDown ⟨.stats, u.val, 0x10⟩ = false) :
    s.busWrite p (BitVec.ofNat 32 (key .stats u.val o)).toNat v
      = s.wideWrite p ⟨.stats, u.val, o⟩ 2 ((o - 0x10) / 4) v := by
  obtain ⟨hlow, hplace, hlisted, hguard, hcmdk, hrw, hwide⟩ := statsNom_place u o ho
  have hdown : s.placeDown ⟨.stats, u.val, o⟩ = false := hd
  have htrips : (⟨.stats, u.val, o⟩ : Place).trips 0xFFFFFFFF v = false := by simp [Place.trips, hguard, hcmdk]
  rw [State.busWrite_eq_placeWrite v he hlow hplace rfl, State.placeWrite, if_neg (by rw [hlisted]; decide),
    if_neg (by rw [hdown]; decide)]
  simp only [htrips, Bool.and_false, hwide, hrw]
  simp

/-- An access of a served path completes with what it names. -/
theorem completes_of_access {c : Instr} {s : State} {p : Path} (a : Nat) (f : State → State) {P : State → Prop}
    (hexec : exec c s = access s p a f) (hc : s.carries p = true)
    (hP : P { f s with
      pending := s.pending
      tick := if (f s).coreUp then s.tick else 0
      islandTick := if (f s).coreUp then s.islandTick else Vector.replicate 16 0
      ticking := s.ticking && (f s).ticking && (f s).coreUp }) : Completes c s P :=
  completes_of_done (hexec.trans (access_of_carries a f hc)) hP

theorem wordsOf_ofWords_two (a b : Word) : wordsOf 2 (ofWords [a, b]) = [a, b] := by
  simp only [wordsOf, ofWords, List.foldl_cons, List.foldl_nil, List.cons.injEq, and_true]
  constructor
  · exact BitVec.eq_of_toNat_eq (by simp; omega)
  · exact BitVec.eq_of_toNat_eq (by simp; omega)

/-- A value of two words is stored word by word (R407). -/
theorem State.setWide_two (s : State) (b : Block) (i o : Nat) (hi lo : Word) :
    s.setWide b i o 2 (ofWords [hi, lo]) = (s.wr b i o hi).wr b i (o + 4) lo := by
  rw [State.setWide, wordsOf_ofWords_two]
  rfl

theorem exec_holdingWriteLow {s : State} {p : Path} {u : Fin 32} (v : Word) (hr : s.reaches p .stats u.val 0x10 = true) :
    exec (.holdingWriteLow p (BitVec.ofNat 32 (key .stats u.val 0x14)) v) s
        = .next (s.modPath p (fun q => { q with writeHold := mapSet q.writeHold (key .stats u.val 0x14) v 0 })) := by
  simp only [State.reaches, Bool.and_eq_true, Bool.not_eq_true'] at hr
  obtain ⟨⟨hc, he⟩, hd⟩ := hr
  change access s p _ (fun s => s.busWrite p (BitVec.ofNat 32 (key .stats u.val 0x14)).toNat v) = _
  rw [access_of_carries _ _ hc, State.busWrite_statsNom v (by decide) he hd]
  exact done_eq_next rfl rfl rfl rfl (State.coreUp_of_carries hc)

theorem completes_holdingWriteCommit {s : State} {p : Path} {u : Fin 32} (v : Word)
    (hr : s.reaches p .stats u.val 0x10 = true) :
    Completes (.holdingWriteCommit p (BitVec.ofNat 32 (key .stats u.val 0x10)) v) s (fun t =>
      t.r .stats u.val 0x10 = v ∧ t.r .stats u.val 0x14 = (mapGet (s.path p).writeHold (key .stats u.val 0x14)).getD 0) := by
  simp only [State.reaches, Bool.and_eq_true, Bool.not_eq_true'] at hr
  obtain ⟨⟨hc, he⟩, hd⟩ := hr
  refine completes_of_access _ (fun s => s.busWrite p (BitVec.ofNat 32 (key .stats u.val 0x10)).toNat v) rfl hc ?_
  have hkeys : ∀ u : Fin 32, key .stats u.val 0x10 ≠ key .stats u.val 0x14 ∧ key .stats u.val 0x10 ≠ key .stats u.val 0x18
    ∧ key .stats u.val 0x14 ≠ key .stats u.val 0x18 := by decide
  obtain ⟨h01, h02, h12⟩ := hkeys u
  rw [State.busWrite_statsNom v (by decide) he hd]
  generalize hlow : (mapGet (s.path p).writeHold (key .stats u.val 0x14)).getD 0 = low
  have hcommit : s.wideWrite p ⟨.stats, u.val, 0x10⟩ 2 ((0x10 - 0x10) / 4) v
      = ((s.wr .stats u.val 0x10 v).wr .stats u.val 0x14 low).dropWindow (finMod 32 u.val) := by
    rw [← hlow, ← State.setWide_two]
    rfl
  have hdrop : ∀ (t : State) (k : Nat), k ≠ key .stats u.val 0x18 → (t.dropWindow (finMod 32 u.val)).reg k = t.reg k := by
    intro t k hk
    rw [finMod_val]
    exact State.setReg_other _ _ k _ hk
  have hhigh' : (((s.wr .stats u.val 0x10 v).wr .stats u.val 0x14 low).dropWindow (finMod 32 u.val)).r .stats u.val 0x10 = v := by
    rw [State.r, hdrop _ _ h02, State.reg_wr_other h01]
    exact State.setReg_same ..
  have hlow' : (((s.wr .stats u.val 0x10 v).wr .stats u.val 0x14 low).dropWindow (finMod 32 u.val)).r .stats u.val 0x14 = low := by
    rw [State.r, hdrop _ _ h12]
    exact State.setReg_same ..
  rw [hcommit]
  generalize ((s.wr .stats u.val 0x10 v).wr .stats u.val 0x14 low).dropWindow (finMod 32 u.val) = t at hhigh' hlow' ⊢
  exact ⟨hhigh', hlow'⟩

/-! ## The snapshot (R327) -/

theorem exec_take {s : State} {p : Path} (hk : s.keeps p .access 0 0x10 = true) : exec (.take p) s = done s s.takeSnapshot := by
  simp only [State.keeps, State.reaches, Bool.and_eq_true, Bool.not_eq_true'] at hk
  obtain ⟨⟨⟨hc, he⟩, -⟩, hkeep⟩ := hk
  have hkeeper : s.keeper p = true := by
    cases p
    case eng e => exact (Bool.and_eq_true_iff.mp hkeep).1
    all_goals exact hkeep
  have hplace : placeOf (key .access 0 0x10) = some ⟨.access, 0, 0x10⟩ := by decide
  change access s p _ (fun s => s.regWrite p .access 0 0x10 0x80000000) = _
  rw [access_of_carries _ _ hc, State.regWrite, State.hubWrite, if_neg (by rw [he]; decide)]
  simp only [hplace, hkeeper, if_true]
  rfl

theorem State.takeSnapshot_service {s : State} (h : s.boot.mode = .service) :
    s.takeSnapshot = { s with snap := { s.snap with modeRej := true, rejects := satAdd 16 s.snap.rejects 1 } } := by
  rw [State.takeSnapshot, if_pos h]

/-- A snapshot that is accepted copies the instant it is taken. -/
theorem State.takeSnapshot_taken {s : State} (h : s.boot.mode ≠ .service) :
    s.takeSnapshot.snap.done = true ∧ s.takeSnapshot.snap.modeRej = false ∧ s.takeSnapshot.snap.tick = s.tick
      ∧ s.takeSnapshot.snap.rc = s.rc ∧ s.takeSnapshot.snap.units = s.units ∧ s.takeSnapshot.regs = s.regs := by
  rw [State.takeSnapshot, if_neg h]
  exact ⟨rfl, rfl, rfl, rfl, rfl, rfl⟩

end Sys2Proof.Machine

namespace Sys2Proof.Machine

/-! ## The indirect pair (R328, R329, R436) -/

theorem State.indAt_low {s : State} {a : Nat} (hup : s.coreUp = true) (ha : a < 0x10000) : s.indAt a = .none := by
  rw [State.indAt, if_neg (by omega), if_neg (by rw [hup]; decide), if_neg (by omega), if_neg (by omega), if_neg (by omega)]

theorem State.indAt_arc {s : State} {a x : Nat} (ha : a = 0x02000000 + x) (hx : x < 0x200000) : s.indAt a = .arc x := by
  rw [State.indAt, if_pos (by omega), show a - 0x02000000 = x by omega]

theorem State.indAt_mon {s : State} {a off : Nat} (src : Fin 96) (hup : s.coreUp = true)
    (hoff : off ∈ [0x08, 0x0C, 0x10, 0x14, 0x18, 0x1C, 0x20, 0x24, 0x28]) (ha : a = 0x10000 + 0x40 * src.val + off) :
    s.indAt a = .reg ⟨.mon, src.val, off⟩ := by
  have hsmall : ∀ o ∈ [0x08, 0x0C, 0x10, 0x14, 0x18, 0x1C, 0x20, 0x24, 0x28], o < 0x40 ∧ o % 4 = 0 := by decide
  obtain ⟨hlt, h4⟩ := hsmall off hoff
  have hplace : monPlace a = ⟨.mon, src.val, off⟩ := by
    rw [monPlace, ha]
    congr 1 <;> omega
  have hrow : ∀ o ∈ [0x08, 0x0C, 0x10, 0x14, 0x18, 0x1C, 0x20, 0x24, 0x28], (rowAt .mon o).isSome = true := by decide
  have hsrc := src.isLt
  rw [State.indAt, if_neg (by omega), if_neg (by rw [hup]; decide), if_pos (by omega)]
  simp only [hplace, hrow off hoff, if_true]

theorem exec_indDataWrite {s : State} {p : Path} (v : Word) (hr : s.reaches p .access 0 4 = true) :
    exec (.indDataWrite p v) s = done s (s.indPost p v) := by
  simp only [State.reaches, Bool.and_eq_true, Bool.not_eq_true'] at hr
  obtain ⟨⟨hc, he⟩, -⟩ := hr
  have hplace : placeOf (key .access 0 4) = some ⟨.access, 0, 4⟩ := by decide
  change access s p _ (fun s => s.regWrite p .access 0 4 v) = _
  rw [access_of_carries _ _ hc, State.regWrite, State.hubWrite, if_neg (by rw [he]; decide)]
  simp only [hplace]
  rfl

theorem State.modPath_congr {s : State} {p : Path} {f g : PathSt → PathSt} (h : f (s.path p) = g (s.path p)) :
    s.modPath p f = s.modPath p g := by
  rw [State.modPath, State.modPath, h]

/-- IND_DATA is written: posted, where nothing is; an overrun else (R329). -/
theorem State.indPost_free {s : State} {p : Path} (v : Word) (h : (s.path p).indBusy = none) :
    s.indPost p v = s.modPath p (fun q => { q with indBusy := some (q.indAddr, v), indAddr := q.indAddr + 4 }) :=
  State.modPath_congr (by simp only [h])

theorem State.indPost_busy {s : State} {p : Path} (v : Word) (h : (s.path p).indBusy.isSome = true) :
    s.indPost p v = s.modPath p (fun q => { q with overrun := true }) := by
  obtain ⟨x, hx⟩ := Option.isSome_iff_exists.mp h
  exact State.modPath_congr (by simp only [hx])

theorem exec_indWriteDone {s : State} {p : Path} (hc : s.carries p = true) :
    exec (.indWriteDone p) s = done s (s.indDone p) :=
  access_of_carries (key .access 0 4) (fun s => s.indDone p) hc

/-- With no write posted, a read of IND_DATA is one of the indirect target. -/
theorem exec_indDataRead {s : State} {p : Path} (hc : s.carries p = true) (hfree : (s.path p).indBusy = none) :
    exec (.indDataRead p) s = done s (((s.indRead p (s.path p).indAddr.toNat).2.modPath p (fun q =>
      { q with indAddr := q.indAddr + 4 })).answer p (.data (s.indRead p (s.path p).indAddr.toNat).1)) := by
  have hplace : placeOf (key .access 0 4) = some ⟨.access, 0, 4⟩ := by decide
  have hlow : key .access 0 4 < 0x100000 := by decide
  have hdone : s.indDone p = s := by rw [State.indDone, hfree]
  change access s p _ (fun s => s.readAnswer p (key .access 0 4)) = _
  rw [access_of_carries _ _ hc, State.readAnswer, State.busRead_of_lt hlow, State.hubRead]
  simp only [hplace, State.indFetch, hdone]
  rfl

/-- Of the archive's areas, those below the factory half are written at protection 2 (R372). -/
theorem State.arcProtected_of_lt {s : State} {a : Nat} (ha : a < 0x100000) (hp : s.protection = 2) :
    s.arcProtected a = false := by
  simp only [State.arcProtected, hp, decide_eq_false_iff_not]
  omega

theorem State.log_cells (s : State) (e : LogEntry) : (s.log e).arch.cells = s.arch.cells := by
  unfold State.log
  split <;> rfl

/-- Four bytes listed one after another are read back. -/
theorem mapGet_foldl_bytes (m : List (Nat × Byte)) (a : Nat) (v : Word) {i : Nat} (hi : i < 4) :
    (mapGet (((List.range 4).zip (beBytes 4 v.toNat)).foldl (fun m p => mapSet m (a + p.1) p.2 0) m) (a + i)).getD 0
      = (beBytes 4 v.toNat).getD i 0 := by
  have hother : ∀ (l : List (Nat × Byte)) (j k : Nat) (b : Byte), j ≠ k → mapGet (mapSet l (a + k) b 0) (a + j) = mapGet l (a + j) :=
    fun l j k b h => mapGet_mapSet_other l (a + k) (a + j) b 0 (by omega)
  simp only [List.range_succ, List.range_zero, beBytes, List.nil_append, List.cons_append, List.zip_cons_cons,
    List.zip_nil_left, List.foldl_cons, List.foldl_nil]
  interval_cases i
  · rw [hother _ _ _ _ (by decide), hother _ _ _ _ (by decide), hother _ _ _ _ (by decide)]
    exact mapGet_mapSet_same ..
  · rw [hother _ _ _ _ (by decide), hother _ _ _ _ (by decide)]
    exact mapGet_mapSet_same ..
  · rw [hother _ _ _ _ (by decide)]
    exact mapGet_mapSet_same ..
  · exact mapGet_mapSet_same ..

/-- A keeper's area of the archive takes the bytes of a write (R367, R372). -/
theorem State.arcWrite_cells {s : State} {x : Nat} (v : Word) (hx : x < 0x80000) (h4 : x % 4 = 0) (hp : s.protection = 2)
    (hgood : s.arch.badIn (0x80000 + x) 4 = false) :
    ∀ i < 4, (mapGet (s.arcWrite (0x80000 + x) v).arch.cells (0x80000 + x + i)).getD 0 = (beBytes 4 v.toNat).getD i 0 := by
  have halign : (0x80000 + x) % 4 = 0 := by omega
  have hopen : s.arcProtected (0x80000 + x) = false := State.arcProtected_of_lt (by omega) hp
  have harea : arcKeeperArea (0x80000 + x) = true := by
    simp only [arcKeeperArea, decide_eq_true_eq]
    omega
  have hcells : (s.arcWrite (0x80000 + x) v).arch.cells
      = ((List.range 4).zip (beBytes 4 v.toNat)).foldl (fun m p => mapSet m (0x80000 + x + p.1) p.2 0) s.arch.cells := by
    rw [State.arcWrite]
    simp only [halign, Nat.sub_zero, hopen, hgood, harea, if_true, Bool.false_eq_true, if_false]
    split
    · split
      · rfl
      · exact State.log_cells ..
    · rfl
  intro i hi
  rw [hcells]
  exact mapGet_foldl_bytes _ _ _ hi

theorem State.arcWrite_bad {s : State} {x : Nat} (v : Word) (hx : x < 0x80000) (h4 : x % 4 = 0) (hp : s.protection = 2)
    (hbad : s.arch.badIn (0x80000 + x) 4 = true) : s.arcWrite (0x80000 + x) v = s.arcUe (0x80000 + x) := by
  have halign : (0x80000 + x) % 4 = 0 := by omega
  have hopen : s.arcProtected (0x80000 + x) = false := State.arcProtected_of_lt (by omega) hp
  simp only [State.arcWrite, halign, Nat.sub_zero, hopen, hbad]
  simp

/-- A count that fills its register. -/
theorem State.r_count_word (s : State) (b : Block) (i o n : Nat) :
    (s.count b i o 31 0 n).r b i o = BitVec.ofNat 32 (satAdd 32 (s.r b i o).toNat n) := by
  have hfld : fld (2 ^ (31 + 1 - 0) - 1) 0 = 0xFFFFFFFF := by decide
  have hmod : satAdd 32 (s.r b i o).toNat n % 2 ^ 32 = satAdd 32 (s.r b i o).toNat n :=
    Nat.mod_eq_of_lt (lt_of_le_of_lt (Nat.min_le_right ..) (by decide))
  have hold : s.rf b i o 31 0 = (s.r b i o).toNat := by
    simp only [State.rf, bitsOf, Nat.pow_zero, Nat.div_one]
    exact Nat.mod_eq_of_lt (s.r b i o).isLt
  refine (State.setReg_same ..).trans ?_
  rw [hfld, mix_all, hold]
  simp only [Nat.sub_zero, hmod, fld, Nat.pow_zero, Nat.mul_one]

/-- An uncorrectable word of the archive is counted; the archive stands (R356, R374). -/
theorem State.arcUe_spec (s : State) (a : Nat) : (s.arcUe a).arch = s.arch
    ∧ (s.arcUe a).r .archive 0 0x10 = BitVec.ofNat 32 (satAdd 32 (s.r .archive 0 0x10).toNat 1) := by
  have hkey : key .archive 0 0x10 ∉ noticeKeys := by decide
  refine ⟨(State.raise_service ..).arch.trans (State.count_service ..).arch, ?_⟩
  rw [State.r, State.arcUe, State.reg_raise hkey]
  exact State.r_count_word ..

theorem State.arcRead_good {s : State} {a : Nat} (h4 : a % 4 = 0) (hgood : s.arch.badIn a 4 = false) :
    s.arcRead a = (BitVec.ofNat 32 (beNat ((List.range 4).map (fun i => s.arcByte (a + i)))), s) := by
  simp only [State.arcRead, h4, Nat.sub_zero, hgood, Bool.false_eq_true, if_false]

/-- A keeper reads a monitor-table word of its own view as it stands (R325, R328). -/
theorem State.placeRead_mon {s : State} {p : Path} {off : Nat} (src : Fin 96)
    (hoff : off ∈ [0x08, 0x0C, 0x10, 0x14, 0x18, 0x1C, 0x20, 0x24, 0x28]) (hd : s.placeDown ⟨.mon, src.val, off⟩ = false)
    (hk : s.keeper p = true) (hv : (s.path p).snapView = false) :
    (s.placeRead p ⟨.mon, src.val, off⟩).1 = some (s.r .mon src.val off)
      ∧ (s.placeRead p ⟨.mon, src.val, off⟩).2.regs = s.regs
      ∧ (s.placeRead p ⟨.mon, src.val, off⟩).2.paths = s.paths := by
  have hreg : ∀ src : Fin 96, ∀ o ∈ [0x08, 0x0C, 0x10, 0x14, 0x18, 0x1C, 0x20, 0x24, 0x28],
      (⟨.mon, src.val, o⟩ : Place).listed = true ∧ (⟨.mon, src.val, o⟩ : Place).reg.rc = 0
      ∧ (⟨.mon, src.val, o⟩ : Place).wideAt = none := by decide
  obtain ⟨hlisted, hrc, hwide⟩ := hreg src off hoff
  have hmask : ∀ w : Word, w &&& 4294967295#32 = w := fun w => BitVec.and_allOnes
  have hlive : s.live p ⟨.mon, src.val, off⟩ = s.r .mon src.val off := rfl
  rw [State.placeRead, if_neg (by rw [hlisted]; decide), if_neg (by rw [hd]; decide)]
  simp [hwide, hk, hv, hrc, hmask, hlive]
  split
  · exact ⟨rfl, rfl⟩
  · exact ⟨rfl, rfl⟩

/-- A posted write with no target sets NOREG (R328). -/
theorem completes_indWriteDone_none {s : State} {p : Path} {a v : Word} (hc : s.carries p = true)
    (hbusy : (s.path p).indBusy = some (a, v)) (ha : a.toNat < 0x10000) :
    Completes (.indWriteDone p) s (fun t => t.path p = { s.path p with indBusy := none, noreg := true }) := by
  refine completes_of_done (exec_indWriteDone hc) ?_
  have hat := State.indAt_low (State.coreUp_of_carries hc) ha
  have hdone : s.indDone p = (s.modPath p (fun q => { q with noreg := true })).modPath p (fun q => { q with indBusy := none }) := by
    rw [State.indDone, hbusy]
    simp only [State.indWrite, hat]
  rw [hdone]
  have hpath : ((s.modPath p (fun q => { q with noreg := true })).modPath p (fun q => { q with indBusy := none })).path p
      = { s.path p with indBusy := none, noreg := true } := by simp
  exact hpath

/-- A keeper's posted write of the archive is the archive's own (R367). -/
theorem State.indDone_arc {s : State} {p : Path} {a v : Word} {x : Nat} (hbusy : (s.path p).indBusy = some (a, v))
    (ha : a.toNat = 0x02080000 + x) (hx : x < 0x80000) (hk : s.keeper p = true) :
    s.indDone p = (s.arcWrite (0x80000 + x) v).modPath p (fun q => { q with indBusy := none }) := by
  have hat : s.indAt a.toNat = .arc (0x80000 + x) := State.indAt_arc (by omega) (by omega)
  rw [State.indDone, hbusy]
  simp only [State.indWrite, hat, hk, if_true]

theorem indBusy_clear (t : State) (p : Path) : ((t.modPath p (fun q => { q with indBusy := none })).path p).indBusy = none := by
  simp

theorem completes_indWriteDone_arc {s : State} {p : Path} {a v : Word} {x : Nat} (hc : s.carries p = true)
    (hbusy : (s.path p).indBusy = some (a, v)) (ha : a.toNat = 0x02080000 + x) (hx : x < 0x80000) (h4 : x % 4 = 0)
    (hk : s.keeper p = true) (hp : s.protection = 2) :
    (s.arch.badIn (0x80000 + x) 4 = false → Completes (.indWriteDone p) s (fun t => (t.path p).indBusy = none
          ∧ ∀ i < 4, (mapGet t.arch.cells (0x80000 + x + i)).getD 0 = (beBytes 4 v.toNat).getD i 0))
    ∧ (s.arch.badIn (0x80000 + x) 4 = true → Completes (.indWriteDone p) s (fun t => (t.path p).indBusy = none
          ∧ t.arch = s.arch ∧ t.r .archive 0 0x10 = BitVec.ofNat 32 (satAdd 32 (s.r .archive 0 0x10).toNat 1))) := by
  have hdone := State.indDone_arc hbusy ha hx hk
  refine ⟨fun hgood => completes_of_done (exec_indWriteDone hc) ?_, fun hbad => completes_of_done (exec_indWriteDone hc) ?_⟩
  · have hcells := State.arcWrite_cells v hx h4 hp hgood
    rw [hdone]
    generalize s.arcWrite (0x80000 + x) v = t at hcells ⊢
    exact ⟨indBusy_clear t p, hcells⟩
  · obtain ⟨harch, hcount⟩ := State.arcUe_spec s (0x80000 + x)
    rw [hdone, State.arcWrite_bad v hx h4 hp hbad]
    generalize s.arcUe (0x80000 + x) = t at harch hcount ⊢
    exact ⟨indBusy_clear t p, harch, hcount⟩

/-- What a read of IND_DATA leaves on its path, for what the target gives. -/
theorem completes_indDataRead {s t : State} {p : Path} {w : Word} {P : State → Prop} (hc : s.carries p = true)
    (hfree : (s.path p).indBusy = none) (hread : s.indRead p (s.path p).indAddr.toNat = (w, t))
    (hP : P { ((t.modPath p (fun q => { q with indAddr := q.indAddr + 4 })).answer p (.data w)) with
      pending := s.pending
      tick := if t.coreUp then s.tick else 0
      islandTick := if t.coreUp then s.islandTick else Vector.replicate 16 0
      ticking := s.ticking && t.ticking && t.coreUp }) : Completes (.indDataRead p) s P := by
  refine completes_of_done (exec_indDataRead hc hfree) ?_
  rw [hread]
  exact hP

theorem path_indDataRead (t : State) (p : Path) (w : Word) :
    ((t.modPath p (fun q => { q with indAddr := q.indAddr + 4 })).answer p (.data w)).path p
      = { t.path p with indAddr := (t.path p).indAddr + 4, resp := .data w } := by
  simp

theorem State.coreUp_of_reaches {s : State} {p : Path} {b : Block} {i o : Nat} (h : s.reaches p b i o = true) :
    s.coreUp = true := by
  simp only [State.reaches, Bool.and_eq_true] at h
  exact State.coreUp_of_carries h.1.1

theorem State.coreUp_of_keeps {s : State} {p : Path} {b : Block} {i o : Nat} (h : s.keeps p b i o = true) :
    s.coreUp = true :=
  State.coreUp_of_reaches (Bool.and_eq_true_iff.mp h).1

theorem legend_offset : ∀ o ∈ [0, 4], (BitVec.ofNat 32 (key .legend 0 o)).toNat < 0x100000
    ∧ placeOf (BitVec.ofNat 32 (key .legend 0 o)).toNat = some ⟨.legend, 0, o⟩ := by
  decide

theorem completes_holdingReadHigh_devId {s : State} {p : Path} (hc : s.carries p = true) :
    Completes (.holdingReadHigh p (BitVec.ofNat 32 (key .legend 0 0))) s (fun t =>
        (t.path p).resp = .data (Config.devId.extractLsb' 32 32)
        ∧ (mapGet (t.path p).readHold (key .legend 0 4)).getD 0 = Config.devId.extractLsb' 0 32) := by
  refine completes_of_access _ (fun s => s.readAnswer p (BitVec.ofNat 32 (key .legend 0 0)).toNat) rfl hc ?_
  obtain ⟨hlow, hplace⟩ := legend_offset 0 (by decide)
  rw [State.readAnswer_of_some ((State.busRead_of_lt hlow).trans ((State.hubRead_eq_placeRead hplace (by decide)).trans
    (State.placeRead_devId s p).1))]
  have hpath : ((s.modPath p PathSt.holdDevId).answer p (.data (Config.devId.extractLsb' 32 32))).path p
      = { (s.path p).holdDevId with resp := .data (Config.devId.extractLsb' 32 32) } := by simp
  exact ⟨congrArg (·.resp) hpath, (congrArg (fun q => (mapGet q.readHold (key .legend 0 4)).getD 0) hpath).trans
    (PathSt.holdDevId_low _)⟩

theorem completes_holdingReadLow_devId {s : State} {p : Path} (hc : s.carries p = true) :
    Completes (.holdingReadHigh p (BitVec.ofNat 32 (key .legend 0 4))) s (fun t =>
        (t.path p).resp = .data ((mapGet (s.path p).readHold (key .legend 0 4)).getD 0)) := by
  refine completes_of_access _ (fun s => s.readAnswer p (BitVec.ofNat 32 (key .legend 0 4)).toNat) rfl hc ?_
  obtain ⟨hlow, hplace⟩ := legend_offset 4 (by decide)
  rw [State.readAnswer_of_some ((State.busRead_of_lt hlow).trans ((State.hubRead_eq_placeRead hplace (by decide)).trans
    (State.placeRead_devId s p).2))]
  exact congrArg (·.resp) (State.path_answer ..)

/-- Settles O39: holdings by the words of the register, the snapshot by its instant, the indirect pair by its target. -/
theorem holdingsSnapshotAndIndirect : Obligations.HoldingsSnapshotAndIndirect := by
  unfold Obligations.HoldingsSnapshotAndIndirect
  refine ⟨fun s p hc => ⟨?_, ?_⟩, fun s p u v hr => ⟨exec_holdingWriteLow v hr, completes_holdingWriteCommit v hr⟩,
    fun s p hk => ⟨fun hmode => ?_, fun hmode => ?_⟩, fun s p v hr => ?_, fun s p hc => ⟨fun hfree => ?_, ?_, ?_, fun hfree => ⟨?_, ?_, ?_⟩⟩⟩
  · exact completes_holdingReadHigh_devId hc
  · exact completes_holdingReadLow_devId hc
  · have hup := State.coreUp_of_keeps hk
    rw [exec_take hk, State.takeSnapshot_service hmode]
    exact done_eq_next rfl rfl rfl rfl hup
  · refine completes_of_done (exec_take hk) ?_
    have htaken := State.takeSnapshot_taken hmode
    generalize s.takeSnapshot = t at htaken ⊢
    exact htaken
  · have hup := State.coreUp_of_reaches hr
    rw [exec_indDataWrite v hr]
    refine ⟨fun hfree => ?_, fun hbusy => ?_⟩
    · rw [State.indPost_free v hfree]
      exact done_eq_next rfl rfl rfl rfl hup
    · rw [State.indPost_busy v hbusy]
      exact done_eq_next rfl rfl rfl rfl hup
  · have hdone : s.indDone p = s := by rw [State.indDone, hfree]
    rw [exec_indWriteDone hc, hdone]
    exact done_eq_next rfl rfl rfl rfl (State.coreUp_of_carries hc)
  · exact fun a v hbusy ha => completes_indWriteDone_none hc hbusy ha
  · exact fun a v x hbusy ha hx h4 hk hp => completes_indWriteDone_arc hc hbusy ha hx h4 hk hp
  · intro ha
    have hread : s.indRead p (s.path p).indAddr.toNat = (0, s.modPath p (fun q => { q with noreg := true })) := by
      rw [State.indRead, State.indAt_low (State.coreUp_of_carries hc) ha]
    refine completes_indDataRead hc hfree hread ?_
    have hpath : (((s.modPath p (fun q => { q with noreg := true })).modPath p (fun q =>
        { q with indAddr := q.indAddr + 4 })).answer p (.data 0)).path p
        = { s.path p with noreg := true, indAddr := (s.path p).indAddr + 4, resp := .data 0 } := by simp
    exact ⟨congrArg (·.resp) hpath, congrArg (·.noreg) hpath, congrArg (·.indAddr) hpath⟩
  · intro x ha hx h4 hgood
    have hread : s.indRead p (s.path p).indAddr.toNat = s.arcRead (0x80000 + x) := by
      rw [State.indRead, State.indAt_arc (x := 0x80000 + x) (by omega) (by omega)]
    rw [State.arcRead_good (by omega) hgood] at hread
    have hpath := path_indDataRead s p (BitVec.ofNat 32 (beNat ((List.range 4).map (fun i => s.arcByte (0x80000 + x + i)))))
    exact completes_indDataRead hc hfree hread ⟨congrArg (·.indAddr) hpath, rfl, congrArg (·.resp) hpath⟩
  · intro src off hoff ha hd hk hv
    obtain ⟨hword, hregs, hpaths⟩ := State.placeRead_mon src hoff hd hk hv
    generalize hplace : s.placeRead p ⟨.mon, src.val, off⟩ = r at hword hregs hpaths
    obtain ⟨w, t⟩ := r
    obtain rfl : w = some (s.r .mon src.val off) := hword
    have hread : s.indRead p (s.path p).indAddr.toNat = (s.r .mon src.val off, t) := by
      rw [State.indRead, State.indAt_mon src (State.coreUp_of_carries hc) hoff ha]
      simp only [hplace]
    have hsame : t.path p = s.path p := congrArg (fun v : Vector PathSt 12 => v[pathIx p]) hpaths
    have hpath := path_indDataRead t p (s.r .mon src.val off)
    rw [hsame] at hpath
    exact completes_indDataRead hc hfree hread ⟨congrArg (·.resp) hpath, congrArg (·.indAddr) hpath, hregs⟩

end Sys2Proof.Machine

/-! SUPPORT. PROOFS. The crossing between islands (R14 to R20) and the report of a tick index that differs (R376). -/

namespace Sys2Proof.Machine

theorem State.modGroup_congr {s : State} {g : Fin 12} {f h : Group → Group} (hfh : f s.groups[g] = h s.groups[g]) :
    s.modGroup g f = s.modGroup g h := by
  change { s with groups := s.groups.set g (f s.groups[g]) } = { s with groups := s.groups.set g (h s.groups[g]) }
  rw [hfh]

/-! ## Arrivals -/

/-- The first word on its way from a source to a destination arrives. -/
theorem arriveWord_append {src : Fin 16} {dst : Dest} {pre post : List XWord} {w : XWord}
    (hpre : ∀ x ∈ pre, ¬(x.src = src ∧ x.dst = dst ∧ x.arrived = false)) (hw : w.src = src ∧ w.dst = dst ∧ w.arrived = false) :
    arriveWord src dst (pre ++ w :: post) = (pre ++ { w with arrived := true } :: post, some w) := by
  induction pre with
  | nil => simp only [List.nil_append, arriveWord, hw, and_self, if_true]
  | cons x pre ih =>
    have hx := hpre x List.mem_cons_self
    have ih := ih fun y hy => hpre y (List.mem_cons_of_mem x hy)
    simp only [List.cons_append, arriveWord, hx, if_false, ih]

theorem arriveFirst_append {pre post : List (RawStamp × Bool)} {r : RawStamp} (hpre : ∀ x ∈ pre, x.2 = true) :
    arriveFirst (pre ++ (r, false) :: post) = pre ++ (r, true) :: post := by
  induction pre with
  | nil => rfl
  | cons x pre ih =>
    obtain ⟨a, b⟩ := x
    obtain rfl : b = true := hpre (a, b) List.mem_cons_self
    simp only [List.cons_append, arriveFirst, ih fun y hy => hpre y (List.mem_cons_of_mem _ hy)]

/-- A word arrives, in time or late (R16, R19). -/
theorem State.crossing_steer_xwords {s : State} {pre post : List XWord} {w : XWord} (hx : s.xwords = pre ++ w :: post)
    (hw : w.arrived = false) (hpre : ∀ x ∈ pre, ¬(x.src = w.src ∧ x.dst = w.dst ∧ x.arrived = false)) :
    (s.crossing (.steer w.src w.dst)).xwords = pre ++ { w with arrived := true } :: post := by
  have harrive := arriveWord_append (post := post) hpre ⟨rfl, rfl, hw⟩
  simp only [State.crossing, hx, harrive]
  split
  · exact ((State.report_service ..).xwords.trans (State.report_service ..).xwords).trans (State.raise_service ..).xwords
  · rfl

theorem exec_crossing_stamp {s : State} {g : Fin 12} {pre post : List (RawStamp × Bool)} {r : RawStamp} (hup : s.coreUp = true)
    (hpre : ∀ x ∈ pre, x.2 = true) :
    ((s.groups[g]).xa = pre ++ (r, false) :: post → exec (.crossingWordArrival (.stamp g 0)) s
        = .next (s.modGroup g (fun q => { q with xa := pre ++ (r, true) :: post })))
      ∧ ((s.groups[g]).xb = pre ++ (r, false) :: post → exec (.crossingWordArrival (.stamp g 1)) s
        = .next (s.modGroup g (fun q => { q with xb := pre ++ (r, true) :: post }))) := by
  have hexec : ∀ isl, exec (.crossingWordArrival (.stamp g isl)) s = done s (s.crossing (.stamp g isl)) := fun isl =>
    doneCore_up s (fun s => s.crossing (.stamp g isl)) hup
  refine ⟨fun hxa => ?_, fun hxb => ?_⟩
  · have hcross : s.crossing (.stamp g 0) = s.modGroup g (fun q => { q with xa := pre ++ (r, true) :: post }) := by
      rw [State.crossing]
      simp only [Fin.getElem_fin] at hxa
      exact State.modGroup_congr (by simp [hxa, arriveFirst_append hpre])
    rw [hexec, hcross]
    exact done_eq_next rfl rfl rfl rfl hup
  · have hcross : s.crossing (.stamp g 1) = s.modGroup g (fun q => { q with xb := pre ++ (r, true) :: post }) := by
      rw [State.crossing]
      simp only [Fin.getElem_fin] at hxb
      exact State.modGroup_congr (by simp [hxb, arriveFirst_append hpre])
    rw [hexec, hcross]
    exact done_eq_next rfl rfl rfl rfl hup

/-! ## Words at their apply tick -/

theorem State.handoverNote_of_not_take {w : XWord} (s : State) (h : w.take = false) : s.handoverNote w = s := by
  simp [State.handoverNote, h]

theorem State.passTo_of_not_take {w : XWord} (s : State) (dst : Dest) (h : w.take = false) : s.passTo dst w = s := by
  simp [State.passTo, h]

/-- One word takes effect at its destination. -/
def State.wordTo (s : State) (w : XWord) : State :=
  match w.dst with
  | .datum d => s.wordToDatum d w
  | .syn y => s.wordToSyn y w
  | .tally n => s.wordToTally n w

/-- The only word in the crossing, due and of no new assignment, takes effect and is gone. -/
theorem State.applyDest_single {s : State} {w : XWord} (hx : s.xwords = [w]) (hdue : s.wordDue w.dst w = true)
    (htake : w.take = false) :
    s.applyDest w.dst = (State.wordTo { s with xwords := [] } w).refreshOuts.qlRefresh := by
  have hfilter : s.xwords.filter (s.wordDue w.dst) = [w] := by simp [hx, hdue]
  have hrest : s.xwords.filter (fun v => !s.wordDue w.dst v) = [] := by simp [hx, hdue]
  unfold State.applyDest
  simp only [hfilter, hrest, List.foldl_cons, List.foldl_nil, State.passTo_of_not_take _ _ htake,
    State.handoverNote_of_not_take _ htake]
  rfl

theorem State.accepts_of {s : State} {n : Fin 16} {a : Option (Fin 16)} (ha : a = some n) (hr : (s.loops[n]).role ≠ .failed)
    (ht : (s.fm.blks[finMod 128 (0x11 + n.val % 2)]).st ≠ .testing) : s.accepts a n = true := by
  simp only [State.accepts, ha, beq_self_eq_true, Bool.true_and, Bool.and_eq_true, bne_iff_ne]
  exact ⟨hr, ht⟩

/-- An increment for the clock that its loop steers is due (R18, R20, R35). -/
theorem State.wordToDatum_inc {s : State} {n : Fin 16} {d : Fin 8} {f : Int} {k : DWord} {arrived take : Bool}
    (hacc : s.accepts (s.datums[d]).assigned n = true) :
    s.wordToDatum d ⟨n, .datum d, .inc f, k, arrived, take⟩ = s.modDatum d (fun x => { x with incDue := some f }) := by
  simp only [State.wordToDatum, hacc, Bool.true_eq_false, if_false]

theorem completes_applyTick_datum {s : State} {n : Fin 16} {d : Fin 8} {f : Int} {k : DWord} (hup : s.coreUp = true)
    (htick : s.ticking = true) (hx : s.xwords = [⟨n, .datum d, .inc f, k, true, false⟩]) (hk : k.toNat ≤ s.tick.toNat + 1)
    (ha : (s.datums[d]).assigned = some n) (hr : (s.loops[n]).role ≠ .failed)
    (ht : (s.fm.blks[finMod 128 (0x11 + n.val % 2)]).st ≠ .testing) :
    Completes (.applyTick (.datum d)) s (fun t => t.xwords = [] ∧ (t.datums[d]).incDue = some f) := by
  have hexec : exec (.applyTick (.datum d)) s = done s (s.applyDest (.datum d)) := by
    refine (doneCore_up s (fun s => if s.ticking then s.applyDest (.datum d) else s) hup).trans ?_
    rw [if_pos htick]
  refine completes_of_done hexec ?_
  have hword := State.wordToDatum_inc (s := { s with xwords := [] }) (d := d) (f := f) (k := k) (arrived := true)
    (take := false) (State.accepts_of ha hr ht)
  have happly := State.applyDest_single (w := ⟨n, .datum d, .inc f, k, true, false⟩) hx (by simp [State.wordDue, hk]) rfl
  simp only [State.wordTo, hword] at happly
  generalize hu : State.modDatum { s with xwords := [] } d (fun x => { x with incDue := some f }) = u at happly
  have hdatums : (u.refreshOuts.qlRefresh).datums = u.datums :=
    ((State.qlRefresh_val (p := .datums) (by decide) _).trans (State.refreshOuts_val (p := .datums) (by decide) _))
  have hxwords : (u.refreshOuts.qlRefresh).xwords = u.xwords :=
    ((State.qlRefresh_val (p := .xwords) (by decide) _).trans (State.refreshOuts_val (p := .xwords) (by decide) _))
  rw [happly]
  have hincDue : (u.datums[d]).incDue = some f := by simp [← hu, State.modDatum]
  have hempty : u.xwords = [] := hu ▸ rfl
  rw [← hdatums] at hincDue
  rw [← hxwords] at hempty
  generalize u.refreshOuts.qlRefresh = t at hincDue hempty ⊢
  exact ⟨hempty, hincDue⟩

/-- A loop's own tally takes its increments without the crossing (R86). -/
theorem completes_applyTick_tally {s : State} {n : Fin 16} {f : Int} {k : DWord} (hup : s.coreUp = true)
    (htick : s.ticking = true) (hx : s.xwords = [⟨n, .tally n, .inc f, k, false, false⟩]) (hk : k.toNat ≤ s.tick.toNat + 1) :
    Completes (.applyTick (.tally n)) s (fun t => t.xwords = [] ∧ (t.loops[n]).incDue = some f) := by
  have hexec : exec (.applyTick (.tally n)) s = done s (s.applyDest (.tally n)) := by
    refine (doneCore_up s (fun s => if s.ticking then s.applyDest (.tally n) else s) hup).trans ?_
    rw [if_pos htick]
  refine completes_of_done hexec ?_
  have happly := State.applyDest_single (w := ⟨n, .tally n, .inc f, k, false, false⟩) hx (by simp [State.wordDue, hk]) rfl
  simp only [State.wordTo, State.wordToTally] at happly
  generalize hu : State.modLoop { s with xwords := [] } n (fun l => { l with incDue := some f }) = u at happly
  have hloops : (u.refreshOuts.qlRefresh).loops = u.loops :=
    ((State.qlRefresh_val (p := .loops) (by decide) _).trans (State.refreshOuts_val (p := .loops) (by decide) _))
  have hxwords : (u.refreshOuts.qlRefresh).xwords = u.xwords :=
    ((State.qlRefresh_val (p := .xwords) (by decide) _).trans (State.refreshOuts_val (p := .xwords) (by decide) _))
  rw [happly]
  have hincDue : (u.loops[n]).incDue = some f := by simp [← hu, State.modLoop]
  have hempty : u.xwords = [] := hu ▸ rfl
  rw [← hloops] at hincDue
  rw [← hxwords] at hempty
  generalize u.refreshOuts.qlRefresh = t at hincDue hempty ⊢
  exact ⟨hempty, hincDue⟩

/-! ## Reports -/

theorem State.msi_fm (s : State) (f : Fin 2) (v : Fin 32) : (s.msi f v).fm = s.fm := by
  unfold State.msi
  dsimp only
  split
  · rfl
  · split <;> rfl

theorem State.noteSignal_fm (s : State) : s.noteSignal.fm = s.fm := by
  unfold State.noteSignal
  split
  · exact State.msi_fm ..
  · exact State.msi_fm ..
  · rfl
  · rfl

theorem State.offer_fm (s : State) (o : Offer) : (s.offer o).fm = s.fm := by
  unfold State.offer
  split
  · unfold State.enter
    extract_lets wr t u src v
    have hv : v.fm = u.fm := rfl
    have hu : u.fm = t.fm := rfl
    have ht : t.fm = s.fm := rfl
    rw [State.noteSignal_fm, hv, hu, ht]
  · unfold State.lose
    extract_lets n u v
    rfl

theorem State.raise_fm (s : State) (id : Nat) (cls : BitVec 2) (code : Byte) (args : BitVec 64) :
    (s.raise id cls code args).fm = s.fm := by
  unfold State.raise State.raiseAt
  dsimp only
  split
  · rfl
  · split
    · exact State.offer_fm ..
    · rfl

/-- A report leaves the blocks; it waits behind those that wait, or is not taken (R377). -/
theorem State.report_fm (s : State) (b cause : Nat) : (s.report b cause).fm.blks = s.fm.blks
    ∧ ∃ l, (s.report b cause).fm.waiting = s.fm.waiting ++ l ∧ l.length ≤ 1 := by
  unfold State.report
  split
  · exact ⟨rfl, [], (List.append_nil _).symm, Nat.zero_le 1⟩
  · split
    · exact ⟨rfl, [], (List.append_nil _).symm, Nat.zero_le 1⟩
    · split
      · have hfm : ∀ args, ((s.count .fault 0 0x0C 15 0).raise 0x077F clsB 0x6A args).fm = s.fm := fun _ => State.raise_fm ..
        dsimp only
        rw [hfm]
        exact ⟨rfl, [], (List.append_nil _).symm, Nat.zero_le 1⟩
      · exact ⟨rfl, _, rfl, Nat.le_refl 1⟩

/-- A report of a block that runs waits, where there is room. -/
theorem State.report_waits {s : State} {b : Fin 128} (cause : Nat) (hroom : s.fm.waiting.length < 64)
    (ht : (s.fm.blks[b]).st ≠ .testing) :
    (s.report b.val cause).fm.waiting.any (fun e => decide (e.1.val = b.val)) = true := by
  have hfin : fin? 128 b.val = some b := by simp [fin?]
  simp only [State.report, hfin]
  split
  case isTrue hdup =>
    rcases hdup with hst | hwait
    · exact absurd hst ht
    · simpa [Fin.ext_iff] using hwait
  case isFalse =>
    rw [if_neg (by omega)]
    simp

/-- The comparison of one island's tick index (R14). -/
def State.compareTick (s : State) (i : Fin 16) : State :=
  if s.islandTick[i] = s.tick then s else s.report (tickBlock i.val) 2

theorem State.compareTicks_eq (s : State) : s.compareTicks = (List.finRange 16).foldl State.compareTick s :=
  rfl

theorem State.compareTick_clock (s : State) (i : Fin 16) :
    (s.compareTick i).tick = s.tick ∧ (s.compareTick i).islandTick = s.islandTick := by
  unfold State.compareTick
  split
  · exact ⟨rfl, rfl⟩
  · exact ⟨(State.report_service ..).tick, (State.report_service ..).islandTick⟩

/-- Comparisons leave the clock and the blocks, and add at most one report each. -/
theorem State.foldl_compareTick (l : List (Fin 16)) (s : State) :
    (l.foldl State.compareTick s).tick = s.tick ∧ (l.foldl State.compareTick s).islandTick = s.islandTick
      ∧ (l.foldl State.compareTick s).fm.blks = s.fm.blks
      ∧ ∃ r, (l.foldl State.compareTick s).fm.waiting = s.fm.waiting ++ r ∧ r.length ≤ l.length := by
  induction l generalizing s with
  | nil => exact ⟨rfl, rfl, rfl, [], (List.append_nil _).symm, Nat.le_refl 0⟩
  | cons i l ih =>
    obtain ⟨htick, hisl, hblks, r, hr, hlen⟩ := ih (s.compareTick i)
    obtain ⟨htick', hisl'⟩ := s.compareTick_clock i
    have hone : (s.compareTick i).fm.blks = s.fm.blks
        ∧ ∃ q, (s.compareTick i).fm.waiting = s.fm.waiting ++ q ∧ q.length ≤ 1 := by
      unfold State.compareTick
      split
      · exact ⟨rfl, [], (List.append_nil _).symm, Nat.zero_le 1⟩
      · exact State.report_fm ..
    obtain ⟨hblks', q, hq, hqlen⟩ := hone
    refine ⟨htick.trans htick', hisl.trans hisl', hblks.trans hblks', q ++ r, ?_, ?_⟩
    · rw [List.foldl_cons, hr, hq, List.append_assoc]
    · simp only [List.length_append, List.length_cons]
      omega

theorem tickBlock_lt : ∀ i : Fin 16, tickBlock i.val < 128 := by
  decide

/-- An island whose tick index differs is reported (R14, R376). -/
theorem State.compareTicks_waits {s : State} {i : Fin 16} (hdiff : s.islandTick[i] ≠ s.tick)
    (hroom : s.fm.waiting.length ≤ 48) (ht : ∀ b : Fin 128, b.val = tickBlock i.val → (s.fm.blks[b]).st ≠ .testing) :
    s.compareTicks.fm.waiting.any (fun e => decide (e.1.val = tickBlock i.val)) = true := by
  obtain ⟨pre, post, hsplit⟩ := List.append_of_mem (List.mem_finRange i)
  have hlen : pre.length + post.length = 15 := by
    have h := congrArg List.length hsplit
    simp only [List.length_finRange, List.length_append, List.length_cons] at h
    omega
  obtain ⟨htick, hisl, hblks, r, hr, hrlen⟩ := State.foldl_compareTick pre s
  rw [State.compareTicks_eq, hsplit, List.foldl_append, List.foldl_cons]
  generalize pre.foldl State.compareTick s = u at htick hisl hblks hr ⊢
  obtain ⟨-, -, -, q, hq, -⟩ := State.foldl_compareTick post (u.compareTick i)
  have hwait : (u.compareTick i).fm.waiting.any (fun e => decide (e.1.val = tickBlock i.val)) = true := by
    rw [State.compareTick, if_neg (by rw [hisl, htick]; exact hdiff)]
    refine State.report_waits (b := ⟨tickBlock i.val, tickBlock_lt i⟩) 2 ?_ ?_
    · rw [hr, List.length_append]
      omega
    · rw [hblks]
      exact ht _ rfl
  rw [hq, List.any_append, hwait, Bool.true_or]

theorem State.compareTicks_same {s : State} (h : ∀ i : Fin 16, s.islandTick[i] = s.tick) : s.compareTicks = s := by
  have hfold : ∀ l : List (Fin 16), l.foldl State.compareTick s = s := by
    intro l
    induction l with
    | nil => rfl
    | cons i l ih => rw [List.foldl_cons, State.compareTick, if_pos (h i), ih]
  exact hfold _

/-- Settles O3: a word arrives where it stands in its crossing, acts by its destination, and every island is compared. -/
theorem crossingsDeliver : Obligations.CrossingsDeliver := by
  unfold Obligations.CrossingsDeliver
  refine ⟨fun s pre post w hup hx hw hpre => ?_, fun s g pre post r hup hpre => exec_crossing_stamp hup hpre,
    fun s n d f k hup htick hx hk ha hr ht => completes_applyTick_datum hup htick hx hk ha hr ht,
    fun s n f k hup htick hx hk => completes_applyTick_tally hup htick hx hk,
    fun s i hup hdiff hroom ht => ?_, fun s hup hsame => ?_⟩
  · have hxwords := State.crossing_steer_xwords hx hw hpre
    refine completes_of_done (doneCore_up s (fun s => s.crossing (.steer w.src w.dst)) hup) ?_
    generalize s.crossing (.steer w.src w.dst) = t at hxwords ⊢
    exact hxwords
  · have hwaits := State.compareTicks_waits hdiff hroom ht
    refine completes_of_done (doneCore_up s (fun s => s.compareTicks) hup) ?_
    generalize s.compareTicks = t at hwaits ⊢
    exact hwaits
  · refine (doneCore_up s (fun s => s.compareTicks) hup).trans ?_
    rw [State.compareTicks_same hsame]
    exact done_eq_next rfl rfl rfl rfl hup

end Sys2Proof.Machine

namespace Sys2Proof.Machine

/-! ## SYNB's lock, its loss and its relock (R14, R140, R216, R380) -/

theorem State.syns_of_val {s t : State} (h : s.val .syns = t.val .syns) : s.syns = t.syns := h

theorem State.datums_of_val {s t : State} (h : s.val .datums = t.val .datums) : s.datums = t.datums := h

theorem Clock.leapBy_now (c : Clock) (k : Nat) (k1 : DWord) :
    (c.leapBy k k1).now = Tm.ofInt56 (c.now.toInt56 + ((k * c.inc.toNat : Nat) : Int)) := by
  unfold Clock.leapBy
  extract_lets t c'
  split
  · rfl
  · rfl

/-- A loaded word changes the synthesizer's word, not its phase. -/
theorem State.loadWord_phase (s : State) (y : Fin 9) (n : Int) :
    ((s.loadWord y n).syns[y]).phase = (s.syns[y]).phase := by
  unfold State.loadWord
  extract_lets r u
  have hports : (overFin 16 u fun p s => if s.rf .port p.val 0 23 20 = y.val then
      s.modPort p (fun q => { q with rotN := r }) else s).val .syns = u.val .syns :=
    State.val_overFin (fun p s => by simp [State.val_ite]) u
  have hsyns := congrArg (fun v : Vector Syn 9 => (v[y]).phase) hports
  exact hsyns.trans (by simp [u, State.val])

theorem State.reportLock_phase (s : State) (y : Fin 9) (band : BitVec 6) :
    ((s.reportLock y band).syns[y]).phase = .locked := by
  unfold State.reportLock
  extract_lets q u v
  have hv : (v.syns[y]).phase = (u.syns[y]).phase := State.loadWord_phase u y _
  have hu : (u.syns[y]).phase = .locked := by simp [u]
  exact Eq.trans (by simp) (hv.trans hu)

/-- A part the outputs, the cartouche's check and the refresh leave as it is, at the first lock. -/
theorem State.synbLocks_rest {p : Part} (h : p ≠ .ports ∧ p ≠ .outs ∧ p ≠ .chans ∧ p ≠ .boot ∧ p ≠ .cart) (s : State) :
    (overFin 192 s.cartCheck fun ch s => s.outWritten ch).refresh.val p = s.val p := by
  rw [State.refresh_val (by simp [h]), State.val_overFin fun ch s => State.outWritten_val (by simp [h]) s ch,
    State.cartCheck_val (by simp [h])]

/-- What the first lock of SYNB leaves: the lock, and every clock and tally at its start. -/
theorem State.synbLocks_state (s : State) (band : BitVec 6) :
    ((s.synbLocks band).syns[(8 : Fin 9)]).phase = .locked
      ∧ (∀ d : Fin 8, ((s.synbLocks band).datums[d]).clk = Clock.reset)
      ∧ ∀ n : Fin 16, ((s.synbLocks band).loops[n]).tally = Clock.reset := by
  unfold State.synbLocks
  extract_lets u v
  have hsyns : (overFin 192 v.cartCheck fun ch s => s.outWritten ch).refresh.syns = u.syns :=
    State.synbLocks_rest (p := .syns) (by decide) v
  have hdatums : (overFin 192 v.cartCheck fun ch s => s.outWritten ch).refresh.datums = u.datums.map Datum.zeroed :=
    State.synbLocks_rest (p := .datums) (by decide) v
  have hloops : (overFin 192 v.cartCheck fun ch s => s.outWritten ch).refresh.loops
      = u.loops.map (fun l => { l with tally := Clock.reset, rates := Clock.reset.segs }) :=
    State.synbLocks_rest (p := .loops) (by decide) v
  refine ⟨?_, fun d => ?_, fun n => ?_⟩
  · rw [hsyns]
    exact State.reportLock_phase s 8 band
  · rw [hdatums]
    simp [Datum.zeroed]
  · rw [hloops]
    simp

theorem exec_synLock_first {s : State} {band : BitVec 6}
    (hrun : s.coreUp = true ∧ (s.syns[(8 : Fin 9)]).phase = .locking ∧ s.oven.oscLost = false) :
    exec (.synLock 8 band) s = .next { s.synbLocks band with pending := s.pending } := by
  refine (execSynLock_synb band s).trans ?_
  rw [if_pos hrun]

theorem synLock_first_completes {s u : State} {band : BitVec 6} {P : State → Prop}
    (hrun : s.coreUp = true ∧ (s.syns[(8 : Fin 9)]).phase = .locking ∧ s.oven.oscLost = false)
    (hu : s.synbLocks band = u) (hP : P { u with pending := s.pending }) : Completes (.synLock 8 band) s P := by
  refine ⟨_, exec_synLock_first hrun, ?_⟩
  rw [hu]
  exact hP

/-- The loss of lock of a synthesizer leaves it waiting for its return. -/
theorem State.loseLock_phase (s : State) (y : Fin 9) : ((s.loseLock y).syns[y]).phase = .regain := by
  unfold State.loseLock
  extract_lets u v w x
  have hsyns : (x.report (0x18 + y.val) 5).refresh.val .syns = u.val .syns := by
    simp [x, w, v]
  have hphase := congrArg (fun v : Vector Syn 9 => (v[y]).phase) hsyns
  exact hphase.trans (by simp [u, State.val])

theorem State.stopTick_ticking (s : State) : s.stopTick.ticking = false := by
  simp only [State.stopTick]

theorem State.stopTick_coreUp (s : State) : s.stopTick.coreUp = s.coreUp := by
  have hheld : (overFin 192 s fun ch s => s.holdOuts ch).val .clock = s.val .clock :=
    State.val_overFin (fun ch s => State.holdOuts_val (by decide) s ch) s
  simp only [State.stopTick, (State.clock_of_val hheld).2.1]

/-- SYNB's loss stops the tick and leaves the core up. -/
theorem State.synbLost_state (s : State) :
    s.synbLost.ticking = false ∧ s.synbLost.coreUp = s.coreUp
      ∧ (s.synbLost.syns[(8 : Fin 9)]).phase = .regain := by
  have hcore : (s.loseLock 8).coreUp = s.coreUp :=
    (State.clock_of_val (State.loseLock_val (by decide) s 8)).2.1
  have hphase := State.loseLock_phase s 8
  rw [State.synbLost]
  generalize s.loseLock 8 = u at hcore hphase ⊢
  have hsyns : u.stopTick.syns = u.syns := State.syns_of_val (State.stopTick_val (by decide) u)
  exact ⟨u.stopTick_ticking, u.stopTick_coreUp.trans hcore, (congrArg (fun v : Vector Syn 9 => (v[(8 : Fin 9)]).phase) hsyns).trans hphase⟩

/-- The record of an epoch's change leaves the clock as it is. -/
theorem State.epochGroup_datums (s : State) (d : Fin 8) (before : Nat) :
    (s.epochGroup d false before).datums = s.datums := by
  unfold State.epochGroup
  extract_lets c t fl ep
  rw [if_neg (by decide)]
  exact State.bookGroup_val (p := .datums) (by decide) s [ep]

/-- The records of epochs, the outputs and the refresh after a relock leave the clocks and the synthesizers. -/
theorem State.relock_rest {p : Part} (h : p = .datums ∨ p = .syns) (s : State) (before : Vector Nat 8) (was : DWord) :
    (overFin 192 (overFin 8 s fun d s =>
      if ((s.datums[d]).clk.now).epoch = before[d] then s else s.epochGroup d false before[d])
      fun ch s => s.resumeOuts ch was).refresh.val p = s.val p := by
  have hgroup : ∀ (d : Fin 8) (s : State), (s.epochGroup d false before[d]).val p = s.val p := fun d s => by
    rcases h with rfl | rfl
    · exact State.epochGroup_datums s d _
    · exact State.epochGroup_val (by decide) s d false _
  rw [State.refresh_val (by rcases h with rfl | rfl <;> decide),
    State.val_overFin fun ch s => State.resumeOuts_val (by rcases h with rfl | rfl <;> decide) s ch was]
  exact State.val_overFin (fun d s => by rw [State.val_ite, hgroup, ite_self]) s

/-- What the relock of SYNB leaves: the lock, and every clock ahead by the increments of the time lost. -/
theorem State.synbRelock_state (s : State) (m : Nat) :
    ((s.synbRelock m).syns[(8 : Fin 9)]).phase = .locked
      ∧ ∀ d : Fin 8, ((s.synbRelock m).datums[d]).clk.now
        = Tm.ofInt56 ((s.datums[d]).clk.now.toInt56 + ((625 * m * (s.datums[d]).clk.inc.toNat : Nat) : Int)) := by
  unfold State.synbRelock
  extract_lets k was tick before u v w
  have hsyns := State.relock_rest (p := .syns) (.inr rfl) v before was
  have hdatums := State.relock_rest (p := .datums) (.inl rfl) v before was
  constructor
  · rw [State.syns_of_val hsyns]
    simp [v, u]
  · intro d
    rw [State.datums_of_val hdatums]
    simp [v, u, k, Clock.leapBy_now]

theorem exec_synbRelock_waiting {s : State} (m : Nat) (hwait : s.synbWaits = true) :
    exec (.synbRelock m) s = .next { s.synbRelock m with pending := s.pending } :=
  congrArg Host.Outcome.next (if_pos hwait)

theorem synbRelock_completes {s u : State} {m : Nat} {P : State → Prop} (hwait : s.synbWaits = true)
    (hu : s.synbRelock m = u) (hP : P { u with pending := s.pending }) : Completes (.synbRelock m) s P := by
  refine ⟨_, exec_synbRelock_waiting m hwait, ?_⟩
  rw [hu]
  exact hP

theorem completes_of_doneCore {c : Instr} {s : State} {f : State → State} {t : State} {P : State → Prop}
    (hc : exec c s = doneCore s f) (hup : s.coreUp = true) (hf : f s = t)
    (hP : P { t with
      pending := s.pending
      tick := if t.coreUp then s.tick else 0
      islandTick := if t.coreUp then s.islandTick else Vector.replicate 16 0
      ticking := s.ticking && t.ticking && t.coreUp }) : Completes c s P :=
  completes_of_done (hc.trans ((doneCore_up s f hup).trans (congrArg (done s) hf))) hP

theorem exec_synLol (y : Fin 9) (s : State) : exec (.synLol y) s = doneCore s fun s => s.lolDeclared y := rfl

theorem synLock_first_starts {s : State} (band : BitVec 6) (hup : s.coreUp = true)
    (hphase : (s.syns[(8 : Fin 9)]).phase = .locking) (hosc : s.oven.oscLost = false) :
    Completes (.synLock 8 band) s (fun t => t.tick = 0 ∧ t.ticking = true ∧ (∀ i : Fin 16, t.islandTick[i] = 0)
      ∧ (t.syns[(8 : Fin 9)]).phase = .locked ∧ (∀ d : Fin 8, (t.datums[d]).clk = Clock.reset)
      ∧ ∀ n : Fin 16, (t.loops[n]).tally = Clock.reset) := by
  obtain ⟨htick, hisl, hticking, -⟩ := s.synbLocks_clock band
  obtain ⟨hlocked, hclk, htally⟩ := s.synbLocks_state band
  generalize hu : s.synbLocks band = u at htick hisl hticking hlocked hclk htally
  exact synLock_first_completes ⟨hup, hphase, hosc⟩ hu
    ⟨htick, hticking, fun i => by simp [hisl], hlocked, hclk, htally⟩

theorem synLol_synb_stops {s : State} (hup : s.coreUp = true) (hphase : (s.syns[(8 : Fin 9)]).phase = .locked) :
    Completes (.synLol 8) s
      (fun t => t.ticking = false ∧ t.tick = s.tick ∧ (t.syns[(8 : Fin 9)]).phase = .regain) := by
  obtain ⟨hticking, hcore, hregain⟩ := s.synbLost_state
  have hlol : s.lolDeclared 8 = s.synbLost := by
    rw [State.lolDeclared, if_neg (not_not.mpr hphase), if_pos (by decide)]
  generalize s.synbLost = u at hticking hcore hregain hlol
  exact completes_of_doneCore (exec_synLol 8 s) hup hlol
    ⟨by simp [hticking], by simp [hcore, hup], hregain⟩

/-- What the relock completes with, from what its state is. -/
theorem synbRelock_resumes {s u : State} (m : Nat) (hwait : s.synbWaits = true) (hu : s.synbRelock m = u)
    (hclock : u.tick = s.tick + BitVec.ofNat 64 (625 * m)
      ∧ u.islandTick = Vector.replicate 16 (s.tick + BitVec.ofNat 64 (625 * m))
      ∧ u.ticking = true ∧ u.coreUp = s.coreUp)
    (hstate : (u.syns[(8 : Fin 9)]).phase = .locked
      ∧ ∀ d : Fin 8, (u.datums[d]).clk.now
        = Tm.ofInt56 ((s.datums[d]).clk.now.toInt56 + ((625 * m * (s.datums[d]).clk.inc.toNat : Nat) : Int))) :
    Completes (.synbRelock m) s (fun t => t.ticking = true ∧ t.tick = s.tick + BitVec.ofNat 64 (625 * m)
      ∧ (∀ i : Fin 16, t.islandTick[i] = s.tick + BitVec.ofNat 64 (625 * m))
      ∧ (t.syns[(8 : Fin 9)]).phase = .locked
      ∧ ∀ d : Fin 8, (t.datums[d]).clk.now
        = Tm.ofInt56 ((s.datums[d]).clk.now.toInt56 + ((625 * m * (s.datums[d]).clk.inc.toNat : Nat) : Int))) := by
  obtain ⟨htick, hisl, hticking, -⟩ := hclock
  obtain ⟨hlocked, hclk⟩ := hstate
  exact synbRelock_completes hwait hu ⟨hticking, htick, fun i => by simp [hisl], hlocked, hclk⟩

theorem State.synbWaits_of {s : State} (hup : s.coreUp = true) (htick : s.ticking = false)
    (hphase : (s.syns[(8 : Fin 9)]).phase = .regain) : s.synbWaits = true := by
  rw [State.synbWaits, hup, htick, hphase]
  decide

/-- Settles O18: the first lock, the loss and the relock of SYNB, each by the state it leaves. -/
theorem tickStartsAndStops : Obligations.TickStartsAndStops := by
  unfold Obligations.TickStartsAndStops
  exact ⟨fun _ band => synLock_first_starts band, fun _ => synLol_synb_stops, fun s m hup htick hphase =>
    synbRelock_resumes m (State.synbWaits_of hup htick hphase) rfl (s.synbRelock_clock m) (s.synbRelock_state m)⟩

end Sys2Proof.Machine

namespace Sys2Proof.Machine

/-! ## Oven loss stands through what the loops and the monitors do (R12, R13) -/

/-- What oven loss consists of: the loss itself, the standby clock, SYNB's pull-in. -/
def Oven.loss (o : Oven) : Bool × Bool × Bool := (o.oscLost, o.stbyRc, o.pullIn)

/-- Oven loss in a state. -/
@[simp] abbrev State.loss (s : State) : Bool × Bool × Bool := Oven.loss (s.val .oven)

theorem State.loss_ite (c : Prop) [Decidable c] (a b : State) :
    (if c then a else b).loss = if c then a.loss else b.loss :=
  apply_ite State.loss c a b

theorem State.loss_of_val {s t : State} (h : s.val .oven = t.val .oven) : s.loss = t.loss :=
  congrArg Oven.loss h

theorem State.loss_overFin {n : Nat} {f : Fin n → State → State} (hf : ∀ i s, (f i s).loss = s.loss) (s : State) :
    (overFin n s f).loss = s.loss := by
  unfold overFin
  induction List.finRange n generalizing s with
  | nil => rfl
  | cons i l ih => rw [List.foldl_cons, ih, hf]

/-- An oven update that leaves the loss as it is. -/
@[simp] theorem State.modOven_loss {f : Oven → Oven} (hf : ∀ o, (f o).loss = o.loss) (s : State) : (s.modOven f).loss = s.loss :=
  hf s.oven

@[simp] theorem State.modelSecond_loss (s : State) (n : Fin 16) (f : Int) : (s.modelSecond n f).loss = s.loss := by
  unfold State.modelSecond
  split
  · refine State.modOven_loss (fun o => ?_) s
    split <;> rfl
  · rfl

@[simp] theorem State.secondDone_loss (s : State) (n : Fin 16) : (s.secondDone n).loss = s.loss := by
  unfold State.secondDone
  dsimp only
  repeat' split
  all_goals simp

@[simp] theorem State.leaveSource_loss (s : State) (n : Fin 16) : (s.leaveSource n).loss = s.loss := by
  unfold State.leaveSource
  lift_lets
  extract_lets u l v w x
  have hv : v.loss = s.loss := (State.loss_of_val (State.modLoop_val (by decide) ..)).trans (State.secondDone_loss s n)
  have hx : x.val .oven = v.val .oven := by simp [x, w]
  simp [State.loss, State.val_ite, hx, hv]

@[simp] theorem State.loseSource_loss (s : State) (n : Fin 16) : (s.loseSource n).loss = s.loss := by
  simp [State.loseSource]

@[simp] theorem State.enterAcquire_loss (s : State) (n : Fin 16) : (s.enterAcquire n).loss = s.loss := by
  simp [State.enterAcquire, State.loss_ite]

@[simp] theorem State.mirrorSel_loss (s : State) (n : Fin 16) : (s.mirrorSel n).loss = s.loss := by
  unfold State.mirrorSel
  lift_lets
  extract_lets l m q moved fs u v
  have hu : u.val .oven = s.val .oven := State.modLoop_val (by decide) ..
  simp [State.loss_ite, hu]

@[simp] theorem State.abortSw_loss (s : State) (n : Fin 16) : (s.abortSw n).loss = s.loss := by
  simp [State.abortSw, State.loss_ite]

@[simp] theorem State.holdoffBack_loss (s : State) (n : Fin 16) : (s.holdoffBack n).loss = s.loss := by
  unfold State.holdoffBack
  split
  · simp [State.loss_ite]
  · rfl

@[simp] theorem State.sourceChanged_loss (s : State) (src : Fin 96) (wasQ : Bool) :
    (s.sourceChanged src wasQ).loss = s.loss := by
  unfold State.sourceChanged
  lift_lets
  extract_lets isQ isLow
  refine State.loss_overFin (fun n u => ?_) _
  lift_lets
  extract_lets l v w l'
  have hv : v.val .oven = u.val .oven := by simp [v, State.val_ite]
  have hw : w.loss = u.loss := by
    simp only [w]
    split <;> simp [State.loss_ite, hv]
  simp [State.loss_ite, hv, hw]

@[simp] theorem State.settleOff_loss (s : State) (src : Fin 96) : (s.settleOff src).loss = s.loss := by
  unfold State.settleOff
  split
  · exact State.modOven_loss (fun _ => rfl) s
  · rfl

@[simp] theorem State.setQ_loss (s : State) (src : Fin 96) (q : QState) (cause : Nat) :
    (s.setQ src q cause).loss = s.loss := by
  unfold State.setQ
  lift_lets
  extract_lets old o u v wtr x now w
  have hu : u.val .oven = s.val .oven := State.modSlot_val (by decide) ..
  have hv : v.loss = s.loss := by simp [v, State.loss_ite, hu]
  have hw : w.loss = s.loss := by
    simp only [w]
    cases q <;> simp [hv]
  simp [State.loss_ite, hw]

@[simp] theorem State.evalQ1_loss (s : State) (src : Fin 96) : (s.evalQ1 src).loss = s.loss := by
  unfold State.evalQ1
  extract_lets x
  cases x.qstate
  · rfl
  · cases s.hardAlarm src <;> simp [State.loss_ite]
  · cases s.hardAlarm src <;> cases x.wtrAt <;> simp [State.loss_ite]
  · cases s.hardAlarm src <;> simp [State.loss_ite]
  · rfl

@[simp] theorem State.setAlarms_loss (s : State) (src : Fin 96) (a : Alarms) : (s.setAlarms src a).loss = s.loss := by
  unfold State.setAlarms
  lift_lets
  extract_lets x risen b fell u u0 u1 u2 u3 v
  have hu : u3.val .oven = s.val .oven := by simp [u3, u2, u1, u0, u]
  have hv : v.loss = u3.loss := by
    simp only [v]
    split
    · exact State.modOven_loss (fun _ => rfl) u3
    · rfl
  simp [State.evalQ, hv, hu]

@[simp] theorem State.cascadeLos_loss (s : State) (y : Fin 9) : (s.cascadeLos y).loss = s.loss := by
  unfold State.cascadeLos
  split
  · simp [State.setLos, State.loss_ite]
  · rfl

@[simp] theorem State.startLock_loss (s : State) (y : Fin 9) : (s.startLock y).loss = s.loss := by
  unfold State.startLock
  rw [State.loss_ite]
  split
  · simp
  · generalize s.lockPath y = path
    obtain ⟨k, n0⟩ := path
    dsimp only
    rw [State.loss_of_val (State.refresh_val (by decide) _), State.loss_of_val (State.restartFed_val (by decide) _ _),
      State.cascadeLos_loss, State.loss_ite]
    simp

@[simp] theorem State.loseLock_loss (s : State) (y : Fin 9) : (s.loseLock y).loss = s.loss := by
  simp [State.loseLock]

@[simp] theorem State.holdSyn_loss (s : State) (y : Fin 9) : (s.holdSyn y).loss = s.loss := by
  unfold State.holdSyn
  split <;> simp [State.loss_ite]

@[simp] theorem State.loopsOscLost_loss (s : State) : s.loopsOscLost.loss = s.loss := by
  unfold State.loopsOscLost
  exact State.loss_overFin (fun n s => by simp [State.loss_ite]) s

end Sys2Proof.Machine

namespace Sys2Proof.Machine

/-! ## Oven loss and its end (R12, R13, R70, R147) -/

theorem State.loss_iff {s : State} {a b c : Bool} :
    s.loss = (a, b, c) ↔ s.oven.oscLost = a ∧ s.oven.stbyRc = b ∧ s.oven.pullIn = c := by
  simp [Oven.loss, State.val]

theorem State.coreUp_of_val {s t : State} (h : s.val .clock = t.val .clock) : s.coreUp = t.coreUp :=
  (State.clock_of_val h).2.1

theorem State.oven_of_val {s t : State} (h : s.val .oven = t.val .oven) : s.oven = t.oven := h

/-- Oven loss: it stands, the settle detector begins anew, and no datum is traceable. -/
theorem State.ovenLost_state (s : State) :
    s.ovenLost.loss = (true, s.oven.stbyRc, false) ∧ s.ovenLost.oven.settled = false
      ∧ ∀ d : Fin 8, (s.ovenLost.datums[d]).traceable = false := by
  unfold State.ovenLost
  extract_lets u v w x y
  have hu : u.loss = (true, s.oven.stbyRc, false) := rfl
  have hv : v.loss = u.loss := State.loss_of_val (State.raise_val ..)
  have hw : w.loss = v.loss := State.loss_overFin (fun y s => State.holdSyn_loss s y) v
  have hx : x.loss = w.loss := State.loopsOscLost_loss w
  have hy : y.loss = x.loss := State.loss_of_val (State.withDatums_val (by decide) x _)
  have hyd : ∀ d : Fin 8, (y.datums[d]).traceable = false := fun d => by simp [y]
  clear_value y
  have hoven : y.settleRestart.refresh.oven = y.settleRestart.oven :=
    State.oven_of_val (State.refresh_val (by decide) _)
  have hdatums : y.settleRestart.refresh.datums = y.datums :=
    (State.datums_of_val (State.refresh_val (by decide) y.settleRestart)).trans (State.modOven_datums y _)
  refine ⟨?_, ?_, fun d => ?_⟩
  · have hrest : y.settleRestart.loss = y.loss := State.modOven_loss (fun _ => rfl) y
    exact (State.loss_of_val (State.refresh_val (by decide) _)).trans
      (hrest.trans (hy.trans (hx.trans (hw.trans (hv.trans hu)))))
  · rw [hoven]
    rfl
  · rw [hdatums]
    exact hyd d

theorem State.noteWarm_loss (s : State) : s.noteWarm.loss = s.loss := by
  unfold State.noteWarm
  split
  · exact State.modOven_loss (fun _ => rfl) s
  · rfl

/-- The end of oven loss. -/
theorem State.ovenBack_loss (s : State) : s.ovenBack.oven.oscLost = false ∧ s.ovenBack.oven.stbyRc = s.oven.stbyRc := by
  unfold State.ovenBack
  extract_lets us u v
  have hu : u.loss = (false, s.oven.stbyRc, decide ((s.syns[8]).phase = .holding)) := by
    simp only [u, State.noteWarm_loss]
    rfl
  have hloss : (overFin 8 v fun y s => if s.insvc (synIx y) then s.startLock (synIx y) else s).loss
      = (false, s.oven.stbyRc, decide ((s.syns[8]).phase = .holding)) := by
    rw [State.loss_overFin (fun y s => by simp [State.loss_ite]) v, ← hu]
    exact State.loss_of_val (State.raise_val ..)
  obtain ⟨hlost, hrc, -⟩ := State.loss_iff.mp hloss
  exact ⟨hlost, hrc⟩

theorem State.oscGone_core {s : State} (hup : s.coreUp = true) (hlost : s.oven.oscLost = false) :
    s.oscGone = (s.modOven (fun o => { o with stbyRc := true })).ovenLost := by
  unfold State.oscGone
  extract_lets u
  rw [if_neg (by simp [u, hlost]), if_pos (by simp [u, hup])]

theorem State.oscGone_spec (s : State) : s.oscGone.oven.stbyRc = true ∧ (s.coreUp = true → s.oscGone.oven.oscLost = true)
    ∧ (s.coreUp = true → s.oven.oscLost = false →
      s.oscGone.oven.settled = false ∧ ∀ d : Fin 8, (s.oscGone.datums[d]).traceable = false) := by
  cases hlost : s.oven.oscLost
  case true =>
    have hgone : s.oscGone = s.modOven (fun o => { o with stbyRc := true }) := if_pos hlost
    rw [hgone]
    exact ⟨rfl, fun _ => hlost, fun _ h => absurd h (by decide)⟩
  case false =>
    cases hup : s.coreUp
    case false =>
      have hgone : s.oscGone
          = (s.modOven (fun o => { o with stbyRc := true })).modOven (fun o => { o with oscLost := true, lostAt := s.tick }) := by
        unfold State.oscGone
        extract_lets u
        rw [if_neg (by simp [u, hlost]), if_neg (by simp [u, hup])]
        rfl
      rw [hgone]
      exact ⟨rfl, fun h => absurd h (by decide), fun h => absurd h (by decide)⟩
    case true =>
      rw [State.oscGone_core hup hlost]
      obtain ⟨hloss, hsettled, htrace⟩ := (s.modOven (fun o => { o with stbyRc := true })).ovenLost_state
      obtain ⟨hosc, hrc, -⟩ := State.loss_iff.mp hloss
      exact ⟨hrc, fun _ => hosc, fun _ _ => ⟨hsettled, htrace⟩⟩

theorem State.oscReturns_spec {s : State} (hrc : s.oven.stbyRc = true) :
    s.oscReturns.oven.stbyRc = false ∧ (s.coreUp = true → s.oscReturns.oven.oscLost = false) := by
  unfold State.oscReturns
  extract_lets u
  have hu : u.oven.stbyRc = false := rfl
  have hup : u.coreUp = s.coreUp := rfl
  have hlost : u.oven.oscLost = s.oven.oscLost := rfl
  rw [if_neg (by simp [hrc])]
  clear_value u
  split
  · next h => exact ⟨hu, fun _ => h⟩
  · split
    · obtain ⟨hosc, hstby⟩ := u.ovenBack_loss
      exact ⟨hstby.trans hu, fun _ => hosc⟩
    · next h => exact ⟨hu, fun hs => absurd (hup.trans hs) h⟩

/-- SYNB pulls in, or loses its lock. -/
theorem State.pullInEnds_of {s : State} (hpull : s.oven.pullIn = true) (hphase : (s.syns[(8 : Fin 9)]).phase = .holding)
    (locked : Bool) : s.pullInEnds locked
      = if locked then (s.modOven (fun o => { o with pullIn := false })).modSyn 8 (fun q => { q with phase := .locked })
        else (s.modOven (fun o => { o with pullIn := false })).synbLost := by
  have hwait : ¬ (s.oven.pullIn = false ∨ (s.syns[(8 : Fin 9)]).phase ≠ .holding) := by simp only [hpull, hphase]; decide
  exact if_neg hwait

theorem State.synbLost_loss (s : State) : s.synbLost.loss = s.loss := by
  have hstop := State.loss_of_val (State.stopTick_val (by decide) (s.loseLock 8))
  exact hstop.trans (State.loseLock_loss s 8)

end Sys2Proof.Machine

namespace Sys2Proof.Machine

/-! ## Registers of states that hold the same words -/

theorem State.r_of_regs {s t : State} (h : s.regs = t.regs) (b : Block) (i o : Nat) : s.r b i o = t.r b i o := by
  rw [State.r, State.r, State.reg, State.reg, h]

theorem State.rf_of_regs {s t : State} (h : s.regs = t.regs) (b : Block) (i o hi lo : Nat) :
    s.rf b i o hi lo = t.rf b i o hi lo := by
  rw [State.rf, State.rf, State.r_of_regs h]

theorem ite_decide_eq (c : Prop) [Decidable c] (a b : Nat) : (if decide c = true then a else b) = if c then a else b := by
  simp only [decide_eq_true_eq]

/-! ## The oven's pin and the settle detector (R70, R71, R132) -/

theorem State.noteWarm_settle (s : State) : s.noteWarm.oven = { s.oven with everWarm := s.noteWarm.oven.everWarm } := by
  unfold State.noteWarm
  split <;> rfl

/-- A core that is up answers a command that changes nothing, or the oven alone, with the state itself. -/
theorem doneCore_next {s : State} {f : State → State} (hup : s.coreUp = true) (g : Oven → Oven)
    (hf : f s = s.modOven g) : doneCore s f = .next (s.modOven g) := by
  rw [doneCore_up s f hup, hf]
  exact done_eq_next rfl rfl rfl rfl hup

theorem doneCore_same {s : State} {f : State → State} (hup : s.coreUp = true) (hf : f s = s) : doneCore s f = .next s := by
  rw [doneCore_up s f hup, hf]
  exact done_eq_next rfl rfl rfl rfl hup

theorem State.ovenCold_debounced (s : State) : s.ovenCold.oven.debounced = s.oven.debounced := by
  unfold State.ovenCold
  extract_lets u
  have hest : (overFin 16 u fun n s => s.clearEst n).val .oven = u.val .oven :=
    State.val_overFin (fun n s => State.clearEst_val (by decide) s n) u
  have hu : u.val .oven = (s.modOven (fun o => { o with everWarm := false })).settleRestart.val .oven :=
    State.raise_val ..
  rw [State.oven_of_val (hest.trans hu)]
  rfl

/-- The debounced level once the pin has stood. -/
theorem State.debounce_debounced {s : State} (h : s.pinSteady = true) : s.debounce.oven.debounced = s.pinActive := by
  unfold State.debounce
  extract_lets a u
  have hu : u.oven.debounced = a := rfl
  split
  · next hsame => exact (hsame.resolve_right (by simp [h])).symm
  · clear_value u
    split
    · exact hu
    · split
      · rw [State.noteWarm_settle]
        exact hu
      · split
        · exact u.ovenCold_debounced.trans hu
        · exact hu

theorem State.debounce_waits {s : State} {k : DWord} (hk : s.oven.pinAt = some k)
    (h : s.passed k (10 * msTicks) = false) : s.debounce = s := by
  have hsteady : s.pinSteady = false := by simp only [State.pinSteady, hk, h]
  exact if_pos (.inr hsteady)

/-- The settle timer declares the oven settled. -/
theorem State.settleTimer_settled {s : State} (hpin : s.oven.debounced = true) (hset : s.oven.settled = false)
    (hpast : s.passed s.oven.tmoFrom (s.rf .device 0 0x0C 15 0 * secTicks) = true) : s.settleTimer.oven.settled = true := by
  unfold State.settleTimer
  extract_lets o
  rw [if_pos (by simp only [o, hpin, hset, hpast]; decide), State.noteWarm_settle]
  rfl

theorem State.settleTimer_regs (s : State) : s.settleTimer.regs = s.regs := by
  unfold State.settleTimer State.noteWarm
  extract_lets o
  split
  · split <;> rfl
  · rfl

theorem State.settleSet_regs (s : State) (old new : Word) : (s.settleSet old new).regs = s.regs := by
  unfold State.settleSet
  split
  · exact s.settleTimer_regs
  · exact State.settleTimer_regs _

/-! ## The gate of the settle detector -/

/-- A spoiled gate ends the count. -/
theorem State.settleGate_spoiled {s : State} {w : Fin 96} (hw : s.witness = some w) (hset : s.oven.settled = false)
    (hpast : s.passed s.oven.gate.start (16 * secTicks) = true)
    (hbad : s.oven.spoiled = true ∨ (s.slots[w]).act = true ∨ (s.slots[w]).los = true) :
    s.settleGate w = (s.modOven (fun o => { o with count := 0, prev := none })).nextGate none := by
  have hnot : ¬ (s.oven.settled = true ∨ s.passed s.oven.gate.start (16 * secTicks) = false) := by simp [hset, hpast]
  have hbad' : (s.oven.spoiled || (s.slots[w]).act || (s.slots[w]).los) = true := by
    simpa only [Bool.or_eq_true, or_assoc] using hbad
  rw [State.settleGate, if_neg (not_not.mpr hw)]
  dsimp only
  rw [if_neg hnot, if_pos hbad']

/-- A complete gate gives its reading. -/
theorem State.settleGate_reads {s : State} {w : Fin 96} {v : Int} (hw : s.witness = some w) (hset : s.oven.settled = false)
    (hpast : s.passed s.oven.gate.start (16 * secTicks) = true) (hgood : s.oven.spoiled = false)
    (hact : (s.slots[w]).act = false) (hlos : (s.slots[w]).los = false) (hv : s.settleValue w = some v) :
    s.settleGate w
      = (s.nextGate (s.oven.gate.last.map (fun e => (e.1, e.2.1, s.nomFreq w)))).settleReading v := by
  have hnot : ¬ (s.oven.settled = true ∨ s.passed s.oven.gate.start (16 * secTicks) = false) := by simp [hset, hpast]
  have hbad : ¬ (s.oven.spoiled || (s.slots[w]).act || (s.slots[w]).los) = true := by rw [hgood, hact, hlos]; decide
  rw [State.settleGate, if_neg (not_not.mpr hw)]
  dsimp only
  rw [if_neg hnot, if_neg hbad, hv]

theorem State.settleGate_idle {s : State} {w : Fin 96}
    (h : s.witness ≠ some w ∨ s.oven.settled = true ∨ s.passed s.oven.gate.start (16 * secTicks) = false) :
    s.settleGate w = s := by
  unfold State.settleGate
  by_cases hw : s.witness = some w
  · rw [if_neg (not_not.mpr hw)]
    exact if_pos (h.resolve_left (not_not.mpr hw))
  · exact if_pos hw

/-- The first reading is the reference. -/
theorem State.settleReading_first {s : State} (v : Int) (h : s.oven.prev = none) :
    s.settleReading v = s.modOven (fun o => { o with prev := some v }) := by
  simp only [State.settleReading, h]

/-- The count of quiet gates after a reading. -/
def State.quietCount (s : State) (u v : Int) : Nat :=
  if (v - u).natAbs < (s.r .device 0 0x10).toNat * 2 ^ 32 then s.oven.count + 1 else 0

/-- The detector with a reading and its count. -/
def State.judged (s : State) (v : Int) (n : Nat) : State :=
  s.modOven (fun o => { o with prev := some v, count := n })

/-- The detector after its judgement: settled once the count has reached what is required. -/
def State.settledAt (s : State) (v : Int) (n required : Nat) : State :=
  if n ≥ required then ((s.judged v n).modOven (fun o => { o with settled := true })).noteWarm else s.judged v n

theorem State.settledAt_spec {s : State} (v : Int) (n required : Nat) (hset : s.oven.settled = false) :
    (s.settledAt v n required).oven.prev = some v ∧ (s.settledAt v n required).oven.count = n
      ∧ ((s.settledAt v n required).oven.settled = true ↔ required ≤ n) := by
  unfold State.settledAt
  split
  · next hn =>
    rw [State.noteWarm_settle]
    exact ⟨rfl, rfl, fun _ => hn, fun _ => rfl⟩
  · next hn => exact ⟨rfl, rfl, fun ht => absurd (hset.symm.trans ht) (by decide), fun ht => absurd ht hn⟩

/-- A reading is compared with the one before it. -/
theorem State.settleReading_eq {s : State} {u : Int} (v : Int) (h : s.oven.prev = some u) :
    s.settleReading v = s.settledAt v (s.quietCount u v) (Nat.max 1 (s.rf .device 0 0x0C 23 16)) := by
  unfold State.settleReading
  split
  · next hnone => exact absurd (h.symm.trans hnone) (by simp)
  · next u' hu =>
    obtain rfl : u = u' := Option.some.inj (h.symm.trans hu)
    extract_lets quiet n t
    have hn : n = s.quietCount u v := ite_decide_eq _ _ _
    have hrf : t.rf .device 0 0x0C 23 16 = s.rf .device 0 0x0C 23 16 := State.rf_of_regs (State.modOven_regs s _) ..
    have ht : t = s.judged v n := rfl
    rw [hrf, ht, hn, State.settledAt]

/-- A command of the REF island, while it and the core are up. -/
theorem completes_of_doneRef {c : Instr} {s t : State} {f : State → State} {P : State → Prop}
    (hc : exec c s = doneRef s f) (hup : s.coreUp = true) (href : s.refUp = true) (hf : f s = t)
    (hP : P { t with
      pending := s.pending
      tick := if t.coreUp then s.tick else 0
      islandTick := if t.coreUp then s.islandTick else Vector.replicate 16 0
      ticking := s.ticking && t.ticking && t.coreUp }) : Completes c s P :=
  completes_of_doneCore hc hup ((if_pos href).trans hf) hP

end Sys2Proof.Machine

namespace Sys2Proof.Machine

/-! ## A keeper's write of a register whose every bit is written -/

/-- A register of one word whose every bit a keeper writes. -/
def Place.keeperWord (pl : Place) : Bool :=
  pl.listed && pl.wideAt.isNone && (pl.reg.rw ||| pl.reg.rwk == 0xFFFFFFFF) && !pl.ofPath

theorem State.store_keeperWord {s : State} {w : Wr} {pl : Place} (hpl : w.pl = pl) (hr : pl.keeperWord = true) :
    s.store w = s.wr pl.blk pl.inst pl.off w.new := by
  simp only [Place.keeperWord, Bool.and_eq_true, beq_iff_eq] at hr
  obtain ⟨⟨-, hbits⟩, -⟩ := hr
  rw [State.store, hpl, hbits, mix_all]

/-- The command that writes such a register is the register's effect with the word written. -/
theorem regAccess_keeperWord {s : State} {p : Path} {b : Block} {i o : Nat} (v : Word) (hk : s.keeps p b i o = true)
    (hp : placeOf (key b i o) = some ⟨b, i, o⟩) (hr : (⟨b, i, o⟩ : Place).keeperWord = true) :
    ∃ w : Wr, w.p = p ∧ w.pl = ⟨b, i, o⟩ ∧ w.new = v ∧ regAccess s p b i o v = done s (s.writeAt w) := by
  simp only [State.keeps, State.reaches, Bool.and_eq_true, Bool.not_eq_true'] at hk
  obtain ⟨⟨⟨hc, he⟩, hd⟩, hkeep⟩ := hk
  simp only [Place.keeperWord, Bool.and_eq_true, beq_iff_eq, Bool.not_eq_true', Option.isNone_iff_eq_none] at hr
  obtain ⟨⟨⟨hl, hw⟩, hbits⟩, hb⟩ := hr
  have hwritable : (⟨b, i, o⟩ : Place).writable true = 0xFFFFFFFF := hbits
  refine ⟨_, rfl, rfl, ?_, (regAccess_eq v hc he hp hb).trans
    (congrArg (done s) (State.placeWrite_eq_writeAt hl hd (.inl hkeep) hw (.inl ?_)))⟩
  · rw [hkeep, hwritable, mix_all]
  · rw [hkeep, hwritable]
    decide

theorem settle_place : ∀ o ∈ [0x0C, 0x10], placeOf (key .device 0 o) = some ⟨.device, 0, o⟩
    ∧ (⟨.device, 0, o⟩ : Place).keeperWord = true := by
  decide

/-! ## The clauses of oven loss (R12, R13, R147) -/

theorem oscLost_completes (s : State) : Completes .oscLost s (fun t => t.oven.stbyRc = true
    ∧ (s.coreUp = true → t.oven.oscLost = true)
    ∧ (s.coreUp = true → s.oven.oscLost = false →
      t.oven.settled = false ∧ ∀ d : Fin 8, (t.datums[d]).traceable = false)) :=
  completes_of_done rfl s.oscGone_spec

theorem oscBack_completes {s : State} (hrc : s.oven.stbyRc = true) :
    Completes .oscBack s (fun t => t.oven.stbyRc = false ∧ (s.coreUp = true → t.oven.oscLost = false)) :=
  completes_of_done rfl (State.oscReturns_spec hrc)

theorem exec_synbPullInEnd (locked : Bool) (s : State) :
    exec (.synbPullInEnd locked) s = doneCore s fun s => s.pullInEnds locked := rfl

theorem synbPullInEnd_locks {s : State} (hup : s.coreUp = true) (hpull : s.oven.pullIn = true)
    (hphase : (s.syns[(8 : Fin 9)]).phase = .holding) :
    Completes (.synbPullInEnd true) s (fun t => t.oven.pullIn = false ∧ (t.syns[(8 : Fin 9)]).phase = .locked
      ∧ t.ticking = s.ticking) := by
  refine completes_of_doneCore (exec_synbPullInEnd true s) hup (State.pullInEnds_of hpull hphase true) ?_
  exact ⟨rfl, by simp, by simp [hup]⟩

/-- What SYNB's failed pull-in leaves, from what its loss is. -/
theorem synbPullInEnd_loses_of {s u : State} (hup : s.coreUp = true) (hf : s.pullInEnds false = u)
    (hpull : u.oven.pullIn = false) (htick : u.ticking = false) :
    Completes (.synbPullInEnd false) s (fun t => t.oven.pullIn = false ∧ t.ticking = false) :=
  completes_of_doneCore (exec_synbPullInEnd false s) hup hf ⟨hpull, by simp [htick]⟩

theorem synbPullInEnd_loses {s : State} (hup : s.coreUp = true) (hpull : s.oven.pullIn = true)
    (hphase : (s.syns[(8 : Fin 9)]).phase = .holding) :
    Completes (.synbPullInEnd false) s (fun t => t.oven.pullIn = false ∧ t.ticking = false) := by
  have hloss := State.loss_iff.mp (s.modOven (fun o => { o with pullIn := false })).synbLost_loss
  obtain ⟨-, -, hpulled⟩ := hloss
  obtain ⟨hstopped, -, -⟩ := (s.modOven (fun o => { o with pullIn := false })).synbLost_state
  exact synbPullInEnd_loses_of hup (State.pullInEnds_of hpull hphase false) hpulled hstopped

/-! ## The clauses of the pin and the detector (R70, R71, R132) -/

theorem settleGateClose_completes {s t : State} {w : Fin 96} {P : State → Prop} (hup : s.coreUp = true)
    (href : s.refUp = true) (hf : s.settleGate w = t)
    (hP : P { t with
      pending := s.pending
      tick := if t.coreUp then s.tick else 0
      islandTick := if t.coreUp then s.islandTick else Vector.replicate 16 0
      ticking := s.ticking && t.ticking && t.coreUp }) : Completes (.settleGateClose w) s P :=
  completes_of_doneRef (f := fun s => s.settleGate w) rfl hup href hf hP

theorem settleGateClose_idle {s : State} {w : Fin 96} (hup : s.coreUp = true)
    (h : s.witness ≠ some w ∨ s.oven.settled = true ∨ s.passed s.oven.gate.start (16 * secTicks) = false) :
    exec (.settleGateClose w) s = .next s := by
  refine doneCore_same (f := fun s => if s.refUp then s.settleGate w else s) hup ?_
  rw [State.settleGate_idle h, ite_self]

/-- The reading of a gate that has its first and its last event. -/
theorem State.settleValue_of {s : State} {w : Fin 96} {a b : Int × Int} {nom m : Nat}
    (ha : s.oven.gate.first = some (a.1, a.2, nom)) (hb : s.oven.gate.last = some (b.1, b.2, m)) :
    s.settleValue w = some (freqOf (isPacket w) nom (s.srcDiv w) m a b) := by
  simp only [State.settleValue, ha, hb]

/-- A spoiled gate ends the count, and the next gate begins where it ended. -/
theorem settleGateClose_spoiled {s : State} {w : Fin 96} (hup : s.coreUp = true) (href : s.refUp = true)
    (hw : s.witness = some w) (hset : s.oven.settled = false)
    (hpast : s.passed s.oven.gate.start (16 * secTicks) = true)
    (hbad : s.oven.spoiled = true ∨ (s.slots[w]).act = true ∨ (s.slots[w]).los = true) :
    Completes (.settleGateClose w) s (fun t => t.oven.count = 0 ∧ t.oven.prev = none ∧ t.oven.settled = false
      ∧ t.oven.gate.start = s.oven.gate.start + BitVec.ofNat 64 (16 * secTicks)) :=
  settleGateClose_completes hup href (State.settleGate_spoiled hw hset hpast hbad) ⟨rfl, rfl, hset, rfl⟩

theorem State.nextGate_prev (s : State) (e : Option (Int × Int × Nat)) : (s.nextGate e).oven.prev = s.oven.prev := rfl

theorem State.nextGate_settled (s : State) (e : Option (Int × Int × Nat)) :
    (s.nextGate e).oven.settled = s.oven.settled := rfl

theorem State.nextGate_rf (s : State) (e : Option (Int × Int × Nat)) (b : Block) (i o hi lo : Nat) :
    (s.nextGate e).rf b i o hi lo = s.rf b i o hi lo :=
  State.rf_of_regs (State.modOven_regs s _) ..

theorem State.nextGate_quietCount (s : State) (e : Option (Int × Int × Nat)) (u v : Int) :
    (s.nextGate e).quietCount u v = s.quietCount u v := by
  have hcount : (s.nextGate e).oven.count = s.oven.count := rfl
  have hregs : (s.nextGate e).regs = s.regs := rfl
  rw [State.quietCount, State.quietCount, State.r_of_regs hregs, hcount]

/-- The state after a complete gate's reading, where there was one before. -/
theorem settleGateClose_next_of {s t : State} {w : Fin 96} {v : Int} {n required : Nat} (hup : s.coreUp = true)
    (href : s.refUp = true) (hf : s.settleGate w = t.settledAt v n required) (hset : t.oven.settled = false) :
    Completes (.settleGateClose w) s (fun t => t.oven.prev = some v ∧ t.oven.count = n
      ∧ (t.oven.settled = true ↔ required ≤ n)) :=
  settleGateClose_completes hup href hf (State.settledAt_spec v n required hset)

section
variable {s : State} {w : Fin 96} {v : Int} (hup : s.coreUp = true) (href : s.refUp = true)
  (hset : s.oven.settled = false)
  (hread : s.settleGate w = (s.nextGate (s.oven.gate.last.map (fun e => (e.1, e.2.1, s.nomFreq w)))).settleReading v)
include hup href hset hread

theorem settleGateClose_first {b : Int × Int} {m : Nat} (hb : s.oven.gate.last = some (b.1, b.2, m))
    (hprev : s.oven.prev = none) :
    Completes (.settleGateClose w) s (fun t => t.oven.prev = some v ∧ t.oven.count = s.oven.count
      ∧ t.oven.settled = false ∧ t.oven.gate.first = some (b.1, b.2, s.nomFreq w)) := by
  rw [State.settleReading_first v ((State.nextGate_prev s _).trans hprev), hb] at hread
  exact settleGateClose_completes hup href hread ⟨rfl, rfl, hset, rfl⟩

theorem settleGateClose_next {u : Int} (hprev : s.oven.prev = some u) :
    Completes (.settleGateClose w) s (fun t => t.oven.prev = some v ∧ t.oven.count = s.quietCount u v
      ∧ (t.oven.settled = true ↔ Nat.max 1 (s.rf .device 0 0x0C 23 16) ≤ s.quietCount u v)) := by
  rw [State.settleReading_eq v ((State.nextGate_prev s _).trans hprev), State.nextGate_quietCount,
    State.nextGate_rf] at hread
  exact settleGateClose_next_of hup href hread ((State.nextGate_settled s _).trans hset)

end

/-- The settle timer's expiry, and a loss of the temperature reading. -/
theorem settleTimeout_settles {s : State} (hup : s.coreUp = true) (hpin : s.oven.debounced = true)
    (hset : s.oven.settled = false)
    (hpast : s.passed s.oven.tmoFrom (s.rf .device 0 0x0C 15 0 * secTicks) = true) :
    Completes .settleTimeout s (fun t => t.oven.settled = true) :=
  completes_of_doneCore (f := fun s => s.settleTimer) rfl hup rfl (State.settleTimer_settled hpin hset hpast)

theorem exec_tempLostTimeout {s : State} (hup : s.coreUp = true) (hentry : s.ovenEntry.isSome = true)
    (hpast : s.passed s.oven.tempAt (10 * secTicks) = true) :
    exec .tempLostTimeout s = .next (s.modOven (fun o => { o with tempLost := true })) :=
  doneCore_next (f := fun s => s.tempLoss) hup _ (if_pos (by rw [hentry, hpast]; decide))

theorem settleWrite_slope {s : State} {p : Path} (v : Word) (hk : s.keeps p .device 0 0x10 = true) :
    exec (.settleWrite p true v) s = .next (s.wr .device 0 0x10 v) := by
  obtain ⟨hplace, hreg⟩ := settle_place 0x10 (by decide)
  obtain ⟨w, -, hpl, hnew, hw⟩ := regAccess_keeperWord v hk hplace hreg
  have hat : s.writeAt w = s.wr .device 0 0x10 v := by
    rw [← hnew, ← State.store_keeperWord hpl hreg]
    simp only [State.writeAt, State.writeDevice, hpl]
  refine hw.trans ?_
  have hup : s.coreUp = true := State.coreUp_of_keeps hk
  rw [hat]
  exact done_eq_next rfl rfl rfl rfl hup

theorem settleWrite_settle {s : State} {p : Path} (v : Word) (hk : s.keeps p .device 0 0x0C = true) :
    Completes (.settleWrite p false v) s (fun t => t.r .device 0 0x0C = v) := by
  obtain ⟨hplace, hreg⟩ := settle_place 0x0C (by decide)
  obtain ⟨w, -, hpl, hnew, hw⟩ := regAccess_keeperWord v hk hplace hreg
  have hat : s.writeAt w = (s.wr .device 0 0x0C v).settleSet w.old w.new := by
    rw [← hnew, ← State.store_keeperWord hpl hreg]
    simp only [State.writeAt, State.writeDevice, hpl]
  have hread : (s.writeAt w).r .device 0 0x0C = v := by
    rw [hat, State.r_of_regs (State.settleSet_regs ..)]
    exact State.setReg_same ..
  exact completes_of_done hw ((State.r_of_regs rfl ..).trans hread)

/-- Settles O1: each clause is the rule of its command. -/
theorem ovenLossReturnAndWarm : Obligations.OvenLossReturnAndWarm := by
  unfold Obligations.OvenLossReturnAndWarm
  refine ⟨⟨oscLost_completes, fun s => oscBack_completes, fun s hup hpull hphase =>
      ⟨synbPullInEnd_locks hup hpull hphase, synbPullInEnd_loses hup hpull hphase⟩⟩,
    fun s level hinv => done_eq_next_of_tickInv hinv rfl rfl rfl rfl rfl,
    fun s => ⟨fun hsteady => completes_of_done rfl (State.debounce_debounced hsteady), fun k hinv hk hwait => ?_⟩,
    fun s w hup href hw hset hpast => ⟨settleGateClose_spoiled hup href hw hset hpast,
      fun a b nom m v hgood hact hlos ha hb hv => ?_⟩,
    fun s w hup => settleGateClose_idle hup, fun s => settleTimeout_settles, fun s => exec_tempLostTimeout,
    fun s p v => settleWrite_slope v, fun s p v => settleWrite_settle v⟩
  · have hsame : exec .ovenWarmDebounced s = done s s := congrArg (done s) (State.debounce_waits hk hwait)
    exact hsame.trans (done_eq_next_of_tickInv hinv rfl rfl rfl rfl rfl)
  · have hread := State.settleGate_reads hw hset hpast hgood hact hlos (State.settleValue_of ha hb)
    rw [← hv] at hread
    exact ⟨settleGateClose_first hup href hset hread hb, fun u => settleGateClose_next hup href hset hread⟩

end Sys2Proof.Machine

/-! SUPPORT. PROOFS. The registers that the loss and the return of a source leave: those of the ports and of the pin multiplexer
among them. -/

namespace Sys2Proof.Machine

variable {k : Nat}

/-! ## The registers that a change of a source's qualification moves -/

/-- Besides a notice's: the count of refused swaps and the candidates of a loop. -/
def sourceKeys : List Nat :=
  noticeKeys ++ (List.finRange 16).map (fun n => key .loop n.val 0x18)
    ++ (List.finRange 16).flatMap (fun n => (List.finRange 16).map (fun i => key .loop n.val (0x90 + 4 * i.val)))

/-- The configurations of the PTP instances, which a port leaves. -/
def instanceKeys : List Nat :=
  (List.finRange 8).map (fun i => key .pte 0 (0x200 + 0x20 * i.val))

theorem noticeKeys_subset_sourceKeys (h : k ∉ sourceKeys) : k ∉ noticeKeys :=
  fun hk => h (by simp only [sourceKeys, List.append_assoc]; exact List.mem_append_left _ hk)

theorem ne_rejectKey (h : k ∉ sourceKeys) (n : Fin 16) : k ≠ key .loop n.val 0x18 :=
  fun hk => h (by simp only [sourceKeys, List.mem_append, List.mem_map, List.mem_finRange, true_and]; exact .inl (.inr ⟨n, hk.symm⟩))

theorem ne_candKey (h : k ∉ sourceKeys) (n i : Fin 16) : k ≠ key .loop n.val (0x90 + 4 * i.val) :=
  fun hk => h (by
    simp only [sourceKeys, List.mem_append, List.mem_flatMap, List.mem_map, List.mem_finRange, true_and]
    exact .inr ⟨n, i, hk.symm⟩)

theorem ne_instanceKey (h : k ∉ instanceKeys) (i : Fin 8) : k ≠ key .pte 0 (0x200 + 0x20 * i.val) :=
  fun hk => h (by simp only [instanceKeys, List.mem_map, List.mem_finRange, true_and]; exact ⟨i, hk.symm⟩)

theorem State.reg_of_regs {s t : State} (h : s.regs = t.regs) (k : Nat) : s.reg k = t.reg k := by
  rw [State.reg, State.reg, h]

theorem State.reg_ite (c : Prop) [Decidable c] (a b : State) :
    (if c then a else b).reg k = if c then a.reg k else b.reg k :=
  apply_ite (fun s => s.reg k) c a b

theorem State.reg_foldl {α : Type} {f : State → α → State} (hf : ∀ s x, (f s x).reg k = s.reg k) (l : List α) (s : State) :
    (l.foldl f s).reg k = s.reg k := by
  induction l generalizing s with
  | nil => rfl
  | cons x l ih => rw [List.foldl_cons, ih, hf]

theorem State.reg_overFin {n : Nat} {f : Fin n → State → State} (hf : ∀ i s, (f i s).reg k = s.reg k) (s : State) :
    (overFin n s f).reg k = s.reg k :=
  State.reg_foldl (fun s i => hf i s) _ s

@[simp] theorem State.reg_modDatum (s : State) (d : Fin 8) (f : Datum → Datum) : (s.modDatum d f).reg k = s.reg k := rfl
@[simp] theorem State.reg_modLoop (s : State) (n : Fin 16) (f : Loop → Loop) : (s.modLoop n f).reg k = s.reg k := rfl
@[simp] theorem State.reg_modSlot (s : State) (i : Fin 96) (f : Slot → Slot) : (s.modSlot i f).reg k = s.reg k := rfl
@[simp] theorem State.reg_modPort (s : State) (n : Fin 16) (f : Port → Port) : (s.modPort n f).reg k = s.reg k := rfl
@[simp] theorem State.reg_modReist (s : State) (n : Fin 16) (f : Reist → Reist) : (s.modReist n f).reg k = s.reg k := rfl
@[simp] theorem State.reg_modStream (s : State) (i : Fin 32) (f : Stream → Stream) : (s.modStream i f).reg k = s.reg k := rfl
@[simp] theorem State.reg_modOven (s : State) (f : Oven → Oven) : (s.modOven f).reg k = s.reg k := rfl
@[simp] theorem State.reg_rcSet (s : State) (b : Block) (i o : Nat) (v : Word) : (s.rcSet b i o v).reg k = s.reg k := rfl

@[simp] theorem State.reg_sendWord (s : State) (src : Fin 16) (dst : Dest) (pay : Pay) (take : Bool) :
    (s.sendWord src dst pay take).reg k = s.reg k := rfl

@[simp] theorem State.reg_emit (s : State) (e : Emission) : (s.emit e).reg k = s.reg k := rfl

@[simp] theorem State.reg_raise_source (h : k ∉ sourceKeys) (s : State) (id : Nat) (cls : BitVec 2) (code : Byte)
    (args : BitVec 64) : (s.raise id cls code args).reg k = s.reg k :=
  State.reg_raise (noticeKeys_subset_sourceKeys h) ..

@[simp] theorem State.reg_candPut (h : k ∉ sourceKeys) (s : State) (n i : Fin 16) (v : Word) :
    (s.candPut n i v).reg k = s.reg k :=
  State.reg_wr_other (ne_candKey h n i)

@[simp] theorem State.reg_leaveInstances (h : k ∉ instanceKeys) (s : State) (n : Fin 16) :
    (s.leaveInstances n).reg k = s.reg k := by
  unfold State.leaveInstances
  refine State.reg_overFin (fun i s => ?_) s
  dsimp only
  split
  · rfl
  · exact State.reg_wr_other (ne_instanceKey h i)

@[simp] theorem State.reg_qlRefreshPort (h : k ∉ sourceKeys) (s : State) (n : Fin 16) :
    (s.qlRefreshPort n).reg k = s.reg k := by
  simp [State.qlRefreshPort, State.reg_ite, h]

@[simp] theorem State.reg_qlRefresh (h : k ∉ sourceKeys) (s : State) :
    s.qlRefresh.reg k = s.reg k := by
  unfold State.qlRefresh
  refine State.reg_overFin (fun i s => ?_) _
  simp [h]

@[simp] theorem State.reg_issueWords (s : State) (n : Fin 16) (f : Int) :
    (s.issueWords n f).reg k = s.reg k := by
  unfold State.issueWords
  dsimp only
  repeat' split
  all_goals simp

@[simp] theorem State.reg_setTraceable (s : State) (n : Fin 16) (v : Bool) :
    (s.setTraceable n v).reg k = s.reg k := by
  unfold State.setTraceable
  refine State.reg_overFin (fun i s => ?_) _
  simp [State.reg_ite]

@[simp] theorem State.reg_loopCode (h : k ∉ sourceKeys) (s : State) (n : Fin 16) (c : LoopCode) :
    (s.loopCode n c).reg k = s.reg k := by
  unfold State.loopCode
  split <;> simp [State.reg_ite, h]

@[simp] theorem State.reg_setPbo (s : State) (n : Fin 16) (q : Int) :
    (s.setPbo n q).reg k = s.reg k := by
  unfold State.setPbo
  dsimp only
  split <;> simp [State.reg_ite]

@[simp] theorem State.reg_enterAcquire (h : k ∉ sourceKeys) (s : State) (n : Fin 16) :
    (s.enterAcquire n).reg k = s.reg k := by
  simp [State.enterAcquire, State.reg_ite, h]

@[simp] theorem State.reg_modelSecond (s : State) (n : Fin 16) (f : Int) :
    (s.modelSecond n f).reg k = s.reg k := by
  simp [State.modelSecond, State.reg_ite]

@[simp] theorem State.reg_secondDone (s : State) (n : Fin 16) :
    (s.secondDone n).reg k = s.reg k := by
  unfold State.secondDone
  dsimp only
  repeat' split
  all_goals simp

@[simp] theorem State.reg_leaveSource (h : k ∉ sourceKeys) (s : State) (n : Fin 16) :
    (s.leaveSource n).reg k = s.reg k := by
  unfold State.leaveSource
  lift_lets
  extract_lets u l v w x
  have hv : v.reg k = s.reg k := (State.reg_modLoop ..).trans (State.reg_secondDone ..)
  have hx : x.reg k = s.reg k := ((State.reg_modLoop ..).trans (State.reg_modLoop ..)).trans hv
  simp [State.reg_ite, hv, hx, h]

@[simp] theorem State.reg_loseSource (h : k ∉ sourceKeys) (s : State) (n : Fin 16) :
    (s.loseSource n).reg k = s.reg k := by
  unfold State.loseSource
  rw [State.reg_leaveSource h, State.reg_modLoop, State.reg_secondDone]

@[simp] theorem State.reg_mirrorSel (h : k ∉ sourceKeys) (s : State) (n : Fin 16) :
    (s.mirrorSel n).reg k = s.reg k := by
  unfold State.mirrorSel
  lift_lets
  extract_lets l m q moved fs u v
  have hu : u.reg k = s.reg k := State.reg_modLoop ..
  simp [State.reg_ite, hu, h]

@[simp] theorem State.reg_passConsumers (s : State) (n : Fin 16) :
    (s.passConsumers n).reg k = s.reg k := by
  simp [State.passConsumers]

@[simp] theorem State.reg_plannedHandover (s : State) (q : Fin 16) :
    (s.plannedHandover q).reg k = s.reg k := by
  simp [State.plannedHandover]

@[simp] theorem State.reg_twinSwap (h : k ∉ sourceKeys) (s : State) (n : Fin 16) :
    (s.twinSwap n).reg k = s.reg k := by
  simp [State.twinSwap, State.reg_ite, State.reg_count_other (ne_rejectKey h n)]

@[simp] theorem State.reg_swapPending (h : k ∉ sourceKeys) (s : State) (n : Fin 16) :
    (s.swapPending n).reg k = s.reg k := by
  simp [State.swapPending, State.reg_ite, h]

@[simp] theorem State.reg_clearBars (s : State) (n : Fin 16) (m : BitVec 96) :
    (s.clearBars n m).reg k = s.reg k := by
  simp [State.clearBars, State.reg_ite]

@[simp] theorem State.reg_candStore (h : k ∉ sourceKeys) (s : State) (n i : Fin 16) (v : Word) :
    (s.candStore n i v).reg k = s.reg k := by
  simp [State.candStore, h]

@[simp] theorem State.reg_releaseCands (h : k ∉ sourceKeys) (s : State) (n : Fin 16) :
    (s.releaseCands n).reg k = s.reg k := by
  have hput := State.reg_foldl (k := k) (f := fun (s : State) (x : Fin 16 × Word) => s.candStore n x.1 x.2)
    (fun s x => State.reg_candStore h ..)
  exact (hput _ _).trans (State.reg_modLoop ..)

@[simp] theorem State.reg_endSw (h : k ∉ sourceKeys) (s : State) (n : Fin 16) :
    (s.endSw n).reg k = s.reg k := by
  simp [State.endSw, h]

@[simp] theorem State.reg_abortSw (h : k ∉ sourceKeys) (s : State) (n : Fin 16) :
    (s.abortSw n).reg k = s.reg k := by
  unfold State.abortSw
  simp [State.reg_ite, h]

@[simp] theorem State.reg_holdoffBack (h : k ∉ sourceKeys) (s : State) (n : Fin 16) :
    (s.holdoffBack n).reg k = s.reg k := by
  unfold State.holdoffBack
  split
  · simp [State.reg_ite, h]
  · rfl

@[simp] theorem State.reg_sourceChanged (h : k ∉ sourceKeys) (s : State) (src : Fin 96) (wasQ : Bool) :
    (s.sourceChanged src wasQ).reg k = s.reg k := by
  unfold State.sourceChanged
  lift_lets
  extract_lets isQ isLow
  refine State.reg_overFin (fun n u => ?_) _
  lift_lets
  extract_lets l v w l'
  have hv : v.reg k = u.reg k := by simp [v, State.reg_ite]
  have hw : w.reg k = u.reg k := by
    simp only [w]
    split <;> simp [State.reg_ite, hv, h]
  simp [State.reg_ite, hv, hw, h]

@[simp] theorem State.reg_qualNotice (h : k ∉ sourceKeys) (s : State) (src : Fin 96) (oq nq : QState) (oo no_ : Nat) :
    (s.qualNotice src oq nq oo no_).reg k = s.reg k := by
  simp [State.qualNotice, h]

@[simp] theorem State.reg_settleOff (s : State) (src : Fin 96) :
    (s.settleOff src).reg k = s.reg k := by
  simp [State.settleOff, State.reg_ite]

@[simp] theorem State.reg_setQ (h : k ∉ sourceKeys) (s : State) (src : Fin 96) (q : QState) (cause : Nat) :
    (s.setQ src q cause).reg k = s.reg k := by
  unfold State.setQ
  lift_lets
  extract_lets old o u v wtr x now w
  have hu : u.reg k = s.reg k := State.reg_modSlot ..
  have hv : v.reg k = s.reg k := by simp [v, State.reg_ite, hu]
  have hw : w.reg k = s.reg k := by
    simp only [w]
    cases q <;> simp [hv]
  simp [State.reg_ite, hw, h]

@[simp] theorem State.reg_evalQ1 (h : k ∉ sourceKeys) (s : State) (src : Fin 96) :
    (s.evalQ1 src).reg k = s.reg k := by
  unfold State.evalQ1
  extract_lets x
  cases x.qstate
  · rfl
  · cases s.hardAlarm src <;> simp [State.reg_ite, h]
  · cases s.hardAlarm src <;> cases x.wtrAt <;> simp [State.reg_ite, h]
  · cases s.hardAlarm src <;> simp [State.reg_ite, h]
  · rfl

@[simp] theorem State.reg_evalQ (h : k ∉ sourceKeys) (s : State) (src : Fin 96) :
    (s.evalQ src).reg k = s.reg k := by
  simp [State.evalQ, h]

@[simp] theorem State.reg_refreshOrder (h : k ∉ sourceKeys) (s : State) (src : Fin 96) :
    (s.refreshOrder src).reg k = s.reg k := by
  unfold State.refreshOrder
  generalize s.orderOf src = o
  obtain ⟨o, mm⟩ := o
  extract_lets x
  simp [State.reg_ite, h]

@[simp] theorem State.reg_alarmEdge (h : k ∉ sourceKeys) (s : State) (src : Fin 96) (i : Nat) (old new : Bool) :
    (s.alarmEdge src i old new).reg k = s.reg k := by
  simp [State.alarmEdge, State.reg_ite, h]

@[simp] theorem State.reg_setAlarms (h : k ∉ sourceKeys) (s : State) (src : Fin 96) (a : Alarms) :
    (s.setAlarms src a).reg k = s.reg k := by
  unfold State.setAlarms
  lift_lets
  extract_lets x risen b fell u u0 u1 u2 u3 v
  have hu : u.reg k = s.reg k := State.reg_modSlot ..
  simp [v, u3, u2, u1, u0, State.reg_ite, hu, h]

@[simp] theorem State.reg_setLos (h : k ∉ sourceKeys) (s : State) (src : Fin 96) :
    (s.setLos src).reg k = s.reg k := by
  simp [State.setLos, State.reg_ite, h]

@[simp] theorem State.reg_newWindow (s : State) (i : Fin 32) (keepD : Bool) :
    (s.newWindow i keepD).reg k = s.reg k := by
  simp [State.newWindow]

@[simp] theorem State.reg_refreshStream (h : k ∉ sourceKeys) (s : State) (i : Fin 32) :
    (s.refreshStream i).reg k = s.reg k := by
  unfold State.refreshStream
  lift_lets
  extract_lets u on
  have hu : u.reg k = s.reg k := by simp [u, State.reg_ite]
  simp [State.reg_ite, hu, h]

@[simp] theorem State.reg_refreshStreams (h : k ∉ sourceKeys) (s : State) :
    s.refreshStreams.reg k = s.reg k := by
  unfold State.refreshStreams
  refine State.reg_overFin (fun i s => ?_) _
  simp [h]

@[simp] theorem State.reg_portNotice (h : k ∉ sourceKeys) (s : State) (n : Fin 16) (code : Byte) :
    (s.portNotice n code).reg k = s.reg k := by
  simp [State.portNotice, h]

@[simp] theorem State.reg_rotator (s : State) (n : Fin 16) :
    (s.rotator n).reg k = s.reg k := by
  simp [State.rotator]

@[simp] theorem State.reg_portRefresh (h : k ∉ sourceKeys) (s : State) (n : Fin 16) :
    (s.portRefresh n).reg k = s.reg k := by
  unfold State.portRefresh
  lift_lets
  extract_lets u
  rw [State.reg_overFin (fun i s => by simp [State.reg_ite, h])]
  simp [u, h]

@[simp] theorem State.reg_reistNotice (h : k ∉ sourceKeys) (s : State) (n : Fin 16) (code : Byte) (args : BitVec 64) :
    (s.reistNotice n code args).reg k = s.reg k := by
  simp [State.reistNotice, h]

@[simp] theorem State.reg_swapTo (h : k ∉ sourceKeys) (s : State) (n : Fin 16) :
    (s.swapTo n).reg k = s.reg k := by
  simp [State.swapTo, h]

@[simp] theorem State.reg_abortSurvey (h : k ∉ sourceKeys) (s : State) (n : Fin 16) :
    (s.abortSurvey n).reg k = s.reg k := by
  unfold State.abortSurvey
  lift_lets
  extract_lets r back kept u v
  have hu : u.reg k = s.reg k := by simp [u]
  simp [v, State.reg_ite, hu, h]

@[simp] theorem State.reg_portDown (h : k ∉ sourceKeys) (s : State) (n : Fin 16) :
    (s.portDown n).reg k = s.reg k := by
  unfold State.portDown
  lift_lets
  extract_lets up u v w x
  have hu : u.reg k = s.reg k := by simp [u, State.reg_ite, h]
  have hw : w.reg k = s.reg k := by simp [w, v, hu, h]
  simp [x, State.reg_ite, hw, h]

@[simp] theorem State.reg_portWritten (h : k ∉ sourceKeys) (hi : k ∉ instanceKeys) (s : State) (n : Fin 16) (old : Word) :
    (s.portWritten n old).reg k = s.reg k := by
  unfold State.portWritten
  lift_lets
  extract_lets new u v w
  have hu : u.reg k = s.reg k := by simp [u, State.reg_ite, h]
  have hv : v.reg k = s.reg k := by simp [v, State.reg_ite, hu, hi]
  simp [w, State.reg_ite, hv, h]

end Sys2Proof.Machine

/-! SUPPORT. PROOFS. A port's link, alignment and Reistica side through what takes note of it (R233, R243), and a slot's LOS through
the evaluation of its qualification (R75). -/

namespace Sys2Proof.Machine

/-! ## A port's line -/

/-- The line of a port: link, CDR, FEC, its Reistica side, its neighbour's rate. -/
def Port.line (q : Port) : Bool × Bool × Bool × Reist × Int := (q.link, q.cdr, q.fec, q.r, q.nrr)

/-- The line of a port among the ports. -/
def lineAt (v : Vector Port 16) (n : Fin 16) : Bool × Bool × Bool × Reist × Int := (v[n]).line

@[simp] abbrev State.line (s : State) (n : Fin 16) : Bool × Bool × Bool × Reist × Int := lineAt (s.val .ports) n

theorem State.line_eq (s : State) (n : Fin 16) : s.line n = (s.ports[n]).line := rfl

theorem State.line_ite (c : Prop) [Decidable c] (a b : State) (n : Fin 16) :
    (if c then a else b).line n = if c then a.line n else b.line n :=
  apply_ite (fun s => s.line n) c a b

theorem State.line_of_val {s t : State} (h : s.val .ports = t.val .ports) (n : Fin 16) : s.line n = t.line n :=
  congrArg (fun v => lineAt v n) h

theorem State.line_overFin {m : Nat} {f : Fin m → State → State} {n : Fin 16} (hf : ∀ i s, (f i s).line n = s.line n)
    (s : State) : (overFin m s f).line n = s.line n := by
  unfold overFin
  induction List.finRange m generalizing s with
  | nil => rfl
  | cons i l ih => rw [List.foldl_cons, ih, hf]

/-- A port update that leaves the line as it is. -/
@[simp] theorem State.modPort_line {f : Port → Port} (hf : ∀ q, (f q).line = q.line) (s : State) (m n : Fin 16) :
    (s.modPort m f).line n = s.line n := by
  rw [State.line_eq, State.line_eq]
  by_cases h : m = n
  · subst h
    simp [State.modPort, hf]
  · simp [State.modPort, Fin.val_ne_of_ne h]

@[simp] theorem State.qlRefreshPort_line (s : State) (m n : Fin 16) : (s.qlRefreshPort m).line n = s.line n := by
  unfold State.qlRefreshPort
  dsimp only
  generalize s.qlCode m = code
  obtain ⟨ssm, essm⟩ := code
  dsimp only
  rw [State.line_ite, State.line_ite, State.line_of_val (State.raise_val ..), State.line_of_val (State.emit_val ..),
    State.modPort_line, ite_self, ite_self]
  exact fun _ => rfl

@[simp] theorem State.qlRefresh_line (s : State) (n : Fin 16) : s.qlRefresh.line n = s.line n := by
  unfold State.qlRefresh
  exact State.line_overFin (fun m s => s.qlRefreshPort_line m n) s

@[simp] theorem State.rotator_line (s : State) (m n : Fin 16) : (s.rotator m).line n = s.line n := by
  unfold State.rotator
  extract_lets v
  refine State.modPort_line ?_ s m n
  exact fun _ => rfl

@[simp] theorem State.refreshOrder_line (s : State) (src : Fin 96) (n : Fin 16) :
    (s.refreshOrder src).line n = s.line n := by
  unfold State.refreshOrder
  generalize s.orderOf src = o
  obtain ⟨o, mm⟩ := o
  extract_lets x
  simp [State.line_ite]

@[simp] theorem State.refreshStream_line (s : State) (i : Fin 32) (n : Fin 16) : (s.refreshStream i).line n = s.line n := by
  unfold State.refreshStream
  lift_lets
  extract_lets u on
  have hu : u.val .ports = s.val .ports := by simp [u, State.val_ite]
  simp [State.line_ite, hu]

@[simp] theorem State.portRefresh_line (s : State) (m n : Fin 16) : (s.portRefresh m).line n = s.line n := by
  unfold State.portRefresh
  lift_lets
  extract_lets u
  have hu : u.line n = s.line n := by
    simp only [u, State.refreshOrder_line]
    exact State.line_overFin (fun i s => s.refreshStream_line i n) s
  exact (State.line_overFin (fun i s => by simp [State.line_ite]) u).trans hu

/-! ## A slot's LOS -/

/-- LOS of a slot among the slots. -/
def losAt (v : Vector Slot 96) (i : Fin 96) : Bool := (v[i]).los

@[simp] abbrev State.losOf (s : State) (i : Fin 96) : Bool := losAt (s.val .slots) i

theorem State.losOf_eq (s : State) (i : Fin 96) : s.losOf i = (s.slots[i]).los := rfl

theorem State.losOf_ite (c : Prop) [Decidable c] (a b : State) (i : Fin 96) :
    (if c then a else b).losOf i = if c then a.losOf i else b.losOf i :=
  apply_ite (fun s => s.losOf i) c a b

@[simp] theorem State.modSlot_losOf {f : Slot → Slot} (hf : ∀ y, (f y).los = y.los) (s : State) (j i : Fin 96) :
    (s.modSlot j f).losOf i = s.losOf i := by
  rw [State.losOf_eq, State.losOf_eq]
  by_cases h : j = i
  · subst h
    simp [State.modSlot, hf]
  · simp [State.modSlot, Fin.val_ne_of_ne h]

@[simp] theorem State.setQ_losOf (s : State) (src : Fin 96) (q : QState) (cause : Nat) (i : Fin 96) :
    (s.setQ src q cause).losOf i = s.losOf i := by
  unfold State.setQ
  lift_lets
  extract_lets old o u v wtr x now w
  have hu : u.losOf i = s.losOf i := by
    refine State.modSlot_losOf ?_ s src i
    exact fun _ => rfl
  have hv : v.losOf i = s.losOf i := by
    simp only [v, State.losOf_ite]
    split
    · exact (congrArg (fun y => losAt y i) (State.settleOff_val (by decide) u src)).trans hu
    · exact hu
  have hw : w.losOf i = s.losOf i := by
    simp only [w]
    cases q <;> simp [hv]
  simp [State.losOf_ite, hw]

@[simp] theorem State.evalQ1_losOf (s : State) (src i : Fin 96) : (s.evalQ1 src).losOf i = s.losOf i := by
  unfold State.evalQ1
  extract_lets x
  cases x.qstate
  · rfl
  · cases s.hardAlarm src <;> simp [State.losOf_ite]
  · cases s.hardAlarm src <;> cases x.wtrAt <;> simp [State.losOf_ite]
  · cases s.hardAlarm src <;> simp [State.losOf_ite]
  · rfl

@[simp] theorem State.evalQ_losOf (s : State) (src i : Fin 96) : (s.evalQ src).losOf i = s.losOf i := by
  simp [State.evalQ]

/-- The alarms are put as they are given, LOS as it is. -/
theorem State.setAlarms_losOf (s : State) (src : Fin 96) (a : Alarms) : (s.setAlarms src a).losOf src = a.los := by
  unfold State.setAlarms
  lift_lets
  extract_lets x risen b fell u u0 u1 u2 u3 v
  have hu : u.losOf src = a.los := by
    rw [State.losOf_eq]
    simp only [u, State.modSlot]
    split <;> split <;> simp [Slot.dropPhase, Slot.dropGates, b]
  have hv : v.val .slots = u.val .slots := by simp [v, u3, u2, u1, u0, State.val_ite]
  rw [State.evalQ_losOf]
  exact (congrArg (fun y => losAt y src) hv).trans hu

/-- The loss of a source that is not OFF. -/
theorem State.setLos_los {s : State} {src : Fin 96} (h : (s.slots[src]).qstate ≠ .off) :
    ((s.setLos src).slots[src]).los = true := by
  unfold State.setLos
  extract_lets y
  split
  · next hy => exact hy.resolve_left h
  · exact State.setAlarms_losOf s src _

end Sys2Proof.Machine

namespace Sys2Proof.Machine

/-! ## A keeper's write of a register of one word, in its writable bits -/

/-- A register of one word that a keeper writes in the bits of `mask`. -/
def Place.keeperBits (pl : Place) (mask : Word) : Bool :=
  pl.listed && pl.wideAt.isNone && (pl.reg.rw ||| pl.reg.rwk == mask) && !pl.ofPath

theorem mix_of_masked (mask old v : Word) : mix mask (old &&& mask) v = v &&& mask := by
  ext i hi
  cases h : mask[i] <;> simp [mix, h]

/-- The command that writes such a register is the register's effect, with the bits written. -/
theorem regAccess_keeperBits {s : State} {p : Path} {b : Block} {i o : Nat} {mask : Word} (v : Word)
    (hk : s.keeps p b i o = true) (hp : placeOf (key b i o) = some ⟨b, i, o⟩)
    (hr : (⟨b, i, o⟩ : Place).keeperBits mask = true) (hmask : mask ≠ 0) :
    ∃ w : Wr, w.p = p ∧ w.pl = ⟨b, i, o⟩ ∧ w.new = v &&& mask ∧ regAccess s p b i o v = done s (s.writeAt w) := by
  simp only [State.keeps, State.reaches, Bool.and_eq_true, Bool.not_eq_true'] at hk
  obtain ⟨⟨⟨hc, he⟩, hd⟩, hkeep⟩ := hk
  simp only [Place.keeperBits, Bool.and_eq_true, beq_iff_eq, Bool.not_eq_true', Option.isNone_iff_eq_none] at hr
  obtain ⟨⟨⟨hl, hw⟩, hbits⟩, hb⟩ := hr
  have hwritable : (⟨b, i, o⟩ : Place).writable true = mask := hbits
  refine ⟨_, rfl, rfl, ?_, (regAccess_eq v hc he hp hb).trans
    (congrArg (done s) (State.placeWrite_eq_writeAt hl hd (.inl hkeep) hw (.inl ?_)))⟩
  · dsimp only
    rw [hkeep, hwritable, hbits, mix_of_masked]
  · rw [hkeep, hwritable]
    exact hmask

/-- What such a write stores, in its bits. -/
theorem State.store_keeperBits {s : State} {w : Wr} {pl : Place} {mask v : Word} (hpl : w.pl = pl)
    (hr : pl.keeperBits mask = true) (hnew : w.new = v &&& mask) :
    (s.store w).r pl.blk pl.inst pl.off &&& mask = v &&& mask := by
  simp only [Place.keeperBits, Bool.and_eq_true, beq_iff_eq] at hr
  obtain ⟨⟨-, hbits⟩, -⟩ := hr
  have hread : (s.store w).r pl.blk pl.inst pl.off = mix mask (s.r pl.blk pl.inst pl.off) (v &&& mask) := by
    rw [State.store, hpl, hbits, hnew]
    exact State.setReg_same ..
  rw [hread, mix_and_mask, BitVec.and_assoc, BitVec.and_self]

theorem portCfg_place : ∀ n : Fin 16, placeOf (key .port n.val 0) = some ⟨.port, n.val, 0⟩
    ∧ (⟨.port, n.val, 0⟩ : Place).keeperBits 0xFFFF8000 = true := by
  decide

theorem svinMap_place : ∀ i : Fin 24, placeOf (key .pinmux 0 (4 * i.val)) = some ⟨.pinmux, 0, 4 * i.val⟩
    ∧ (⟨.pinmux, 0, 4 * i.val⟩ : Place).keeperBits 0x800000FF = true := by
  decide

theorem portCfg_not_source : ∀ n : Fin 16, key .port n.val 0 ∉ sourceKeys := by
  decide

theorem portCfg_not_instance : ∀ n : Fin 16, key .port n.val 0 ∉ instanceKeys := by
  decide

theorem svinMap_not_source : ∀ i : Fin 24, key .pinmux 0 (4 * i.val) ∉ sourceKeys := by
  decide

/-! ## The configuration of a port (R232, R435) -/

theorem State.portWritten_reg (s : State) (n : Fin 16) (old : Word) :
    (s.portWritten n old).r .port n.val 0 = s.r .port n.val 0 :=
  State.reg_portWritten (portCfg_not_source n) (portCfg_not_instance n) s n old

theorem State.portDown_link (s : State) (n : Fin 16) : ((s.portDown n).ports[n]).link = false := by
  have hline : ((s.portDown n).line n).1 = false := by
    unfold State.portDown
    lift_lets
    extract_lets up u v w x
    have hv : (v.line n).1 = false := by
      rw [State.line_eq]
      simp [v, Port.line]
    have hx : x.line n = v.line n := by simp [x, w, State.line_ite]
    rw [State.portRefresh_line, hx]
    exact hv
  exact hline

/-- A change of MODE, RATE or FEC takes the link down. -/
theorem State.portWritten_line {s : State} {n : Fin 16} {old : Word} (h : bitsOf old 31 27 ≠ bitsOf (s.pcfg n) 31 27) :
    ((s.portWritten n old).ports[n]).link = false ∧ ((s.portWritten n old).ports[n]).cdr = false
      ∧ ((s.portWritten n old).ports[n]).fec = false := by
  have hline : (s.portWritten n old).line n
      = ((s.portDown n).modPort n (fun p => { p with cdr := false, fec := false })).line n := by
    unfold State.portWritten
    extract_lets new u v w
    have hu : u = (s.portDown n).modPort n (fun p => { p with cdr := false, fec := false }) := if_neg h
    rw [← hu]
    clear_value u
    simp [w, v, State.line_ite]
  have hdown := s.portDown_link n
  rw [State.line_eq, State.line_eq] at hline
  simp only [Port.line, Prod.mk.injEq] at hline
  obtain ⟨hlink, hcdr, hfec, -⟩ := hline
  exact ⟨hlink.trans (by simpa [State.modPort] using hdown), hcdr.trans (by simp [State.modPort]),
    hfec.trans (by simp [State.modPort])⟩

theorem State.pcfg_of_up {s : State} {n : Fin 16} (hup : s.blkUp (0x40 + n.val) = true) (hl : s.boot.sheet.lanes = true) :
    s.pcfg n = s.r .port n.val 0 := by
  rw [State.pcfg, hup, hl]
  rfl

theorem bitsOf_eq_extract (w : Word) (lo len : Nat) :
    bitsOf w (lo + len) lo = (w.extractLsb' lo (len + 1)).toNat := by
  rw [bitsOf, BitVec.extractLsb'_toNat, Nat.shiftRight_eq_div_pow, Nat.add_assoc, Nat.add_sub_cancel_left]

/-- A field inside a mask is what the masked word says. -/
theorem bitsOf_of_masked {a b mask : Word} (h : a &&& mask = b &&& mask) {lo len : Nat}
    (hm : mask.extractLsb' lo (len + 1) = BitVec.allOnes (len + 1)) : bitsOf a (lo + len) lo = bitsOf b (lo + len) lo := by
  have hfield : ∀ w : Word, (w &&& mask).extractLsb' lo (len + 1) = w.extractLsb' lo (len + 1) := fun w => by
    rw [BitVec.extractLsb'_and, hm, BitVec.and_allOnes]
  rw [bitsOf_eq_extract, bitsOf_eq_extract, ← hfield a, ← hfield b, h]

theorem State.reg_log {k : Nat} (hk : k ≠ key .archive 0 0x08) (s : State) (e : LogEntry) : (s.log e).reg k = s.reg k := by
  unfold State.log
  split
  · exact State.reg_count_other hk
  · rfl

theorem State.log_fm_boot (s : State) (e : LogEntry) : (s.log e).fm = s.fm ∧ (s.log e).boot = s.boot := by
  unfold State.log
  split <;> exact ⟨rfl, rfl⟩

theorem portCfg_not_lost : ∀ n : Fin 16, key .port n.val 0 ≠ key .archive 0 0x08 := by
  decide

/-- What the write of a port's CFG is: its word stored, a keeper's change logged, the port reconfigured. -/
theorem State.writeAt_portCfg {s : State} {w : Wr} {n : Fin 16} (hpl : w.pl = ⟨.port, n.val, 0⟩) :
    ∃ u : State, s.writeAt w = u.portWritten n (s.pcfg n) ∧ u.r .port n.val 0 = (s.store w).r .port n.val 0
      ∧ u.fm = s.fm ∧ u.boot = s.boot := by
  have hat : s.writeAt w = (if bitsOf (s.pcfg n) 31 27 = bitsOf ((s.store w).pcfg n) 31 27 then s.store w
      else (s.store w).keeperLog w).portWritten n (s.pcfg n) := by
    simp only [State.writeAt, State.writePort, hpl, finMod_val]
  rw [hat]
  split
  · exact ⟨_, rfl, rfl, rfl, rfl⟩
  · obtain ⟨hfm, hboot⟩ := (s.store w).log_fm_boot (.keeper w.pl.key)
    exact ⟨_, rfl, State.reg_log (portCfg_not_lost n) _ _, hfm, hboot⟩

theorem State.blkUp_of_fm {s t : State} (h : s.fm = t.fm) (b : Nat) : s.blkUp b = t.blkUp b := by
  unfold State.blkUp
  split
  · rw [h]
  · rfl

theorem State.portWritten_spec {s u : State} {n : Fin 16} {v : Word}
    (hbits : u.r .port n.val 0 &&& 0xFFFF8000 = v &&& 0xFFFF8000) (hfm : u.fm = s.fm) (hboot : u.boot = s.boot) :
    (u.portWritten n (s.pcfg n)).r .port n.val 0 &&& 0xFFFF8000 = v &&& 0xFFFF8000
      ∧ (s.blkUp (0x40 + n.val) = true → s.boot.sheet.lanes = true →
          bitsOf (s.r .port n.val 0) 31 27 ≠ bitsOf v 31 27 →
          ((u.portWritten n (s.pcfg n)).ports[n]).link = false ∧ ((u.portWritten n (s.pcfg n)).ports[n]).cdr = false
            ∧ ((u.portWritten n (s.pcfg n)).ports[n]).fec = false) := by
  refine ⟨by rw [u.portWritten_reg n _, hbits], fun hup hl hdiff => State.portWritten_line ?_⟩
  rw [State.pcfg_of_up hup hl, State.pcfg_of_up ((State.blkUp_of_fm hfm _).trans hup) (hboot ▸ hl),
    bitsOf_of_masked hbits (lo := 27) (len := 4) (by decide)]
  exact hdiff

/-- A command that ends in a state whose registers and ports are those of `t`. -/
theorem completes_port {c : Instr} {s t : State} {n : Fin 16} {A : Word → Prop} {B : Port → Prop}
    (hc : exec c s = done s t) (hA : A (t.r .port n.val 0)) (hB : B (t.ports[n])) :
    Completes c s (fun t => A (t.r .port n.val 0) ∧ B (t.ports[n])) :=
  completes_of_done hc ⟨hA, hB⟩

theorem portCfgWrite_completes {s : State} {p : Path} {n : Fin 16} (v : Word) (hk : s.keeps p .port n.val 0 = true) :
    Completes (.portCfgWrite p n v) s (fun t => t.r .port n.val 0 &&& 0xFFFF8000 = v &&& 0xFFFF8000
      ∧ (s.blkUp (0x40 + n.val) = true → s.boot.sheet.lanes = true →
          bitsOf (s.r .port n.val 0) 31 27 ≠ bitsOf v 31 27 →
          (t.ports[n]).link = false ∧ (t.ports[n]).cdr = false ∧ (t.ports[n]).fec = false)) := by
  obtain ⟨hplace, hreg⟩ := portCfg_place n
  obtain ⟨w, -, hpl, hnew, hw⟩ := regAccess_keeperBits v hk hplace hreg (by decide)
  obtain ⟨u, hat, hru, hfm, hboot⟩ := State.writeAt_portCfg (s := s) hpl
  have hstore := State.store_keeperBits (s := s) hpl hreg hnew
  have hbits : u.r .port n.val 0 &&& 0xFFFF8000 = v &&& 0xFFFF8000 := by
    rw [hru]
    exact hstore
  obtain ⟨hword, hline⟩ := State.portWritten_spec hbits hfm hboot
  rw [hat] at hw
  exact completes_port (A := fun x => x &&& 0xFFFF8000 = v &&& 0xFFFF8000)
    (B := fun q => s.blkUp (0x40 + n.val) = true → s.boot.sheet.lanes = true →
      bitsOf (s.r .port n.val 0) 31 27 ≠ bitsOf v 31 27 → q.link = false ∧ q.cdr = false ∧ q.fec = false) hw hword hline

/-! ## The link (R233, R248) -/

theorem linkUp_completes {s : State} {n : Fin 16} (hup : s.coreUp = true) (hruns : s.portRuns n = true)
    (hlink : (s.ports[n]).link = false) (hswap : s.isReist n = true → (s.ports[n]).r.lstate ≠ .swap) :
    Completes (.linkUp n) s (fun t => (t.ports[n]).link = true ∧ (t.ports[n]).cdr = true
      ∧ (t.ports[n]).fec = s.rsFec n ∧ (s.isReist n = true → (t.ports[n]).r.lstate = .train)) := by
  have hcomes : s.linkUp' n = s.linkComesUp n := by
    have hidle : ¬ ((s.isEth n || s.isReist n) = false ∨ (s.ports[n]).link = true) := by
      rw [show (s.isEth n || s.isReist n) = true from hruns, hlink]
      decide
    rw [State.linkUp', if_neg hidle, if_neg fun h => hswap h.1 h.2]
  have hline : (s.linkComesUp n).line n = (true, true, s.rsFec n,
      if s.isReist n = true then { ((s.ports[n]).r).downed with lstate := .train } else (s.ports[n]).r, (s.ports[n]).nrr) := by
    unfold State.linkComesUp
    lift_lets
    extract_lets u v
    have hre : u.isReist n = s.isReist n := rfl
    have hv : v.line n = (true, true, s.rsFec n,
        if s.isReist n = true then { ((s.ports[n]).r).downed with lstate := .train } else (s.ports[n]).r, (s.ports[n]).nrr) := by
      rw [State.line_eq]
      simp only [v, hre]
      split <;> simp [u, Port.line, State.modPort, State.modReist]
    rw [State.qlRefreshPort_line, State.portRefresh_line, State.line_of_val (State.portNotice_val ..), hv]
  rw [State.line_eq] at hline
  simp only [Port.line, Prod.mk.injEq] at hline
  obtain ⟨hl, hc, hf, hr, -⟩ := hline
  exact completes_of_doneCore (f := fun s => s.linkUp' n) rfl hup hcomes
    ⟨hl, hc, hf, fun h => by rw [show ∀ q : Port, q.r.lstate = q.r.lstate from fun _ => rfl, hr, if_pos h]⟩

theorem State.ports_of_val {s t : State} (h : s.val .ports = t.val .ports) : s.ports = t.ports := h

theorem State.slots_of_val {s t : State} (h : s.val .slots = t.val .slots) : s.slots = t.slots := h

theorem State.portNotice_ports (s : State) (n : Fin 16) (code : Byte) : (s.portNotice n code).ports = s.ports :=
  State.ports_of_val (State.portNotice_val ..)

theorem State.linkDown'_link (s : State) (n : Fin 16) : ((s.linkDown' n).ports[n]).link = false := by
  by_cases hdown : (s.ports[n]).link = false
  · rw [State.linkDown', if_pos hdown]
    exact hdown
  · rw [State.linkDown', if_neg hdown]
    by_cases hswap : s.isReist n = true ∧ (s.ports[n]).r.lstate = .swap
    · rw [if_pos hswap, State.portNotice_ports]
      simp [State.modPort]
    · rw [if_neg hswap]
      exact s.portDown_link n

theorem State.cdrLost_spec {s : State} {n : Fin 16} (hcdr : (s.ports[n]).cdr = true) :
    ((s.cdrLost n).ports[n]).cdr = false
      ∧ ((s.slots[portSrc n]).qstate ≠ .off → ((s.cdrLost n).slots[portSrc n]).los = true) := by
  have hlost : s.cdrLost n = ((s.modPort n (fun p => { p with cdr := false })).setLos (portSrc n)).portNotice n 0x42 :=
    if_neg (by simp only [hcdr]; decide)
  rw [hlost]
  refine ⟨?_, fun hq => ?_⟩
  · rw [State.portNotice_ports, State.ports_of_val (State.setLos_val (by decide) _ _)]
    simp [State.modPort]
  · rw [State.slots_of_val (State.portNotice_val ..)]
    exact State.setLos_los hq

theorem State.fecLost_fec (s : State) (n : Fin 16) : ((s.fecLost n).ports[n]).fec = false := by
  by_cases hfec : (s.ports[n]).fec = true
  · rw [State.fecLost, if_pos hfec, State.portNotice_ports]
    simp [State.modPort]
  · rw [State.fecLost, if_neg hfec]
    exact Bool.eq_false_iff.mpr hfec

/-! ## Discarded frames (R248) -/

/-- A good header of a Reistica frame, with the link up and no legend on its way. -/
theorem State.rxHeader_up {s : State} {n : Fin 16} (seq ack : Byte) (hup : (s.ports[n]).r.lstate = .up) :
    (s.rxHeader n seq ack).regs = s.regs
      ∧ ((s.rxHeader n seq ack).ports[n]).r.rxSeq = seq ∧ ((s.rxHeader n seq ack).ports[n]).r.crcRun = 0
      ∧ ((s.rxHeader n seq ack).ports[n]).r.trainN = Nat.min 256 ((s.ports[n]).r.trainN + 1) := by
  unfold State.rxHeader
  extract_lets u
  have hu : (u.ports[n]).r.lstate = .up := by simpa [u, State.modReist] using hup
  have htrain : u.trainDone n = u := by
    unfold State.trainDone
    extract_lets r
    exact if_neg fun h => absurd (hu.symm.trans h.1) (by decide)
  have hlegend : u.legendDone n = u := by
    unfold State.legendDone
    extract_lets r
    split
    · rfl
    · exact if_neg fun h => absurd (hu.symm.trans h.1) (by decide)
  rw [htrain, hlegend]
  refine ⟨rfl, ?_, ?_, ?_⟩ <;> simp [u, State.modReist]

end Sys2Proof.Machine

namespace Sys2Proof.Machine

/-! ## Frames discarded, and the survey inputs (R23, R59, R248) -/

theorem portCount_ne : ∀ n : Fin 16, key .port n.val 0 ≠ key .port n.val 0x10 := by
  decide

/-- The count of discarded frames leaves the link as it is. -/
theorem State.reistUp_count (s : State) (n : Fin 16) : (s.count .port n.val 0x10 31 0).reistUp n = s.reistUp n := by
  have hreg : (s.count .port n.val 0x10 31 0).r .port n.val 0 = s.r .port n.val 0 :=
    State.reg_count_other (portCount_ne n)
  have hcfg : (s.count .port n.val 0x10 31 0).pcfg n = s.pcfg n := by
    rw [State.pcfg, State.pcfg, hreg]
    rfl
  rw [State.reistUp, State.reistUp, State.isReist, State.isReist, hcfg]
  rfl

theorem State.portRuns_of_reistUp {s : State} {n : Fin 16} (h : s.reistUp n = true) : s.portRuns n = true := by
  rw [State.portRuns, (Bool.and_eq_true_iff.mp h).1, Bool.or_true]

theorem exec_frameDiscard {s : State} {n : Fin 16} (hdr : Option (Byte × Byte)) (hup : s.coreUp = true)
    (hruns : s.portRuns n = true) : exec (.frameDiscard n hdr) s = done s (s.discardFrame n hdr) :=
  (doneCore_up s _ hup).trans (congrArg (done s) (if_pos hruns))

theorem exec_frameDiscard_eth {s : State} {n : Fin 16} (hdr : Option (Byte × Byte)) (hup : s.coreUp = true)
    (hruns : s.portRuns n = true) (hre : s.reistUp n = false) :
    exec (.frameDiscard n hdr) s = .next (s.count .port n.val 0x10 31 0) := by
  have hframe : s.discardFrame n hdr = s.count .port n.val 0x10 31 0 := if_pos ((s.reistUp_count n).trans hre)
  rw [exec_frameDiscard hdr hup hruns, hframe]
  exact done_eq_next rfl rfl rfl rfl hup

theorem frameDiscard_header {s : State} {n : Fin 16} (hup : s.coreUp = true) (hre : s.reistUp n = true) (seq ack : Byte)
    (hstate : (s.ports[n]).r.lstate = .up) :
    Completes (.frameDiscard n (some (seq, ack))) s (fun t =>
      t.r .port n.val 0x10 = (s.count .port n.val 0x10 31 0).r .port n.val 0x10
      ∧ (t.ports[n]).r.rxSeq = seq ∧ (t.ports[n]).r.crcRun = 0
      ∧ (t.ports[n]).r.trainN = Nat.min 256 ((s.ports[n]).r.trainN + 1)) := by
  have hframe : s.discardFrame n (some (seq, ack)) = (s.count .port n.val 0x10 31 0).rxHeader n seq ack :=
    if_neg (by rw [State.reistUp_count, hre]; decide)
  obtain ⟨hregs, hrx⟩ := State.rxHeader_up (s := s.count .port n.val 0x10 31 0) seq ack hstate
  have hc := exec_frameDiscard (some (seq, ack)) hup (State.portRuns_of_reistUp hre)
  rw [hframe] at hc
  exact completes_of_done hc ⟨State.r_of_regs hregs _ _ _, hrx⟩

theorem exec_frameDiscard_crc {s : State} {n : Fin 16} (hup : s.coreUp = true) (hre : s.reistUp n = true)
    (hrun : (s.ports[n]).r.crcRun + 1 < 64) : exec (.frameDiscard n none) s
      = .next ((s.count .port n.val 0x10 31 0).modReist n (fun r => { r with crcRun := r.crcRun + 1, trainN := 0 })) := by
  have hcrc : ¬ ((((s.count .port n.val 0x10 31 0).modReist n
      (fun r => { r with crcRun := r.crcRun + 1, trainN := 0 })).ports[n]).r.crcRun ≥ 64) := by
    have hlt : (s.ports[n]).r.crcRun < 63 := by omega
    simpa [State.modReist] using hlt
  have hframe : s.discardFrame n none
      = (s.count .port n.val 0x10 31 0).modReist n (fun r => { r with crcRun := r.crcRun + 1, trainN := 0 }) :=
    (if_neg (by rw [State.reistUp_count, hre]; decide)).trans (if_neg hcrc)
  rw [exec_frameDiscard none hup (State.portRuns_of_reistUp hre), hframe]
  exact done_eq_next rfl rfl rfl rfl hup

/-! ## The survey input map (R23) -/

/-- A survey channel that another input names. -/
def State.inputTaken (s : State) (i c : Nat) : Bool :=
  decide (c < 192) && (List.range 24).any (fun j => decide (j ≠ i) && decide ((s.mapped j).map (·.val) = some c))

theorem State.inputTaken_iff (s : State) (i c : Nat) : s.inputTaken i c = true
    ↔ c < 192 ∧ ∃ j < 24, j ≠ i ∧ (s.mapped j).map (·.val) = some c := by
  simp [State.inputTaken]

/-- A refused word counts, and nothing else happens. -/
theorem State.svinWrite_refused {s : State} {i : Nat} (old : Word) {new : Word} (hen : bitOf new 31 = true)
    (ht : s.inputTaken i (bitsOf new 7 0) = true) : s.svinWrite i old new = s.count .pinmux 0 0x60 15 0 := by
  have hrefused : (bitOf new 31 && ((decide (0xC0 ≤ bitsOf new 7 0) && decide (bitsOf new 7 0 ≤ 0xFE))
      || s.inputTaken i (bitsOf new 7 0))) = true := by
    rw [hen, ht, Bool.or_true]
    rfl
  exact if_pos hrefused

/-- A word taken is stored, and the input's loss that follows leaves it. -/
theorem State.svinWrite_taken {s : State} {i : Fin 24} (old : Word) {new : Word}
    (h : bitOf new 31 = false ∨ (bitsOf new 7 0 < 192 ∧ s.inputTaken i.val (bitsOf new 7 0) = false)) :
    (s.svinWrite i.val old new).r .pinmux 0 (4 * i.val) = new := by
  have hok : ¬ (bitOf new 31 && ((decide (0xC0 ≤ bitsOf new 7 0) && decide (bitsOf new 7 0 ≤ 0xFE))
      || s.inputTaken i.val (bitsOf new 7 0))) = true := by
    rcases h with hen | ⟨hlt, ht⟩
    · rw [hen, Bool.false_and]
      decide
    · rw [ht, decide_eq_false (Nat.not_le.mpr hlt)]
      simp
  have hstored : (s.wr .pinmux 0 (4 * i.val) new).r .pinmux 0 (4 * i.val) = new := State.setReg_same ..
  have hwrite : s.svinWrite i.val old new = if old = new then s.wr .pinmux 0 (4 * i.val) new
      else (s.wr .pinmux 0 (4 * i.val) new).setLos (finMod 96 (64 + i.val)) := if_neg hok
  rw [hwrite]
  split
  · exact hstored
  · exact (State.reg_setLos (svinMap_not_source i) _ _).trans hstored

theorem svin_offset : ∀ i : Fin 24, 4 * i.val < 0x60 ∧ 4 * i.val / 4 = i.val := by
  decide

/-- The write of a survey input is its map's own, with the bits written. -/
theorem regAccess_svinMap {s : State} {p : Path} {i : Fin 24} (v : Word) (hk : s.keeps p .pinmux 0 (4 * i.val) = true) :
    ∃ old : Word, exec (.svinMapWrite p i v) s = done s (s.svinWrite i.val old (v &&& 0x800000FF)) := by
  obtain ⟨hplace, hreg⟩ := svinMap_place i
  obtain ⟨w, -, hpl, hnew, hw⟩ := regAccess_keeperBits v hk hplace hreg (by decide)
  obtain ⟨hlt, hdiv⟩ := svin_offset i
  refine ⟨w.old, hw.trans (congrArg (done s) ?_)⟩
  simp only [State.writeAt, hpl, hnew, hlt, hdiv, if_true]

theorem bitOf_masked (v : Word) : bitOf (v &&& 0x800000FF) 31 = bitOf v 31 := by
  simp [bitOf]

theorem bitsOf_masked (v : Word) : bitsOf (v &&& 0x800000FF) 7 0 = bitsOf v 7 0 :=
  bitsOf_of_masked (mask := 0x800000FF) (by rw [BitVec.and_assoc, BitVec.and_self]) (lo := 0) (len := 7) (by decide)

theorem svinMapWrite_stores {s : State} {p : Path} {i : Fin 24} {v : Word} (hk : s.keeps p .pinmux 0 (4 * i.val) = true)
    (h : bitOf v 31 = false ∨ (bitsOf v 7 0 < 192 ∧ s.inputTaken i.val (bitsOf v 7 0) = false)) :
    Completes (.svinMapWrite p i v) s (fun t => t.r .pinmux 0 (4 * i.val) = v &&& 0x800000FF) := by
  obtain ⟨old, hw⟩ := regAccess_svinMap v hk
  rw [← bitOf_masked, ← bitsOf_masked] at h
  exact completes_of_done hw ((State.r_of_regs rfl _ _ _).trans (State.svinWrite_taken old h))

theorem exec_svinMapWrite_refused {s : State} {p : Path} {i : Fin 24} {v : Word}
    (hk : s.keeps p .pinmux 0 (4 * i.val) = true) (hen : bitOf v 31 = true)
    (ht : s.inputTaken i.val (bitsOf v 7 0) = true) :
    exec (.svinMapWrite p i v) s = .next (s.count .pinmux 0 0x60 15 0) := by
  obtain ⟨old, hw⟩ := regAccess_svinMap v hk
  have hup : s.coreUp = true := State.coreUp_of_keeps hk
  rw [← bitOf_masked] at hen
  rw [← bitsOf_masked] at ht
  rw [hw, State.svinWrite_refused old hen ht]
  exact done_eq_next rfl rfl rfl rfl hup

theorem exec_cdrLock {s : State} {n : Fin 16} (hup : s.coreUp = true) (hruns : s.portRuns n = true) :
    exec (.cdrLock n) s = .next (s.modPort n (fun p => { p with cdr := true })) := by
  refine ((doneCore_up s _ hup).trans (congrArg (done s) (if_pos hruns))).trans ?_
  exact done_eq_next rfl rfl rfl rfl hup

theorem exec_fecAlignGained {s : State} {n : Fin 16} (hup : s.coreUp = true) (hruns : s.portRuns n = true)
    (hfec : s.rsFec n = true) : exec (.fecAlignGained n) s = .next (s.modPort n (fun p => { p with fec := true })) := by
  have hboth : (s.portRuns n && s.rsFec n) = true := by rw [hruns, hfec]; rfl
  refine ((doneCore_up s _ hup).trans (congrArg (done s) (if_pos hboth))).trans ?_
  exact done_eq_next rfl rfl rfl rfl hup

/-- Settles O21: each clause is the rule of its command. -/
theorem portsAndLinks : Obligations.PortsAndLinks := by
  unfold Obligations.PortsAndLinks
  refine ⟨fun s p n v hk => portCfgWrite_completes v hk, fun s n => linkUp_completes, fun s n hup => ?_,
    fun s n hup hcdr => ?_, fun s n => exec_cdrLock, fun s n hup => ?_, fun s n => exec_fecAlignGained,
    fun s n hdr => exec_frameDiscard_eth hdr,
    fun s n hup hre => ⟨fun seq ack hstate _ => frameDiscard_header hup hre seq ack hstate, exec_frameDiscard_crc hup hre⟩,
    fun s p i v hk => ⟨fun hen => svinMapWrite_stores hk (.inl hen), fun _ hlt hfree => svinMapWrite_stores hk (.inr ⟨hlt, ?_⟩),
      fun hen hlt htaken => exec_svinMapWrite_refused hk hen ((s.inputTaken_iff _ _).mpr ⟨hlt, htaken⟩)⟩⟩
  · exact completes_of_doneCore (f := fun s => s.linkDown' n) rfl hup rfl (s.linkDown'_link n)
  · exact completes_of_doneCore (f := fun s => s.cdrLost n) rfl hup rfl (State.cdrLost_spec hcdr)
  · exact completes_of_doneCore (f := fun s => s.fecLost n) rfl hup rfl (s.fecLost_fec n)
  · refine Bool.eq_false_iff.mpr fun ht => ?_
    obtain ⟨-, j, hj, hne, hmap⟩ := (s.inputTaken_iff _ _).mp ht
    exact hfree j hj hne hmap

end Sys2Proof.Machine

/-! SUPPORT. PROOFS. An engine's time instructions and its waits (R278, R281, R289, R306, R307). -/

namespace Sys2Proof.Machine

/-! ## Registers (R277, R297) -/

theorem upper_eq {r r1 : Fin 32} (hr : r.val % 2 = 0) (h1 : r1.val = r.val + 1) : upper r = r1 :=
  Fin.ext (by simp only [upper]; omega)

theorem odd_of_even {r : Fin 32} (hr : r.val % 2 = 0) : odd r = false := decide_eq_false (by omega)

theorem odd_of_odd {r : Fin 32} (hr : r.val % 2 = 1) : odd r = true := decide_eq_true hr

/-- The flag word after one flag is put. -/
theorem Cpu.setFlag_f (c : Cpu) (k : Nat) (b : Bool) : (c.setFlag k b).f
    = fWord (if 0 = k then b else c.flag 0) (if 1 = k then b else c.flag 1) (if 2 = k then b else c.flag 2)
      (if 3 = k then b else c.flag 3) (if 4 = k then b else c.flag 4) (if 5 = k then b else c.flag 5) := by
  refine eq_fWord fun i => ?_
  change (c.setFlag k b).flag i = _
  rw [Cpu.flag_setFlag _ _ _ _ i.isLt]
  fin_cases i <;> rfl

/-- The flags of a register word F, one by one. -/
theorem Cpu.flags_of_f {c : Cpu} {z n cy v q l : Bool} (h : c.f = fWord z n cy v q l) :
    c.flag 0 = z ∧ c.flag 1 = n ∧ c.flag 2 = cy ∧ c.flag 3 = v ∧ c.flag 4 = q ∧ c.flag 5 = l := by
  have hflag : ∀ i : Fin 6, c.flag i.val = [z, n, cy, v, q, l].getD i.val false := fun i => by
    rw [Cpu.flag, h]
    exact getLsbD_fWord z n cy v q l i
  exact ⟨hflag 0, hflag 1, hflag 2, hflag 3, hflag 4, hflag 5⟩

/-- The flags after a saturating result. -/
theorem Cpu.satFlags_eq (c : Cpu) (r : DWord) (sat : Bool) : ((c.zn r).setV sat).orQ sat
    = { c with f := fWord (r == 0) r.msb (c.flag 2) sat (c.flag 4 || sat) (c.flag 5) } := by
  have hv : ((c.zn r).setV sat).f = fWord (r == 0) r.msb (c.flag 2) sat (c.flag 4) (c.flag 5) := by
    obtain ⟨h0, h1, h2, -, h4, h5⟩ := Cpu.flags_of_f (c.zn_f r)
    rw [Cpu.setV, Cpu.setFlag_f, h0, h1, h2, h4, h5]
    rfl
  have hf : (((c.zn r).setV sat).orQ sat).f = fWord (r == 0) r.msb (c.flag 2) sat (c.flag 4 || sat) (c.flag 5) := by
    cases sat
    · simpa [Cpu.orQ] using hv
    · obtain ⟨h0, h1, h2, h3, -, h5⟩ := Cpu.flags_of_f hv
      rw [Cpu.orQ, if_pos rfl, Cpu.setFlag_f, h0, h1, h2, h3, h5, Bool.or_true]
      rfl
  have hrest : ((c.zn r).setV sat).orQ sat = { c with f := (((c.zn r).setV sat).orQ sat).f } := by
    cases sat <;> rfl
  rw [hrest, hf]

theorem Cpu.satRes_next (c : Cpu) (rd : Fin 32) (y : Int) : (c.satRes rd y).next = { c with
    g := c.g.set rd (BitVec.ofInt 64 (satS 64 y))
    f := fWord (BitVec.ofInt 64 (satS 64 y) == 0) (BitVec.ofInt 64 (satS 64 y)).msb (c.flag 2) (!fits64 y)
      (c.flag 4 || !fits64 y) (c.flag 5)
    pc := c.pc + 1 } := by
  rw [Cpu.satRes, Cpu.satFlags_eq]
  rfl

/-! ## Time on the mirror (R306) -/

/-- The clock that a selector names. -/
theorem Cpu.clock_of {c : Cpu} {x : BitVec 9} {d : Fin 8}
    (h : x.toNat = d.val ∨ (x.toNat = 15 ∧ d.val = bitsOf c.cw 27 25)) : c.clock x = some d := by
  rcases h with h | ⟨h, hd⟩
  · rw [Cpu.clock, if_pos (h ▸ d.isLt), h, finMod_val]
  · rw [Cpu.clock, if_neg (by omega), if_pos h, ← hd, finMod_val]

theorem Cpu.clock_reserved {c : Cpu} {x : BitVec 9} (h : 8 ≤ x.toNat ∧ x.toNat ≠ 15) : c.clock x = none := by
  rw [Cpu.clock, if_neg (Nat.not_lt.mpr h.1), if_neg h.2]

/-- A time pair with C, at the next word. -/
theorem Cpu.putPair_setC_next (c : Cpu) {rd r1 : Fin 32} (hu : upper rd = r1) (sec : BitVec 48) (v : Nat) (b : Bool) :
    ((c.putPair rd sec v).setC b).next = { c with
      g := (c.g.set rd (sec.zeroExtend 64)).set r1 (BitVec.ofNat 64 v)
      f := fWord (c.flag 0) (c.flag 1) b (c.flag 3) (c.flag 4) (c.flag 5)
      pc := c.pc + 1 } := by
  have hf : ((c.putPair rd sec v).setC b).f = fWord (c.flag 0) (c.flag 1) b (c.flag 3) (c.flag 4) (c.flag 5) :=
    Cpu.setFlag_f (c.putPair rd sec v) 2 b
  subst hu
  rw [← hf]
  rfl

/-- A time pair with Z, at the next word. -/
theorem Cpu.putPair_setZ_next (c : Cpu) {rd r1 : Fin 32} (hu : upper rd = r1) (sec : BitVec 48) (v : Nat) (b : Bool) :
    ((c.putPair rd sec v).setZ b).next = { c with
      g := (c.g.set rd (sec.zeroExtend 64)).set r1 (BitVec.ofNat 64 v)
      f := fWord b (c.flag 1) (c.flag 2) (c.flag 3) (c.flag 4) (c.flag 5)
      pc := c.pc + 1 } := by
  have hf : ((c.putPair rd sec v).setZ b).f = fWord b (c.flag 1) (c.flag 2) (c.flag 3) (c.flag 4) (c.flag 5) :=
    Cpu.setFlag_f (c.putPair rd sec v) 0 b
  subst hu
  rw [← hf]
  rfl

/-- The mirror's time as a program reads it (R43). -/
def Tm.read (t : Tm) : Stamp :=
  ⟨t.sec, BitVec.ofNat 32 t.ns.toNat, BitVec.ofNat 16 (t.frac.toNat / 2 ^ 40)⟩

theorem opTnow_eq {s : State} {isl : Fin 2} {rd r1 : Fin 32} {x : BitVec 9} {c : Cpu} {d : Fin 8}
    (hd : c.clock x = some d) (hr : rd.val % 2 = 0) (h1 : r1.val = rd.val + 1) :
    opTnow s isl rd x c = .ok { c with
      g := (c.g.set rd (((s.datums[d]).mirs[isl]).now.read.sec.zeroExtend 64)).set r1
        (BitVec.ofNat 64 (((s.datums[d]).mirs[isl]).now.read.ns.toNat * 2 ^ 16
          + ((s.datums[d]).mirs[isl]).now.read.sub.toNat))
      f := fWord (c.flag 0) (c.flag 1) (!(s.datums[d]).set) (c.flag 3) (c.flag 4) (c.flag 5)
      pc := c.pc + 1 } := by
  rw [← Cpu.putPair_setC_next c (upper_eq hr h1)]
  unfold opTnow
  rw [hd]
  exact if_neg (by rw [odd_of_even hr]; decide)

/-- The carry of an addition of nanoseconds. -/
theorem divMod_of_eq {t q v u : Int} (h : t = q * u + v) (h0 : 0 ≤ v) (hu : v < u) : t / u = q ∧ t - q * u = v := by
  have hpos : 0 < u := lt_of_le_of_lt h0 hu
  refine ⟨?_, by rw [h]; ring⟩
  rw [h, Int.mul_comm, Int.mul_add_ediv_left _ _ hpos.ne', Int.ediv_eq_zero_of_lt h0 hu, add_zero]

theorem opTadd_eq {rd ra rb r1 a1 : Fin 32} {c : Cpu} {t q v : Int} {sec : BitVec 48} (hrd : rd.val % 2 = 0)
    (hra : ra.val % 2 = 0) (h1 : r1.val = rd.val + 1) (ha1 : a1.val = ra.val + 1)
    (ht : t = (c.g[a1].toNat % 2 ^ 48 : Nat) + c.g[rb].toInt) (hq : t = q * (1000000000 * 2 ^ 16) + v) (h0 : 0 ≤ v)
    (hv : v < 1000000000 * 2 ^ 16) (hsec : sec = BitVec.ofInt 48 ((c.g[ra].toNat % 2 ^ 48 : Nat) + q)) :
    opTadd rd ra rb c = .ok { c with
      g := (c.g.set rd (sec.zeroExtend 64)).set r1 (BitVec.ofNat 64 v.toNat)
      f := fWord (sec == 0 && decide (v = 0)) (c.flag 1) (c.flag 2) (c.flag 3) (c.flag 4) (c.flag 5)
      pc := c.pc + 1 } := by
  obtain rfl : upper ra = a1 := upper_eq hra ha1
  obtain ⟨hdiv, hmod⟩ := divMod_of_eq hq h0 hv
  have hzero : decide (v = 0) = (v.toNat == 0) := by
    rw [Bool.eq_iff_iff, decide_eq_true_iff, beq_iff_eq]
    omega
  have hunit : ((1000000000 * 2 ^ 16 : Nat) : Int) = 1000000000 * 2 ^ 16 := by norm_num
  rw [hzero, ← Cpu.putPair_setZ_next c (upper_eq hrd h1)]
  unfold opTadd
  rw [if_neg (by rw [odd_of_even hrd, odd_of_even hra]; decide)]
  extract_lets unit t' q' v' sec'
  have ht' : t' = t := ht.symm
  have hq' : q' = q := by simp only [q', ht', unit, hunit, hdiv]
  have hv' : v' = v.toNat := by simp only [v', ht', hq', unit, hunit, hmod]
  have hsec' : sec' = sec := by rw [hsec, ← hq']
  rw [hv', hsec']
  rfl

theorem opTdif_eq {rd ra rb a1 b1 : Fin 32} {c : Cpu} {y : Int} (hra : ra.val % 2 = 0) (hrb : rb.val % 2 = 0)
    (ha1 : a1.val = ra.val + 1) (hb1 : b1.val = rb.val + 1)
    (hy : y = pairVal c.g[ra] c.g[a1] - pairVal c.g[rb] c.g[b1]) :
    opTdif rd ra rb c = .ok { c with
      g := c.g.set rd (BitVec.ofInt 64 (satS 64 y))
      f := fWord (BitVec.ofInt 64 (satS 64 y) == 0) (BitVec.ofInt 64 (satS 64 y)).msb (c.flag 2) (!fits64 y)
        (c.flag 4 || !fits64 y) (c.flag 5)
      pc := c.pc + 1 } := by
  obtain rfl : upper ra = a1 := upper_eq hra ha1
  obtain rfl : upper rb = b1 := upper_eq hrb hb1
  have hpair : c.pairAt ra - c.pairAt rb = y := hy.symm
  rw [← Cpu.satRes_next, ← hpair]
  exact if_neg (by rw [odd_of_even hra, odd_of_even hrb]; decide)

end Sys2Proof.Machine

namespace Sys2Proof.Machine

/-! ## Engines -/

theorem State.modEng_modEng (s : State) (e : Fin 8) (f g : Engine → Engine) :
    (s.modEng e f).modEng e g = s.modEng e (fun x => g (f x)) := by
  simp [State.modEng]

theorem State.modEng_congr {s : State} {e : Fin 8} {f g : Engine → Engine} (h : f s.engines[e] = g s.engines[e]) :
    s.modEng e f = s.modEng e g := by
  rw [State.modEng, State.modEng, h]

theorem State.engines_modEng (s : State) (e : Fin 8) (f : Engine → Engine) : ((s.modEng e f).engines[e]) = f s.engines[e] := by
  simp [State.modEng]

theorem State.engines_of_val {s t : State} (h : s.val .engines = t.val .engines) : s.engines = t.engines := h

/-- A running engine's instruction, where the engine issues it. -/
theorem doneCore_engIssue {s : State} {e : Fin 8} {g : State → State} {f : State → State} (h : s.runsOn (.eng e) = true)
    (hg : g s = s.engIssue e f) : doneCore s g = done s (f s) := by
  rw [doneCore_up s g (State.coreUp_of_runsOn h), hg, State.engIssue_of_runsOn f h]

theorem done_modEng {s : State} (e : Fin 8) (f : Engine → Engine) (h : s.coreUp = true) :
    done s (s.modEng e f) = .next (s.modEng e f) :=
  done_eq_next rfl rfl rfl rfl h

/-! ## Faults (R292) -/

theorem State.engFault_spec (s : State) (e : Fin 8) (cause : Byte) :
    ((s.engFault e cause).engines[e]) = { s.engines[e] with
      run := .fault, cause := cause, pcReg := (s.engines[e]).cpu.pc, wait := none } := by
  unfold State.engFault
  extract_lets pc u
  have hval : ((u.raise (engSrc e) clsB 0xFF (args8 ([cause, 0] ++ beBytes 2 pc))).report (0x52 + e.val / 4) 6).val .engines
      = u.val .engines := (State.report_val ..).trans (State.raise_val ..)
  have hu : u.engines = (s.modEng e (fun g => { g with run := .fault, cause := cause, pcReg := pc, wait := none })).engines :=
    State.engines_of_val (State.releaseSems_val (by decide) _ e)
  rw [State.engines_of_val hval, hu, State.engines_modEng]

theorem engineFaults_of {s : State} {e : Fin 8} {i : Instr} {cause : Byte} (h : exec i s = done s (s.engFault e cause)) :
    EngineFaults s e i cause := by
  have hspec := s.engFault_spec e cause
  refine completes_of_done h ?_
  generalize s.engFault e cause = t at hspec ⊢
  simp only [hspec, and_self]

/-! ## Waits (R281, R289, R307) -/

/-- The engine at a wait: its registers at the next word, its watchdog begun anew. -/
def State.atWait (s : State) (e : Fin 8) : State :=
  s.modEng e (fun g => { g with pcReg := g.cpu.pc, cpu := g.cpu.next, wdogFrom := s.tick })

theorem State.engWait_eq {s : State} {e : Fin 8} (w : Wait) (late : Bool) (hdue : (s.engines[e]).prog.due = false) :
    s.engWait e w late = ((s.atWait e).waitEnd e w (s.engines[e]).cpu.next).elim
      ((s.atWait e).modEng e (fun g => { g with run := .waiting, wait := some w }))
      (fun c => (s.atWait e).engResume e (if late then c.setL true else c)) := by
  have hcpu : ((s.atWait e).engines[e]).cpu = (s.engines[e]).cpu.next := by rw [State.atWait, State.engines_modEng]
  rw [State.engWait, if_neg (by rw [hdue]; decide), ← hcpu]
  extract_lets u
  have hu : u = s.atWait e := rfl
  rw [hu]
  cases (s.atWait e).waitEnd e w ((s.atWait e).engines[e]).cpu <;> rfl

/-- A wait that has not ended: the engine waits. -/
theorem State.engWait_waits {s : State} {e : Fin 8} {c : Cpu} (w : Wait) (late : Bool)
    (hdue : (s.engines[e]).prog.due = false) (hc : (s.engines[e]).cpu = c)
    (hend : (s.atWait e).waitEnd e w c.next = none) :
    s.engWait e w late = s.modEng e (fun g => { g with
      pcReg := c.pc, cpu := { c with pc := c.pc + 1 }, wdogFrom := s.tick, run := .waiting, wait := some w }) := by
  subst hc
  rw [State.engWait_eq w late hdue, hend, Option.elim_none, State.atWait, State.modEng_modEng]
  exact State.modEng_congr rfl

/-- A wait that has ended: the engine goes on. -/
theorem State.engWait_resumes {s : State} {e : Fin 8} {c d : Cpu} (w : Wait) (late : Bool)
    (hdue : (s.engines[e]).prog.due = false) (hc : (s.engines[e]).cpu = c)
    (hend : (s.atWait e).waitEnd e w c.next = some d) :
    ((s.engWait e w late).engines[e]).run = .running ∧ ((s.engWait e w late).engines[e]).wdogFrom = s.tick
      ∧ ((s.engWait e w late).engines[e]).cpu = if late then d.setL true else d := by
  subst hc
  rw [State.engWait_eq w late hdue, hend, Option.elim_some, State.engResume, State.engines_modEng]
  exact ⟨rfl, rfl, rfl⟩

/-- The state in which a wait's end is judged has the clock, the doors and the semaphores of the issue. -/
theorem State.atWait_events (s : State) (e : Fin 8) (mask timeout issue : DWord) (commits : Word) :
    (s.atWait e).waitEvents e mask timeout issue commits = s.waitEvents e mask timeout issue commits := by
  have hfifo : ((s.atWait e).engines[e]).fifo = (s.engines[e]).fifo := by rw [State.atWait, State.engines_modEng]
  have hdoor : (s.atWait e).doorFor e = s.doorFor e := rfl
  rw [State.waitEvents, State.waitEvents, hfifo, hdoor]
  rfl

/-- The flags of a wait's end: L is put, every other flag stands. -/
theorem Cpu.setL_next (c : Cpu) (b : Bool) : c.next.setL b = { c with
    f := fWord (c.flag 0) (c.flag 1) (c.flag 2) (c.flag 3) (c.flag 4) b, pc := c.pc + 1 } := by
  have hf : (c.next.setL b).f = fWord (c.flag 0) (c.flag 1) (c.flag 2) (c.flag 3) (c.flag 4) b := Cpu.setFlag_f c.next 5 b
  rw [← hf]
  rfl

theorem Cpu.setL_setL (c : Cpu) (b : Bool) : (c.next.setL false).setL b = c.next.setL b := by
  have hf : ((c.next.setL false).setL b).f = (c.next.setL b).f := by
    obtain ⟨h0, h1, h2, h3, h4, -⟩ := Cpu.flags_of_f (show (c.next.setL false).f = _ from Cpu.setFlag_f c.next 5 false)
    rw [Cpu.setL, Cpu.setFlag_f, h0, h1, h2, h3, h4]
    exact (Cpu.setFlag_f c.next 5 b).symm
  have hrest : (c.next.setL false).setL b = { c.next.setL b with f := ((c.next.setL false).setL b).f } := rfl
  rw [hrest, hf]

/-- A WAITE's end: Z is clear, the events stand in the result. -/
theorem Cpu.events_next (c : Cpu) (rd : Fin 32) (z : Bool) (v : DWord) : (c.next.setZ z).put rd v = { c with
    g := c.g.set rd v, f := fWord z (c.flag 1) (c.flag 2) (c.flag 3) (c.flag 4) (c.flag 5), pc := c.pc + 1 } := by
  have hf : (c.next.setZ z).f = fWord z (c.flag 1) (c.flag 2) (c.flag 3) (c.flag 4) (c.flag 5) := Cpu.setFlag_f c.next 0 z
  rw [← hf]
  rfl

/-! ## The swap that takes a wait's place (R289) -/

theorem Prog.cur_toggled (p : Prog) : p.toggled.cur = p.spare := by
  unfold Prog.toggled Prog.cur Prog.spare
  cases p.bank <;> rfl

theorem State.initData_engines (s : State) (e : Fin 8) (x : Sheet) : (s.initData e x).engines = s.engines := by
  refine State.engines_of_val ?_
  unfold State.initData
  extract_lets base u
  have hu : u.val .engines = s.val .engines := by
    simp only [u, State.val_ite]
    split
    · rfl
    · exact State.withMem_val ..
  exact (State.val_foldl (fun s r => State.memStore_val ..) _ u).trans hu

theorem State.swapRecords_engines (s : State) (e : Fin 8) (old new : BitVec 256) :
    (s.swapRecords (.eng e) old new).engines = s.engines :=
  State.engines_of_val ((State.log_val (by decide) ..).trans (by simp [State.bookConfig]))

/-- An engine's due swap puts the spare sheet in its place, at its entry. -/
theorem State.swapNow_engine {s : State} {e : Fin 8} {x : Sheet} (hspare : (s.engines[e]).prog.spare = some x)
    (forced : Bool) : ((s.swapNow (.eng e) forced).engines[e]).prog.cur = some x
      ∧ ((s.swapNow (.eng e) forced).engines[e]).cpu.pc = x.entry := by
  unfold State.swapNow
  split
  · next hnone => exact absurd (hspare.symm.trans hnone) (by simp)
  · next y hy =>
    obtain rfl : x = y := Option.some.inj (hspare.symm.trans hy)
    have hfits : s.swapFits (.eng e) = true := rfl
    rw [if_neg (by rw [hfits]; decide)]
    extract_lets old u v
    have hu : (u.engines[e]).prog.cur = some x := by
      have hprog : (u.engines[e]).prog = (s.engines[e]).prog.toggled := by
        simp only [u, State.modProg, State.engines_modEng]
      rw [hprog, Prog.cur_toggled, hspare]
    have hv : (v.engines[e]).prog = (u.engines[e]).prog ∧ (v.engines[e]).cpu.pc = x.entry := by
      simp only [v, State.engines_modEng, State.initData_engines]
      exact ⟨trivial, rfl⟩
    obtain ⟨hprog, hpc⟩ := hv
    simp only [State.swapRecords_engines]
    exact ⟨hprog ▸ hu, hpc⟩

end Sys2Proof.Machine

/-! SUPPORT. PROOFS. The reports that wait for the fault manager (R377) through a datum tick, and the engines' waits through
it (R281, R307). -/

namespace Sys2Proof.Machine

/-! ## The fault manager's queue -/

theorem State.fm_ite (c : Prop) [Decidable c] (a b : State) : (if c then a else b).fm = if c then a.fm else b.fm :=
  apply_ite State.fm c a b

theorem State.fm_foldl {α : Type} {f : State → α → State} (hf : ∀ s x, (f s x).fm = s.fm) (l : List α) (s : State) :
    (l.foldl f s).fm = s.fm := by
  induction l generalizing s with
  | nil => rfl
  | cons x l ih => rw [List.foldl_cons, ih, hf]

theorem State.fm_overFin {n : Nat} {f : Fin n → State → State} (hf : ∀ i s, (f i s).fm = s.fm) (s : State) :
    (overFin n s f).fm = s.fm :=
  State.fm_foldl (fun s i => hf i s) _ s

@[simp] theorem State.fm_bookGroup (s : State) (g : List Rec) : (s.bookGroup g).fm = s.fm := by
  unfold State.bookGroup
  split <;> rfl

@[simp] theorem State.fm_epochGroup (s : State) (d : Fin 8) (b : Bool) (before : Nat) : (s.epochGroup d b before).fm = s.fm := by
  unfold State.epochGroup
  extract_lets c t fl ep
  split
  · exact s.fm_bookGroup _
  · exact s.fm_bookGroup _

@[simp] theorem State.fm_bearing (s : State) (d : Fin 8) (n : Fin 16) (delta : Int) : (s.bearing d n delta).fm = s.fm := by
  unfold State.bearing
  rw [State.raise_fm, State.fm_bookGroup]

@[simp] theorem State.fm_takeSet (s : State) (d : Fin 8) (sd : SetDue) (before : Nat) : (s.takeSet d sd before).fm = s.fm := by
  unfold State.takeSet
  lift_lets
  extract_lets l k old t sh mv set1 u tw v w x fl
  have hu : u.fm = s.fm := rfl
  have hv : v.fm = s.fm := by
    simp only [v]
    split
    · exact hu
    · exact hu
  have hx : x.fm = s.fm := (w.fm_epochGroup d true before).trans hv
  rw [State.raise_fm, State.fm_bookGroup, hx]

@[simp] theorem State.fm_tickRecords (s : State) (d : Fin 8) (o : TickOut) : (s.tickRecords d o).fm = s.fm := by
  unfold State.tickRecords
  lift_lets
  extract_lets u v
  have hu : u.fm = s.fm := by
    simp only [u]
    split
    · exact s.fm_takeSet ..
    · split
      · exact s.fm_epochGroup ..
      · rfl
  have hv : v.fm = s.fm := (State.fm_foldl (fun s p => s.fm_bearing ..) _ u).trans hu
  split
  · exact (v.fm_bearing ..).trans hv
  · exact hv

theorem State.fm_latchEvents_meetWaits (s : State) : s.latchEvents.meetWaits.fm = s.fm := rfl

theorem State.fm_tickTallies (s : State) (k : DWord) : (s.tickTallies k).fm = s.fm := rfl

theorem State.fm_withTick (s : State) (k : DWord) (v : Vector DWord 16) : State.fm { s with tick := k, islandTick := v } = s.fm := rfl

theorem State.fm_withDatums (s : State) (v : Vector Datum 8) : State.fm { s with datums := v } = s.fm := rfl

theorem State.fm_tickClocks (s : State) : s.tickClocks.fm = s.fm := by
  unfold State.tickClocks
  extract_lets k u v outs w
  have hrec : (overFin 8 w fun d s => if s.datUp (datIsl d) then s.tickRecords d outs[d] else s).fm = w.fm :=
    State.fm_overFin (fun d s => by rw [State.fm_ite, State.fm_tickRecords, ite_self]) w
  have hw : w.fm = v.fm := State.fm_withDatums v _
  have hv : v.fm = u.fm := State.fm_tickTallies u k
  have hu : u.fm = s.fm := State.fm_withTick s k _
  rw [State.fm_latchEvents_meetWaits, hrec, hw, hv, hu]

@[simp] theorem State.fm_qlRefreshPort (s : State) (n : Fin 16) : (s.qlRefreshPort n).fm = s.fm := by
  unfold State.qlRefreshPort
  dsimp only
  generalize s.qlCode n = code
  obtain ⟨ssm, essm⟩ := code
  dsimp only
  rw [State.fm_ite, State.fm_ite, State.raise_fm]
  split
  · rfl
  · split <;> rfl

theorem State.fm_withOuts (s : State) (a : Vector OutSt 48) (b : Vector DWord 48) :
    State.fm { s with outs := a, outFrom := b } = s.fm := rfl

theorem State.fm_refreshOuts (s : State) : s.refreshOuts.fm = s.fm := by
  unfold State.refreshOuts
  exact State.fm_withOuts s _ _

@[simp] theorem State.fm_refresh (s : State) : s.refresh.fm = s.fm := by
  rw [State.refresh, State.qlRefresh, State.fm_overFin (fun n s => s.fm_qlRefreshPort n), State.fm_refreshOuts]

@[simp] theorem State.fm_ballEmit (s : State) (ch : Fin 192) (e : Emission) : (s.ballEmit ch e).fm = s.fm := by
  unfold State.ballEmit
  split <;> rfl

@[simp] theorem State.fm_txStall (s : State) (ch : Fin 192) : (s.txStall ch).fm = s.fm := by
  unfold State.txStall
  split
  · extract_lets n u
    have hu : u.fm = s.fm := by
      simp only [u, State.fm_ite, State.fm_ballEmit, ite_self]
    exact hu
  · rfl

@[simp] theorem State.fm_txAdvance (s : State) (ch : Fin 192) : (s.txAdvance ch).fm = s.fm := by
  unfold State.txAdvance
  split
  · exact s.fm_txStall ch
  · extract_lets u c
    have hu : u.fm = s.fm := by
      simp only [u]
      split <;> rfl
    generalize txRun (u.txFrame ch) u.tick.toNat c.txCur c.tx = run
    obtain ⟨out, cur, rest⟩ := run
    exact (State.fm_foldl (fun s f => s.fm_ballEmit ..) _ _).trans hu

@[simp] theorem State.fm_txPut (s : State) (ch : Fin 192) (k : DWord) (bs : List Byte) : (s.txPut ch k bs).fm = s.fm := by
  unfold State.txPut
  split <;> rfl

@[simp] theorem State.fm_modChan (s : State) (ch : Fin 192) (f : Chan → Chan) : (s.modChan ch f).fm = s.fm := rfl

@[simp] theorem State.fm_sendTod (s : State) (ch : Fin 192) : (s.sendTod ch).fm = s.fm := by
  unfold State.sendTod
  dsimp only
  repeat' split
  all_goals simp

@[simp] theorem State.fm_holdOuts (s : State) (ch : Fin 192) : (s.holdOuts ch).fm = s.fm := by
  unfold State.holdOuts
  rw [State.fm_txStall]
  exact State.fm_foldl (fun s _ => s.fm_sendTod ch) _ s

/-! ## Reports of a datum's clocks (R41, R376) -/

/-- Every report that waits is that of a datum island's clocks. -/
def State.datumReports (s : State) : Prop :=
  ∀ e ∈ s.fm.waiting, e.1.val = 0x13 ∨ e.1.val = 0x14

theorem State.datumReports_report {s : State} (h : s.datumReports) (i : Fin 2) (cause : Nat) :
    (s.report (0x13 + i.val) cause).datumReports := by
  have hfin : fin? 128 (0x13 + i.val) = some ⟨0x13 + i.val, by omega⟩ := by
    rw [fin?, dif_pos (by omega)]
  unfold State.report
  rw [hfin]
  dsimp only
  split
  · exact h
  · split
    · have hfm : ∀ args, ((s.count .fault 0 0x0C 15 0).raise 0x077F clsB 0x6A args).fm = s.fm := fun _ => State.raise_fm ..
      unfold State.datumReports
      rw [hfm]
      exact h
    · intro e he
      rcases List.mem_append.mp he with hold | hnew
      · exact h e hold
      · obtain rfl := List.mem_singleton.mp hnew
        change 0x13 + i.val = 0x13 ∨ 0x13 + i.val = 0x14
        omega

/-- What each step keeps, the steps over a range keep. -/
theorem overFin_keeps {P : State → Prop} {n : Nat} {f : Fin n → State → State} (hf : ∀ i s, P s → P (f i s)) {s : State}
    (h : P s) : P (overFin n s f) := by
  unfold overFin
  induction List.finRange n generalizing s with
  | nil => exact h
  | cons i l ih => exact ih (hf i s h)

theorem State.datumReports_compareMirrors {s : State} (h : s.datumReports) : s.compareMirrors.datumReports := by
  unfold State.compareMirrors
  split
  · exact h
  · refine overFin_keeps (fun d s h => ?_) h
    dsimp only
    split
    · exact State.datumReports_report h (datIsl d) 3
    · exact h

/-- The fault manager's turn at such a report covers a datum island: the engines stand, and the queue is one shorter. -/
theorem State.cover_datum {s : State} {i : Fin 128} (hi : i.val = 0x13 ∨ i.val = 0x14) (cause : Nat) :
    (s.cover i.val cause).val .engines = s.val .engines ∧ (s.cover i.val cause).fm = s.fm := by
  have h12 : fin? 12 i.val = none := by rw [fin?, dif_neg (by omega)]
  have hk : fin? 2 (i.val - 0x13) = some ⟨i.val - 0x13, by omega⟩ := by rw [fin?, dif_pos (by omega)]
  unfold State.cover
  rw [h12, hk]
  dsimp only
  rw [if_neg (c := i.val = 0x11 ∨ i.val = 0x12) (by omega), if_neg (c := i.val = 0x52 ∨ i.val = 0x53) (by omega),
    if_neg (c := i.val = 0x58) (by omega), if_pos hi]
  split
  · exact ⟨rfl, rfl⟩
  · constructor
    · exact (State.withReloadDue_val (by decide) ..).trans (State.val_overFin (fun ch s => by simp [State.val_ite]) s)
    · exact State.fm_overFin (fun ch s => by rw [State.fm_ite, State.fm_holdOuts, ite_self]) s

theorem State.modBlk_waiting (s : State) (i : Fin 128) (f : Blk → Blk) :
    (s.modBlk i f).fm.waiting = s.fm.waiting := rfl

/-- The fault manager acts on a report of a datum island: the engines stand, and no other report comes. -/
theorem State.actOn_datum {s : State} {i : Fin 128} (hi : i.val = 0x13 ∨ i.val = 0x14) (cause : BitVec 4) :
    (s.actOn i cause).val .engines = s.val .engines ∧ (s.actOn i cause).fm.waiting = s.fm.waiting := by
  have hlol : ∀ s : State, s.lolOnly i.val cause.toNat = false := fun s => by
    rw [State.lolOnly, decide_eq_false (by omega), Bool.false_and, Bool.false_and]
  unfold State.actOn
  lift_lets
  extract_lets b u v w
  obtain ⟨hengines, hfm⟩ := State.cover_datum (s := v) hi cause.toNat
  have hv : v.val .engines = s.val .engines := by simp [v, u]
  have hvf : v.fm.waiting = s.fm.waiting := rfl
  have hw : w.val .engines = s.val .engines := hengines.trans hv
  have hwf : w.fm.waiting = s.fm.waiting := (congrArg FaultMgr.waiting hfm).trans hvf
  split
  · exact ⟨rfl, rfl⟩
  · split
    · exact ⟨hv, hvf⟩
    · rw [hlol v]
      constructor
      · simp [hw]
      · rw [if_neg (by decide), State.fm_refresh, State.modBlk_waiting, hwf]

theorem State.takeReport_datum {s : State} (h : s.datumReports) :
    s.takeReport.val .engines = s.val .engines ∧ s.takeReport.datumReports := by
  unfold State.takeReport
  split
  · exact ⟨rfl, h⟩
  · next i c rest hw =>
    have hi : i.val = 0x13 ∨ i.val = 0x14 := h (i, c) (hw ▸ List.mem_cons_self)
    obtain ⟨hengines, hwait⟩ := State.actOn_datum (s := { s with fm := { s.fm with waiting := rest } }) hi c
    refine ⟨hengines.trans (State.withFm_val ..), fun e he => h e ?_⟩
    rw [hwait] at he
    exact hw ▸ List.mem_cons_of_mem _ he

/-- The reports of a datum island, taken in their turns, leave the engines. -/
theorem State.takeReports_datum {s : State} (h : s.datumReports) : s.takeReports.val .engines = s.val .engines := by
  have htake : ∀ (l : List (Fin 128 × BitVec 4)) (t : State), t.datumReports →
      (l.foldl (fun (s : State) _ => s.takeReport) t).val .engines = t.val .engines := fun l => by
    induction l with
    | nil => exact fun _ _ => rfl
    | cons x l ih =>
      intro t ht
      obtain ⟨hengines, hnext⟩ := State.takeReport_datum ht
      exact (ih t.takeReport hnext).trans hengines
  exact htake _ s h

/-! ## An engine's wait through a datum tick (R281, R307) -/

/-- What an engine waits for, among the engines. -/
def waitAt (v : Vector Engine 8) (e : Fin 8) : Option Wait := (v[e]).wait

theorem State.drainPush_wait (s : State) (i e : Fin 8) : waitAt ((s.drainPush i).val .engines) e = waitAt (s.val .engines) e := by
  unfold State.drainPush
  split
  · rfl
  · next x rest _ =>
    have hoffer : ((s.modEng i (fun g => { g with pushq := rest })).offerSmp 5 i.val x (!s.warm) false).val .engines
        = (s.modEng i (fun g => { g with pushq := rest })).val .engines := State.offerSmp_val (by decide) ..
    rw [hoffer]
    change ((s.engines.set i { s.engines[i] with pushq := rest })[e]).wait = (s.engines[e]).wait
    by_cases h : i = e
    · subst h
      simp
    · simp [Fin.val_ne_of_ne h]

/-- A tick that meets no report but its own clocks' leaves the waits as the events' test has put them. -/
theorem State.tickRest_wait {s : State} (h : s.fm.waiting = []) (e : Fin 8) :
    waitAt (s.tickRest.val .engines) e = waitAt (s.meetEvents.val .engines) e := by
  have hreports : s.meetEvents.datumReports := by
    unfold State.datumReports
    rw [show s.meetEvents.fm = s.fm from rfl, h]
    exact fun _ he => absurd he List.not_mem_nil
  have hfirst : s.meetEvents.compareMirrors.takeReports.val .engines = s.meetEvents.val .engines :=
    (State.takeReports_datum (State.datumReports_compareMirrors hreports)).trans (State.compareMirrors_val ..)
  unfold State.tickRest
  extract_lets u v
  have hu : u.val .engines = s.meetEvents.val .engines := by
    rw [← hfirst]
    exact (State.val_overFin (fun g s => State.groupResume_val (by decide) s g) _).trans
      ((State.stewardBack_val (by decide) _).trans (State.scanTick_val (by decide) _))
  have hv : v.val .engines = u.val .engines := by
    simp only [v]
    rw [State.hourTick_val (by decide), State.serviceDue_val (by decide), State.uartTick_val (by decide),
      State.chansTurn_val (by decide)]
    exact State.val_overFin (fun n s => by simp) u
  have hdrain : ∀ t : State, waitAt ((overFin 8 t fun e s => s.drainPush e).val .engines) e = waitAt (t.val .engines) e :=
    fun t => overFin_keeps (P := fun u => waitAt (u.val .engines) e = waitAt (t.val .engines) e)
      (fun i u hu => (u.drainPush_wait i e).trans hu) rfl
  split
  · rw [hv, hu]
  · rw [hdrain, hv, hu]

/-- The clocks' part of a tick meets no event. -/
theorem State.tickClocks_event {s : State} {e : Fin 8} {rd : Fin 32} {mask timeout issue : DWord} {commits : Word}
    {met : BitVec 5} (h : (s.engines[e]).wait = some (.event rd mask timeout issue commits met)) :
    (s.tickClocks.engines[e]).wait = some (.event rd mask timeout issue commits met)
      ∧ (s.tickClocks.engines[e]).fifo = (s.engines[e]).fifo := by
  unfold State.tickClocks
  extract_lets k u v outs w
  have hrest : (overFin 8 w fun d s => if s.datUp (datIsl d) then s.tickRecords d outs[d] else s).latchEvents.val .engines
      = w.val .engines := by
    rw [State.latchEvents_val (by decide), State.val_overFin fun d s => by simp [State.val_ite]]
  have hw : w.engines = s.engines := rfl
  generalize (overFin 8 w fun d s => if s.datUp (datIsl d) then s.tickRecords d outs[d] else s).latchEvents = t at hrest ⊢
  have ht : t.engines = s.engines := (State.engines_of_val hrest).trans hw
  have hmeet : (t.meetWaits.engines[e]) = { t.engines[e] with wait := (t.engines[e]).wait.map (t.meetWait (engIsl e)) } := by
    simp [State.meetWaits]
  rw [hmeet, ht, h]
  exact ⟨rfl, rfl⟩

end Sys2Proof.Machine

namespace Sys2Proof.Machine

/-! ## The instructions on the engine's registers -/

/-- An instruction of an engine whose operation reads the state's clocks. -/
theorem runs_of_stateOp {s : State} {e : Fin 8} {i : Instr} {op : State → Cpu → NRes} {c d : Cpu}
    (h : s.runsOn (.eng e) = true) (hc : (s.engines[e]).cpu = c)
    (hexec : exec i s = doneCore s fun s => s.engOp e (op s)) (hop : op s c = .ok d) : Runs s (.eng e) i d := by
  subst hc
  have hres : s.engRes e (op s (s.engines[e]).cpu) = s.setCpu (.eng e) d := by
    rw [hop]
    rfl
  have hdone := doneCore_engIssue (g := fun s => s.engOp e (op s)) h rfl
  rw [hres, done_setCpu s (.eng e) d (State.coreUp_of_runsOn h)] at hdone
  exact hexec.trans hdone

theorem engineFaults_of_op {s : State} {e : Fin 8} {i : Instr} {op : State → Cpu → NRes} {cause : Byte}
    (h : s.runsOn (.eng e) = true) (hexec : exec i s = doneCore s fun s => s.engOp e (op s))
    (hop : op s (s.engines[e]).cpu = .error cause) : EngineFaults s e i cause := by
  refine engineFaults_of (hexec.trans ((doneCore_engIssue h rfl).trans (congrArg (done s) ?_)))
  rw [hop]
  rfl

/-! ## The waits -/

section
variable {s : State} {e : Fin 8} {c : Cpu} {ra : Fin 32} (h : s.runsOn (.eng e) = true)
include h

theorem waitt_faults {x : BitVec 9} (hbad : ra.val % 2 = 1 ∨ (8 ≤ x.toNat ∧ x.toNat ≠ 15)) :
    EngineFaults s e (.waitt e ra x) causeIllegal := by
  refine engineFaults_of ((doneCore_engIssue (g := fun s => s.engWaitt e ra x) h rfl).trans (congrArg (done s) ?_))
  dsimp only
  split
  · rfl
  · next d hd =>
    refine if_pos (hbad.elim odd_of_odd fun hx => ?_)
    exact absurd (hd.symm.trans (Cpu.clock_reserved hx)) (by simp)

theorem tnow_faults {rd : Fin 32} {x : BitVec 9} (hbad : rd.val % 2 = 1 ∨ (8 ≤ x.toNat ∧ x.toNat ≠ 15)) :
    EngineFaults s e (.tnow e rd x) causeIllegal := by
  refine engineFaults_of_op (op := fun s => opTnow s (engIsl e) rd x) h rfl ?_
  unfold opTnow
  split
  · rfl
  · next d hd =>
    refine if_pos (hbad.elim odd_of_odd fun hx => ?_)
    exact absurd (hd.symm.trans (Cpu.clock_reserved hx)) (by simp)

variable (hc : (s.engines[e]).cpu = c)
include hc

/-- WAITT on a datum clock the selector names: the wait as its target stands to the clock. -/
theorem exec_waitt {a1 : Fin 32} {x : BitVec 9} {d : Fin 8} (hd : c.clock x = some d) (hra : ra.val % 2 = 0)
    (ha1 : a1.val = ra.val + 1) :
    exec (.waitt e ra x) s = done s (s.engWait e (.time d (c.g[ra].toNat % 2 ^ 48) (c.g[a1].toNat % 2 ^ 48)
      (if ((s.datums[d]).mirs[engIsl e]).now.toInt56 ≥ waitTime (c.g[ra].toNat % 2 ^ 48) (c.g[a1].toNat % 2 ^ 48) then
        some (decide (((s.datums[d]).mirs[engIsl e]).now.toInt56
          > waitTime (c.g[ra].toNat % 2 ^ 48) (c.g[a1].toNat % 2 ^ 48))) else none)) false) := by
  subst hc
  obtain rfl : upper ra = a1 := upper_eq hra ha1
  refine (doneCore_engIssue (g := fun s => s.engWaitt e ra x) h rfl).trans (congrArg (done s) ?_)
  dsimp only
  rw [hd]
  exact if_neg (by rw [odd_of_even hra]; decide)

theorem exec_waitk : exec (.waitk e ra) s = done s (s.engWait e (.tick c.g[ra]) (decide (s.tick.toNat > c.g[ra].toNat))) := by
  subst hc
  exact doneCore_engIssue (g := fun s => s.engWaitk e ra) h rfl

variable (hdue : (s.engines[e]).prog.due = false)
include hdue

theorem exec_waitt_waits {a1 : Fin 32} {x : BitVec 9} {d : Fin 8} (hd : c.clock x = some d) (hra : ra.val % 2 = 0)
    (ha1 : a1.val = ra.val + 1) (hlt : ((s.datums[d]).mirs[engIsl e]).now.toInt56
      < waitTime (c.g[ra].toNat % 2 ^ 48) (c.g[a1].toNat % 2 ^ 48)) :
    exec (.waitt e ra x) s = .next (s.modEng e (fun g => { g with
      pcReg := c.pc, cpu := { c with pc := c.pc + 1 }, wdogFrom := s.tick, run := .waiting
      wait := some (.time d (c.g[ra].toNat % 2 ^ 48) (c.g[a1].toNat % 2 ^ 48) none) })) := by
  rw [exec_waitt h hc hd hra ha1, if_neg (Int.not_le.mpr hlt), State.engWait_waits _ _ hdue hc rfl]
  exact done_modEng e _ (State.coreUp_of_runsOn h)

theorem waitt_passes {a1 : Fin 32} {x : BitVec 9} {d : Fin 8} (hd : c.clock x = some d) (hra : ra.val % 2 = 0)
    (ha1 : a1.val = ra.val + 1) (hlt : waitTime (c.g[ra].toNat % 2 ^ 48) (c.g[a1].toNat % 2 ^ 48)
      < ((s.datums[d]).mirs[engIsl e]).now.toInt56) :
    Completes (.waitt e ra x) s (fun t => (t.engines[e]).run = .running ∧ (t.engines[e]).wdogFrom = s.tick
      ∧ (t.engines[e]).cpu = { c with
        f := fWord (c.flag 0) (c.flag 1) (c.flag 2) (c.flag 3) (c.flag 4) true, pc := c.pc + 1 }) := by
  have hexec := exec_waitt h hc hd hra ha1
  rw [if_pos (Int.le_of_lt hlt), decide_eq_true (show _ > _ from hlt)] at hexec
  obtain ⟨hrun, hdog, hcpu⟩ := State.engWait_resumes (d := c.next.setL true)
    (.time d (c.g[ra].toNat % 2 ^ 48) (c.g[a1].toNat % 2 ^ 48) (some true)) false hdue hc rfl
  exact completes_of_done hexec ⟨hrun, hdog, hcpu.trans (Cpu.setL_next c true)⟩

theorem exec_waitk_waits (hlt : s.tick.toNat < c.g[ra].toNat) :
    exec (.waitk e ra) s = .next (s.modEng e (fun g => { g with
      pcReg := c.pc, cpu := { c with pc := c.pc + 1 }, wdogFrom := s.tick, run := .waiting, wait := some (.tick c.g[ra]) })) := by
  have hend : (s.atWait e).waitEnd e (.tick c.g[ra]) c.next = none := if_neg (Nat.not_le.mpr hlt)
  rw [exec_waitk h hc, State.engWait_waits _ _ hdue hc hend]
  exact done_modEng e _ (State.coreUp_of_runsOn h)

theorem waitk_passes (hle : c.g[ra].toNat ≤ s.tick.toNat) :
    Completes (.waitk e ra) s (fun t => (t.engines[e]).run = .running ∧ (t.engines[e]).cpu = { c with
      f := fWord (c.flag 0) (c.flag 1) (c.flag 2) (c.flag 3) (c.flag 4) (decide (c.g[ra].toNat < s.tick.toNat))
      pc := c.pc + 1 }) := by
  have hend : (s.atWait e).waitEnd e (.tick c.g[ra]) c.next = some (c.next.setL false) := if_pos hle
  obtain ⟨hrun, -, hcpu⟩ := State.engWait_resumes (.tick c.g[ra]) (decide (s.tick.toNat > c.g[ra].toNat)) hdue hc hend
  refine completes_of_done (exec_waitk h hc) ⟨hrun, hcpu.trans ?_⟩
  rw [← Cpu.setL_next]
  cases hlate : decide (c.g[ra].toNat < s.tick.toNat)
  · rfl
  · exact c.setL_setL true

end

end Sys2Proof.Machine

namespace Sys2Proof.Machine

/-! ## WAITE and the swap that takes a wait's place (R289, R307) -/

/-- What a WAITE finds at its issue. -/
theorem waite_end {s : State} {e : Fin 8} {c : Cpu} {rd ra rb : Fin 32} (on : BitVec 5) (hon : on = s.waitEvents e c.g[ra] c.g[rb] s.tick 0 &&& c.g[ra].setWidth 5) :
    (s.atWait e).waitEnd e (.event rd c.g[ra] c.g[rb] s.tick 0 0) c.next
      = if on = 0 then none else some ((c.next.setZ false).put rd (on.zeroExtend 64)) := by
  rw [hon, ← State.atWait_events]
  rfl

/-- A due swap takes the place of a wait. -/
theorem swap_at_wait {s : State} {e : Fin 8} {i : Instr} {x : Sheet} (hexec : exec i s = done s (s.swapNow (.eng e) false))
    (hspare : (s.engines[e]).prog.spare = some x) :
    Completes i s (fun t => (t.engines[e]).prog.cur = some x ∧ (t.engines[e]).cpu.pc = x.entry) :=
  completes_of_done hexec (State.swapNow_engine hspare false)

section
variable {s : State} {e : Fin 8} {c : Cpu} {rd ra rb : Fin 32} (h : s.runsOn (.eng e) = true)
  (hc : (s.engines[e]).cpu = c)
include h hc

theorem exec_waite_none (hmask : c.g[ra].setWidth 5 = (0 : BitVec 5)) :
    exec (.waite e rd ra rb) s = done s (if (s.engines[e]).prog.due then s.swapNow (.eng e) false
      else (s.engPut e ((c.setZ true).put rd 0).next).modEng e (fun g => { g with wdogFrom := s.tick })) := by
  subst hc
  exact (doneCore_engIssue (g := fun s => s.engWaite e rd ra rb) h rfl).trans (congrArg (done s) (if_pos hmask))

theorem exec_waite (hmask : c.g[ra].setWidth 5 ≠ (0 : BitVec 5)) :
    exec (.waite e rd ra rb) s = done s (s.engWait e (.event rd c.g[ra] c.g[rb] s.tick 0 0) false) := by
  subst hc
  exact (doneCore_engIssue (g := fun s => s.engWaite e rd ra rb) h rfl).trans (congrArg (done s) (if_neg hmask))

theorem waite_none (hdue : (s.engines[e]).prog.due = false) (hmask : c.g[ra].setWidth 5 = (0 : BitVec 5)) :
    Completes (.waite e rd ra rb) s (fun t => (t.engines[e]).run = .running ∧ (t.engines[e]).cpu = { c with
      g := c.g.set rd 0, f := fWord true (c.flag 1) (c.flag 2) (c.flag 3) (c.flag 4) (c.flag 5), pc := c.pc + 1 }) := by
  have hexec := exec_waite_none (rd := rd) (rb := rb) h hc hmask
  rw [if_neg (by rw [hdue]; decide)] at hexec
  have hrun : (s.engines[e]).run = .running := by
    simp only [State.runsOn, Bool.and_eq_true, beq_iff_eq] at h
    exact h.2.1.1
  have heng : (((s.engPut e ((c.setZ true).put rd 0).next).modEng e (fun g => { g with wdogFrom := s.tick })).engines[e])
      = { s.engines[e] with
        cpu := ((c.setZ true).put rd 0).next, pcReg := (s.engines[e]).cpu.pc, wdogFrom := s.tick } := by
    rw [State.engPut, State.modEng_modEng, State.engines_modEng]
  have hcpu : ((c.setZ true).put rd 0).next = { c with
      g := c.g.set rd 0, f := fWord true (c.flag 1) (c.flag 2) (c.flag 3) (c.flag 4) (c.flag 5), pc := c.pc + 1 } :=
    c.events_next rd true 0
  exact completes_of_done hexec ⟨(congrArg Engine.run heng).trans hrun, (congrArg Engine.cpu heng).trans hcpu⟩

theorem waite_passes (hdue : (s.engines[e]).prog.due = false) (on : BitVec 5)
    (hon : on = s.waitEvents e c.g[ra] c.g[rb] s.tick 0 &&& c.g[ra].setWidth 5) (hne : on ≠ 0) :
    Completes (.waite e rd ra rb) s (fun t => (t.engines[e]).run = .running ∧ (t.engines[e]).cpu = { c with
      g := c.g.set rd (on.zeroExtend 64)
      f := fWord false (c.flag 1) (c.flag 2) (c.flag 3) (c.flag 4) (c.flag 5), pc := c.pc + 1 }) := by
  have hmask : c.g[ra].setWidth 5 ≠ (0 : BitVec 5) := fun hz => hne (by rw [hon, hz]; exact BitVec.and_zero)
  have hend := (waite_end (rd := rd) on hon).trans (if_neg hne)
  obtain ⟨hrun, -, hcpu⟩ := State.engWait_resumes _ false hdue hc hend
  exact completes_of_done (exec_waite h hc hmask) ⟨hrun, hcpu.trans (c.events_next rd false _)⟩

theorem waite_waits (hdue : (s.engines[e]).prog.due = false) (on : BitVec 5)
    (hon : on = s.waitEvents e c.g[ra] c.g[rb] s.tick 0 &&& c.g[ra].setWidth 5) (hz : on = 0)
    (hmask : c.g[ra].setWidth 5 ≠ (0 : BitVec 5)) :
    Completes (.waite e rd ra rb) s (fun t => (t.engines[e]).run = .waiting
      ∧ (t.engines[e]).wait = some (.event rd c.g[ra] c.g[rb] s.tick 0 0) ∧ (t.engines[e]).cpu = { c with pc := c.pc + 1 }) := by
  have hend := (waite_end (rd := rd) on hon).trans (if_pos hz)
  have hexec := exec_waite (rd := rd) (rb := rb) h hc hmask
  rw [State.engWait_waits _ _ hdue hc hend] at hexec
  refine completes_of_done hexec ?_
  rw [show ∀ f : Engine → Engine, ((s.modEng e f).engines[e]) = f s.engines[e] from s.engines_modEng e]
  exact ⟨rfl, rfl, rfl⟩

variable (hdue : (s.engines[e]).prog.due = true)
include hdue

theorem exec_waitk_swap : exec (.waitk e ra) s = done s (s.swapNow (.eng e) false) :=
  (exec_waitk h hc).trans (congrArg (done s) (if_pos hdue))

theorem exec_waite_swap : exec (.waite e rd ra rb) s = done s (s.swapNow (.eng e) false) := by
  by_cases hmask : c.g[ra].setWidth 5 = (0 : BitVec 5)
  · exact (exec_waite_none h hc hmask).trans (congrArg (done s) (if_pos hdue))
  · exact (exec_waite h hc hmask).trans (congrArg (done s) (if_pos hdue))

end

/-! ## The events that a waiting engine tests at a tick (R307) -/

theorem State.meetEvents_event {s : State} {e : Fin 8} {rd : Fin 32} {mask timeout issue : DWord} {commits : Word}
    {met : BitVec 5} (h : (s.engines[e]).wait = some (.event rd mask timeout issue commits met)) :
    (s.meetEvents.engines[e]).wait = some (.event rd mask timeout issue commits
      (if met = 0 then s.waitEvents e mask timeout issue commits &&& mask.setWidth 5 else met)) := by
  simp only [Fin.getElem_fin] at h
  simp [State.meetEvents, h]

theorem waitAt_val (s : State) (e : Fin 8) : waitAt (s.val .engines) e = (s.engines[e]).wait := rfl

/-- A command that ends in `u` but for its queue and clock has the engines of `u`. -/
theorem completes_of_next_engines {c : Instr} {s u v : State} {q : List Instr} {R : Vector Engine 8 → Prop}
    (hexec : exec c s = .next { u with pending := q, tick := v.tick, islandTick := v.islandTick }) (hR : R u.engines) :
    Completes c s (fun t => R t.engines) :=
  ⟨_, hexec, hR⟩

theorem exec_datumTick {s : State} (hup : s.coreUp = true) (htick : s.ticking = true) :
    exec .datumTick s = .next { s.tickClocks.tickRest with
      pending := s.pending, tick := s.tickClocks.tick, islandTick := s.tickClocks.islandTick } := by
  have hrun : (s.coreUp && s.ticking) = true := by rw [hup, htick]; rfl
  exact if_pos hrun

/-- What a datum tick leaves of an engine's wait for events. -/
theorem datumTick_wait {s : State} {e : Fin 8} {rd : Fin 32} {mask timeout issue : DWord} {commits : Word}
    {met : BitVec 5} {Q : Option Wait → Prop} (hup : s.coreUp = true) (htick : s.ticking = true) (hw : s.fm.waiting = [])
    (h : (s.engines[e]).wait = some (.event rd mask timeout issue commits met))
    (hQ : Q (some (.event rd mask timeout issue commits
      (if met = 0 then s.tickClocks.waitEvents e mask timeout issue commits &&& mask.setWidth 5 else met)))) :
    Completes .datumTick s (fun t => Q (t.engines[e]).wait) := by
  obtain ⟨hwait, -⟩ := State.tickClocks_event h
  have hrest := s.tickClocks.tickRest_wait (by rw [State.fm_tickClocks, hw]) e
  rw [waitAt_val, waitAt_val, State.meetEvents_event hwait] at hrest
  exact completes_of_next_engines (R := fun engines => Q (engines[e]).wait) (exec_datumTick hup htick) (hrest ▸ hQ)

/-- The lowest of five bits is set when its own term is. -/
theorem decide_bit_zero_of_odd (a b c d : ℕ) :
    (decide (0 < 5) && decide ((b2n (!false) + 2 * a + 4 * b + 8 * c + 16 * d) % 2 = 1)) = true := by
  have hone : b2n (!false) = 1 := rfl
  rw [hone, Bool.and_eq_true, decide_eq_true_eq, decide_eq_true_eq]
  omega

/-- The stamp FIFO's event, where it is enabled and stamps wait. -/
theorem State.waitEvents_fifo {s : State} {e : Fin 8} {mask timeout issue : DWord} {commits : Word}
    (hmask : mask.getLsbD 0 = true) (hfifo : (s.engines[e]).fifo ≠ []) :
    (s.waitEvents e mask timeout issue commits &&& mask.setWidth 5).getLsbD 0 = true := by
  have hsome : (s.engines[e]).fifo.isEmpty = false := by
    rw [List.isEmpty_eq_false_iff]
    exact hfifo
  have hbit : (s.waitEvents e mask timeout issue commits).getLsbD 0 = true := by
    unfold State.waitEvents
    extract_lets unit sem
    rw [BitVec.getLsbD_ofNat, hsome, Nat.testBit_zero]
    exact decide_bit_zero_of_odd _ _ _ _
  rw [BitVec.getLsbD_and, hbit, BitVec.getLsbD_setWidth, hmask]
  decide

theorem datumTick_keeps_events {s : State} {e : Fin 8} {rd : Fin 32} {mask timeout issue : DWord} {commits : Word}
    {met : BitVec 5} (hup : s.coreUp = true) (htick : s.ticking = true) (hw : s.fm.waiting = [])
    (h : (s.engines[e]).wait = some (.event rd mask timeout issue commits met)) (hmet : met ≠ 0) :
    Completes .datumTick s (fun t => (t.engines[e]).wait = some (.event rd mask timeout issue commits met)) :=
  datumTick_wait (Q := fun w => w = some (.event rd mask timeout issue commits met)) hup htick hw h (by rw [if_neg hmet])

theorem datumTick_meets_fifo {s : State} {e : Fin 8} {rd : Fin 32} {mask timeout issue : DWord} {commits : Word}
    {met : BitVec 5} (hup : s.coreUp = true) (htick : s.ticking = true) (hw : s.fm.waiting = [])
    (h : (s.engines[e]).wait = some (.event rd mask timeout issue commits met)) (hmet : met = 0)
    (hmask : mask.getLsbD 0 = true) (hfifo : (s.engines[e]).fifo ≠ []) : Completes .datumTick s (fun t =>
      ∃ on : BitVec 5, (t.engines[e]).wait = some (.event rd mask timeout issue commits on) ∧ on.getLsbD 0 = true) := by
  obtain ⟨-, hkept⟩ := State.tickClocks_event h
  refine datumTick_wait (Q := fun w => ∃ on : BitVec 5, w = some (.event rd mask timeout issue commits on)
    ∧ on.getLsbD 0 = true) hup htick hw h ⟨_, rfl, ?_⟩
  rw [if_pos hmet]
  have hticked : (s.tickClocks.engines[e]).fifo ≠ [] := by
    rw [hkept]
    exact hfifo
  exact State.waitEvents_fifo hmask hticked

/-- Settles O35: each clause is the rule of its instruction; the last is the events' test at a tick. -/
theorem nimyorTimeAndWaits : Obligations.NimyorTimeAndWaits := by
  unfold Obligations.NimyorTimeAndWaits
  refine ⟨fun s e c rd r1 ra a1 rb b1 x d h hc hrd hra hrb h1 ha1 hb1 hx => ?_, fun s e c rd ra rb x h hc => ?_,
    fun s e rd mask timeout issue commits met hup htick hw h => ?_⟩
  · have hd := Cpu.clock_of hx
    refine ⟨fun t ht => ?_, ?_, fun t q v sec ht hq h0 hv hsec => ?_, fun y hy => ?_, fun hdue =>
      ⟨exec_waitt_waits h hc hdue hd hra ha1, waitt_passes h hc hdue hd hra ha1⟩⟩
    · subst ht
      exact runs_of_stateOp (op := fun s => opTnow s (engIsl e) rd x) h hc rfl (opTnow_eq hd hrd h1)
    · exact runs_of_stateOp (op := fun s => opTick s e rd) h hc rfl rfl
    · exact runs_of_stateOp (op := fun _ => opTadd rd ra rb) h hc rfl (opTadd_eq hrd hra h1 ha1 ht hq h0 hv hsec)
    · exact runs_of_stateOp (op := fun _ => opTdif rd ra rb) h hc rfl (opTdif_eq hra hrb ha1 hb1 hy)
  · refine ⟨tnow_faults h, waitt_faults h, fun hodd => ?_, fun hdue => ⟨exec_waitk_waits h hc hdue, waitk_passes h hc hdue,
      waite_none h hc hdue, fun on hon => ⟨waite_passes h hc hdue on hon, waite_waits h hc hdue on hon⟩⟩,
      fun sh hdue hspare => ⟨swap_at_wait (exec_waitk_swap h hc hdue) hspare,
        swap_at_wait (exec_waite_swap h hc hdue) hspare⟩⟩
    exact engineFaults_of_op (op := fun _ => opTadd rd ra rb) h rfl (if_pos (hodd.imp odd_of_odd odd_of_odd))
  · exact ⟨datumTick_keeps_events hup htick hw h, datumTick_meets_fifo hup htick hw h⟩

end Sys2Proof.Machine

/-! SUPPORT. PROOFS. Power domains (R389 to R392). -/

namespace Sys2Proof.Machine

/-! ## One bit of DOM_REQ (R390, R391) -/

theorem lt_54_of_keeper {d : Nat} (h : domCtl d = .keeper) : d < 54 := by
  by_contra hge
  rw [domCtl, if_neg (by omega)] at h
  split at h
  · exact absurd h (by decide)
  · split at h <;> exact absurd h (by decide)

/-- The words of DOM_REQ that hold the KEEPER domains. -/
theorem domReq_place : ∀ w < 2, placeOf (key .power 0 (4 * w)) = some ⟨.power, 0, 4 * w⟩
    ∧ (⟨.power, 0, 4 * w⟩ : Place).keeperWord = true ∧ (⟨.power, 0, 4 * w⟩ : Place).ofPath = false := by
  decide

/-- A keeper's write of some bits of a register of one word whose every bit keepers write: the register's own effect. -/
theorem State.placeWrite_keeperBits {s : State} {p : Path} {pl : Place} {sel v : Word} (hr : pl.keeperWord = true)
    (hd : s.placeDown pl = false) (hk : s.keeperAt p pl = true) (hsel : sel ≠ 0) :
    ∃ w : Wr, w.pl = pl ∧ w.sel = sel ∧ (∃ old, w.new = mix sel old v) ∧ s.placeWrite p pl sel v false none = s.writeAt w := by
  simp only [Place.keeperWord, Bool.and_eq_true, beq_iff_eq, Bool.not_eq_true', Option.isNone_iff_eq_none] at hr
  obtain ⟨⟨⟨hl, hw⟩, hbits⟩, -⟩ := hr
  have hmask : (pl.reg.rw ||| pl.reg.rwk) &&& sel = sel := by
    rw [hbits]
    exact BitVec.allOnes_and
  rw [State.placeWrite, if_neg (by rw [hl]; decide), if_neg (by rw [hd]; decide)]
  simp only [hk, hw, Bool.not_true, Bool.false_and, Bool.false_eq_true, if_false, if_true, hmask, hsel, false_and, or_self]
  exact ⟨_, rfl, rfl, ⟨_, rfl⟩, rfl⟩

theorem bitOf_mkBit_mod (d i : Nat) (hi : i < 32) : bitOf (mkBit (d % 32) true) i = decide (i = d % 32) :=
  bitOf_mkBit ⟨d % 32, Nat.mod_lt d (by decide)⟩ ⟨i, hi⟩

/-- A write that reaches one bit of DOM_REQ is that bit's, counted where it is refused. -/
theorem State.domWrite_mkBit (s : State) (d : Fin 108) (v : Word) :
    s.domWrite (d.val / 32) (mkBit (d.val % 32) true) v
      = if (s.domBit d (bitOf v (d.val % 32))).2 then (s.domBit d (bitOf v (d.val % 32))).1.rcCount .power 0 0x20 15 0
        else (s.domBit d (bitOf v (d.val % 32))).1 := by
  have hd : fin? 108 (32 * (d.val / 32) + d.val % 32) = some d := by
    rw [Nat.div_add_mod, fin?, dif_pos d.isLt]
  have hmod : d.val % 32 < 32 := Nat.mod_lt _ (by decide)
  unfold State.domWrite
  rw [List.foldl_ext _ (fun (a : State × Bool) k => if k = d.val % 32
    then ((a.1.domBit d (bitOf v (d.val % 32))).1, a.2 || (a.1.domBit d (bitOf v (d.val % 32))).2) else a),
    foldl_range_single, if_pos hmod]
  · simp only [Bool.false_or]
  · intro a k hk
    by_cases hkd : k = d.val % 32
    · subst hkd
      simp only [hd, bitOf_mkBit_mod _ _ hmod, decide_true, if_true]
    · simp only [bitOf_mkBit_mod _ _ (List.mem_range.mp hk), hkd, decide_false, Bool.false_eq_true, if_false]
      split <;> rfl

/-- A keeper's request of a KEEPER domain is the write of the domain's bit. -/
theorem domainRequest_eq {s : State} {p : Path} {d : Fin 108} (on : Bool)
    (hk : s.keeps p .power 0 (4 * (d.val / 32)) = true) (hctl : domCtl d.val = .keeper) :
    domainRequest s p d on = done s (if (s.domBit d on).2 then (s.domBit d on).1.rcCount .power 0 0x20 15 0
      else (s.domBit d on).1) := by
  have hd := lt_54_of_keeper hctl
  obtain ⟨hplace, hword, hpath⟩ := domReq_place (d.val / 32) (by omega)
  simp only [State.keeps, State.reaches, Bool.and_eq_true, Bool.not_eq_true'] at hk
  obtain ⟨⟨⟨hc, he⟩, hdown⟩, hkeep⟩ := hk
  have hsel : mkBit (d.val % 32) true ≠ 0 := fun h => by
    have hbit := bitOf_mkBit_mod d.val _ (Nat.mod_lt d.val (show 0 < 32 by decide))
    rw [h, decide_eq_true rfl] at hbit
    exact absurd hbit (by simp [bitOf])
  obtain ⟨w, hpl, hws, ⟨old, hnew⟩, hwrite⟩ := State.placeWrite_keeperBits
    (v := if on then mkBit (d.val % 32) true else 0) hword hdown hkeep hsel
  have hbit : bitOf w.new (d.val % 32) = on := by
    have hself : bitOf (mkBit (d.val % 32) true) (d.val % 32) = true := by
      rw [bitOf_mkBit_mod _ _ (Nat.mod_lt _ (by decide))]
      exact decide_eq_true rfl
    rw [bitOf] at hself
    rw [hnew, bitOf, mix, BitVec.getLsbD_or, BitVec.getLsbD_and, BitVec.getLsbD_and, BitVec.getLsbD_not, hself]
    cases on <;> simp [hself]
  have heffect : s.writeAt w = s.domWrite (d.val / 32) (mkBit (d.val % 32) true) w.new := by
    simp only [State.writeAt, hpl, hws]
    rw [if_pos (by omega), Nat.mul_div_cancel_left _ (by decide)]
  rw [domainRequest, access_of_carries _ _ hc, State.fieldWrite,
    State.hubWrite_eq_placeWrite _ _ _ _ he hplace hpath, hwrite, heffect, State.domWrite_mkBit, hbit]

theorem State.setFld_bit (s : State) (b : Block) (i o n : Nat) (v : Bool) (hn : n < 32) :
    (s.setFld b i o n n (b2n v)).rb b i o n = v := by
  have hwidth : 2 ^ (n + 1 - n) = 2 := by rw [Nat.add_sub_cancel_left, Nat.pow_one]
  rw [State.rb, State.setFld, show ∀ w, (s.wr b i o w).r b i o = w from s.setReg_same _, hwidth]
  have hone : (fld (2 - 1) n).getLsbD n = true := by
    rw [fld, Nat.one_mul, BitVec.getLsbD_ofNat, Nat.testBit_two_pow_self, decide_eq_true hn]
    rfl
  have hbit : (fld (b2n v % 2) n).getLsbD n = v := by
    cases v with
    | false => simp [fld, b2n]
    | true => exact hone
  rw [bitOf, mix, BitVec.getLsbD_or, BitVec.getLsbD_and, BitVec.getLsbD_and, BitVec.getLsbD_not, hone, hbit]
  simp

theorem State.domReq_of_keeper {s : State} {d : Fin 108} (h : domCtl d.val = .keeper) :
    s.domReq d = s.rb .power 0 (4 * (d.val / 32)) (d.val % 32) := by
  rw [State.domReq, h]

section
variable {s : State} {p : Path} {d : Fin 108} (hk : s.keeps p .power 0 (4 * (d.val / 32)) = true)
  (hctl : domCtl d.val = .keeper)
include hk hctl

theorem request_granted {on : Bool} {t : State} (hbit : s.domBit d on = (t, false)) : domainRequest s p d on = done s t := by
  rw [domainRequest_eq on hk hctl, hbit, if_neg Bool.false_ne_true]

theorem powerDown_idle (hreq : s.domReq d = true) (hidle : s.domIdle d.val = true) :
    Completes (.domainPowerDown p d) s (fun t => t.domOn[d] = false ∧ t.domReq d = false
      ∧ ∀ e : Fin 108, e ≠ d → t.domOn[e] = s.domOn[e]) := by
  have hbit : s.domBit d false = ({ s.setFld .power 0 (4 * (d.val / 32)) (d.val % 32) (d.val % 32) (b2n false) with
      domOn := s.domOn.set d false, domRising := s.domRising.set d false }, false) := by
    rw [State.domBit, if_neg (by rw [hctl]; decide), if_neg (by rw [hreq]; decide), if_neg (by decide), if_pos hidle]
  refine completes_of_done (request_granted hk hctl hbit) ⟨?_, ?_, fun e he => ?_⟩
  · exact Vector.getElem_set_self _
  · rw [State.domReq_of_keeper hctl]
    exact State.setFld_bit s .power 0 _ _ false (Nat.mod_lt _ (by decide))
  · exact Vector.getElem_set_ne d.isLt e.isLt (fun h => he (Fin.ext h.symm))

theorem powerUp_railed (hreq : s.domReq d = false) (hrail : s.railOff d.val = false) :
    Completes (.domainPowerUp p d) s (fun t => t.domRising[d] = true ∧ t.domReq d = true ∧ t.domOn = s.domOn) := by
  have hbit : s.domBit d true = ({ s.setFld .power 0 (4 * (d.val / 32)) (d.val % 32) (d.val % 32) (b2n true) with
      domRising := s.domRising.set d true }, false) := by
    rw [State.domBit, if_neg (by rw [hctl]; decide), if_neg (by rw [hreq]; decide), if_pos rfl,
      if_neg (by rw [hrail]; decide)]
  refine completes_of_done (request_granted hk hctl hbit) ⟨?_, ?_, rfl⟩
  · exact Vector.getElem_set_self _
  · rw [State.domReq_of_keeper hctl]
    exact State.setFld_bit s .power 0 _ _ true (Nat.mod_lt _ (by decide))

/-- A refused request is counted and does nothing else. -/
theorem request_refused {on : Bool} (hbit : s.domBit d on = (s, true)) :
    domainRequest s p d on = .next (s.rcCount .power 0 0x20 15 0) := by
  have hup : s.coreUp = true := State.coreUp_of_keeps hk
  rw [domainRequest_eq on hk hctl, hbit, if_pos rfl]
  exact done_eq_next rfl rfl rfl rfl hup

theorem powerDown_busy (hreq : s.domReq d = true) (hidle : s.domIdle d.val = false) :
    exec (.domainPowerDown p d) s = .next (s.rcCount .power 0 0x20 15 0) := by
  refine request_refused hk hctl ?_
  rw [State.domBit, if_neg (by rw [hctl]; decide), if_neg (by rw [hreq]; decide), if_neg (by decide),
    if_neg (by rw [hidle]; decide)]

theorem powerUp_unrailed (hreq : s.domReq d = false) (hrail : s.railOff d.val = true) :
    exec (.domainPowerUp p d) s = .next (s.rcCount .power 0 0x20 15 0) := by
  refine request_refused hk hctl ?_
  rw [State.domBit, if_neg (by rw [hctl]; decide), if_neg (by rw [hreq]; decide), if_pos rfl, if_pos hrail]

end

/-! ## The release and the supply of a domain (R376, R382, R390) -/

end Sys2Proof.Machine

/-! SUPPORT. PROOFS. The release and the supply of a power domain, a survey group's rail (R376, R382, R390, R445). -/

namespace Sys2Proof.Machine

/-! ## The release of a domain (R390) -/

/-- What a released domain clears is no domain's state. -/
theorem State.domClear_power (s : State) (d : Nat) : (s.domClear d).val .power = s.val .power := by
  unfold State.domClear
  split
  · rfl
  split
  · refine State.val_foldl (fun s n => ?_) _ s
    split
    · rfl
    · exact State.modLoop_val (by decide) ..
  split
  · rfl
  split
  · refine State.val_foldl (fun s e => ?_) _ s
    split
    · rfl
    · exact (State.modPath_val (by decide) ..).trans (State.modEng_val (by decide) ..)
  split
  · split
    · exact (State.modGroup_val (by decide) ..).trans (State.val_foldl (fun s c => State.modChan_val (by decide) ..) _ s)
    · rfl
  · rfl

/-- The shadow's return writes registers alone. -/
theorem State.restore_power (f : Nat × Word → List (Nat × Word) → List (Nat × Word)) (l : List (Nat × Word)) (s : State) :
    (l.foldl (fun (s : State) e => { s with regs := f e s.regs }) s).val .power = s.val .power := by
  refine State.val_foldl ?_ l s
  exact fun _ _ => rfl

theorem State.domRelease_power {s : State} {d : Fin 108} (h : s.domRising[d] = true) :
    (s.domRelease d).val .power = (s.domOn.set d true, s.domRising.set d false) := by
  unfold State.domRelease
  rw [if_neg (by rw [h]; decide)]
  extract_lets mine u v w
  have hw : w.val .power = v.val .power := State.restore_power (fun e regs =>
    mapSet regs e.1 (mix (coverOf e.1) (resetWord e.1) e.2) (resetWord e.1)) _ v
  rw [State.refresh_val (by decide), State.domClear_power, hw]
  rfl

theorem State.power_of_val {s : State} {q : Vector Bool 108 × Vector Bool 108} (h : s.val .power = q) :
    s.domOn = q.1 ∧ s.domRising = q.2 :=
  ⟨congrArg Prod.fst h, congrArg Prod.snd h⟩

theorem domainRelease_rises {s : State} {d : Fin 108} (hup : s.coreUp = true) (h : s.domRising[d] = true) :
    Completes (.domainRelease d) s (fun t => t.domOn[d] = true ∧ t.domRising[d] = false) := by
  obtain ⟨hon, hrising⟩ := State.power_of_val (State.domRelease_power h)
  refine completes_of_doneCore (f := fun s => s.domRelease d) rfl hup rfl ⟨?_, ?_⟩
  · exact (congrArg (fun v => v[d]) hon).trans (Vector.getElem_set_self _)
  · exact (congrArg (fun v => v[d]) hrising).trans (Vector.getElem_set_self _)

theorem domainRelease_idle {s : State} {d : Fin 108} (hup : s.coreUp = true) (h : s.domRising[d] = false) :
    exec (.domainRelease d) s = .next s :=
  doneCore_same (f := fun s => s.domRelease d) hup (if_pos h)

/-! ## The supply of a domain (R376, R382) -/

/-- What the queue of self-tests of banks holds is no byte of the memory. -/
theorem Memory.setBytes_banks (m : Memory) (a : Nat) (bs : List Byte) :
    (m.setBytes a bs).testBank = m.testBank ∧ (m.setBytes a bs).bankWait = m.bankWait := by
  induction bs generalizing m a with
  | nil => exact ⟨rfl, rfl⟩
  | cons b bs ih => exact ih (m.setByte a b) (a + 1)

/-- The banks that the fault manager has to test. -/
def State.banks (s : State) : Option (Fin 25) × List (Fin 25) :=
  (s.mem.testBank, s.mem.bankWait)

theorem State.memWrite_banks (s : State) (a : Nat) (bs : List Byte) : (s.memWrite a bs).banks = s.banks :=
  Prod.ext (s.mem.setBytes_banks a bs).1 (s.mem.setBytes_banks a bs).2

theorem State.noteSignal_banks (s : State) : s.noteSignal.banks = s.banks := by
  rw [State.banks, State.banks, State.mem_noteSignal]

theorem State.offer_banks (s : State) (o : Offer) : (s.offer o).banks = s.banks := by
  unfold State.offer
  split
  · unfold State.enter
    extract_lets wr t u src v
    have hv : v.banks = u.banks := rfl
    have hu : u.banks = t.banks := rfl
    rw [State.noteSignal_banks, hv, hu, State.memWrite_banks]
  · unfold State.lose
    extract_lets n u v
    rfl

theorem State.raise_banks (s : State) (id : Nat) (cls : BitVec 2) (code : Byte) (args : BitVec 64) :
    (s.raise id cls code args).banks = s.banks := by
  unfold State.raise State.raiseAt
  dsimp only
  split
  · rfl
  · split
    · exact State.offer_banks ..
    · rfl

theorem State.supplyFault_power (s : State) (d : Fin 108) : (s.supplyFault d).val .power = s.val .power := by
  unfold State.supplyFault
  extract_lets u
  have hu : u.val .power = s.val .power := State.raise_val ..
  split
  · rw [State.bankReport_val, hu]
  · split
    · rw [State.report_val, hu]
    · exact hu

/-- The block of a bank's domain is the memory's. -/
theorem domBlock_bank {d : Nat} (h : 83 ≤ d) : domBlock d = some 0x58 := by
  unfold domBlock
  repeat' rw [if_neg (by omega)]

/-- A block whose supply has left its range waits for the fault manager. -/
theorem State.supplyFault_waits {s : State} {d : Fin 108} {i : Fin 128} (hblock : domBlock d.val = some i.val)
    (ht : (s.fm.blks[i]).st ≠ .testing) (hroom : s.fm.waiting.length < 64)
    (hbank : 83 ≤ d.val → ∀ q, s.mem.testBank = some q → q.val = d.val - 83) :
    (s.supplyFault d).fm.waiting.any (fun e => decide (e.1 = i)) = true := by
  have hwaits : ∀ u : State, u.fm = s.fm → (u.report i.val 0xA).fm.waiting.any (fun e => decide (e.1 = i)) = true := by
    intro u hu
    rw [← hu] at ht hroom
    simpa only [Fin.ext_iff] using State.report_waits 0xA hroom ht
  unfold State.supplyFault
  extract_lets u
  have hfm : u.fm = s.fm := State.raise_fm ..
  have hbanks : u.banks = s.banks := State.raise_banks ..
  have htest : u.mem.testBank = s.mem.testBank := congrArg Prod.fst hbanks
  split
  case isTrue hge =>
    have hi : i.val = 0x58 := Option.some.inj (hblock.symm.trans (domBlock_bank hge))
    rw [State.bankReport, if_pos]
    · rw [← hi]
      exact hwaits _ hfm
    · rw [htest]
      cases hq : s.mem.testBank with
      | none => exact .inl rfl
      | some q => exact .inr (congrArg some (Fin.ext ((hbank hge q hq).trans
          (Nat.mod_eq_of_lt (show d.val - 83 < 25 by omega)).symm)))
  case isFalse =>
    rw [hblock]
    exact hwaits u hfm

/-- A bank whose supply has left its range waits behind the one that is being tested (R364). -/
theorem State.supplyFault_queues {s : State} {d : Fin 108} {q p : Fin 25} (hp : p.val = d.val - 83) (hd : 83 ≤ d.val)
    (hq : s.mem.testBank = some q) (hne : q ≠ p) :
    p ∈ (s.supplyFault d).mem.bankWait ∧ (s.supplyFault d).mem.testBank = some q
      ∧ (s.supplyFault d).fm.waiting = s.fm.waiting := by
  have hfin : finMod 25 (d.val - 83) = p := Fin.ext ((congrArg (· % 25) hp.symm).trans (Nat.mod_eq_of_lt p.isLt))
  unfold State.supplyFault
  extract_lets u
  have hfm : u.fm = s.fm := State.raise_fm ..
  have hbanks : u.banks = s.banks := State.raise_banks ..
  have htest : u.mem.testBank = some q := (congrArg Prod.fst hbanks).trans hq
  have hother : ¬ (u.mem.testBank = none ∨ u.mem.testBank = some p) := by
    rw [htest]
    simpa using hne
  rw [if_pos hd, hfin, State.bankReport, if_neg hother]
  by_cases hwait : u.mem.bankWait.contains p = true
  · rw [if_pos hwait]
    exact ⟨List.contains_iff_mem.mp hwait, htest, congrArg (·.waiting) hfm⟩
  · rw [if_neg hwait]
    exact ⟨List.mem_append_right _ List.mem_cons_self, htest, congrArg (·.waiting) hfm⟩

theorem supply_waits {s : State} {d : Fin 108} {i : Fin 128} (hup : s.coreUp = true) (hblock : domBlock d.val = some i.val)
    (ht : (s.fm.blks[i]).st ≠ .testing) (hroom : s.fm.waiting.length < 64)
    (hbank : 83 ≤ d.val → ∀ q, s.mem.testBank = some q → q.val = d.val - 83) :
    Completes (.supply d) s (fun t => t.fm.waiting.any (fun e => decide (e.1 = i)) = true ∧ t.domOn = s.domOn) :=
  completes_of_doneCore (f := fun s => s.supplyFault d) rfl hup rfl
    ⟨State.supplyFault_waits hblock ht hroom hbank, (State.power_of_val (s.supplyFault_power d)).1⟩

theorem supply_queues {s : State} {d : Fin 108} {q p : Fin 25} (hup : s.coreUp = true) (hp : p.val = d.val - 83)
    (hd : 83 ≤ d.val) (hq : s.mem.testBank = some q) (hne : q ≠ p) :
    Completes (.supply d) s (fun t => p ∈ t.mem.bankWait ∧ t.mem.testBank = some q ∧ t.fm.waiting = s.fm.waiting
      ∧ t.domOn = s.domOn) := by
  obtain ⟨hwait, htest, hfm⟩ := State.supplyFault_queues hp hd hq hne
  exact completes_of_doneCore (f := fun s => s.supplyFault d) rfl hup rfl
    ⟨hwait, htest, hfm, (State.power_of_val (s.supplyFault_power d)).1⟩

end Sys2Proof.Machine

/-! SUPPORT. PROOFS. The rail of a survey group (R445). -/

namespace Sys2Proof.Machine

/-! ## What a channel brings to its pin -/

/-- The level to which its functions have brought a channel, and the one at its ball. -/
def Chan.pin (c : Chan) : Drive × Bool :=
  (c.drv, c.level)

/-- The pins of all channels. -/
def State.pins (s : State) : Vector (Drive × Bool) 192 :=
  s.chans.map Chan.pin

theorem State.pins_of_chans {s t : State} (h : t.chans = s.chans) : t.pins = s.pins :=
  congrArg (Vector.map Chan.pin) h

theorem State.pins_modChan (s : State) (ch : Fin 192) {f : Chan → Chan} (hf : ∀ c, (f c).pin = c.pin) :
    (s.modChan ch f).pins = s.pins := by
  refine Vector.ext fun i hi => ?_
  rw [State.pins, State.pins, Vector.getElem_map, Vector.getElem_map, State.modChan_chans, Vector.getElem_set]
  split
  case isTrue h =>
    subst h
    exact hf _
  case isFalse => rfl

theorem State.pins_ite (c : Prop) [Decidable c] (a b : State) : (if c then a else b).pins = if c then a.pins else b.pins :=
  apply_ite State.pins c a b

theorem State.pins_foldl {α : Type} {f : State → α → State} (hf : ∀ s x, (f s x).pins = s.pins) (l : List α) (s : State) :
    (l.foldl f s).pins = s.pins := by
  induction l generalizing s with
  | nil => rfl
  | cons x l ih => rw [List.foldl_cons, ih, hf]

theorem State.pins_ballEmit (s : State) (ch : Fin 192) (e : Emission) : (s.ballEmit ch e).pins = s.pins := by
  rw [State.ballEmit, State.pins_ite]
  exact ite_self _

theorem State.pins_txStall (s : State) (ch : Fin 192) : (s.txStall ch).pins = s.pins := by
  unfold State.txStall
  split
  · extract_lets n u
    have hu : u.pins = s.pins := by
      refine (State.pins_ite ..).trans ?_
      rw [State.pins_ballEmit, ite_self]
    refine (State.pins_modChan u ch ?_).trans hu
    exact fun _ => rfl
  · rfl

theorem State.pins_txAdvance (s : State) (ch : Fin 192) : (s.txAdvance ch).pins = s.pins := by
  unfold State.txAdvance
  split
  · exact State.pins_txStall s ch
  · extract_lets u c
    have hu : u.pins = s.pins := by
      refine (State.pins_ite ..).trans ?_
      rw [State.pins_modChan, ite_self]
      exact fun _ => rfl
    refine (State.pins_foldl (fun s f => State.pins_ballEmit ..) _ _).trans ((State.pins_modChan u ch ?_).trans hu)
    exact fun _ => rfl

theorem State.pins_txPut (s : State) (ch : Fin 192) (k : DWord) (bs : List Byte) : (s.txPut ch k bs).pins = s.pins := by
  unfold State.txPut
  split
  · refine State.pins_modChan s ch ?_
    exact fun _ => rfl
  · refine State.pins_modChan s ch ?_
    exact fun _ => rfl

theorem State.pins_sendTod (s : State) (ch : Fin 192) : (s.sendTod ch).pins = s.pins := by
  have hdue : ∀ (u : State) (rest : List TodDue), (u.modChan ch (fun q => { q with todDue := rest })).pins = u.pins := by
    intro u rest
    refine State.pins_modChan u ch ?_
    exact fun _ => rfl
  have hseq : ∀ (u : State) (k : DWord),
      (u.modChan ch (fun q => { q with todSeq := q.todSeq + 1, todLast := k })).pins = u.pins := by
    intro u k
    refine State.pins_modChan u ch ?_
    exact fun _ => rfl
  unfold State.sendTod
  dsimp only
  repeat' split
  all_goals simp only [State.pins_txPut, hdue, hseq, State.pins_txAdvance]

theorem State.pins_holdOuts (s : State) (ch : Fin 192) : (s.holdOuts ch).pins = s.pins :=
  (State.pins_txStall ..).trans (State.pins_foldl (fun s _ => State.pins_sendTod s ch) _ s)

theorem State.pins_groupDrive (s : State) (g : Fin 12) (on : Bool) (k : DWord) : (s.groupDrive g on k).pins = s.pins := by
  refine State.pins_foldl (fun s c => ?_) _ s
  exact (State.pins_ite ..).trans (ite_self _)

theorem State.pins_modGroup (s : State) (g : Fin 12) (f : Group → Group) : (s.modGroup g f).pins = s.pins :=
  rfl

/-! ## The rail departs, and is back -/

theorem State.svMismatch_held {s : State} {g : Fin 12} (within : Bool) (h : (s.groups[g]).supplyHeld = true) :
    s.svMismatch g within = s.modGroup g (fun q => { q with supplyBack := within }) :=
  if_pos h

theorem State.svMismatch_within {s : State} {g : Fin 12} (h : (s.groups[g]).supplyHeld = false) : s.svMismatch g true = s := by
  rw [State.svMismatch, if_neg (by rw [h]; decide), if_pos rfl]

theorem State.svMismatch_departs {s : State} {g : Fin 12} (h : (s.groups[g]).supplyHeld = false) :
    ((s.svMismatch g false).groups[g]).supplyHeld = true ∧ (s.svMismatch g false).pins = s.pins := by
  rw [State.svMismatch, if_neg (by rw [h]; decide), if_neg (by decide)]
  extract_lets u
  have hu : u.pins = s.pins := State.pins_foldl (fun s c => State.pins_holdOuts s (chIx g c)) _ s
  constructor
  · rw [(State.raise_service ..).groups, State.modGroup_groups]
    exact congrArg Group.supplyHeld (Vector.getElem_set_self _)
  · exact (State.pins_of_chans (State.raise_service ..).chans).trans ((State.pins_modGroup ..).trans
      ((State.pins_groupDrive ..).trans hu))

theorem exec_svSupplyMismatch {s : State} (g : Fin 12) (within : Bool) (hup : s.coreUp = true) :
    exec (.svSupplyMismatch g within) s = done s (s.svMismatch g within) :=
  if_pos hup

theorem svSupply_held {s : State} {g : Fin 12} (within : Bool) (hup : s.coreUp = true) (h : (s.groups[g]).supplyHeld = true) :
    exec (.svSupplyMismatch g within) s = .next (s.modGroup g (fun q => { q with supplyBack := within })) := by
  rw [exec_svSupplyMismatch g within hup, State.svMismatch_held within h]
  exact done_eq_next rfl rfl rfl rfl hup

theorem svSupply_within {s : State} {g : Fin 12} (hup : s.coreUp = true) (h : (s.groups[g]).supplyHeld = false) :
    exec (.svSupplyMismatch g true) s = .next s := by
  rw [exec_svSupplyMismatch g true hup, State.svMismatch_within h]
  exact done_eq_next rfl rfl rfl rfl hup

theorem svSupply_departs {s : State} {g : Fin 12} (hup : s.coreUp = true) (h : (s.groups[g]).supplyHeld = false) :
    Completes (.svSupplyMismatch g false) s (fun t => (t.groups[g]).supplyHeld = true
      ∧ ∀ ch : Fin 192, (t.chans[ch]).drv = (s.chans[ch]).drv ∧ (t.chans[ch]).level = (s.chans[ch]).level) := by
  obtain ⟨hheld, hpins⟩ := State.svMismatch_departs h
  refine completes_of_done (exec_svSupplyMismatch g false hup) ⟨hheld, fun ch => ?_⟩
  have hch : ((s.svMismatch g false).chans[ch]).pin = (s.chans[ch]).pin := by
    simpa [State.pins] using congrArg (fun v => v[ch]) hpins
  exact ⟨congrArg Prod.fst hch, congrArg Prod.snd hch⟩

end Sys2Proof.Machine

/-! SUPPORT. PROOFS. Resets and reset release (R393 to R395, R401, R403). -/

namespace Sys2Proof.Machine

/-! ## What a reset of the core leaves (R394) -/

theorem State.countReset_cells (s : State) (cause : Nat) : (s.countReset cause).arch.cells = s.arch.cells := by
  unfold State.countReset State.arcCount
  split
  · rfl
  · rfl

theorem State.countReset_val {p : Part} (h : p ≠ .arch) (s : State) (cause : Nat) : (s.countReset cause).val p = s.val p :=
  State.arcCount_val h ..

theorem State.withCoreUp_val {p : Part} (h : p ≠ .clock) (s : State) (b : Bool) : ({ s with coreUp := b }).val p = s.val p := by
  cases p
  case clock => exact absurd rfl h
  all_goals rfl

theorem State.bootNotice_val {p : Part} (h : p ≠ .clock) (s : State) (m : Mode) : (s.bootNotice m).val p = s.val p :=
  (State.withCoreUp_val h _ _).trans ((State.raise_val ..).trans (State.withCoreUp_val h s true))

/-- The state before a reset, with the change of mode in the archive log. -/
def State.resetLogged (s : State) : State :=
  if s.boot.mode = .boot then s else s.log (.mode 0)

theorem State.resetLogged_val {p : Part} (h : p ≠ .arch) (s : State) : s.resetLogged.val p = s.val p := by
  rw [State.resetLogged, State.val_ite, State.log_val h, ite_self]

theorem State.resetLogged_cells (s : State) : s.resetLogged.arch.cells = s.arch.cells := by
  unfold State.resetLogged
  split
  · rfl
  · exact State.log_cells ..

theorem State.coreCleared_eq (s : State) (cause : BitVec 4) :
    (s.coreCleared cause).coreUp = false ∧ (s.coreCleared cause).boot.rcause = cause
      ∧ (s.coreCleared cause).arch = s.resetLogged.arch
      ∧ (s.coreCleared cause).val .bus = (s.resetLogged.mbs.map MbPort.unclocked, s.resetLogged.gaz, s.resetLogged.xfer, s.resetLogged.peerMir)
      ∧ (s.coreCleared cause).notices = State.reset.notices :=
  ⟨rfl, rfl, rfl, rfl, rfl⟩

/-- A reset of a core that is up: it is held, its cause kept, the standby island's buses and the archive as they were. -/
theorem State.coreReset_eq (s : State) (cause : BitVec 4) : (s.coreReset cause).coreUp = false
    ∧ (s.coreReset cause).boot.rcause = cause ∧ (s.coreReset cause).arch.cells = s.arch.cells
    ∧ (s.coreReset cause).mbs = s.mbs.map MbPort.unclocked ∧ (s.coreReset cause).gaz = s.gaz := by
  obtain ⟨hup, hcause, harch, hbus, -⟩ := s.coreCleared_eq cause
  have hcells : (s.coreCleared cause).arch.cells = s.arch.cells :=
    (congrArg Archive.cells harch).trans s.resetLogged_cells
  have hlogged : s.resetLogged.val .bus = s.val .bus := State.resetLogged_val (by decide) s
  have hmbs : (s.coreCleared cause).mbs = s.mbs.map MbPort.unclocked :=
    (congrArg Prod.fst hbus).trans (congrArg (fun v => v.1.map MbPort.unclocked) hlogged)
  have hgaz : (s.coreCleared cause).gaz = s.gaz :=
    (congrArg (fun v => v.2.1) hbus).trans (congrArg (fun v => v.2.1) hlogged)
  rw [State.coreReset]
  split
  · exact ⟨hup, hcause, hcells, hmbs, hgaz⟩
  · have hkept : ∀ p : Part, p ≠ .clock →
        ((s.coreCleared cause).bootNotice s.boot.mode).val p = (s.coreCleared cause).val p :=
      fun p hp => State.bootNotice_val hp ..
    exact ⟨hup, (congrArg Boot.rcause (hkept .boot (by decide))).trans hcause,
      (congrArg Archive.cells (hkept .arch (by decide))).trans hcells,
      (congrArg Prod.fst (hkept .bus (by decide))).trans hmbs,
      (congrArg (fun v => v.2.1) (hkept .bus (by decide))).trans hgaz⟩

/-- What a reset source leaves of a core that is out of reset. -/
theorem State.resetCore_eq {s : State} (cause : BitVec 4) (hup : s.coreUp = true) : (s.resetCore cause).coreUp = false
    ∧ (s.resetCore cause).boot.rcause = cause ∧ (s.resetCore cause).arch.cells = s.arch.cells
    ∧ (s.resetCore cause).mbs = s.mbs.map MbPort.unclocked ∧ (s.resetCore cause).gaz = s.gaz := by
  rw [State.resetCore, if_pos hup]
  obtain ⟨hheld, hcause, hcells, hmbs, hgaz⟩ := (s.countReset cause.toNat).coreReset_eq cause
  have hbus : (s.countReset cause.toNat).val .bus = s.val .bus := State.countReset_val (by decide) ..
  exact ⟨hheld, hcause, hcells.trans (State.countReset_cells ..),
    hmbs.trans (congrArg (fun v => v.1.map MbPort.unclocked) hbus), hgaz.trans (congrArg (fun v => v.2.1) hbus)⟩

/-- A state with the core held goes on with the tick at 0 (R393). -/
theorem completes_of_held {c : Instr} {s t : State} {P : State → Prop} (hexec : exec c s = done s t) (hheld : t.coreUp = false)
    (hP : P { t with pending := s.pending, tick := 0, islandTick := Vector.replicate 16 0, ticking := false }) :
    Completes c s P := by
  refine completes_of_done hexec ?_
  simpa only [hheld, Bool.false_eq_true, if_false, Bool.and_false] using hP

theorem reset_completes {c : Instr} {s : State} (cause : BitVec 4) (hup : s.coreUp = true)
    (hexec : exec c s = done s (s.resetCore cause)) :
    Completes c s (fun t => t.coreUp = false ∧ t.boot.rcause = cause ∧ t.tick = 0 ∧ t.arch.cells = s.arch.cells
      ∧ t.mbs = s.mbs.map MbPort.unclocked ∧ t.gaz = s.gaz) := by
  obtain ⟨hheld, hcause, hcells, hmbs, hgaz⟩ := State.resetCore_eq cause hup
  exact completes_of_held hexec hheld ⟨hheld, hcause, rfl, hcells, hmbs, hgaz⟩

/-! ## RESET_CORE (R403) -/

/-- The command of a register of one word with a keeper's commands: the register's own effect. -/
theorem regAccess_keeperCommand {s : State} {p : Path} {b : Block} {i o : Nat} {v : Word} (hk : s.keeps p b i o = true)
    (hp : placeOf (key b i o) = some ⟨b, i, o⟩) (hb : (⟨b, i, o⟩ : Place).ofPath = false)
    (hl : (⟨b, i, o⟩ : Place).listed = true) (hw : (⟨b, i, o⟩ : Place).wideAt = none)
    (hv : v &&& (⟨b, i, o⟩ : Place).commands true = v) (hne : (⟨b, i, o⟩ : Place).commands true ≠ 0) :
    ∃ w : Wr, w.pl = ⟨b, i, o⟩ ∧ w.cmd = v ∧ regAccess s p b i o v = done s (s.writeAt w) := by
  simp only [State.keeps, State.reaches, Bool.and_eq_true, Bool.not_eq_true'] at hk
  obtain ⟨⟨⟨hc, he⟩, hd⟩, hkeep⟩ := hk
  refine ⟨_, rfl, ?_, (regAccess_eq v hc he hp hb).trans
    (congrArg (done s) (State.placeWrite_eq_writeAt hl hd (.inl hkeep) hw (.inr ?_)))⟩
  · dsimp only
    rw [hkeep, hv]
  · rw [hkeep]
    exact hne

theorem exec_resetCore {s : State} {p : Path} (hk : s.keeps p .device 0 4 = true) :
    exec (.resetCore p) s = done s (s.deviceCmd 0x80000000) := by
  obtain ⟨w, hpl, hcmd, hexec⟩ := regAccess_keeperCommand (v := 0x80000000) hk (by decide) (by decide) (by decide) (by decide)
    (by decide) (by decide)
  refine hexec.trans (congrArg (done s) ?_)
  simp only [State.writeAt, hpl, State.writeDevice, hcmd]
  exact if_neg (by decide)

/-- What RESET_CORE does: the first arms the second. -/
def State.armReset (s : State) : State :=
  match s.boot.resetArm with
  | some k => if s.passed k (msTicks + 1) then s.modBoot (fun b => { b with resetArm := some s.tick }) else s.resetCore 3
  | none => s.modBoot (fun b => { b with resetArm := some s.tick })

theorem State.deviceCmd_reset (s : State) : s.deviceCmd 0x80000000 = s.armReset := by
  unfold State.deviceCmd
  extract_lets u
  have hu : u = s := if_neg (by decide)
  rw [if_pos (by decide), hu]
  rfl

theorem resetCore_arms {s : State} {p : Path} (hk : s.keeps p .device 0 4 = true)
    (h : s.boot.resetArm = none ∨ ∃ k, s.boot.resetArm = some k ∧ s.passed k (msTicks + 1) = true) :
    exec (.resetCore p) s = .next (s.modBoot (fun b => { b with resetArm := some s.tick })) := by
  have heffect : s.deviceCmd 0x80000000 = s.modBoot (fun b => { b with resetArm := some s.tick }) := by
    rw [State.deviceCmd_reset]
    obtain hnone | ⟨k, harm, hlate⟩ := h
    · rw [State.armReset, hnone]
    · rw [State.armReset, harm]
      exact if_pos hlate
  rw [exec_resetCore hk, heffect]
  exact done_eq_next rfl rfl rfl rfl ((s.modBoot_coreUp _).trans (State.coreUp_of_keeps hk))

/-- The second RESET_CORE within 1 ms resets the core. -/
theorem resetCore_resets {s : State} {p : Path} (hk : s.keeps p .device 0 4 = true) {k : DWord}
    (harm : s.boot.resetArm = some k) (hsoon : s.passed k (msTicks + 1) = false) :
    Completes (.resetCore p) s (fun t => t.coreUp = false ∧ t.boot.rcause = 3 ∧ t.tick = 0) := by
  have heffect : s.deviceCmd 0x80000000 = s.resetCore 3 := by
    rw [State.deviceCmd_reset, State.armReset, harm]
    exact if_neg (by rw [hsoon]; decide)
  obtain ⟨t, hexec, hheld, hcause, htick, -⟩ := reset_completes 3 (State.coreUp_of_keeps hk)
    ((exec_resetCore hk).trans (congrArg (done s) heffect))
  exact ⟨t, hexec, hheld, hcause, htick⟩

end Sys2Proof.Machine

/-! SUPPORT. PROOFS. Standby power-on and reset release (R393 to R395). -/

namespace Sys2Proof.Machine

/-! ## The archive's write in progress (R367) -/

theorem State.guardCount_val {p : Part} (s : State) (q : Path) : (s.guardCount q).val p = s.val p := by
  unfold State.guardCount
  split
  · rfl
  · split <;> rfl

theorem State.arcWrite_boot (s : State) (x : Nat) (v : Word) : (s.arcWrite x v).val .boot = s.val .boot := by
  unfold State.arcWrite
  dsimp only
  split
  · exact State.count_val ..
  split
  · exact (State.raise_val ..).trans (State.count_val ..)
  split
  · split
    · split
      · rfl
      · exact State.log_val (by decide) ..
    · rfl
  · rfl

/-- A posted write of the archive that completes leaves the mode, the straps and the rest of the boot state. -/
theorem State.indDone_boot {s : State} {p : Path} (h : s.arcPosted p = true) : (s.indDone p).val .boot = s.val .boot := by
  unfold State.arcPosted at h
  unfold State.indDone
  split
  case h_2 => rfl
  case h_1 a v hbusy =>
    have harc : (s.indWrite p a.toNat v).val .boot = s.val .boot := by
      unfold State.indWrite
      cases hat : s.indAt a.toNat with
      | arc x =>
        dsimp only
        split
        · exact State.arcWrite_boot ..
        · split
          · exact (State.count_val ..).trans (State.guardCount_val ..)
          · exact State.guardCount_val ..
      | reg pl => simp [hbusy, hat] at h
      | diag d => simp [hbusy, hat] at h
      | none => simp [hbusy, hat] at h
    exact (State.modPath_val (by decide) ..).trans harc

/-- The brown-out detector's completion of the archive writes that are in progress. -/
def State.arcCompleted (s : State) : State :=
  ([Path.f0, .f1, .sb, .stw] ++ (List.finRange 8).map Path.eng).foldl
    (fun (s : State) p => if s.arcPosted p then s.indDone p else s) s

theorem State.arcCompleted_boot (s : State) : s.arcCompleted.boot = s.boot := by
  refine State.val_foldl (p := .boot) (fun s p => ?_) _ s
  split
  case isTrue h => exact State.indDone_boot h
  case isFalse => rfl

theorem State.arcCompleted_of_idle {s : State} (h : ∀ p, (s.path p).indBusy = none) : s.arcCompleted = s := by
  refine List.foldlRecOn _ _ (motive := fun u => u = s) rfl fun u hu p _ => ?_
  subst hu
  have hidle : u.arcPosted p = false := by
    rw [State.arcPosted, h p]
  exact if_neg (by rw [hidle]; decide)

theorem exec_standbyPowerOn (s : State) (st : Straps) : exec (.standbyPowerOn st) s = done s (s.arcCompleted.standbyReset st) :=
  rfl

end Sys2Proof.Machine

/-! SUPPORT. PROOFS. What standby power-on leaves (R394, R401), reset release (R393, R404), and O46. -/

namespace Sys2Proof.Machine

/-! ## Registers that no write has reached -/

theorem State.r_of_regs_nil {s : State} (h : s.regs = []) (b : Block) (i o : Nat) : s.r b i o = resetWord (key b i o) := by
  rw [State.r, State.reg, h]
  rfl

theorem State.countReset_of_regs_nil {s : State} (h : s.regs = []) (cause : Nat) : (s.countReset cause).regs = []
    ∧ (s.countReset cause).mem = s.mem ∧ (s.countReset cause).notices = s.notices
    ∧ (s.countReset cause).coreUp = s.coreUp := by
  have hlog : s.rf .archive 0 0 31 30 ≠ 3 := by
    rw [State.rf, State.r_of_regs_nil h]
    decide
  rw [State.countReset, State.arcCount, if_neg hlog]
  exact ⟨h, rfl, rfl, rfl⟩

theorem State.msi_notices (s : State) (f : Fin 2) (v : Fin 32) : (s.msi f v).notices = s.notices := by
  unfold State.msi
  dsimp only
  split
  · rfl
  · split <;> rfl

theorem State.noteSignal_notices (s : State) : s.noteSignal.notices = s.notices := by
  unfold State.noteSignal
  split
  · exact State.msi_notices ..
  · exact State.msi_notices ..
  · rfl
  · rfl

/-- The first notice of an empty list enters at position 0. -/
theorem State.raise_first {s : State} (hup : s.coreUp = true) (hregs : s.regs = []) (hnotes : s.notices = Notices.reset)
    (id : Nat) (code : Byte) (args : BitVec 64) :
    (s.raise id clsA code args).notices.srcs.map (fun e => (e.id, e.outPos)) = [(id, some 0)]
      ∧ (s.raise id clsA code args).r .notice 0 4 = 1 := by
  have hread : ∀ o, s.r .notice 0 o = resetWord (key .notice 0 o) := State.r_of_regs_nil hregs .notice 0
  have hwr : s.rf .notice 0 4 10 0 = 0 := by
    rw [State.rf, hread]
    decide
  have hadmits : s.admits clsA = true := by
    rw [State.admits, State.noteFill, State.rf, State.rf, hread, hread, if_pos (by decide)]
    decide
  have hraise : s.raise id clsA code args = s.enter ⟨id, clsA, code, 1, !s.warm, s.nowStamp s.noteDatum, 0, args⟩ := by
    rw [State.raise, State.raiseAt, if_neg (by rw [hup]; decide), hnotes]
    exact if_pos hadmits
  rw [hraise]
  unfold State.enter
  rw [hwr]
  extract_lets t u w src v
  have hv : v.notices.srcs = src :: (u.notices.srcs.filter (fun e => decide (e.id ≠ id))) := rfl
  have hu : u.notices.srcs = [] := (congrArg (·.srcs) hnotes)
  constructor
  · rw [State.noteSignal_notices, hv, hu]
    rfl
  · have hkey : key .notice 0 4 ≠ key .host 0 0x0C := by decide
    have hreg : w.reg (key .notice 0 4) = fld ((t + 1) % 2048) 0 := State.setReg_same ..
    exact (State.reg_noteSignal hkey v).trans (hreg.trans (by decide))

/-! ## Standby power-on (R394) -/

/-- What standby power-on leaves, before the notice of the change to BOOT. -/
theorem State.standbyReset_boot {s : State} (st : Straps) (h : s.boot.mode = .boot) :
    (s.standbyReset st).regs = [] ∧ (s.standbyReset st).mem = Memory.reset ∧ (s.standbyReset st).notices.srcs = [] := by
  unfold State.standbyReset
  extract_lets u blks src oven straps t
  rw [if_pos h]
  obtain ⟨hregs, hmem, hnotes, -⟩ := State.countReset_of_regs_nil (s := t) rfl 0
  exact ⟨hregs, hmem, congrArg (·.srcs) hnotes⟩

/-- The change to BOOT is the first notice. -/
theorem State.standbyReset_notice {s : State} (st : Straps) (h : s.boot.mode ≠ .boot) :
    (s.standbyReset st).notices.srcs.map (fun e => (e.id, e.outPos)) = [(0x0802, some 0)]
      ∧ (s.standbyReset st).r .notice 0 4 = 1 := by
  unfold State.standbyReset
  extract_lets u blks src oven straps t
  rw [if_neg h]
  obtain ⟨hregs, -, hnotes, -⟩ := State.countReset_of_regs_nil (s := t) rfl 0
  unfold State.bootNotice
  exact State.raise_first (s := { t.countReset 0 with coreUp := true }) rfl hregs hnotes ..

theorem State.standbyReset_keeps (s : State) (st : Straps) : (s.standbyReset st).coreUp = false
    ∧ (s.standbyReset st).arch.cells = s.arch.cells ∧ (s.standbyReset st).boot.straps.sbKeeper = st.sbKeeper
    ∧ (s.standbyReset st).boot.straps.sbAddr = st.sbAddr ∧ (s.standbyReset st).boot.rcause = 0 := by
  unfold State.standbyReset
  extract_lets u blks src oven straps t
  obtain ⟨-, -, -, hup⟩ := State.countReset_of_regs_nil (s := t) rfl 0
  have hheld : (t.countReset 0).coreUp = false := hup.trans rfl
  have hcells : (t.countReset 0).arch.cells = s.arch.cells :=
    (State.countReset_cells t 0).trans s.resetLogged_cells
  have hboot : (t.countReset 0).boot = t.boot := State.countReset_val (p := .boot) (by decide) t 0
  have hfresh : (t.countReset 0).boot.straps.sbKeeper = st.sbKeeper ∧ (t.countReset 0).boot.straps.sbAddr = st.sbAddr
      ∧ (t.countReset 0).boot.rcause = 0 := by
    rw [hboot]
    exact ⟨rfl, rfl, rfl⟩
  obtain ⟨hkeeper, haddr, hcause⟩ := hfresh
  split
  · exact ⟨hheld, hcells, hkeeper, haddr, hcause⟩
  · have hkept : ((t.countReset 0).bootNotice s.boot.mode).boot = (t.countReset 0).boot :=
      State.bootNotice_val (p := .boot) (by decide) ..
    have harch : ((t.countReset 0).bootNotice s.boot.mode).arch = (t.countReset 0).arch :=
      State.bootNotice_val (p := .arch) (by decide) ..
    rw [hkept, harch]
    exact ⟨hheld, hcells, hkeeper, haddr, hcause⟩

/-- What standby power-on completes with. -/
def StandbyLeft (s : State) (st : Straps) (t : State) : Prop :=
  t.coreUp = false ∧ t.tick = 0 ∧ t.ticking = false
    ∧ (s.boot.mode = .boot → t.regs = [] ∧ t.mem = Memory.reset ∧ t.notices.srcs = [])
    ∧ (s.boot.mode ≠ .boot → t.notices.srcs.map (fun e => (e.id, e.outPos)) = [(0x0802, some 0)] ∧ t.r .notice 0 4 = 1)
    ∧ ((∀ p, (s.path p).indBusy = none) → t.arch.cells = s.arch.cells)
    ∧ t.boot.straps.sbKeeper = st.sbKeeper ∧ t.boot.straps.sbAddr = st.sbAddr
    ∧ t.pending = s.pending ∧ t.boot.rcause = 0

theorem completes_standbyLeft {c : Instr} {s u t : State} {st : Straps} (hexec : exec c s = done s t)
    (ht : u.standbyReset st = t) (hmode : u.boot.mode = s.boot.mode)
    (hidle : (∀ p, (s.path p).indBusy = none) → u.arch.cells = s.arch.cells) : Completes c s (StandbyLeft s st) := by
  obtain ⟨hheld, hcells, hkeeper, haddr, hcause⟩ := u.standbyReset_keeps st
  have hboot := State.standbyReset_boot (s := u) st
  have hnotice := State.standbyReset_notice (s := u) st
  rw [ht] at hheld hcells hkeeper haddr hcause hboot hnotice
  rw [hmode] at hboot hnotice
  exact completes_of_held hexec hheld
    ⟨hheld, rfl, rfl, hboot, hnotice, fun h => hcells.trans (hidle h), hkeeper, haddr, rfl, hcause⟩

theorem standbyPowerOn_completes (s : State) (st : Straps) : Completes (.standbyPowerOn st) s (StandbyLeft s st) :=
  completes_standbyLeft (exec_standbyPowerOn s st) rfl (congrArg Boot.mode s.arcCompleted_boot)
    (fun h => congrArg (fun u => u.arch.cells) (State.arcCompleted_of_idle h))

/-! ## Reset release (R393, R404) -/

theorem State.synRetired_synb (s : State) : s.synRetired 8 = false :=
  Bool.and_false _

/-- SYNB enters its lock sequence. -/
theorem State.startLock_synb (s : State) :
    ((s.startLock 8).syns[(8 : Fin 9)]).phase = .locking ∧ ((s.startLock 8).syns[(8 : Fin 9)]).seqOn = true := by
  unfold State.startLock
  rw [if_neg (by rw [s.synRetired_synb]; decide)]
  dsimp -zeta only
  extract_lets u v
  have hv : v = u := if_neg (fun h => absurd h.2 (by decide))
  have hsyns : ((v.cascadeLos 8).restartFed 8).refresh.syns = u.syns := by
    refine State.syns_of_val ((State.refresh_val (by decide) _).trans ((State.restartFed_val (by decide) ..).trans
      ((State.cascadeLos_val (by decide) ..).trans ?_)))
    rw [hv]
  rw [hsyns]
  have hu : u.syns[(8 : Fin 9)] = _ := Vector.getElem_set_self _
  rw [hu]
  exact ⟨rfl, rfl⟩

theorem State.modSyn_syns_self (s : State) (y : Fin 9) (f : Syn → Syn) : (s.modSyn y f).syns[y] = f s.syns[y] :=
  Vector.getElem_set_self _

theorem State.reapplyBanks_val {p : Part} (s : State) : s.reapplyBanks.val p = s.val p := by
  unfold State.reapplyBanks
  split
  · split
    · rfl
    · split <;> rfl
  · rfl

theorem State.reapplyBlocks_val {p : Part} (h : p ≠ .loops ∧ p ≠ .engines ∧ p ≠ .reload) (s : State) :
    s.reapplyBlocks.val p = s.val p := by
  obtain ⟨hloops, hengines, hreload⟩ := h
  unfold State.reapplyBlocks
  extract_lets u v
  have hu : u.val p = s.val p := by
    cases p
    case reload => exact absurd rfl hreload
    all_goals rfl
  have hv : v.val p = s.val p := by
    refine (State.val_foldl (fun s k => ?_) _ u).trans hu
    rw [State.val_ite, State.val_foldl (fun s n => State.modLoop_val hloops ..), ite_self]
  refine (State.val_foldl (fun s k => ?_) _ v).trans hv
  rw [State.val_ite, State.val_foldl (fun s e => State.modEng_val hengines ..), ite_self]

theorem State.boot_of_val {s t : State} (h : s.val .boot = t.val .boot) : s.boot = t.boot := h

/-- SYNB's lock sequence with its first words: it leaves the boot state. -/
theorem State.lockSynb_eq (s : State) (n0 : DWord) :
    ((s.startLock 8).modSyn 8 (fun q => { q with n0 := n0, nfb := n0 })).coreUp = s.coreUp
      ∧ ((s.startLock 8).modSyn 8 (fun q => { q with n0 := n0, nfb := n0 })).boot = s.boot
      ∧ (((s.startLock 8).modSyn 8 (fun q => { q with n0 := n0, nfb := n0 })).syns[(8 : Fin 9)]).phase = .locking
      ∧ (((s.startLock 8).modSyn 8 (fun q => { q with n0 := n0, nfb := n0 })).syns[(8 : Fin 9)]).seqOn = true := by
  obtain ⟨hphase, hseq⟩ := s.startLock_synb
  have hkept : ∀ p : Part, p.offPorts ∧ p ≠ .outs ∧ p ≠ .syns →
      ((s.startLock 8).modSyn 8 (fun q => { q with n0 := n0, nfb := n0 })).val p = s.val p := fun p hp =>
    (State.modSyn_val hp.2.2 ..).trans (State.startLock_val hp ..)
  rw [State.modSyn_syns_self]
  exact ⟨State.coreUp_of_val (hkept .clock (by decide)), State.boot_of_val (hkept .boot (by decide)), hphase, hseq⟩

/-- The retirements that reset release applies again leave the clock and the boot state. -/
theorem State.reapply_eq (s : State) : s.reapplyBanks.reapplyBlocks.coreUp = s.coreUp
    ∧ s.reapplyBanks.reapplyBlocks.boot = s.boot :=
  ⟨State.coreUp_of_val ((State.reapplyBlocks_val (by decide) _).trans s.reapplyBanks_val),
    State.boot_of_val ((State.reapplyBlocks_val (by decide) _).trans s.reapplyBanks_val)⟩

/-- Reset release in order: straps and set-up, retirements, SYNB's lock sequence. -/
theorem State.release_steps {s : State} (st : Straps) (hheld : s.coreUp = false) (hosc : s.oven.oscLost = false) :
    ∃ (x : State) (n0 : DWord), s.release st
        = (x.reapplyBanks.reapplyBlocks.startLock 8).modSyn 8 (fun q => { q with n0 := n0, nfb := n0 })
      ∧ x.coreUp = true
      ∧ x.boot.straps = { st with sbKeeper := s.boot.straps.sbKeeper, sbAddr := s.boot.straps.sbAddr } := by
  have hgo : ¬ (s.coreUp = true ∨ s.oven.oscLost = true) := by
    rw [hheld, hosc]
    decide
  rw [State.release, if_neg hgo]
  refine ⟨_, _, rfl, ?_, rfl⟩
  refine (apply_ite State.coreUp ..).trans ?_
  exact ite_self _

/-- What reset release leaves of a core that was held, with OSC_IN present. -/
theorem State.release_eq {s : State} (st : Straps) (hheld : s.coreUp = false) (hosc : s.oven.oscLost = false) :
    (s.release st).coreUp = true ∧ (s.release st).boot.straps = { st with
      sbKeeper := s.boot.straps.sbKeeper, sbAddr := s.boot.straps.sbAddr }
      ∧ ((s.release st).syns[(8 : Fin 9)]).phase = .locking ∧ ((s.release st).syns[(8 : Fin 9)]).seqOn = true := by
  obtain ⟨x, n0, hrelease, hx, hstraps⟩ := State.release_steps st hheld hosc
  rw [hrelease]
  obtain ⟨hyup, hyboot⟩ := x.reapply_eq
  obtain ⟨hup, hboot, hphase, hseq⟩ := x.reapplyBanks.reapplyBlocks.lockSynb_eq n0
  exact ⟨hup.trans (hyup.trans hx), (congrArg Boot.straps (hboot.trans hyboot)).trans hstraps, hphase, hseq⟩

theorem resetRelease_completes {s t : State} {st : Straps} (hexec : exec (.resetRelease st) s = done s t)
    (hup : t.coreUp = true)
    (hstraps : t.boot.straps = { st with sbKeeper := s.boot.straps.sbKeeper, sbAddr := s.boot.straps.sbAddr })
    (hsyn : (t.syns[(8 : Fin 9)]).phase = .locking ∧ (t.syns[(8 : Fin 9)]).seqOn = true) :
    Completes (.resetRelease st) s (fun t => t.coreUp = true ∧ t.boot.straps.bootHost = st.bootHost
      ∧ t.boot.straps.recovN = st.recovN ∧ t.boot.straps.oscSel = st.oscSel ∧ t.boot.straps.sbAddr = s.boot.straps.sbAddr
      ∧ (s.synRetired 8 = false → (t.syns[(8 : Fin 9)]).phase = .locking ∧ (t.syns[(8 : Fin 9)]).seqOn = true)) := by
  have hhost := congrArg Straps.bootHost hstraps
  have hrecov := congrArg Straps.recovN hstraps
  have hosc := congrArg Straps.oscSel hstraps
  have haddr := congrArg Straps.sbAddr hstraps
  exact completes_of_done hexec ⟨hup, hhost, hrecov, hosc, haddr, fun _ => hsyn⟩

theorem resetRelease_refused {s : State} (st : Straps) (h : s.coreUp = true ∨ s.oven.oscLost = true)
    (hkept : done s s = .next s) : exec (.resetRelease st) s = .next s :=
  (congrArg (done s) (if_pos h)).trans hkept

/-- Settles O46: each clause is the rule of its command. -/
theorem powerAndResets : Obligations.PowerAndResets := by
  unfold Obligations.PowerAndResets
  refine ⟨fun s p d hk hctl => ⟨powerDown_idle hk hctl, powerDown_busy hk hctl, powerUp_railed hk hctl,
      powerUp_unrailed hk hctl⟩,
    fun s d hup => ⟨domainRelease_rises hup, domainRelease_idle hup, fun b hb i hi ht hroom hbank => ?_,
      fun q p hp hd hq hne => ?_⟩,
    fun s g hup => ⟨fun h within => svSupply_held within hup h, fun h => ⟨svSupply_within hup h, svSupply_departs hup h⟩⟩,
    fun s st => ⟨standbyPowerOn_completes s st, fun hup => ⟨?_, ?_⟩, fun hheld hosc => ?_, fun hup => ?_,
      fun hheld hinv hosc => ?_, fun hup => done_eq_next rfl rfl rfl rfl hup⟩,
    fun s p hk => ⟨fun harm => resetCore_arms hk (.inl harm), fun k harm hlate => resetCore_arms hk (.inr ⟨k, harm, hlate⟩),
      fun k harm hsoon => resetCore_resets hk harm hsoon⟩⟩
  · subst hi
    exact supply_waits hup hb ht hroom hbank
  · exact supply_queues hup hp hd hq hne
  · exact reset_completes 1 hup rfl
  · exact reset_completes 2 hup rfl
  · obtain ⟨hup, hstraps, hsyn⟩ := State.release_eq st hheld hosc
    exact resetRelease_completes rfl hup hstraps hsyn
  · exact resetRelease_refused st (.inl hup) (done_eq_next rfl rfl rfl rfl hup)
  · exact resetRelease_refused st (.inr hosc) (done_eq_next_of_tickInv hinv rfl rfl rfl rfl rfl)

end Sys2Proof.Machine

/-! PROOFS. The sample of a loop (R92 to R106): the statement's clause on the events that wait. -/

namespace Sys2Proof.Machine

/-- A stamp that waits for its tick, in the list of a loop with no source. -/
def strayEvent : LEv := ⟨some (0, 0), 0, none, false, false, false⟩

/-- A sheet with no word: its run faults at the first fetch. -/
def emptySheet : Sheet := ⟨[], [], [], 0, 0, 0, 0, false, false, false, 0, [], []⟩

/-- A loop in FREE_RUN with a sample to close, the empty sheet in force and the stray event. -/
def strayLoop : Loop :=
  { Loop.reset with
    instTick := some 0, evs := [strayEvent], prog := { Prog.reset with active := true, bank0 := some emptySheet } }

/-- Loop 0 is `strayLoop`, enabled, and its island is powered. -/
def strayState : State :=
  { State.reset with
    coreUp := true, tick := 256, domOn := Vector.replicate 108 true
    loops := State.reset.loops.set 0 strayLoop, regs := [(key .loop 0 0, 0x80000000)] }

/-- The program's fault drops the loop's events (R97), with its source and its code as they were. -/
theorem strayState_faults : ((strayState.sampleDue 0).loops[(0 : Fin 16)]).evs = []
    ∧ ((strayState.sampleDue 0).loops[(0 : Fin 16)]).sel = none
    ∧ ((strayState.sampleDue 0).loops[(0 : Fin 16)]).code = .freeRun := by
  decide +kernel

theorem exec_sampleClose {s : State} (n : Fin 16) (hup : s.coreUp = true) :
    exec (.sampleClose n) s = done s (s.sampleDue n) :=
  doneCore_up s (fun s => s.sampleDue n) hup

/-- Refutes O7: the statement is of every state, and a loop in FREE_RUN with no source may list an event there. A program
that faults in the sample (R97) drops it, though neither the source nor the code changes. -/
theorem not_sampleOfALoop : ¬ Obligations.SampleOfALoop := by
  unfold Obligations.SampleOfALoop
  rintro ⟨-, h⟩
  obtain ⟨hevs, hsel, hcode⟩ := strayState_faults
  have hup : strayState.coreUp = true := rfl
  have hexec : exec (.sampleClose 0) strayState = done strayState (strayState.sampleDue 0) := exec_sampleClose 0 hup
  have hloop : strayState.loops[(0 : Fin 16)] = strayLoop := by decide +kernel
  have hdue : (strayState.loops[(0 : Fin 16)]).instTick = some 0 := congrArg Loop.instTick hloop
  have hen : strayState.loopEn 0 = true := by decide +kernel
  have hpassed : strayState.passed 0 256 = true := by decide +kernel
  have hisland : strayState.loopIsland 0 = true := by decide +kernel
  have hown : ([] : List LEv) = strayLoop.evs.filter (fun e => e.upTo strayLoop.instHi && decide (strayLoop.instLo < e.r)) := by
    decide +kernel
  obtain ⟨-, hclose⟩ := h strayState 0 0 strayLoop [] 0 0 false 0 hup hdue hen hpassed hisland hloop rfl rfl hown nofun
    (fun _ => rfl)
  obtain ⟨t, ht, -, -, hkept, -⟩ := hclose rfl rfl false false rfl rfl
  generalize strayState.sampleDue 0 = u at hevs hsel hcode hexec
  rw [hexec, done_eq] at ht
  cases ht
  have hlist := hkept hsel (congrArg LoopCode.follows hcode)
  have hempty : [] = [strayEvent] := hevs.symm.trans (hlist.trans (by decide +kernel))
  exact absurd hempty (by decide)

end Sys2Proof.Machine

/-! SUPPORT. PROOFS. A PTP message at the packet timing engine: its TLVs, its session's entry, what a record of the session leaves
(R238 to R244, R365). -/

namespace Sys2Proof.Machine

/-! ## The engine takes a message -/

theorem donePte_on {s : State} (f : State → State) (hup : s.coreUp = true) (hon : s.pteOn = true) :
    donePte s f = done s (f s) := by
  rw [donePte, doneCore_up _ _ hup, if_pos hon]

/-- A port's configuration and link are no count of the engine. -/
theorem portKeys_ne (n : Fin 16) : ∀ o ∈ [0, 8, 0x0C], ∀ o' ∈ [4, 8], key .port n.val o ≠ key .pte 0 o' := by
  revert n
  decide

theorem State.r_count_pte (s : State) (n : Fin 16) (o o' hi lo k : Nat) (ho : o ∈ [0, 8, 0x0C]) (ho' : o' ∈ [4, 8]) :
    (s.count .pte 0 o' hi lo k).r .port n.val o = s.r .port n.val o :=
  State.reg_count_other (portKeys_ne n o ho o' ho')

theorem State.pcfg_congr {s t : State} {n : Fin 16} (hfm : t.fm = s.fm) (hboot : t.boot = s.boot)
    (hr : t.r .port n.val 0 = s.r .port n.val 0) : t.pcfg n = s.pcfg n := by
  rw [State.pcfg, State.pcfg, State.blkUp_of_fm hfm, hboot, hr]

theorem State.ptpUp_congr {s t : State} {n : Fin 16} (hp : t.pcfg n = s.pcfg n) (hl : (t.ports[n]).link = (s.ports[n]).link) :
    t.ptpUp n = s.ptpUp n := by
  rw [State.ptpUp, State.ptpUp, State.isEth, State.isEth, hp, hl]

theorem State.pcfg_count_pte (s : State) (n : Fin 16) (o' hi lo k : Nat) (ho' : o' ∈ [4, 8]) :
    (s.count .pte 0 o' hi lo k).pcfg n = s.pcfg n :=
  State.pcfg_congr rfl rfl (s.r_count_pte n 0 o' hi lo k (by decide) ho')

theorem State.ptpUp_count_pte (s : State) (n : Fin 16) (o' hi lo k : Nat) (ho' : o' ∈ [4, 8]) :
    (s.count .pte 0 o' hi lo k).ptpUp n = s.ptpUp n :=
  State.ptpUp_congr (s.pcfg_count_pte n o' hi lo k ho') rfl

/-- An event frame's stamp, from the port's configuration, its delays and the datum clocks. -/
theorem State.frameStamp_congr {s t : State} {n : Fin 16} (tx : Bool) (e : Edge) (var : Nat) (hp : t.pcfg n = s.pcfg n)
    (hd : t.datums = s.datums) (htx : t.r .port n.val 8 = s.r .port n.val 8)
    (hrx : t.r .port n.val 0x0C = s.r .port n.val 0x0C) : t.frameStamp n tx e var = s.frameStamp n tx e var := by
  simp only [State.frameStamp, State.ballStamp, State.boundary, State.portDatum, State.rsFec, hp, hd, htx, hrx]

theorem State.frameStamp_count_pte (s : State) (n : Fin 16) (tx : Bool) (e : Edge) (var k : Nat) :
    (s.count .pte 0 4 31 0 k).frameStamp n tx e var = s.frameStamp n tx e var :=
  State.frameStamp_congr tx e var (s.pcfg_count_pte n 4 31 0 k (by decide)) rfl
    (s.r_count_pte n 8 4 31 0 k (by decide) (by decide)) (s.r_count_pte n 0x0C 4 31 0 k (by decide) (by decide))

/-- A session's entry without errors is read, and nothing else comes of it (R365). -/
theorem State.withSess_clean {s : State} {n : Fin 16} {id : BitVec 9} (f : State → State) (h : s.sessClean n id = true) :
    s.withSess n id f = f s := by
  rw [State.withSess]
  split
  case isTrue => rfl
  case isFalse hup =>
    have hflaw : s.mem.flaw (s.mem.phys (sessAddr n id) / 8) = 0 := by
      simpa [State.sessClean, hup] using h
    rw [State.checkWord, State.checkAt]
    simp only [hflaw, if_true]

theorem State.sessClean_count_pte (s : State) (n : Fin 16) (id : BitVec 9) (k : Nat) :
    (s.count .pte 0 4 31 0 k).sessClean n id = s.sessClean n id := by
  rw [State.sessClean, State.ptpUp_count_pte _ _ _ _ _ _ (by decide)]
  rfl

section
variable {s : State} {n : Fin 16} (hup : s.coreUp = true) (hon : s.pteOn = true) (hlink : s.ptpUp n = true)
include hup hon hlink

/-- AUTHENTICATION discards a message (R240). -/
theorem message_discarded {c : Instr} {tl : PtpTail} {f : State → State}
    (hexec : exec c s = donePte s (fun s => s.takeTail n tl f)) (hauth : tl.auth = true) :
    exec c s = .next (s.count .pte 0 8 31 0) := by
  rw [hexec, donePte_on _ hup hon, State.takeTail, if_neg (by rw [hlink]; decide), if_pos hauth]
  exact done_eq_next rfl rfl rfl rfl hup

/-- A message without AUTHENTICATION is taken, its other TLVs counted (R240). -/
theorem message_taken {c : Instr} {tl : PtpTail} {f : State → State}
    (hexec : exec c s = donePte s (fun s => s.takeTail n tl f)) (hauth : tl.auth = false) :
    exec c s = done s (f (s.count .pte 0 4 31 0 tl.others)) := by
  rw [hexec, donePte_on _ hup hon, State.takeTail, if_neg (by rw [hlink]; decide), if_neg (by rw [hauth]; decide)]

/-- The same for a message of a session whose entry is clean. -/
theorem sessMessage_taken {c : Instr} {tl : PtpTail} {id : BitVec 9} {f : State → State}
    (hexec : exec c s = donePte s (fun s => s.takeTail n tl (fun s => s.withSess n id f))) (hauth : tl.auth = false)
    (hclean : s.sessClean n id = true) : exec c s = done s (f (s.count .pte 0 4 31 0 tl.others)) := by
  rw [message_taken hup hon hlink hexec hauth, State.withSess_clean]
  rwa [State.sessClean_count_pte]

end

/-- Every message of a port with an AUTHENTICATION TLV is discarded and counted. -/
theorem messages_discarded {s : State} {n : Fin 16} {id : BitVec 9} {seq : BitVec 16} {fl : SyncFlags} {t1 t2 t3 : Stamp}
    {rate : BitVec 32} {tl : PtpTail} {rx tx : Point} {cls : Byte} {bench : Option (BitVec 256 × Word)}
    (hup : s.coreUp = true) (hon : s.pteOn = true) (hlink : s.ptpUp n = true) (hauth : tl.auth = true) :
    ∀ c ∈ [Instr.syncRx n id seq fl t1 rate tl rx.edge rx.var, .followUpRx n id seq t1 rate tl,
        .delayReqRx n id seq tl rx.edge rx.var, .delayRespRx n id seq t1 tl, .pdelayReqRx n seq tl rx tx,
        .pdelayRespRx n seq t2 t3 tl rx.edge rx.var, .announceRx n id cls bench tl.others tl.auth],
      exec c s = .next (s.count .pte 0 8 31 0) := by
  intro c hc
  simp only [List.mem_cons, List.not_mem_nil, or_false] at hc
  rcases hc with rfl | rfl | rfl | rfl | rfl | rfl | rfl
  · exact message_discarded hup hon hlink rfl hauth
  · exact message_discarded hup hon hlink rfl hauth
  · exact message_discarded hup hon hlink rfl hauth
  · exact message_discarded hup hon hlink rfl hauth
  · exact message_discarded hup hon hlink rfl hauth
  · exact message_discarded hup hon hlink rfl hauth
  · exact message_discarded (tl := ⟨0, tl.others, tl.auth⟩) hup hon hlink rfl hauth

end Sys2Proof.Machine

/-! SUPPORT. PROOFS. PTP sessions and what their messages leave (R238 to R244). -/

namespace Sys2Proof.Machine

/-! ## A session's record -/

theorem State.sess_own {s : State} {n : Fin 16} {k : Nat} {x : Sess} (h : s.sess n k = some x) : x.port = n ∧ x.id.toNat = k :=
  of_decide_eq_true (List.find?_some (p := fun x : Sess => decide (x.port = n ∧ x.id.toNat = k)) h)

theorem State.sessOr_own (s : State) (n : Fin 16) (id : BitVec 9) : (s.sessOr n id).port = n ∧ (s.sessOr n id).id = id := by
  unfold State.sessOr
  cases h : s.sess n id.toNat with
  | none => exact ⟨rfl, rfl⟩
  | some x =>
    obtain ⟨hport, hid⟩ := State.sess_own h
    exact ⟨hport, BitVec.eq_of_toNat_eq hid⟩

theorem State.sessOr_of_sessions {s t : State} (h : t.sessions = s.sessions) (n : Fin 16) (id : BitVec 9) :
    t.sessOr n id = s.sessOr n id := by
  rw [State.sessOr, State.sessOr, State.sess, State.sess, h]

theorem State.sessOr_of_val {s t : State} (h : t.val .sessions = s.val .sessions) (n : Fin 16) (id : BitVec 9) :
    t.sessOr n id = s.sessOr n id :=
  State.sessOr_of_sessions (show t.sessions = s.sessions from h) n id

/-- A session's record is the one last stored. -/
theorem State.sessOr_putSess {s : State} {x : Sess} {n : Fin 16} {id : BitVec 9} (hport : x.port = n) (hid : x.id = id) :
    (s.putSess x).sessOr n id = x := by
  have hfind : (s.putSess x).sess n id.toNat = some x := by
    rw [State.sess, State.putSess]
    exact List.find?_cons_of_pos (decide_eq_true ⟨hport, congrArg BitVec.toNat hid⟩)
  rw [State.sessOr, hfind]
  rfl

/-- The record of another session stays when one is stored. -/
theorem State.sessOr_putSess_other {s : State} {x : Sess} {n : Fin 16} {id : BitVec 9} (h : ¬ (x.port = n ∧ x.id = id)) :
    (s.putSess x).sessOr n id = s.sessOr n id := by
  have hfind : (s.putSess x).sess n id.toNat = s.sess n id.toNat := by
    rw [State.sess, State.putSess, List.find?_cons_of_neg (by simpa [BitVec.toNat_inj] using h), List.find?_filter]
    refine List.find?_congr fun y _ => ?_
    by_cases hy : y.port = n ∧ y.id.toNat = id.toNat
    · obtain ⟨hport, hid⟩ := hy
      have hne : ¬ (y.port = x.port ∧ y.id = x.id) := fun hx =>
        h ⟨hx.1.symm.trans hport, hx.2.symm.trans (BitVec.eq_of_toNat_eq hid)⟩
      have hkept : (!decide (y.port = x.port ∧ y.id = x.id)) = true := by
        rw [decide_eq_false hne]
        rfl
      simp only [hkept, true_and, decide_eq_true_eq]
    · simp [hy]
  rw [State.sessOr, State.sessOr, hfind]

theorem State.putSess_val {p : Part} (h : p ≠ .sessions) (s : State) (x : Sess) : (s.putSess x).val p = s.val p := by
  cases p
  case sessions => exact absurd rfl h
  all_goals rfl

/-! ## The delays and the relay of a Sync (R242, R244) -/

theorem State.offerDf_val {p : Part} (h : p.offPorts) (s : State) (n : Fin 16) (id : Nat) (t1 t2 cf : Int) (ptp : Bool) :
    (s.offerDf n id t1 t2 cf ptp).val p = s.val p := by
  obtain ⟨⟨hsel, hslots⟩, hports, hstreams, hunits⟩ := h
  unfold State.offerDf
  extract_lets u df
  have hu : u.val p = s.val p := State.closeBefore_val ⟨⟨hsel, hslots⟩, hports, hstreams, hunits⟩ ..
  refine (State.val_foldl (fun v i => ?_) _ u).trans hu
  extract_lets t w x src
  have hw : w.val p = v.val p := by
    simp only [w]
    split
    · rfl
    · split
      · split <;> simp [hslots, hunits]
      · split <;> simp [hslots, hunits]
  have hx : x.val p = v.val p := (State.modStream_val hstreams ..).trans hw
  rw [State.val_ite, State.modSlot_val hslots, ite_self, hx]

theorem State.offerDr_val {p : Part} (h : p.offPorts) (s : State) (n : Fin 16) (id : Nat) (dr : Int) :
    (s.offerDr n id dr).val p = s.val p := by
  unfold State.offerDr
  extract_lets u
  exact (State.val_foldl (fun v i => State.modStream_val h.2.2.1 ..) _ u).trans (State.closeBefore_val h ..)

theorem State.keepRelay_val {p : Part} (h : p ≠ .insts) (s : State) (n : Fin 16) (tIn cf : Int) (origin : Stamp) (rate : Int) :
    (s.keepRelay n tIn cf origin rate).val p = s.val p :=
  State.val_foldl (fun _ _ => State.modInst_val h ..) _ s

theorem State.syncDone_val {p : Part} (h : p.offPorts ∧ p ≠ .insts) (s : State) (n : Fin 16) (id : Nat) (t1 : Stamp)
    (t2 cf1 cf2 : Int) (ptp : Bool) (rate : Int) : (s.syncDone n id t1 t2 cf1 cf2 ptp rate).val p = s.val p := by
  unfold State.syncDone
  extract_lets excluded u
  have hu : u.val p = s.val p := by
    simp only [u, State.val_ite, State.offerDf_val h.1, ite_self]
  exact (State.keepRelay_val h.2 ..).trans hu

end Sys2Proof.Machine

/-! SUPPORT. PROOFS. The registers and the lines of the ports through the delays of a Sync (R242). -/

namespace Sys2Proof.Machine

variable {k : Nat}

/-! ## Registers -/

theorem State.reg_withUnits (s : State) (v : Vector StatUnit 32) : State.reg { s with units := v } k = s.reg k :=
  rfl

@[simp] theorem State.reg_offerSmp (s : State) (kind index : Nat) (x : Int) (unw gap : Bool) :
    (s.offerSmp kind index x unw gap).reg k = s.reg k := by
  unfold State.offerSmp
  exact State.reg_withUnits ..

@[simp] theorem State.reg_deliver (s : State) (i : Fin 32) (e : Int × Bool) (label : Option (Int × Int)) :
    (s.deliver i e label).reg k = s.reg k := by
  simp [State.deliver, State.reg_ite]

@[simp] theorem State.reg_deliverPtp (s : State) (i : Fin 32) (n : Fin 16) (x : Int) :
    (s.deliverPtp i n x).reg k = s.reg k := by
  simp [State.deliverPtp]

@[simp] theorem State.reg_closePtp (s : State) (i : Fin 32) : (s.closePtp i).reg k = s.reg k := by
  unfold State.closePtp
  dsimp only
  split <;> simp

@[simp] theorem State.reg_closeReist (s : State) (i : Fin 32) : (s.closeReist i).reg k = s.reg k := by
  simp [State.closeReist, State.reg_ite]

@[simp] theorem State.reg_closeStream (h : k ∉ sourceKeys) (s : State) (i : Fin 32) : (s.closeStream i).reg k = s.reg k := by
  simp [State.closeStream, State.reg_ite, h]

@[simp] theorem State.reg_closeBefore (h : k ∉ sourceKeys) (s : State) (b : Bool × Fin 16 × Nat) :
    (s.closeBefore b).reg k = s.reg k := by
  unfold State.closeBefore
  refine State.reg_overFin (fun i s => ?_) _
  simp [State.reg_ite, h]

theorem State.reg_offerDf (h : k ∉ sourceKeys) (s : State) (n : Fin 16) (id : Nat) (t1 t2 cf : Int) (ptp : Bool) :
    (s.offerDf n id t1 t2 cf ptp).reg k = s.reg k := by
  unfold State.offerDf
  extract_lets u df
  refine (State.reg_foldl (fun v i => ?_) _ u).trans (State.reg_closeBefore h ..)
  extract_lets t w x src
  have hw : w.reg k = v.reg k := by
    simp only [w]
    split
    · rfl
    · split
      · split <;> simp
      · split <;> simp
  have hx : x.reg k = v.reg k := (State.reg_modStream ..).trans hw
  rw [State.reg_ite, State.reg_modSlot, ite_self, hx]

/-! ## Lines -/

@[simp] theorem State.closeStream_line (s : State) (i : Fin 32) (n : Fin 16) : (s.closeStream i).line n = s.line n := by
  have hptp : (s.closePtp i).line n = s.line n := State.line_of_val (State.closePtp_val (by decide) ..) n
  have hreist : (s.closeReist i).line n = s.line n := State.line_of_val (State.closeReist_val (by decide) ..) n
  unfold State.closeStream
  extract_lets t
  rw [State.line_ite, State.refreshOrder_line, State.refreshStream_line, State.line_ite, hptp, hreist, ite_self, ite_self]

theorem State.closeBefore_line (s : State) (b : Bool × Fin 16 × Nat) (n : Fin 16) : (s.closeBefore b).line n = s.line n :=
  State.line_overFin (fun i s => by rw [State.line_ite, State.closeStream_line, ite_self]) s

theorem State.refreshStreams_line (s : State) (n : Fin 16) : s.refreshStreams.line n = s.line n :=
  State.line_overFin (fun i s => s.refreshStream_line i n) s

theorem State.line_foldl {α : Type} {f : State → α → State} {n : Fin 16} (hf : ∀ s x, (f s x).line n = s.line n) (l : List α)
    (s : State) : (l.foldl f s).line n = s.line n := by
  induction l generalizing s with
  | nil => rfl
  | cons x l ih => rw [List.foldl_cons, ih, hf]

theorem State.offerDf_line (s : State) (n : Fin 16) (id : Nat) (t1 t2 cf : Int) (ptp : Bool) (m : Fin 16) :
    (s.offerDf n id t1 t2 cf ptp).line m = s.line m := by
  unfold State.offerDf
  extract_lets u df
  refine (State.line_foldl (fun v i => State.line_of_val ?_ m) _ u).trans (State.closeBefore_line ..)
  extract_lets t w x src
  have hw : w.val .ports = v.val .ports := by
    simp only [w]
    split
    · rfl
    · split
      · split <;> simp
      · split <;> simp
  have hx : x.val .ports = v.val .ports := (State.modStream_val (by decide) ..).trans hw
  rw [State.val_ite, State.modSlot_val (by decide), ite_self, hx]

end Sys2Proof.Machine

/-! SUPPORT. PROOFS. PTP messages received (R238 to R244). -/

namespace Sys2Proof.Machine

/-! ## Sync (R142, R242 to R244) -/

theorem tlvCount_not_source : key .pte 0 4 ∉ sourceKeys := by
  decide

theorem instCfg_not_source : ∀ i : Fin 8, key .pte 0 (0x200 + 0x20 * i.val) ∉ sourceKeys := by
  decide

theorem instCfg_ne_count : ∀ i : Fin 8, key .pte 0 (0x200 + 0x20 * i.val) ≠ key .pte 0 4 := by
  decide

/-- The instances of a port, from their configurations. -/
theorem State.instHas_congr {s t : State} (h : ∀ i : Fin 8, t.r .pte 0 (0x200 + 0x20 * i.val) = s.r .pte 0 (0x200 + 0x20 * i.val))
    (i : Fin 8) (n : Fin 16) : t.instHas i n = s.instHas i n := by
  rw [State.instHas, State.instHas, h]

theorem State.profile_congr {s t : State} {i : Fin 8} (h : t.r .pte 0 (0x200 + 0x20 * i.val) = s.r .pte 0 (0x200 + 0x20 * i.val)) :
    t.profile i = s.profile i := by
  rw [State.profile, State.profile, State.rf, State.rf, h]

theorem State.asInstances_congr {s t : State}
    (h : ∀ i : Fin 8, t.r .pte 0 (0x200 + 0x20 * i.val) = s.r .pte 0 (0x200 + 0x20 * i.val)) (hi : t.insts = s.insts)
    (n : Fin 16) : t.asInstances n = s.asInstances n := by
  simp only [State.asInstances, State.instHas_congr h, State.profile_congr (h _), hi]

theorem State.r_count_instCfg (s : State) (k : Nat) (i : Fin 8) :
    (s.count .pte 0 4 31 0 k).r .pte 0 (0x200 + 0x20 * i.val) = s.r .pte 0 (0x200 + 0x20 * i.val) :=
  State.reg_count_other (instCfg_ne_count i)

/-- A Sync for relay stands in each of the instances named. -/
theorem State.relay_foldl (r : Relay) : ∀ (l : List (Fin 8)) (s : State) (i : Fin 8),
    i ∈ l ∨ (s.insts[i]).relay = some r →
    ((l.foldl (fun (s : State) i => s.modInst i (fun q => { q with relay := some r })) s).insts[i]).relay = some r
  | [], _, _, h => h.resolve_left List.not_mem_nil
  | j :: l, s, i, h => by
    refine State.relay_foldl r l _ i ?_
    by_cases hij : i = j
    · subst hij
      refine .inr ?_
      rw [State.modInst_insts]
      exact congrArg Inst.relay (Vector.getElem_set_self _)
    · refine h.imp (fun hm => (List.mem_cons.mp hm).resolve_left hij) fun hr => ?_
      rw [State.modInst_insts]
      exact (congrArg Inst.relay (Vector.getElem_set_ne j.isLt i.isLt (fun hv => hij (Fin.ext hv.symm)))).trans hr

theorem State.keepRelay_relay {s : State} {n : Fin 16} (tIn cf : Int) (origin : Stamp) (rate : Int) {i : Fin 8}
    (hi : i ∈ s.asInstances n) : ((s.keepRelay n tIn cf origin rate).insts[i]).relay = some ⟨n, tIn, cf, ptpTime origin,
      satS 32 (roundDiv ((2 ^ 41 + rate) * (2 ^ 48 + (s.ports[n]).nrr) - 2 ^ 89) (2 ^ 48))⟩ :=
  State.relay_foldl _ _ s i (.inl hi)

/-- The same from a state that has the instances and the neighbour's rate of `s`. -/
theorem State.keepRelay_relay_of {s v : State} {n : Fin 16} (tIn cf : Int) (origin : Stamp) (rate : Int) {i : Fin 8}
    (hline : v.line n = s.line n)
    (hregs : ∀ i : Fin 8, v.r .pte 0 (0x200 + 0x20 * i.val) = s.r .pte 0 (0x200 + 0x20 * i.val))
    (hinsts : v.insts = s.insts) (hi : i ∈ s.asInstances n) :
    ((v.keepRelay n tIn cf origin rate).insts[i]).relay = some ⟨n, tIn, cf, ptpTime origin,
      satS 32 (roundDiv ((2 ^ 41 + rate) * (2 ^ 48 + (s.ports[n]).nrr) - 2 ^ 89) (2 ^ 48))⟩ := by
  have hnrr : (v.ports[n]).nrr = (s.ports[n]).nrr := congrArg (fun l => l.2.2.2.2) hline
  rw [← hnrr]
  exact State.keepRelay_relay tIn cf origin rate ((State.asInstances_congr hregs hinsts n).symm ▸ hi)

/-- A correction field is at its own limit. -/
theorem tiLimit_toInt (cf : BitVec 64) : tiLimit cf.toInt = cf.toInt := by
  have hlo := BitVec.le_toInt cf
  have hhi := BitVec.toInt_lt (x := cf)
  have hsat : satS 64 cf.toInt = cf.toInt := by
    unfold satS
    norm_num at hlo hhi ⊢
    omega
  rw [tiLimit, if_neg (not_not_intro hsat)]

/-- What a complete Sync with one correction field keeps for relay. -/
theorem State.syncDone_relay {s : State} {n : Fin 16} {cf : BitVec 64} (id : Nat) (t1 : Stamp) (t2 : Int) (ptp : Bool) (rate : Int)
    (hcf : cf.toInt ≠ cfMax) {i : Fin 8} (hi : i ∈ s.asInstances n) :
    ((s.syncDone n id t1 t2 cf.toInt 0 ptp rate).insts[i]).relay = some ⟨n, t2, cf.toInt, ptpTime t1,
      satS 32 (roundDiv ((2 ^ 41 + rate) * (2 ^ 48 + (s.ports[n]).nrr) - 2 ^ 89) (2 ^ 48))⟩ := by
  have hkeep : decide (cf.toInt = cfMax ∨ (0 : Int) = cfMax) = false := by
    refine decide_eq_false ?_
    rintro (h | h)
    · exact hcf h
    · exact absurd h (by decide)
  unfold State.syncDone
  simp only [hkeep, Bool.false_eq_true, if_false, Int.add_zero, tiLimit_toInt]
  exact State.keepRelay_relay_of t2 cf.toInt t1 rate (State.offerDf_line ..)
    (fun i => State.reg_offerDf (instCfg_not_source i) ..) (State.offerDf_val (p := .insts) (by decide) ..) hi

theorem State.putSess_r (s : State) (x : Sess) (b : Block) (i o : Nat) : (s.putSess x).r b i o = s.r b i o :=
  State.r_of_regs rfl b i o

/-- A session's record stored, and the streams brought up to date: the record stands, the rest of the engine too. -/
theorem State.putSess_refresh {s : State} {x : Sess} {n : Fin 16} {id : BitVec 9} (hport : x.port = n) (hid : x.id = id) :
    (s.putSess x).refreshStreams.sessOr n id = x
      ∧ (s.putSess x).refreshStreams.insts = s.insts
      ∧ (∀ m, (s.putSess x).refreshStreams.line m = s.line m)
      ∧ (∀ k, k ∉ sourceKeys → (s.putSess x).refreshStreams.reg k = s.reg k) := by
  refine ⟨?_, ?_, fun m => ?_, fun k hk => ?_⟩
  · rw [State.sessOr_of_val (State.refreshStreams_val (by decide) _), State.sessOr_putSess hport hid]
  · exact (State.refreshStreams_val (p := .insts) (by decide) _).trans (State.putSess_val (by decide) ..)
  · rw [State.refreshStreams_line]
    exact State.line_of_val (State.putSess_val (by decide) ..) m
  · rw [State.reg_refreshStreams hk]
    exact State.reg_of_regs rfl k

/-- The record that a Sync leaves of its session. -/
def Sess.synced (x : Sess) (granted : Bool) (pend : Option (BitVec 16 × Int × Int × Bool)) : Sess :=
  { x with granted := granted, pendSync := pend }

theorem State.rxSync_two (s : State) (n : Fin 16) (id : BitVec 9) (seq : BitVec 16) (ptp : Bool) (t1 : Stamp) (cf : BitVec 64)
    (rate : BitVec 32) (tb : Edge) (var : Nat) : s.rxSync n id seq true ptp t1 cf rate tb var
      = (s.putSess ((s.sessOr n id).synced ((s.sessOr n id).granted || s.boot.stewardUp)
        (some (seq, s.frameStamp n false tb var, cf.toInt, ptp)))).refreshStreams :=
  rfl

theorem State.rxSync_one (s : State) (n : Fin 16) (id : BitVec 9) (seq : BitVec 16) (ptp : Bool) (t1 : Stamp) (cf : BitVec 64)
    (rate : BitVec 32) (tb : Edge) (var : Nat) : s.rxSync n id seq false ptp t1 cf rate tb var
      = ((s.putSess ((s.sessOr n id).synced ((s.sessOr n id).granted || s.boot.stewardUp) none)).refreshStreams).syncDone n id.toNat
        t1 (s.frameStamp n false tb var) cf.toInt 0 ptp rate.toInt :=
  rfl

/-- What a complete one-step Sync leaves of the session and the relay, from a state with the instances of `s`. -/
theorem State.syncDone_of {s v : State} {n : Fin 16} {cf : BitVec 64} (id : BitVec 9) (k : Nat) (t1 : Stamp) (t2 : Int)
    (ptp : Bool) (rate : Int) (hline : v.line n = s.line n)
    (hregs : ∀ i : Fin 8, v.r .pte 0 (0x200 + 0x20 * i.val) = s.r .pte 0 (0x200 + 0x20 * i.val))
    (hinsts : v.insts = s.insts) :
    (v.syncDone n k t1 t2 cf.toInt 0 ptp rate).sessOr n id = v.sessOr n id
      ∧ (cf.toInt ≠ cfMax → ∀ i ∈ s.asInstances n, ((v.syncDone n k t1 t2 cf.toInt 0 ptp rate).insts[i]).relay = some
        ⟨n, t2, cf.toInt, ptpTime t1, satS 32 (roundDiv ((2 ^ 41 + rate) * (2 ^ 48 + (s.ports[n]).nrr) - 2 ^ 89) (2 ^ 48))⟩) := by
  refine ⟨State.sessOr_of_val (State.syncDone_val (by decide) ..) n id, fun hcf i hi => ?_⟩
  have hnrr : (v.ports[n]).nrr = (s.ports[n]).nrr := congrArg (fun l => l.2.2.2.2) hline
  rw [← hnrr]
  exact State.syncDone_relay k t1 t2 ptp rate hcf ((State.asInstances_congr hregs hinsts n).symm ▸ hi)

theorem completes_sessInsts {c : Instr} {s t u : State} {n : Fin 16} {id : BitVec 9} {A : Sess → Prop} {B : Vector Inst 8 → Prop}
    (hexec : exec c s = done s t) (ht : t = u) (hA : A (u.sessOr n id)) (hB : B u.insts) :
    Completes c s (fun t => A (t.sessOr n id) ∧ B t.insts) := by
  subst ht
  exact completes_of_done hexec ⟨hA, hB⟩

/-- A command that ends in `t` completes with what holds of its sessions, instances and TLV count. -/
theorem completes_pte {c : Instr} {s t u : State} {n : Fin 16} {id : BitVec 9} {A : Sess → Prop} {B : Word → Prop}
    (hexec : exec c s = done s t) (ht : t = u) (hA : A (u.sessOr n id)) (hB : B (u.r .pte 0 4)) :
    Completes c s (fun t => A (t.sessOr n id) ∧ B (t.r .pte 0 4)) := by
  subst ht
  exact completes_of_done hexec ⟨hA, hB⟩

section
variable {s : State} {n : Fin 16} {id : BitVec 9} {tl : PtpTail} (hup : s.coreUp = true) (hon : s.pteOn = true)
  (hlink : s.ptpUp n = true) (hauth : tl.auth = false) (hclean : s.sessClean n id = true)
include hup hon hlink hauth hclean

theorem syncRx_two (seq : BitVec 16) (ptp : Bool) (t1 : Stamp) (rate : BitVec 32) (tb : Edge) (var : Nat) :
    Completes (.syncRx n id seq ⟨true, ptp⟩ t1 rate tl tb var) s (fun t => t.sessOr n id
      = { s.sessOr n id with granted := (s.sessOr n id).granted || s.boot.stewardUp
                             pendSync := some (seq, s.frameStamp n false tb var, tl.cf.toInt, ptp) }
      ∧ t.r .pte 0 4 = BitVec.ofNat 32 (satAdd 32 (s.r .pte 0 4).toNat tl.others)) := by
  have hexec := sessMessage_taken (f := fun s => s.rxSync n id seq true ptp t1 tl.cf rate tb var)
    (c := .syncRx n id seq ⟨true, ptp⟩ t1 rate tl tb var) hup hon hlink rfl hauth hclean
  obtain ⟨hport, hid⟩ := s.sessOr_own n id
  have hstamp := s.frameStamp_count_pte n false tb var tl.others
  obtain ⟨hsess, -, -, hreg⟩ := State.putSess_refresh (s := s.count .pte 0 4 31 0 tl.others)
    (x := (s.sessOr n id).synced ((s.sessOr n id).granted || s.boot.stewardUp)
      (some (seq, s.frameStamp n false tb var, tl.cf.toInt, ptp))) hport hid
  refine completes_pte (A := fun x => x = _) (B := fun w => w = _) hexec (State.rxSync_two ..) ?_ ?_
  · rw [hstamp]
    exact hsess
  · rw [hstamp]
    exact (hreg _ tlvCount_not_source).trans (s.r_count_word .pte 0 4 tl.others)

theorem syncRx_one (seq : BitVec 16) (ptp : Bool) (t1 : Stamp) (rate : BitVec 32) (tb : Edge) (var : Nat) :
    Completes (.syncRx n id seq ⟨false, ptp⟩ t1 rate tl tb var) s (fun t => t.sessOr n id
      = { s.sessOr n id with granted := (s.sessOr n id).granted || s.boot.stewardUp, pendSync := none }
      ∧ (tl.cf.toInt ≠ 2 ^ 63 - 1 → ∀ i ∈ s.asInstances n, (t.insts[i]).relay = some
        ⟨n, s.frameStamp n false tb var, tl.cf.toInt, ptpTime t1,
          satS 32 (roundDiv ((2 ^ 41 + rate.toInt) * (2 ^ 48 + (s.ports[n]).nrr) - 2 ^ 89) (2 ^ 48))⟩)) := by
  have hexec := sessMessage_taken (f := fun s => s.rxSync n id seq false ptp t1 tl.cf rate tb var)
    (c := .syncRx n id seq ⟨false, ptp⟩ t1 rate tl tb var) hup hon hlink rfl hauth hclean
  obtain ⟨hport, hid⟩ := s.sessOr_own n id
  have hstamp := s.frameStamp_count_pte n false tb var tl.others
  obtain ⟨hsess, hinsts, hline, hreg⟩ := State.putSess_refresh (s := s.count .pte 0 4 31 0 tl.others)
    (x := (s.sessOr n id).synced ((s.sessOr n id).granted || s.boot.stewardUp) none) hport hid
  have hcfg : ∀ i : Fin 8, _ = s.r .pte 0 (0x200 + 0x20 * i.val) := fun i =>
    (hreg _ (instCfg_not_source i)).trans (s.r_count_instCfg tl.others i)
  obtain ⟨hkept, hrelay⟩ := State.syncDone_of (s := s) (cf := tl.cf) id id.toNat t1 (s.frameStamp n false tb var) ptp rate.toInt
    (hline n) hcfg hinsts
  refine completes_sessInsts (A := fun x => x = _) (B := fun v => tl.cf.toInt ≠ cfMax → ∀ i ∈ s.asInstances n,
    (v[i]).relay = _) hexec (State.rxSync_one ..) ?_ ?_
  · rw [hstamp]
    exact hkept.trans hsess
  · rw [hstamp]
    exact hrelay

end

end Sys2Proof.Machine

/-! SUPPORT. PROOFS. Follow_Up, delay requests and responses, peer delay (R238, R242 to R244). -/

namespace Sys2Proof.Machine

/-- The record of a session without its Sync. -/
def Sess.unsynced (x : Sess) : Sess :=
  { x with pendSync := none }

/-- The record of a session without its Delay_Req. -/
def Sess.unasked (x : Sess) : Sess :=
  { x with pendReq := none }

theorem State.rxFollowUp_match {s : State} {n : Fin 16} {id : BitVec 9} {seq : BitVec 16} {t2 cf1 : Int} {ptp : Bool}
    (t1 : Stamp) (cf : BitVec 64) (rate : BitVec 32) (h : (s.sessOr n id).pendSync = some (seq, t2, cf1, ptp)) :
    s.rxFollowUp n id seq t1 cf rate
      = (s.putSess (s.sessOr n id).unsynced).syncDone n id.toNat t1 t2 cf1 cf.toInt ptp rate.toInt := by
  unfold State.rxFollowUp
  dsimp only
  rw [h]
  exact if_neg (not_not_intro rfl)

theorem State.rxFollowUp_other {s : State} {n : Fin 16} {id : BitVec 9} {seq q : BitVec 16} {t2 cf1 : Int} {ptp : Bool}
    (t1 : Stamp) (cf : BitVec 64) (rate : BitVec 32) (h : (s.sessOr n id).pendSync = some (q, t2, cf1, ptp)) (hq : q ≠ seq) :
    s.rxFollowUp n id seq t1 cf rate = s := by
  unfold State.rxFollowUp
  dsimp only
  rw [h]
  exact if_pos hq

/-- The session's record after a message that stores it and then serves the streams. -/
theorem completes_sess {c : Instr} {s t u : State} {n : Fin 16} {id : BitVec 9} {A : Sess → Prop}
    (hexec : exec c s = done s t) (ht : t = u) (hA : A (u.sessOr n id)) : Completes c s (fun t => A (t.sessOr n id)) := by
  subst ht
  exact completes_of_done hexec hA

/-- Which of its instances has a port as master, from the configurations and the port states. -/
theorem State.masterInst_congr {s t : State}
    (h : ∀ i : Fin 8, t.r .pte 0 (0x200 + 0x20 * i.val) = s.r .pte 0 (0x200 + 0x20 * i.val)) (hi : t.insts = s.insts)
    (n : Fin 16) : t.masterInst n = s.masterInst n := by
  simp only [State.masterInst, State.instHas_congr h, hi]

theorem State.masterInst_count (s : State) (n : Fin 16) (k : Nat) :
    (s.count .pte 0 4 31 0 k).masterInst n = s.masterInst n :=
  State.masterInst_congr (s.r_count_instCfg k) rfl n

theorem State.answers_master {s : State} {n : Fin 16} {i : Fin 8} (h : s.masterInst n = some i) : s.answers n = (some i, s) := by
  rw [State.answers, h]

/-- Without a master state kept and without the steward, a port answers no Delay_Req. -/
theorem State.answers_none {s : State} {n : Fin 16} (h : s.masterInst n = none) (hst : s.boot.stewardUp = false) :
    s.answers n = (none, s) := by
  rw [State.answers, h]
  cases s.portInst n with
  | none => rfl
  | some i => exact if_pos hst

theorem State.serves_granted {s : State} {n : Fin 16} {id : BitVec 9} {k : Grant} (h : (s.sessOr n id).serves k = true) :
    s.serves n id k = (true, s) :=
  if_pos h

theorem State.serves_lapsed {s : State} {n : Fin 16} {id : BitVec 9} {k : Grant} (h : (s.sessOr n id).serves k = false)
    (hst : s.boot.stewardUp = false) : s.serves n id k = (false, s) := by
  rw [State.serves, if_neg (by rw [h]; decide), if_pos hst]

/-- The steward's renewal of a lapsed grant is one free value. -/
theorem State.serves_freeCtr {s : State} {n : Fin 16} {id : BitVec 9} {k : Grant} (h : (s.sessOr n id).serves k = false)
    (hst : s.boot.stewardUp = true) : (s.serves n id k).2.freeCtr = s.freeCtr + 1 := by
  rw [State.serves, if_neg (by rw [h]; decide), if_neg (by rw [hst]; decide)]
  dsimp only [State.free]
  split
  · rfl
  · rfl

/-- The Delay_Resp to a Delay_Req. -/
def State.delayResp (s : State) (n : Fin 16) (i : Fin 8) (seq : BitVec 16) (cf : BitVec 64) (tb : Edge) (var : Nat) (v : State) : State :=
  v.sendPtp n (some i) (.delayResp seq (ptpTime (stampOf16 (s.frameStamp n false tb var)))
    (tiLimit (cf.toInt - (((stampOf16 (s.frameStamp n false tb var)).sub.toNat : Nat) : Int))))

theorem State.rxDelayReq_master {s : State} {n : Fin 16} {i : Fin 8} (id : BitVec 9) (seq : BitVec 16) (cf : BitVec 64) (tb : Edge)
    (var : Nat) (h : s.masterInst n = some i) : s.rxDelayReq n id seq cf tb var
      = if (s.serves n id .delayResp).1 then s.delayResp n i seq cf tb var (s.serves n id .delayResp).2
        else (s.serves n id .delayResp).2 := by
  unfold State.rxDelayReq
  rw [State.answers_master h]
  rfl

theorem State.rxDelayReq_none {s : State} {n : Fin 16} (id : BitVec 9) (seq : BitVec 16) (cf : BitVec 64) (tb : Edge) (var : Nat)
    (h : s.masterInst n = none) (hst : s.boot.stewardUp = false) : s.rxDelayReq n id seq cf tb var = s := by
  unfold State.rxDelayReq
  rw [State.answers_none h hst]

theorem State.delayResp_freeCtr (s v : State) (n : Fin 16) (i : Fin 8) (seq : BitVec 16) (cf : BitVec 64) (tb : Edge) (var : Nat) :
    (s.delayResp n i seq cf tb var v).freeCtr = v.freeCtr :=
  rfl

theorem completes_freeCtr {c : Instr} {s t u : State} {k : Nat} (hexec : exec c s = done s t) (ht : t = u)
    (hk : u.freeCtr = k) : Completes c s (fun t => t.freeCtr = k) := by
  subst ht
  exact completes_of_done hexec hk

/-- A message of which nothing comes but the count of its TLVs. -/
theorem done_count {s : State} (k : Nat) (hup : s.coreUp = true) :
    done s (s.count .pte 0 4 31 0 k) = .next (s.count .pte 0 4 31 0 k) :=
  done_eq_next rfl rfl rfl rfl hup

section
variable {s : State} {n : Fin 16} {id : BitVec 9} {tl : PtpTail} (hup : s.coreUp = true) (hon : s.pteOn = true)
  (hlink : s.ptpUp n = true) (hauth : tl.auth = false) (hclean : s.sessClean n id = true)
include hup hon hlink hauth hclean

theorem followUpRx_match {seq : BitVec 16} {t2 cf1 : Int} {ptp : Bool} (t1 : Stamp) (rate : BitVec 32)
    (hpend : (s.sessOr n id).pendSync = some (seq, t2, cf1, ptp)) :
    Completes (.followUpRx n id seq t1 rate tl) s (fun t => t.sessOr n id = { s.sessOr n id with pendSync := none }) := by
  have hexec := sessMessage_taken (f := fun s => s.rxFollowUp n id seq t1 tl.cf rate)
    (c := .followUpRx n id seq t1 rate tl) hup hon hlink rfl hauth hclean
  obtain ⟨hport, hid⟩ := s.sessOr_own n id
  refine completes_sess (A := fun x => x = _) hexec
    (State.rxFollowUp_match (s := s.count .pte 0 4 31 0 tl.others) t1 tl.cf rate hpend) ?_
  rw [State.sessOr_of_val (State.syncDone_val (by decide) ..)]
  exact State.sessOr_putSess (x := (s.sessOr n id).unsynced) hport hid

theorem followUpRx_other {seq q : BitVec 16} {t2 cf1 : Int} {ptp : Bool} (t1 : Stamp) (rate : BitVec 32)
    (hpend : (s.sessOr n id).pendSync = some (q, t2, cf1, ptp)) (hq : q ≠ seq) :
    exec (.followUpRx n id seq t1 rate tl) s = .next (s.count .pte 0 4 31 0 tl.others) := by
  have hexec := sessMessage_taken (f := fun s => s.rxFollowUp n id seq t1 tl.cf rate)
    (c := .followUpRx n id seq t1 rate tl) hup hon hlink rfl hauth hclean
  rw [hexec, State.rxFollowUp_other (s := s.count .pte 0 4 31 0 tl.others) t1 tl.cf rate hpend hq]
  exact done_count tl.others hup

theorem delayReqRx_served {i : Fin 8} (seq : BitVec 16) (tb : Edge) (var : Nat) (hi : s.masterInst n = some i)
    (hserves : (s.sessOr n id).srvDelayResp = true) : exec (.delayReqRx n id seq tl tb var) s
      = .next ((s.count .pte 0 4 31 0 tl.others).delayResp n i seq tl.cf tb var (s.count .pte 0 4 31 0 tl.others)) := by
  have hexec := sessMessage_taken (f := fun s => s.rxDelayReq n id seq tl.cf tb var)
    (c := .delayReqRx n id seq tl tb var) hup hon hlink rfl hauth hclean
  rw [hexec, State.rxDelayReq_master id seq tl.cf tb var ((s.masterInst_count n tl.others).trans hi),
    State.serves_granted (s := s.count .pte 0 4 31 0 tl.others) (k := .delayResp) hserves]
  exact done_eq_next rfl rfl rfl rfl hup

theorem delayReqRx_lapsed {i : Fin 8} (seq : BitVec 16) (tb : Edge) (var : Nat) (hi : s.masterInst n = some i)
    (hserves : (s.sessOr n id).srvDelayResp = false) (hst : s.boot.stewardUp = false) :
    exec (.delayReqRx n id seq tl tb var) s = .next (s.count .pte 0 4 31 0 tl.others) := by
  have hexec := sessMessage_taken (f := fun s => s.rxDelayReq n id seq tl.cf tb var)
    (c := .delayReqRx n id seq tl tb var) hup hon hlink rfl hauth hclean
  rw [hexec, State.rxDelayReq_master id seq tl.cf tb var ((s.masterInst_count n tl.others).trans hi),
    State.serves_lapsed (s := s.count .pte 0 4 31 0 tl.others) (k := .delayResp) hserves hst]
  exact done_count tl.others hup

theorem delayReqRx_renewable {i : Fin 8} (seq : BitVec 16) (tb : Edge) (var : Nat) (hi : s.masterInst n = some i)
    (hserves : (s.sessOr n id).srvDelayResp = false) (hst : s.boot.stewardUp = true) :
    Completes (.delayReqRx n id seq tl tb var) s (fun t => t.freeCtr = s.freeCtr + 1) := by
  have hexec := sessMessage_taken (f := fun s => s.rxDelayReq n id seq tl.cf tb var)
    (c := .delayReqRx n id seq tl tb var) hup hon hlink rfl hauth hclean
  have hfree := State.serves_freeCtr (s := s.count .pte 0 4 31 0 tl.others) (n := n) (id := id) (k := .delayResp) hserves hst
  refine completes_freeCtr hexec (State.rxDelayReq_master id seq tl.cf tb var ((s.masterInst_count n tl.others).trans hi)) ?_
  split
  · exact (State.delayResp_freeCtr ..).trans hfree
  · exact hfree

theorem delayReqRx_unanswered (seq : BitVec 16) (tb : Edge) (var : Nat) (hi : s.masterInst n = none)
    (hst : s.boot.stewardUp = false) : exec (.delayReqRx n id seq tl tb var) s = .next (s.count .pte 0 4 31 0 tl.others) := by
  have hexec := sessMessage_taken (f := fun s => s.rxDelayReq n id seq tl.cf tb var)
    (c := .delayReqRx n id seq tl tb var) hup hon hlink rfl hauth hclean
  rw [hexec, State.rxDelayReq_none id seq tl.cf tb var ((s.masterInst_count n tl.others).trans hi) hst]
  exact done_count tl.others hup

theorem delayRespRx_completes {seq : BitVec 16} {t3 : Int} (t4 : Stamp) (hpend : (s.sessOr n id).pendReq = some (seq, t3)) :
    Completes (.delayRespRx n id seq t4 tl) s (fun t => t.sessOr n id = { s.sessOr n id with pendReq := none }) := by
  have hexec := sessMessage_taken (f := fun s => s.rxDelayResp n id seq t4 tl.cf)
    (c := .delayRespRx n id seq t4 tl) hup hon hlink rfl hauth hclean
  obtain ⟨hport, hid⟩ := s.sessOr_own n id
  have hstored : ((s.count .pte 0 4 31 0 tl.others).putSess (s.sessOr n id).unasked).sessOr n id = (s.sessOr n id).unasked :=
    State.sessOr_putSess hport hid
  have hsess : ((s.count .pte 0 4 31 0 tl.others).rxDelayResp n id seq t4 tl.cf).sessOr n id = (s.sessOr n id).unasked := by
    unfold State.rxDelayResp
    dsimp only
    rw [show ((s.count .pte 0 4 31 0 tl.others).sessOr n id).pendReq = some (seq, t3) from hpend]
    dsimp only
    rw [if_neg (not_not_intro rfl)]
    split
    · exact hstored
    · rw [State.sessOr_of_val (State.offerDr_val (by decide) ..)]
      exact hstored
  exact completes_sess (A := fun x => x = (s.sessOr n id).unasked) hexec rfl hsess

end

/-! ## Peer delay (R238, R242, R244) -/

/-- The record of a port whose peer delay is measured. -/
def Port.measured (nrr mld : Int) (p : Port) : Port :=
  { p with pdT1 := none, nrr := nrr, mld := some mld }

theorem State.rxPdelayResp_eq {s : State} {n : Fin 16} {t1 : Int} {cf : BitVec 64} (t2 t3 : Stamp) (tb : Edge) (var : Nat)
    (hreq : (s.ports[n]).pdT1 = some t1) (hcf : cf.toInt ≠ cfMax) :
    s.rxPdelayResp n (s.ports[n]).pdSeq t2 t3 cf tb var = s.free.2.modPort n (Port.measured (s.free.1.setWidth 32).toInt
      (roundDiv (s.frameStamp n false tb var - t1 - (stamp16 (ptpTime t3) - stamp16 (ptpTime t2)) - cf.toInt) 2)) := by
  have hvalid : ¬ cfInt cf = cfMax := hcf
  unfold State.rxPdelayResp
  rw [hreq]
  dsimp only
  rw [if_neg (not_not_intro rfl)]
  simp only [hvalid, if_false]
  rfl

/-- What a measured peer delay leaves of the port, the sessions and the streams. -/
theorem completes_measured {c : Instr} {s t u : State} {n : Fin 16} {nrr mld : Int} (hexec : exec c s = done s t)
    (ht : t = u.modPort n (Port.measured nrr mld)) (hsess : u.sessions = s.sessions) (hstreams : u.streams = s.streams) :
    Completes c s (fun t => (t.ports[n]).pdT1 = none ∧ (t.ports[n]).mld = some mld ∧ t.sessions = s.sessions
      ∧ t.streams = s.streams) := by
  subst ht
  have hport : (u.modPort n (Port.measured nrr mld)).ports[n] = (u.ports[n]).measured nrr mld := Vector.getElem_set_self _
  exact completes_of_done hexec ⟨congrArg Port.pdT1 hport, congrArg Port.mld hport, hsess, hstreams⟩

section
variable {s : State} {n : Fin 16} {tl : PtpTail} (hup : s.coreUp = true) (hon : s.pteOn = true)
  (hlink : s.ptpUp n = true) (hauth : tl.auth = false)
include hup hon hlink hauth

theorem pdelayReqRx_answered (seq : BitVec 16) (rx tx : Point) :
    exec (.pdelayReqRx n seq tl rx tx) s
      = .next ((s.count .pte 0 4 31 0 tl.others).rxPdelayReq n seq tl.cf rx.edge rx.var tx.edge tx.var) := by
  rw [message_taken (f := fun s => s.rxPdelayReq n seq tl.cf rx.edge rx.var tx.edge tx.var) hup hon hlink rfl hauth]
  exact done_eq_next rfl rfl rfl rfl hup

theorem pdelayRespRx_measures {t1 : Int} (t2 t3 : Stamp) (tb : Edge) (var : Nat) (hreq : (s.ports[n]).pdT1 = some t1)
    (hcf : tl.cf.toInt ≠ 2 ^ 63 - 1) :
    Completes (.pdelayRespRx n (s.ports[n]).pdSeq t2 t3 tl tb var) s (fun t => (t.ports[n]).pdT1 = none
      ∧ (t.ports[n]).mld = some (roundDiv (s.frameStamp n false tb var - t1
          - (stamp16 (ptpTime t3) - stamp16 (ptpTime t2)) - tl.cf.toInt) 2)
      ∧ t.sessions = s.sessions ∧ t.streams = s.streams) := by
  have hexec := message_taken (f := fun s' => s'.rxPdelayResp n (s.ports[n]).pdSeq t2 t3 tl.cf tb var)
    (c := .pdelayRespRx n (s.ports[n]).pdSeq t2 t3 tl tb var) hup hon hlink rfl hauth
  rw [← s.frameStamp_count_pte n false tb var tl.others]
  exact completes_measured hexec (State.rxPdelayResp_eq (s := s.count .pte 0 4 31 0 tl.others) t2 t3 tb var hreq hcf) rfl rfl

end

end Sys2Proof.Machine

/-! SUPPORT. PROOFS. Announce messages and the steward's parent (R26, R238, R243). -/

namespace Sys2Proof.Machine

/-! ## Port states -/

theorem State.setPtp_states (s : State) (i : Fin 8) (n : Fin 16) (x : PtpState) : ((s.setPtp i n x).insts[i]).states[n] = x := by
  rw [State.setPtp, State.modInst_insts]
  have hi : (s.insts.set i { s.insts[i] with states := (s.insts[i]).states.set n x })[i]
      = { s.insts[i] with states := (s.insts[i]).states.set n x } := Vector.getElem_set_self _
  exact (congrArg (fun q : Inst => q.states[n]) hi).trans (Vector.getElem_set_self _)

theorem State.setPtp_states_other {s : State} {i j : Fin 8} (n m : Fin 16) (x : PtpState) (h : j ≠ i) :
    ((s.setPtp j n x).insts[i]).states[m] = ((s.insts[i]).states)[m] := by
  rw [State.setPtp, State.modInst_insts]
  exact congrArg (fun q : Inst => q.states[m]) (Vector.getElem_set_ne j.isLt i.isLt (fun hv => h (Fin.ext hv)))

theorem State.instHas_setPtp (s : State) (i j : Fin 8) (n m : Fin 16) (x : PtpState) :
    (s.setPtp j n x).instHas i m = s.instHas i m :=
  State.instHas_congr (fun _ => State.r_of_regs rfl .pte 0 _) i m

/-- The port becomes slave in one of the instances that hold it. -/
def State.slaveIn (n : Fin 16) (i : Fin 8) (s : State) : State :=
  if s.instHas i n then s.setPtp i n .slave else s

theorem State.instHas_slaveIn (s : State) (i j : Fin 8) (n m : Fin 16) : (s.slaveIn n j).instHas i m = s.instHas i m := by
  unfold State.slaveIn
  split
  · exact State.instHas_setPtp ..
  · rfl

theorem State.slaveIn_foldl {n : Fin 16} {i : Fin 8} : ∀ (l : List (Fin 8)) (s : State),
    (i ∈ l ∧ s.instHas i n = true) ∨ (s.insts[i]).states[n] = .slave →
    ((l.foldl (fun s i => State.slaveIn n i s) s).insts[i]).states[n] = .slave
  | [], _, h => h.resolve_left fun hm => absurd hm.1 List.not_mem_nil
  | j :: l, s, h => by
    refine State.slaveIn_foldl l (State.slaveIn n j s) ?_
    by_cases hij : j = i
    · subst hij
      by_cases hhas : s.instHas j n = true
      · rw [State.slaveIn, if_pos hhas]
        exact .inr (State.setPtp_states ..)
      · rw [State.slaveIn, if_neg hhas]
        exact .inr (h.resolve_left fun hm => hhas hm.2)
    · refine h.imp (fun hm => ⟨(List.mem_cons.mp hm.1).resolve_left (Ne.symm hij), ?_⟩) fun hs => ?_
      · rw [State.instHas_slaveIn]
        exact hm.2
      · unfold State.slaveIn
        split
        · exact (State.setPtp_states_other n n .slave hij).trans hs
        · exact hs

/-! ## A new parent (R238, R243) -/

/-- A replaced parent is none any more, and its port listens. -/
def State.unparent (n : Fin 16) (s : State) (y : Sess) : State :=
  overFin 8 (s.putSess { y with active := false, pendSync := none, pendReq := none })
    (fun i s => if s.instHas i n ∧ s.instHas i y.port then s.setPtp i y.port .listening else s)

theorem State.selectParent_eq (s : State) (n : Fin 16) (id : BitVec 9) : s.selectParent n id
    = overFin 8 ((((s.rivals n id).foldl (State.unparent n) s).putSess
        { ((s.rivals n id).foldl (State.unparent n) s).sessOr n id with active := true })) (State.slaveIn n) :=
  rfl

theorem State.sessions_overFin {m : Nat} {f : Fin m → State → State} (hf : ∀ i s, (f i s).sessions = s.sessions) (s : State) :
    (overFin m s f).sessions = s.sessions :=
  State.val_overFin (p := .sessions) hf s

theorem State.unparent_sessOr {s : State} {n : Fin 16} {id : BitVec 9} {y : Sess} (h : ¬ (y.port = n ∧ y.id = id)) :
    (s.unparent n y).sessOr n id = s.sessOr n id := by
  have hsess : (s.unparent n y).sessions
      = (s.putSess { y with active := false, pendSync := none, pendReq := none }).sessions :=
    State.sessions_overFin (fun i s => by split <;> rfl) _
  rw [State.sessOr_of_sessions hsess]
  exact State.sessOr_putSess_other h

theorem State.unparents_sessOr {n : Fin 16} {id : BitVec 9} : ∀ (l : List Sess) (s : State),
    (∀ y ∈ l, ¬ (y.port = n ∧ y.id = id)) → (l.foldl (State.unparent n) s).sessOr n id = s.sessOr n id
  | [], _, _ => rfl
  | y :: l, s, h => by
    rw [List.foldl_cons, State.unparents_sessOr l _ fun z hz => h z (List.mem_cons_of_mem _ hz),
      State.unparent_sessOr (h y List.mem_cons_self)]

theorem State.rivals_other {s : State} {n : Fin 16} {id : BitVec 9} : ∀ y ∈ s.rivals n id, ¬ (y.port = n ∧ y.id = id) := by
  intro y hy
  have hsel := (List.mem_filter.mp hy).2
  simp only [Bool.and_eq_true, Bool.not_eq_true', decide_eq_false_iff_not] at hsel
  exact hsel.1.2

/-- The parent selected is the session's record, made active. -/
theorem State.selectParent_sessOr (s : State) (n : Fin 16) (id : BitVec 9) :
    (s.selectParent n id).sessOr n id = { s.sessOr n id with active := true } := by
  have hrivals := State.unparents_sessOr (s.rivals n id) s s.rivals_other
  rw [State.selectParent_eq, hrivals]
  obtain ⟨hport, hid⟩ := s.sessOr_own n id
  rw [State.sessOr_of_sessions (State.sessions_overFin (fun i s => by unfold State.slaveIn; split <;> rfl) _)]
  exact State.sessOr_putSess hport hid

theorem State.unparent_reg (s : State) (n : Fin 16) (y : Sess) (k : Nat) : (s.unparent n y).reg k = s.reg k :=
  (State.reg_overFin (fun i s => by split <;> rfl) _).trans (State.reg_of_regs rfl k)

theorem State.selectParent_reg (s : State) (n : Fin 16) (id : BitVec 9) (k : Nat) : (s.selectParent n id).reg k = s.reg k := by
  rw [State.selectParent_eq, State.reg_overFin (fun i s => by unfold State.slaveIn; split <;> rfl)]
  exact (State.reg_of_regs rfl k).trans (State.reg_foldl (fun s y => s.unparent_reg n y k) _ s)

/-- Without rivals the port becomes slave in its instances. -/
theorem State.selectParent_slave {s : State} {n : Fin 16} {id : BitVec 9} (h : s.rivals n id = []) {i : Fin 8}
    (hi : s.instHas i n = true) : ((s.selectParent n id).insts[i]).states[n] = .slave := by
  rw [State.selectParent_eq, h]
  refine State.slaveIn_foldl (List.finRange 8) _ (.inl ⟨List.mem_finRange i, ?_⟩)
  exact (State.instHas_congr (fun i => State.putSess_r ..) i n).trans hi

/-! ## The Announce (R80, R238, R247) -/

/-- The record of a session that has announced itself. -/
def Sess.announced (x : Sess) (cls : Byte) (bench : Option (BitVec 256 × Word)) : Sess :=
  { x with cls := cls, bench := bench.orElse (fun _ => x.bench) }

/-- What the steward's decision leaves of the session: its class, its activity unless it becomes the parent. -/
theorem State.decideParent_sessOr (s : State) (n : Fin 16) (id : BitVec 9) :
    (s.decideParent n id).sessOr n id = s.sessOr n id
      ∨ (s.decideParent n id).sessOr n id = { s.sessOr n id with active := true } := by
  unfold State.decideParent
  split
  · exact .inl rfl
  split
  · exact .inr (s.selectParent_sessOr n id)
  · dsimp only [State.free]
    split
    · exact .inr (State.selectParent_sessOr _ n id)
    · exact .inl rfl

theorem State.decideParent_reg (s : State) (n : Fin 16) (id : BitVec 9) (k : Nat) : (s.decideParent n id).reg k = s.reg k := by
  unfold State.decideParent
  split
  · rfl
  split
  · exact s.selectParent_reg n id k
  · dsimp only [State.free]
    split
    · exact (State.selectParent_reg _ n id k).trans (State.reg_of_regs rfl k)
    · exact State.reg_of_regs rfl k

theorem State.decideParent_idle {s : State} {n : Fin 16} {id : BitVec 9} (h : s.boot.stewardUp = false) :
    s.decideParent n id = s :=
  if_pos (.inr h)

theorem State.decideParent_alone {s : State} {n : Fin 16} {id : BitVec 9} (hactive : (s.sessOr n id).active = false)
    (hst : s.boot.stewardUp = true) (h : s.rivals n id = []) : s.decideParent n id = s.selectParent n id := by
  rw [State.decideParent, if_neg (by rw [hactive, hst]; decide), h]
  rfl

/-- A session is one that a session of port n would replace. -/
def State.rivalOf (s : State) (n : Fin 16) (id : BitVec 9) (y : Sess) : Bool :=
  y.active && !decide (y.port = n ∧ y.id = id) && (List.finRange 8).any (fun i => s.instHas i n && s.instHas i y.port)

theorem State.rivals_eq (s : State) (n : Fin 16) (id : BitVec 9) : s.rivals n id = s.sessions.filter (s.rivalOf n id) :=
  rfl

theorem State.rivalOf_congr {s t : State} (h : ∀ i m, t.instHas i m = s.instHas i m) (n : Fin 16) (id : BitVec 9) :
    t.rivalOf n id = s.rivalOf n id := by
  funext y
  simp only [State.rivalOf, h]

theorem State.rivals_of_sessions {s t : State} (hs : t.sessions = s.sessions) (h : ∀ i m, t.instHas i m = s.instHas i m)
    (n : Fin 16) (id : BitVec 9) : t.rivals n id = s.rivals n id := by
  rw [State.rivals_eq, State.rivals_eq, hs, State.rivalOf_congr h]

/-- A session's own record is no rival of it. -/
theorem State.rivals_putSess_nil {s : State} {x : Sess} {n : Fin 16} {id : BitVec 9} (hport : x.port = n) (hid : x.id = id)
    (h : s.rivals n id = []) : (s.putSess x).rivals n id = [] := by
  rw [State.rivals_eq, List.filter_eq_nil_iff] at h ⊢
  rw [State.rivalOf_congr (s := s) (fun i m => State.instHas_congr (fun _ => State.putSess_r ..) i m)]
  intro y hy
  rcases List.mem_cons.mp hy with rfl | hmem
  · rw [State.rivalOf, decide_eq_true ⟨hport, hid⟩]
    simp
  · exact h y (List.mem_filter.mp hmem).1

/-- The streams and their orders after the steward's decision. -/
def State.rebound (s : State) : State :=
  overFin 32 s.refreshStreams (fun i s => s.refreshOrder (streamSrc i))

theorem State.rebound_val {p : Part} (h : p.offPorts) (s : State) : s.rebound.val p = s.val p :=
  (State.val_overFin (fun _ _ => State.refreshOrder_val h ..) _).trans (State.refreshStreams_val h s)

theorem State.rebound_reg {k : Nat} (h : k ∉ sourceKeys) (s : State) : s.rebound.reg k = s.reg k :=
  (State.reg_overFin (fun _ _ => State.reg_refreshOrder h ..) _).trans (State.reg_refreshStreams h s)

theorem State.rxAnnounce_eq (s : State) (n : Fin 16) (id : BitVec 9) (cls : Byte) (bench : Option (BitVec 256 × Word)) :
    s.rxAnnounce n id cls bench = ((s.putSess ((s.sessOr n id).announced cls bench)).decideParent n id).rebound :=
  rfl

/-- A command that ends in `v` with its streams brought up to date completes with what holds of its session, its TLV count
and its instances. -/
theorem completes_rebound {c : Instr} {s t v : State} {n : Fin 16} {id : BitVec 9} {A : Sess → Prop} {B : Word → Prop}
    {C : Sess → Vector Inst 8 → Prop} (hexec : exec c s = done s t) (ht : t = v.rebound) (hA : A (v.sessOr n id))
    (hB : B (v.r .pte 0 4)) (hC : C (v.sessOr n id) v.insts) :
    Completes c s (fun t => A (t.sessOr n id) ∧ B (t.r .pte 0 4) ∧ C (t.sessOr n id) t.insts) := by
  have hsess : t.sessOr n id = v.sessOr n id := by
    rw [ht]
    exact State.sessOr_of_val (State.rebound_val (by decide) v) n id
  have hinsts : t.insts = v.insts := by
    rw [ht]
    exact State.rebound_val (p := .insts) (by decide) v
  have hreg : t.r .pte 0 4 = v.r .pte 0 4 := by
    rw [ht]
    exact State.rebound_reg tlvCount_not_source v
  exact completes_of_done hexec ⟨hsess ▸ hA, hreg ▸ hB, hsess ▸ hinsts ▸ hC⟩

/-- What an Announce asks of the session's activity and of the port states. -/
def AnnounceDecides (s : State) (n : Fin 16) (id : BitVec 9) (x : Sess) (insts : Vector Inst 8) : Prop :=
  ((s.sessOr n id).active = true → x.active = true)
    ∧ ((s.sessOr n id).active = false → s.boot.stewardUp = false → x.active = false ∧ insts = s.insts)
    ∧ ((s.sessOr n id).active = false → s.boot.stewardUp = true → s.rivals n id = [] → x.active = true
      ∧ ∀ i : Fin 8, s.instHas i n = true → (insts[i]).states[n] = .slave)

/-- The decision about a session that has announced itself, from a state with the sessions and instances of `s`. -/
theorem State.decideParent_announced {s u : State} {n : Fin 16} {id : BitVec 9} {cls : Byte}
    {bench : Option (BitVec 256 × Word)} (hsess : u.sessions = s.sessions) (hinsts : u.insts = s.insts)
    (hboot : u.boot = s.boot) (hhas : ∀ i m, u.instHas i m = s.instHas i m) :
    (((u.putSess ((s.sessOr n id).announced cls bench)).decideParent n id).sessOr n id).cls = cls
      ∧ AnnounceDecides s n id (((u.putSess ((s.sessOr n id).announced cls bench)).decideParent n id).sessOr n id)
        ((u.putSess ((s.sessOr n id).announced cls bench)).decideParent n id).insts := by
  obtain ⟨hport, hid⟩ := s.sessOr_own n id
  have hstored : (u.putSess ((s.sessOr n id).announced cls bench)).sessOr n id = (s.sessOr n id).announced cls bench :=
    State.sessOr_putSess hport hid
  have hdecided := (u.putSess ((s.sessOr n id).announced cls bench)).decideParent_sessOr n id
  rw [hstored] at hdecided
  refine ⟨?_, fun hactive => ?_, fun hidle hst => ?_, fun hidle hst hrivals => ?_⟩
  · rcases hdecided with h | h <;> rw [h] <;> rfl
  · rcases hdecided with h | h
    · rw [h]
      exact hactive
    · rw [h]
  · rw [State.decideParent_idle (s := u.putSess _) ((congrArg Boot.stewardUp hboot).trans hst), hstored]
    exact ⟨hidle, hinsts⟩
  · have hnone : (u.putSess ((s.sessOr n id).announced cls bench)).rivals n id = [] :=
      State.rivals_putSess_nil hport hid ((State.rivals_of_sessions hsess hhas n id).trans hrivals)
    have hone := State.decideParent_alone (s := u.putSess ((s.sessOr n id).announced cls bench))
      ((congrArg Sess.active hstored).trans hidle) ((congrArg Boot.stewardUp hboot).trans hst) hnone
    rw [hone]
    refine ⟨by rw [State.selectParent_sessOr], fun i hi => State.selectParent_slave hnone ?_⟩
    exact (State.instHas_congr (fun _ => State.putSess_r ..) i n).trans ((hhas i n).trans hi)

theorem announceRx_completes {s : State} {n : Fin 16} {id : BitVec 9} {tl : PtpTail} (cls : Byte)
    (bench : Option (BitVec 256 × Word)) (hup : s.coreUp = true) (hon : s.pteOn = true)
    (hlink : s.ptpUp n = true) (hauth : tl.auth = false) (hclean : s.sessClean n id = true) :
    Completes (.announceRx n id cls bench tl.others tl.auth) s (fun t => (t.sessOr n id).cls = cls
      ∧ t.r .pte 0 4 = BitVec.ofNat 32 (satAdd 32 (s.r .pte 0 4).toNat tl.others)
      ∧ AnnounceDecides s n id (t.sessOr n id) t.insts) := by
  have hexec := sessMessage_taken (tl := ⟨0, tl.others, tl.auth⟩) (f := fun s => s.rxAnnounce n id cls bench)
    (c := .announceRx n id cls bench tl.others tl.auth) hup hon hlink rfl hauth hclean
  obtain ⟨hcls, hdecides⟩ := State.decideParent_announced (s := s) (u := s.count .pte 0 4 31 0 tl.others) (n := n) (id := id)
    (cls := cls) (bench := bench) rfl rfl rfl (fun i m => State.instHas_congr (s.r_count_instCfg tl.others) i m)
  refine completes_rebound (A := fun x => x.cls = cls) (B := fun w => w = _) (C := AnnounceDecides s n id) hexec
    (State.rxAnnounce_eq ..) hcls ?_ hdecides
  exact (State.decideParent_reg ..).trans ((State.putSess_r ..).trans (s.r_count_word .pte 0 4 tl.others))

end Sys2Proof.Machine

/-! SUPPORT. PROOFS. PTP messages sent (R26, R238, R239, R243, R244). -/

namespace Sys2Proof.Machine

/-! ## What the engine does before it sends -/

theorem State.frameStamp_setPtp (s : State) (i : Fin 8) (m n : Fin 16) (x : PtpState) (tx : Bool) (e : Edge) (var : Nat) :
    (s.setPtp i m x).frameStamp n tx e var = s.frameStamp n tx e var :=
  State.frameStamp_congr tx e var (State.pcfg_congr rfl rfl (State.r_of_regs rfl ..)) rfl (State.r_of_regs rfl ..)
    (State.r_of_regs rfl ..)

theorem State.frameStamp_modPort (s : State) (m n : Fin 16) (f : Port → Port) (tx : Bool) (e : Edge) (var : Nat) :
    (s.modPort m f).frameStamp n tx e var = s.frameStamp n tx e var :=
  State.frameStamp_congr tx e var (State.pcfg_congr rfl rfl (State.r_of_regs rfl ..)) rfl (State.r_of_regs rfl ..)
    (State.r_of_regs rfl ..)

theorem State.portDatum_congr {s t : State} {n : Fin 16} (h : t.pcfg n = s.pcfg n) : t.portDatum n = s.portDatum n := by
  rw [State.portDatum, State.portDatum, h]

theorem State.profile_setPtp (s : State) (i j : Fin 8) (n : Fin 16) (x : PtpState) : (s.setPtp j n x).profile i = s.profile i :=
  State.profile_congr (State.r_of_regs rfl ..)

/-- A port state kept leaves the rest of the instances. -/
theorem State.setPtp_inst (s : State) (i : Fin 8) (n : Fin 16) (x : PtpState) :
    (s.setPtp i n x).insts[i] = { s.insts[i] with states := (s.insts[i]).states.set n x } :=
  Vector.getElem_set_self _

section
variable {s : State} {i : Fin 8} {n : Fin 16} {id : BitVec 9} (hup : s.coreUp = true) (hon : s.pteOn = true)
  (hclean : s.sessClean n id = true)
include hup hon hclean

/-- A message of a session whose entry is clean is sent. -/
theorem sessMessage_sent {c : Instr} {f : State → State} (hexec : exec c s = donePte s (fun s => s.withSess n id f)) :
    exec c s = done s (f s) := by
  rw [hexec, donePte_on _ hup hon, State.withSess_clean _ hclean]

end

theorem not_instOff {s : State} {i : Fin 8} {n : Fin 16} {x : PtpState} (hinst : s.instOn i n = true)
    (hstate : s.inState i n x = true) : ¬ (s.instOn i n = false ∨ s.inState i n x = false) := by
  rw [hinst, hstate]
  decide

theorem done_of_clock {s t : State} (h : t.val .clock = s.val .clock) (hup : s.coreUp = true) : done s t = .next t := by
  obtain ⟨hpending, hcore, hticking, htick, hislands⟩ := State.clock_of_val h
  exact done_eq_next hpending htick hislands hticking (hcore.trans hup)

theorem State.sendPtp_val {p : Part} (s : State) (n : Fin 16) (i : Option (Fin 8)) (m : TxMsg) :
    (s.sendPtp n i m).val p = s.val p :=
  State.emit_val ..

theorem State.setPtp_val {p : Part} (h : p ≠ .insts) (s : State) (i : Fin 8) (n : Fin 16) (x : PtpState) :
    (s.setPtp i n x).val p = s.val p :=
  State.modInst_val h ..

/-! ## Sync (R239, R243, R244) -/

/-- The state in which a Sync leaves, its sequence number taken. -/
def State.syncTaken (s : State) (i : Fin 8) : State :=
  s.modInst i (fun q => { q with syncSeq := q.syncSeq + 1 })

theorem State.emitSync_one (s : State) (i : Fin 8) (n : Fin 16) (own origin : Stamp) (cf rate : Int) :
    s.emitSync i n true own origin cf rate = (s.syncTaken i).sendPtp n (some i)
      (.sync (s.insts[i]).syncSeq true (ptpTime own) ((own.sub.toNat : Nat) : Int) rate) :=
  rfl

theorem State.emitSync_two (s : State) (i : Fin 8) (n : Fin 16) (own origin : Stamp) (cf rate : Int) :
    s.emitSync i n false own origin cf rate = ((s.syncTaken i).sendPtp n (some i) (.sync (s.insts[i]).syncSeq false stampZero 0 0)).sendPtp
      n (some i) (.followUp (s.insts[i]).syncSeq origin cf rate) :=
  rfl

theorem State.emitSync_val {p : Part} (h : p ≠ .insts) (s : State) (i : Fin 8) (n : Fin 16) (one : Bool) (own origin : Stamp)
    (cf rate : Int) : (s.emitSync i n one own origin cf rate).val p = s.val p := by
  cases one
  · rw [State.emitSync_two, State.sendPtp_val, State.sendPtp_val]
    exact State.modInst_val h ..
  · rw [State.emitSync_one, State.sendPtp_val]
    exact State.modInst_val h ..

theorem State.sessOr_setPtp (s : State) (i : Fin 8) (m n : Fin 16) (id : BitVec 9) (x : PtpState) :
    (s.setPtp i m x).sessOr n id = s.sessOr n id :=
  State.sessOr_of_sessions rfl n id

/-- Its own time leaves in a Sync of a profile without relay. -/
theorem State.txSync_own {s : State} {i : Fin 8} {n : Fin 16} {id : BitVec 9} (one : Bool) (tb : Edge) (var : Nat)
    (hinst : s.instOn i n = true) (hmaster : s.inState i n .master = true) (hserves : (s.sessOr n id).srvSync = true)
    (hprofile : s.profile i ≠ 2) : s.txSync i n id one tb var
      = (s.setPtp i n .master).emitSync i n one (stampOf16 (s.frameStamp n true tb var))
        (ptpTime (stampOf16 (s.frameStamp n true tb var))) (((stampOf16 (s.frameStamp n true tb var)).sub.toNat : Nat) : Int) 0 := by
  have hgrant : ((s.setPtp i n .master).sessOr n id).serves .sync = true := by
    rw [State.sessOr_setPtp]
    exact hserves
  have hother : (s.setPtp i n .master).profile i ≠ 2 := by
    rwa [State.profile_setPtp]
  have hstep : (s.setPtp i n .master).stepMode i n one = (one, s.setPtp i n .master) := if_pos hother
  unfold State.txSync
  rw [if_neg (not_instOff hinst hmaster)]
  dsimp only
  rw [State.serves_granted hgrant]
  dsimp only
  rw [if_neg (by decide), hstep]
  dsimp only
  rw [if_neg hother, State.frameStamp_setPtp]

/-- The neighbour's oneStepReceive, which the steward keeps while it runs (R26, R239). -/
def State.stepKept (s : State) (n : Fin 16) (one : Bool) : State :=
  if s.boot.stewardUp then s.modPort n (fun p => { p with oneStepRx := one }) else s

theorem State.stepMode_relay {s : State} {i : Fin 8} (n : Fin 16) (one : Bool) (hprofile : s.profile i = 2) :
    s.stepMode i n one = (one && (s.boot.stewardUp || (s.ports[n]).oneStepRx), s.stepKept n one) := by
  rw [State.stepMode, if_neg (not_not_intro hprofile), State.stepKept]
  cases s.boot.stewardUp <;> simp

theorem State.stepKept_frameStamp (s : State) (n : Fin 16) (one tx : Bool) (e : Edge) (var : Nat) :
    (s.stepKept n one).frameStamp n tx e var = s.frameStamp n tx e var := by
  unfold State.stepKept
  split
  · exact State.frameStamp_modPort ..
  · rfl

theorem State.stepKept_portDatum (s : State) (n m : Fin 16) (one : Bool) : (s.stepKept n one).portDatum m = s.portDatum m := by
  unfold State.stepKept
  split
  · exact State.portDatum_congr (State.pcfg_congr rfl rfl (State.r_of_regs rfl ..))
  · rfl

theorem State.stepKept_mld {n m : Fin 16} (s : State) (one : Bool) (h : m ≠ n) :
    ((s.stepKept n one).ports[m]).mld = (s.ports[m]).mld := by
  unfold State.stepKept
  split
  · exact congrArg Port.mld (Vector.getElem_set_ne n.isLt m.isLt (fun hv => h (Fin.ext hv.symm)))
  · rfl

theorem State.stepKept_val {p : Part} (h : p ≠ .ports) (s : State) (n : Fin 16) (one : Bool) :
    (s.stepKept n one).val p = s.val p := by
  unfold State.stepKept
  split
  · exact State.modPort_val h ..
  · rfl

theorem State.stepKept_profile (s : State) (n : Fin 16) (one : Bool) (i : Fin 8) : (s.stepKept n one).profile i = s.profile i := by
  unfold State.stepKept
  split
  · exact State.profile_congr (State.r_of_regs rfl ..)
  · rfl

/-- A Sync relayed from another port leaves with the relay's origin, correction and rate, where the two have one datum clock. -/
theorem State.txSync_relayed {s : State} {i : Fin 8} {n : Fin 16} {id : BitVec 9} {r : Relay} (one : Bool) (tb : Edge) (var : Nat)
    (hinst : s.instOn i n = true) (hmaster : s.inState i n .master = true) (hserves : (s.sessOr n id).srvSync = true)
    (hprofile : s.profile i = 2) (hrelay : (s.insts[i]).relay = some r) (hport : r.port ≠ n) : s.txSync i n id one tb var
      = if s.portDatum r.port ≠ s.portDatum n then ((s.setPtp i n .master).stepKept n one).count .pte 0 0x0C 31 0
        else ((s.setPtp i n .master).stepKept n one).emitSync i n (one && (s.boot.stewardUp || (s.ports[n]).oneStepRx))
          (stampOf16 (s.frameStamp n true tb var)) r.origin
          (relayCf r (s.frameStamp n true tb var) ((s.ports[r.port]).mld.getD 0)) r.rho := by
  have hgrant : ((s.setPtp i n .master).sessOr n id).serves .sync = true := by
    rw [State.sessOr_setPtp]
    exact hserves
  have hstep := State.stepMode_relay (s := s.setPtp i n .master) (i := i) n one ((s.profile_setPtp ..).trans hprofile)
  have hkept : (((s.setPtp i n .master).stepKept n one).insts[i]).relay = some r := by
    have hinsts : ((s.setPtp i n .master).stepKept n one).insts = (s.setPtp i n .master).insts :=
      State.stepKept_val (p := .insts) (by decide) ..
    rw [hinsts, State.setPtp_inst]
    exact hrelay
  have htwo : ((s.setPtp i n .master).stepKept n one).profile i = 2 :=
    (State.stepKept_profile ..).trans ((s.profile_setPtp ..).trans hprofile)
  unfold State.txSync
  rw [if_neg (not_instOff hinst hmaster)]
  dsimp only
  rw [State.serves_granted hgrant]
  dsimp only
  rw [if_neg (by decide), hstep]
  dsimp only
  rw [if_pos htwo, hkept]
  dsimp only
  rw [if_neg hport, State.stepKept_frameStamp, State.frameStamp_setPtp, State.stepKept_portDatum, State.stepKept_portDatum,
    State.stepKept_mld _ _ hport]
  rfl

section
variable {s : State} {i : Fin 8} {n : Fin 16} {id : BitVec 9} (hup : s.coreUp = true) (hon : s.pteOn = true)
  (hclean : s.sessClean n id = true) (hinst : s.instOn i n = true)
include hup hon hclean hinst

theorem syncTx_own (one : Bool) (tb : Edge) (var : Nat) (hmaster : s.inState i n .master = true)
    (hserves : (s.sessOr n id).srvSync = true) (hprofile : s.profile i ≠ 2) : exec (.syncTx i n id one tb var) s
      = .next ((s.setPtp i n .master).emitSync i n one (stampOf16 (s.frameStamp n true tb var))
        (ptpTime (stampOf16 (s.frameStamp n true tb var))) (((stampOf16 (s.frameStamp n true tb var)).sub.toNat : Nat) : Int) 0) := by
  rw [sessMessage_sent (f := fun s => s.txSync i n id one tb var) hup hon hclean rfl,
    State.txSync_own one tb var hinst hmaster hserves hprofile]
  exact done_of_clock ((State.emitSync_val (by decide) ..).trans (State.setPtp_val (by decide) ..)) hup

end

end Sys2Proof.Machine

/-! SUPPORT. PROOFS. Syncs, delay requests and Announces that a port sends (R238, R239, R243 to R245, R247). -/

namespace Sys2Proof.Machine

theorem State.carrier_congr {s t : State} {i : Fin 8} (h : t.profile i = s.profile i) (peer : Bool) :
    t.carrier (some i) peer = s.carrier (some i) peer := by
  rw [State.carrier, State.carrier, h]

theorem State.sendPtp_delayReq (s : State) (n : Fin 16) (i : Option (Fin 8)) (seq : BitVec 16) :
    (s.sendPtp n i (.delayReq seq)).emitted = .ptp n (s.carrier i false) (.delayReq seq) :: s.emitted :=
  rfl

/-- The record of a session whose Delay_Req has left at `t`. -/
def Sess.asked (x : Sess) (t : Int) : Sess :=
  { x with reqSeq := x.reqSeq + 1, pendReq := some (x.reqSeq, t) }

/-- A command that sends completes with what holds of the elements emitted, of the instances and of the session. -/
theorem completes_sent {c : Instr} {s t u : State} {n : Fin 16} {id : BitVec 9} {A : List Emission → Prop}
    {B : Vector Inst 8 → Prop} {C : Sess → Prop} (hexec : exec c s = done s t) (ht : t = u) (hA : A u.emitted)
    (hB : B u.insts) (hC : C (u.sessOr n id)) :
    Completes c s (fun t => A t.emitted ∧ B t.insts ∧ C (t.sessOr n id)) := by
  subst ht
  exact completes_of_done hexec ⟨hA, hB, hC⟩

theorem State.setPtp_syncSeq (s : State) (i : Fin 8) (n : Fin 16) (x : PtpState) :
    ((s.setPtp i n x).insts[i]).syncSeq = (s.insts[i]).syncSeq :=
  (congrArg Inst.syncSeq (s.setPtp_inst i n x)).trans rfl

theorem State.stepKept_syncSeq (s : State) (n : Fin 16) (one : Bool) (i : Fin 8) :
    ((s.stepKept n one).insts[i]).syncSeq = (s.insts[i]).syncSeq := by
  rw [show (s.stepKept n one).insts = s.insts from State.stepKept_val (p := .insts) (by decide) ..]

theorem State.stepKept_clock (s : State) (i : Fin 8) (n : Fin 16) (one : Bool) :
    ((s.setPtp i n .master).stepKept n one).val .clock = s.val .clock :=
  (State.stepKept_val (by decide) ..).trans (State.setPtp_val (by decide) ..)

theorem State.txDelayReq_slave {s : State} {i : Fin 8} {n : Fin 16} (id : BitVec 9) (tb : Edge) (var : Nat)
    (hinst : s.instOn i n = true) (hprofile : s.profile i ∉ [2, 3, 5])
    (hslave : s.inState i n .slave = true) : s.txDelayReq i n id tb var
      = ((s.setPtp i n .slave).putSess ((s.sessOr n id).asked (s.frameStamp n true tb var))).sendPtp n (some i)
        (.delayReq (s.sessOr n id).reqSeq) := by
  have hother : ¬ [2, 3, 5].contains (s.profile i) = true := fun h => hprofile (List.contains_iff_mem.mp h)
  rw [State.txDelayReq, if_neg (by rw [hinst]; decide)]
  dsimp only
  rw [if_neg hother, if_neg (by rw [hslave]; decide), State.sessOr_setPtp]
  rfl

section
variable {s : State} {i : Fin 8} {n : Fin 16} {id : BitVec 9} (hup : s.coreUp = true) (hon : s.pteOn = true)
  (hclean : s.sessClean n id = true) (hinst : s.instOn i n = true)
include hup hon hclean hinst

section
variable (hmaster : s.inState i n .master = true) (hserves : (s.sessOr n id).srvSync = true)
include hmaster hserves

theorem syncTx_own_one (tb : Edge) (var : Nat) (hprofile : s.profile i ≠ 2) : exec (.syncTx i n id true tb var) s
    = .next (((s.setPtp i n .master).syncTaken i).sendPtp n (some i) (.sync (s.insts[i]).syncSeq true
      (ptpTime (stampOf16 (s.frameStamp n true tb var)))
      (((stampOf16 (s.frameStamp n true tb var)).sub.toNat : Nat) : Int) 0)) := by
  rw [syncTx_own hup hon hclean hinst true tb var hmaster hserves hprofile, State.emitSync_one, State.setPtp_syncSeq]

theorem syncTx_own_two (tb : Edge) (var : Nat) (hprofile : s.profile i ≠ 2) : exec (.syncTx i n id false tb var) s
    = .next ((((s.setPtp i n .master).syncTaken i).sendPtp n (some i)
        (.sync (s.insts[i]).syncSeq false stampZero 0 0)).sendPtp n (some i)
      (.followUp (s.insts[i]).syncSeq (ptpTime (stampOf16 (s.frameStamp n true tb var)))
        (((stampOf16 (s.frameStamp n true tb var)).sub.toNat : Nat) : Int) 0)) := by
  rw [syncTx_own hup hon hclean hinst false tb var hmaster hserves hprofile, State.emitSync_two, State.setPtp_syncSeq]

section
variable {r : Relay} (one : Bool) (tb : Edge) (var : Nat) (hprofile : s.profile i = 2)
  (hrelay : (s.insts[i]).relay = some r) (hport : r.port ≠ n)
include hprofile hrelay hport

/-- A relay into another datum clock is refused and counted. -/
theorem syncTx_relay_refused (hdatum : s.portDatum r.port ≠ s.portDatum n) : exec (.syncTx i n id one tb var) s
    = .next (((s.setPtp i n .master).stepKept n one).count .pte 0 0x0C 31 0) := by
  rw [sessMessage_sent (f := fun s => s.txSync i n id one tb var) hup hon hclean rfl,
    State.txSync_relayed one tb var hinst hmaster hserves hprofile hrelay hport, if_pos hdatum]
  exact done_of_clock (s.stepKept_clock i n one) hup

theorem syncTx_relay_sent (hdatum : s.portDatum r.port = s.portDatum n) : exec (.syncTx i n id one tb var) s
    = .next (if one && (s.boot.stewardUp || (s.ports[n]).oneStepRx) then
        (((s.setPtp i n .master).stepKept n one).syncTaken i).sendPtp n (some i) (.sync (s.insts[i]).syncSeq true
          (ptpTime (stampOf16 (s.frameStamp n true tb var)))
          (((stampOf16 (s.frameStamp n true tb var)).sub.toNat : Nat) : Int) r.rho)
      else ((((s.setPtp i n .master).stepKept n one).syncTaken i).sendPtp n (some i)
          (.sync (s.insts[i]).syncSeq false stampZero 0 0)).sendPtp n (some i) (.followUp (s.insts[i]).syncSeq r.origin
            (relayCf r (s.frameStamp n true tb var) ((s.ports[r.port]).mld.getD 0)) r.rho)) := by
  have hseq : (((s.setPtp i n .master).stepKept n one).insts[i]).syncSeq = (s.insts[i]).syncSeq :=
    (State.stepKept_syncSeq ..).trans (State.setPtp_syncSeq ..)
  rw [sessMessage_sent (f := fun s => s.txSync i n id one tb var) hup hon hclean rfl,
    State.txSync_relayed one tb var hinst hmaster hserves hprofile hrelay hport, if_neg (not_not_intro hdatum),
    done_of_clock ((State.emitSync_val (by decide) ..).trans (s.stepKept_clock i n one)) hup]
  split
  case isTrue hone => rw [hone, State.emitSync_one, hseq]
  case isFalse htwo => rw [Bool.eq_false_iff.mpr htwo, State.emitSync_two, hseq]

end

end

/-! ## Delay_Req and Pdelay_Req (R238, R239) -/

theorem delayReqTx_peer (tb : Edge) (var : Nat) (hprofile : s.profile i ∈ [2, 3, 5]) : exec (.delayReqTx i n id tb var) s
    = .next ((s.modPort n (fun p => { p with pdSeq := (s.ports[n]).pdSeq + 1, pdT1 := some (s.frameStamp n true tb var) })).sendPtp
      n (some i) (.pdelayReq ((s.ports[n]).pdSeq + 1))) := by
  have hpeer : [2, 3, 5].contains (s.profile i) = true := List.contains_iff_mem.mpr hprofile
  rw [sessMessage_sent (f := fun s => s.txDelayReq i n id tb var) hup hon hclean rfl, State.txDelayReq,
    if_neg (by rw [hinst]; decide)]
  dsimp only
  rw [if_pos hpeer]
  exact done_of_clock ((State.sendPtp_val ..).trans (State.modPort_val (by decide) ..)) hup

theorem delayReqTx_slave (tb : Edge) (var : Nat) (hprofile : s.profile i ∉ [2, 3, 5])
    (hslave : s.inState i n .slave = true) : Completes (.delayReqTx i n id tb var) s (fun t =>
      t.emitted = .ptp n (s.carrier (some i) false) (.delayReq (s.sessOr n id).reqSeq) :: s.emitted
        ∧ (t.insts[i]).states[n] = .slave ∧ t.sessOr n id = (s.sessOr n id).asked (s.frameStamp n true tb var)) := by
  obtain ⟨hport, hid⟩ := s.sessOr_own n id
  have hsent := State.txDelayReq_slave id tb var hinst hprofile hslave
  have hexec := sessMessage_sent (c := .delayReqTx i n id tb var) (f := fun s => s.txDelayReq i n id tb var) hup hon hclean rfl
  refine completes_sent (A := fun es => es = _) (B := fun v => (v[i]).states[n] = .slave) (C := fun x => x = _) hexec hsent
    ?_ ?_ ?_
  · rw [State.sendPtp_delayReq, State.carrier_congr (s := s) (State.profile_congr (State.r_of_regs rfl ..))]
    rfl
  · exact s.setPtp_states i n .slave
  · exact State.sessOr_putSess (x := (s.sessOr n id).asked (s.frameStamp n true tb var)) hport hid

end

/-! ## The Announce (R26, R245, R247) -/

theorem State.r_eq_of_regs {s t : State} (h : t.regs = s.regs) : t.r = s.r := by
  funext b i o
  exact State.r_of_regs h b i o

theorem State.benchTlv_congr {s t : State} (h : t.regs = s.regs) : t.benchTlv = s.benchTlv := by
  simp only [State.benchTlv, State.benchDigest, State.wide, State.r_eq_of_regs h]

/-- The benchmark TLV of an Announce. -/
def State.advert (s : State) : Option (List Byte) :=
  if s.rb .pte 0 0 31 then some s.benchTlv else none

theorem State.advert_congr {s t : State} (h : t.regs = s.regs) : t.advert = s.advert := by
  rw [State.advert, State.advert, State.rb, State.rb, State.r_eq_of_regs h, State.benchTlv_congr h]

theorem State.quality_congr {s t : State} (hregs : t.regs = s.regs) (hdatums : t.datums = s.datums) (hloops : t.loops = s.loops)
    (i : Fin 8) (cls : Byte) : t.quality i cls = s.quality i cls := by
  simp only [State.quality, State.rf, State.r_eq_of_regs hregs, hdatums, hloops]

/-- The datum clock of one of the instances. -/
def State.instDatum (s : State) (i : Fin 8) : Fin 8 :=
  finMod 8 (s.rf .pte 0 (0x200 + 0x20 * i.val) 27 25)

/-- Without a loop on their datum clock, instances announce the free-run quality. -/
theorem State.quality_unassigned {s : State} {i : Fin 8} (cls : Byte) (h : (s.datums[s.instDatum i]).assigned = none) :
    s.quality i cls = (byte (s.rf .pte 0 (0x100 + 0x10 * i.val) 7 0), false, false) := by
  have hdatum : (s.datums[(finMod 8 (s.rf .pte 0 (0x200 + 0x20 * i.val) 27 25) : Fin 8)]).assigned = none := h
  unfold State.quality
  dsimp only
  rw [hdatum]
  rfl

/-- With a loop in HOLDOVER on their datum clock, instances announce the holdover quality. -/
theorem State.quality_holdover {s : State} {i : Fin 8} {m : Fin 16} (cls : Byte)
    (h : (s.datums[s.instDatum i]).assigned = some m) (hcode : (s.loops[m]).code = .holdover) : s.quality i cls
      = (byte (s.rf .pte 0 (0x100 + 0x10 * i.val) 23 16), (s.datums[s.instDatum i]).traceable, true) := by
  have hdatum : (s.datums[(finMod 8 (s.rf .pte 0 (0x200 + 0x20 * i.val) 27 25) : Fin 8)]).assigned = some m := h
  unfold State.quality
  dsimp only
  rw [hdatum]
  dsimp only [Option.map, Option.getD]
  rw [hcode]
  rfl

/-- The Announce that leaves with the datasets `data`. -/
def State.announce (s : State) (i : Fin 8) (data : PtpData) : TxMsg :=
  .announce (s.insts[i]).annSeq (s.quality i data.cls).1 (s.quality i data.cls).2.1 (s.quality i data.cls).2.2 data s.advert

theorem State.announce_congr {s t : State} {i : Fin 8} (data : PtpData) (hregs : t.regs = s.regs) (hdatums : t.datums = s.datums)
    (hloops : t.loops = s.loops) (hseq : (t.insts[i]).annSeq = (s.insts[i]).annSeq) :
    t.announce i data = s.announce i data := by
  rw [State.announce, State.announce, State.quality_congr hregs hdatums hloops, State.advert_congr hregs, hseq]

/-- The state in which an Announce leaves, its sequence number taken. -/
def State.annTaken (s : State) (i : Fin 8) : State :=
  s.modInst i (fun q => { q with annSeq := q.annSeq + 1 })

theorem State.sendPtp_announce (s : State) (n : Fin 16) (i j : Fin 8) (v : State) (data : PtpData) :
    (s.sendPtp n (some i) (v.announce j data)).emitted = .ptp n (s.carrier (some i) false) (v.announce j data) :: s.emitted :=
  rfl

/-- The state after the steward has written the datasets `data`. -/
def State.dataWritten (s : State) (i : Fin 8) (data : PtpData) : State :=
  { s with freeCtr := s.freeCtr + 3 }.modInst i (fun q => { q with data := data })

theorem State.datasets_steward {s : State} (i : Fin 8) (h : s.boot.stewardUp = true) :
    ∃ data, s.datasets i = (data, s.dataWritten i data) := by
  rw [State.datasets, if_pos h]
  exact ⟨_, rfl⟩

theorem State.datasets_idle {s : State} (i : Fin 8) (h : s.boot.stewardUp = false) :
    s.datasets i = ((s.insts[i]).data, s) := by
  rw [State.datasets, if_neg (by rw [h]; decide)]

/-- What an Announce of port n in `insts[i]` leaves. -/
def AnnounceSent (s : State) (i : Fin 8) (n : Fin 16) (sent : List Emission) (insts : Vector Inst 8) : Prop :=
  (insts[i]).annSeq = (s.insts[i]).annSeq + 1 ∧ (insts[i]).syncSeq = (s.insts[i]).syncSeq
    ∧ (insts[i]).states[n] = .master
    ∧ ∃ data, sent = .ptp n (s.carrier (some i) false) (s.announce i data) :: s.emitted
      ∧ (s.boot.stewardUp = false → data = (s.insts[i]).data) ∧ (insts[i]).data = data

/-- An Announce from a state with the registers, clocks and loops of `s`, the port master and the datasets `data` kept. -/
theorem State.annTaken_sent {s v : State} {i : Fin 8} {n : Fin 16} {data : PtpData} (hregs : v.regs = s.regs)
    (hdatums : v.datums = s.datums) (hloops : v.loops = s.loops) (hemitted : v.emitted = s.emitted)
    (hinst : v.insts[i] = { s.insts[i] with states := (s.insts[i]).states.set n .master, data := data })
    (hdata : s.boot.stewardUp = false → data = (s.insts[i]).data) :
    AnnounceSent s i n ((v.annTaken i).sendPtp n (some i) (v.announce i data)).emitted
      ((v.annTaken i).sendPtp n (some i) (v.announce i data)).insts := by
  have htaken : ((v.annTaken i).sendPtp n (some i) (v.announce i data)).insts[i]
      = { v.insts[i] with annSeq := (v.insts[i]).annSeq + 1 } := Vector.getElem_set_self _
  have hcarrier : (v.annTaken i).carrier (some i) false = s.carrier (some i) false :=
    State.carrier_congr (State.profile_congr (State.r_of_regs hregs ..)) false
  have hmsg : v.announce i data = s.announce i data :=
    State.announce_congr data hregs hdatums hloops ((congrArg Inst.annSeq hinst).trans rfl)
  refine ⟨?_, ?_, ?_, data, ?_, hdata, ?_⟩
  · rw [htaken, hinst]
  · rw [htaken, hinst]
  · rw [htaken, hinst]
    exact Vector.getElem_set_self _
  · rw [State.sendPtp_announce, hcarrier, hmsg, ← hemitted]
    rfl
  · rw [htaken, hinst]

theorem State.txAnnounce_granted {s : State} {i : Fin 8} {n : Fin 16} {id : BitVec 9} (hinst : s.instOn i n = true)
    (hmaster : s.inState i n .master = true) (hserves : (s.sessOr n id).srvAnnounce = true) : s.txAnnounce i n id
      = (((s.setPtp i n .master).datasets i).2.annTaken i).sendPtp n (some i)
        (((s.setPtp i n .master).datasets i).2.announce i ((s.setPtp i n .master).datasets i).1) := by
  have hgrant : ((s.setPtp i n .master).sessOr n id).serves .announce = true := by
    rw [State.sessOr_setPtp]
    exact hserves
  unfold State.txAnnounce
  rw [if_neg (not_instOff hinst hmaster)]
  dsimp only
  rw [State.serves_granted hgrant]
  dsimp only
  rw [if_neg (by decide)]
  rfl

theorem State.txAnnounce_sent {s : State} {i : Fin 8} {n : Fin 16} {id : BitVec 9} (hinst : s.instOn i n = true)
    (hmaster : s.inState i n .master = true) (hserves : (s.sessOr n id).srvAnnounce = true) :
    AnnounceSent s i n (s.txAnnounce i n id).emitted (s.txAnnounce i n id).insts := by
  rw [State.txAnnounce_granted hinst hmaster hserves]
  cases hst : s.boot.stewardUp with
  | false =>
    rw [State.datasets_idle (s := s.setPtp i n .master) i hst]
    have hdata : ((s.setPtp i n .master).insts[i]).data = (s.insts[i]).data :=
      (congrArg Inst.data (s.setPtp_inst i n .master)).trans rfl
    rw [hdata]
    exact State.annTaken_sent rfl rfl rfl rfl (s.setPtp_inst i n .master) (fun _ => rfl)
  | true =>
    obtain ⟨data, hdata⟩ := State.datasets_steward (s := s.setPtp i n .master) i hst
    rw [hdata]
    refine State.annTaken_sent rfl rfl rfl rfl ?_ (fun h => absurd (hst.symm.trans h) (by decide))
    exact (Vector.getElem_set_self _).trans (congrArg (fun q : Inst => { q with data := data }) (s.setPtp_inst i n .master))

theorem announceTx_sent {s : State} {i : Fin 8} {n : Fin 16} {id : BitVec 9} (hup : s.coreUp = true) (hon : s.pteOn = true)
    (hclean : s.sessClean n id = true) (hinst : s.instOn i n = true) (hmaster : s.inState i n .master = true)
    (hserves : (s.sessOr n id).srvAnnounce = true) :
    Completes (.announceTx i n id) s (fun t => AnnounceSent s i n t.emitted t.insts) := by
  have hexec := sessMessage_sent (c := .announceTx i n id) (f := fun s => s.txAnnounce i n id) hup hon hclean rfl
  exact completes_of_done hexec (State.txAnnounce_sent hinst hmaster hserves)

end Sys2Proof.Machine

/-! PROOFS. PTP messages received and sent (O22). -/

namespace Sys2Proof.Machine

/-- What an Announce leaves, with the quality of the moment spelled out. -/
theorem announceTx_completes {s : State} {i : Fin 8} {n : Fin 16} {id : BitVec 9} (hup : s.coreUp = true) (hon : s.pteOn = true)
    (hclean : s.sessClean n id = true) (hinst : s.instOn i n = true) (hmaster : s.inState i n .master = true)
    (hserves : (s.sessOr n id).srvAnnounce = true) : Completes (.announceTx i n id) s (fun t =>
      (t.insts[i]).annSeq = (s.insts[i]).annSeq + 1 ∧ (t.insts[i]).syncSeq = (s.insts[i]).syncSeq
        ∧ (t.insts[i]).states[n] = .master
        ∧ ∃ cls tt ft data, t.emitted = .ptp n (s.carrier (some i) false) (.announce (s.insts[i]).annSeq cls tt ft data
            (if s.rb .pte 0 0 31 then some s.benchTlv else none)) :: s.emitted
          ∧ (s.boot.stewardUp = false → data = (s.insts[i]).data) ∧ (t.insts[i]).data = data
          ∧ ((s.datums[s.instDatum i]).assigned = none →
            cls = byte (s.rf .pte 0 (0x100 + 0x10 * i.val) 7 0) ∧ tt = false ∧ ft = false)
          ∧ (∀ m, (s.datums[s.instDatum i]).assigned = some m → (s.loops[m]).code = .holdover →
            cls = byte (s.rf .pte 0 (0x100 + 0x10 * i.val) 23 16) ∧ tt = (s.datums[s.instDatum i]).traceable
              ∧ ft = true)) := by
  obtain ⟨t, hexec, hann, hsync, hstate, data, hsent, hidle, hdata⟩ := announceTx_sent hup hon hclean hinst hmaster hserves
  refine ⟨t, hexec, hann, hsync, hstate, _, _, _, data, hsent, hidle, hdata, fun hnone => ?_, fun m hsome hcode => ?_⟩
  · rw [State.quality_unassigned _ hnone]
    exact ⟨rfl, rfl, rfl⟩
  · rw [State.quality_holdover _ hsome hcode]
    exact ⟨rfl, rfl, rfl⟩

/-- Settles O22: each message received is taken in a session whose entry is clean, and each message sent leaves one state. -/
theorem ptpMessages : Obligations.PtpMessages := by
  unfold Obligations.PtpMessages
  refine ⟨⟨?discarded, ?sync, ?followUp, ?delayReq, ?delayResp, ?pdelayReq, ?pdelayResp, ?announce⟩,
    ?own, ?relayed, ?asked, ?announced⟩
  case discarded =>
    intro s n id seq ptp two t1 t2 t3 rate tl tb tx var tv cls bench hup hon hlink hauth
    exact messages_discarded (fl := ⟨two, ptp⟩) (rx := ⟨tb, var⟩) (tx := ⟨tx, tv⟩) hup hon hlink hauth
  case sync =>
    intro s n id seq ptp t1 rate tl tb var hup hon hlink hauth hclean
    exact ⟨syncRx_two hup hon hlink hauth hclean seq ptp t1 rate tb var,
      syncRx_one hup hon hlink hauth hclean seq ptp t1 rate tb var⟩
  case followUp =>
    intro s n id seq t1 rate tl t2 cf1 ptp q hup hon hlink hauth hclean hpend
    refine ⟨fun hq => ?_, followUpRx_other hup hon hlink hauth hclean t1 rate hpend⟩
    subst hq
    exact followUpRx_match hup hon hlink hauth hclean t1 rate hpend
  case delayReq =>
    intro s n id seq tl tb var hup hon hlink hauth hclean
    exact ⟨fun i hi => ⟨delayReqRx_served hup hon hlink hauth hclean seq tb var hi,
      delayReqRx_lapsed hup hon hlink hauth hclean seq tb var hi,
      delayReqRx_renewable hup hon hlink hauth hclean seq tb var hi⟩,
      delayReqRx_unanswered hup hon hlink hauth hclean seq tb var⟩
  case delayResp =>
    intro s n id seq t4 tl t3 hup hon hlink hauth hclean hpend
    exact delayRespRx_completes hup hon hlink hauth hclean t4 hpend
  case pdelayReq =>
    intro s n seq tl tb tx var tv hup hon hlink hauth
    exact pdelayReqRx_answered hup hon hlink hauth seq ⟨tb, var⟩ ⟨tx, tv⟩
  case pdelayResp =>
    intro s n seq t2 t3 tl tb var t1 hup hon hlink hauth hreq hseq hcf
    subst hseq
    exact pdelayRespRx_measures hup hon hlink hauth t2 t3 tb var hreq hcf
  case announce =>
    intro s n id cls bench tl hup hon hlink hauth hclean
    exact announceRx_completes cls bench hup hon hlink hauth hclean
  case own =>
    intro s i n id tb var hup hon hclean hinst hmaster hserves hprofile
    exact ⟨syncTx_own_one hup hon hclean hinst hmaster hserves tb var hprofile,
      syncTx_own_two hup hon hclean hinst hmaster hserves tb var hprofile⟩
  case relayed =>
    intro s i n id one tb var r hup hon hclean hinst hmaster hserves hprofile hrelay hport
    exact ⟨syncTx_relay_refused hup hon hclean hinst hmaster hserves one tb var hprofile hrelay hport,
      syncTx_relay_sent hup hon hclean hinst hmaster hserves one tb var hprofile hrelay hport⟩
  case asked =>
    intro s i n id tb var hup hon hclean hinst
    exact ⟨delayReqTx_peer hup hon hclean hinst tb var, delayReqTx_slave hup hon hclean hinst tb var⟩
  case announced =>
    intro s i n id hup hon hclean hinst hmaster hserves
    exact announceTx_completes hup hon hclean hinst hmaster hserves

end Sys2Proof.Machine

/-! SUPPORT. PROOFS. The survey edge that ends a narrow pulse (R171), and O12. -/

namespace Sys2Proof.Machine

/-! ## A pulse too narrow for the comparator -/

/-- An edge of a group in service, with the core running, is the edge of its channel. -/
theorem exec_surveyEdge {s : State} {ch : Fin 192} (fall : Bool) (code : BitVec 12) (hup : s.coreUp = true)
    (hon : s.groupOn (grpOf ch) = true) : exec (.surveyEdge ch fall code) s = done s (s.survEdge ch fall code) := by
  change doneCore s _ = _
  rw [doneCore_up _ _ hup, if_pos hon]

/-- An edge that comes less than 0.8 ns after the other one is no firing of the comparator: the channel's level moves, and
nothing else does (R171). -/
theorem State.survEdge_narrow {s : State} {ch : Fin 192} {fall : Bool} {code : BitVec 12} (hrun : s.ticking = true)
    (hnarrow : (s.chans[ch]).narrow (ovenInstant (s.tick + 2) (s.fraction ch (s.coreAt ch) code.toNat).1) fall = true) :
    s.survEdge ch fall code = s.modChan ch (fun c => { c with level := !fall, lastEdge := none }) := by
  unfold State.survEdge
  simp only [hrun, hnarrow, Bool.and_self, Bool.true_or, if_true]
  split <;> rfl

/-- An edge is too near the last one, of the other polarity, where less than 0.8 ns lie between them. -/
theorem Chan.narrow_of_lastEdge {c : Chan} {i p : Int} {fall : Bool} (hlast : c.lastEdge = some (p, !fall))
    (hnear : i - p < 20 * 2 ^ 32) : c.narrow i fall = true := by
  rw [Chan.narrow, hlast]
  simpa using hnear

theorem Chan.dead_of_lastFire_none {c : Chan} (h : c.lastFire = none) (i : Int) : c.dead i = false := by
  rw [Chan.dead, h]

/-! ## The counterexample -/

/-- Channel 0 of a running device in STAMP mode with EDGE 0b01, falling edges only, after a rising edge at an instant. -/
def highSince (p : Int) : State :=
  { State.reset with
    ticking := true
    domOn := Vector.replicate 108 true
    regs := [(key .survey 0 (chOff 0 0), 0x10400000)]
    chans := State.reset.chans.set 0 { Chan.reset with level := true, lastEdge := some (p, false) } }

/-- The instant of a falling edge with code 0 in the first tick. -/
def fallInstant : Int :=
  ovenInstant 2 ((highSince 0).fraction 0 ((highSince 0).coreAt 0) (0 : BitVec 12).toNat).1

/-- A falling edge less than 0.8 ns after the rising one ends a pulse too narrow for the comparator. -/
theorem survEdge_highSince {p : Int} (hnear : fallInstant - p < 20 * 2 ^ 32) : (highSince p).survEdge 0 true 0
    = (highSince p).modChan 0 (fun c => { c with level := false, lastEdge := none }) := by
  have hfraction : (highSince p).fraction 0 ((highSince p).coreAt 0) (0 : BitVec 12).toNat
      = (highSince 0).fraction 0 ((highSince 0).coreAt 0) (0 : BitVec 12).toNat := rfl
  refine State.survEdge_narrow rfl ?_
  rw [hfraction]
  exact Chan.narrow_of_lastEdge rfl hnear

/-- The channel takes falling edges, its group is in service, and its core, which has never fired, is not dead. -/
theorem highSince_takes (p : Int) : (highSince p).groupOn (grpOf 0) = true ∧ (highSince p).cfgNow 0 = some 0x10400000
    ∧ (highSince p).coreless 0 = false ∧ ∀ i, ((highSince p).chans[(0 : Fin 192)]).dead i = false :=
  ⟨rfl, rfl, rfl, Chan.dead_of_lastFire_none rfl⟩

/-- Refutes O12: its clause on an edge asks for a stamp wherever the channel's core is not dead. The falling edge of a
pulse of 0.64 ns does not reach the comparator (R171, log 147) and leaves no stamp, although the core is not dead: the
rising edge was not a selected one and fired nothing. -/
theorem not_stampPath : ¬ Obligations.StampPath := by
  unfold Obligations.StampPath
  rintro ⟨hedge, -⟩
  obtain ⟨p, hp⟩ : ∃ p, p = fallInstant - 16 * 2 ^ 32 := ⟨_, rfl⟩
  have hnear : fallInstant - p < 20 * 2 ^ 32 := by
    rw [hp, sub_sub_cancel]
    norm_num
  obtain ⟨hon, hcfg, hcore, hlive⟩ := highSince_takes p
  obtain ⟨hstamped, -⟩ := hedge (highSince p) 0 true 0 0x10400000 rfl rfl hon hcfg (by decide +kernel) (by decide +kernel)
    hcore
  obtain ⟨t, ht, -, -, hfifo⟩ := hstamped (hlive _) (Nat.zero_lt_succ 31)
  rw [exec_surveyEdge true 0 rfl hon, survEdge_highSince hnear] at ht
  obtain rfl := Host.Outcome.next.inj ht
  have hlength : 0 = 1 := congrArg List.length hfifo
  omega

end Sys2Proof.Machine

/-! SUPPORT. PROOFS. The statistics units: their registers, samples, windows and commits (R49, R50, R183 to R187, R377,
R378), and O14. -/

namespace Sys2Proof.Machine

/-! ## Counts and commands -/

/-- A field from bit 0 is what its mask leaves. -/
theorem bitsOf_low (w : Word) {hi : Nat} (hhi : hi < 32) : bitsOf w hi 0 = (w &&& fld (2 ^ (hi + 1) - 1) 0).toNat := by
  have hlt : 2 ^ (hi + 1) - 1 < 2 ^ 32 :=
    lt_of_lt_of_le (Nat.sub_lt (Nat.two_pow_pos _) Nat.one_pos) (Nat.pow_le_pow_right Nat.two_pos hhi)
  rw [BitVec.toNat_and, fld, Nat.pow_zero, Nat.mul_one, BitVec.toNat_ofNat, Nat.mod_eq_of_lt hlt,
    Nat.and_two_pow_sub_one_eq_mod, bitsOf, Nat.pow_zero, Nat.div_one, Nat.sub_zero]

/-- A saturating count held from bit 0 of a register reads one more, or its top. -/
theorem State.rf_count_low (s : State) (b : Block) (i o n : Nat) {hi : Nat} (hhi : hi < 32) :
    (s.count b i o hi 0 n).rf b i o hi 0 = satAdd (hi + 1) (s.rf b i o hi 0) n := by
  generalize hsum : satAdd (hi + 1) (s.rf b i o hi 0) n = v
  have hv : v < 2 ^ (hi + 1) :=
    hsum ▸ lt_of_le_of_lt (Nat.min_le_right ..) (Nat.sub_lt (Nat.two_pow_pos _) Nat.one_pos)
  have hstored : (s.count b i o hi 0 n).r b i o = mix (fld (2 ^ (hi + 1) - 1) 0) (s.r b i o) (fld v 0) := by
    refine (State.setReg_same ..).trans ?_
    rw [Nat.sub_zero, hsum, Nat.mod_eq_of_lt hv]
  have hword : v < 2 ^ 32 := lt_of_lt_of_le hv (Nat.pow_le_pow_right Nat.two_pos hhi)
  rw [State.rf, hstored, bitsOf_low _ hhi, mix_and_mask, ← bitsOf_low _ hhi, bitsOf, Nat.pow_zero, Nat.div_one,
    Nat.sub_zero, fld, Nat.pow_zero, Nat.mul_one, BitVec.toNat_ofNat, Nat.mod_eq_of_lt hword, Nat.mod_eq_of_lt hv]

/-- A command that does nothing ends in the state it began in, where the tick indices agree. -/
theorem done_self {s : State} (h : s.tickInv) : done s s = .next s := by
  obtain ⟨hisl, hheld⟩ := h
  cases hup : s.coreUp
  · obtain ⟨hticking, htick⟩ := hheld hup
    have hislands : s.islandTick = Vector.replicate 16 0 := Vector.ext fun i hi => by
      simpa [htick] using hisl ⟨i, hi⟩
    rw [done_eq]
    obtain ⟨⟩ := s
    simp_all
  · exact done_eq_next rfl rfl rfl rfl hup

/-- A command of the statistics island in service is its effect. -/
theorem doneStat_up {s : State} (f : State → State) (hup : s.coreUp = true) (hblk : s.blkUp 0x51 = true) :
    doneStat s f = done s (f s) := by
  rw [doneStat, doneCore_up _ _ hup, if_pos hblk]

/-- The island isolated or retired does nothing (R377, R378). -/
theorem doneStat_down {s : State} (f : State → State) (hinv : s.tickInv) (hblk : s.blkUp 0x51 = false) :
    doneStat s f = .next s := by
  have hstill : (if s.blkUp 0x51 then f s else s) = s := if_neg (by rw [hblk]; decide)
  rw [doneStat, doneCore, hstill, ite_self, done_self hinv]

section
variable {s : State} (u : Fin 32) (hup : s.coreUp = true) (hblk : s.blkUp 0x51 = true)
include hup hblk

theorem exec_statsSample_up : exec (.statsSample u) s = done s (s.takeSample u) :=
  doneStat_up (fun s => s.takeSample u) hup hblk

theorem exec_statsWindowClose_up : exec (.statsWindowClose u) s = done s (s.closeTime u) :=
  doneStat_up (fun s => s.closeTime u) hup hblk

theorem exec_statsCommit_up : exec (.statsCommit u) s = done s (s.commitStats u) :=
  doneStat_up (fun s => s.commitStats u) hup hblk

end

theorem exec_stats_down {s : State} (u : Fin 32) (hinv : s.tickInv) (hblk : s.blkUp 0x51 = false) :
    exec (.statsSample u) s = .next s ∧ exec (.statsWindowClose u) s = .next s ∧ exec (.statsCommit u) s = .next s :=
  ⟨doneStat_down (fun s => s.takeSample u) hinv hblk, doneStat_down (fun s => s.closeTime u) hinv hblk,
    doneStat_down (fun s => s.commitStats u) hinv hblk⟩

/-! ## Units -/

theorem State.modUnit_same (s : State) (u : Fin 32) (f : StatUnit → StatUnit) :
    (s.modUnit u f).units[u] = f s.units[u] :=
  Vector.getElem_set_self _

theorem State.modUnit_modUnit (s : State) (u : Fin 32) (f g : StatUnit → StatUnit) :
    (s.modUnit u f).modUnit u g = s.modUnit u (fun q => g (f q)) := by
  simp [State.modUnit]

/-- A command that changes one unit, and nothing else. -/
theorem done_modUnit {s : State} (u : Fin 32) (f : StatUnit → StatUnit) (hup : s.coreUp = true) :
    done s (s.modUnit u f) = .next (s.modUnit u f) :=
  done_eq_next rfl rfl rfl rfl hup

/-! ## Samples (R49, R50, R184, R185) -/

/-- The samples that close a COUNT window: WIN_N, where 0 stands for 2^32 (R185). -/
def State.winLimit (s : State) (u : Fin 32) : Nat :=
  if s.r .stats u.val 4 = 0 then 2 ^ 32 else (s.r .stats u.val 4).toNat

/-- The unit's next sample closes its window. -/
def State.sampleCloses (s : State) (u : Fin 32) : Bool :=
  decide (s.winMode u = 0 ∧ (s.units[u]).acc.n + 1 ≥ s.winLimit u)

/-- The accumulators of a unit after a sample: a full unit takes none. -/
def State.accWith (s : State) (u : Fin 32) (q : Smp) : Acc :=
  let a := (s.units[u]).acc
  if 2 ^ 32 ≤ a.n then { a with full := true }
  else { a.add q with full := a.full || (decide (2 ^ 32 ≤ a.n + 1) && !s.sampleCloses u) }

/-- The unit once the sample has entered the accumulators. -/
def State.sampled (s : State) (u : Fin 32) (q : Smp) (rest : List Smp) : State :=
  s.modUnit u (fun x => { x with inq := rest, acc := s.accWith u q })

/-- The same with the sample of a full unit counted in OVER. -/
def State.sampledOver (s : State) (u : Fin 32) (q : Smp) (rest : List Smp) : State :=
  if 2 ^ 32 ≤ (s.units[u]).acc.n then (s.sampled u q rest).count .stats u.val 0x1C 31 0 else s.sampled u q rest

/-- The same with the notice of a unit that has become full or saturated. -/
def State.sampledNote (s : State) (u : Fin 32) (q : Smp) (rest : List Smp) : State :=
  let a := (s.units[u]).acc
  let b := s.accWith u q
  if (b.full && !a.full) || (b.sat && !a.sat) then
    (s.sampledOver u q rest).raise (0x0400 + u.val) clsC 0x24 (args8 [byte (b.flags false false)])
  else s.sampledOver u q rest

/-- A sample at an enabled unit enters the accumulators, is counted in OVER at a full unit, raises its notice, and then
may close the window. -/
theorem State.takeSample_eq {s : State} {u : Fin 32} {q : Smp} {rest : List Smp} (hin : (s.units[u]).inq = q :: rest)
    (hen : s.rb .stats u.val 0 31 = true) :
    s.takeSample u = if s.sampleCloses u = true ∧ (s.units[u]).acc.n < 2 ^ 32 then
      (s.sampledNote u q rest).closeWindow u false else s.sampledNote u q rest := by
  have hen' : ∀ f, (s.modUnit u f).rb .stats u.val 0 31 ≠ false := fun f => by
    have hsame : (s.modUnit u f).rb .stats u.val 0 31 = s.rb .stats u.val 0 31 := rfl
    rw [hsame, hen]
    decide
  unfold State.takeSample
  split
  case h_1 hnone => exact absurd (hin.symm.trans hnone) (List.cons_ne_nil _ _)
  next _ q' rest' hin' =>
    obtain ⟨rfl, rfl⟩ := List.cons.inj (hin.symm.trans hin')
    extract_lets t a full lim closes c b taken counted noted
    have hunit : t.units[u] = { s.units[u] with inq := rest } := State.modUnit_same ..
    have ha : a = (s.units[u]).acc := (congrArg StatUnit.acc hunit :)
    have hcloses : closes = s.sampleCloses u := by
      rw [State.sampleCloses, ← ha]
      rfl
    have hb : b = s.accWith u q := by
      rw [State.accWith, ← hcloses, ← ha]
      exact ite_congr decide_eq_true_eq (fun _ => rfl) (fun _ => rfl)
    have htaken : taken = s.sampled u q rest := by
      rw [State.sampled, ← hb]
      exact State.modUnit_modUnit ..
    have hcounted : counted = s.sampledOver u q rest := by
      rw [State.sampledOver, ← htaken, ← ha]
      exact ite_congr decide_eq_true_eq (fun _ => rfl) (fun _ => rfl)
    have hnoted : noted = s.sampledNote u q rest := by
      rw [State.sampledNote, ← hb, ← hcounted, ← ha]
    rw [if_neg (hen' _), hnoted, hcloses, ← ha]
    simp [full]

/-- Counting and notice leave every part as the sample left it. -/
theorem State.sampledNote_val {p : Part} (s : State) (u : Fin 32) (q : Smp) (rest : List Smp) :
    (s.sampledNote u q rest).val p = (s.sampled u q rest).val p := by
  simp [State.sampledNote, State.sampledOver, State.val_ite]

theorem State.sampledNote_unit (s : State) (u : Fin 32) (q : Smp) (rest : List Smp) :
    (s.sampledNote u q rest).units[u] = { s.units[u] with inq := rest, acc := s.accWith u q } := by
  have hunits : (s.sampledNote u q rest).units = (s.sampled u q rest).units := State.sampledNote_val (p := .units) s u q rest
  rw [hunits]
  exact State.modUnit_same ..

theorem State.sampledNote_tick (s : State) (u : Fin 32) (q : Smp) (rest : List Smp) :
    (s.sampledNote u q rest).tick = s.tick := by
  obtain ⟨-, -, -, htick, -⟩ := State.clock_of_val (State.sampledNote_val s u q rest)
  exact htick

theorem over_not_notice : ∀ u : Fin 32, key .stats u.val 0x1C ∉ noticeKeys := by
  decide

/-- A full unit counts the sample that it does not take (R185). -/
theorem State.sampledNote_over {s : State} {u : Fin 32} (hfull : 2 ^ 32 ≤ (s.units[u]).acc.n) (q : Smp) (rest : List Smp) :
    (s.sampledNote u q rest).rf .stats u.val 0x1C 31 0 = satAdd 32 (s.rf .stats u.val 0x1C 31 0) 1 := by
  have hcounted : s.sampledOver u q rest = (s.sampled u q rest).count .stats u.val 0x1C 31 0 := if_pos hfull
  have hnotice : (s.sampledNote u q rest).r .stats u.val 0x1C = (s.sampledOver u q rest).r .stats u.val 0x1C := by
    simp only [State.sampledNote]
    split
    · exact State.reg_raise (over_not_notice u) ..
    · rfl
  rw [State.rf, hnotice, hcounted]
  exact State.rf_count_low _ _ _ _ _ (by decide)

/-- The accumulators of a unit that is not full take the sample (R49, R50). -/
theorem State.accWith_of_lt {s : State} {u : Fin 32} (h : (s.units[u]).acc.n < 2 ^ 32) (q : Smp) :
    s.accWith u q = { (s.units[u]).acc.add q with
      full := (s.units[u]).acc.full || (decide (2 ^ 32 ≤ (s.units[u]).acc.n + 1) && !s.sampleCloses u) } :=
  if_neg (Nat.not_le.mpr h)

theorem State.accWith_of_full {s : State} {u : Fin 32} (h : 2 ^ 32 ≤ (s.units[u]).acc.n) (q : Smp) :
    s.accWith u q = { (s.units[u]).acc with full := true } :=
  if_pos h

theorem State.winLimit_le (s : State) (u : Fin 32) : s.winLimit u ≤ 2 ^ 32 := by
  unfold State.winLimit
  split
  · exact le_rfl
  · exact (s.r .stats u.val 4).isLt.le

/-! ## Windows (R185, R186) -/

theorem State.closeWindow_unit (s : State) (u : Fin 32) (cmd : Bool) : (s.closeWindow u cmd).units[u] =
    { s.units[u] with acc := Acc.reset, stage := (s.units[u]).stage ++ [((s.units[u]).acc, s.tick, cmd, false)] } :=
  State.modUnit_same ..

section
variable {s : State} {u : Fin 32} {q : Smp} {rest : List Smp} (hup : s.coreUp = true) (hblk : s.blkUp 0x51 = true)
  (hen : s.rb .stats u.val 0 31 = true) (hin : (s.units[u]).inq = q :: rest)
include hup hblk hen hin

/-- A sample inside a window. -/
theorem completes_statsSample_inside
    (hopen : s.winMode u ≠ 0 ∨ (s.units[u]).acc.n + 1 < s.winLimit u) (hlt : (s.units[u]).acc.n < 2 ^ 32) :
    Completes (.statsSample u) s (fun t => (t.units[u]).inq = rest ∧ (t.units[u]).acc.n = (s.units[u]).acc.n + 1
      ∧ (t.units[u]).acc.s1 = (s.units[u]).acc.s1 + satS 56 q.x
      ∧ (t.units[u]).acc.s2 = (s.units[u]).acc.s2 + (satS 56 q.x * satS 56 q.x).toNat
      ∧ (t.units[u]).stage = (s.units[u]).stage
      ∧ ((s.units[u]).acc.n + 1 = 2 ^ 32 → (t.units[u]).acc.full = true)) := by
  have hcloses : s.sampleCloses u = false := by
    rw [State.sampleCloses, decide_eq_false_iff_not]
    rintro ⟨hmode, hlim⟩
    exact hopen.elim (absurd hmode) (fun h => absurd h (Nat.not_lt.mpr hlim))
  have heq : s.takeSample u = s.sampledNote u q rest := by
    rw [State.takeSample_eq hin hen, hcloses]
    exact if_neg (by simp)
  have hunit := s.sampledNote_unit u q rest
  rw [State.accWith_of_lt hlt, hcloses] at hunit
  refine completes_of_done (exec_statsSample_up u hup hblk) ?_
  dsimp only
  rw [heq, hunit]
  exact ⟨rfl, rfl, rfl, rfl, rfl, fun h => by
    simp only [decide_eq_true h.ge, Bool.not_false, Bool.and_self, Bool.or_true]⟩

/-- The sample that completes a COUNT window. -/
theorem completes_statsSample_last (hmode : s.winMode u = 0) (hlast : (s.units[u]).acc.n + 1 = s.winLimit u) :
    Completes (.statsSample u) s (fun t => (t.units[u]).inq = rest ∧ (t.units[u]).acc = Acc.reset
      ∧ ∃ a : Acc, (t.units[u]).stage = (s.units[u]).stage ++ [(a, s.tick, false, false)] ∧ a.n = (s.units[u]).acc.n + 1
        ∧ a.s1 = (s.units[u]).acc.s1 + satS 56 q.x ∧ a.full = (s.units[u]).acc.full) := by
  have hlt : (s.units[u]).acc.n < 2 ^ 32 := lt_of_lt_of_le (Nat.lt_of_succ_le hlast.le) (s.winLimit_le u)
  have hcloses : s.sampleCloses u = true := decide_eq_true ⟨hmode, hlast.ge⟩
  have heq : s.takeSample u = (s.sampledNote u q rest).closeWindow u false := by
    rw [State.takeSample_eq hin hen]
    exact if_pos ⟨hcloses, hlt⟩
  have hacc := State.accWith_of_lt hlt q
  rw [hcloses] at hacc
  refine completes_of_done (exec_statsSample_up u hup hblk) ?_
  dsimp only
  rw [heq, State.closeWindow_unit, s.sampledNote_unit, s.sampledNote_tick, hacc]
  exact ⟨rfl, rfl, _, rfl, rfl, rfl, by simp⟩

/-- A sample at a full unit. -/
theorem completes_statsSample_full (hfull : 2 ^ 32 ≤ (s.units[u]).acc.n) :
    Completes (.statsSample u) s (fun t => (t.units[u]).inq = rest
      ∧ (t.units[u]).acc = { (s.units[u]).acc with full := true } ∧ (t.units[u]).stage = (s.units[u]).stage
      ∧ t.rf .stats u.val 0x1C 31 0 = satAdd 32 (s.rf .stats u.val 0x1C 31 0) 1) := by
  have heq : s.takeSample u = s.sampledNote u q rest := by
    rw [State.takeSample_eq hin hen]
    exact if_neg fun ⟨_, hlt⟩ => absurd hlt (Nat.not_lt.mpr hfull)
  have hunit := s.sampledNote_unit u q rest
  rw [State.accWith_of_full hfull] at hunit
  have hover := State.sampledNote_over hfull q rest
  rw [← heq] at hover
  refine completes_of_done (exec_statsSample_up u hup hblk) ?_
  dsimp only
  rw [heq, hunit]
  exact ⟨rfl, rfl, rfl, heq ▸ hover⟩

end

/-- A TIME window closes at its boundary. -/
theorem exec_statsWindowClose {s : State} {u : Fin 32} (hup : s.coreUp = true) (hblk : s.blkUp 0x51 = true)
    (hen : s.rb .stats u.val 0 31 = true) (hmode : s.winMode u = 1) (htick : s.tick ≠ 0)
    (hbound : s.tick.toNat % (Nat.max 1 (s.r .stats u.val 8).toNat * msTicks) = 0) (hnew : (s.units[u]).timeAt ≠ s.tick) :
    exec (.statsWindowClose u) s = .next (s.modUnit u (fun q =>
      { q with acc := Acc.reset, stage := q.stage ++ [(q.acc, s.tick, false, false)], timeAt := s.tick })) := by
  have hcloses : s.closeTime u = s.modUnit u (fun q =>
      { q with acc := Acc.reset, stage := q.stage ++ [(q.acc, s.tick, false, false)], timeAt := s.tick }) :=
    (if_pos ⟨hen, hmode, htick, hbound, hnew⟩).trans (State.modUnit_modUnit ..)
  exact (exec_statsWindowClose_up u hup hblk).trans ((congrArg (done s) hcloses).trans (done_modUnit u _ hup))

/-! ## Commits (R186, R187) -/

/-- RFLAGS holds DEFER in bit 5 and FULL in bit 3. -/
theorem Acc.flags_bits (a : Acc) (cmd defer : Bool) :
    (byte (a.flags cmd defer)).getLsbD 5 = defer ∧ (byte (a.flags cmd defer)).getLsbD 3 = a.full := by
  have hbits : ∀ c d g f w s e : Bool,
      (byte (b2n c * 64 + b2n d * 32 + b2n g * 16 + b2n f * 8 + b2n w * 4 + b2n s * 2 + b2n e)).getLsbD 5 = d
      ∧ (byte (b2n c * 64 + b2n d * 32 + b2n g * 16 + b2n f * 8 + b2n w * 4 + b2n s * 2 + b2n e)).getLsbD 3 = f := by
    decide
  exact hbits ..

/-- A snapshot in progress makes the write wait and sets DEFER. -/
theorem exec_statsCommit_deferred {s : State} {u : Fin 32} {a : Acc} {k : DWord} {cmd defer : Bool}
    {rest : List (Acc × DWord × Bool × Bool)} (hup : s.coreUp = true) (hblk : s.blkUp 0x51 = true)
    (hstage : (s.units[u]).stage = (a, k, cmd, defer) :: rest) (hbusy : s.snapBusy = true) :
    exec (.statsCommit u) s = .next (s.modUnit u (fun q => { q with stage := (a, k, cmd, true) :: rest })) := by
  have hwaits : s.commitStats u = s.modUnit u (fun q => { q with stage := (a, k, cmd, true) :: rest }) := by
    simp only [State.commitStats, hstage, hbusy, if_true]
  exact (exec_statsCommit_up u hup hblk).trans ((congrArg (done s) hwaits).trans (done_modUnit u _ hup))

/-- What the result stage commits to a unit. -/
def StatUnit.committed (x : StatUnit) (a : Acc) (k : DWord) (cmd defer : Bool) (rest : List (Acc × DWord × Bool × Bool)) :
    StatUnit :=
  { x with
    stage := rest
    res := a
    mean := if a.n = 0 then 0 else satS 64 (roundDiv (a.s1 * 2 ^ 8) a.n)
    dev := if a.n = 0 then 0 else
      Nat.min (2 ^ 64 - 1) (roundSqrt (((a.n : Int) * a.s2 - a.s1 * a.s1).toNat * 2 ^ 16) a.n)
    rflags := byte (a.flags cmd defer)
    seq := x.seq + 1
    closeTick := k }

/-- The history entry and the engines' events leave the units as committed. -/
theorem State.commitStats_unit {s : State} {u : Fin 32} {a : Acc} {k : DWord} {cmd defer : Bool}
    {rest : List (Acc × DWord × Bool × Bool)} (hstage : (s.units[u]).stage = (a, k, cmd, defer) :: rest)
    (hfree : s.snapBusy = false) : (s.commitStats u).units[u] = (s.units[u]).committed a k cmd defer rest := by
  have hunits : (s.commitStats u).val .units
      = (s.modUnit u (fun x => x.committed a k cmd defer rest)).val .units := by
    simp only [State.commitStats, hstage, hfree, Bool.false_eq_true, if_false]
    rw [State.val_overFin fun e s => State.modEng_val (by decide) .., State.val_ite, State.wr_val, State.memWrite_val,
      ite_self]
    rfl
  have hunits : (s.commitStats u).units = (s.modUnit u (fun x => x.committed a k cmd defer rest)).units := hunits
  rw [hunits]
  exact State.modUnit_same ..

theorem completes_statsCommit {s : State} {u : Fin 32} {a : Acc} {k : DWord} {cmd defer : Bool}
    {rest : List (Acc × DWord × Bool × Bool)} (hup : s.coreUp = true) (hblk : s.blkUp 0x51 = true)
    (hstage : (s.units[u]).stage = (a, k, cmd, defer) :: rest) (hfree : s.snapBusy = false) :
    Completes (.statsCommit u) s (fun t => (t.units[u]).stage = rest ∧ (t.units[u]).res = a ∧ (t.units[u]).closeTick = k
      ∧ (t.units[u]).seq = (s.units[u]).seq + 1 ∧ (t.units[u]).rflags.getLsbD 5 = defer
      ∧ (t.units[u]).rflags.getLsbD 3 = a.full
      ∧ (a.n ≠ 0 → (t.units[u]).mean = satS 64 (roundDiv (a.s1 * 2 ^ 8) a.n))) := by
  obtain ⟨hdefer, hfull⟩ := a.flags_bits cmd defer
  refine completes_of_done (exec_statsCommit_up u hup hblk) ?_
  dsimp only
  rw [State.commitStats_unit hstage hfree]
  exact ⟨rfl, rfl, rfl, rfl, hdefer, hfull, fun hn => if_neg hn⟩

/-! ## Registers (R183, R326) -/

/-- CFG, WIN_N, WIN_MS and CMD are unguarded registers of one word, of whose bits each path writes some or, in CMD, gives
CLOSE. -/
theorem statsWord_place : ∀ u : Fin 32, ∀ o ∈ [0x00, 0x04, 0x08, 0x0C],
    placeOf (key .stats u.val o) = some ⟨.stats, u.val, o⟩ ∧ (⟨.stats, u.val, o⟩ : Place).listed = true
      ∧ (⟨.stats, u.val, o⟩ : Place).guard = 0 ∧ (⟨.stats, u.val, o⟩ : Place).reg.cmdk = 0
      ∧ (⟨.stats, u.val, o⟩ : Place).wideAt = none
      ∧ ∀ k, (⟨.stats, u.val, o⟩ : Place).commands k = (if o = 0x0C then 0x80000000 else 0)
        ∧ ((⟨.stats, u.val, o⟩ : Place).writable k ≠ 0 ∨ (⟨.stats, u.val, o⟩ : Place).commands k ≠ 0) := by
  decide

/-- A write of such a register is the unit's own effect. -/
theorem regAccess_statsWord {s : State} {p : Path} {u : Fin 32} {o : Nat} (v : Word) (ho : o ∈ [0x00, 0x04, 0x08, 0x0C])
    (hr : s.reaches p .stats u.val o = true) :
    ∃ w : Wr, w.pl = ⟨.stats, u.val, o⟩ ∧ w.cmd = v &&& (if o = 0x0C then 0x80000000 else 0)
      ∧ regAccess s p .stats u.val o v = done s (s.writeStats w) := by
  simp only [State.reaches, Bool.and_eq_true, Bool.not_eq_true'] at hr
  obtain ⟨⟨hc, he⟩, hd⟩ := hr
  obtain ⟨hplace, hlisted, hguard, hcmdk, hwide, hbits⟩ := statsWord_place u o ho
  have htrips : (⟨.stats, u.val, o⟩ : Place).trips 0xFFFFFFFF v = false := by simp [Place.trips, hguard, hcmdk]
  refine ⟨_, rfl, ?_, (regAccess_eq v hc he hplace rfl).trans
    (congrArg (done s) (State.placeWrite_eq_writeAt hlisted hd (.inr htrips) hwide (hbits _).2))⟩
  rw [(hbits _).1]

/-- A word of STATS.NOM that a served path writes goes to its holding or commits. -/
theorem regAccess_statsNom {s : State} {p : Path} {u : Fin 32} {o : Nat} (v : Word) (ho : o ∈ [0x10, 0x14])
    (hr : s.reaches p .stats u.val o = true) :
    regAccess s p .stats u.val o v = done s (s.wideWrite p ⟨.stats, u.val, o⟩ 2 ((o - 0x10) / 4) v) := by
  simp only [State.reaches, Bool.and_eq_true, Bool.not_eq_true'] at hr
  obtain ⟨⟨hc, he⟩, hd⟩ := hr
  obtain ⟨hlow, -⟩ := statsNom_place u o ho
  have hkey : ∀ u : Fin 32, ∀ o ∈ [0x10, 0x14], (BitVec.ofNat 32 (key .stats u.val o)).toNat = key .stats u.val o := by
    decide
  rw [hkey u o ho] at hlow
  have hbus : s.regWrite p .stats u.val o v = s.busWrite p (key .stats u.val o) v := (if_pos hlow).symm
  rw [regAccess, access_of_carries _ _ hc, hbus, ← hkey u o ho, State.busWrite_statsNom v ho he hd]

/-- The highest word of NOM commits both and drops the window (R183, R326). -/
theorem State.wideWrite_statsNom (s : State) (p : Path) (u : Fin 32) (v : Word) :
    s.wideWrite p ⟨.stats, u.val, 0x10⟩ 2 0 v = ((s.wr .stats u.val 0x10 v).wr .stats u.val 0x14
      ((mapGet (s.path p).writeHold (key .stats u.val 0x14)).getD 0)).dropWindow u := by
  have hcommit : s.wideWrite p ⟨.stats, u.val, 0x10⟩ 2 0 v = (s.setWide .stats u.val 0x10 2
      (ofWords [v, (mapGet (s.path p).writeHold (key .stats u.val 0x14)).getD 0])).dropWindow (finMod 32 u.val) := rfl
  rw [hcommit, State.setWide_two, finMod_val]

/-- A write of CFG or WIN stores its word and drops the window (R183). -/
theorem State.writeStats_drops {s : State} {w : Wr} {u : Fin 32} {o : Nat} (hpl : w.pl = ⟨.stats, u.val, o⟩)
    (ho : o ∈ [0x00, 0x04, 0x08]) : s.writeStats w = (s.store w).dropWindow u := by
  have hne : o ≠ 0x0C := by
    rintro rfl
    exact absurd ho (by decide)
  simp only [State.writeStats, hpl, finMod_val]

/-- A write that drops the window (R183) has left DISCARDS as it was. -/
theorem regAccess_drops {s : State} {p : Path} {u : Fin 32} {r : StatsReg} (v : Word) (hnom : r ≠ .nomLo)
    (hr : s.reaches p .stats u.val (statsOff r) = true) :
    ∃ t : State, t.r .stats u.val 0x18 = s.r .stats u.val 0x18
      ∧ regAccess s p .stats u.val (statsOff r) v = done s (t.dropWindow u) := by
  have hkeys : ∀ u : Fin 32, ∀ o ∈ [0x00, 0x04, 0x08, 0x10, 0x14], key .stats u.val 0x18 ≠ key .stats u.val o := by decide
  have hword : ∀ o ∈ [0x00, 0x04, 0x08], s.reaches p .stats u.val o = true →
      ∃ t : State, t.r .stats u.val 0x18 = s.r .stats u.val 0x18 ∧ regAccess s p .stats u.val o v = done s (t.dropWindow u) := by
    intro o ho hr
    obtain ⟨w, hpl, -, hrun⟩ := regAccess_statsWord v (List.mem_append_left [0x0C] ho) hr
    refine ⟨s.store w, ?_, hrun.trans (congrArg (done s) (State.writeStats_drops hpl ho))⟩
    rw [State.store, hpl]
    exact State.reg_wr_other (hkeys u o (List.mem_append_left [0x10, 0x14] ho))
  cases r with
  | cfg => exact hword _ (by decide) hr
  | winN => exact hword _ (by decide) hr
  | winMs => exact hword _ (by decide) hr
  | nomHi =>
    refine ⟨_, ?_, (regAccess_statsNom v (by decide) hr).trans (congrArg (done s) (s.wideWrite_statsNom p u v))⟩
    exact (State.reg_wr_other (hkeys u 0x14 (by decide))).trans (State.reg_wr_other (hkeys u 0x10 (by decide)))
  | nomLo => exact absurd rfl hnom

/-- With the window go the samples on their way to it; DISCARDS counts it once. -/
theorem State.dropWindow_spec (s : State) (u : Fin 32) :
    (s.dropWindow u).units[u] = { s.units[u] with acc := Acc.reset, inq := [] }
      ∧ (s.dropWindow u).rf .stats u.val 0x18 15 0 = satAdd 16 (s.rf .stats u.val 0x18 15 0) 1 :=
  ⟨s.modUnit_same u (fun q => { q with acc := Acc.reset, inq := [] }), State.rf_count_low _ _ _ _ _ (by decide)⟩

theorem completes_statsCfgWrite {s : State} {p : Path} {u : Fin 32} {r : StatsReg} (v : Word) (hnom : r ≠ .nomLo)
    (hr : s.reaches p .stats u.val (statsOff r) = true) :
    Completes (.statsCfgWrite p u r v) s (fun t => (t.units[u]).acc = Acc.reset ∧ (t.units[u]).inq = []
      ∧ t.rf .stats u.val 0x18 15 0 = satAdd 16 (s.rf .stats u.val 0x18 15 0) 1) := by
  obtain ⟨t, hkept, hrun⟩ := regAccess_drops v hnom hr
  obtain ⟨hunit, hcount⟩ := t.dropWindow_spec u
  have hold : t.rf .stats u.val 0x18 15 0 = s.rf .stats u.val 0x18 15 0 := by rw [State.rf, State.rf, hkept]
  rw [hold] at hcount
  refine completes_of_done hrun ?_
  dsimp only
  rw [hunit]
  exact ⟨rfl, rfl, hcount⟩

/-- The lower word of NOM waits in the path's holding (R326). -/
theorem completes_statsCfgWrite_nomLo {s : State} {p : Path} {u : Fin 32} (v : Word)
    (hr : s.reaches p .stats u.val 0x14 = true) :
    Completes (.statsCfgWrite p u .nomLo v) s (fun t =>
      ((mapGet (t.path p).writeHold (key .stats u.val 0x14)).getD 0) = v ∧ t.units = s.units) := by
  have hheld : s.wideWrite p ⟨.stats, u.val, 0x14⟩ 2 1 v
      = s.modPath p (fun q => { q with writeHold := mapSet q.writeHold (key .stats u.val 0x14) v 0 }) := rfl
  have hword : (mapGet ((s.modPath p (fun q =>
      { q with writeHold := mapSet q.writeHold (key .stats u.val 0x14) v 0 })).path p).writeHold
        (key .stats u.val 0x14)).getD 0 = v := by
    rw [State.path_modPath]
    exact mapGet_mapSet_same ..
  exact completes_of_done ((regAccess_statsNom v (by decide) hr).trans (congrArg (done s) hheld)) ⟨hword, rfl⟩

/-- CMD.CLOSE closes the window of an enabled unit (R185). -/
theorem exec_close {s : State} {p : Path} {u : Fin 32} (hr : s.reaches p .stats u.val 0x0C = true)
    (hen : s.rb .stats u.val 0 31 = true) :
    exec (.close p u) s = .next (s.modUnit u (fun q =>
      { q with acc := Acc.reset, stage := q.stage ++ [(q.acc, s.tick, true, false)] })) := by
  obtain ⟨w, hpl, hcmd, hrun⟩ := regAccess_statsWord 0x80000000 (by decide) hr
  have hcloses : s.writeStats w = s.closeWindow u true := by
    have hgiven : w.cmd ≠ 0 := by
      rw [hcmd]
      decide
    simp only [State.writeStats, hpl, finMod_val]
    exact if_pos ⟨hgiven, hen⟩
  have hup : s.coreUp = true := by
    simp only [State.reaches, Bool.and_eq_true] at hr
    obtain ⟨⟨hc, -⟩, -⟩ := hr
    exact State.coreUp_of_carries hc
  exact hrun.trans ((congrArg (done s) hcloses).trans (done_modUnit u _ hup))

/-! ## The statement -/

/-- Settles O14: a sample by whether the unit is full and whether it completes the window, a register by the words that drop
the window, NOM's holding and CMD, a commit by whether a snapshot holds the path. -/
theorem statistics : Obligations.Statistics := by
  unfold Obligations.Statistics
  refine ⟨?inside, ?closing, fun s p u r v hnom hr => completes_statsCfgWrite v hnom hr,
    fun s p u v hr => completes_statsCfgWrite_nomLo v hr, fun s p u hr hen => exec_close hr hen, ?time, ?commit,
    fun s u hinv hblk => exec_stats_down u hinv hblk⟩
  case inside =>
    intro s u q rest hup hblk hen hopen hin hlt
    exact completes_statsSample_inside hup hblk hen hin hopen hlt
  case closing =>
    intro s u q rest hup hblk hen hin
    exact ⟨completes_statsSample_last hup hblk hen hin, completes_statsSample_full hup hblk hen hin⟩
  case time =>
    intro s u hup hblk hen hmode htick hbound hnew
    exact exec_statsWindowClose hup hblk hen hmode htick hbound hnew
  case commit =>
    intro s u a k cmd defer rest hup hblk hstage
    exact ⟨exec_statsCommit_deferred hup hblk hstage, completes_statsCommit hup hblk hstage⟩

end Sys2Proof.Machine

/-! SUPPORT. PROOFS. What a slot keeps through the evaluation of its qualification and through its alarms (R63 to R68, R75,
R84). -/

namespace Sys2Proof.Machine

/-! ## A slot besides its qualification -/

theorem State.modSlot_same (s : State) (i : Fin 96) (f : Slot → Slot) : (s.modSlot i f).slots[i] = f s.slots[i] :=
  Vector.getElem_set_self _

theorem State.modSlot_other (s : State) {i j : Fin 96} (f : Slot → Slot) (h : i ≠ j) :
    (s.modSlot i f).slots[j] = s.slots[j] :=
  Vector.getElem_set_ne i.isLt j.isLt (Fin.val_ne_of_ne h)

theorem State.modSlot_modSlot (s : State) (i : Fin 96) (f g : Slot → Slot) :
    (s.modSlot i f).modSlot i g = s.modSlot i (fun y => g (f y)) := by
  simp [State.modSlot]

/-- A slot with its qualification put aside: QSTATE, CAUSE and the timer of WAIT (R72, R74, R77). -/
def Slot.readings (y : Slot) : Slot :=
  { y with qstate := .off, cause := 0, everQual := false, wtrAt := none }

/-- The same of one slot among the slots. -/
def readingsAt (v : Vector Slot 96) (i : Fin 96) : Slot := (v[i]).readings

@[simp] abbrev State.readings (s : State) (i : Fin 96) : Slot := readingsAt (s.val .slots) i

theorem State.readings_eq (s : State) (i : Fin 96) : s.readings i = (s.slots[i]).readings := rfl

theorem State.readings_ite (c : Prop) [Decidable c] (a b : State) (i : Fin 96) :
    (if c then a else b).readings i = if c then a.readings i else b.readings i :=
  apply_ite (fun s => s.readings i) c a b

theorem State.readings_of_val {s t : State} (h : s.val .slots = t.val .slots) (i : Fin 96) : s.readings i = t.readings i :=
  congrArg (fun v => readingsAt v i) h

/-- A field besides the qualification, from the readings. -/
theorem State.field_of_readings {α : Type} (g : Slot → α) (hg : ∀ y, g y.readings = g y) {s : State} {i : Fin 96} {y : Slot}
    (h : s.readings i = y.readings) : g (s.slots[i]) = g y := by
  rw [← hg, ← hg y, ← h, State.readings_eq]

/-- A change of a slot's qualification alone. -/
@[simp] theorem State.modSlot_readings {f : Slot → Slot} (hf : ∀ y, (f y).readings = y.readings) (s : State) (j i : Fin 96) :
    (s.modSlot j f).readings i = s.readings i := by
  rw [State.readings_eq, State.readings_eq]
  by_cases h : j = i
  · subst h
    rw [State.modSlot_same, hf]
  · rw [State.modSlot_other s f h]

@[simp] theorem State.setQ_readings (s : State) (src : Fin 96) (q : QState) (cause : Nat) (i : Fin 96) :
    (s.setQ src q cause).readings i = s.readings i := by
  unfold State.setQ
  lift_lets
  extract_lets old o u v wtr x now w
  have hu : u.readings i = s.readings i := by
    refine State.modSlot_readings ?_ s src i
    exact fun _ => rfl
  have hv : v.readings i = s.readings i := by
    simp only [v, State.readings_ite]
    split
    · exact (State.readings_of_val (State.settleOff_val (by decide) u src) i).trans hu
    · exact hu
  have hw : w.readings i = s.readings i := by
    simp only [w]
    cases q
    all_goals
      refine (State.modSlot_readings ?_ v src i).trans hv
      exact fun _ => rfl
  have hsame : (s.modSlot src (fun x => { x with cause := BitVec.ofNat 4 cause })).readings i = s.readings i := by
    refine State.modSlot_readings ?_ s src i
    exact fun _ => rfl
  rw [State.readings_ite, hsame]
  simp [hw]

@[simp] theorem State.evalQ1_readings (s : State) (src i : Fin 96) : (s.evalQ1 src).readings i = s.readings i := by
  have hcause : ∀ c : BitVec 4, (s.modSlot src (fun y => { y with cause := c })).readings i = s.readings i := by
    intro c
    refine State.modSlot_readings ?_ s src i
    exact fun _ => rfl
  unfold State.evalQ1
  extract_lets x
  cases x.qstate
  · rfl
  · cases s.hardAlarm src <;> simp [State.readings_ite, hcause]
  · cases s.hardAlarm src <;> cases x.wtrAt <;> simp [State.readings_ite]
  · cases s.hardAlarm src <;> simp [State.readings_ite]
  · rfl

@[simp] theorem State.evalQ_readings (s : State) (src i : Fin 96) : (s.evalQ src).readings i = s.readings i := by
  simp [State.evalQ]

/-! ## Alarms (R63 to R66) -/

/-- A slot under the alarm levels `a` (R65, R66, R68). -/
def Slot.alarmed (y : Slot) (a : Alarms) : Slot :=
  let risen := (a.act && !y.act) || (a.los && !y.los)
  let b : Alarms := { a with freq := a.freq || risen, act := a.act || a.los }
  let fell := (y.act && !b.act) || (y.los && !b.los)
  let z := { y with los := b.los, act := b.act, freq := b.freq, phase := b.phase }
  let z := if risen then { z.dropGates with goodActs := 0 } else z
  if fell then z.dropPhase else z

/-- Putting alarm levels does that to the slot, and evaluates its qualification. -/
theorem State.setAlarms_readings (s : State) (src : Fin 96) (a : Alarms) :
    (s.setAlarms src a).readings src = ((s.slots[src]).alarmed a).readings := by
  unfold State.setAlarms
  lift_lets
  extract_lets x risen b fell u u0 u1 u2 u3 v
  have hu : u.slots[src] = (s.slots[src]).alarmed a := State.modSlot_same ..
  have hv : v.val .slots = u.val .slots := by simp [v, u3, u2, u1, u0, State.val_ite]
  rw [State.evalQ_readings, State.readings_of_val hv, State.readings_eq, hu]

/-- What alarms leave of a slot whatever they are. -/
theorem Slot.alarmed_levels (y : Slot) (a : Alarms) :
    (y.alarmed a).los = a.los ∧ (y.alarmed a).act = (a.act || a.los) ∧ (y.alarmed a).phase = a.phase
      ∧ (a.freq = true → (y.alarmed a).freq = true) := by
  unfold Slot.alarmed
  extract_lets risen b fell z g z'
  have hz : z'.los = a.los ∧ z'.act = (a.act || a.los) ∧ z'.phase = a.phase ∧ z'.freq = (a.freq || risen) := by
    simp only [z']
    split <;> exact ⟨rfl, rfl, rfl, rfl⟩
  obtain ⟨hlos, hact, hphase, hfreq⟩ := hz
  split
  · exact ⟨hlos, hact, hphase, fun h => by rw [show z'.dropPhase.freq = z'.freq from rfl, hfreq, h, Bool.true_or]⟩
  · exact ⟨hlos, hact, hphase, fun h => by rw [hfreq, h, Bool.true_or]⟩

/-- The fields of a slot that alarms never move. -/
theorem Slot.alarmed_last (y : Slot) (a : Alarms) :
    (y.alarmed a).last = y.last ∧ (y.alarmed a).losCause = y.losCause ∧ (y.alarmed a).inbox = y.inbox := by
  unfold Slot.alarmed
  extract_lets risen b fell z g z'
  have hz : z'.last = y.last ∧ z'.losCause = y.losCause ∧ z'.inbox = y.inbox := by
    simp only [z']
    split <;> exact ⟨rfl, rfl, rfl⟩
  split
  · exact hz
  · exact hz

/-- With ACT and LOS as they stand, FREQ and PHASE are put and no monitor is emptied. -/
theorem Slot.alarmed_of_standing (y : Slot) (f p : Bool) :
    y.alarmed ⟨y.los, y.act, f, p⟩ = { y with act := y.act || y.los, freq := f, phase := p } := by
  have hfell : ((y.act && !(y.act || y.los)) || (y.los && !y.los)) = false := by
    cases y.act <;> cases y.los <;> rfl
  have hrisen : ((y.act && !y.act) || (y.los && !y.los)) = false := by
    cases y.act <;> cases y.los <;> rfl
  simp only [Slot.alarmed, hrisen, hfell, Bool.or_false, Bool.false_eq_true, if_false]

theorem State.setAlarms_standing (s : State) (src : Fin 96) (f p : Bool) :
    (s.setAlarms src ⟨(s.slots[src]).los, (s.slots[src]).act, f, p⟩).readings src
      = Slot.readings { s.slots[src] with act := (s.slots[src]).act || (s.slots[src]).los, freq := f, phase := p } := by
  rw [State.setAlarms_readings, Slot.alarmed_of_standing]

/-- The levels that a slot shows once alarms have been put. -/
theorem State.setAlarms_levels (s : State) (src : Fin 96) (a : Alarms) :
    ((s.setAlarms src a).slots[src]).los = a.los ∧ ((s.setAlarms src a).slots[src]).act = (a.act || a.los)
      ∧ ((s.setAlarms src a).slots[src]).phase = a.phase
      ∧ (a.freq = true → ((s.setAlarms src a).slots[src]).freq = true) := by
  have hput := s.setAlarms_readings src a
  obtain ⟨hlos, hact, hphase, hfreq⟩ := (s.slots[src]).alarmed_levels a
  exact ⟨(State.field_of_readings Slot.los (fun _ => rfl) hput).trans hlos,
    (State.field_of_readings Slot.act (fun _ => rfl) hput).trans hact,
    (State.field_of_readings Slot.phase (fun _ => rfl) hput).trans hphase,
    fun h => (State.field_of_readings Slot.freq (fun _ => rfl) hput).trans (hfreq h)⟩

/-- A loss found at a source that is not OFF and shows none. -/
theorem State.setLos_of {s : State} {src : Fin 96} (hoff : (s.slots[src]).qstate ≠ .off) (hlos : (s.slots[src]).los = false) :
    s.setLos src = s.setAlarms src ⟨true, true, true, (s.slots[src]).phase⟩ := by
  rw [State.setLos, if_neg]
  rintro (h | h)
  · exact hoff h
  · exact ne_true_of_eq_false hlos h

/-- A loss leaves the cause of LOS and what waits for the monitor. -/
theorem State.setLos_keeps (s : State) (src : Fin 96) :
    ((s.setLos src).slots[src]).losCause = (s.slots[src]).losCause ∧ ((s.setLos src).slots[src]).inbox = (s.slots[src]).inbox := by
  unfold State.setLos
  extract_lets y
  split
  · exact ⟨rfl, rfl⟩
  · have hput := s.setAlarms_readings src ⟨true, true, true, y.phase⟩
    obtain ⟨-, hcause, hinbox⟩ := (s.slots[src]).alarmed_last ⟨true, true, true, y.phase⟩
    exact ⟨(State.field_of_readings Slot.losCause (fun _ => rfl) hput).trans hcause,
      (State.field_of_readings Slot.inbox (fun _ => rfl) hput).trans hinbox⟩

end Sys2Proof.Machine

/-! SUPPORT. PROOFS. Edges and events at the monitor slots, their alarms (R56 to R68, R73), and O4. -/

namespace Sys2Proof.Machine

variable {p : Part}

/-! ## What the monitors leave -/

@[simp] theorem State.settleDrop_val (h : p ≠ .oven) (s : State) (src : Fin 96) : (s.settleDrop src).val p = s.val p := by
  simp [State.settleDrop, State.val_ite, h]

@[simp] theorem State.bookConfig_val (h : p ≠ .book) (s : State) (d : Fin 8) (item index new old : Nat) :
    (s.bookConfig d item index new old).val p = s.val p := by
  simp [State.bookConfig, h]

@[simp] theorem State.settleEvent_val (h : p ≠ .oven) (s : State) (src : Fin 96) (t x : Int) :
    (s.settleEvent src t x).val p = s.val p := by
  simp [State.settleEvent, State.val_ite, h]

@[simp] theorem State.loopEvent_val (h : p ≠ .loops) (s : State) (src : Fin 96) (k : DWord) (d : BitVec 14)
    (x : Option (Int × Bool)) (dc : Int) (unw : Bool) : (s.loopEvent src k d x dc unw).val p = s.val p := by
  unfold State.loopEvent
  split
  · rfl
  · exact State.withLoops_val h ..

/-- A watermark moves its own state in the slot alone (R84). -/
theorem State.watermark_slot (s : State) (src : Fin 96) (i value level : Nat) : ∃ f p : Bool,
    (s.watermark src i value level).slots[src] = { s.slots[src] with fwmState := f, pwmState := p } := by
  unfold State.watermark
  extract_lets x old new u v w
  have hu : ∃ f p : Bool, u.slots[src] = { s.slots[src] with fwmState := f, pwmState := p } := by
    by_cases hi : i = 0
    · exact ⟨new, (s.slots[src]).pwmState, (State.modSlot_same ..).trans (if_pos hi)⟩
    · exact ⟨(s.slots[src]).fwmState, new, (State.modSlot_same ..).trans (if_neg hi)⟩
  split
  · have hraise : ∀ id cls code args, (w.raise id cls code args).slots = u.slots := fun id cls code args =>
      State.slots_of_val (by simp [w, v])
    simpa only [hraise] using hu
  · exact hu

/-! ## DELAY_COMP takes effect (R62) -/

/-- A slot once DELAY_COMP `c` has taken effect. -/
def Slot.compensated (y : Slot) (c : Int) : Slot :=
  { y.dropGates.dropPhase with dc := c, dcPend := false, freqInvalid := true, goodGates := y.goodGates }

theorem State.applyDelayComp_slot {s : State} {src : Fin 96} (h : (s.slots[src]).dcPend = true) :
    (s.applyDelayComp src).slots[src] = (s.slots[src]).compensated (s.delayComp src) := by
  unfold State.applyDelayComp
  extract_lets x new u
  rw [if_neg (ne_false_of_eq_true h), State.slots_of_val (State.bookConfig_val (by decide) ..),
    State.slots_of_val (State.settleDrop_val (by decide) ..)]
  exact State.modSlot_same ..

/-- The DELAY_COMP in force at the next event. -/
theorem State.applyDelayComp_dc (s : State) (src : Fin 96) : ((s.applyDelayComp src).slots[src]).dc
    = if (s.slots[src]).dcPend then s.delayComp src else (s.slots[src]).dc := by
  cases h : (s.slots[src]).dcPend
  · rw [State.applyDelayComp, if_pos h]
    rfl
  · rw [State.applyDelayComp_slot h]
    rfl

/-! ## Events (R56, R59, R60) -/

theorem Slot.gateEvent_last (q : Slot) (cfg : GateCfg) (t x : Int) : (q.gateEvent cfg t x).last = q.last := by
  unfold Slot.gateEvent
  split
  · rfl
  · split
    · rfl
    · split <;> rfl

theorem Slot.phaseEvent_last (q : Slot) (packet : Bool) (div : Nat) (cfg : PhaseCfg) (t x : Int) :
    (q.phaseEvent packet div cfg t x).last = q.last := by
  unfold Slot.phaseEvent
  extract_lets anchor c sum ixs cnt q' v
  split <;> rfl

/-- An event of a source that is not a packet source is the newest of its slot, as DELAY_COMP moves it. -/
theorem State.monEvent_last {s : State} {src : Fin 96} (k : DWord) (d : BitVec 14) (x0 : Int × Bool)
    (hoff : (s.slots[src]).qstate ≠ .off) (href : s.refUp = true) (hkind : isPacket src = false) :
    ((s.monEvent src k d x0 none).slots[src]).last = some (ovenInstant k d
      - (if (s.slots[src]).dcPend then s.delayComp src else (s.slots[src]).dc) * (25 * 2 ^ 16)) := by
  rw [← State.applyDelayComp_dc, State.monEvent, if_neg hoff, if_neg (ne_false_of_eq_true href)]
  extract_lets u q packet pe x t nom div gone valid good bad runs clear le v1 v2 v3 v4 y v5 sp met ok v6
  have ht : t = ovenInstant k d - (u.slots[src]).dc * (25 * 2 ^ 16) := by
    simp only [t, packet, q, hkind, Bool.false_eq_true, if_false]
  have h1 : (v1.slots[src]).last = some t := by
    rw [State.modSlot_same u src]
  clear_value v1 t
  have h2 : (v2.slots[src]).last = some t := by
    simp only [v2]
    split
    · rw [State.modSlot_same, Slot.gateEvent_last, h1]
    · exact h1
  clear_value v2
  have h3 : (v3.slots[src]).last = some t := by
    simp only [v3]
    split
    · exact h2
    · rw [State.modSlot_same, Slot.phaseEvent_last, h2]
  clear_value v3
  have h4 : (v4.slots[src]).last = some t := by
    rw [State.slots_of_val (State.settleEvent_val (by decide) v3 src t x), h3]
  clear_value v4
  have h5 : (v5.slots[src]).last = some t := by
    simp only [v5]
    split
    · obtain ⟨hlast, -⟩ := (v4.slots[src]).alarmed_last ⟨y.los && !gone, (y.act || bad) && !clear, y.freq, y.phase⟩
      exact (State.field_of_readings Slot.last (fun _ => rfl) (State.setAlarms_readings ..)).trans (hlast.trans h4)
    · exact h4
  clear_value v5
  have h6 : (v6.slots[src]).last = some t := by
    simp only [v6]
    rw [State.slots_of_val (State.count_val ..), State.modSlot_same, h5]
  clear_value v6
  rw [State.slots_of_val (State.loopEvent_val (by decide) ..), h6, ht]

theorem exec_refinEdge (n : Fin 16) (fall : Bool) (d : BitVec 14) (s : State) :
    exec (.refinEdge n fall d) s = doneCore s fun s => s.refEdge n fall d := rfl

/-- A selected edge that the pre-divider does not pass on advances it (R57). -/
theorem exec_refinEdge_divided {s : State} {n : Fin 16} {fall : Bool} (d : BitVec 14) (hup : s.coreUp = true)
    (hticks : s.ticking = true) (href : s.refUp = true) (hmode : s.rf .refin n.val 0 31 30 ≠ 3)
    (hoff : (s.slots[refinSrc n]).qstate ≠ .off) (hedge : s.rb .refin n.val 0 29 = fall)
    (hdiv : (s.slots[refinSrc n]).preDiv ≠ 0) : exec (.refinEdge n fall d) s = .next (s.modSlot (refinSrc n) (fun y =>
      { y with losCause := false, lastTr := s.tick, preDiv := y.preDiv - 1 })) := by
  have hstep : s.refEdge n fall d = s.modSlot (refinSrc n) (fun y =>
      { y with losCause := false, lastTr := s.tick, preDiv := y.preDiv - 1 }) := by
    unfold State.refEdge
    extract_lets src u y
    have hy : y = { s.slots[src] with losCause := false, lastTr := s.tick } := State.modSlot_same ..
    have hserved : ¬ (s.rf .refin n.val 0 31 30 = 3 ∨ s.refUp = false) := by simp [hmode, href]
    have hselected : ¬ (u.ticking = false ∨ y.qstate = .off ∨ u.rb .refin n.val 0 29 ≠ fall) := by
      rintro (h | h | h)
      · exact ne_false_of_eq_true hticks h
      · rw [hy] at h
        exact hoff h
      · exact h hedge
    have hwaits : ¬ y.preDiv = 0 := by
      rw [hy]
      exact hdiv
    rw [if_neg hserved, if_neg hselected, if_neg hwaits]
    exact State.modSlot_modSlot ..
  rw [exec_refinEdge, doneCore_up _ _ hup, hstep]
  exact done_eq_next rfl rfl rfl rfl hup

/-- An edge of a recovered clock or of a synthesizer is its source's event (R59). -/
theorem completes_monitorEvent {s : State} {src : Fin 96} (d : BitVec 14) (hup : s.coreUp = true) (hticks : s.ticking = true)
    (href : s.refUp = true) (hkind : (16 ≤ src.val ∧ src.val < 32) ∨ 88 ≤ src.val) (hoff : (s.slots[src]).qstate ≠ .off)
    (hloss : s.lossNow src = false) : Completes (.monitorEvent src d) s (fun t => (t.slots[src]).last
      = some (ovenInstant (s.tick + 2) d
          - (if (s.slots[src]).dcPend then s.delayComp src else (s.slots[src]).dc) * (25 * 2 ^ 16))) := by
  have hpacket : isPacket src = false := by
    simp only [isPacket, Bool.and_eq_false_iff, decide_eq_false_iff_not]
    omega
  have hstep : s.sourceEvent src d = s.monEvent src s.latchTick d (0, false) none := by
    rw [State.sourceEvent, if_neg (by omega), if_neg (by omega), if_pos (by rw [hticks, hloss]; rfl)]
  exact completes_of_doneCore (f := fun s => s.sourceEvent src d) rfl hup hstep
    (State.monEvent_last (s := s) (s.latchTick) d (0, false) hoff href hpacket)

/-! ## Gates and samples (R65 to R68) -/

/-- A slot whose gate has closed at `b` with the reading `n`. -/
def Slot.gateClosed (y : Slot) (b : Int × Int) (cfg : GateCfg) (n : Int) (good : Nat) : Slot :=
  { y with gate := some b, gateEnd := none, gateCfg := cfg, freqVal := n, freqInvalid := false, goodGates := good }

/-- Where a gate that has closed stands in its slot. -/
def Slot.readsGate (y : Slot) (b : Int × Int) (n : Int) : Prop :=
  y.freqVal = n ∧ y.freqInvalid = false ∧ y.gate = some b ∧ y.gateEnd = none

theorem State.closeGate_reads {s : State} {src : Fin 96} {a b : Int × Int} {m : Int} (ha : (s.slots[src]).gate = some a)
    (hb : (s.slots[src]).gateEnd = some b)
    (hm : freqOf (isPacket src) (s.slots[src]).gateCfg.nom (s.srcDiv src) (2 ^ (s.slots[src]).gateCfg.len) a b = m) :
    ((s.closeGate src).slots[src]).readsGate b m := by
  unfold State.closeGate
  extract_lets q c
  simp -zeta only [q, ha, hb]
  extract_lets n fm good cnt u v w y
  have hclosed : u.slots[src] = (s.slots[src]).gateClosed b (s.gateConfig src) n cnt := State.modSlot_same ..
  have hreads : (w.slots[src]).readsGate b m := by
    obtain ⟨f, p, hmark⟩ := u.watermark_slot src 0 fm c.wm
    rw [State.slots_of_val (State.offerSmp_val (by decide) v 4 src.val n (!v.warm) false), hmark, hclosed]
    exact ⟨hm, rfl, rfl, rfl⟩
  clear_value w n
  have hput : ∀ f : Bool,
      ((w.setAlarms src ⟨(w.slots[src]).los, (w.slots[src]).act, f, (w.slots[src]).phase⟩).slots[src]).readsGate b m := by
    intro f
    have hkept := w.setAlarms_standing src f (w.slots[src]).phase
    obtain ⟨hval, hvalid, hgate, hend⟩ := hreads
    exact ⟨(State.field_of_readings Slot.freqVal (fun _ => rfl) hkept).trans hval,
      (State.field_of_readings Slot.freqInvalid (fun _ => rfl) hkept).trans hvalid,
      (State.field_of_readings Slot.gate (fun _ => rfl) hkept).trans hgate,
      (State.field_of_readings Slot.gateEnd (fun _ => rfl) hkept).trans hend⟩
  split
  · exact hput true
  · split
    · exact hput false
    · exact hreads

/-- A slot whose phase samples are those of `l`, with none on its way. -/
def Slot.sampled (y : Slot) (l : List Int) : Prop :=
  y.phDone = none ∧ y.phHist = l

/-- A phase sample enters the history, whatever it says of PHASE. -/
theorem State.phaseSample_history {s : State} {src : Fin 96} {x : Int} (hx : (s.slots[src]).phDone = some x) :
    ((s.phaseSample src).slots[src]).sampled ((x :: (s.slots[src]).phHist).take 2) := by
  unfold State.phaseSample
  extract_lets q
  simp -zeta only [q, hx]
  extract_lets u
  have hsample : (u.slots[src]).sampled ((x :: (s.slots[src]).phHist).take 2) := by
    rw [State.modSlot_same s src]
    exact ⟨rfl, rfl⟩
  clear_value u
  generalize hhist : (s.slots[src]).phHist = l at hsample ⊢
  rcases l with _ | ⟨x1, _ | ⟨x2, _ | ⟨x3, l⟩⟩⟩
  case cons.cons.nil =>
    dsimp -zeta only
    extract_lets h v w t y
    have hw : (w.slots[src]).sampled ((x :: [x1, x2]).take 2) := by
      obtain ⟨f, p, hmark⟩ := u.watermark_slot src 1 v (s.slots[src]).phCfg.wm
      rw [hmark]
      exact hsample
    clear_value w
    have ht : (t.slots[src]).sampled ((x :: [x1, x2]).take 2) := by
      rw [State.modSlot_same w src]
      exact hw
    clear_value t
    split
    · have hkept := t.setAlarms_standing src y.freq true
      exact ⟨(State.field_of_readings Slot.phDone (fun _ => rfl) hkept).trans ht.1,
        (State.field_of_readings Slot.phHist (fun _ => rfl) hkept).trans ht.2⟩
    · exact hw
  all_goals exact hsample

/-! ## The statement -/

/-- A fast loss of a CLOCK input shows, and so does its cause (R59). -/
theorem completes_clockLosTimeout {s : State} {n : Fin 16} (hup : s.coreUp = true) (href : s.refUp = true)
    (hmode : s.rf .refin n.val 0 31 30 = 0) (hoff : (s.slots[refinSrc n]).qstate ≠ .off)
    (hpast : s.passed (s.slots[refinSrc n]).lastTr 800 = true) :
    Completes (.clockLosTimeout n) s (fun t => (t.slots[refinSrc n]).los = true ∧ (t.slots[refinSrc n]).losCause = true) := by
  generalize hu : s.modSlot (refinSrc n) (fun y => { y with losCause := true }) = u
  have hslot : u.slots[refinSrc n] = { s.slots[refinSrc n] with losCause := true } := by
    rw [← hu]
    exact State.modSlot_same ..
  have hserved : ¬ (s.rf .refin n.val 0 31 30 ≠ 0 ∨ (s.slots[refinSrc n]).qstate = .off
      ∨ s.passed (s.slots[refinSrc n]).lastTr 800 = false) := by
    rintro (h | h | h)
    · exact h hmode
    · exact hoff h
    · exact ne_false_of_eq_true hpast h
  have hstep : s.fastLoss n = u.setLos (refinSrc n) := by
    rw [State.fastLoss, if_neg hserved, hu]
  have hlos : ((u.setLos (refinSrc n)).slots[refinSrc n]).los = true :=
    State.setLos_los (fun h => hoff ((congrArg Slot.qstate hslot).symm.trans h))
  have hcause : ((u.setLos (refinSrc n)).slots[refinSrc n]).losCause = true :=
    (u.setLos_keeps (refinSrc n)).1.trans (congrArg Slot.losCause hslot)
  exact completes_of_doneRef (f := fun s => s.fastLoss n) rfl hup href hstep ⟨hlos, hcause⟩

/-- An immediate loss sets LOS, and ACT and FREQ with it (R59, R66). -/
theorem completes_sourceLosReport {s : State} {src : Fin 96} (hup : s.coreUp = true) (href : s.refUp = true)
    (hloss : s.lossNow src = true) (hoff : (s.slots[src]).qstate ≠ .off) (hlos : (s.slots[src]).los = false) :
    Completes (.sourceLosReport src) s (fun t =>
      (t.slots[src]).los = true ∧ (t.slots[src]).act = true ∧ (t.slots[src]).freq = true) := by
  obtain ⟨hl, ha, -, hf⟩ := s.setAlarms_levels src ⟨true, true, true, (s.slots[src]).phase⟩
  exact completes_of_doneRef (f := fun s => if s.lossNow src then s.setLos src else s) rfl hup href
    ((if_pos hloss).trans (State.setLos_of hoff hlos)) ⟨hl, ha, hf rfl⟩

/-- Missing events set ACT (R63). -/
theorem completes_actMissTimeout {s : State} {src : Fin 96} (hup : s.coreUp = true) (href : s.refUp = true)
    (hoff : (s.slots[src]).qstate ≠ .off) (hmissed : s.missed src = true) :
    Completes (.actMissTimeout src) s (fun t => (t.slots[src]).act = true) := by
  have hstep : s.actMiss src = s.setAlarms src ⟨(s.slots[src]).los, true, (s.slots[src]).freq, (s.slots[src]).phase⟩ := by
    rw [State.actMiss, if_pos ⟨hoff, hmissed⟩]
  obtain ⟨-, hact, -⟩ := s.setAlarms_levels src ⟨(s.slots[src]).los, true, (s.slots[src]).freq, (s.slots[src]).phase⟩
  exact completes_of_doneRef (f := fun s => s.actMiss src) rfl hup href hstep hact

/-- PHASE clears once PH_HOLD has passed (R68). -/
theorem completes_phaseHoldExpiry {s : State} {src : Fin 96} {k : DWord} (hup : s.coreUp = true) (href : s.refUp = true)
    (hset : (s.slots[src]).phSetAt = some k) (hphase : (s.slots[src]).phase = true)
    (hpast : s.passed k ((s.slots[src]).phCfg.hold * msTicks) = true) :
    Completes (.phaseHoldExpiry src) s (fun t => (t.slots[src]).phase = false) := by
  have hstep : s.phaseHold src = s.setAlarms src ⟨(s.slots[src]).los, (s.slots[src]).act, (s.slots[src]).freq, false⟩ := by
    rw [State.phaseHold, hset]
    exact if_pos ⟨hphase, hpast⟩
  obtain ⟨-, -, hput, -⟩ := s.setAlarms_levels src ⟨(s.slots[src]).los, (s.slots[src]).act, (s.slots[src]).freq, false⟩
  exact completes_of_doneRef (f := fun s => s.phaseHold src) rfl hup href hstep hput

theorem completes_delayCompApply {s : State} {src : Fin 96} (hup : s.coreUp = true) (href : s.refUp = true)
    (hoff : (s.slots[src]).qstate ≠ .off) (hpend : (s.slots[src]).dcPend = true) :
    Completes (.delayCompApply src) s (fun t => (t.slots[src]).dc = s.delayComp src ∧ (t.slots[src]).dcPend = false
      ∧ (t.slots[src]).phHist = [] ∧ (t.slots[src]).gate = none) := by
  refine completes_of_doneRef (f := fun s => if (s.slots[src]).qstate = .off then s else s.applyDelayComp src) rfl hup href
    (if_neg hoff) ?_
  dsimp only
  rw [State.applyDelayComp_slot hpend]
  exact ⟨rfl, rfl, rfl, rfl⟩

/-- Settles O4: an edge and an event by what they leave in the slot, an alarm by the levels put and by the monitors that no
change of ACT or LOS empties. -/
theorem monitorEventsAndAlarms : Obligations.MonitorEventsAndAlarms := by
  unfold Obligations.MonitorEventsAndAlarms
  refine ⟨⟨?edge, ?event, ?gate, ?sample, ?comp⟩, ?fastLoss, ?loss, ?miss, ?hold⟩
  case edge =>
    intro s n fall d hup hticks href hmode hoff hedge hdiv
    exact exec_refinEdge_divided d hup hticks href hmode hoff hedge hdiv
  case event =>
    intro s src d hup hticks href hkind hoff hloss
    exact completes_monitorEvent d hup hticks href hkind hoff hloss
  case gate =>
    intro s src a b hup href ha hb
    exact completes_of_doneRef (f := fun s => s.closeGate src) rfl hup href rfl (State.closeGate_reads ha hb rfl)
  case sample =>
    intro s src x hup href hx
    exact completes_of_doneRef (f := fun s => s.phaseSample src) rfl hup href rfl (State.phaseSample_history hx)
  case comp =>
    intro s src hup href hoff hpend
    exact completes_delayCompApply hup href hoff hpend
  case fastLoss =>
    intro s n hup href hmode hoff hpast
    exact completes_clockLosTimeout hup href hmode hoff hpast
  case loss =>
    intro s src hup href hloss hoff hlos
    exact completes_sourceLosReport hup href hloss hoff hlos
  case miss =>
    intro s src hup href hoff hmissed
    exact completes_actMissTimeout hup href hoff hmissed
  case hold =>
    intro s src k hup href hset hphase hpast
    exact completes_phaseHoldExpiry hup href hset hphase hpast

end Sys2Proof.Machine

/-! SUPPORT. PROOFS. The registers of a monitor slot, of its owner and of its input (R54 to R57, R62, R325, R326). -/

namespace Sys2Proof.Machine

/-! ## Words written in part -/

theorem bitOf_mix (mask old v : Word) (i : Nat) : bitOf (mix mask old v) i = if bitOf mask i then bitOf v i else bitOf old i := by
  unfold bitOf mix
  by_cases hi : i < 32
  · simp only [BitVec.getLsbD_or, BitVec.getLsbD_and, BitVec.getLsbD_not, hi, decide_true, Bool.true_and]
    cases mask.getLsbD i <;> simp
  · have hge : 32 ≤ i := Nat.le_of_not_lt hi
    simp [BitVec.getLsbD_of_ge _ _ hge]

theorem mix_zero (mask v : Word) : mix mask 0 v = v &&& mask := by
  simp [mix]

/-- A keeper's write of some of the bits of a register of one word: the register's own effect. -/
theorem State.fieldWrite_keeperBits {s : State} {p : Path} {b : Block} {i o : Nat} {mask sel : Word} (v : Word)
    (hk : s.keeps p b i o = true) (hp : placeOf (key b i o) = some ⟨b, i, o⟩)
    (hr : (⟨b, i, o⟩ : Place).keeperBits mask = true) (hin : mask &&& sel = sel) (hsel : sel ≠ 0) :
    ∃ w : Wr, w.p = p ∧ w.pl = ⟨b, i, o⟩ ∧ w.sel = sel ∧ w.old = s.live p ⟨b, i, o⟩ &&& mask ∧ w.new = mix sel w.old v
      ∧ access s p (key b i o) (fun s => s.fieldWrite p b i o sel v) = done s (s.writeAt w) := by
  simp only [State.keeps, State.reaches, Bool.and_eq_true, Bool.not_eq_true'] at hk
  obtain ⟨⟨⟨hc, he⟩, hd⟩, hkeep⟩ := hk
  simp only [Place.keeperBits, Bool.and_eq_true, beq_iff_eq, Bool.not_eq_true', Option.isNone_iff_eq_none] at hr
  obtain ⟨⟨⟨hl, hw⟩, hbits⟩, hb⟩ := hr
  refine ⟨⟨p, ⟨b, i, o⟩, sel, s.live p ⟨b, i, o⟩ &&& mask, mix sel (s.live p ⟨b, i, o⟩ &&& mask) v,
    v &&& (((⟨b, i, o⟩ : Place).reg.cmd ||| ((⟨b, i, o⟩ : Place).reg.cmdk
      ||| (if b = .loop ∧ o = 0x28 then 0xFFFF else 0))) &&& sel), none⟩, rfl, rfl, rfl, rfl, rfl, ?_⟩
  rw [access_of_carries _ _ hc, State.fieldWrite, State.hubWrite_eq_placeWrite _ _ _ _ he hp hb, State.placeWrite,
    if_neg (ne_false_of_eq_true hl), if_neg (ne_true_of_eq_false hd)]
  simp only [hkeep, hw, Bool.not_true, Bool.false_and, Bool.false_eq_true, if_false, if_true, hbits, hin, hsel, false_and,
    or_self]

/-! ## The registers of a slot (R54, R417 to R419) -/

theorem slotWord_place : ∀ src : Fin 96, ∀ o ∈ [0x00, 0x10, 0x14],
    placeOf (key .refin (src.val % 16) (slotOff src o)) = some ⟨.refin, src.val % 16, slotOff src o⟩
      ∧ finMod 96 (slotSrc ⟨.refin, src.val % 16, slotOff src o⟩) = src
      ∧ (⟨.refin, src.val % 16, slotOff src o⟩ : Place).listed = true
      ∧ (⟨.refin, src.val % 16, slotOff src o⟩ : Place).wideAt = none := by
  decide +kernel

theorem slotCtrl_bits : ∀ src : Fin 96, (⟨.refin, src.val % 16, slotOff src 0⟩ : Place).keeperBits 0xEF7FE000 = true := by
  decide +kernel

theorem delayComp_bits : ∀ src : Fin 96, (⟨.refin, src.val % 16, slotOff src 0x10⟩ : Place).keeperWord = true := by
  decide +kernel

/-- VERDICT is written by every path (R419). -/
theorem verdict_bits : ∀ src : Fin 96, (⟨.refin, src.val % 16, slotOff src 0x14⟩ : Place).guard = 0
    ∧ (⟨.refin, src.val % 16, slotOff src 0x14⟩ : Place).reg.cmdk = 0
    ∧ ∀ k, (⟨.refin, src.val % 16, slotOff src 0x14⟩ : Place).writable k = 0x800F0000 := by
  decide +kernel

theorem slotWord_not_source : ∀ src : Fin 96, ∀ o ∈ [0x00, 0x10, 0x14],
    key .refin (src.val % 16) (slotOff src o) ∉ sourceKeys := by
  decide +kernel

theorem slotOff_place (src : Fin 96) {o : Nat} (ho : o < 0x20) :
    slotOff src o ≠ 0 ∧ ¬ slotOff src o < 0x20 ∧ (slotOff src o - 0x20) % 0x20 = o := by
  unfold slotOff
  omega

/-- CTRL shows the word stored. -/
theorem State.live_slotCtrl (s : State) (p : Path) (src : Fin 96) :
    s.live p ⟨.refin, src.val % 16, slotOff src 0⟩ = s.sl src 0 := by
  obtain ⟨-, hslot, hrem⟩ := slotOff_place src (o := 0) (by decide)
  simp only [State.live, State.liveRefin, hslot, if_false, hrem]
  rfl

/-- What a write of a slot's register does. -/
theorem State.writeAt_slot {s : State} {w : Wr} {src : Fin 96} {o : Nat} (ho : o ∈ [0x00, 0x10, 0x14])
    (hpl : w.pl = ⟨.refin, src.val % 16, slotOff src o⟩) : s.writeAt w
      = if o = 0 then (s.store w).slotCtrl src w.old w.new w.sel
        else if o = 0x10 then (s.store w).modSlot src (fun y => { y with dcPend := true })
        else s.verdict w.p src w.new := by
  obtain ⟨-, hsrc, -, -⟩ := slotWord_place src o ho
  have hlt : o < 0x20 := by
    simp only [List.mem_cons, List.not_mem_nil, or_false] at ho
    omega
  obtain ⟨hne, -, hrem⟩ := slotOff_place src hlt
  simp only [State.writeAt, State.writeRefin, hpl, hne, if_false, hrem, hsrc]
  simp only [List.mem_cons, List.not_mem_nil, or_false] at ho
  rcases ho with rfl | rfl | rfl
  · rfl
  · rfl
  · rfl

/-- A word of a slot through what a change of qualification and of ORDER moves. -/
theorem State.sl_of_reg {s t : State} {src : Fin 96} (h : ∀ k, k ∉ sourceKeys → t.reg k = s.reg k) {o : Nat}
    (ho : o ∈ [0x00, 0x10, 0x14]) : t.sl src o = s.sl src o :=
  h _ (slotWord_not_source src o ho)

/-! ## The configuration of an input and DELAY_COMP (R56, R57, R62) -/

theorem refinCfg_place : ∀ n : Fin 16, placeOf (key .refin n.val 0) = some ⟨.refin, n.val, 0⟩
    ∧ (⟨.refin, n.val, 0⟩ : Place).keeperBits 0xF000FFFF = true := by
  decide

theorem bitsOf_refinCfg (v : Word) : bitsOf (v &&& 0xF000FFFF) 31 30 = bitsOf v 31 30
    ∧ bitsOf (v &&& 0xF000FFFF) 15 0 = bitsOf v 15 0 := by
  have hmask : v &&& 0xF000FFFF &&& 0xF000FFFF = v &&& 0xF000FFFF := by rw [BitVec.and_assoc, BitVec.and_self]
  exact ⟨bitsOf_of_masked hmask (lo := 30) (len := 1) (by decide), bitsOf_of_masked hmask (lo := 0) (len := 15) (by decide)⟩

/-- A keeper's write of CFG is judged by the word written. -/
theorem exec_refinCfgWrite {s : State} {p : Path} {n : Fin 16} (v : Word) (hk : s.keeps p .refin n.val 0 = true) :
    exec (.refinCfgWrite p n v) s = done s (s.refinCfg n (v &&& 0xF000FFFF)) := by
  obtain ⟨hplace, hreg⟩ := refinCfg_place n
  obtain ⟨w, -, hpl, hnew, hw⟩ := regAccess_keeperBits v hk hplace hreg (by decide)
  have hat : s.writeAt w = s.refinCfg n (v &&& 0xF000FFFF) := by
    simp only [State.writeAt, State.writeRefin, hpl, if_true, finMod_val, hnew]
  exact hw.trans (congrArg (done s) hat)

/-- A command that ends in a state, through an input's CFG and its slot. -/
theorem completes_refin {c : Instr} {s t : State} {n : Fin 16} {A : Word → Prop} {B : Slot → Prop}
    (hc : exec c s = done s t) (hA : A (t.r .refin n.val 0)) (hB : B (t.slots[refinSrc n])) :
    Completes c s (fun t => A (t.r .refin n.val 0) ∧ B (t.slots[refinSrc n])) :=
  completes_of_done hc ⟨hA, hB⟩

/-- What an accepted CFG leaves in the register and in the slot. -/
theorem State.refinCfg_stored {s : State} {n : Fin 16} {new : Word} (hmode : bitsOf new 31 30 ≠ 3)
    (hslow : tooFast (s.wide .mon n.val 0 2) (bitsOf new 15 0) = false) :
    (s.refinCfg n new).r .refin n.val 0 = new ∧ ((s.refinCfg n new).slots[refinSrc n]).preDiv = 0 := by
  unfold State.refinCfg
  extract_lets src u v
  have hu : u.r .refin n.val 0 = new ∧ (u.slots[refinSrc n]).preDiv = 0 :=
    ⟨(State.r_of_regs (State.modSlot_regs ..) ..).trans (State.setReg_same ..), congrArg Slot.preDiv (State.modSlot_same ..)⟩
  clear_value u
  have hv : v.r .refin n.val 0 = new ∧ (v.slots[refinSrc n]).preDiv = 0 := by
    simp only [v]
    split
    · exact hu
    · exact ⟨hu.1, (congrArg Slot.preDiv (State.modSlot_same u src _)).trans hu.2⟩
  rw [if_neg (ne_true_of_eq_false hslow), if_neg hmode]
  exact hv

/-- An accepted CFG is stored, and the pre-divider begins again (R57). -/
theorem completes_refinCfgWrite {s : State} {p : Path} {n : Fin 16} {v : Word} (hk : s.keeps p .refin n.val 0 = true)
    (hmode : bitsOf v 31 30 ≠ 3) (hslow : tooFast (s.wide .mon n.val 0 2) (bitsOf v 15 0) = false) :
    Completes (.refinCfgWrite p n v) s (fun t => t.r .refin n.val 0 = mix 0xF000FFFF 0 v
      ∧ (t.slots[refinSrc n]).preDiv = 0) := by
  obtain ⟨hm, hd⟩ := bitsOf_refinCfg v
  obtain ⟨hword, hdiv⟩ := State.refinCfg_stored (hm ▸ hmode) (hd.symm ▸ hslow)
  rw [mix_zero]
  exact completes_refin (A := fun w => w = v &&& 0xF000FFFF) (B := fun y => y.preDiv = 0) (exec_refinCfgWrite v hk) hword hdiv

/-- A CFG whose divided frequency is too high is refused and counted (R57). -/
theorem exec_refinCfgWrite_tooFast {s : State} {p : Path} {n : Fin 16} {v : Word} (hk : s.keeps p .refin n.val 0 = true)
    (hfast : tooFast (s.wide .mon n.val 0 2) (bitsOf v 15 0) = true) :
    exec (.refinCfgWrite p n v) s = .next (s.count .refin n.val 4 15 0) := by
  have hrefused : s.refinCfg n (v &&& 0xF000FFFF) = s.count .refin n.val 4 15 0 := by
    rw [State.refinCfg, (bitsOf_refinCfg v).2, if_pos hfast]
  have hup : s.coreUp = true := State.coreUp_of_keeps hk
  rw [exec_refinCfgWrite v hk, hrefused]
  exact done_eq_next rfl rfl rfl rfl hup

/-- DELAY_COMP is stored at once and takes effect at the next event (R62). -/
theorem completes_delayCompWrite {s : State} {p : Path} {src : Fin 96} (v : Word)
    (hk : s.keeps p .refin (src.val % 16) (slotOff src 0x10) = true) :
    Completes (.delayCompWrite p src v) s (fun t => t.sl src 0x10 = v ∧ (t.slots[src]).dcPend = true) := by
  obtain ⟨hplace, -⟩ := slotWord_place src 0x10 (by decide)
  obtain ⟨w, -, hpl, hnew, hw⟩ := regAccess_keeperWord v hk hplace (delayComp_bits src)
  have hat : s.writeAt w
      = (s.wr .refin (src.val % 16) (slotOff src 0x10) v).modSlot src (fun y => { y with dcPend := true }) := by
    rw [State.writeAt_slot (by decide) hpl, State.store_keeperWord hpl (delayComp_bits src), hnew]
    rfl
  refine completes_of_done (hw.trans (congrArg (done s) hat)) ?_
  exact ⟨State.setReg_same .., congrArg Slot.dcPend
    ((s.wr .refin (src.val % 16) (slotOff src 0x10) v).modSlot_same src (fun y => { y with dcPend := true }))⟩

/-! ## A read that clears (R325) -/

theorem loopSticky_place : ∀ n : Fin 16, (BitVec.ofNat 32 (key .loop n.val 8)).toNat = key .loop n.val 8
    ∧ key .loop n.val 8 < 0x100000 ∧ placeOf (key .loop n.val 8) = some ⟨.loop, n.val, 8⟩
    ∧ (⟨.loop, n.val, 8⟩ : Place).listed = true ∧ (⟨.loop, n.val, 8⟩ : Place).wideAt = none
    ∧ (⟨.loop, n.val, 8⟩ : Place).reg.rc = 0xFFFF003F := by
  decide

/-- Function 0's read of STICKY answers a word and clears its own view. -/
theorem State.placeRead_loopSticky {s : State} {n : Fin 16} (hsnap : (s.path .f0).snapView = false)
    (hd : s.placeDown ⟨.loop, n.val, 8⟩ = false) : ∃ w : Word,
    s.placeRead .f0 ⟨.loop, n.val, 8⟩ = (some w, s.rcClear (key .loop n.val 8) 0 0xFFFF003F) := by
  obtain ⟨-, -, -, hlisted, hwide, hrc⟩ := loopSticky_place n
  simp [State.placeRead, hlisted, hd, hwide, hsnap, hrc, viewOf, key]

/-- The view is clear, and the other copies stand. -/
theorem completes_rcRead_loopSticky {s : State} {n : Fin 16} (hup : s.coreUp = true) (hhost : s.hostUp = true)
    (hsnap : (s.path .f0).snapView = false) (hd : s.placeDown ⟨.loop, n.val, 8⟩ = false) :
    Completes (.rcRead .f0 (BitVec.ofNat 32 (key .loop n.val 8))) s (fun t =>
      t.rcWord (key .loop n.val 8) 0 &&& 0xFFFF003F = 0
      ∧ (∀ v, v = 1 ∨ v = 2 ∨ v = 3 → t.rcWord (key .loop n.val 8) v = s.rcWord (key .loop n.val 8) v)) := by
  obtain ⟨hkey, hlow, hplace, -⟩ := loopSticky_place n
  obtain ⟨w, hread⟩ := State.placeRead_loopSticky hsnap hd
  have hc : s.carries .f0 = true := by simp [State.carries, hup, hhost]
  have hanswer : s.readAnswer .f0 (key .loop n.val 8)
      = (s.rcClear (key .loop n.val 8) 0 0xFFFF003F).answer .f0 (.data w) := by
    rw [State.readAnswer, State.busRead_of_lt hlow, State.hubRead_eq_placeRead hplace nofun, hread]
  refine completes_of_access _ (fun s => s.readAnswer .f0 (BitVec.ofNat 32 (key .loop n.val 8)).toNat) rfl hc ?_
  rw [hkey, hanswer]
  generalize key .loop n.val 8 = k
  have hclear : (s.rcClear k 0 0xFFFF003F).rcWord k 0 &&& 0xFFFF003F = 0 := by
    rw [State.rcClear_same, BitVec.and_assoc, BitVec.not_and_self]
    exact BitVec.and_zero
  refine ⟨hclear, fun v hv => ?_⟩
  exact State.rcClear_other s k k 0 v _ (by unfold rcKey; omega)

/-- Settles O6: an accepted CFG by what it stores, a refused one by its count; DELAY_COMP waits; a read clears its own view. -/
theorem referenceRegisters : Obligations.ReferenceRegisters := by
  unfold Obligations.ReferenceRegisters
  refine ⟨?accepted, ?refused, ?comp, ?read⟩
  case accepted =>
    intro s p n v hk hmode hslow
    exact completes_refinCfgWrite hk hmode hslow
  case refused =>
    intro s p n v hk hfast
    exact exec_refinCfgWrite_tooFast hk hfast
  case comp =>
    intro s p src v hk
    exact completes_delayCompWrite v hk
  case read =>
    intro s n hup hhost hsnap hd
    exact completes_rcRead_loopSticky hup hhost hsnap hd

end Sys2Proof.Machine

/-! PROOFS. The qualification of a source (R72 to R80), and O5. -/

namespace Sys2Proof.Machine

/-! ## What an evaluation leaves (R75, R76) -/

/-- QUAL and the note that the loops take leave the slots. -/
theorem State.slots_noted (s : State) (src i : Fin 96) (oq nq : QState) (oo no_ : Nat) (wasQ : Bool) :
    (((s.qualNotice src oq nq oo no_).sourceChanged src wasQ).slots[i]) = s.slots[i] := by
  have hval : ((s.qualNotice src oq nq oo no_).sourceChanged src wasQ).val .slots = s.val .slots := by simp
  rw [State.slots_of_val hval]

theorem State.slots_orderNoted (s : State) (src i : Fin 96) (oq nq : QState) (oo no_ : Nat) (wasQ : Bool) :
    (((s.qualNotice src oq nq oo no_).sourceChanged src wasQ).qlRefresh.slots[i]) = s.slots[i] := by
  have hval : ((s.qualNotice src oq nq oo no_).sourceChanged src wasQ).qlRefresh.val .slots = s.val .slots := by simp
  rw [State.slots_of_val hval]

/-- A change of QSTATE, as the slot shows it; a source that becomes QUALIFIED has been so. -/
theorem State.setQ_slot (s : State) (src : Fin 96) (q : QState) (cause : Nat) :
    ((s.setQ src q cause).slots[src]).qstate = q ∧ ((s.setQ src q cause).slots[src]).cause = BitVec.ofNat 4 cause
      ∧ (q = .qualified → (s.slots[src]).qstate ≠ q → ((s.setQ src q cause).slots[src]).everQual = true) := by
  unfold State.setQ
  lift_lets
  extract_lets old o u v wtr x now w
  split
  case isTrue h =>
    rw [State.modSlot_same s src]
    exact ⟨h, rfl, fun _ hne => absurd h hne⟩
  case isFalse h =>
    have hv : (v.slots[src]).qstate = q ∧ (v.slots[src]).cause = BitVec.ofNat 4 cause := by
      have hslots : v.slots = u.slots :=
        State.slots_of_val (by simp only [v, State.val_ite]; split <;> simp)
      rw [hslots, State.modSlot_same s src]
      exact ⟨rfl, rfl⟩
    clear_value v
    have hw : (w.slots[src]).qstate = q ∧ (w.slots[src]).cause = BitVec.ofNat 4 cause
        ∧ (q = .qualified → (w.slots[src]).everQual = true) := by
      simp only [w]
      cases q
      case qualified =>
        rw [State.modSlot_same v src]
        exact ⟨hv.1, hv.2, fun _ => rfl⟩
      all_goals
        rw [State.modSlot_same v src]
        exact ⟨hv.1, hv.2, nofun⟩
    clear_value w
    rw [State.slots_noted]
    obtain ⟨hq, hcause, hever⟩ := hw
    exact ⟨hq, hcause, fun h _ => hever h⟩

theorem State.evalQ1_of_idle {s : State} {src : Fin 96} (h : (s.slots[src]).qstate = .off ∨ (s.slots[src]).qstate = .lockout) :
    s.evalQ1 src = s := by
  unfold State.evalQ1
  extract_lets x
  obtain h | h : x.qstate = .off ∨ x.qstate = .lockout := h
  · rw [h]
  · rw [h]

/-- A source that is OFF or locked out is not evaluated. -/
theorem State.evalQ_of_idle {s : State} {src : Fin 96} (h : (s.slots[src]).qstate = .off ∨ (s.slots[src]).qstate = .lockout) :
    s.evalQ src = s := by
  rw [State.evalQ, State.evalQ1_of_idle h, State.evalQ1_of_idle h, State.evalQ1_of_idle h]

/-- A source that is not locked out, whatever its cause. -/
theorem State.evalQ1_unlocked {s : State} {src : Fin 96} (h : (s.slots[src]).qstate ≠ .lockout) :
    ((s.evalQ1 src).slots[src]).qstate ≠ .lockout := by
  have hset : ∀ q c, q ≠ .lockout → ((s.setQ src q c).slots[src]).qstate ≠ .lockout := fun q c hq => by
    rw [(s.setQ_slot src q c).1]
    exact hq
  have hcause : ∀ c : BitVec 4, ((s.modSlot src (fun y => { y with cause := c })).slots[src]).qstate ≠ .lockout := fun c => by
    rw [State.modSlot_same s src]
    exact h
  unfold State.evalQ1
  extract_lets x
  cases hx : x.qstate with
  | off => exact h
  | lockout => exact h
  | failed =>
    cases s.hardAlarm src with
    | none =>
      dsimp only
      split
      · exact hcause 6
      · exact hset _ _ (by decide)
    | some c =>
      dsimp only
      split
      · exact h
      · exact hcause _
  | wait =>
    cases s.hardAlarm src with
    | none =>
      cases x.wtrAt with
      | none => exact h
      | some k =>
        dsimp only
        split
        · exact hset _ _ (by decide)
        · exact h
    | some c => exact hset _ _ (by decide)
  | qualified =>
    cases s.hardAlarm src with
    | none =>
      dsimp only
      split
      · exact h
      · exact hset _ _ (by decide)
    | some c => exact hset _ _ (by decide)

theorem State.evalQ_unlocked {s : State} {src : Fin 96} (h : (s.slots[src]).qstate ≠ .lockout) :
    ((s.evalQ src).slots[src]).qstate ≠ .lockout :=
  State.evalQ1_unlocked (State.evalQ1_unlocked (State.evalQ1_unlocked h))

/-- What ORDER's new value moves in the slot (R80). -/
theorem State.refreshOrder_slot (s : State) (src : Fin 96) : ∃ o mm,
    (s.refreshOrder src).slots[src] = { s.slots[src] with order := o, essmMismatch := mm } := by
  unfold State.refreshOrder
  generalize s.orderOf src = om
  obtain ⟨o, mm⟩ := om
  extract_lets x
  dsimp -zeta only
  extract_lets u v
  have hu : u.slots[src] = { s.slots[src] with essmMismatch := mm } := State.modSlot_same ..
  clear_value u
  split
  · exact ⟨_, mm, hu⟩
  · refine ⟨BitVec.ofNat 4 o, mm, ?_⟩
    rw [State.slots_orderNoted, State.modSlot_same u src, hu]

/-- The alarms and the verdict of a slot decide alike where its readings and its words agree. -/
theorem State.hardAlarm_of_readings {s t : State} {src : Fin 96} (h : t.readings src = s.readings src)
    (hsl : ∀ k, k ∉ sourceKeys → t.reg k = s.reg k) : t.hardAlarm src = s.hardAlarm src := by
  have hfield : ∀ g : Slot → Bool, (∀ y, g y.readings = g y) → g (t.slots[src]) = g (s.slots[src]) := fun g hg =>
    State.field_of_readings g hg h
  have hlos := hfield Slot.los fun _ => rfl
  have hact := hfield Slot.act fun _ => rfl
  have hfreq := hfield Slot.freq fun _ => rfl
  have hphase := hfield Slot.phase fun _ => rfl
  have hmask : t.sl src 0 = s.sl src 0 := State.sl_of_reg hsl (by decide)
  simp only [State.hardAlarm, hlos, hact, hfreq, hphase, hmask]

theorem State.owner_of_reg {s t : State} {src : Fin 96} (hsl : ∀ k, k ∉ sourceKeys → t.reg k = s.reg k) :
    t.owner src = s.owner src := by
  rw [State.owner, State.owner, State.slf, State.slf, State.sl_of_reg hsl (by decide)]

theorem State.grant_of_readings {s t : State} {src : Fin 96} (h : t.readings src = s.readings src)
    (hsl : ∀ k, k ∉ sourceKeys → t.reg k = s.reg k) : t.grant src = s.grant src := by
  have hstale : (t.slots[src]).stale = (s.slots[src]).stale := State.field_of_readings Slot.stale (fun _ => rfl) h
  rw [State.grant, State.grant, State.owner_of_reg hsl, State.sl_of_reg hsl (by decide), hstale]

/-- A qualified source without a hard alarm, its verdict GRANT, stays so. -/
theorem State.evalQ1_of_qualified {s : State} {src : Fin 96} (hq : (s.slots[src]).qstate = .qualified)
    (hhard : s.hardAlarm src = none) (hgrant : s.grant src = true) : s.evalQ1 src = s := by
  simp only [State.evalQ1, hq, hhard, hgrant, if_true]

/-- The restore time has passed (R77). -/
theorem State.evalQ_of_restored {s : State} {src : Fin 96} {k : DWord} (hq : (s.slots[src]).qstate = .wait)
    (hhard : s.hardAlarm src = none) (hgrant : s.grant src = true) (hwtr : (s.slots[src]).wtrAt = some k)
    (hpast : s.passed k 0 = true) : s.evalQ src = s.setQ src .qualified 0 := by
  have hfirst : s.evalQ1 src = s.setQ src .qualified 0 := by
    simp only [State.evalQ1, hq, hhard, hwtr, hgrant, hpast, Bool.and_self, if_true]
  obtain ⟨hset, -, -⟩ := s.setQ_slot src .qualified 0
  have hread := s.setQ_readings src .qualified 0 src
  have hreg : ∀ k, k ∉ sourceKeys → (s.setQ src .qualified 0).reg k = s.reg k := fun k hk => State.reg_setQ hk ..
  have hstay : (s.setQ src .qualified 0).evalQ1 src = s.setQ src .qualified 0 :=
    State.evalQ1_of_qualified hset ((State.hardAlarm_of_readings hread hreg).trans hhard)
      ((State.grant_of_readings hread hreg).trans hgrant)
  rw [State.evalQ, hfirst, hstay, hstay]

/-! ## What a write of CTRL leaves (R75, R78, R79) -/

/-- A command that ends in a state, through a slot and its CTRL. -/
theorem completes_slot {c : Instr} {s t : State} {src : Fin 96} {A : Slot → Prop} {B : Word → Prop} (hc : exec c s = done s t)
    (hA : A (t.slots[src])) (hB : B (t.sl src 0)) : Completes c s (fun t => A (t.slots[src]) ∧ B (t.sl src 0)) :=
  completes_of_done hc ⟨hA, hB⟩

theorem Completes.imp {c : Instr} {s : State} {P Q : State → Prop} (h : Completes c s P) (hPQ : ∀ t, P t → Q t) :
    Completes c s Q := by
  obtain ⟨t, ht, hP⟩ := h
  exact ⟨t, ht, hPQ t hP⟩

/-- The word that a write of the bits `sel` with `v` gives CTRL. -/
def State.ctrlNew (s : State) (src : Fin 96) (sel v : Word) : Word :=
  mix sel (s.sl src 0 &&& 0xEF7FE000) v

/-- CTRL stored. -/
def State.ctrlStored (s : State) (src : Fin 96) (sel v : Word) : State :=
  s.wr .refin (src.val % 16) (slotOff src 0) (mix 0xEF7FE000 (s.sl src 0) (s.ctrlNew src sel v))

/-- A keeper's write of some bits of CTRL. -/
theorem access_ctrlField {s : State} {p : Path} {src : Fin 96} {sel : Word} (v : Word)
    (hk : s.keeps p .refin (src.val % 16) (slotOff src 0) = true) (hin : 0xEF7FE000 &&& sel = sel) (hsel : sel ≠ 0) :
    access s p (key .refin (src.val % 16) (slotOff src 0)) (fun s => s.ctrlField p src sel v)
      = done s ((s.ctrlStored src sel v).slotCtrl src (s.sl src 0 &&& 0xEF7FE000) (s.ctrlNew src sel v) sel) := by
  obtain ⟨hplace, -⟩ := slotWord_place src 0 (by decide)
  obtain ⟨w, -, hpl, hwsel, hold, hnew, hw⟩ := State.fieldWrite_keeperBits v hk hplace (slotCtrl_bits src) hin hsel
  rw [State.live_slotCtrl] at hold
  rw [hold] at hnew
  have hbits : w.pl.reg.rw ||| w.pl.reg.rwk = 0xEF7FE000 := by
    have h := slotCtrl_bits src
    simp only [Place.keeperBits, Bool.and_eq_true, beq_iff_eq] at h
    rw [hpl, h.1.2]
  have hstore : s.store w = s.ctrlStored src sel v := by
    rw [State.store, hbits, hnew, hpl]
    rfl
  refine hw.trans (congrArg (done s) ?_)
  rw [State.writeAt_slot (by decide) hpl, if_pos rfl, hstore, hold, hnew, hwsel]
  rfl

theorem State.ctrlStored_sl (s : State) (src : Fin 96) (sel v : Word) :
    (s.ctrlStored src sel v).sl src 0 = mix 0xEF7FE000 (s.sl src 0) (s.ctrlNew src sel v) :=
  State.setReg_same ..

/-- A bit of the new CTRL that may be written. -/
theorem State.bitOf_ctrlNew (s : State) (src : Fin 96) (sel v : Word) {i : Nat} (hi : bitOf 0xEF7FE000 i = true) :
    bitOf (s.ctrlNew src sel v) i = if bitOf sel i then bitOf v i else bitOf (s.sl src 0) i := by
  have hold : bitOf (s.sl src 0 &&& 0xEF7FE000) i = bitOf (s.sl src 0) i := by
    rw [bitOf, BitVec.getLsbD_and, ← bitOf, ← bitOf, hi, Bool.and_true]
  rw [State.ctrlNew, bitOf_mix, hold]

/-- CTRL's effect past the verdict's age: EN and LOCKOUT, then ORDER and the evaluation. -/
theorem State.slotCtrl_eq (s : State) (src : Fin 96) (old new : Word) {sel : Word} (hsel : sel &&& 0x0F000000 = 0) :
    s.slotCtrl src old new sel
      = State.evalQ (State.refreshOrder (if bitOf new 31 then (if bitOf old 31 then s else s.slotUp src).slotLock src (bitOf new 30)
        else if bitOf old 31 then s.slotDown src else s) src) src := by
  rw [State.slotCtrl, if_pos hsel]

/-! ## EN, LOCKOUT and the owner (R75 to R79) -/

@[simp] theorem State.reg_slotUp {k : Nat} (h : k ∉ sourceKeys) (s : State) (src : Fin 96) : (s.slotUp src).reg k = s.reg k := by
  simp [State.slotUp, State.reg_ite, h]

@[simp] theorem State.reg_slotDown {k : Nat} (h : k ∉ sourceKeys) (s : State) (src : Fin 96) :
    (s.slotDown src).reg k = s.reg k := by
  simp [State.slotDown, h]

@[simp] theorem State.reg_slotLock {k : Nat} (h : k ∉ sourceKeys) (s : State) (src : Fin 96) (lock : Bool) :
    (s.slotLock src lock).reg k = s.reg k := by
  unfold State.slotLock
  cases s.hardAlarm src <;> simp [State.reg_ite, h]

/-- CTRL's effect moves no register but those of the loops and of the notices. -/
theorem State.reg_slotCtrl {k : Nat} (h : k ∉ sourceKeys) (s : State) (src : Fin 96) (old new sel : Word) :
    (s.slotCtrl src old new sel).reg k = s.reg k := by
  simp [State.slotCtrl, State.reg_ite, h]

/-- A source that has just been enabled shows ACT and FREQ (R75). -/
theorem State.slotUp_levels (s : State) (src : Fin 96) : ((s.slotUp src).slots[src]).act = true
    ∧ ((s.slotUp src).slots[src]).freq = true ∧ ((s.slotUp src).slots[src]).phase = false := by
  unfold State.slotUp
  extract_lets u v
  have hv : (v.slots[src]).act = true ∧ (v.slots[src]).freq = true ∧ (v.slots[src]).phase = false := by
    obtain ⟨-, hact, hphase, hfreq⟩ := (u.setQ src .failed 2).setAlarms_levels src ⟨false, true, true, false⟩
    exact ⟨hact, hfreq rfl, hphase⟩
  clear_value v
  split
  · unfold State.setLos
    extract_lets y
    split
    · exact hv
    · obtain ⟨-, hact, hphase, hfreq⟩ := v.setAlarms_levels src ⟨true, true, true, y.phase⟩
      exact ⟨hact, hfreq rfl, hphase.trans hv.2.2⟩
  · exact hv

theorem State.slotDown_off (s : State) (src : Fin 96) : ((s.slotDown src).slots[src]).qstate = .off :=
  (State.setQ_slot ..).1

@[simp] theorem State.slotLock_readings (s : State) (src : Fin 96) (lock : Bool) (i : Fin 96) :
    (s.slotLock src lock).readings i = s.readings i := by
  unfold State.slotLock
  cases s.hardAlarm src <;> simp [State.readings_ite]

/-- LOCKOUT set: the source is locked out, by software unless it was so before. -/
theorem State.slotLock_set (s : State) (src : Fin 96) : ((s.slotLock src true).slots[src]).qstate = .lockout
    ∧ ((s.slots[src]).qstate ≠ .lockout → ((s.slotLock src true).slots[src]).cause = 7) := by
  unfold State.slotLock
  extract_lets q
  rw [if_pos rfl]
  split
  case isTrue h => exact ⟨h, fun hne => absurd h hne⟩
  case isFalse h =>
    obtain ⟨hq, hcause, -⟩ := s.setQ_slot src .lockout 7
    exact ⟨hq, fun _ => hcause⟩

/-- LOCKOUT clear: the source is not locked out. -/
theorem State.slotLock_clear (s : State) (src : Fin 96) : ((s.slotLock src false).slots[src]).qstate ≠ .lockout := by
  unfold State.slotLock
  extract_lets q
  rw [if_neg (by decide)]
  split
  case isTrue h =>
    cases s.hardAlarm src with
    | none =>
      dsimp only
      rw [(State.setQ_slot ..).1]
      decide
    | some c =>
      dsimp only
      rw [(State.setQ_slot ..).1]
      decide
  case isFalse h => exact h

/-- What a new ORDER and an evaluation leave of a field of the slot. -/
theorem State.settled_field {α : Type} (g : Slot → α) (hg : ∀ y, g y.readings = g y)
    (ho : ∀ y o mm, g { y with order := o, essmMismatch := mm } = g y) (s : State) (src : Fin 96) :
    g (((s.refreshOrder src).evalQ src).slots[src]) = g (s.slots[src]) := by
  obtain ⟨o, mm, hslot⟩ := s.refreshOrder_slot src
  have hread := (s.refreshOrder src).evalQ_readings src src
  exact (State.field_of_readings g hg hread).trans ((congrArg g hslot).trans (ho ..))

/-- A source that is OFF or locked out stays so through them. -/
theorem State.settled_idle {s : State} {src : Fin 96} (h : (s.slots[src]).qstate = .off ∨ (s.slots[src]).qstate = .lockout) :
    (((s.refreshOrder src).evalQ src).slots[src]).qstate = (s.slots[src]).qstate
      ∧ (((s.refreshOrder src).evalQ src).slots[src]).cause = (s.slots[src]).cause := by
  obtain ⟨o, mm, hslot⟩ := s.refreshOrder_slot src
  have hq := congrArg Slot.qstate hslot
  have hcause := congrArg Slot.cause hslot
  rw [State.evalQ_of_idle (h.imp hq.trans hq.trans)]
  exact ⟨hq, hcause⟩

theorem State.settled_unlocked {s : State} {src : Fin 96} (h : (s.slots[src]).qstate ≠ .lockout) :
    (((s.refreshOrder src).evalQ src).slots[src]).qstate ≠ .lockout := by
  obtain ⟨o, mm, hslot⟩ := s.refreshOrder_slot src
  exact State.evalQ_unlocked fun hq => h ((congrArg Slot.qstate hslot).symm.trans hq)

/-- CTRL reads as it was stored. -/
theorem State.slotCtrl_sl (s : State) (src : Fin 96) (old new sel : Word) :
    (s.slotCtrl src old new sel).sl src 0 = s.sl src 0 :=
  State.sl_of_reg (fun _ hk => State.reg_slotCtrl hk ..) (by decide)

theorem bitOf_ctrlMask : ∀ i ∈ [30, 31], bitOf (0xEF7FE000 : Word) i = true := by
  decide

/-- EN and LOCKOUT of the word stored are those of the word written. -/
theorem State.bitOf_ctrlStored (s : State) (src : Fin 96) (sel v : Word) {i : Nat} (hi : i ∈ [30, 31]) :
    bitOf ((s.ctrlStored src sel v).sl src 0) i = if bitOf sel i then bitOf v i else bitOf (s.sl src 0) i := by
  rw [State.ctrlStored_sl, bitOf_mix, if_pos (bitOf_ctrlMask i hi), State.bitOf_ctrlNew s src sel v (bitOf_ctrlMask i hi)]

theorem State.bitOf_ctrlOld (s : State) (src : Fin 96) {i : Nat} (hi : i ∈ [30, 31]) :
    bitOf (s.sl src 0 &&& 0xEF7FE000) i = bitOf (s.sl src 0) i := by
  rw [bitOf, BitVec.getLsbD_and, ← bitOf, ← bitOf, bitOf_ctrlMask i hi, Bool.and_true]

/-! ## The clauses on CTRL -/

/-- The state that a write of some bits of CTRL leaves, as the clauses on EN and LOCKOUT read it. -/
theorem completes_ctrlField {c : Instr} {s : State} {p : Path} {src : Fin 96} {sel v : Word} {A : Slot → Prop}
    {B : Word → Prop} (hc : exec c s = access s p (key .refin (src.val % 16) (slotOff src 0)) (fun s => s.ctrlField p src sel v))
    (hk : s.keeps p .refin (src.val % 16) (slotOff src 0) = true) (hin : 0xEF7FE000 &&& sel = sel) (hsel : sel ≠ 0)
    (hA : ∀ t, t = s.ctrlStored src sel v →
      A ((t.slotCtrl src (s.sl src 0 &&& 0xEF7FE000) (s.ctrlNew src sel v) sel).slots[src]))
    (hB : B ((s.ctrlStored src sel v).sl src 0)) : Completes c s (fun t => A (t.slots[src]) ∧ B (t.sl src 0)) := by
  refine completes_slot (hc.trans (access_ctrlField v hk hin hsel)) (hA _ rfl) ?_
  rw [State.slotCtrl_sl]
  exact hB

theorem completes_slotEnable {s : State} {p : Path} {src : Fin 96}
    (hk : s.keeps p .refin (src.val % 16) (slotOff src 0) = true) (hen : s.slotEn src = false) :
    Completes (.slotEnable p src) s (fun t => ((t.slots[src]).act = true ∧ (t.slots[src]).freq = true
        ∧ (t.slots[src]).phase = false) ∧ bitOf (t.sl src 0) 31 = true) := by
  refine completes_ctrlField (A := fun y => y.act = true ∧ y.freq = true ∧ y.phase = false) (B := fun w => bitOf w 31 = true)
    rfl hk (by decide) (by decide) (fun t _ => ?_) ?_
  · have hold : bitOf (s.sl src 0 &&& 0xEF7FE000) 31 = false := (s.bitOf_ctrlOld src (by decide)).trans hen
    have hnew : bitOf (s.ctrlNew src 0x80000000 0x80000000) 31 = true := (s.bitOf_ctrlNew src _ _ (by decide)).trans rfl
    rw [State.slotCtrl_eq _ _ _ _ (by decide), if_pos hnew, if_neg (ne_true_of_eq_false hold)]
    obtain ⟨hact, hfreq, hphase⟩ := t.slotUp_levels src
    have hread := (t.slotUp src).slotLock_readings src (bitOf (s.ctrlNew src 0x80000000 0x80000000) 30) src
    generalize (t.slotUp src).slotLock src _ = u at hread ⊢
    refine ⟨?_, ?_, ?_⟩
    · rw [State.settled_field Slot.act (fun _ => rfl) fun _ _ _ => rfl]
      exact (State.field_of_readings Slot.act (fun _ => rfl) hread).trans hact
    · rw [State.settled_field Slot.freq (fun _ => rfl) fun _ _ _ => rfl]
      exact (State.field_of_readings Slot.freq (fun _ => rfl) hread).trans hfreq
    · rw [State.settled_field Slot.phase (fun _ => rfl) fun _ _ _ => rfl]
      exact (State.field_of_readings Slot.phase (fun _ => rfl) hread).trans hphase
  · rw [State.bitOf_ctrlStored s src _ _ (by decide)]
    rfl

theorem completes_slotDisable {s : State} {p : Path} {src : Fin 96}
    (hk : s.keeps p .refin (src.val % 16) (slotOff src 0) = true) (hen : s.slotEn src = true) :
    Completes (.slotDisable p src) s (fun t => (t.slots[src]).qstate = .off ∧ bitOf (t.sl src 0) 31 = false) := by
  refine completes_ctrlField (A := fun y => y.qstate = .off) (B := fun w => bitOf w 31 = false)
    rfl hk (by decide) (by decide) (fun t _ => ?_) ?_
  · have hold : bitOf (s.sl src 0 &&& 0xEF7FE000) 31 = true := (s.bitOf_ctrlOld src (by decide)).trans hen
    have hnew : bitOf (s.ctrlNew src 0x80000000 0) 31 = false := (s.bitOf_ctrlNew src _ _ (by decide)).trans rfl
    rw [State.slotCtrl_eq _ _ _ _ (by decide), if_neg (ne_true_of_eq_false hnew), if_pos hold]
    have hoff := t.slotDown_off src
    exact (State.settled_idle (.inl hoff)).1.trans hoff
  · rw [State.bitOf_ctrlStored s src _ _ (by decide)]
    rfl

/-- A write of LOCKOUT on an enabled slot is LOCKOUT's level alone. -/
theorem State.slotCtrl_lockout {s : State} (t : State) {src : Fin 96} {v : Word} (hen : s.slotEn src = true) :
    t.slotCtrl src (s.sl src 0 &&& 0xEF7FE000) (s.ctrlNew src 0x40000000 v) 0x40000000
      = ((t.slotLock src (bitOf v 30)).refreshOrder src).evalQ src := by
  have hold : bitOf (s.sl src 0 &&& 0xEF7FE000) 31 = true := (s.bitOf_ctrlOld src (by decide)).trans hen
  have hnew : bitOf (s.ctrlNew src 0x40000000 v) 31 = true := (s.bitOf_ctrlNew src _ _ (by decide)).trans hen
  have hlock : bitOf (s.ctrlNew src 0x40000000 v) 30 = bitOf v 30 := (s.bitOf_ctrlNew src _ _ (by decide)).trans rfl
  rw [State.slotCtrl_eq _ _ _ _ (by decide), if_pos hnew, if_pos hold, hlock]

theorem completes_lockoutSet {s : State} {p : Path} {src : Fin 96}
    (hk : s.keeps p .refin (src.val % 16) (slotOff src 0) = true) (hen : s.slotEn src = true) :
    Completes (.lockoutSet p src) s (fun t => ((t.slots[src]).qstate = .lockout ∧
        ((s.slots[src]).qstate ≠ .lockout → (t.slots[src]).cause = 7)) ∧ True) := by
  refine completes_ctrlField (A := fun y => y.qstate = .lockout ∧ ((s.slots[src]).qstate ≠ .lockout → y.cause = 7))
    (B := fun _ => True) rfl hk (by decide) (by decide) (fun t ht => ?_) trivial
  have hslots : t.slots = s.slots := by rw [ht]; rfl
  rw [State.slotCtrl_lockout t hen]
  obtain ⟨hq, hcause⟩ := t.slotLock_set src
  rw [hslots] at hcause
  obtain ⟨hqs, hcs⟩ := State.settled_idle (.inr hq)
  exact ⟨hqs.trans hq, fun h => hcs.trans (hcause h)⟩

theorem completes_lockoutClear {s : State} {p : Path} {src : Fin 96}
    (hk : s.keeps p .refin (src.val % 16) (slotOff src 0) = true) (hen : s.slotEn src = true) :
    Completes (.lockoutClear p src) s (fun t => (t.slots[src]).qstate ≠ .lockout ∧ True) := by
  refine completes_ctrlField (A := fun y => y.qstate ≠ .lockout) (B := fun _ => True) rfl hk (by decide) (by decide)
    (fun t _ => ?_) trivial
  rw [State.slotCtrl_lockout t hen]
  exact State.settled_unlocked (t.slotLock_clear src)

theorem bitsOf_owner : ∀ v : BitVec 4, bitsOf (fld v.toNat 24) 27 24 = v.toNat := by
  decide

/-- QUAL_OWNER of the word written. -/
theorem State.bitsOf_ctrlNew (s : State) (src : Fin 96) (v : BitVec 4) :
    bitsOf (s.ctrlNew src 0x0F000000 (fld v.toNat 24)) 27 24 = v.toNat := by
  have hsel : s.ctrlNew src 0x0F000000 (fld v.toNat 24) &&& 0x0F000000 = fld v.toNat 24 &&& 0x0F000000 := by
    refine BitVec.eq_of_getLsbD_eq fun i _ => ?_
    rw [BitVec.getLsbD_and, BitVec.getLsbD_and, State.ctrlNew, ← bitOf, ← bitOf, ← bitOf, bitOf_mix]
    cases bitOf (0x0F000000 : Word) i
    · rw [Bool.and_false, Bool.and_false]
    · rfl
  exact (bitsOf_of_masked hsel (lo := 24) (len := 3) (by decide)).trans (bitsOf_owner v)

theorem State.bitsOf_ctrlStored (s : State) (src : Fin 96) (v : BitVec 4) :
    bitsOf ((s.ctrlStored src 0x0F000000 (fld v.toNat 24)).sl src 0) 27 24 = v.toNat := by
  have hmask : mix 0xEF7FE000 (s.sl src 0) (s.ctrlNew src 0x0F000000 (fld v.toNat 24)) &&& 0xEF7FE000
      = s.ctrlNew src 0x0F000000 (fld v.toNat 24) &&& 0xEF7FE000 := by
    refine BitVec.eq_of_getLsbD_eq fun i _ => ?_
    rw [BitVec.getLsbD_and, BitVec.getLsbD_and, ← bitOf, ← bitOf, ← bitOf, bitOf_mix]
    cases bitOf (0xEF7FE000 : Word) i
    · rw [Bool.and_false, Bool.and_false]
    · rfl
  rw [State.ctrlStored_sl, bitsOf_of_masked hmask (lo := 24) (len := 3) (by decide), State.bitsOf_ctrlNew]

/-- An engine named as owner: the verdict's age begins (R79, log 122). -/
theorem completes_qualOwnerWrite {s : State} {p : Path} {src : Fin 96} {v : BitVec 4}
    (hk : s.keeps p .refin (src.val % 16) (slotOff src 0) = true) (hv : v.toNat < 8) :
    Completes (.qualOwnerWrite p src v) s (fun t => (t.slots[src]).vttlFrom = s.tick ∧ bitsOf (t.sl src 0) 27 24 = v.toNat) := by
  refine completes_ctrlField (A := fun y => y.vttlFrom = s.tick) (B := fun w => bitsOf w 27 24 = v.toNat)
    rfl hk (by decide) (by decide) (fun t ht => ?_) (s.bitsOf_ctrlStored src v)
  have htick : t.tick = s.tick := by rw [ht]; rfl
  have hsame : bitOf (s.ctrlNew src 0x0F000000 (fld v.toNat 24)) 31 = bitOf (s.sl src 0 &&& 0xEF7FE000) 31 :=
    (s.bitOf_ctrlNew src _ _ (by decide)).trans (s.bitOf_ctrlOld src (by decide)).symm
  have hown : bitsOf (s.ctrlNew src 0x0F000000 (fld v.toNat 24)) 27 24 < 8 := by rwa [State.bitsOf_ctrlNew]
  have hnames : ¬ ((0x0F000000 : Word) &&& 0x0F000000 = 0) := by decide
  rw [State.slotCtrl, if_neg hnames, if_pos hown, hsame]
  generalize hu : t.modSlot src _ = u
  have hfrom : (u.slots[src]).vttlFrom = s.tick := by
    rw [← hu, State.modSlot_same t src]
    exact htick
  rw [State.settled_field Slot.vttlFrom (fun _ => rfl) fun _ _ _ => rfl]
  cases bitOf (s.sl src 0 &&& 0xEF7FE000) 31
  · exact hfrom
  · exact (State.field_of_readings Slot.vttlFrom (fun _ => rfl) (u.slotLock_readings ..)).trans hfrom

/-! ## The verdict (R78, R79) -/

/-- VERDICT is written by every path that reaches it; its effect is the verdict's. -/
theorem exec_verdictWrite {s : State} {p : Path} {src : Fin 96} (v : Word)
    (hr : s.reaches p .refin (src.val % 16) (slotOff src 0x14) = true) :
    ∃ new, exec (.verdictWrite p src v) s = done s (s.verdict p src new) := by
  simp only [State.reaches, Bool.and_eq_true, Bool.not_eq_true'] at hr
  obtain ⟨⟨hc, he⟩, hd⟩ := hr
  obtain ⟨hplace, -, hlisted, hwide⟩ := slotWord_place src 0x14 (by decide)
  obtain ⟨hguard, hcmdk, hwritable⟩ := verdict_bits src
  have htrips : (⟨.refin, src.val % 16, slotOff src 0x14⟩ : Place).trips 0xFFFFFFFF v = false := by
    simp [Place.trips, hguard, hcmdk]
  have hwrite := State.placeWrite_eq_writeAt (p := p) (fw := none) hlisted hd (.inr htrips) hwide
    (.inl (by rw [hwritable]; decide))
  exact ⟨_, (regAccess_eq v hc he hplace rfl).trans
    (congrArg (done s) (hwrite.trans (State.writeAt_slot (o := 0x14) (by decide) rfl)))⟩

/-- The owning engine's verdict takes effect afresh. -/
theorem State.verdict_owned {s : State} {src : Fin 96} {e : Fin 8} (hown : s.owner src = some e) (new : Word) :
    ((s.verdict (.eng e) src new).slots[src]).stale = false
      ∧ ((s.verdict (.eng e) src new).slots[src]).vttlFrom = s.tick := by
  have hverdict : s.verdict (.eng e) src new
      = (((s.wr .refin (src.val % 16) (slotOff src 0x14) new).modSlot src
        (fun y => { y with stale := false, vttlFrom := s.tick })).refreshOrder src).evalQ src := by
    rw [State.verdict, hown]
    exact if_pos rfl
  rw [hverdict, State.settled_field Slot.stale (fun _ => rfl) fun _ _ _ => rfl,
    State.settled_field Slot.vttlFrom (fun _ => rfl) fun _ _ _ => rfl, State.modSlot_same]
  exact ⟨rfl, rfl⟩

/-- Another's verdict is counted. -/
theorem State.verdict_refused {s : State} {p : Path} {src : Fin 96} (h : ∀ e, s.owner src = some e → p ≠ .eng e)
    (new : Word) : s.verdict p src new = s.count .fault 0 0x10 31 0 := by
  rw [State.verdict]
  cases hown : s.owner src with
  | none => rfl
  | some e => exact if_neg (h e hown)

theorem State.verdictAge_stale {s : State} {src : Fin 96} (hown : (s.owner src).isSome = true) (hvttl : s.mn src 0x1C 15 0 ≠ 0)
    (hfresh : (s.slots[src]).stale = false)
    (hpast : s.passed (s.slots[src]).vttlFrom (s.mn src 0x1C 15 0 * msTicks) = true) :
    ((s.verdictAge src).slots[src]).stale = true := by
  have hages : ¬ ((s.owner src).isNone = true ∨ s.mn src 0x1C 15 0 = 0 ∨ (s.slots[src]).stale = true
      ∨ s.passed (s.slots[src]).vttlFrom (s.mn src 0x1C 15 0 * msTicks) = false) := by
    rintro (h | h | h | h)
    · rw [Option.isNone_iff_eq_none.mp h] at hown
      exact absurd hown (by decide)
    · exact hvttl h
    · exact ne_true_of_eq_false hfresh h
    · exact ne_false_of_eq_true hpast h
  unfold State.verdictAge
  extract_lets vttl y u
  rw [if_neg hages]
  have hset : ((u.raise 0x0802 clsB 0x32 (args8 [byte src.val])).slots[src]).stale = true := by
    rw [State.slots_of_val (State.raise_val ..), State.modSlot_same s src]
  exact (State.field_of_readings Slot.stale (fun _ => rfl) (State.evalQ_readings ..)).trans hset

/-- Settles O5: CTRL's bits decide which effect a write of them has; an evaluation leaves a source that is OFF or locked out,
locks none out, and moves no reading. -/
theorem qualification : Obligations.Qualification := by
  unfold Obligations.Qualification
  refine ⟨?enable, ?disable, ?lock, ?unlock, ?owner, ?restore, ?verdict, ?refused, ?stale⟩
  case enable =>
    intro s p src hk hen _
    exact (completes_slotEnable hk hen).imp fun t ⟨⟨hact, hfreq, hphase⟩, hset⟩ => ⟨hact, hfreq, hphase, hset⟩
  case disable =>
    intro s p src hk hen
    exact completes_slotDisable hk hen
  case lock =>
    intro s p src hk hen
    refine (completes_lockoutSet hk hen).imp fun t ⟨⟨hq, hcause⟩, _⟩ => ?_
    by_cases h : (s.slots[src]).qstate = .lockout
    · exact .inr ⟨h, hq⟩
    · exact .inl ⟨hq, hcause h⟩
  case unlock =>
    intro s p src hk hen _
    exact (completes_lockoutClear hk hen).imp fun t h => h.1
  case owner =>
    intro s p src v hk hv
    refine (completes_qualOwnerWrite hk hv).imp fun t ⟨hfrom, hown⟩ => ⟨hfrom, ?_⟩
    rw [State.owner, State.slf, hown]
  case restore =>
    intro s src k hup href hq hhard hgrant hwtr hpast
    obtain ⟨hset, -, hever⟩ := s.setQ_slot src .qualified 0
    have hwas : (s.slots[src]).qstate ≠ .qualified := by
      rw [hq]
      decide
    exact completes_of_doneRef (f := fun s => s.evalQ src) rfl hup href (State.evalQ_of_restored hq hhard hgrant hwtr hpast)
      ⟨hset, hever rfl hwas⟩
  case verdict =>
    intro s src e v hr hown
    obtain ⟨new, hexec⟩ := exec_verdictWrite v hr
    exact completes_of_done hexec (State.verdict_owned hown new)
  case refused =>
    intro s p src v hr hother
    obtain ⟨new, hexec⟩ := exec_verdictWrite v hr
    have hup : s.coreUp = true := State.coreUp_of_reaches hr
    rw [hexec, State.verdict_refused hother]
    exact done_eq_next rfl rfl rfl rfl hup
  case stale =>
    intro s src hup href hown hvttl hfresh hpast
    exact completes_of_doneRef (f := fun s => s.verdictAge src) rfl hup href rfl
      (State.verdictAge_stale hown hvttl hfresh hpast)

end Sys2Proof.Machine

/-! SUPPORT. PROOFS. The windows of the streams (R242, R243, R263). -/

namespace Sys2Proof.Machine

/-! ## One stream among the streams -/

theorem State.modStream_same (s : State) (i : Fin 32) (f : Stream → Stream) : (s.modStream i f).streams[i] = f s.streams[i] :=
  Vector.getElem_set_self _

theorem State.modStream_other (s : State) {i j : Fin 32} (f : Stream → Stream) (h : i ≠ j) :
    (s.modStream i f).streams[j] = s.streams[j] :=
  Vector.getElem_set_ne i.isLt j.isLt (Fin.val_ne_of_ne h)

theorem State.streams_of_val {s t : State} (h : s.val .streams = t.val .streams) : s.streams = t.streams := h

/-- A stream with an empty window under the word `w`. -/
def Stream.emptied (t : Stream) (keepD : Bool) (w : Word) : Stream :=
  { t with dfs := [], drs := [], cnt := 0, xs := [], label := none, lastD := if keepD then t.lastD else none, word := w }

theorem State.newWindow_same (s : State) (i : Fin 32) (keepD : Bool) :
    (s.newWindow i keepD).streams[i] = (s.streams[i]).emptied keepD (s.r .pte 0 (0x80 + 4 * i.val)) :=
  State.modStream_same ..

theorem State.newWindow_other (s : State) {i j : Fin 32} (keepD : Bool) (h : i ≠ j) :
    (s.newWindow i keepD).streams[j] = s.streams[j] :=
  State.modStream_other _ _ h

/-- A stream whose window is empty, under the word `w`. -/
def Stream.empty (t : Stream) (w : Word) : Prop :=
  t.cnt = 0 ∧ t.dfs = [] ∧ t.drs = [] ∧ t.xs = [] ∧ t.word = w

/-- ORDER and a loss move no stream. -/
theorem State.refreshOrder_stream (s : State) (src : Fin 96) (j : Fin 32) :
    (s.refreshOrder src).streams[j] = s.streams[j] := by
  have hval : (s.refreshOrder src).val .streams = s.val .streams := by
    unfold State.refreshOrder
    generalize s.orderOf src = om
    obtain ⟨o, mm⟩ := om
    extract_lets x
    simp [State.val_ite]
  rw [State.streams_of_val hval]

theorem State.setLos_stream (s : State) (src : Fin 96) (j : Fin 32) : (s.setLos src).streams[j] = s.streams[j] := by
  have hval : (s.setLos src).val .streams = s.val .streams := by simp [State.setLos, State.val_ite]
  rw [State.streams_of_val hval]

theorem State.refreshOrder_inbox (s : State) (src : Fin 96) :
    ((s.refreshOrder src).slots[src]).inbox = (s.slots[src]).inbox := by
  obtain ⟨o, mm, hslot⟩ := s.refreshOrder_slot src
  have hinbox := congrArg Slot.inbox hslot
  exact hinbox

theorem State.refreshOrder_los (s : State) (src : Fin 96) :
    ((s.refreshOrder src).slots[src]).los = (s.slots[src]).los := by
  obtain ⟨o, mm, hslot⟩ := s.refreshOrder_slot src
  have hlos := congrArg Slot.los hslot
  exact hlos

/-! ## Opening and closing (R243) -/

/-- An open stream stays as it is or closes, as the conditions ask. -/
theorem State.refreshStream_open {s : State} {i : Fin 32} (h : (s.streams[i]).open_ = true) : s.refreshStream i
    = if s.streamWanted i then s
      else ((s.newWindow i false).modStream i (fun t => { t with open_ := false })).setLos (streamSrc i) := by
  unfold State.refreshStream
  simp only [h, if_true]
  cases s.streamWanted i
  · rfl
  · rfl

/-- A stream with an empty window under the word that is written keeps one. -/
theorem State.refreshStream_empty {s : State} {i : Fin 32} (hopen : (s.streams[i]).open_ = true)
    (h : (s.streams[i]).empty (s.r .pte 0 (0x80 + 4 * i.val))) :
    ((s.refreshStream i).streams[i]).empty (s.r .pte 0 (0x80 + 4 * i.val)) := by
  rw [State.refreshStream_open hopen]
  split
  · exact h
  · rw [State.setLos_stream, State.modStream_same, State.newWindow_same]
    exact ⟨rfl, rfl, rfl, rfl, rfl⟩

theorem State.refreshStream_inbox {s : State} {i : Fin 32} (hopen : (s.streams[i]).open_ = true) :
    ((s.refreshStream i).slots[streamSrc i]).inbox = (s.slots[streamSrc i]).inbox := by
  rw [State.refreshStream_open hopen]
  split
  · rfl
  · exact (State.setLos_keeps _ (streamSrc i)).2

theorem State.streamWanted_of_disabled {s : State} {i : Fin 32} (h : bitOf (s.streams[i]).word 31 = false) :
    s.streamWanted i = false := by
  rw [State.streamWanted, h]
  rfl

/-- A stream whose word is disabled closes, and its source reports LOS (R59, R243). -/
theorem State.refreshStream_disabled {s : State} {i : Fin 32} (hopen : (s.streams[i]).open_ = true)
    (h : bitOf (s.streams[i]).word 31 = false) : ((s.refreshStream i).streams[i]).open_ = false
      ∧ ((s.slots[streamSrc i]).qstate ≠ .off → ((s.refreshStream i).slots[streamSrc i]).los = true) := by
  rw [State.refreshStream_open hopen, State.streamWanted_of_disabled h, if_neg (by decide)]
  refine ⟨?_, fun hoff => State.setLos_los hoff⟩
  rw [State.setLos_stream, State.modStream_same]

theorem State.refreshStream_other (s : State) {i j : Fin 32} (h : i ≠ j) : (s.refreshStream i).streams[j] = s.streams[j] := by
  unfold State.refreshStream
  extract_lets u on
  have hu : u.streams[j] = s.streams[j] := by
    simp only [u]
    split
    · rfl
    · exact State.newWindow_other s false h
  clear_value u on
  split
  · exact hu
  · split
    · exact (State.modStream_other _ _ h).trans ((State.newWindow_other u false h).trans hu)
    · rw [State.setLos_stream]
      exact (State.modStream_other _ _ h).trans ((State.newWindow_other u false h).trans hu)

/-! ## Samples delivered (R48, R242) -/

/-- A sample as the monitor of its stream receives it. -/
def State.delivered (s : State) (e : Int × Bool) (label : Option (Int × Int)) : MonEv :=
  ⟨s.tick, 0, (satPE e.1 e.2).1, flagByte (!s.warm) false false false false false false false, label, (satPE e.1 e.2).2⟩

theorem State.deliver_inbox {s : State} {i : Fin 32} (e : Int × Bool) (label : Option (Int × Int))
    (hoff : (s.slots[streamSrc i]).qstate ≠ .off) : ((s.deliver i e label).slots[streamSrc i]).inbox
      = (s.slots[streamSrc i]).inbox ++ [s.delivered e label] := by
  unfold State.deliver
  extract_lets src x
  rw [if_neg hoff, State.modSlot_same s src]
  rfl

theorem State.deliver_qstate (s : State) (i : Fin 32) (e : Int × Bool) (label : Option (Int × Int)) :
    ((s.deliver i e label).slots[streamSrc i]).qstate = (s.slots[streamSrc i]).qstate := by
  unfold State.deliver
  extract_lets src x
  split
  · rfl
  · rw [State.modSlot_same s src]

/-- A sample for the statistics leaves what a delivery reads. -/
theorem State.offerSmp_delivered (s : State) (kind index : Nat) (y : Int) (unw gap : Bool) (e : Int × Bool)
    (label : Option (Int × Int)) : (s.offerSmp kind index y unw gap).delivered e label = s.delivered e label := by
  obtain ⟨-, -, -, htick, -⟩ :=
    State.clock_of_val (State.offerSmp_val (p := .clock) (by decide) s kind index y unw gap)
  have hwarm : (s.offerSmp kind index y unw gap).warm = s.warm := by
    rw [State.warm, State.warm, State.oven_of_val (State.offerSmp_val (by decide) ..)]
  rw [State.delivered, State.delivered, htick, hwarm]

theorem State.offerSmp_slot (s : State) (kind index : Nat) (y : Int) (unw gap : Bool) (src : Fin 96) :
    (s.offerSmp kind index y unw gap).slots[src] = s.slots[src] := by
  rw [State.slots_of_val (State.offerSmp_val (by decide) ..)]

theorem State.deliverPtp_inbox {s : State} {i : Fin 32} (n : Fin 16) (x : Int)
    (hoff : (s.slots[streamSrc i]).qstate ≠ .off) : ((s.deliverPtp i n x).slots[streamSrc i]).inbox
      = (s.slots[streamSrc i]).inbox ++ [s.delivered (x, false) none] := by
  rw [State.deliverPtp, State.deliver_inbox, State.offerSmp_delivered, State.offerSmp_slot]
  rw [State.offerSmp_slot]
  exact hoff

theorem State.deliverPtp_qstate (s : State) (i : Fin 32) (n : Fin 16) (x : Int) :
    ((s.deliverPtp i n x).slots[streamSrc i]).qstate = (s.slots[streamSrc i]).qstate := by
  rw [State.deliverPtp, State.deliver_qstate, State.offerSmp_slot]

end Sys2Proof.Machine

/-! PROOFS. What a window's close gives (R242, R263). -/

namespace Sys2Proof.Machine

/-! ## The lowest delays (R242) -/

theorem insertInt_eq_orderedInsert (x : Int) (l : List Int) : insertInt x l = l.orderedInsert (· ≤ ·) x := by
  induction l with
  | nil => rfl
  | cons y l ih =>
    rw [insertInt, List.orderedInsert_cons, ih]

theorem foldl_insertInt (l a : List Int) (ha : a.Pairwise (· ≤ ·)) :
    (l.foldl (fun a x => insertInt x a) a).Perm (l ++ a) ∧ (l.foldl (fun a x => insertInt x a) a).Pairwise (· ≤ ·) := by
  induction l generalizing a with
  | nil => exact ⟨.refl _, ha⟩
  | cons x l ih =>
    have hins : (insertInt x a).Pairwise (· ≤ ·) := by
      rw [insertInt_eq_orderedInsert]
      exact ha.orderedInsert x a
    obtain ⟨hperm, hsort⟩ := ih (insertInt x a) hins
    refine ⟨hperm.trans ?_, hsort⟩
    rw [insertInt_eq_orderedInsert]
    exact ((List.perm_orderedInsert (· ≤ ·) x a).append_left l).trans List.perm_middle

/-- The rising list of a window's delays. -/
theorem sortInts_of_sorted {l lf : List Int} (hperm : lf.Perm l) (hsort : lf.Pairwise (· ≤ ·)) : sortInts l = lf := by
  obtain ⟨hp, hs⟩ := foldl_insertInt l [] .nil
  rw [List.append_nil] at hp
  exact (hp.trans hperm.symm).eq_of_pairwise' hs hsort

/-- The delays that sel() takes, from the rising list. -/
theorem Stream.pick_of_sorted {t : Stream} {l lf : List Int} {k : Nat} (hperm : lf.Perm l) (hsort : lf.Pairwise (· ≤ ·))
    (hk : k = if t.selMode = 2 then 2 ^ Nat.min (bitsOf t.word 9 6) (Nat.min 16 (bitsOf t.word 14 10)) else 1) :
    t.pick l = ((lf.take k).sum, (lf.take k).length) := by
  rw [Stream.pick, sortInts_of_sorted hperm hsort, ← hk, List.sum_eq_foldl]

/-! ## A window's sample -/

/-- The sample that a PTP window gives, if it gives one (R242). -/
def State.windowSample (s : State) (i : Fin 32) : Option Int :=
  let t := s.streams[i]
  let p := (s.binding i).2.1
  let f := t.pick t.dfs
  let r := t.pick t.drs
  if t.selMode = 0 ∨ f.2 = 0 then none
  else if s.isP2p p then (s.ports[p]).mld.map (fun m => roundDiv ((m * f.2 - f.1) * 2 ^ 16) f.2)
  else if r.2 = 0 then none
  else some (roundDiv ((r.1 * f.2 - f.1 * r.2) * 2 ^ 15) (f.2 * r.2))

/-- The least delays of a window (R242). -/
def Stream.leasts (t : Stream) : Option (Int × Int) :=
  match sortInts t.dfs, sortInts t.drs with
  | a :: _, b :: _ => some (a, b)
  | _, _ => none

/-- The state in which a PTP window has given its sample. -/
def State.windowGiven (s : State) (i : Fin 32) : State :=
  match s.windowSample i with
  | some v => s.deliverPtp i (s.binding i).2.1 v
  | none => s

theorem State.closePtp_eq (s : State) (i : Fin 32) : s.closePtp i
    = ((s.windowGiven i).newWindow i true).modStream i (fun q => { q with lastD := (s.streams[i]).leasts }) :=
  rfl

/-! ## A window's close (R242, R263) -/

/-- The state in which a Reistica window has given its sample. -/
def State.meanGiven (s : State) (i : Fin 32) : State :=
  let t := s.streams[i]
  if t.selMode = 0 ∨ t.xs.isEmpty ∨ (s.ports[(s.binding i).2.1]).r.lstate ≠ .up then s
  else s.deliver i (roundDiv ((t.xs.map (·.1)).foldl (· + ·) 0) t.xs.length, t.xs.any (·.2)) t.label

theorem State.closeReist_eq (s : State) (i : Fin 32) : s.closeReist i = (s.meanGiven i).newWindow i true :=
  rfl

/-- A stream's window, closed. -/
def State.windowShut (s : State) (i : Fin 32) : State :=
  if (s.binding i).1 then s.closeReist i else s.closePtp i

theorem State.closeStream_of_complete {s : State} {i : Fin 32} (hopen : (s.streams[i]).open_ = true)
    (hfull : (s.streams[i]).winLen ≤ (s.streams[i]).cnt) :
    s.closeStream i = ((s.windowShut i).refreshStream i).refreshOrder (streamSrc i) := by
  have hcloses : ¬ ((s.streams[i]).open_ = false ∨ (s.streams[i]).cnt < (s.streams[i]).winLen) := by
    rintro (h | h)
    · exact ne_false_of_eq_true hopen h
    · omega
  exact if_neg hcloses

theorem State.closeStream_of_incomplete {s : State} {i : Fin 32} (h : (s.streams[i]).cnt < (s.streams[i]).winLen) :
    s.closeStream i = s :=
  if_pos (.inr h)

theorem State.deliver_stream (s : State) (i j : Fin 32) (e : Int × Bool) (label : Option (Int × Int)) :
    (s.deliver i e label).streams[j] = s.streams[j] := by
  rw [State.streams_of_val (State.deliver_val (by decide) ..)]

theorem State.modStream_slot (s : State) (i : Fin 32) (f : Stream → Stream) (src : Fin 96) :
    (s.modStream i f).slots[src] = s.slots[src] := by
  rw [State.slots_of_val (State.modStream_val (by decide) ..)]

theorem State.newWindow_slot (s : State) (i : Fin 32) (keepD : Bool) (src : Fin 96) :
    (s.newWindow i keepD).slots[src] = s.slots[src] := by
  rw [State.slots_of_val (State.newWindow_val (by decide) ..)]

theorem State.windowGiven_stream (s : State) (i j : Fin 32) : (s.windowGiven i).streams[j] = s.streams[j] := by
  unfold State.windowGiven
  cases s.windowSample i with
  | none => rfl
  | some v =>
    dsimp only
    rw [State.streams_of_val (State.deliverPtp_val (by decide) ..)]

theorem State.meanGiven_stream (s : State) (i j : Fin 32) : (s.meanGiven i).streams[j] = s.streams[j] := by
  unfold State.meanGiven
  extract_lets t
  split
  · rfl
  · exact s.deliver_stream ..

theorem State.windowGiven_qstate (s : State) (i : Fin 32) :
    ((s.windowGiven i).slots[streamSrc i]).qstate = (s.slots[streamSrc i]).qstate := by
  unfold State.windowGiven
  cases s.windowSample i with
  | none => rfl
  | some v => exact s.deliverPtp_qstate ..

theorem State.meanGiven_qstate (s : State) (i : Fin 32) :
    ((s.meanGiven i).slots[streamSrc i]).qstate = (s.slots[streamSrc i]).qstate := by
  unfold State.meanGiven
  extract_lets t
  split
  · rfl
  · exact s.deliver_qstate ..

theorem State.windowShut_reg (s : State) (i : Fin 32) (k : Nat) : (s.windowShut i).reg k = s.reg k := by
  rw [State.windowShut, State.reg_ite, State.reg_closeReist, State.reg_closePtp, ite_self]

theorem State.windowGiven_reg (s : State) (i : Fin 32) (k : Nat) : (s.windowGiven i).reg k = s.reg k := by
  unfold State.windowGiven
  cases s.windowSample i with
  | none => rfl
  | some v => exact State.reg_deliverPtp ..

theorem State.meanGiven_reg (s : State) (i : Fin 32) (k : Nat) : (s.meanGiven i).reg k = s.reg k := by
  rw [State.meanGiven, State.reg_ite, State.reg_deliver, ite_self]

/-- The stream of a window that has closed: still open, empty under the word as written. -/
theorem State.windowShut_stream (s : State) (i : Fin 32) : ∃ d, (s.windowShut i).streams[i]
    = { (s.streams[i]).emptied true (s.r .pte 0 (0x80 + 4 * i.val)) with lastD := d } := by
  unfold State.windowShut
  split
  · refine ⟨(s.streams[i]).lastD, ?_⟩
    rw [State.closeReist_eq, State.newWindow_same, State.meanGiven_stream, State.r, State.meanGiven_reg]
    rfl
  · refine ⟨(s.streams[i]).leasts, ?_⟩
    rw [State.closePtp_eq, State.modStream_same, State.newWindow_same, State.windowGiven_stream, State.r,
      State.windowGiven_reg]
    rfl

/-- A window's close leaves its source as the window's sample does. -/
theorem State.windowShut_slot_mean {s : State} {i : Fin 32} (hkind : (s.binding i).1 = true) (src : Fin 96) :
    (s.windowShut i).slots[src] = (s.meanGiven i).slots[src] := by
  rw [State.windowShut, if_pos hkind, State.closeReist_eq, State.newWindow_slot]

theorem State.windowShut_slot_ptp {s : State} {i : Fin 32} (hkind : (s.binding i).1 = false) (src : Fin 96) :
    (s.windowShut i).slots[src] = (s.windowGiven i).slots[src] := by
  rw [State.windowShut, if_neg (ne_true_of_eq_false hkind), State.closePtp_eq, State.modStream_slot, State.newWindow_slot]

theorem State.windowShut_qstate (s : State) (i : Fin 32) :
    ((s.windowShut i).slots[streamSrc i]).qstate = (s.slots[streamSrc i]).qstate := by
  cases hkind : (s.binding i).1
  · rw [State.windowShut_slot_ptp hkind, State.windowGiven_qstate]
  · rw [State.windowShut_slot_mean hkind, State.meanGiven_qstate]

/-- A window closed, its stream and its source: empty under the word as written; a word without EN closes the stream. -/
theorem State.closeStream_stream {s : State} {i : Fin 32} {w : Word} (hopen : (s.streams[i]).open_ = true)
    (hfull : (s.streams[i]).winLen ≤ (s.streams[i]).cnt) (hw : s.r .pte 0 (0x80 + 4 * i.val) = w) :
    ((s.closeStream i).streams[i]).empty w
      ∧ ((s.closeStream i).slots[streamSrc i]).inbox = ((s.windowShut i).slots[streamSrc i]).inbox
      ∧ (bitOf w 31 = false → ((s.closeStream i).streams[i]).open_ = false
        ∧ ((s.slots[streamSrc i]).qstate ≠ .off → ((s.closeStream i).slots[streamSrc i]).los = true)) := by
  obtain ⟨d, hshut⟩ := s.windowShut_stream i
  have hstill : ((s.windowShut i).streams[i]).open_ = true := (congrArg Stream.open_ hshut).trans hopen
  have hword : ((s.windowShut i).streams[i]).word = w := (congrArg Stream.word hshut).trans hw
  have hreg : (s.windowShut i).r .pte 0 (0x80 + 4 * i.val) = w := (s.windowShut_reg i _).trans hw
  have hempty : ((s.windowShut i).streams[i]).empty w := by
    rw [hshut]
    exact ⟨rfl, rfl, rfl, rfl, hw⟩
  have hoff := s.windowShut_qstate i
  rw [State.closeStream_of_complete hopen hfull]
  generalize s.windowShut i = u at hstill hword hreg hempty hoff ⊢
  rw [State.refreshOrder_stream, State.refreshOrder_inbox, State.refreshOrder_los]
  refine ⟨?_, State.refreshStream_inbox hstill, fun hbit => ?_⟩
  · rw [← hreg] at hempty ⊢
    exact State.refreshStream_empty hstill hempty
  · obtain ⟨hclosed, hlos⟩ := State.refreshStream_disabled hstill (hword.symm ▸ hbit)
    exact ⟨hclosed, fun h => hlos (hoff.symm ▸ h)⟩

/-! ## The clauses on a window's close -/

/-- A command that ends in a state, through a stream and its source. -/
theorem completes_stream {c : Instr} {s t : State} {i : Fin 32} {A : Stream → Prop} {B : Slot → Prop}
    (hc : exec c s = done s t) (hA : A (t.streams[i])) (hB : B (t.slots[streamSrc i])) :
    Completes c s (fun t => A (t.streams[i]) ∧ B (t.slots[streamSrc i])) :=
  completes_of_done hc ⟨hA, hB⟩

theorem exec_streamWindowClose {s : State} (i : Fin 32) (hup : s.coreUp = true) (hon : s.pteOn = true) :
    exec (.streamWindowClose i) s = done s (s.closeStream i) :=
  donePte_on (fun s => s.closeStream i) hup hon

/-- A Reistica window gives the rounded mean of its phase words (R263). -/
theorem State.meanGiven_inbox {s : State} {i : Fin 32} (hlink : (s.ports[(s.binding i).2.1]).r.lstate = .up)
    (hmode : (s.streams[i]).selMode ≠ 0) (hxs : (s.streams[i]).xs ≠ []) (hoff : (s.slots[streamSrc i]).qstate ≠ .off) :
    ((s.meanGiven i).slots[streamSrc i]).inbox = (s.slots[streamSrc i]).inbox ++ [s.delivered
      (roundDiv (((s.streams[i]).xs.map (·.1)).foldl (· + ·) 0) (s.streams[i]).xs.length, (s.streams[i]).xs.any (·.2))
      (s.streams[i]).label] := by
  have hgives : ¬ ((s.streams[i]).selMode = 0 ∨ (s.streams[i]).xs.isEmpty = true
      ∨ (s.ports[(s.binding i).2.1]).r.lstate ≠ .up) := by
    rintro (h | h | h)
    · exact hmode h
    · exact hxs (List.isEmpty_iff.mp h)
    · exact h hlink
  unfold State.meanGiven
  extract_lets t
  rw [if_neg hgives, State.deliver_inbox _ _ hoff]

/-- What a window's close leaves of the stream and of its source's LOS, and a Reistica window's sample. -/
theorem completes_windowClose {s : State} {i : Fin 32} {w : Word} (hup : s.coreUp = true) (hon : s.pteOn = true)
    (hopen : (s.streams[i]).open_ = true) (hfull : (s.streams[i]).winLen ≤ (s.streams[i]).cnt)
    (hw : s.r .pte 0 (0x80 + 4 * i.val) = w) : Completes (.streamWindowClose i) s (fun t =>
      ((t.streams[i]).empty w ∧ (bitOf w 31 = false → (t.streams[i]).open_ = false))
      ∧ ((t.slots[streamSrc i]).inbox = ((s.windowShut i).slots[streamSrc i]).inbox
        ∧ (bitOf w 31 = false → (s.slots[streamSrc i]).qstate ≠ .off → (t.slots[streamSrc i]).los = true))) := by
  obtain ⟨hempty, hinbox, hclose⟩ := State.closeStream_stream hopen hfull hw
  exact completes_stream (A := fun y => y.empty w ∧ (bitOf w 31 = false → y.open_ = false))
    (B := fun y => y.inbox = ((s.windowShut i).slots[streamSrc i]).inbox
      ∧ (bitOf w 31 = false → (s.slots[streamSrc i]).qstate ≠ .off → y.los = true))
    (exec_streamWindowClose i hup hon) ⟨hempty, fun h => (hclose h).1⟩ ⟨hinbox, fun h => (hclose h).2⟩

/-- The inbox alone. -/
theorem completes_windowInbox {s : State} {i : Fin 32} {l : List MonEv} (hup : s.coreUp = true) (hon : s.pteOn = true)
    (hopen : (s.streams[i]).open_ = true) (hfull : (s.streams[i]).winLen ≤ (s.streams[i]).cnt)
    (hl : ((s.windowShut i).slots[streamSrc i]).inbox = l) :
    Completes (.streamWindowClose i) s (fun t => (t.slots[streamSrc i]).inbox = l) :=
  (completes_windowClose hup hon hopen hfull rfl).imp fun _ ⟨_, hinbox, _⟩ => hinbox.trans hl

theorem State.windowShut_inbox_of_sample {s : State} {i : Fin 32} {x : Int} (hkind : (s.binding i).1 = false)
    (hx : s.windowSample i = some x) (hoff : (s.slots[streamSrc i]).qstate ≠ .off) :
    ((s.windowShut i).slots[streamSrc i]).inbox = (s.slots[streamSrc i]).inbox ++ [s.delivered (x, false) none] := by
  rw [State.windowShut_slot_ptp hkind, State.windowGiven, hx]
  exact State.deliverPtp_inbox _ x hoff

theorem State.windowShut_inbox_of_none {s : State} {i : Fin 32} (hkind : (s.binding i).1 = false)
    (hx : s.windowSample i = none) : ((s.windowShut i).slots[streamSrc i]).inbox = (s.slots[streamSrc i]).inbox := by
  rw [State.windowShut_slot_ptp hkind, State.windowGiven, hx]

section
variable {s : State} {i : Fin 32} {sf sr : Int} {nf nr : Nat} (hmode : (s.streams[i]).selMode ≠ 0)
  (hf : (s.streams[i]).pick (s.streams[i]).dfs = (sf, nf))
include hmode hf

/-- End to end, with both delays. -/
theorem State.windowSample_e2e (hr : (s.streams[i]).pick (s.streams[i]).drs = (sr, nr)) (hnf : nf ≠ 0)
    (hp2p : s.isP2p (s.binding i).2.1 = false) (hnr : nr ≠ 0) :
    s.windowSample i = some (roundDiv ((sr * nf - sf * nr) * 2 ^ 15) (nf * nr)) := by
  simp only [State.windowSample, hf, hr, hmode, hnf, hp2p, hnr, or_self, if_false, Bool.false_eq_true]

/-- Peer to peer, with the port's mean link delay. -/
theorem State.windowSample_p2p {m : Int} (hnf : nf ≠ 0) (hp2p : s.isP2p (s.binding i).2.1 = true)
    (hm : (s.ports[(s.binding i).2.1]).mld = some m) :
    s.windowSample i = some (roundDiv ((m * nf - sf) * 2 ^ 16) nf) := by
  simp only [State.windowSample, hf, hmode, hnf, hp2p, hm, or_self, if_false, if_true, Option.map_some]

/-- A delay is missing. -/
theorem State.windowSample_none (hr : (s.streams[i]).pick (s.streams[i]).drs = (sr, nr))
    (h : nf = 0 ∨ (s.isP2p (s.binding i).2.1 = false ∧ nr = 0)
    ∨ (s.isP2p (s.binding i).2.1 = true ∧ (s.ports[(s.binding i).2.1]).mld = none)) : s.windowSample i = none := by
  rcases h with hnf | ⟨hp2p, hnr⟩ | ⟨hp2p, hm⟩
  · simp only [State.windowSample, hf, hnf, or_true, if_true]
  · simp only [State.windowSample, hf, hr, hmode, hp2p, hnr, false_or, Bool.false_eq_true, if_false, if_true, ite_self]
  · simp only [State.windowSample, hf, hmode, hp2p, hm, false_or, if_true, Option.map_none, ite_self]

end

theorem State.withUnits_fm (s : State) (v : Vector StatUnit 32) : State.fm { s with units := v } = s.fm :=
  rfl

theorem State.offerSmp_fm (s : State) (kind index : Nat) (x : Int) (unw gap : Bool) :
    (s.offerSmp kind index x unw gap).fm = s.fm := by
  unfold State.offerSmp
  exact State.withUnits_fm ..

theorem State.deliver_fm (s : State) (i : Fin 32) (e : Int × Bool) (label : Option (Int × Int)) :
    (s.deliver i e label).fm = s.fm := by
  unfold State.deliver
  extract_lets src x
  split
  · rfl
  · rfl

theorem State.windowGiven_fm (s : State) (i : Fin 32) : (s.windowGiven i).fm = s.fm := by
  unfold State.windowGiven
  cases s.windowSample i with
  | none => rfl
  | some v =>
    dsimp only
    rw [State.deliverPtp, State.deliver_fm, State.offerSmp_fm]

/-- A PTP stream is wanted by its word, its port and its session. -/
theorem State.streamWanted_congr {s t : State} {i : Fin 32} (hkind : (s.binding i).1 = false)
    (hword : (t.streams[i]).word = (s.streams[i]).word) (hport : ∀ n, t.ptpUp n = s.ptpUp n)
    (hsess : t.sessions = s.sessions) : t.streamWanted i = s.streamWanted i := by
  have hbind : t.binding i = s.binding i := congrArg bindingOf hword
  have hfind : ∀ n id, t.sess n id = s.sess n id := fun n id => by rw [State.sess, State.sess, hsess]
  rw [State.streamWanted, State.streamWanted, hbind, hword]
  generalize s.binding i = b at hkind ⊢
  obtain ⟨kind, n, id⟩ := b
  subst hkind
  dsimp only
  simp only [hport, hfind, Bool.false_eq_true, if_false]

/-- A window's close does not move what a PTP stream is wanted by, where the word stands. -/
theorem State.streamWanted_shut {s : State} {i : Fin 32} (hkind : (s.binding i).1 = false)
    (hword : (s.streams[i]).word = s.r .pte 0 (0x80 + 4 * i.val)) : (s.windowShut i).streamWanted i = s.streamWanted i := by
  obtain ⟨d, hshut⟩ := s.windowShut_stream i
  have hptp : s.windowShut i = s.closePtp i := if_neg (ne_true_of_eq_false hkind)
  have hval : ∀ p : Part, p ≠ .slots ∧ p ≠ .streams ∧ p ≠ .units → (s.windowShut i).val p = s.val p := fun p hp => by
    rw [hptp, State.closePtp_val hp]
  have hports := State.ports_of_val (hval .ports (by decide))
  have hboot : (s.windowShut i).boot = s.boot := hval .boot (by decide)
  have hsess : (s.windowShut i).sessions = s.sessions := hval .sessions (by decide)
  have hfm : (s.windowShut i).fm = s.fm := by
    rw [hptp, State.closePtp_eq, State.modStream_fm, State.newWindow, State.modStream_fm, State.windowGiven_fm]
  refine State.streamWanted_congr hkind ((congrArg Stream.word hshut).trans hword.symm) (fun n => ?_) hsess
  exact State.ptpUp_congr (State.pcfg_congr hfm hboot (s.windowShut_reg i _)) (by rw [hports])

/-- The least delays stay for the next window where the stream stays open under the same word (R242). -/
theorem State.closeStream_lastD {s : State} {i : Fin 32} (hopen : (s.streams[i]).open_ = true)
    (hfull : (s.streams[i]).winLen ≤ (s.streams[i]).cnt) (hkind : (s.binding i).1 = false)
    (hword : (s.streams[i]).word = s.r .pte 0 (0x80 + 4 * i.val)) (hwanted : s.streamWanted i = true) :
    ((s.closeStream i).streams[i]).lastD = (s.streams[i]).leasts := by
  obtain ⟨d, hshut⟩ := s.windowShut_stream i
  have hstill : ((s.windowShut i).streams[i]).open_ = true := (congrArg Stream.open_ hshut).trans hopen
  rw [State.closeStream_of_complete hopen hfull, State.refreshOrder_stream, State.refreshStream_open hstill,
    State.streamWanted_shut hkind hword, if_pos hwanted, State.windowShut, if_neg (ne_true_of_eq_false hkind),
    State.closePtp_eq, State.modStream_same]

/-- Both lists of delays begin with their least. -/
theorem Stream.leasts_of_sorted {t : Stream} {lf lr : List Int} {a b : Int} (hpf : lf.Perm t.dfs) (hsf : lf.Pairwise (· ≤ ·))
    (hpr : lr.Perm t.drs) (hsr : lr.Pairwise (· ≤ ·)) (ha : lf.head? = some a) (hb : lr.head? = some b) :
    t.leasts = some (a, b) := by
  obtain ⟨f, rfl⟩ := List.head?_eq_some_iff.mp ha
  obtain ⟨r, rfl⟩ := List.head?_eq_some_iff.mp hb
  rw [Stream.leasts, sortInts_of_sorted hpf hsf, sortInts_of_sorted hpr hsr]

/-- The clause on a window's close, whatever the stream's kind. -/
theorem streamWindowClose_any {s : State} {i : Fin 32} (hup : s.coreUp = true) (hon : s.pteOn = true)
    (hopen : (s.streams[i]).open_ = true) (hfull : (s.streams[i]).winLen ≤ (s.streams[i]).cnt) :
    Completes (.streamWindowClose i) s (fun t => (t.streams[i]).cnt = 0 ∧ (t.streams[i]).dfs = [] ∧ (t.streams[i]).drs = []
        ∧ (t.streams[i]).xs = [] ∧ (t.streams[i]).word = s.r .pte 0 (0x80 + 4 * i.val)
        ∧ ((s.binding i).1 = true → (s.ports[(s.binding i).2.1]).r.lstate = .up → (s.streams[i]).selMode ≠ 0 →
            (s.streams[i]).xs ≠ [] → (s.slots[streamSrc i]).qstate ≠ .off →
            (t.slots[streamSrc i]).inbox = (s.slots[streamSrc i]).inbox ++ [s.delivered
              (roundDiv (((s.streams[i]).xs.map (·.1)).foldl (· + ·) 0) (s.streams[i]).xs.length, (s.streams[i]).xs.any (·.2))
              (s.streams[i]).label])
        ∧ ((s.r .pte 0 (0x80 + 4 * i.val)).getLsbD 31 = false → (t.streams[i]).open_ = false
          ∧ ((s.slots[streamSrc i]).qstate ≠ .off → (t.slots[streamSrc i]).los = true))) := by
  refine (completes_windowClose hup hon hopen hfull rfl).imp ?_
  intro t ⟨⟨⟨hcnt, hdfs, hdrs, hxs, hword⟩, hclose⟩, hinbox, hlos⟩
  refine ⟨hcnt, hdfs, hdrs, hxs, hword, fun hkind hlink hmode hsome hoff => ?_, fun hbit => ⟨hclose hbit, hlos hbit⟩⟩
  rw [hinbox, State.windowShut_slot_mean hkind, State.meanGiven_inbox hlink hmode hsome hoff]

end Sys2Proof.Machine

/-! PROOFS. The delay of a Sync at the streams of its session (R142, R242). -/

namespace Sys2Proof.Machine

/-! ## Which streams a message moves -/

theorem State.windowShut_other (s : State) {i j : Fin 32} (h : i ≠ j) : (s.windowShut i).streams[j] = s.streams[j] := by
  cases hkind : (s.binding i).1
  · rw [State.windowShut, if_neg (ne_true_of_eq_false hkind), State.closePtp_eq, State.modStream_other _ _ h,
      State.newWindow_other _ _ h, State.windowGiven_stream]
  · rw [State.windowShut, if_pos hkind, State.closeReist_eq, State.newWindow_other _ _ h, State.meanGiven_stream]

theorem State.closeStream_other (s : State) {i j : Fin 32} (h : i ≠ j) : (s.closeStream i).streams[j] = s.streams[j] := by
  by_cases hfull : (s.streams[i]).winLen ≤ (s.streams[i]).cnt
  · cases hopen : (s.streams[i]).open_
    · rw [show s.closeStream i = s from if_pos (.inl hopen)]
    · rw [State.closeStream_of_complete hopen hfull, State.refreshOrder_stream, State.refreshStream_other _ h,
        State.windowShut_other s h]
  · rw [State.closeStream_of_incomplete (Nat.lt_of_not_le hfull)]

/-- A sweep over the streams in which none moves stream `i`, as it is. -/
theorem State.overFin_stream {x : Stream} {i : Fin 32} {f : Fin 32 → State → State}
    (hf : ∀ j v, v.streams[i] = x → (f j v).streams[i] = x) {s : State} (hs : s.streams[i] = x) :
    (overFin 32 s f).streams[i] = x := by
  have hfold : ∀ (l : List (Fin 32)) (v : State), v.streams[i] = x → (l.foldl (fun s j => f j s) v).streams[i] = x := by
    intro l
    induction l with
    | nil => exact fun v hv => hv
    | cons j l ih => exact fun v hv => ih _ (hf j v hv)
  exact hfold _ s hs

/-- What closes before a message leaves a stream whose window is not complete. -/
theorem State.closeBefore_stream {s : State} {i : Fin 32} (b : Bool × Fin 16 × Nat)
    (h : (s.streams[i]).cnt < (s.streams[i]).winLen) : (s.closeBefore b).streams[i] = s.streams[i] := by
  refine State.overFin_stream (x := s.streams[i]) (fun j v hv => ?_) rfl
  split
  · by_cases hj : j = i
    · subst hj
      rw [State.closeStream_of_incomplete (by rw [hv]; exact h), hv]
    · rw [State.closeStream_other v hj, hv]
  · exact hv

/-- A fold that changes stream `i` at `i` alone, over a list that names it once. -/
theorem State.foldl_stream {f : State → Fin 32 → State} {g : Stream → Stream} {i : Fin 32}
    (hsame : ∀ v, (f v i).streams[i] = g v.streams[i]) (hother : ∀ v j, j ≠ i → (f v j).streams[i] = v.streams[i])
    {l : List (Fin 32)} (hnodup : l.Nodup) (hi : i ∈ l) (s : State) : (l.foldl f s).streams[i] = g s.streams[i] := by
  have hrest : ∀ (l : List (Fin 32)), i ∉ l → ∀ v : State, (l.foldl f v).streams[i] = v.streams[i] := by
    intro l
    induction l with
    | nil => exact fun _ _ => rfl
    | cons j l ih =>
      intro hl v
      obtain ⟨hj, hl⟩ := not_or.mp (mt List.mem_cons.mpr hl)
      rw [List.foldl_cons, ih hl, hother v j (Ne.symm hj)]
  induction l generalizing s with
  | nil => exact absurd hi List.not_mem_nil
  | cons j l ih =>
    obtain ⟨hj, hnd⟩ := List.nodup_cons.mp hnodup
    rw [List.foldl_cons]
    by_cases h : j = i
    · subst h
      rw [hrest l hj, hsame]
    · rw [ih hnd ((List.mem_cons.mp hi).resolve_left (Ne.symm h)), hother s j h]

/-! ## The delay -/

/-- A stream with one more forward delay. -/
def Stream.withDf (t : Stream) (df : Int) : Stream :=
  { t with dfs := t.dfs ++ [df], cnt := t.cnt + 1 }

theorem State.deliverPtp_stream (s : State) (i j : Fin 32) (n : Fin 16) (x : Int) :
    (s.deliverPtp i n x).streams[j] = s.streams[j] := by
  rw [State.streams_of_val (State.deliverPtp_val (by decide) ..)]

theorem State.modSlot_stream (s : State) (src : Fin 96) (f : Slot → Slot) (j : Fin 32) :
    (s.modSlot src f).streams[j] = s.streams[j] := by
  rw [State.streams_of_val (State.modSlot_val (by decide) ..)]

/-- The sample that one forward delay gives a stream whose window selects none (R242). -/
def State.dfSampled (s : State) (i : Fin 32) (n : Fin 16) (df : Int) : State :=
  if (s.streams[i]).selMode ≠ 0 then s
  else if s.isP2p n then
    match (s.ports[n]).mld with
    | some m => s.deliverPtp i n ((m - df) * 2 ^ 16)
    | none => s
  else match (s.streams[i]).lastD with
    | some (a, b) => s.deliverPtp i n ((a + b - 2 * df) * 2 ^ 15)
    | none => s

theorem State.dfSampled_stream (s : State) (i j : Fin 32) (n : Fin 16) (df : Int) :
    (s.dfSampled i n df).streams[j] = s.streams[j] := by
  unfold State.dfSampled
  split
  · rfl
  · split
    · split
      · exact State.deliverPtp_stream ..
      · rfl
    · split
      · exact State.deliverPtp_stream ..
      · rfl

/-- The forward delay of a Sync enters each open stream of its session, its window not complete. -/
theorem State.offerDf_stream {s : State} {i : Fin 32} {n : Fin 16} {id : Nat} (t1 t2 cf : Int) (ptp : Bool)
    (hopen : (s.streams[i]).open_ = true) (hbind : s.binding i = (false, n, id))
    (hpart : (s.streams[i]).cnt < (s.streams[i]).winLen) :
    (s.offerDf n id t1 t2 cf ptp).streams[i] = (s.streams[i]).withDf (t2 - t1 - cf) := by
  have hbefore := State.closeBefore_stream (false, n, id) hpart
  unfold State.offerDf
  extract_lets u df
  have hu : u.streams[i] = s.streams[i] := hbefore
  clear_value u
  have hmem : i ∈ u.boundTo (false, n, id) := by
    have hbound : u.binding i = (false, n, id) := by
      rw [State.binding, hu]
      exact hbind
    simp only [State.boundTo, List.mem_filter, List.mem_finRange, true_and, hu, hopen, hbound, decide_true, Bool.and_self]
  have hnodup : (u.boundTo (false, n, id)).Nodup := (List.nodup_finRange 32).filter _
  rw [← hu]
  refine State.foldl_stream (g := fun t => t.withDf df) (fun v => ?_) (fun v j hj => ?_) hnodup hmem u
  · extract_lets t w x src
    have hw : w.streams[i] = v.streams[i] := v.dfSampled_stream i i n df
    clear_value w
    have hx : x.streams[i] = (v.streams[i]).withDf df := by
      rw [← hw]
      exact State.modStream_same ..
    clear_value x
    split
    · rw [State.modSlot_stream, hx]
    · exact hx
  · extract_lets t w x src
    have hw : w.streams[i] = v.streams[i] := v.dfSampled_stream j i n df
    clear_value w
    have hx : x.streams[i] = v.streams[i] := (State.modStream_other w _ hj).trans hw
    clear_value x
    split
    · rw [State.modSlot_stream, hx]
    · exact hx

end Sys2Proof.Machine

/-! SUPPORT. PROOFS. Sessions that end, what a port hears of ESMC, and its queue of transmit stamps (R82, R237, R243, R246). -/

namespace Sys2Proof.Machine

/-! ## Sessions that end (R243) -/

theorem State.parentLost_idle {s : State} {n : Fin 16} {id : BitVec 9} (h : (s.sessOr n id).active = false) :
    s.parentLost n id = s :=
  if_pos h

/-- A parent that is lost: its record, with nothing pending. -/
theorem State.parentLost_sess {s : State} {n : Fin 16} {id : BitVec 9} (h : (s.sessOr n id).active = true) :
    (s.parentLost n id).sessOr n id = { s.sessOr n id with active := false, pendSync := none, pendReq := none } := by
  obtain ⟨hport, hid⟩ := s.sessOr_own n id
  unfold State.parentLost
  extract_lets x u v
  rw [if_neg (ne_false_of_eq_true h)]
  have hv : v.val .sessions = u.val .sessions := by
    refine State.val_overFin (fun i w => ?_) u
    exact State.modInst_val (by decide) ..
  have hlast : (v.refreshStreams.sessNotice n id 0x46).val .sessions = u.val .sessions := by
    rw [State.sessNotice, State.raise_val, State.refreshStreams_val (by decide), hv]
  rw [State.sessOr_of_val hlast]
  exact State.sessOr_putSess hport hid

/-- A record stored by the lapse of a grant. -/
theorem State.lapsed_sess {s : State} {n : Fin 16} {id : BitVec 9} {y : Sess} (hport : y.port = n) (hid : y.id = id) :
    ((s.putSess y).refreshStreams.sessNotice n id 0x45).sessOr n id = y := by
  obtain ⟨hsess, -⟩ := State.putSess_refresh (s := s) hport hid
  rw [State.sessNotice, State.sessOr_of_val (State.raise_val ..), hsess]

theorem State.grantLapse_slave {s : State} {n : Fin 16} {id : BitVec 9} (h : (s.sessOr n id).granted = true) :
    (s.grantLapse n id .slave).sessOr n id = { s.sessOr n id with granted := false } := by
  obtain ⟨hport, hid⟩ := s.sessOr_own n id
  have hstep : s.grantLapse n id .slave
      = (s.putSess { s.sessOr n id with granted := false }).refreshStreams.sessNotice n id 0x45 := if_pos h
  rw [hstep]
  exact State.lapsed_sess hport hid

theorem Sess.setServes_own (x : Sess) (k : Grant) (on : Bool) :
    (x.setServes k on).port = x.port ∧ (x.setServes k on).id = x.id ∧ (x.setServes k on).serves k = on := by
  cases k
  · exact ⟨rfl, rfl, rfl⟩
  · exact ⟨rfl, rfl, rfl⟩
  · exact ⟨rfl, rfl, rfl⟩

theorem State.grantLapse_master {s : State} {n : Fin 16} {id : BitVec 9} {k : Grant} (h : (s.sessOr n id).serves k = true) :
    (s.grantLapse n id (.master k)).sessOr n id = (s.sessOr n id).setServes k false := by
  obtain ⟨hport, hid⟩ := s.sessOr_own n id
  obtain ⟨hsport, hsid, -⟩ := (s.sessOr n id).setServes_own k false
  have hstep : s.grantLapse n id (.master k)
      = (s.putSess ((s.sessOr n id).setServes k false)).refreshStreams.sessNotice n id 0x45 := if_pos h
  rw [hstep, State.lapsed_sess (hsport.trans hport) (hsid.trans hid)]

/-! ## What a port hears (R82, R237) -/

theorem State.modPort_same (s : State) (n : Fin 16) (f : Port → Port) : (s.modPort n f).ports[n] = f s.ports[n] :=
  Vector.getElem_set_self _

/-- The ESMC of a port's partner: its code, whether it has failed, whether it is valid and since when. -/
def Port.heard (q : Port) : BitVec 4 × Bool × Bool × DWord := (q.qlRx, q.qlFailed, q.esmcValid, q.esmcAt)

/-- The same of a port among the ports. -/
def heardAt (v : Vector Port 16) (n : Fin 16) : BitVec 4 × Bool × Bool × DWord := (v[n]).heard

@[simp] abbrev State.heard (s : State) (n : Fin 16) : BitVec 4 × Bool × Bool × DWord := heardAt (s.val .ports) n

theorem State.heard_eq (s : State) (n : Fin 16) : s.heard n = (s.ports[n]).heard := rfl

theorem State.heard_of_val {s t : State} (h : s.val .ports = t.val .ports) (n : Fin 16) : s.heard n = t.heard n :=
  congrArg (fun v => heardAt v n) h

theorem State.modPort_heard {f : Port → Port} (hf : ∀ q, (f q).heard = q.heard) (s : State) (m n : Fin 16) :
    (s.modPort m f).heard n = s.heard n := by
  rw [State.heard_eq, State.heard_eq]
  by_cases h : m = n
  · subst h
    rw [State.modPort_same, hf]
  · simp [State.modPort, Fin.val_ne_of_ne h]

/-- What a port sends is no part of what it hears. -/
theorem State.qlRefreshPort_heard (s : State) (m n : Fin 16) : (s.qlRefreshPort m).heard n = s.heard n := by
  unfold State.qlRefreshPort
  generalize s.qlCode m = code
  obtain ⟨ssm, essm⟩ := code
  extract_lets p
  dsimp -zeta only
  extract_lets u v
  have hu : u.heard n = s.heard n := by
    refine State.modPort_heard ?_ s m n
    exact fun _ => rfl
  have hlast : (v.raise (0x0500 + 4 * m.val + 1) clsA 0x44 (args8 [byte p.qlTx.toNat, byte ssm])).heard n = s.heard n := by
    rw [State.heard_of_val (State.raise_val ..), State.heard_of_val (State.emit_val ..), hu]
  split
  · rfl
  · split
    · rfl
    · exact hlast

theorem State.qlRefresh_heard (s : State) (n : Fin 16) : s.qlRefresh.heard n = s.heard n := by
  unfold State.qlRefresh overFin
  induction List.finRange 16 generalizing s with
  | nil => rfl
  | cons m l ih => rw [List.foldl_cons, ih, State.qlRefreshPort_heard]

theorem State.refreshOrder_heard (s : State) (src : Fin 96) (n : Fin 16) : (s.refreshOrder src).heard n = s.heard n := by
  unfold State.refreshOrder
  generalize s.orderOf src = om
  obtain ⟨o, mm⟩ := om
  extract_lets x
  dsimp -zeta only
  extract_lets u v
  have hu : u.val .ports = s.val .ports := State.modSlot_val (by decide) ..
  have hv : v.val .ports = s.val .ports := (State.modSlot_val (by decide) ..).trans hu
  split
  · exact State.heard_of_val hu n
  · rw [State.qlRefresh_heard, State.heard_of_val (State.sourceChanged_val (by decide) ..),
      State.heard_of_val (State.qualNotice_val ..), State.heard_of_val hv]

/-- An ESMC PDU is heard (R82): an information PDU makes it valid, from now on. -/
theorem State.rxEsmc_heard {s : State} {n : Fin 16} (ssm : BitVec 4) (essm : Option Essm) (info : Bool)
    (hon : s.esmcOn n = true) (hlink : (s.ports[n]).link = true) : (s.rxEsmc n ssm essm info).heard n
      = (ssm, false, (s.ports[n]).esmcValid || info, if info then s.tick else (s.ports[n]).esmcAt) := by
  have hhears : ¬ (s.esmcOn n = false ∨ (s.ports[n]).link = false) := by
    rintro (h | h)
    · exact ne_false_of_eq_true hon h
    · exact ne_false_of_eq_true hlink h
  unfold State.rxEsmc
  extract_lets interp u
  rw [if_neg hhears, State.qlRefresh_heard, State.refreshOrder_heard, State.heard_eq, State.modPort_same]
  rfl

/-- ESMC fails where nothing valid has been heard for 5 s (R82). -/
theorem State.qlFails_heard {s : State} {n : Fin 16} (hfresh : (s.ports[n]).qlFailed = false)
    (hpast : s.passed (s.ports[n]).esmcAt (5 * secTicks) = true) :
    (s.qlFails n).heard n = ((s.ports[n]).qlRx, true, false, (s.ports[n]).esmcAt) := by
  have hfails : ¬ ((s.ports[n]).qlFailed = true ∨ s.passed (s.ports[n]).esmcAt (5 * secTicks) = false) := by
    rintro (h | h)
    · exact ne_true_of_eq_false hfresh h
    · exact ne_false_of_eq_true hpast h
  unfold State.qlFails
  extract_lets p u src
  have hu : u.heard n = ((s.ports[n]).qlRx, true, false, (s.ports[n]).esmcAt) := by
    rw [State.heard_eq, State.modPort_same]
    rfl
  clear_value u
  rw [if_neg hfails]
  split
  · rw [State.qlRefresh_heard, State.heard_of_val (State.raise_val ..), State.refreshOrder_heard, hu]
  · exact hu

/-- A command that ends in a state, through a port. -/
theorem completes_portOf {c : Instr} {s t : State} {n : Fin 16} {A : Port → Prop} (hc : exec c s = done s t)
    (hA : A (t.ports[n])) : Completes c s (fun t => A (t.ports[n])) :=
  completes_of_done hc hA

theorem completes_esmcPduRx {s : State} {n : Fin 16} (ssm : BitVec 4) (essm : Option Essm) (info : Bool)
    (hup : s.coreUp = true) (hpte : s.pteOn = true) (hon : s.esmcOn n = true) (hlink : (s.ports[n]).link = true) :
    Completes (.esmcPduRx n ssm essm info) s (fun t => (t.ports[n]).heard
      = (ssm, false, (s.ports[n]).esmcValid || info, if info then s.tick else (s.ports[n]).esmcAt)) :=
  completes_portOf (A := fun q => q.heard = _) (donePte_on (fun s => s.rxEsmc n ssm essm info) hup hpte)
    (State.rxEsmc_heard ssm essm info hon hlink)

theorem completes_qlFailed {s : State} {n : Fin 16} (hup : s.coreUp = true) (hfresh : (s.ports[n]).qlFailed = false)
    (hpast : s.passed (s.ports[n]).esmcAt (5 * secTicks) = true) : Completes (.qlFailed n) s (fun t =>
      (t.ports[n]).heard = ((s.ports[n]).qlRx, true, false, (s.ports[n]).esmcAt)) :=
  completes_portOf (A := fun q => q.heard = _) (doneCore_up s (fun s => s.qlFails n) hup) (State.qlFails_heard hfresh hpast)

/-- A command that ends with an information PDU sent: it carries what the port sends. -/
theorem completes_info {c : Instr} {s u : State} {n : Fin 16}
    (hc : exec c s = done s (u.emit (.port n (.esmc false (u.ports[n]).qlTx (u.essmTlv n (u.ports[n]).essmTx.toNat))))) :
    Completes c s (fun t => t.emitted.head?
      = some (.port n (.esmc false (t.ports[n]).qlTx (t.essmTlv n (t.ports[n]).essmTx.toNat)))) :=
  completes_of_done hc rfl

theorem State.txEsmc_sends {s : State} {n : Fin 16} (hon : s.esmcOn n = true) (hlink : (s.ports[n]).link = true) :
    s.txEsmc n = (s.qlRefreshPort n).emit (.port n (.esmc false ((s.qlRefreshPort n).ports[n]).qlTx
      ((s.qlRefreshPort n).essmTlv n ((s.qlRefreshPort n).ports[n]).essmTx.toNat))) := by
  have hsends : ¬ (s.esmcOn n = false ∨ (s.ports[n]).link = false) := by
    rintro (h | h)
    · exact ne_false_of_eq_true hon h
    · exact ne_false_of_eq_true hlink h
  exact if_neg hsends

theorem completes_esmcInfoTx {s : State} {n : Fin 16} (hup : s.coreUp = true) (hpte : s.pteOn = true)
    (hon : s.esmcOn n = true) (hlink : (s.ports[n]).link = true) : Completes (.esmcInfoTx n) s (fun t =>
      t.emitted.head? = some (.port n (.esmc false (t.ports[n]).qlTx (t.essmTlv n (t.ports[n]).essmTx.toNat)))) :=
  completes_info ((donePte_on (fun s => s.txEsmc n) hup hpte).trans (congrArg (done s) (State.txEsmc_sends hon hlink)))

end Sys2Proof.Machine

/-! PROOFS. The transmit timestamp queue (R246), and O23. -/

namespace Sys2Proof.Machine

/-! ## The transmit timestamp queue (R246) -/

theorem txqPop_place : ∀ n : Fin 16, placeOf (key .port n.val 0x18) = some ⟨.port, n.val, 0x18⟩
    ∧ (⟨.port, n.val, 0x18⟩ : Place).listed = true ∧ (⟨.port, n.val, 0x18⟩ : Place).wideAt = none
    ∧ (⟨.port, n.val, 0x18⟩ : Place).guard = 0 ∧ (⟨.port, n.val, 0x18⟩ : Place).reg.cmdk = 0
    ∧ ∀ k, (⟨.port, n.val, 0x18⟩ : Place).commands k = 0xFFFF := by
  decide

/-- TXQ_POP compares the low half of the word. -/
theorem State.txqPopped_low (s : State) (p : Path) (n : Fin 16) (v : Word) :
    s.txqPopped p n (v &&& 0xFFFF) = s.txqPopped p n v := by
  have hlow : (v &&& 0xFFFF).setWidth 16 = v.setWidth 16 := by
    have hones : (0xFFFF : Word).setWidth 16 = BitVec.allOnes 16 := by decide
    rw [BitVec.setWidth_and, hones, BitVec.and_allOnes]
  rw [State.txqPopped, State.txqPopped, hlow]

/-- Every path's write of TXQ_POP is judged by the queue. -/
theorem exec_txqPop {s : State} {p : Path} {n : Fin 16} (v : Word) (hr : s.reaches p .port n.val 0x18 = true) :
    exec (.txqPop p n v) s = done s (s.txqPopped p n v) := by
  simp only [State.reaches, Bool.and_eq_true, Bool.not_eq_true'] at hr
  obtain ⟨⟨hc, he⟩, hd⟩ := hr
  obtain ⟨hplace, hlisted, hwide, hguard, hcmdk, hcommands⟩ := txqPop_place n
  have htrips : (⟨.port, n.val, 0x18⟩ : Place).trips 0xFFFFFFFF v = false := by
    simp [Place.trips, hguard, hcmdk]
  have hwrite := State.placeWrite_eq_writeAt (p := p) (fw := none) hlisted hd (.inr htrips) hwide
    (.inr (by rw [hcommands]; decide))
  refine (regAccess_eq v hc he hplace rfl).trans (congrArg (done s) (hwrite.trans ?_))
  rw [hcommands, ← State.txqPopped_low]
  simp only [State.writeAt, State.writePort, finMod_val]

theorem exec_txqPop_taken {s : State} {p : Path} {n : Fin 16} {v : Word} {e : TxqEntry} {rest : List TxqEntry}
    (hr : s.reaches p .port n.val 0x18 = true) (hq : (s.ports[n]).txq = e :: rest)
    (hown : p = ownerPath (s.rf .port n.val 0x14 1 0)) (hid : e.id = v.setWidth 16) :
    exec (.txqPop p n v) s = .next (s.modPort n (fun q => { q with txq := rest })) := by
  have hup : s.coreUp = true := State.coreUp_of_reaches hr
  have hpop : s.txqPopped p n v = s.modPort n (fun q => { q with txq := rest }) := by
    rw [State.txqPopped, hq]
    exact if_pos ⟨hown, hid⟩
  rw [exec_txqPop v hr, hpop]
  exact done_eq_next rfl rfl rfl rfl hup

/-- A write that is refused is counted. -/
theorem exec_txqPop_counted {s : State} {p : Path} {n : Fin 16} {v : Word} (hr : s.reaches p .port n.val 0x18 = true)
    (h : ∀ e rest, (s.ports[n]).txq = e :: rest → ¬ (p = ownerPath (s.rf .port n.val 0x14 1 0) ∧ e.id = v.setWidth 16)) :
    exec (.txqPop p n v) s = .next (s.count .port n.val 0x1C 31 16) := by
  have hup : s.coreUp = true := State.coreUp_of_reaches hr
  have hcount : s.txqPopped p n v = s.count .port n.val 0x1C 31 16 := by
    rw [State.txqPopped]
    cases hq : (s.ports[n]).txq with
    | nil => rfl
    | cons e rest => exact if_neg (h e rest hq)
  rw [exec_txqPop v hr, hcount]
  exact done_eq_next rfl rfl rfl rfl hup

section
variable {s : State} {n : Fin 16} (hup : s.coreUp = true) (hpte : s.pteOn = true) (hptp : s.ptpUp n = true)
include hup hpte hptp

theorem exec_txqStamp (id seq : BitVec 16) (mt : BitVec 4) (dom : Byte) (tb : Edge) (var : Nat) :
    exec (.txqStamp n id seq mt dom tb var) s = done s (s.txqPut n id seq mt dom tb var) :=
  (donePte_on (fun s => if s.ptpUp n then s.txqPut n id seq mt dom tb var else s) hup hpte).trans
    (congrArg (done s) (if_pos hptp))

theorem exec_txqStamp_queued (id seq : BitVec 16) (mt : BitVec 4) (dom : Byte) (tb : Edge) (var : Nat)
    (hroom : (s.ports[n]).txq.length < 16) : exec (.txqStamp n id seq mt dom tb var) s = .next (s.modPort n (fun p => { p with
      txq := p.txq ++ [⟨id, seq, mt, dom, p.txqLoss, !s.warm, stampOf16 (s.frameStamp n true tb var)⟩], txqLoss := false })) := by
  have hsame : s.txqPut n id seq mt dom tb var = s.modPort n (fun p => { p with
      txq := p.txq ++ [⟨id, seq, mt, dom, p.txqLoss, !s.warm, stampOf16 (s.frameStamp n true tb var)⟩],
      txqLoss := false }) := if_neg (Nat.not_le.mpr hroom)
  rw [exec_txqStamp hup hpte hptp, hsame]
  exact done_eq_next rfl rfl rfl rfl hup

end

/-- A command that ends in a state, through a port and its counters. -/
theorem completes_portCount {c : Instr} {s t : State} {n : Fin 16} {A : Port → Prop} {B : Word → Prop}
    (hc : exec c s = done s t) (hA : A (t.ports[n])) (hB : B (t.r .port n.val 0x1C)) :
    Completes c s (fun t => A (t.ports[n]) ∧ B (t.r .port n.val 0x1C)) :=
  completes_of_done hc ⟨hA, hB⟩

theorem txqCount_not_notice : ∀ n : Fin 16, key .port n.val 0x1C ∉ noticeKeys := by
  decide

/-- A stamp for which there is no room is counted, and the next entry says so. -/
theorem completes_txqStamp_full {s : State} {n : Fin 16} (hup : s.coreUp = true) (hpte : s.pteOn = true)
    (hptp : s.ptpUp n = true) (id seq : BitVec 16) (mt : BitVec 4) (dom : Byte) (tb : Edge) (var : Nat)
    (hfull : 16 ≤ (s.ports[n]).txq.length) : Completes (.txqStamp n id seq mt dom tb var) s (fun t =>
      ((t.ports[n]).txq = (s.ports[n]).txq ∧ (t.ports[n]).txqLoss = true)
      ∧ bitsOf (t.r .port n.val 0x1C) 15 0 = satAdd 16 (s.rf .port n.val 0x1C 15 0) 1) := by
  generalize hu : s.modPort n (fun p => { p with txqLoss := true }) = u
  have hport : (u.ports[n]).txq = (s.ports[n]).txq ∧ (u.ports[n]).txqLoss = true := by
    rw [← hu, State.modPort_same]
    exact ⟨rfl, rfl⟩
  have hold : u.rf .port n.val 0x1C 15 0 = s.rf .port n.val 0x1C 15 0 := by
    rw [← hu]
    exact State.rf_of_regs rfl ..
  obtain ⟨id', cls, code, args, hput⟩ : ∃ id' cls code args, s.txqPut n id seq mt dom tb var
      = (u.count .port n.val 0x1C 15 0).raise id' cls code args :=
    ⟨_, _, _, _, (if_pos hfull).trans (by rw [← hu])⟩
  have hcount : bitsOf ((u.count .port n.val 0x1C 15 0).r .port n.val 0x1C) 15 0 = satAdd 16 (u.rf .port n.val 0x1C 15 0) 1 :=
    State.rf_count_low u .port n.val 0x1C 1 (hi := 15) (by decide)
  refine completes_portCount (A := fun q => q.txq = (s.ports[n]).txq ∧ q.txqLoss = true)
    (B := fun w => bitsOf w 15 0 = satAdd 16 (s.rf .port n.val 0x1C 15 0) 1)
    ((exec_txqStamp hup hpte hptp id seq mt dom tb var).trans (congrArg (done s) hput)) ?_ ?_
  · rw [State.ports_of_val (State.raise_val ..)]
    exact hport
  · rw [State.r, State.reg_raise (txqCount_not_notice n), ← State.r, hcount, hold]

/-! ## The statement -/

/-- The clause on a PTP window that selects its delays, from the rising lists. -/
theorem streamWindowClose_selected {s : State} {i : Fin 32} {lf lr : List Int} {k nf nr : Nat} {sf sr : Int}
    (hup : s.coreUp = true) (hpte : s.pteOn = true) (hopen : (s.streams[i]).open_ = true)
    (hfull : (s.streams[i]).winLen ≤ (s.streams[i]).cnt) (hkind : (s.binding i).1 = false)
    (hmode : (s.streams[i]).selMode ≠ 0) (hpf : lf.Perm (s.streams[i]).dfs) (hsf : lf.Pairwise (· ≤ ·))
    (hpr : lr.Perm (s.streams[i]).drs) (hsr : lr.Pairwise (· ≤ ·))
    (hk : k = (if (s.streams[i]).selMode = 2 then
      2 ^ Nat.min (bitsOf (s.streams[i]).word 9 6) (Nat.min 16 (bitsOf (s.streams[i]).word 14 10)) else 1))
    (hsumf : sf = (lf.take k).sum) (hnf : nf = (lf.take k).length) (hsumr : sr = (lr.take k).sum)
    (hnr : nr = (lr.take k).length) (hoff : (s.slots[streamSrc i]).qstate ≠ .off) :
    (nf ≠ 0 → s.isP2p (s.binding i).2.1 = false → nr ≠ 0 → Completes (.streamWindowClose i) s (fun t =>
        (t.slots[streamSrc i]).inbox = (s.slots[streamSrc i]).inbox
          ++ [s.delivered (roundDiv ((sr * nf - sf * nr) * 2 ^ 15) (nf * nr), false) none]))
      ∧ (∀ m, nf ≠ 0 → s.isP2p (s.binding i).2.1 = true → (s.ports[(s.binding i).2.1]).mld = some m →
        Completes (.streamWindowClose i) s (fun t => (t.slots[streamSrc i]).inbox = (s.slots[streamSrc i]).inbox
          ++ [s.delivered (roundDiv ((m * nf - sf) * 2 ^ 16) nf, false) none]))
      ∧ (nf = 0 ∨ (s.isP2p (s.binding i).2.1 = false ∧ nr = 0)
          ∨ (s.isP2p (s.binding i).2.1 = true ∧ (s.ports[(s.binding i).2.1]).mld = none) →
        Completes (.streamWindowClose i) s (fun t => (t.slots[streamSrc i]).inbox = (s.slots[streamSrc i]).inbox))
      ∧ (∀ a b, lf.head? = some a → lr.head? = some b → (s.streams[i]).word = s.r .pte 0 (0x80 + 4 * i.val) →
        s.streamWanted i = true → Completes (.streamWindowClose i) s (fun t => (t.streams[i]).lastD = some (a, b))) := by
  have hf : (s.streams[i]).pick (s.streams[i]).dfs = (sf, nf) := by
    rw [Stream.pick_of_sorted hpf hsf hk, hsumf, hnf]
  have hr : (s.streams[i]).pick (s.streams[i]).drs = (sr, nr) := by
    rw [Stream.pick_of_sorted hpr hsr hk, hsumr, hnr]
  refine ⟨fun hsome hp2p hback => ?_, fun m hsome hp2p hm => ?_, fun hmissing => ?_, fun a b ha hb hword hwanted => ?_⟩
  · exact completes_windowInbox hup hpte hopen hfull
      (State.windowShut_inbox_of_sample hkind (State.windowSample_e2e hmode hf hr hsome hp2p hback) hoff)
  · exact completes_windowInbox hup hpte hopen hfull
      (State.windowShut_inbox_of_sample hkind (State.windowSample_p2p hmode hf hsome hp2p hm) hoff)
  · exact completes_windowInbox hup hpte hopen hfull
      (State.windowShut_inbox_of_none hkind (State.windowSample_none hmode hf hr hmissing))
  · have hlast : ((s.closeStream i).streams[i]).lastD = some (a, b) :=
      (State.closeStream_lastD hopen hfull hkind hword hwanted).trans (Stream.leasts_of_sorted hpf hsf hpr hsr ha hb)
    exact (completes_stream (A := fun y => y.lastD = some (a, b)) (B := fun _ => True)
      (exec_streamWindowClose i hup hpte) hlast trivial).imp fun _ h => h.1

/-- The forward delay of a two-step Sync, complete with its Follow_Up (R242). -/
theorem State.syncDone_stream {s : State} {i : Fin 32} {n : Fin 16} {id : Nat} (t1 : Stamp) (t2 : Int) {cf1 cf2 : Int}
    (ptp : Bool) (rate : Int) (h1 : cf1 ≠ cfMax) (h2 : cf2 ≠ cfMax) (hopen : (s.streams[i]).open_ = true)
    (hbind : s.binding i = (false, n, id)) (hpart : (s.streams[i]).cnt < (s.streams[i]).winLen) :
    (s.syncDone n id t1 t2 cf1 cf2 ptp rate).streams[i]
      = (s.streams[i]).withDf (t2 - stamp16 (ptpTime t1) - (cf1 + cf2)) := by
  have hkeep : decide (cf1 = cfMax ∨ cf2 = cfMax) = false := decide_eq_false (not_or.mpr ⟨h1, h2⟩)
  unfold State.syncDone
  extract_lets excluded u
  have hu : u = s.offerDf n id (stamp16 (ptpTime t1)) t2 (cf1 + cf2) ptp := if_neg (by
    rw [show excluded = false from hkeep]
    decide)
  rw [State.streams_of_val (State.keepRelay_val (by decide) ..), hu, State.offerDf_stream _ _ _ _ hopen hbind hpart]

theorem completes_followUpRx {s : State} {n : Fin 16} {id : BitVec 9} {seq : BitVec 16} {tl : PtpTail} {t2 cf1 : Int}
    {ptp : Bool} {i : Fin 32} (t1 : Stamp) (rate : BitVec 32) (hup : s.coreUp = true) (hpte : s.pteOn = true)
    (hlink : s.ptpUp n = true) (hauth : tl.auth = false) (hclean : s.sessClean n id = true)
    (hpend : (s.sessOr n id).pendSync = some (seq, t2, cf1, ptp)) (h1 : cf1 ≠ cfMax) (h2 : tl.cf.toInt ≠ cfMax)
    (hopen : (s.streams[i]).open_ = true) (hbind : s.binding i = (false, n, id.toNat))
    (hpart : (s.streams[i]).cnt < (s.streams[i]).winLen) : Completes (.followUpRx n id seq t1 rate tl) s (fun t =>
      t.streams[i] = (s.streams[i]).withDf (t2 - stamp16 (ptpTime t1) - (cf1 + tl.cf.toInt))) := by
  have hexec := sessMessage_taken (f := fun s => s.rxFollowUp n id seq t1 tl.cf rate)
    (c := .followUpRx n id seq t1 rate tl) hup hpte hlink rfl hauth hclean
  have hstep := State.rxFollowUp_match (s := s.count .pte 0 4 31 0 tl.others) t1 tl.cf rate hpend
  refine (completes_stream (A := fun y => y = _) (B := fun _ => True)
    (hexec.trans (congrArg (done s) hstep)) ?_ trivial).imp fun _ h => h.1
  exact State.syncDone_stream (s := (s.count .pte 0 4 31 0 tl.others).putSess ((s.count .pte 0 4 31 0 tl.others).sessOr n id).unsynced)
    t1 t2 ptp rate.toInt h1 h2 hopen hbind hpart

/-- Settles O23: a window's close by its sample and by what the next window begins with, a Follow_Up by the delay that enters
each window of its session, the rest by the record, the port or the queue that a command leaves. -/
theorem sessionsStreamsAndQueues : Obligations.SessionsStreamsAndQueues := by
  unfold Obligations.SessionsStreamsAndQueues
  refine ⟨?close, ?selected, ?followUp, ?sessions, ?esmcRx, ?esmcTx, ?qlFailed, ?stamp, ?pop⟩
  case close =>
    intro s i hup hpte hopen hfull
    exact streamWindowClose_any hup hpte hopen hfull
  case selected =>
    intro s i lf lr k nf nr sf sr hup hpte hopen hfull hkind hmode hpf hsf hpr hsr hk hsumf hnf hsumr hnr hoff
    exact streamWindowClose_selected hup hpte hopen hfull hkind hmode hpf hsf hpr hsr hk hsumf hnf hsumr hnr hoff
  case followUp =>
    intro s n id seq t1 rate tl t2 cf1 ptp i hup hpte hlink hauth hclean hpend h1 h2 hopen hbind hpart
    refine (completes_followUpRx t1 rate hup hpte hlink hauth hclean hpend h1 h2 hopen hbind hpart).imp fun t ht => ?_
    rw [ht]
    exact ⟨rfl, rfl, rfl⟩
  case sessions =>
    intro s n id hup hpte
    refine ⟨fun hactive => ?_, fun hidle => ?_, fun k hserves => ?_, fun hgranted => ?_⟩
    · exact completes_sess (A := fun x => x = _) (donePte_on (fun s => s.parentLost n id) hup hpte) rfl
        (State.parentLost_sess hactive)
    · refine (donePte_on (fun s => s.parentLost n id) hup hpte).trans ?_
      rw [State.parentLost_idle hidle]
      exact done_eq_next rfl rfl rfl rfl hup
    · obtain ⟨-, -, hlapsed⟩ := (s.sessOr n id).setServes_own k false
      have hrecord := State.grantLapse_master hserves
      exact completes_sess (A := fun x => x = (s.sessOr n id).setServes k false ∧ x.serves k = false)
        (donePte_on (fun s => s.grantLapse n id (.master k)) hup hpte) rfl ⟨hrecord, by rw [hrecord, hlapsed]⟩
    · exact completes_sess (A := fun x => x = _) (donePte_on (fun s => s.grantLapse n id .slave) hup hpte) rfl
        (State.grantLapse_slave hgranted)
  case esmcRx =>
    intro s n ssm essm info hup hpte hon hlink
    refine (completes_esmcPduRx ssm essm info hup hpte hon hlink).imp fun t ht => ?_
    simp only [Port.heard, Prod.mk.injEq] at ht
    obtain ⟨hql, hfailed, hvalid, hat⟩ := ht
    refine ⟨hql, hfailed, ?_, ?_⟩
    · rintro rfl
      exact ⟨hvalid.trans (Bool.or_true _), hat⟩
    · rintro rfl
      exact ⟨hvalid.trans (Bool.or_false _), hat⟩
  case esmcTx =>
    intro s n hup hpte hon hlink
    exact completes_esmcInfoTx hup hpte hon hlink
  case qlFailed =>
    intro s n hup hfresh hpast
    refine (completes_qlFailed hup hfresh hpast).imp fun t ht => ?_
    simp only [Port.heard, Prod.mk.injEq] at ht
    obtain ⟨-, hfailed, hvalid, -⟩ := ht
    exact ⟨hfailed, hvalid⟩
  case stamp =>
    intro s n id seq mt dom tb var hup hpte hptp
    refine ⟨exec_txqStamp_queued hup hpte hptp id seq mt dom tb var, fun hfull => ?_⟩
    exact (completes_txqStamp_full hup hpte hptp id seq mt dom tb var hfull).imp fun t ⟨⟨hq, hloss⟩, hcount⟩ =>
      ⟨hq, hloss, hcount⟩
  case pop =>
    intro s p n v hr
    refine ⟨fun e rest hq hown hid => exec_txqPop_taken hr hq hown hid, fun e rest hq hrefused => ?_, fun hempty => ?_⟩
    · refine exec_txqPop_counted hr fun e' rest' hq' => ?_
      obtain ⟨rfl, -⟩ := List.cons.inj (hq.symm.trans hq')
      exact hrefused
    · exact exec_txqPop_counted hr fun e rest hq => absurd (hempty.symm.trans hq) nofun

end Sys2Proof.Machine

/-! SUPPORT. PROOFS. The Nimyor's control flow: conditions, targets, the return stack, HALT (R298, R304). -/

namespace Sys2Proof.Machine

/-! ## Conditions and targets (R298, R304) -/

/-- The conditions of R298 with the value of each under the flags. -/
def conditions (z n cy v q l : Bool) : List (BitVec 4 × Bool) :=
  [(0, true), (1, z), (2, !z), (3, n != v), (4, n == v), (5, z || n != v), (6, !z && n == v), (7, cy), (8, !cy), (9, n),
    (10, !n), (11, v), (12, !v), (13, q), (14, l)]

theorem Cpu.cond_of_flags {c : Cpu} {z n cy v q l : Bool} (hf : c.f = fWord z n cy v q l) {e : BitVec 4 × Bool}
    (he : e ∈ conditions z n cy v q l) : c.cond e.1 = some e.2 := by
  obtain ⟨hz, hn, hc, hv, hq, hl⟩ := Cpu.flags_of_f hf
  revert e
  simp only [conditions, Cpu.cond, hz, hn, hc, hv, hq, hl, List.forall_mem_cons]
  simp

/-- A target inside the code. -/
theorem Cpu.target_inside {c : Cpu} {codeW k : Nat} {off : BitVec 20} (hk : (k : Int) = (c.pc : Int) + off.toInt)
    (hlt : k < codeW) : c.target codeW off = some k := by
  simp [Cpu.target, ← hk, hlt]

/-- A target below 0 or past the code is none. -/
theorem Cpu.target_outside {c : Cpu} {codeW : Nat} {off : BitVec 20}
    (h : (c.pc : Int) + off.toInt < 0 ∨ (codeW : Int) ≤ (c.pc : Int) + off.toInt) : c.target codeW off = none :=
  if_neg (by omega)

/-! ## Branches, calls and returns on the registers -/

section
variable {c : Cpu} {codeW : Nat} {k : BitVec 4} {off : BitVec 20}

theorem opB_skips (h : c.cond k = some false) : opB codeW k off c = .ok { c with pc := c.pc + 1 } := by
  simp only [opB, h]
  rfl

theorem opCall_skips (h : c.cond k = some false) : opCall codeW k off c = .ok { c with pc := c.pc + 1 } := by
  simp only [opCall, h]
  rfl

theorem opB_jumps {t : Nat} (h : c.cond k = some true) (ht : c.target codeW off = some t) :
    opB codeW k off c = .ok { c with pc := t } := by
  simp only [opB, h, ht]

theorem opCall_calls {t : Nat} (h : c.cond k = some true) (ht : c.target codeW off = some t) (hroom : c.stack.length < 16) :
    opCall codeW k off c = .ok { c with pc := t, stack := (c.pc + 1) :: c.stack } := by
  simp only [opCall, h, ht, if_neg (Nat.not_le.2 hroom)]

theorem opCall_full {t : Nat} (h : c.cond k = some true) (ht : c.target codeW off = some t) (hfull : 16 ≤ c.stack.length) :
    opCall codeW k off c = .error causeStack := by
  simp only [opCall, h, ht, if_pos hfull]

theorem opB_outside (h : c.cond k = some true) (ht : c.target codeW off = none) : opB codeW k off c = .error causeFetch := by
  simp only [opB, h, ht]

theorem opCall_outside (h : c.cond k = some true) (ht : c.target codeW off = none) :
    opCall codeW k off c = .error causeFetch := by
  simp only [opCall, h, ht]

end

theorem opRet_returns {c : Cpu} {codeW k : Nat} {r : List Nat} (h : c.stack = k :: r) (hk : k < codeW) :
    opRet codeW c = .ok { c with pc := k, stack := r } := by
  simp only [opRet, h, if_neg (Nat.not_le.2 hk)]

theorem opRet_empty {c : Cpu} {codeW : Nat} (h : c.stack = []) : opRet codeW c = .error causeStack := by
  simp only [opRet, h]

theorem opBr_jumps {c : Cpu} {codeW : Nat} {ra : Fin 32} (hfield : c.g[ra].toNat < 2 ^ 14) (hcode : c.g[ra].toNat < codeW) :
    opBr codeW ra c = .ok { c with pc := c.g[ra].toNat } :=
  if_neg (not_or.2 ⟨Nat.not_le.2 hfield, Nat.not_le.2 hcode⟩)

theorem opBr_outside {c : Cpu} {codeW : Nat} {ra : Fin 32} (h : codeW ≤ c.g[ra].toNat) :
    opBr codeW ra c = .error causeFetch :=
  if_pos (.inr h)

/-! ## The instructions on a target -/

/-- An instruction of the common set whose operation takes the length of the target's code. -/
theorem runs_of_tgtOp {s : State} {t : Tgt} {i : Instr} {op : Nat → Cpu → NRes} {c d : Cpu} (h : s.runsOn t = true)
    (hc : s.cpuOf t = c) (hexec : exec i s = doneCore s fun s => s.tgtOp t (op (s.tgtCode t)))
    (hop : op (s.tgtCode t) c = .ok d) : Runs s t i d := by
  subst hc
  have hup := State.coreUp_of_runsOn h
  rw [Runs, hexec, doneCore_up s _ hup, ← doneCore_tgtOp h hop, doneCore_up s _ hup]

/-- The same on an engine, where the operation faults. -/
theorem engineFaults_of_tgtOp {s : State} {t : Tgt} {e : Fin 8} {i : Instr} {op : Nat → Cpu → NRes} {c : Cpu} {cause : Byte}
    (h : s.runsOn t = true) (hc : s.cpuOf t = c) (ht : t = .eng e)
    (hexec : exec i s = doneCore s fun s => s.tgtOp t (op (s.tgtCode t)))
    (hop : op (s.tgtCode t) c = .error cause) : EngineFaults s e i cause := by
  subst hc ht
  exact engineFaults_of_op h hexec hop

section
variable {s : State} {t : Tgt} {c : Cpu} (hrun : s.runsOn t = true) (hc : s.cpuOf t = c)
include hrun hc

/-- A branch and a call whose condition is false go on to the next word. -/
theorem condition_fails {k : BitVec 4} (hk : c.cond k = some false) (off : BitVec 20) :
    Runs s t (.b t k off) { c with pc := c.pc + 1 } ∧ Runs s t (.call t k off) { c with pc := c.pc + 1 } :=
  ⟨runs_of_tgtOp (op := fun w => opB w k off) hrun hc rfl (opB_skips hk),
    runs_of_tgtOp (op := fun w => opCall w k off) hrun hc rfl (opCall_skips hk)⟩

/-- Where the condition holds and the target lies in the code, a branch goes there, and a call too, with its return
address on the stack; a full stack faults. -/
theorem condition_holds {k : BitVec 4} (hk : c.cond k = some true) {off : BitVec 20} {x : Nat}
    (hx : c.target (s.tgtCode t) off = some x) : Runs s t (.b t k off) { c with pc := x }
      ∧ (c.stack.length < 16 → Runs s t (.call t k off) { c with pc := x, stack := (c.pc + 1) :: c.stack })
      ∧ (∀ g, t = .eng g → 16 ≤ c.stack.length → EngineFaults s g (.call t k off) causeStack) :=
  ⟨runs_of_tgtOp (op := fun w => opB w k off) hrun hc rfl (opB_jumps hk hx),
    fun hroom => runs_of_tgtOp (op := fun w => opCall w k off) hrun hc rfl (opCall_calls hk hx hroom),
    fun _ ht hfull => engineFaults_of_tgtOp (op := fun w => opCall w k off) hrun hc ht rfl (opCall_full hk hx hfull)⟩

/-- Where the condition holds and the target lies outside the code, both fault. -/
theorem target_faults {k : BitVec 4} (hk : c.cond k = some true) {off : BitVec 20}
    (hx : c.target (s.tgtCode t) off = none) {g : Fin 8} (ht : t = .eng g) :
    EngineFaults s g (.b t k off) causeFetch ∧ EngineFaults s g (.call t k off) causeFetch :=
  ⟨engineFaults_of_tgtOp (op := fun w => opB w k off) hrun hc ht rfl (opB_outside hk hx),
    engineFaults_of_tgtOp (op := fun w => opCall w k off) hrun hc ht rfl (opCall_outside hk hx)⟩

/-- RET takes the return address from the stack; an empty stack faults. -/
theorem return_completes : (∀ k r, c.stack = k :: r → k < s.tgtCode t → Runs s t (.ret t) { c with pc := k, stack := r })
    ∧ (∀ g, t = .eng g → c.stack = [] → EngineFaults s g (.ret t) causeStack) :=
  ⟨fun _ _ hstack hk => runs_of_tgtOp hrun hc rfl (opRet_returns hstack hk),
    fun _ ht hstack => engineFaults_of_tgtOp hrun hc ht rfl (opRet_empty hstack)⟩

end

/-- BR goes to the word in its register; one past the code faults. -/
theorem branchRegister_completes {s : State} {e : Fin 8} (ra : Fin 32) (hrun : s.runsOn (.eng e) = true) :
    ((s.engines[e]).cpu.g[ra].toNat < 2 ^ 14 → (s.engines[e]).cpu.g[ra].toNat < (s.engines[e]).codeW →
        Runs s (.eng e) (.br e ra) { (s.engines[e]).cpu with pc := (s.engines[e]).cpu.g[ra].toNat })
      ∧ ((s.engines[e]).codeW ≤ (s.engines[e]).cpu.g[ra].toNat → EngineFaults s e (.br e ra) causeFetch) :=
  ⟨fun hfield hcode => runs_of_stateOp (op := fun s => opBr (s.engines[e]).codeW ra) hrun rfl rfl (opBr_jumps hfield hcode),
    fun hout => engineFaults_of_op (op := fun s => opBr (s.engines[e]).codeW ra) hrun rfl (opBr_outside hout)⟩

theorem exec_halt {s : State} {e : Fin 8} (hrun : s.runsOn (.eng e) = true) :
    exec (.halt e) s = .next (s.modEng e (fun g =>
      { g with run := .halted, pcReg := g.cpu.pc, cpu := { g.cpu with pc := g.cpu.pc + 1 } })) :=
  (doneCore_engIssue (g := fun s => s.engHalt e) hrun rfl).trans (done_modEng e _ (State.coreUp_of_runsOn hrun))

end Sys2Proof.Machine

/-! PROOFS. STOP of a loop program (R94, R132, R276), and O33. -/

namespace Sys2Proof.Machine

/-! ## Loops -/

theorem State.modLoop_same (s : State) (n : Fin 16) (f : Loop → Loop) : (s.modLoop n f).loops[n] = f s.loops[n] := by
  simp [State.modLoop]

theorem State.modLoop_modLoop (s : State) (n : Fin 16) (f g : Loop → Loop) :
    (s.modLoop n f).modLoop n g = s.modLoop n (fun l => g (f l)) := by
  simp [State.modLoop]

theorem State.modLoop_congr {s : State} {n : Fin 16} {f g : Loop → Loop} (h : f s.loops[n] = g s.loops[n]) :
    s.modLoop n f = s.modLoop n g := by
  rw [State.modLoop, State.modLoop, h]

theorem done_modLoop {s : State} (n : Fin 16) (f : Loop → Loop) (h : s.coreUp = true) :
    done s (s.modLoop n f) = .next (s.modLoop n f) :=
  done_eq_next rfl rfl rfl rfl h

/-- An event stands in every copy of an RC word (R325). -/
theorem State.rcWord_rcSet (s : State) (b : Block) (i o : Nat) (m : Word) {v : Nat} (hv : v < 4) :
    (s.rcSet b i o m).rcWord (key b i o) v = s.rcWord (key b i o) v ||| m := by
  simp only [State.rcSet, State.rcAll, State.rcWord, rcKey, List.foldl]
  interval_cases v <;> simp [mapGet_mapSet_same, mapGet_mapSet_other]

/-! ## STOP (R94, R132) -/

/-- STOP with an output: the output stage takes it, in holdover it keeps its word. -/
theorem State.loopStop_output {s : State} {n : Fin 16} {f : Int} (h : (s.loops[n]).out = some f) :
    s.loopStop n = s.modLoop n (fun y => { y with
      out := none, fp := if (s.loops[n]).code.holds then y.fp else f, cpu := { y.cpu with pc := 0, stack := [] } }) := by
  simp only [State.loopStop, h]
  cases (s.loops[n]).code.holds with
  | true => rfl
  | false => simp only [Bool.false_eq_true, if_false, State.modLoop_modLoop]

/-- STOP without one leaves the output stage's word, and NO_OUT is set. -/
theorem State.loopStop_noOutput {s : State} {n : Fin 16} (h : (s.loops[n]).out = none) :
    s.loopStop n = (s.modLoop n (fun y => { y with out := none, cpu := { y.cpu with pc := 0, stack := [] } })).rcSet
      .loop n.val 0x08 0x20 := by
  simp only [State.loopStop, h]

theorem exec_stop {s : State} {n : Fin 16} (hrun : s.runsOn (.loop n) = true) :
    exec (.stop n) s = done s (s.loopStop n) := by
  refine (doneCore_up s (fun s => s.loopIssue n fun s => s.loopStop n) (State.coreUp_of_runsOn hrun)).trans ?_
  rw [State.loopIssue_of_runsOn _ hrun]

theorem bitOf_or_noOut (w : Word) : bitOf (w ||| 0x20) 5 = true := by
  simp [bitOf]

theorem completes_stop_noOutput {s : State} {n : Fin 16} (hrun : s.runsOn (.loop n) = true)
    (hout : (s.loops[n]).out = none) :
    Completes (.stop n) s (fun t => (t.loops[n]).fp = (s.loops[n]).fp ∧ (t.loops[n]).cpu.pc = 0 ∧ (t.loops[n]).cpu.stack = []
      ∧ ∀ v < 4, bitOf (t.rcWord (key .loop n.val 0x08) v) 5 = true) := by
  have hexec := (exec_stop hrun).trans (congrArg (done s) (State.loopStop_noOutput hout))
  have hloop := s.modLoop_same n (fun y => { y with out := none, cpu := { y.cpu with pc := 0, stack := [] } })
  generalize s.modLoop n (fun y => { y with out := none, cpu := { y.cpu with pc := 0, stack := [] } }) = u at hexec hloop
  have hfp : (u.loops[n]).fp = (s.loops[n]).fp := by rw [hloop]
  have hcpu : (u.loops[n]).cpu = { (s.loops[n]).cpu with pc := 0, stack := [] } := by rw [hloop]
  refine completes_of_done hexec ⟨hfp, congrArg (·.pc) hcpu, congrArg (·.stack) hcpu, fun v hv => ?_⟩
  exact (congrArg (bitOf · 5) (State.rcWord_rcSet u .loop n.val 0x08 0x20 hv)).trans (bitOf_or_noOut _)

/-- Settles O33: a branch and a call by their condition, target and stack, RET by its stack, BR by its register, STOP by
whether the program has given an output. -/
theorem nimyorControlFlow : Obligations.NimyorControlFlow := by
  unfold Obligations.NimyorControlFlow
  refine ⟨fun s t c off z n cy v q l hrun hc hf e he => ?_, fun s t c hrun hc => return_completes hrun hc, ?_,
    fun s e hrun => exec_halt hrun, fun s n hrun => ⟨fun f hout => ?_, fun hout => completes_stop_noOutput hrun hout⟩⟩
  · have hcond : c.cond e.1 = some e.2 := Cpu.cond_of_flags hf he
    refine ⟨fun hfalse => condition_fails hrun hc (hfalse ▸ hcond) off,
      fun k htrue hk hlt => condition_holds hrun hc (htrue ▸ hcond) (Cpu.target_inside hk hlt),
      fun g ht htrue hout => target_faults hrun hc (htrue ▸ hcond) (Cpu.target_outside hout) ht⟩
  · rintro s e ra k hrun rfl
    exact branchRegister_completes ra hrun
  · rw [exec_stop hrun, State.loopStop_output hout]
    exact done_modLoop n _ (State.coreUp_of_runsOn hrun)

end Sys2Proof.Machine

/-! SUPPORT. PROOFS. A loop's bars, its transaction and FREE_RUN (R105, R107, R121). -/

namespace Sys2Proof.Machine

/-! ## One loop among the loops -/

theorem State.modLoop_other (s : State) {i j : Fin 16} (f : Loop → Loop) (h : i ≠ j) :
    (s.modLoop i f).loops[j] = s.loops[j] :=
  Vector.getElem_set_ne i.isLt j.isLt fun he => h (Fin.ext he)

theorem State.loops_of_val {s t : State} (h : s.val .loops = t.val .loops) : s.loops = t.loops := h

theorem twinOf_ne : ∀ n : Fin 16, twinOf n ≠ n := by
  decide

theorem twinOf_twinOf : ∀ n : Fin 16, twinOf (twinOf n) = n := by
  decide

theorem State.govern_congr {s t : State} {n : Fin 16} (hrole : (t.loops[n]).role = (s.loops[n]).role)
    (hwas : (t.loops[n]).wasStandby = (s.loops[n]).wasStandby) : t.govern n = s.govern n := by
  rw [State.govern, State.govern, hrole, hwas]

/-- Only a loop itself and its twin run under its registers. -/
theorem State.eq_or_twin_of_govern {s : State} {m n : Fin 16} (h : s.govern m = n) : m = n ∨ m = twinOf n := by
  unfold State.govern at h
  split at h
  · exact .inr (h ▸ (twinOf_twinOf m).symm)
  · exact .inl h

/-! ## Bars (R107) -/

/-- The bars of a set of sources go in loop n and in the loop that runs under its registers, and in no other. -/
theorem State.clearBars_bars (s : State) (n : Fin 16) (b : BitVec 96) (m : Fin 16) :
    ((s.clearBars n b).loops[m]).bars
      = if m = n ∨ s.govern m = n then (s.loops[m]).bars &&& ~~~b else (s.loops[m]).bars := by
  have hne := twinOf_ne n
  unfold State.clearBars
  extract_lets clear
  have hown : clear s n = s.modLoop n (fun l => { l with bars := l.bars &&& ~~~b }) := if_pos (.inl rfl)
  rw [hown]
  generalize hu : s.modLoop n (fun l => { l with bars := l.bars &&& ~~~b }) = u
  have hsame : (u.loops[n]).bars = (s.loops[n]).bars &&& ~~~b := by rw [← hu, State.modLoop_same]
  have hother : ∀ k, k ≠ n → u.loops[k] = s.loops[k] := fun k hk => by rw [← hu, State.modLoop_other _ _ hk.symm]
  have htwin : clear u (twinOf n) = if s.govern (twinOf n) = n
      then u.modLoop (twinOf n) (fun l => { l with bars := l.bars &&& ~~~b }) else u := by
    have hgov : u.govern (twinOf n) = s.govern (twinOf n) :=
      State.govern_congr (congrArg Loop.role (hother _ hne)) (congrArg Loop.wasStandby (hother _ hne))
    simp only [clear, hne, hgov, false_or]
  rw [htwin]
  rcases eq_or_ne m n with rfl | hmn
  · simp only [true_or, if_true]
    split
    · rw [State.modLoop_other _ _ hne, hsame]
    · exact hsame
  · rcases eq_or_ne m (twinOf n) with rfl | hmt
    · simp only [hmn, false_or]
      split
      · rw [State.modLoop_same, hother _ hmn]
      · rw [hother _ hmn]
    · have hfree : ¬ (m = n ∨ s.govern m = n) := by
        rintro (h | h)
        · exact hmn h
        · exact (State.eq_or_twin_of_govern h).elim hmn hmt
      rw [if_neg hfree]
      split
      · rw [State.modLoop_other _ _ hmt.symm, hother _ hmn]
      · rw [hother _ hmn]

/-! ## What a transaction's end decides (R121) -/

/-- A loop's role, PBO, transaction, evaluation due and held candidate writes. -/
def Loop.switching (l : Loop) : TwinRole × Int × Option Sw × Option SelReason × List (Fin 16 × Word) :=
  (l.role, l.pbo, l.sw, l.evalDue, l.candHeld)

/-- The same of a loop of a state. -/
abbrev State.switching (s : State) (n : Fin 16) : TwinRole × Int × Option Sw × Option SelReason × List (Fin 16 × Word) :=
  (s.loops[n]).switching

theorem State.switching_ite (c : Prop) [Decidable c] (a b : State) (n : Fin 16) :
    (if c then a else b).switching n = if c then a.switching n else b.switching n :=
  apply_ite (fun s => s.switching n) c a b

theorem State.modLoop_switching {f : Loop → Loop} (hf : ∀ l, (f l).switching = l.switching) (s : State) (m n : Fin 16) :
    (s.modLoop m f).switching n = s.switching n := by
  rcases eq_or_ne m n with rfl | h
  · rw [State.switching, State.modLoop_same, hf]
  · rw [State.switching, State.modLoop_other s f h]

theorem State.clearBars_switching (s : State) (n : Fin 16) (b : BitVec 96) (m : Fin 16) :
    (s.clearBars n b).switching m = s.switching m := by
  have hbars : ∀ (u : State) (x : Fin 16), (u.modLoop x fun l => { l with bars := l.bars &&& ~~~b }).switching m
      = u.switching m := fun u x => State.modLoop_switching (by intro; rfl) u x m
  simp only [State.clearBars, State.switching_ite, hbars, ite_self]

theorem State.candStore_switching (s : State) (n i : Fin 16) (v : Word) (m : Fin 16) :
    (s.candStore n i v).switching m = s.switching m :=
  State.clearBars_switching ..

theorem State.candStores_switching (n m : Fin 16) (ws : List (Fin 16 × Word)) (s : State) :
    (ws.foldl (fun s p => s.candStore n p.1 p.2) s).switching m = s.switching m := by
  induction ws generalizing s with
  | nil => rfl
  | cons w ws ih => rw [List.foldl_cons, ih, State.candStore_switching]

theorem Loop.spoilSecond_switching (l : Loop) (fs : Nat) : (l.spoilSecond fs).switching = l.switching := by
  unfold Loop.spoilSecond
  split <;> rfl

/-- The end of a transaction leaves the loop's role, its PBO and the evaluation due. -/
theorem State.endSw_switching (s : State) (n : Fin 16) :
    (s.endSw n).switching n = ((s.loops[n]).role, (s.loops[n]).pbo, none, (s.loops[n]).evalDue, []) := by
  obtain ⟨hrole, hpbo, -, hdue, -⟩ : _ ∧ _ ∧ _ ∧ _ ∧ _ := by
    simpa only [Loop.switching, Prod.mk.injEq] using (s.loops[n]).spoilSecond_switching (s.sampleRate n)
  unfold State.endSw State.releaseCands
  extract_lets u ws v
  rw [State.candStores_switching]
  simp only [v, u, State.switching, State.modLoop_same, Loop.switching, hrole, hpbo, hdue]

/-! ## A loop outside a pair -/

theorem State.mirrorSel_of_solo {s : State} {n : Fin 16} (h : (s.loops[n]).role = .solo) : s.mirrorSel n = s :=
  if_pos (.inl (by rw [h]; decide))

/-- SWAP moves one register only, its count (R137). -/
theorem State.reg_twinSwap_ne {k : Nat} {n : Fin 16} (h : k ≠ key .loop n.val 0x18) (s : State) :
    (s.twinSwap n).reg k = s.reg k := by
  simp [State.twinSwap, State.reg_ite, State.reg_count_other h]

theorem State.reg_swapPending_ne {k : Nat} {n : Fin 16} (h : k ≠ key .loop n.val 0x18) (s : State) :
    (s.swapPending n).reg k = s.reg k := by
  simp [State.swapPending, State.reg_ite, State.reg_twinSwap_ne h]

theorem State.twinReady_of_solo {s : State} {n : Fin 16} (h : (s.loops[n]).role = .solo) :
    s.twinReady (twinOf n) = false := by
  have hrole : (TwinRole.solo == TwinRole.standby) = false := rfl
  simp only [State.twinReady, twinOf_twinOf, h, hrole, Bool.and_false, Bool.false_and]

/-- SWAP at a loop outside a pair hands nothing over. -/
theorem State.twinSwap_switching {s : State} {n : Fin 16} (h : (s.loops[n]).role = .solo) :
    (s.twinSwap n).switching n = s.switching n := by
  have hcount : (s.count .loop n.val 0x18 15 0).switching n = s.switching n := rfl
  have hdefer : (s.modLoop (twinOf n) fun l => { l with swapDeferred := true }).switching n = s.switching n :=
    State.modLoop_switching (by intro; rfl) ..
  simp only [State.twinSwap, h, reduceCtorEq, if_false, State.twinReady_of_solo h, Bool.false_eq_true, State.switching_ite,
    hcount, hdefer, ite_self]

theorem State.swapPending_switching {s : State} {n : Fin 16} (h : (s.loops[n]).role = .solo) :
    (s.swapPending n).switching n = s.switching n := by
  have hclear : (s.modLoop n fun l => { l with swapDeferred := false }).switching n = s.switching n :=
    State.modLoop_switching (by intro; rfl) ..
  have hsolo : ((s.modLoop n fun l => { l with swapDeferred := false }).loops[n]).role = .solo :=
    (congrArg Prod.fst hclear).trans h
  rw [State.swapPending, State.switching_ite, State.twinSwap_switching hsolo, hclear, ite_self]

/-- An abort at a loop outside a pair ends the transaction and makes its evaluation due; PBO stands (R121). -/
theorem State.abortSw_switching {s : State} {n : Fin 16} (hrole : (s.loops[n]).role = .solo)
    (hsw : (s.loops[n]).sw.isNone = false) :
    (s.abortSw n).switching n = (.solo, (s.loops[n]).pbo, none, some .abort, []) := by
  have hend := s.endSw_switching n
  simp only [State.switching, Loop.switching, Prod.mk.injEq] at hend
  obtain ⟨herole, hpbo, hnone, -, hheld⟩ := hend
  rw [State.abortSw, hsw, if_neg Bool.false_ne_true]
  generalize hu : (s.endSw n).modLoop n (fun l => { l with evalDue := some .abort }) = u
  have hdue : u.switching n = (.solo, (s.loops[n]).pbo, none, some .abort, []) := by
    rw [← hu, State.switching, State.modLoop_same, Loop.switching, herole, hpbo, hnone, hheld, hrole]
  have hsolo : (u.loops[n]).role = .solo := congrArg Prod.fst hdue
  rw [State.mirrorSel_of_solo hsolo, State.swapPending_switching hsolo, hdue]

/-! ## FREE_RUN (R105) -/

/-- The state code changes, and nothing else in the loop. -/
theorem State.loopCode_same (s : State) (n : Fin 16) (c : LoopCode) :
    (s.loopCode n c).loops[n] = { s.loops[n] with code := c } := by
  unfold State.loopCode
  extract_lets old u v
  split
  · next h =>
    obtain rfl : (s.loops[n]).code = c := h
    rfl
  · have htrace : ∀ b, (u.setTraceable n b).loops = u.loops := fun b =>
      State.loops_of_val (State.setTraceable_val (by decide) u n b)
    have hv : v.loops = u.loops := by
      cases c with
      | freeRun => exact htrace false
      | extended => exact htrace false
      | locked => exact htrace true
      | acquire => rfl
      | holdover => rfl
    have hraise : ∀ id cls code args, (v.raise id cls code args).loops = v.loops := fun id cls code args =>
      State.loops_of_val (State.raise_val v id cls code args)
    exact (congrArg (fun w : Vector Loop 16 => w[n]) ((hraise ..).trans hv)).trans (s.modLoop_same n _)

/-- A loop in FREE_RUN outside a pair, without source or transaction, with fp 0 and PBO q. -/
def Loop.Freed (l : Loop) (q : Int) : Prop :=
  l.role = .solo ∧ l.sw = none ∧ l.pbo = q ∧ l.code = .freeRun ∧ l.sel = none ∧ l.fp = 0

/-- An abort, or no transaction to abort: the loop's role and PBO stand. -/
theorem State.abortSw_idle {s : State} {n : Fin 16} (hrole : (s.loops[n]).role = .solo) :
    ((s.abortSw n).loops[n]).role = .solo ∧ ((s.abortSw n).loops[n]).sw = none
      ∧ ((s.abortSw n).loops[n]).pbo = (s.loops[n]).pbo := by
  cases hsw : (s.loops[n]).sw.isNone with
  | true =>
    have hidle : s.abortSw n = s := if_pos hsw
    rw [hidle]
    exact ⟨hrole, Option.isNone_iff_eq_none.1 hsw, rfl⟩
  | false =>
    have habort := State.abortSw_switching hrole hsw
    simp only [State.switching, Loop.switching, Prod.mk.injEq] at habort
    obtain ⟨hsolo, hpbo, hnone, -, -⟩ := habort
    exact ⟨hsolo, hnone, hpbo⟩

theorem State.loopFree_freed {s : State} {n : Fin 16} (hrole : (s.loops[n]).role = .solo) :
    ((s.loopFree n).loops[n]).Freed (s.loops[n]).pbo := by
  obtain ⟨hsolo, hnone, hpbo⟩ := State.abortSw_idle hrole
  unfold State.loopFree
  extract_lets u v
  have hv : v.loops[n] = { u.loops[n] with
      sel := none, holdoffAt := none, evs := [], shadow := [], acqFirst := false, fp := 0
      cpu := initCpu (u.loops[n]).prog.cur (u.loops[n]).cpu } := State.modLoop_same ..
  have hcode := v.loopCode_same n .freeRun
  have hfree : ((v.loopCode n .freeRun).loops[n]).Freed (s.loops[n]).pbo := by
    rw [hcode, hv]
    exact ⟨hsolo, hnone, hpbo, rfl, rfl, rfl⟩
  rw [State.mirrorSel_of_solo hfree.1]
  exact hfree

end Sys2Proof.Machine

/-! SUPPORT. PROOFS. The configuration of a loop: EN, DSEL and SSEL (R103, R105, R109, R121). -/

namespace Sys2Proof.Machine

/-! ## Words written in part -/

/-- Outside the bits written a word stands. -/
theorem mix_and_outside {sel m : Word} (h : sel &&& m = 0) (old v : Word) : mix sel old v &&& m = old &&& m := by
  refine BitVec.eq_of_getLsbD_eq fun i _ => ?_
  have hi : (bitOf sel i && bitOf m i) = false := by
    rw [bitOf, bitOf, ← BitVec.getLsbD_and, h]
    exact BitVec.getLsbD_zero
  rw [BitVec.getLsbD_and, BitVec.getLsbD_and, ← bitOf, ← bitOf, ← bitOf, bitOf_mix]
  cases hm : bitOf m i
  · rw [Bool.and_false, Bool.and_false]
  · rw [hm, Bool.and_true] at hi
    rw [hi, if_neg Bool.false_ne_true]

/-- Among the bits written it is the word written. -/
theorem mix_and_inside {sel m : Word} (h : sel &&& m = m) (old v : Word) : mix sel old v &&& m = v &&& m := by
  rw [← h, ← BitVec.and_assoc, mix_and_mask, BitVec.and_assoc]

/-! ## The word of CFG (R109) -/

theorem loopCfg_place : ∀ n : Fin 16, placeOf (key .loop n.val 0) = some ⟨.loop, n.val, 0⟩
    ∧ (⟨.loop, n.val, 0⟩ : Place).keeperBits 0x8FFE0000 = true := by
  decide

theorem loopCfg_ne_twin : ∀ n : Fin 16, key .loop (twinOf n).val 0 ≠ key .loop n.val 0 := by
  decide

theorem loopCfg_not_source : ∀ n : Fin 16, key .loop n.val 0 ∉ sourceKeys := by
  decide

/-- CFG as a write finds it. -/
def State.loopCfgOld (s : State) (n : Fin 16) : Word :=
  s.r .loop n.val 0 &&& 0x8FFE0000

/-- The word that a write of the bits `sel` with `v` gives CFG. -/
def State.loopCfgNew (s : State) (n : Fin 16) (sel v : Word) : Word :=
  mix sel (s.loopCfgOld n) v

/-- A keeper's write of some bits of CFG. -/
theorem access_loopField {s : State} {p : Path} {n : Fin 16} {sel : Word} (v : Word) (hk : s.keeps p .loop n.val 0 = true)
    (hin : 0x8FFE0000 &&& sel = sel) (hsel : sel ≠ 0) :
    access s p (key .loop n.val 0) (fun s => s.loopField p n sel v)
      = done s (s.loopCfg n (s.loopCfgOld n) (s.loopCfgNew n sel v)) := by
  obtain ⟨hplace, hreg⟩ := loopCfg_place n
  obtain ⟨w, -, hpl, -, hold, hnew, hw⟩ := State.fieldWrite_keeperBits v hk hplace hreg hin hsel
  have hlive : s.live p ⟨.loop, n.val, 0⟩ = s.r .loop n.val 0 := by
    simp only [State.live, finMod_val]
    rfl
  rw [hlive] at hold
  have hat : s.writeAt w = s.loopCfg n (s.loopCfgOld n) (s.loopCfgNew n sel v) := by
    simp only [State.writeAt, State.writeLoop, hpl, finMod_val, hnew, hold]
    rfl
  exact hw.trans (congrArg (done s) hat)

/-- The bits and fields of CFG that a write finds. -/
theorem State.loopCfgOld_fields (s : State) (n : Fin 16) : bitOf (s.loopCfgOld n) 31 = s.loopEn n
    ∧ bitOf (s.loopCfgOld n) 17 = s.rb .loop n.val 0 17
    ∧ cfgDsel (s.loopCfgOld n) = s.rf .loop n.val 0 27 24 ∧ cfgSsel (s.loopCfgOld n) = s.rf .loop n.val 0 23 20 := by
  have hmask : s.loopCfgOld n &&& 0x8FFE0000 = s.r .loop n.val 0 &&& 0x8FFE0000 := by
    rw [State.loopCfgOld, BitVec.and_assoc, BitVec.and_self]
  have hbit : ∀ i, bitOf (0x8FFE0000 : Word) i = true → bitOf (s.loopCfgOld n) i = bitOf (s.r .loop n.val 0) i := fun i hi => by
    unfold bitOf at hi ⊢
    rw [State.loopCfgOld, BitVec.getLsbD_and, hi, Bool.and_true]
  exact ⟨hbit 31 (by decide), hbit 17 (by decide), bitsOf_of_masked hmask (lo := 24) (len := 3) (by decide),
    bitsOf_of_masked hmask (lo := 20) (len := 3) (by decide)⟩

/-- A write that leaves out DSEL and SSEL leaves them. -/
theorem State.loopCfgNew_selectors (s : State) (n : Fin 16) {sel : Word} (v : Word) (h : sel &&& 0x0FF00000 = 0) :
    cfgDsel (s.loopCfgOld n) = cfgDsel (s.loopCfgNew n sel v) ∧ cfgSsel (s.loopCfgOld n) = cfgSsel (s.loopCfgNew n sel v) := by
  have hmask := (mix_and_outside h (s.loopCfgOld n) v).symm
  exact ⟨bitsOf_of_masked hmask (lo := 24) (len := 3) (by decide), bitsOf_of_masked hmask (lo := 20) (len := 3) (by decide)⟩

/-- The bits of CFG after a write. -/
theorem State.bitOf_loopCfgNew (s : State) (n : Fin 16) (sel v : Word) (i : Nat) :
    bitOf (s.loopCfgNew n sel v) i = if bitOf sel i then bitOf v i else bitOf (s.loopCfgOld n) i :=
  bitOf_mix ..

theorem selectors_word : ∀ d y : BitVec 4, cfgDsel (fld d.toNat 24 ||| fld y.toNat 20) = d.toNat
    ∧ cfgSsel (fld d.toNat 24 ||| fld y.toNat 20) = y.toNat := by
  decide

/-- A write of DSEL and SSEL gives the fields written. -/
theorem State.loopCfgNew_selects (s : State) (n : Fin 16) (d y : BitVec 4) :
    cfgDsel (s.loopCfgNew n 0x0FF00000 (fld d.toNat 24 ||| fld y.toNat 20)) = d.toNat
      ∧ cfgSsel (s.loopCfgNew n 0x0FF00000 (fld d.toNat 24 ||| fld y.toNat 20)) = y.toNat := by
  have hmask := mix_and_mask 0x0FF00000 (s.loopCfgOld n) (fld d.toNat 24 ||| fld y.toNat 20)
  obtain ⟨hd, hy⟩ := selectors_word d y
  exact ⟨(bitsOf_of_masked hmask (lo := 24) (len := 3) (by decide)).trans hd,
    (bitsOf_of_masked hmask (lo := 20) (len := 3) (by decide)).trans hy⟩

/-! ## Registers -/

theorem State.reg_refresh {k : Nat} (h : k ∉ sourceKeys) (s : State) : s.refresh.reg k = s.reg k := by
  have houts : s.refreshOuts.regs = s.regs := by
    unfold State.refreshOuts
    rfl
  rw [State.refresh, State.reg_qlRefresh h, State.reg_of_regs houts]

@[simp] theorem State.reg_releaseDest (s : State) (n : Fin 16) (dst : Dest) (k : Nat) :
    (s.releaseDest n dst).reg k = s.reg k := by
  unfold State.releaseDest
  extract_lets held
  split
  · exact State.reg_sendWord ..
  · rfl

@[simp] theorem State.reg_consumersMove (s : State) (n : Fin 16) (old new : Word) (k : Nat) :
    (s.consumersMove n old new).reg k = s.reg k := by
  unfold State.consumersMove
  extract_lets lead u v w
  have hu : u.reg k = s.reg k := by
    simp only [u]
    cases fin? 8 (cfgDsel old) with
    | none => rfl
    | some d => exact State.reg_releaseDest ..
  have hv : v.reg k = s.reg k := by simp only [v, State.reg_ite, State.reg_modLoop, hu, ite_self]
  have hw : w.reg k = s.reg k := by
    simp only [w]
    cases fin? 8 (cfgSsel old) with
    | none => exact hv
    | some y => exact (State.reg_releaseDest ..).trans hv
  rw [State.reg_ite, State.reg_modLoop, hv, hw, ite_self]

/-! ## The consumers named (R20, R109) -/

/-- Another loop names a consumer that the write would take. -/
def State.consumerClash (s : State) (n : Fin 16) (old new : Word) : Bool :=
  (decide (cfgDsel old ≠ cfgDsel new) && s.consumerTaken n new 27 24)
    || (decide (cfgSsel old ≠ cfgSsel new) && s.consumerTaken n new 23 20)

theorem State.consumerClash_same {n : Fin 16} {old new : Word} (s : State) (hd : cfgDsel old = cfgDsel new)
    (hy : cfgSsel old = cfgSsel new) : s.consumerClash n old new = false := by
  simp [State.consumerClash, hd, hy]

theorem State.consumerTaken_none {s : State} {n : Fin 16} {new : Word} {hi lo : Nat}
    (h : ∀ m : Fin 16, m ≠ n → bitsOf new hi lo < 8 → s.rf .loop m.val 0 hi lo ≠ bitsOf new hi lo) :
    s.consumerTaken n new hi lo = false := by
  unfold State.consumerTaken
  rw [Bool.and_eq_false_iff, or_iff_not_imp_left, Bool.not_eq_false, decide_eq_true_iff, List.any_eq_false]
  intro hlt m _
  by_cases hm : m = n
  · simp [hm]
  · simp [h m hm hlt]

theorem State.consumerTaken_by {s : State} {n m : Fin 16} {new : Word} {hi lo : Nat} (hm : m ≠ n)
    (htwin : bitOf new 17 = false) (hlt : bitsOf new hi lo < 8) (hrf : s.rf .loop m.val 0 hi lo = bitsOf new hi lo) :
    s.consumerTaken n new hi lo = true := by
  unfold State.consumerTaken
  rw [Bool.and_eq_true, decide_eq_true_iff, List.any_eq_true]
  exact ⟨hlt, m, List.mem_finRange m, by simp [hm, htwin, hrf]⟩

theorem State.consumersMove_same {n : Fin 16} {old new : Word} (s : State) (hd : cfgDsel old = cfgDsel new)
    (hy : cfgSsel old = cfgSsel new) : s.consumersMove n old new = s := by
  simp only [State.consumersMove, hd, hy, if_true]

theorem State.releaseDest_loops (s : State) (n : Fin 16) (dst : Dest) : (s.releaseDest n dst).loops = s.loops := by
  unfold State.releaseDest
  extract_lets held
  split <;> rfl

/-- What a loop newly names passes with its next word. -/
theorem State.consumersMove_takes {s : State} {n : Fin 16} {old new : Word} (hrole : (s.loops[n]).role = .solo) :
    (cfgDsel old ≠ cfgDsel new → ((s.consumersMove n old new).loops[n]).takeD = decide (cfgDsel new < 8))
      ∧ (cfgSsel old ≠ cfgSsel new → ((s.consumersMove n old new).loops[n]).takeS = decide (cfgSsel new < 8)) := by
  unfold State.consumersMove
  extract_lets lead u v w
  have hlead : lead = true := decide_eq_true (.inl hrole)
  have hv : cfgDsel old ≠ cfgDsel new → (v.loops[n]).takeD = decide (cfgDsel new < 8) := fun h => by
    simp only [v, h, if_false, State.modLoop_same, hlead, Bool.true_and]
  have hw : w.loops = v.loops := by
    simp only [w]
    cases fin? 8 (cfgSsel old) with
    | none => rfl
    | some y => exact State.releaseDest_loops ..
  clear_value v w
  split
  · next hsame => exact ⟨hv, fun h => absurd hsame h⟩
  · refine ⟨fun h => ?_, fun _ => by rw [State.modLoop_same, hlead, Bool.true_and]⟩
    rw [State.modLoop_same, ← hv h, ← hw]

/-! ## A write outside a pair (R109, R134) -/

theorem State.wouldPair_of_alone {n : Fin 16} {new : Word} (s : State) (h : bitOf new 17 = false) :
    s.wouldPair n new = none := by
  simp [State.wouldPair, h]

theorem State.formTwin_of_alone {s : State} {n : Fin 16} (h : s.rb .loop n.val 0 17 = false) : s.formTwin n = s := by
  simp [State.formTwin, h]

/-- CFG stored, after what EN 0 does, with the consumers moved. -/
def State.cfgStored (s : State) (n : Fin 16) (old new : Word) : State :=
  ((if bitOf old 31 && !bitOf new 31 then s.loopStopEn n else s).wr .loop n.val 0 new).consumersMove n old new

/-- The same with what EN 1 does. -/
def State.cfgTaken (s : State) (n : Fin 16) (old new : Word) : State :=
  if bitOf new 31 && !bitOf old 31 then (s.cfgStored n old new).enUp n else s.cfgStored n old new

theorem State.cfgTaken_r (s : State) (n : Fin 16) (old new : Word) : (s.cfgTaken n old new).r .loop n.val 0 = new := by
  have hstored : (s.cfgStored n old new).r .loop n.val 0 = new :=
    (State.reg_consumersMove ..).trans (State.setReg_same ..)
  unfold State.cfgTaken
  split
  · exact hstored
  · exact hstored

/-- With TWIN_EN 0 before and after, a write of CFG is refused for a consumer that another loop names, or taken. -/
theorem State.loopCfg_of_alone {s : State} {n : Fin 16} {old new : Word} (hold : bitOf old 17 = false)
    (hnew : bitOf new 17 = false) : s.loopCfg n old new
      = if s.consumerClash n old new then s.count .loop n.val 0x2C 15 0 else (s.cfgTaken n old new).refresh := by
  have halone : (s.cfgTaken n old new).formTwin n = s.cfgTaken n old new :=
    State.formTwin_of_alone (by rw [State.rb, State.cfgTaken_r, hnew])
  rw [← halone]
  simp only [State.loopCfg, State.wouldPair_of_alone s hnew, Bool.or_false, hold, Bool.false_and, Bool.false_eq_true,
    if_false]
  rfl

/-- A write of bits of CFG that is taken leaves the loops and the registers, besides notices and counts, as the write
and what it does make them. -/
theorem completes_loopField {c : Instr} {s : State} {p : Path} {n : Fin 16} {sel v : Word}
    (hexec : exec c s = access s p (key .loop n.val 0) (fun s => s.loopField p n sel v))
    (hk : s.keeps p .loop n.val 0 = true) (hin : 0x8FFE0000 &&& sel = sel) (hsel : sel ≠ 0) (hbit : bitOf sel 17 = false)
    (htwin : s.rb .loop n.val 0 17 = false)
    (hclash : s.consumerClash n (s.loopCfgOld n) (s.loopCfgNew n sel v) = false) :
    Completes c s (fun t => t.loops = (s.cfgTaken n (s.loopCfgOld n) (s.loopCfgNew n sel v)).loops
      ∧ ∀ k ∉ sourceKeys, t.reg k = (s.cfgTaken n (s.loopCfgOld n) (s.loopCfgNew n sel v)).reg k) := by
  have hold : bitOf (s.loopCfgOld n) 17 = false := (s.loopCfgOld_fields n).2.1.trans htwin
  have hnew : bitOf (s.loopCfgNew n sel v) 17 = false := by
    rw [State.bitOf_loopCfgNew, hbit, if_neg Bool.false_ne_true, hold]
  have hdone := hexec.trans (access_loopField v hk hin hsel)
  rw [State.loopCfg_of_alone hold hnew, hclash, if_neg Bool.false_ne_true] at hdone
  generalize s.cfgTaken n (s.loopCfgOld n) (s.loopCfgNew n sel v) = u at hdone ⊢
  have hloops : u.refresh.loops = u.loops := State.loops_of_val (State.refresh_val (by decide) u)
  have hreg : ∀ k ∉ sourceKeys, u.refresh.reg k = u.reg k := fun k h => State.reg_refresh h u
  generalize u.refresh = t at hdone hloops hreg
  exact completes_of_done hdone ⟨hloops, hreg⟩

/-! ## EN 0 (R103, R105, R121) -/

theorem fOut_ne : ∀ n : Fin 16, key .loop n.val 0x60 ≠ key .loop n.val 0x64 := by
  decide

theorem fOut_ne_cfg : ∀ n : Fin 16, ∀ o ∈ [0x60, 0x64], key .loop n.val o ≠ key .loop n.val 0 := by
  decide

theorem fOut_not_source : ∀ n : Fin 16, ∀ o ∈ [0x60, 0x64], key .loop n.val o ∉ sourceKeys := by
  decide

theorem State.wide_eq_zero {s : State} {b : Block} {i o : Nat} (hhi : s.r b i o = 0) (hlo : s.r b i (o + 4) = 0) :
    s.wide b i o 2 = 0 := by
  simp [State.wide, ofWords, hhi, hlo, List.range_succ]

theorem State.issueWords_same (s : State) (n : Fin 16) (f : Int) :
    (s.issueWords n f).loops[n] = { s.loops[n] with takeD := false, takeS := false } := by
  unfold State.issueWords
  extract_lets l u v w
  have hv : v.loops = s.loops := by
    simp only [v]
    cases fin? 8 (u.rf .loop n.val 0 27 24) <;> rfl
  have hw : w.loops = v.loops := by
    simp only [w]
    cases fin? 8 (v.rf .loop n.val 0 23 20) <;> rfl
  rw [State.modLoop_same, hw, hv]

/-- The words of F_OUT (R103). -/
theorem State.setWide_fOut (s : State) (n : Fin 16) :
    s.setWide .loop n.val 0x60 2 0 = (s.wr .loop n.val 0x60 0).wr .loop n.val 0x64 0 :=
  State.setWide_two s .loop n.val 0x60 0 0

/-- What EN 0 leaves of a loop in FREE_RUN, its words issued. -/
def Loop.stopped (l : Loop) : Loop :=
  { l with
    est := { l.est with cnt := 0 }, f := 0, instTick := none, out := none, secAcc := SecAcc.reset, secReady := none
    wasStandby := false, evs := [], shadow := [], takeD := false, takeS := false }

/-- EN 0 at a loop outside a pair: FREE_RUN, and the output stands at frequency 0. -/
theorem State.loopStopEn_of_solo {s : State} {n : Fin 16} (hrole : (s.loops[n]).role = .solo) :
    (s.loopStopEn n).loops[n] = ((s.loopFree n).loops[n]).stopped
      ∧ ∀ o ∈ [0x60, 0x64], (s.loopStopEn n).r .loop n.val o = 0 := by
  unfold State.loopStopEn
  extract_lets m hand t u v w
  have hhand : hand = false := by
    simp only [hand, hrole]
    rfl
  have ht : t = s := if_neg (ne_true_of_eq_false hhand)
  have hu : u = s := (if_pos (by rw [ht, hrole])).trans ht
  have hw : w.loops[n] = { ((s.loopFree n).loops[n]).stopped with
      takeD := ((s.loopFree n).loops[n]).takeD, takeS := ((s.loopFree n).loops[n]).takeS } := by
    simp only [w, v, hu]
    rw [State.modLoop_other _ _ (twinOf_ne n), State.modLoop_same, State.clearEst, State.modLoop_same]
    generalize (s.loopFree n).loops[n] = l
    rfl
  clear_value w
  generalize (s.loopFree n).loops[n] = l at hw ⊢
  rw [State.setWide_fOut]
  constructor
  · have hwords : ((w.wr .loop n.val 0x60 0).wr .loop n.val 0x64 0).loops = w.loops := by simp only [State.wr_loops]
    simp only [State.issueWords_same, hwords, hw]
    rfl
  · have hhi : ((w.wr .loop n.val 0x60 0).wr .loop n.val 0x64 0).r .loop n.val 0x60 = 0 :=
      (State.reg_wr_other (fOut_ne n)).trans (State.setReg_same ..)
    have hlo : ((w.wr .loop n.val 0x60 0).wr .loop n.val 0x64 0).r .loop n.val 0x64 = 0 := State.setReg_same ..
    simp only [List.forall_mem_cons, List.not_mem_nil, false_imp_iff, implies_true, and_true]
    exact ⟨(State.reg_issueWords ..).trans hhi, (State.reg_issueWords ..).trans hlo⟩

end Sys2Proof.Machine

/-! SUPPORT. PROOFS. The writes of CFG of a loop (R103, R109, R121). -/

namespace Sys2Proof.Machine

theorem State.loopEn_of_r {t : State} {n : Fin 16} {w : Word} {b : Bool} (hw : t.reg (key .loop n.val 0) = w)
    (hb : bitOf w 31 = b) : t.loopEn n = b :=
  (congrArg (bitOf · 31) hw).trans hb

/-- EN of a loop goes to 1 (R103, R134). -/
theorem completes_loopEnable {s : State} {p : Path} {n : Fin 16} (hk : s.keeps p .loop n.val 0 = true)
    (hen : s.loopEn n = false) (htwin : s.rb .loop n.val 0 17 = false) :
    Completes (.loopEnable p n) s (fun t => (t.loops[n]).instTick = none ∧ (t.loops[n]).closedEn = false ∧ t.loopEn n = true
      ∧ (t.loops[n]).enAfter = (s.loopEn (twinOf n) && (s.loops[twinOf n]).closedEn)) := by
  obtain ⟨hd, hy⟩ := s.loopCfgNew_selectors n (sel := 0x80000000) 0x80000000 (by decide)
  have htaken := completes_loopField (c := .loopEnable p n) rfl hk (by decide) (by decide) (by decide) htwin
    (s.consumerClash_same hd hy)
  have hold : bitOf (s.loopCfgOld n) 31 = false := (s.loopCfgOld_fields n).1.trans hen
  have hnew : bitOf (s.loopCfgNew n 0x80000000 0x80000000) 31 = true := s.bitOf_loopCfgNew ..
  generalize s.loopCfgOld n = old at *
  generalize s.loopCfgNew n 0x80000000 0x80000000 = new at *
  have hword : (s.cfgTaken n old new).reg (key .loop n.val 0) = new := State.cfgTaken_r ..
  have hstored : s.cfgStored n old new = s.wr .loop n.val 0 new := by
    rw [State.cfgStored, State.consumersMove_same _ hd hy, hold, Bool.false_and, if_neg Bool.false_ne_true]
  have hup : s.cfgTaken n old new = (s.wr .loop n.val 0 new).enUp n := by
    rw [State.cfgTaken, hstored, hold, hnew, Bool.not_false, Bool.and_true, if_pos rfl]
  have hother : (s.wr .loop n.val 0 new).rb .loop (twinOf n).val 0 31 = s.loopEn (twinOf n) :=
    congrArg (bitOf · 31) (State.reg_wr_other (loopCfg_ne_twin n))
  have hloop : (s.cfgTaken n old new).loops[n] = { s.loops[n] with
      closedEn := false, enAfter := s.loopEn (twinOf n) && (s.loops[twinOf n]).closedEn, instTick := none } := by
    rw [hup, State.enUp, State.modLoop_same, hother]
    rfl
  refine htaken.imp fun t ⟨hloops, hreg⟩ => ?_
  rw [← hloops] at hloop
  rw [hloop]
  exact ⟨rfl, rfl, State.loopEn_of_r ((hreg _ (loopCfg_not_source n)).trans hword) hnew, rfl⟩

/-- EN of a loop outside a pair goes to 0 (R103, R105, R121, R130). -/
theorem completes_loopDisable {s : State} {p : Path} {n : Fin 16} (hk : s.keeps p .loop n.val 0 = true)
    (hen : s.loopEn n = true) (htwin : s.rb .loop n.val 0 17 = false) (hrole : (s.loops[n]).role = .solo) :
    Completes (.loopDisable p n) s (fun t => (t.loops[n]).sw = none ∧ (t.loops[n]).pbo = (s.loops[n]).pbo
      ∧ (t.loops[n]).code = .freeRun ∧ (t.loops[n]).sel = none ∧ (t.loops[n]).fp = 0
      ∧ (t.loops[n]).f = 0 ∧ t.wide .loop n.val 0x60 2 = 0 ∧ (t.loops[n]).est.cnt = 0 ∧ t.loopEn n = false) := by
  obtain ⟨hd, hy⟩ := s.loopCfgNew_selectors n (sel := 0x80000000) 0 (by decide)
  have htaken := completes_loopField (c := .loopDisable p n) rfl hk (by decide) (by decide) (by decide) htwin
    (s.consumerClash_same hd hy)
  have hold : bitOf (s.loopCfgOld n) 31 = true := (s.loopCfgOld_fields n).1.trans hen
  have hnew : bitOf (s.loopCfgNew n 0x80000000 0) 31 = false := s.bitOf_loopCfgNew ..
  generalize s.loopCfgOld n = old at *
  generalize s.loopCfgNew n 0x80000000 0 = new at *
  have hword : (s.cfgTaken n old new).reg (key .loop n.val 0) = new := State.cfgTaken_r ..
  have hdown : s.cfgTaken n old new = (s.loopStopEn n).wr .loop n.val 0 new := by
    rw [State.cfgTaken, State.cfgStored, State.consumersMove_same _ hd hy, hold, hnew, Bool.not_false, Bool.and_true,
      if_pos rfl, Bool.false_and, if_neg Bool.false_ne_true]
  obtain ⟨hstop, hfout⟩ := State.loopStopEn_of_solo hrole
  have hzero : ∀ o ∈ [0x60, 0x64], (s.cfgTaken n old new).reg (key .loop n.val o) = 0 := fun o ho => by
    rw [hdown]
    exact (State.reg_wr_other (fOut_ne_cfg n o ho)).trans (hfout o ho)
  have hloop : (s.cfgTaken n old new).loops[n] = ((s.loopFree n).loops[n]).stopped := by
    simp only [hdown, State.wr_loops, hstop]
  obtain ⟨-, hsw, hpbo, hcode, hsel, hfp⟩ := State.loopFree_freed hrole
  generalize (s.loopFree n).loops[n] = l at *
  refine htaken.imp fun t ⟨hloops, hreg⟩ => ?_
  have hword' : t.reg (key .loop n.val 0) = new := (hreg _ (loopCfg_not_source n)).trans hword
  have hwide : t.wide .loop n.val 0x60 2 = 0 := State.wide_eq_zero
    ((hreg _ (fOut_not_source n _ (by decide))).trans (hzero _ (by decide)))
    ((hreg _ (fOut_not_source n 0x64 (by decide))).trans (hzero _ (by decide)))
  rw [← hloops] at hloop
  rw [hloop]
  exact ⟨hsw, hpbo, hcode, hsel, hfp, rfl, hwide, rfl, State.loopEn_of_r hword' hnew⟩

/-! ## DSEL and SSEL (R109) -/

/-- Consumers that no other loop names are no clash. -/
theorem State.consumerClash_free {s : State} {n : Fin 16} {d y : BitVec 4}
    (hfree : ∀ m : Fin 16, m ≠ n → (d.toNat < 8 → s.rf .loop m.val 0 27 24 ≠ d.toNat)
      ∧ (y.toNat < 8 → s.rf .loop m.val 0 23 20 ≠ y.toNat)) :
    s.consumerClash n (s.loopCfgOld n) (s.loopCfgNew n 0x0FF00000 (fld d.toNat 24 ||| fld y.toNat 20)) = false := by
  obtain ⟨hd, hy⟩ := s.loopCfgNew_selects n d y
  generalize s.loopCfgNew n 0x0FF00000 (fld d.toNat 24 ||| fld y.toNat 20) = new at *
  have hdsel : s.consumerTaken n new 27 24 = false := State.consumerTaken_none fun m hm hlt => by
    rw [show bitsOf new 27 24 = d.toNat from hd] at hlt ⊢
    exact (hfree m hm).1 hlt
  have hssel : s.consumerTaken n new 23 20 = false := State.consumerTaken_none fun m hm hlt => by
    rw [show bitsOf new 23 20 = y.toNat from hy] at hlt ⊢
    exact (hfree m hm).2 hlt
  rw [State.consumerClash, hdsel, hssel, Bool.and_false, Bool.and_false, Bool.or_false]

/-- DSEL and SSEL that no other loop names are taken; what is new passes with the next word. -/
theorem completes_loopConsumerSelect {s : State} {p : Path} {n : Fin 16} {d y : BitVec 4}
    (hk : s.keeps p .loop n.val 0 = true) (htwin : s.rb .loop n.val 0 17 = false) (hrole : (s.loops[n]).role = .solo)
    (hfree : ∀ m : Fin 16, m ≠ n → (d.toNat < 8 → s.rf .loop m.val 0 27 24 ≠ d.toNat)
      ∧ (y.toNat < 8 → s.rf .loop m.val 0 23 20 ≠ y.toNat)) :
    Completes (.loopConsumerSelect p n d y) s (fun t => t.rf .loop n.val 0 27 24 = d.toNat ∧ t.rf .loop n.val 0 23 20 = y.toNat
      ∧ (s.rf .loop n.val 0 27 24 ≠ d.toNat → (t.loops[n]).takeD = decide (d.toNat < 8))
      ∧ (s.rf .loop n.val 0 23 20 ≠ y.toNat → (t.loops[n]).takeS = decide (y.toNat < 8))) := by
  have htaken := completes_loopField (c := .loopConsumerSelect p n d y) rfl hk (by decide) (by decide) (by decide) htwin
    (State.consumerClash_free hfree)
  obtain ⟨-, -, hold, hold'⟩ := s.loopCfgOld_fields n
  obtain ⟨hd, hy⟩ := s.loopCfgNew_selects n d y
  have hen : bitOf (s.loopCfgNew n 0x0FF00000 (fld d.toNat 24 ||| fld y.toNat 20)) 31 = bitOf (s.loopCfgOld n) 31 :=
    s.bitOf_loopCfgNew ..
  generalize s.loopCfgOld n = old at *
  generalize s.loopCfgNew n 0x0FF00000 (fld d.toNat 24 ||| fld y.toNat 20) = new at *
  have hword : (s.cfgTaken n old new).reg (key .loop n.val 0) = new := State.cfgTaken_r ..
  have hmoves : s.cfgTaken n old new = (s.wr .loop n.val 0 new).consumersMove n old new := by
    rw [State.cfgTaken, State.cfgStored, hen, Bool.and_not_self, if_neg Bool.false_ne_true, if_neg Bool.false_ne_true]
  obtain ⟨htakeD, htakeS⟩ := State.consumersMove_takes (s := s.wr .loop n.val 0 new) (old := old) (new := new) hrole
  rw [← hmoves, hold, hd] at htakeD
  rw [← hmoves, hold', hy] at htakeS
  refine htaken.imp fun t ⟨hloops, hreg⟩ => ?_
  have hnew : t.r .loop n.val 0 = new := (hreg _ (loopCfg_not_source n)).trans hword
  rw [← hloops] at htakeD htakeS
  exact ⟨(congrArg cfgDsel hnew).trans hd, (congrArg cfgSsel hnew).trans hy, htakeD, htakeS⟩

/-- A consumer that another loop names is refused and counted. -/
theorem exec_loopConsumerSelect_refused {s : State} {p : Path} {n m : Fin 16} {d y : BitVec 4}
    (hk : s.keeps p .loop n.val 0 = true) (htwin : s.rb .loop n.val 0 17 = false) (hm : m ≠ n)
    (hnamed : d.toNat < 8 ∧ s.rf .loop n.val 0 27 24 ≠ d.toNat ∧ s.rf .loop m.val 0 27 24 = d.toNat
      ∨ y.toNat < 8 ∧ s.rf .loop n.val 0 23 20 ≠ y.toNat ∧ s.rf .loop m.val 0 23 20 = y.toNat) :
    exec (.loopConsumerSelect p n d y) s = .next (s.count .loop n.val 0x2C 15 0) := by
  have hexec : exec (.loopConsumerSelect p n d y) s
      = done s (s.loopCfg n (s.loopCfgOld n) (s.loopCfgNew n 0x0FF00000 (fld d.toNat 24 ||| fld y.toNat 20))) :=
    access_loopField _ hk (by decide) (by decide)
  obtain ⟨-, hold17, hold, hold'⟩ := s.loopCfgOld_fields n
  obtain ⟨hd, hy⟩ := s.loopCfgNew_selects n d y
  have hnew17 : bitOf (s.loopCfgNew n 0x0FF00000 (fld d.toNat 24 ||| fld y.toNat 20)) 17 = bitOf (s.loopCfgOld n) 17 :=
    s.bitOf_loopCfgNew ..
  rw [hold17, htwin] at hnew17
  rw [htwin] at hold17
  generalize s.loopCfgOld n = old at *
  generalize s.loopCfgNew n 0x0FF00000 (fld d.toNat 24 ||| fld y.toNat 20) = new at *
  have hclash : s.consumerClash n old new = true := by
    rw [State.consumerClash, hold, hold', hd, hy, Bool.or_eq_true, Bool.and_eq_true, Bool.and_eq_true, decide_eq_true_iff,
      decide_eq_true_iff]
    rcases hnamed with ⟨hlt, hne, hrf⟩ | ⟨hlt, hne, hrf⟩
    · exact .inl ⟨hne, State.consumerTaken_by hm hnew17 (hd.trans_lt hlt) (hrf.trans hd.symm)⟩
    · exact .inr ⟨hne, State.consumerTaken_by hm hnew17 (hy.trans_lt hlt) (hrf.trans hy.symm)⟩
  have hup : s.coreUp = true := State.coreUp_of_keeps hk
  rw [hexec, State.loopCfg_of_alone hold17 hnew17, hclash, if_pos rfl]
  exact done_eq_next rfl rfl rfl rfl hup

end Sys2Proof.Machine

/-! PROOFS. CMD, SAMPLE, SELECT, CAND and CAND_BAR of a loop (R91, R95, R105, R107, R112, R115, R121, R130), and O8. -/

namespace Sys2Proof.Machine

/-! ## CMD (R105, R130) -/

theorem loopCmd_place : ∀ n : Fin 16, placeOf (key .loop n.val 0x0C) = some ⟨.loop, n.val, 0x0C⟩
    ∧ (⟨.loop, n.val, 0x0C⟩ : Place).ofPath = false ∧ (⟨.loop, n.val, 0x0C⟩ : Place).listed = true
    ∧ (⟨.loop, n.val, 0x0C⟩ : Place).wideAt = none ∧ (⟨.loop, n.val, 0x0C⟩ : Place).commands true = 0xC0000000 := by
  decide

/-- A keeper's commands of a loop. -/
theorem regAccess_loopCmd {s : State} {p : Path} {n : Fin 16} {v : Word} (hk : s.keeps p .loop n.val 0x0C = true)
    (hv : v &&& 0xC0000000 = v) : regAccess s p .loop n.val 0x0C v = done s (s.loopCmd n v) := by
  obtain ⟨hplace, hpath, hlisted, hwide, hcommands⟩ := loopCmd_place n
  obtain ⟨w, hpl, hcmd, hw⟩ := regAccess_keeperCommand hk hplace hpath hlisted hwide (by rw [hcommands, hv])
    (by rw [hcommands]; decide)
  have hat : s.writeAt w = s.loopCmd n v := by
    simp only [State.writeAt, State.writeLoop, hpl, finMod_val, hcmd]
  exact hw.trans (congrArg (done s) hat)

/-- FREE at a loop outside a pair. -/
theorem completes_free {s : State} {p : Path} {n : Fin 16} (hk : s.keeps p .loop n.val 0x0C = true)
    (hrole : (s.loops[n]).role = .solo) :
    Completes (.free p n) s (fun t => (t.loops[n]).sw = none ∧ (t.loops[n]).pbo = (s.loops[n]).pbo
      ∧ (t.loops[n]).code = .freeRun ∧ (t.loops[n]).sel = none ∧ (t.loops[n]).fp = 0) := by
  have hexec : exec (.free p n) s = done s (s.loopFree n).refresh := regAccess_loopCmd hk (by decide)
  have hfreed := State.loopFree_freed hrole
  have hloops : (s.loopFree n).refresh.loops = (s.loopFree n).loops :=
    State.loops_of_val (State.refresh_val (by decide) _)
  rw [← hloops] at hfreed
  generalize (s.loopFree n).refresh = t at hexec hfreed
  exact completes_of_done hexec hfreed.2

/-- HO_CLEAR empties the estimator and does nothing else. -/
theorem exec_hoClear {s : State} {p : Path} {n : Fin 16} (hk : s.keeps p .loop n.val 0x0C = true) :
    exec (.hoClear p n) s = .next (s.modLoop n (fun l => { l with est := { l.est with cnt := 0 } })) := by
  have hexec : exec (.hoClear p n) s = done s (s.clearEst n) := regAccess_loopCmd hk (by decide)
  exact hexec.trans (done_modLoop n _ (State.coreUp_of_keeps hk))

/-! ## SAMPLE and SELECT (R91, R95, R115) -/

theorem sample_place : ∀ n : Fin 16, placeOf (key .loop n.val 0x1C) = some ⟨.loop, n.val, 0x1C⟩
    ∧ (⟨.loop, n.val, 0x1C⟩ : Place).keeperBits 0x000FFFFF = true := by
  decide

theorem select_place : ∀ n : Fin 16, placeOf (key .loop n.val 0x10) = some ⟨.loop, n.val, 0x10⟩
    ∧ (⟨.loop, n.val, 0x10⟩ : Place).keeperWord = true := by
  decide

theorem exec_sampleRateWrite {s : State} {p : Path} {n : Fin 16} (v : Word) (hk : s.keeps p .loop n.val 0x1C = true) :
    exec (.sampleRateWrite p n v) s = done s (s.rateWrite n (v &&& 0x000FFFFF)) := by
  obtain ⟨hplace, hreg⟩ := sample_place n
  obtain ⟨w, -, hpl, hnew, hw⟩ := regAccess_keeperBits v hk hplace hreg (by decide)
  have hat : s.writeAt w = s.rateWrite n (v &&& 0x000FFFFF) := by
    simp only [State.writeAt, State.writeLoop, hpl, finMod_val, hnew]
  exact hw.trans (congrArg (done s) hat)

theorem bitsOf_rate (v : Word) : bitsOf (v &&& 0x000FFFFF) 19 0 = bitsOf v 19 0 :=
  bitsOf_of_masked (mask := 0x000FFFFF) (by rw [BitVec.and_assoc, BitVec.and_self]) (lo := 0) (len := 19) (by decide)

/-- A rate that the loop's programs fit in is taken. -/
theorem exec_sampleRateWrite_taken {s : State} {p : Path} {n : Fin 16} {v : Word} (hk : s.keeps p .loop n.val 0x1C = true)
    (hrole : (s.loops[n]).role = .solo) (hpos : bitsOf v 19 0 ≠ 0) (hmax : bitsOf v 19 0 ≤ 1000000)
    (hbudget : s.overBudget n (bitsOf v 19 0) = false) :
    exec (.sampleRateWrite p n v) s = .next (s.wr .loop n.val 0x1C (mix 0x000FFFFF 0 v)) := by
  have hup : s.coreUp = true := State.coreUp_of_keeps hk
  have hrate : s.rateWrite n (v &&& 0x000FFFFF) = s.wr .loop n.val 0x1C (v &&& 0x000FFFFF) := by
    rw [State.rateWrite, bitsOf_rate, hbudget, hrole]
    exact if_neg (by simp [hpos, Nat.not_lt.2 hmax])
  rw [exec_sampleRateWrite v hk, hrate, mix_zero]
  exact done_eq_next rfl rfl rfl rfl hup

/-- A rate of 0 or above 1 MHz is refused and counted. -/
theorem exec_sampleRateWrite_refused {s : State} {p : Path} {n : Fin 16} {v : Word} (hk : s.keeps p .loop n.val 0x1C = true)
    (hbad : bitsOf v 19 0 = 0 ∨ 1000000 < bitsOf v 19 0) :
    exec (.sampleRateWrite p n v) s = .next (s.count .loop n.val 0x2C 15 0) := by
  have hup : s.coreUp = true := State.coreUp_of_keeps hk
  have hrate : s.rateWrite n (v &&& 0x000FFFFF) = s.count .loop n.val 0x2C 15 0 := by
    rw [State.rateWrite, bitsOf_rate]
    exact if_pos (hbad.imp id .inl)
  rw [exec_sampleRateWrite v hk, hrate]
  exact done_eq_next rfl rfl rfl rfl hup

/-- SELECT is stored; it takes effect at the next selection tick. -/
theorem exec_selectWrite {s : State} {p : Path} {n : Fin 16} (v : Word) (hk : s.keeps p .loop n.val 0x10 = true) :
    exec (.selectWrite p n v) s = .next (s.wr .loop n.val 0x10 v) := by
  have hup : s.coreUp = true := State.coreUp_of_keeps hk
  obtain ⟨hplace, hreg⟩ := select_place n
  obtain ⟨w, -, hpl, hnew, hw⟩ := regAccess_keeperWord v hk hplace hreg
  have hat : s.writeAt w = s.wr .loop n.val 0x10 v := by
    rw [← hnew, ← State.store_keeperWord hpl hreg]
    simp only [State.writeAt, State.writeLoop, hpl]
    rfl
  have hdone : done s (s.wr .loop n.val 0x10 v) = .next (s.wr .loop n.val 0x10 v) := done_eq_next rfl rfl rfl rfl hup
  exact hw.trans ((congrArg (done s) hat).trans hdone)

/-! ## CAND (R107, R112, R121) -/

theorem cand_place : ∀ n i : Fin 16, placeOf (key .loop n.val (0x90 + 4 * i.val)) = some ⟨.loop, n.val, 0x90 + 4 * i.val⟩
    ∧ (⟨.loop, n.val, 0x90 + 4 * i.val⟩ : Place).keeperBits 0xF07F = true := by
  decide +kernel

theorem cand_ne : ∀ n i : Fin 16, key .loop n.val (0x90 + 4 * i.val) ≠ key .loop n.val 0x20
    ∧ key .loop n.val (0x90 + 4 * i.val) ≠ key .loop n.val 0x18 := by
  decide +kernel

theorem State.writeLoop_cand {s : State} {w : Wr} {n i : Fin 16} (hpl : w.pl = ⟨.loop, n.val, 0x90 + 4 * i.val⟩) :
    s.writeAt w = s.candSet n i w.new := by
  simp only [State.writeAt, State.writeLoop, hpl, finMod_val]
  fin_cases i <;> rfl

/-- A keeper's write of a candidate entry. -/
theorem exec_candWrite {s : State} {p : Path} {n i : Fin 16} (v : Word)
    (hk : s.keeps p .loop n.val (0x90 + 4 * i.val) = true) :
    exec (.candWrite p n i v) s = done s (s.candSet n i (v &&& 0xF07F)) := by
  obtain ⟨hplace, hreg⟩ := cand_place n i
  obtain ⟨w, -, hpl, hnew, hw⟩ := regAccess_keeperBits v hk hplace hreg (by decide)
  exact hw.trans (congrArg (done s) ((State.writeLoop_cand hpl).trans (by rw [hnew])))

theorem candOf_masked (v : Word) (h : bitsOf v 6 0 < 32) :
    (candOf (v &&& 0xF07F)).1 = some ⟨bitsOf v 6 0, by omega⟩ := by
  have hbits : bitsOf (v &&& 0xF07F) 6 0 = bitsOf v 6 0 :=
    bitsOf_of_masked (mask := 0xF07F) (by rw [BitVec.and_assoc, BitVec.and_self]) (lo := 0) (len := 6) (by decide)
  have hlt : bitsOf v 6 0 < 96 := by omega
  simp only [candOf, hbits, fin?, hlt, dif_pos]

/-- CAND_STATUS cleared by a write that is taken (R112). -/
def State.candCleared (s : State) (n : Fin 16) : State :=
  s.wr .loop n.val 0x20 0

/-- The state in which an entry written during a transaction is held (R121). -/
def State.candHolds (s : State) (n i : Fin 16) (v : Word) : State :=
  (s.candCleared n).modLoop n (fun l => { l with candHeld := (s.loops[n]).candHeld ++ [(i, v)] })

/-- A source below 32 is no synthesizer and no packet stream: its entry is taken. -/
theorem State.candSet_taken {s : State} {n i : Fin 16} {v : Word} (h : bitsOf v 6 0 < 32) :
    s.candSet n i (v &&& 0xF07F) = if (s.loops[n]).role = .standby then (s.candCleared n).candPut n i (v &&& 0xF07F)
      else match (s.loops[n]).sw with
        | none => (s.candCleared n).candStore n i (v &&& 0xF07F)
        | some w => if ((s.candHolds n i (v &&& 0xF07F)).listWith n ((s.loops[n]).candHeld ++ [(i, v &&& 0xF07F)])).any
            (fun x => decide (x = some w.tgt)) then s.candHolds n i (v &&& 0xF07F)
          else (s.candHolds n i (v &&& 0xF07F)).abortSw n := by
  have hcycle : decide (88 ≤ bitsOf v 6 0) = false := decide_eq_false (by omega)
  have hpacket : isPacket ⟨bitsOf v 6 0, by omega⟩ = false := by simp [isPacket, h]
  unfold State.candSet
  extract_lets src cycle binding
  have hsrc : src = some ⟨bitsOf v 6 0, by omega⟩ := candOf_masked v h
  have hcyc : cycle = false := by simp only [cycle, hsrc, hcycle, Bool.false_and]
  have hbind : binding = false := by simp only [binding, hsrc, hpacket, Bool.false_and]
  rw [hcyc, hbind, if_neg (by decide)]
  rfl

theorem cand_masked (v : Word) : v &&& 0xF07F &&& 0xF07F = mix 0xF07F 0 v := by
  rw [BitVec.and_assoc, BitVec.and_self, mix_zero]

theorem State.candPut_r (s : State) (n i : Fin 16) (v : Word) :
    (s.candPut n i v).r .loop n.val (0x90 + 4 * i.val) = v &&& 0xF07F :=
  State.setReg_same ..

theorem State.candStore_r (s : State) (n i : Fin 16) (v : Word) :
    (s.candStore n i v).r .loop n.val (0x90 + 4 * i.val) = v &&& 0xF07F :=
  (State.reg_clearBars ..).trans (State.candPut_r ..)

theorem State.candCleared_r (s : State) (n i : Fin 16) :
    (s.candCleared n).r .loop n.val (0x90 + 4 * i.val) = s.r .loop n.val (0x90 + 4 * i.val) :=
  State.reg_wr_other (cand_ne n i).1

/-- Outside a transaction an entry is stored, and the bars of the loops that run under it go. -/
theorem completes_candWrite_stored {s : State} {p : Path} {n i : Fin 16} {v : Word}
    (hk : s.keeps p .loop n.val (0x90 + 4 * i.val) = true) (hsrc : bitsOf v 6 0 < 32)
    (hrole : (s.loops[n]).role ≠ .standby) (hsw : (s.loops[n]).sw = none) :
    Completes (.candWrite p n i v) s (fun t => t.r .loop n.val (0x90 + 4 * i.val) = mix 0xF07F 0 v
      ∧ ∀ m : Fin 16, (t.loops[m]).bars = if m = n ∨ s.govern m = n then 0 else (s.loops[m]).bars) := by
  have hexec := exec_candWrite v hk
  rw [State.candSet_taken hsrc, if_neg hrole, hsw] at hexec
  have hword := (State.candStore_r (s.candCleared n) n i (v &&& 0xF07F)).trans (cand_masked v)
  have hbars : ∀ m : Fin 16, (((s.candCleared n).candStore n i (v &&& 0xF07F)).loops[m]).bars
      = if m = n ∨ s.govern m = n then 0 else (s.loops[m]).bars := fun m => by
    refine (State.clearBars_bars ..).trans ?_
    rw [BitVec.not_allOnes, BitVec.and_zero]
    rfl
  generalize (s.candCleared n).candStore n i (v &&& 0xF07F) = t at hexec hword hbars
  exact completes_of_done hexec ⟨hword, hbars⟩

/-- A standby's own entry is stored and has no effect (R134). -/
theorem completes_candWrite_standby {s : State} {p : Path} {n i : Fin 16} {v : Word}
    (hk : s.keeps p .loop n.val (0x90 + 4 * i.val) = true) (hsrc : bitsOf v 6 0 < 32)
    (hrole : (s.loops[n]).role = .standby) :
    Completes (.candWrite p n i v) s (fun t => t.r .loop n.val (0x90 + 4 * i.val) = mix 0xF07F 0 v
      ∧ ∀ m : Fin 16, (t.loops[m]).bars = (s.loops[m]).bars) := by
  have hexec := exec_candWrite v hk
  rw [State.candSet_taken hsrc, if_pos hrole] at hexec
  have hword := (State.candPut_r (s.candCleared n) n i (v &&& 0xF07F)).trans (cand_masked v)
  exact completes_of_done hexec ⟨hword, fun _ => rfl⟩

/-! ## Entries held during a transaction (R121) -/

theorem State.listWith_congr {s t : State} {n : Fin 16}
    (h : ∀ j : Fin 16, t.r .loop n.val (0x90 + 4 * j.val) = s.r .loop n.val (0x90 + 4 * j.val))
    (ws : List (Fin 16 × Word)) : t.listWith n ws = s.listWith n ws := by
  simp only [State.listWith, h]

/-- The last of the held writes stands at the end of the transaction. -/
theorem State.endSw_r {s : State} {n i : Fin 16} {v : Word} {ws : List (Fin 16 × Word)}
    (hheld : (s.loops[n]).candHeld = ws ++ [(i, v)]) :
    (s.endSw n).r .loop n.val (0x90 + 4 * i.val) = v &&& 0xF07F := by
  have hspoil : ((s.loops[n]).spoilSecond (s.sampleRate n)).candHeld = ws ++ [(i, v)] :=
    (congrArg (·.2.2.2.2) ((s.loops[n]).spoilSecond_switching (s.sampleRate n))).trans hheld
  unfold State.endSw State.releaseCands
  extract_lets u hs t
  have hhs : hs = ws ++ [(i, v)] := by simp only [hs, u, State.modLoop_same, hspoil]
  rw [hhs, List.foldl_append]
  exact State.candStore_r ..

theorem State.abortSw_r {s : State} {n i : Fin 16} {v : Word} {ws : List (Fin 16 × Word)}
    (hrole : (s.loops[n]).role = .solo) (hsw : (s.loops[n]).sw.isNone = false)
    (hheld : (s.loops[n]).candHeld = ws ++ [(i, v)]) :
    (s.abortSw n).r .loop n.val (0x90 + 4 * i.val) = v &&& 0xF07F := by
  have hsolo : (((s.endSw n).modLoop n fun l => { l with evalDue := some .abort }).loops[n]).role = .solo := by
    rw [State.modLoop_same]
    exact (congrArg Prod.fst (s.endSw_switching n)).trans hrole
  rw [State.abortSw, hsw, if_neg Bool.false_ne_true, State.mirrorSel_of_solo hsolo]
  exact (State.reg_swapPending_ne (cand_ne n i).2 _).trans (State.endSw_r hheld)

theorem State.candHolds_loop (s : State) (n i : Fin 16) (v : Word) :
    (s.candHolds n i v).loops[n] = { s.loops[n] with candHeld := (s.loops[n]).candHeld ++ [(i, v)] } :=
  State.modLoop_same ..

theorem State.candHolds_r (s : State) (n i j : Fin 16) (v : Word) :
    (s.candHolds n i v).r .loop n.val (0x90 + 4 * j.val) = s.r .loop n.val (0x90 + 4 * j.val) :=
  s.candCleared_r n j

section
variable {s : State} {p : Path} {n i : Fin 16} {v : Word} {w : Sw} (hk : s.keeps p .loop n.val (0x90 + 4 * i.val) = true)
  (hsw : (s.loops[n]).sw = some w) (hrole : (s.loops[n]).role = .solo) (hsrc : bitsOf v 6 0 < 32)
include hk hsw hrole hsrc

/-- During a transaction a write is held while the list that it leaves names the target; else the transaction aborts. -/
theorem exec_candWrite_switching : exec (.candWrite p n i v) s
    = done s (if (s.listWith n ((s.loops[n]).candHeld ++ [(i, mix 0xF07F 0 v)])).any (fun x => decide (x = some w.tgt))
        then s.candHolds n i (mix 0xF07F 0 v) else (s.candHolds n i (mix 0xF07F 0 v)).abortSw n) := by
  have hstandby : (s.loops[n]).role ≠ .standby := by
    rw [hrole]
    decide
  rw [exec_candWrite v hk, State.candSet_taken hsrc, if_neg hstandby, hsw, mix_zero,
    ← State.listWith_congr (fun j => s.candHolds_r n i j (v &&& 0xF07F))]

/-- A held write leaves the transaction and the register. -/
theorem completes_candWrite_held
    (hnamed : (s.listWith n ((s.loops[n]).candHeld ++ [(i, mix 0xF07F 0 v)])).any (fun x => decide (x = some w.tgt)) = true) :
    Completes (.candWrite p n i v) s (fun t => (t.loops[n]).sw = some w
      ∧ (t.loops[n]).candHeld = (s.loops[n]).candHeld ++ [(i, mix 0xF07F 0 v)]
      ∧ t.r .loop n.val (0x90 + 4 * i.val) = s.r .loop n.val (0x90 + 4 * i.val)) := by
  have hexec := exec_candWrite_switching hk hsw hrole hsrc
  rw [hnamed, if_pos rfl] at hexec
  have hloop := s.candHolds_loop n i (mix 0xF07F 0 v)
  have hword := s.candHolds_r n i i (mix 0xF07F 0 v)
  generalize s.candHolds n i (mix 0xF07F 0 v) = t at hexec hloop hword
  refine completes_of_done hexec ?_
  have hsw' : (t.loops[n]).sw = some w := by rw [hloop, hsw]
  exact ⟨hsw', congrArg Loop.candHeld hloop, hword⟩

/-- A write that removes the target aborts the transaction, and takes effect with it. -/
theorem completes_candWrite_aborts
    (hgone : (s.listWith n ((s.loops[n]).candHeld ++ [(i, mix 0xF07F 0 v)])).any (fun x => decide (x = some w.tgt)) = false) :
    Completes (.candWrite p n i v) s (fun t => (t.loops[n]).sw = none ∧ (t.loops[n]).evalDue = some .abort
      ∧ (t.loops[n]).pbo = (s.loops[n]).pbo ∧ (t.loops[n]).candHeld = []
      ∧ t.r .loop n.val (0x90 + 4 * i.val) = mix 0xF07F 0 v) := by
  have hexec := exec_candWrite_switching hk hsw hrole hsrc
  rw [hgone, if_neg Bool.false_ne_true] at hexec
  have hloop := s.candHolds_loop n i (mix 0xF07F 0 v)
  generalize s.candHolds n i (mix 0xF07F 0 v) = u at hexec hloop
  have hrole' : (u.loops[n]).role = .solo := by rw [hloop, hrole]
  have hpbo' : (u.loops[n]).pbo = (s.loops[n]).pbo := by rw [hloop]
  have hsw' : (u.loops[n]).sw.isNone = false := by rw [hloop, hsw]; rfl
  have hheld : (u.loops[n]).candHeld = (s.loops[n]).candHeld ++ [(i, mix 0xF07F 0 v)] := by rw [hloop]
  have habort := State.abortSw_switching hrole' hsw'
  have hword := State.abortSw_r hrole' hsw' hheld
  rw [mix_zero, BitVec.and_assoc, BitVec.and_self, ← mix_zero] at hword
  generalize u.abortSw n = t at hexec habort hword
  simp only [State.switching, Loop.switching, Prod.mk.injEq] at habort
  obtain ⟨-, hpbo, hnone, hdue, hempty⟩ := habort
  exact completes_of_done hexec ⟨hnone, hdue, hpbo.trans hpbo', hempty, hword⟩

end

/-! ## CAND_BAR (R107) -/

theorem candBar_place : ∀ n : Fin 16, placeOf (key .loop n.val 0x28) = some ⟨.loop, n.val, 0x28⟩
    ∧ (⟨.loop, n.val, 0x28⟩ : Place).ofPath = false ∧ (⟨.loop, n.val, 0x28⟩ : Place).listed = true
    ∧ (⟨.loop, n.val, 0x28⟩ : Place).wideAt = none ∧ (⟨.loop, n.val, 0x28⟩ : Place).commands true = 0xFFFF := by
  decide

theorem setWidth_masked (v : Word) : (v &&& 0xFFFF).setWidth 16 = v.setWidth 16 := by
  rw [BitVec.setWidth_and]
  exact BitVec.and_allOnes

/-- A keeper's write of CAND_BAR clears the bars of the entries it names. -/
theorem exec_candBarClear {s : State} {p : Path} {n : Fin 16} (v : Word) (hk : s.keeps p .loop n.val 0x28 = true) :
    exec (.candBarClear p n v) s = done s (s.clearBars n (s.entrySources n (v.setWidth 16))) := by
  obtain ⟨hplace, hpath, hlisted, hwide, hcommands⟩ := candBar_place n
  simp only [State.keeps, State.reaches, Bool.and_eq_true, Bool.not_eq_true'] at hk
  obtain ⟨⟨⟨hc, he⟩, hd⟩, hkeep⟩ := hk
  have hwrite := State.placeWrite_eq_writeAt (v := v) (fw := none) hlisted hd (.inl hkeep) hwide
    (.inr (by rw [hkeep, hcommands]; decide))
  rw [hkeep, hcommands] at hwrite
  refine (regAccess_eq v hc he hplace hpath).trans (congrArg (done s) (hwrite.trans ?_))
  simp only [State.writeAt, State.writeLoop, finMod_val, setWidth_masked]

theorem completes_candBarClear {s : State} {p : Path} {n : Fin 16} (v : Word) (hk : s.keeps p .loop n.val 0x28 = true) :
    Completes (.candBarClear p n v) s (fun t => ∀ m : Fin 16, (t.loops[m]).bars = if m = n ∨ s.govern m = n
      then (s.loops[m]).bars &&& ~~~(s.entrySources n (v.setWidth 16)) else (s.loops[m]).bars) :=
  completes_of_done (exec_candBarClear v hk) (s.clearBars_bars n (s.entrySources n (v.setWidth 16)))

/-! ## The statement -/

/-- Settles O8: CFG by whether its write is refused, and by what EN and the selectors do; CAND by the loop's role and by
the transaction in progress; each other register by its own rule. -/
theorem loopEnableFreeAndRegisters : Obligations.LoopEnableFreeAndRegisters := by
  unfold Obligations.LoopEnableFreeAndRegisters
  refine ⟨⟨fun s p n hk hen htwin => completes_loopEnable hk hen htwin,
      fun s p n hk hen htwin hrole => completes_loopDisable hk hen htwin hrole,
      fun s p n d y hk htwin hrole hfree => completes_loopConsumerSelect hk htwin hrole hfree,
      fun s p n m d y hk htwin hm hnamed => exec_loopConsumerSelect_refused hk htwin hm hnamed,
      fun s p n hk hrole => completes_free hk hrole, fun s p n hk => exec_hoClear hk⟩,
    fun s p n v hk hrole hpos hmax hbudget => exec_sampleRateWrite_taken hk hrole hpos hmax hbudget,
    fun s p n v hk hbad => exec_sampleRateWrite_refused hk hbad, fun s p n v hk => exec_selectWrite v hk,
    fun s p n i v hk hsrc => ⟨fun hrole hsw => completes_candWrite_stored hk hsrc hrole hsw,
      fun hrole => completes_candWrite_standby hk hsrc hrole⟩, ?_, fun s p n v hk => completes_candBarClear v hk⟩
  rintro s p n i v w held hk hsw hrole hsrc rfl
  exact ⟨completes_candWrite_held hk hsw hrole hsrc, completes_candWrite_aborts hk hsw hrole hsrc⟩

end Sys2Proof.Machine
